-- ==== Sys2Proof/Word.lean ====
section
/-! DEFINITION. The word types of the device (00_scope.md, Notation) and the bounded numbers of its units. -/

namespace Sys2Proof

/-- A byte. -/
abbrev Byte := BitVec 8
/-- A word is 32 bits (Notation). -/
abbrev Word := BitVec 32
/-- A double word is 64 bits (Notation). -/
abbrev DWord := BitVec 64
/-- A PCIe function: 0 is PF0, 1 to 31 are VF1 to VF31 (R34, R282). -/
abbrev Fn := Fin 32
/-- A serial lane (R296). -/
abbrev Lane := Fin 96
/-- An Ethernet port (R299). -/
abbrev Port := Fin 16
/-- An HBM3E pseudo-channel (Table 8.4). -/
abbrev Pc := Fin 64
/-- A QDR-IV port (R235). -/
abbrev QPort := Fin 8
/-- A Skerry core (R273). -/
abbrev Core := Fin 8
/-- An interrupt source (R282). -/
abbrev Source := Fin 1024
/-- A local-time instant or a span of local time, in units of 2⁻³² ns since local time zero (R342). -/
abbrev Instant := Nat
/-- A 64-byte command packet as 16 words, word 0 first (R47). -/
abbrev Packet := Vector Word 16

end Sys2Proof
end

