-- ==== Sys2Proof/Syntax.lean ====
section
/-! DEFINITION. The steps of the device (spec/opcode_table.json): one constructor of Instr per row, with what the environment supplies to that step.
`dt` is the number of CLK_TIME ticks (2 ns each, R342) that have passed since the previous step (log 2). -/

namespace Sys2Proof

/-- A flow of commands: a host function's flow (R37), or a Ferry flow (R449). -/
inductive FlowRef where
  | host (f : Fn) (flow : Fin 256)
  | ferry (flow : Fin 4)
  deriving DecidableEq, Repr

/-- What the device receives when it reads an SQ slot (R43, R46). -/
inductive SlotRead where
  | packet (p : Packet)
  | error
  deriving DecidableEq, Repr

/-- What the device receives when it reads an INDIRECT block in host memory (R49). -/
inductive BlockRead where
  | bytes (b : List Byte)
  | error
  deriving DecidableEq, Repr

/-- What the PCIe accesses of one command's step meet: the INDIRECT block read, the answer write and the record write (R46, R49, R58). -/
structure Bus where
  block : BlockRead := .bytes []
  answerOk : Bool := true
  recordOk : Bool := true
  deriving DecidableEq, Repr

/-- Measurements the device publishes and does not compute (Tables 8.9 and 18.8): estimated power in W, VDD_CORE in mV, hotter stack in °C. -/
structure Measures where
  powerW : Nat := 0
  coreMv : Nat := 0
  hbmTemp : Nat := 0
  deriving DecidableEq, Repr

/-- Three planes of samples, each a list of rows. -/
structure Planes where
  y : List (List Nat) := []
  cb : List (List Nat) := []
  cr : List (List Nat) := []
  deriving DecidableEq, Repr

/-- A vector of motion search, in the samples of its level (Table 4.2): 1/16 area, 1/4 area, full, half and quarter samples. -/
structure Mv where
  x : Int := 0
  y : Int := 0
  deriving DecidableEq, Repr

/-- What levels 1 and 2 find for one 64×64 area of a picture in one of its reference pictures (R112, Table 4.1): the kept candidates of each level with their costs. -/
structure AreaSearch where
  col : Nat
  row : Nat
  ref : Nat
  level1 : List (Mv × Nat) := []
  level2 : List (Mv × Nat) := []
  deriving DecidableEq, Repr

/-- A prediction unit: its rectangle in luma samples of the picture, the reference picture, and the best vector after full-sample, half-sample and quarter-sample search (R112 levels 3 and 4). -/
structure PredUnit where
  x : Nat
  y : Nat
  w : Nat
  h : Nat
  ref : Nat
  /-- its vector is that of a merge candidate, not of a search -/
  merged : Bool := false
  full : Mv := {}
  half : Mv := {}
  quarter : Mv := {}
  deriving DecidableEq, Repr

/-- The coding tools of Tables 4.7 and 4.8. -/
inductive Tool where
  | cuBypass | transformSkip | signHiding | merge | amvp | amp | tmvp | strongIntra | crossComponent | wavefront | tiles
  | constrainedIntra | pcm | scalingLists | weightedPrediction | longTermRefs | dependentSlices
  | implicitRdpcm | extendedPrecision | persistentRice | bypassAlignment
  | deblocking | sao | alf | multiTypeTree | dualTree | wideAngles | mrl | cclm | affine | sbTmvp | mmvd | smvd | amvr | bcw
  | dmvr | bdof | prof | implicitMts | lfnst | jointCbCr | dependentQuant | gdr
  | mip | isp | sbt | gpm | ciip | bdpcm | palette | ibc | act | ccAlf | lmcs | subpictures | resampling | virtualBoundaries
  deriving DecidableEq, Repr

/-- A coding unit as mode decision chose it (R114): its square or rectangle in the CTU, intra or inter, the tools its syntax uses, its prediction units. -/
structure Cu where
  x : Nat
  y : Nat
  w : Nat
  h : Nat
  intra : Bool := true
  tools : List Tool := []
  units : List PredUnit := []
  deriving DecidableEq, Repr

/-- One complete coding of a CTU (R115, Table 4.1): estimated bits; bins, counted and as a string whose bin i is bit i; coefficients; reconstruction after the loop filters; SAO parameters. -/
structure Variant where
  bits : Nat := 0
  bins : Nat := 0
  string : Nat := 0
  coeffs : List Int := []
  recon : Planes := {}
  sao : List Int := []
  deriving DecidableEq, Repr

/-- What coding of one picture takes from the source that the manual does not disclose. -/
structure PicIn where
  /-- lookahead complexity c(j) of the pictures of the mini-GOP that begins here, in decoding order (R154, R170) -/
  costs : List Nat := []
  /-- reference pictures of a picture of distribution mode: list 0 and list 1 (R125 gives the hierarchy, not the lists) -/
  refs : List Nat × List Nat := ([], [])
  /-- VVC ALF coefficients derived from the picture before (R123) -/
  alf : List Int := []
  /-- bits of the previous picture's last slice group that no row count holds: headers, other NAL units, emulation prevention (R152, R153) -/
  tailBits : Nat := 0
  deriving DecidableEq, Repr

/-- Results of motion-search levels 1 and 2 that have become complete: for the picture whose rows are being coded, and, run ahead, for the next one (R112, R116, R117). -/
structure SearchIn where
  own : List AreaSearch := []
  ahead : List AreaSearch := []
  /-- lines of the row that a composed channel read poisoned from the COMPOSE ring (R248) -/
  poisoned : List Nat := []
  deriving DecidableEq, Repr

/-- ROW_START (R155): the channel, and what its motion search has completed. -/
structure RowIn where
  chan : Fin 64
  search : SearchIn := {}
  deriving DecidableEq, Repr

/-- What the Isle delivers for one CTU (R114, R115, R158): the mode decision; the codings at QP, at QP + ΔQP, at QP_MAX for floor mode, the lossless and the copy coding; the level-1 cost of the CTU or its decimated intra cost (R170); damage to the CHECK of the record it writes; whether a reference or lookahead row was read poisoned (R248). -/
structure CtuEst where
  cus : List Cu := []
  low : Variant := {}
  high : Variant := {}
  floor : Variant := {}
  lossless : Variant := {}
  copy : Variant := {}
  cost : Nat := 0
  damage : Word := 0
  poisoned : Bool := false
  deriving DecidableEq, Repr

/-- What an entropy engine gives in one run of a unit. -/
structure EntropyOut where
  /-- for each CTU row of the unit, the non-lossless and lossless bits of the records it coded in this run (R155) -/
  rows : List (Nat × Nat × Nat) := []
  /-- actual counts of lossless CTUs: row, column, bits, bins (R164) -/
  llCtus : List (Nat × Nat × Nat × Nat) := []
  /-- bytes that the run added to the unit (R136) -/
  bytes : List Byte := []
  /-- coder state where the run stopped before the unit's end; context state for the row below (R135) -/
  coder : List Byte := []
  context : List Byte := []
  /-- a word of a record was read poisoned (R248) -/
  poisoned : Bool := false
  deriving DecidableEq, Repr

/-- What the slice emitter takes to assemble a slice (R136 to R139): the slice header's bytes, cabac_zero_words, the NAL unit's temporal identifier, the sizes in bytes of those NAL units around it whose syntax the codec's standard gives; the NAL unit as it was read back where it differs from what was assembled, whether a word of it was read poisoned, and the size of its substitute. -/
structure SliceIn where
  header : List Byte := []
  zeroWords : Nat := 0
  tid : Nat := 0
  sizes : List Nat := []
  readBack : Option (List Byte) := none
  poisoned : Bool := false
  substBytes : Nat := 0
  deriving DecidableEq, Repr

/-- A run of samples of one row of a received picture (R305): row, sample offset, luma and chroma values. -/
structure RowSeg where
  row : Nat
  offset : Nat
  y : List Nat
  cb : List Nat := []
  cr : List Nat := []
  secondField : Bool := false
  deriving DecidableEq, Repr

/-- The fields of a received PTP message the device uses (R346-R354). Times in ns with 2⁻¹⁶ fraction units where the standard has them. -/
structure PtpMsg where
  /-- 0 Sync, 1 Delay_Req, 8 Follow_Up, 9 Delay_Resp, 11 Announce, 2 and 3 Pdelay, others management or signaling -/
  msgType : Nat
  domain : Nat := 0
  /-- source clockIdentity and port number -/
  source : Nat := 0
  sequence : Nat := 0
  /-- destination is 224.0.1.129 -/
  multicast : Bool := true
  twoStep : Bool := false
  /-- correctionField, in units of 2⁻¹⁶ ns -/
  correction : Int := 0
  deriving DecidableEq, Repr

/-- The dataset of an Announce (IEEE 1588-2019, as Table 13.9 reports it) and its interval. -/
structure AnnounceData where
  source : Nat
  domain : Nat := 0
  gmIdentity : Nat := 0
  gmPriority1 : Nat := 128
  gmClass : Nat := 248
  gmAccuracy : Nat := 254
  gmVariance : Nat := 65535
  gmPriority2 : Nat := 128
  stepsRemoved : Nat := 0
  /-- announce interval in ns -/
  intervalNs : Nat := 1000000000
  /-- ST 2059-2 synchronization metadata TLV, if carried (Table 13.2) -/
  metadata : Option (List Byte) := none
  deriving DecidableEq, Repr

/-- What an Ethernet frame carries, as far as R301 sorts it. -/
inductive RxPayload where
  | ptp (m : PtpMsg)
  /-- a request or a reply; src and dst of the frame are its sender and target addresses -/
  | arp (request : Bool)
  | icmpEcho
  | igmp
  /-- ST 2110-20: extended sequence number, RTP timestamp, row segments, sampled bits -/
  | video (seq : Nat) (ts : Nat) (segs : List RowSeg)
  /-- RTP of a compressed flow or of ST 2022-2 transport: 16-bit sequence number, timestamp, payload; marker: it ends an access unit, by the marker bit or by completing the PES packet (R217) -/
  | rtp (seq : Nat) (ts : Nat) (marker : Bool) (data : List Byte)
  /-- bare MPEG-2 transport; pesEnd: it completes a PES packet -/
  | transport (pesEnd : Bool) (data : List Byte)
  /-- ST 2110-30: sequence number, timestamp, samples by channel -/
  | audio (seq : Nat) (ts : Nat) (samples : List (List Int))
  /-- ST 2110-40 -/
  | ancillary (seq : Nat) (ts : Nat) (data : List Byte)
  | other
  deriving DecidableEq, Repr

/-- A received Ethernet frame (R300, R301): its length with FCS, what the receiver finds of it, and what it carries. -/
structure RxFrame where
  bytes : Nat
  fcsOk : Bool := true
  pause : Bool := false
  ipv4Udp : Bool := true
  fragment : Bool := false
  ipOptions : Bool := false
  vlanTags : Nat := 0
  dst : Word := 0
  udpDst : BitVec 16 := 0
  src : Word := 0
  payload : RxPayload := .other
  /-- the receive time stamp at the PCS (R300, R345) -/
  stamp : Instant := 0
  /-- codewords that the port's FEC has corrected and found uncorrectable since the frame before it (Table 11.11) -/
  fecCorr : Nat := 0
  fecUncorr : Nat := 0
  deriving DecidableEq, Repr

/-- One received SDI line (R311, R312): its active line, whether it starts a picture, its stamp at SAV, its line period in 2⁻³² ns, the links' skew in ns, payload identifier and CRC verdicts, samples. -/
structure SdiLine where
  line : Nat
  stamp : Instant
  period : Nat
  skewNs : Nat := 0
  payloadIdOk : Bool := true
  crcOk : Bool := true
  /-- detected rate code 3 to 5 and the /1.001 family (Table 11.12) -/
  rate : Nat := 5
  family1001 : Bool := false
  seg : RowSeg := { row := 0, offset := 0, y := [] }
  deriving DecidableEq, Repr

/-- The decoder errors of Table 7.4. -/
inductive DecError where
  | packetLoss | nalSyntax | parameterSet | sliceData | oversize | missingReference
  deriving DecidableEq, Repr

/-- A region-hash SEI message as received (Table 4.13). -/
structure HashSei where
  outPicture : DWord
  output : Byte
  x : BitVec 16
  y : BitVec 16
  w : BitVec 16
  h : BitVec 16
  hash : Word
  deriving DecidableEq, Repr

/-- What decoding one access unit gives (R213-R229): the bitstream's own facts. -/
structure AuIn where
  decoder : Fin 32
  /-- starts at an IRAP picture, or a recovery point / GDR picture completes here (R220, R223) -/
  irap : Bool := false
  recoveryDone : Bool := false
  startPoint : Bool := false
  /-- uses a replaced or concealed reference; references missing (R223) -/
  usesConcealed : Bool := false
  missingRefs : Nat := 0
  errors : List DecError := []
  /-- profile, in Table 7.3's order for the codec, and level of the active parameter sets (R220) -/
  profile : Nat := 0
  level : Nat := 0
  /-- pictures this access unit makes due for output under the codec's output process, each as how many decoded pictures before its own (R217) -/
  outputs : List Nat := [0]
  /-- areas to be concealed: x, y, width, height in luma samples (R222, Table 7.4) -/
  conceal : List (Nat × Nat × Nat × Nat) := []
  /-- coded size, and what the conformance window takes off it: left, right, top, bottom, in luma samples (R221) -/
  width : Nat := 0
  height : Nat := 0
  crop : Nat × Nat × Nat × Nat := (0, 0, 0, 0)
  /-- 1, 2, 3: 4:2:0, 4:2:2, 4:4:4; 0: 4:0:0 (R226) -/
  chromaIdc : Nat := 1
  eightBit : Bool := false
  samples : Planes := {}
  hashes : List HashSei := []
  lossFlag : Bool := false
  timingTref : Option Instant := none
  staleFlags : Option (Bool × DWord) := none
  /-- for the decoders of the engine: how many access units after its next one make the picture of that one due for output (R213, R217) -/
  dueAfter : List (Nat × Nat) := []
  /-- a RASL picture associated with the CRA at which decoding started (R220) -/
  rasl : Bool := false
  /-- a word of the bitstream or of a reference was read poisoned (R248) -/
  poisoned : Bool := false
  /-- slots of the DPB the level requires are not modelled; false when the engine reports buffer parity (class 7) -/
  parityOk : Bool := true
  deriving DecidableEq, Repr

/-- The clock domains of Table 1.5a that the clock monitor reports as sources 0 to 7, and CLK_CTL. -/
inductive ClockDomain where
  | isle | ent | fab | hbm | qdr | pcie | time | ferry | ctl
  deriving DecidableEq, Repr

/-- Why an audio port's clock is lost (R372), R370 apart: the edges of AUDn_BCLK in a window of 64 XTAL_IN periods, or no FSYNC edge. -/
inductive AudioLossCause where
  | bclk (edges : Nat)
  | fsync
  deriving DecidableEq, Repr

/-- Why a lane enters fault (R319). -/
inductive LaneFaultCause where
  /-- edges of the recovered clock in a window of 64 XTAL_IN periods, and their nominal number at the lane's rate (R31) -/
  | recoveredClock (edges nominal : Nat)
  | referenceClock | blockLock | highBer | fecAlignment
  /-- lines without timing reference signals -/
  | timingReference (lines : Nat)
  /-- code and disparity violations of a Causeway lane, by character number, oldest first (R315) -/
  | alignment (violations : List Nat)
  /-- skew of the Causeway's alignment markers, in characters (R315) -/
  | deskew (skew : Nat)
  deriving DecidableEq, Repr

/-- Pair states (Table 15.1). -/
inductive PairState where
  | unpaired | forming | resyncing | synced | mixed | diverged | degraded
  deriving DecidableEq, Repr

/-- Pair roles (R385). -/
inductive PairRole where
  | holder | standby | none
  deriving DecidableEq, Repr

/-- Claim keeper states (R403). -/
inductive Keeper where
  | released | asserting | holding
  deriving DecidableEq, Repr

/-- HEARTBEAT payload (Table 15.4a); lanes, first holder and object report are what formation compares (R386). -/
structure HbPayload where
  claim : Word
  tide : DWord
  state : PairState
  role : PairRole
  keeper : Keeper
  yieldSent : Bool := false
  trialBoot : Bool := false
  shed5 : Bool := false
  holdLow : Bool := false
  codingGen : Word
  shedStep : Nat := 0
  lastRecord : DWord := 0
  /-- the partner's PAIR_CONFIG LANES and FIRST_HOLDER, member bit, and whether it holds objects (R386) (log 11) -/
  lanes : Nat := 0
  firstHolder : Bool := false
  member : Bool := false
  hasObjects : Bool := false
  deriving DecidableEq, Repr

/-- A channel entry of a TIDE_RECORD (Table 15.4a). -/
structure ChEntry where
  channel : Nat
  lastSlice : Nat
  rcCrc : Word
  picture : Nat
  deriving DecidableEq, Repr

/-- An output entry of a TIDE_RECORD. -/
structure OutEntry where
  output : Nat
  serial : Nat
  picture : Nat
  stale : DWord
  deriving DecidableEq, Repr

/-- A tag entry of a TIDE_RECORD. -/
structure TagEntry where
  function : Nat
  flow : Nat
  tag : Word
  deriving DecidableEq, Repr

/-- A TIDE_RECORD with all its parts joined (R397). -/
structure TideRec where
  tide : DWord
  claim : Word
  shedStep : Nat
  channels : List ChEntry
  outputs : List OutEntry
  tags : List TagEntry
  deriving DecidableEq, Repr

/-- A SLICE_CHECK entry (Table 15.4a). -/
structure SliceCheckEntry where
  channel : Nat
  failed : Bool
  slice : Nat
  check : Word
  picture : Nat
  deriving DecidableEq, Repr

/-- A COMMAND frame's payload (Table 15.4a) with the INDIRECT block that BULK frames carried ahead of it. -/
structure MirrorCmd where
  serial : Nat
  function : Fn
  flow : Fin 256
  boundaryKind : Nat
  outcome : Byte
  boundary : Nat
  result0 : Word
  result1 : Word
  packet : Packet
  block : List Byte := []
  deriving DecidableEq, Repr

/-- An INPUT frame's entries (Table 15.4a, KIND 0 to 5). -/
inductive InputEntry where
  | tref (chan : Nat) (isOutput : Bool) (picture : Nat) (t : Instant)
  | verdict (chan : Nat) (v : Nat) (first : Nat) (run : Nat) (picture : Nat)
  | liveLine (output layer : Nat) (first run : Nat) (usePrevious : Bool) (picture : Nat)
  | decStamp (decoder : Nat) (au : Nat) (first last : Instant)
  | contentTime (output layer : Nat) (picture : Nat) (t : Instant)
  | audioBus (bus : Nat) (block : Nat) (samples : List Int)
  deriving DecidableEq, Repr

/-- The line a REPAIR_REQ or REPAIR_DATA names (Table 15.4a). -/
structure RepairLine where
  sdi : Bool
  source : Nat
  line : Nat
  picture : Nat
  deriving DecidableEq, Repr

/-- A BULK part (Table 15.4a). -/
structure BulkPart where
  kind : Nat
  buffer : Nat := 0
  object : Nat
  offset : Nat
  length : Nat
  data : List Byte
  deriving DecidableEq, Repr

/-- A TIME frame (R395). -/
inductive TimeFrame where
  | request (exchange : Nat) (t1 : Instant) (t2 : Instant)
  | response (exchange : Nat) (t1 t2 t3 t4 : Instant)
  deriving DecidableEq, Repr

/-- A SHED frame (Table 15.4a). -/
structure ShedFrame where
  kind : Nat
  step : Nat
  undo : Bool
  serial : Nat
  entries : List (Nat × Nat) := []
  deriving DecidableEq, Repr

/-- Why a received Causeway frame is discarded (R316, R394, R395, R402). -/
inductive BadFrame where
  | crc (seq : Nat) | unknownType | badLength | staleClaim (claim : Word) | nonzeroReserve
  deriving DecidableEq, Repr

/-- A request that a master port issues to the fast matrix (R253 to R255). -/
structure FabReq where
  /-- master port (Table 9.1) -/
  master : Fin 32
  write : Bool := false
  /-- device address of its first byte (R254) -/
  addr : BitVec 44
  /-- bytes it reads or writes -/
  len : Nat
  /-- bytes a write carries, and whether they are marked poisoned (R247) -/
  data : List Byte := []
  poisoned : Bool := false
  /-- host address in the sideband of a request to T40 (R254) -/
  host : Option DWord := none
  /-- function it acts for: the sideband of T40, or the window of an inbound access -/
  fn : Option Fn := none
  /-- Skerry core that makes it, and the command it serves, by serial number (Table 9.3, Table 8.7) -/
  core : Option Core := none
  cmd : Option Nat := none
  /-- its port has buffer space for the whole response of a read (R255) -/
  room : Bool := true
  /-- bytes that a target outside the memories and buffers returns to a read -/
  returned : List Byte := []
  deriving DecidableEq, Repr

/-- What ends a flash operation (R456): it is done, or a read-back differs, first in this block. -/
inductive FlashResult where
  | done
  | mismatch (block : Nat)
  deriving DecidableEq, Repr

/-- What a scrub read finds (R249). -/
inductive ScrubFind where
  | clean | correctable (onDie : Bool) | uncorrectable
  deriving DecidableEq, Repr

/-- What firmware asks of Harbour and of the time-event slots (R275, R277, R281). -/
inductive FwAct where
  /-- allocate a FREE thread, which becomes BLOCKED, or change a BLOCKED one: priority, and Harbour flow or none -/
  | set (t : Fin 1024) (prio : Fin 32) (flow : Option (Fin 256))
  /-- post an event to a thread -/
  | post (t : Fin 1024)
  /-- cancel a thread whose work is withdrawn -/
  | cancel (t : Fin 1024)
  /-- fill a time-event slot: instant, period or none, thread -/
  | slot (i : Fin 64) (at' : Instant) (period : Option Nat) (t : Fin 1024)
  /-- empty a time-event slot -/
  | clearSlot (i : Fin 64)
  /-- take the control events of trigger n for a thread, or for none (R359) -/
  | control (n : Fin 4) (t : Option (Fin 1024))
  deriving DecidableEq, Repr

/-- How a running thread yields (R280). -/
inductive YieldKind where
  | block | finish
  deriving DecidableEq, Repr

/-- The causes of shedding (R478, R486). -/
inductive Cause where
  | core | vddio | pin | hold
  deriving DecidableEq, Repr

/-- Causes of a warm reset (Table 19.5 WARM_CAUSE). -/
inductive WarmCause where
  | glbReset | activate | trialExpiry
  deriving DecidableEq, Repr

/-- The pins and straps as a cold reset samples them (R471). -/
structure Straps where
  pairMember : Bool := false
  bootSrc0 : Bool := false
  bootSrc1 : Bool := false
  /-- bit p: the training of QPORT p passes; bit i: PC i passes (R235, R246) -/
  qportTrainOk : BitVec 8 := 0xFF
  pcTrainOk : BitVec 64 := 0xFFFFFFFFFFFFFFFF
  claimIn : Bool := true
  holdN : Bool := true
  deriving DecidableEq, Repr

/-- What a host write to a function's PCIe configuration space changes (R40, R291). -/
inductive CfgWrite where
  | powerState (d3hot : Bool) (pmeEn : Bool)
  | busMaster (on : Bool)
  | msixEnable (on : Bool)
  | functionMask (on : Bool)
  | vfEnable (on : Bool)
  /-- the path to the host's memory behind the ring of CQ n changes: record writes to it meet PCIe errors from now on, or no longer do (R46) -/
  | ringWrites (n : Nat) (fail : Bool)
  deriving DecidableEq, Repr

/-- What a read of a function addresses: its configuration space (R2) or one of its windows (R76, R490, R491, R499, R500). -/
inductive ReadWindow where
  | config | ctl | snap | surf
  deriving DecidableEq, Repr

/-- PCIe link states (R291). -/
inductive LinkState where
  | l0 | l0s | l1 | l1sub
  deriving DecidableEq, Repr

/-- A supply or pin condition (R478): a bank (0 CFG, 1 SYS, 2 AUD) below 1.62 V, VDD_CORE below 0.70 V, SHED_REQ_N low. -/
inductive Supply where
  | core (below : Bool) | bank (b : Fin 3) (below : Bool) | shedReq (low : Bool)
  deriving DecidableEq, Repr

/-- A Ferry datagram's client: source address and source port (R448). -/
structure Client where
  addr : Word
  port : BitVec 16
  deriving DecidableEq, Repr

/-- A frame on the Ferry port (R446): an ARP request or an ICMP echo for an address, a UDP datagram with its source, its destination port and its bytes, or any other frame. -/
inductive FerryFrame where
  | arp (target : Word)
  | icmpEcho (target : Word)
  | datagram (c : Client) (dstPort : BitVec 16) (bytes : List Byte)
  | other
  deriving DecidableEq, Repr

/-- TRIGGER_EDGE (R357): ticks that the new level has held, and the capture time. -/
structure EdgeIn where
  held : Nat
  capture : Instant
  deriving DecidableEq, Repr

/-- CLOCK_LOSS (R31): the edges of a domain that the monitor has counted in a window of 64 XTAL_IN periods. -/
structure ClockWindow where
  domain : ClockDomain
  edges : Nat
  deriving DecidableEq, Repr

/-- LANE_FAULT (R319): the cause; a frame or line was partly received when it began. -/
structure LaneFaultIn where
  cause : LaneFaultCause
  partialRx : Bool := false
  deriving DecidableEq, Repr

/-- LANE_RELOCK (R319): the lane; in Causeway mode, K28.5 commas at one alignment with no violation between (R315). -/
structure LaneLock where
  lane : Lane
  commas : Nat := 0
  deriving DecidableEq, Repr

/-- PORT_DOWN (R320): uncorrectable codewords of the RS-FEC in 1 ms; whether the partner sends remote fault (IEEE 802.3). -/
structure PortFaultIn where
  uncorrectable : Nat := 0
  remote : Bool := false
  deriving DecidableEq, Repr

/-- PORT_UP (R320): the port; whether the partner sends remote fault. -/
structure PortLink where
  port : Port
  remote : Bool := false
  deriving DecidableEq, Repr

/-- PARITY_ALERT (R245, R246): the PC, and the command of its retry buffer, by number. -/
structure AlertIn where
  pc : Pc
  cmd : Nat
  deriving DecidableEq, Repr

/-- ARBITER_ROUND: requesters of an arbiter outside the matrix's own; requests that master ports issue, oldest first (R255); what the error code of a QDR-IV read says (R247). -/
structure RoundIn where
  requesters : List Nat := []
  issued : List FabReq := []
  found : ScrubFind := .clean
  deriving DecidableEq, Repr

/-- THREAD_EVENT (R275 to R277, R281): the thread whose awaited event arrives, if one does, and what firmware asks in the same CLK_CTL cycle. -/
structure ThreadIn where
  thread : Option (Fin 1024) := none
  acts : List FwAct := []
  deriving DecidableEq, Repr

/-- A read of a window: offset and bytes. -/
structure ReadIn where
  window : ReadWindow
  offset : Nat
  size : Nat
  deriving DecidableEq, Repr

/-- AUDIO_CLOCK_LOSS (R372): ticks that have passed, the port and the cause. -/
structure AudioLossIn where
  ticks : Nat
  port : Fin 8
  cause : AudioLossCause
  deriving DecidableEq, Repr

/-- The steps of the device: one constructor per row of spec/opcode_table.json, in its order. -/
inductive Instr where
  /-- DB_SQ (R42): function f writes v to DB_SQ[n]. -/
  | dbSq (f : Fn) (n : Nat) (v : Word)
  /-- DB_CQ (R42): function f writes v to DB_CQ[n]. -/
  | dbCq (f : Fn) (n : Nat) (v : Word)
  /-- SQ_ENABLE (R36): f writes v, with ENABLE 1, to SQ_CTL[n]. -/
  | sqEnable (f : Fn) (n : Nat) (v : Word)
  /-- SQ_DISABLE (R39): f writes v, with ENABLE 0, to SQ_CTL[n]. -/
  | sqDisable (f : Fn) (n : Nat) (v : Word)
  /-- CQ_ENABLE (R38): f writes v, with ENABLE 1, to CQ_CTL[n]. -/
  | cqEnable (f : Fn) (n : Nat) (v : Word)
  /-- CQ_DISABLE (R39): f writes v, with ENABLE 0, to CQ_CTL[n]. -/
  | cqDisable (f : Fn) (n : Nat) (v : Word)
  /-- SQ_ERROR_CLEAR (R46): f writes a 1 to ERROR of SQ_CTL[n]; v is the word written. -/
  | sqErrorClear (f : Fn) (n : Nat) (v : Word)
  /-- CQ_ERROR_CLEAR (R46): f writes a 1 to ERROR of CQ_CTL[n]; writesOk tells whether the held records can now be written. -/
  | cqErrorClear (f : Fn) (n : Nat) (v : Word) (failAt : Option Nat)
  /-- FUNC_QUOTA (R34): f writes v to FUNC_QUOTA[vf]. -/
  | funcQuota (f : Fn) (vf : Nat) (v : Word)
  /-- COMMAND_FETCH (R45): the device reads the next slot of SQ n of f. -/
  | commandFetch (f : Fn) (n : Nat) (slot : SlotRead)
  /-- UNKNOWN_OPCODE (R56): the command at the front of flow q has no opcode of Table 2.9. -/
  | unknownOpcode (q : FlowRef) (b : Bus)
  | nop (q : FlowRef) (b : Bus)
  | devQuery (q : FlowRef) (b : Bus)
  | snapshotConfig (q : FlowRef) (b : Bus)
  | fenceSignal (q : FlowRef) (b : Bus)
  | fenceWait (q : FlowRef) (b : Bus)
  /-- FENCE_WAIT_TIMEOUT (R69): the timeout of the FENCE_WAIT running in q expires. -/
  | fenceWaitTimeout (dt : Nat) (q : FlowRef)
  | funcReset (q : FlowRef) (b : Bus)
  | eventSubscribe (q : FlowRef) (b : Bus)
  | capacityQuery (q : FlowRef) (b : Bus)
  | chanCreate (q : FlowRef) (b : Bus)
  | chanConfig (q : FlowRef) (b : Bus)
  | chanStart (q : FlowRef) (b : Bus)
  | chanStop (q : FlowRef) (b : Bus)
  | chanDestroy (q : FlowRef) (b : Bus)
  | chanSetDelay (q : FlowRef) (b : Bus)
  | keyRequest (q : FlowRef) (b : Bus)
  | chanStatus (q : FlowRef) (b : Bus)
  | encProfile (q : FlowRef) (b : Bus)
  | encGop (q : FlowRef) (b : Bus)
  | rcConfig (q : FlowRef) (b : Bus)
  | rcUpdate (q : FlowRef) (b : Bus)
  | encRegion (q : FlowRef) (b : Bus)
  | encSpec (q : FlowRef) (b : Bus)
  | encMe (q : FlowRef) (b : Bus)
  | outCreate (q : FlowRef) (b : Bus)
  | layerSet (q : FlowRef) (b : Bus)
  | layerClear (q : FlowRef) (b : Bus)
  | composeCommit (q : FlowRef) (b : Bus)
  | lighthouseLoad (q : FlowRef) (b : Bus)
  | freshnessSet (q : FlowRef) (b : Bus)
  | surfaceAlloc (q : FlowRef) (b : Bus)
  | surfaceFree (q : FlowRef) (b : Bus)
  | surfaceUpdate (q : FlowRef) (b : Bus)
  /-- FLIP_TIME (R183): the flip time of the SURFACE_UPDATE running in q passes. -/
  | flipTime (dt : Nat) (q : FlowRef)
  /-- OUTPUT_PICTURE_COMPLETE (R183): picture m of output o finishes. -/
  | outputPictureComplete (dt : Nat) (o : Fin 32) (m : Nat)
  | decOpen (q : FlowRef) (b : Bus)
  | decClose (q : FlowRef) (b : Bus)
  | decPolicy (q : FlowRef) (b : Bus)
  | decStatus (q : FlowRef) (b : Bus)
  | laneConfig (q : FlowRef) (b : Bus)
  | portConfig (q : FlowRef) (b : Bus)
  | flowInAdd (q : FlowRef) (b : Bus)
  | flowOutAdd (q : FlowRef) (b : Bus)
  | flowRemove (q : FlowRef) (b : Bus)
  | shaperSet (q : FlowRef) (b : Bus)
  | gateSchedule (q : FlowRef) (b : Bus)
  /-- GATE_LIST_APPLY (R331): the waiting list of port p applies. -/
  | gateListApply (dt : Nat) (p : Port)
  | laneTest (q : FlowRef) (b : Bus)
  /-- LANE_TEST_DONE (R317): the test running in q has checked its blocks; what the channel has inverted on the way to the checker: bits by number; at a PAM4 rate the less and the more significant Gray-decoded bits, by symbol. -/
  | laneTestDone (dt : Nat) (q : FlowRef) (low high : List Nat)
  | eyeScan (q : FlowRef) (b : Bus)
  /-- EYE_SCAN_DONE (R318): the scan running in q has measured its last point; counts in grid order. -/
  | eyeScanDone (dt : Nat) (q : FlowRef) (counts : List Word) (b : Bus)
  | ptpConfig (q : FlowRef) (b : Bus)
  | timeSet (q : FlowRef) (b : Bus)
  | pulseSet (q : FlowRef) (b : Bus)
  | triggerSet (q : FlowRef) (b : Bus)
  | timeStatus (q : FlowRef) (b : Bus)
  | audPortConfig (q : FlowRef) (b : Bus)
  | audSlotmask (q : FlowRef) (b : Bus)
  | audRoute (q : FlowRef) (b : Bus)
  | audMute (q : FlowRef) (b : Bus)
  | pairConfig (q : FlowRef) (b : Bus)
  /-- PAIR_FORM_TIMEOUT (R386): the PAIR_CONFIG running in q is still FORMING after 1 s. -/
  | pairFormTimeout (dt : Nat) (q : FlowRef)
  | pairStatus (q : FlowRef) (b : Bus)
  | pairSwap (q : FlowRef) (b : Bus)
  | pairResync (q : FlowRef) (b : Bus)
  | pairMode (q : FlowRef) (b : Bus)
  | updBegin (q : FlowRef) (b : Bus)
  | updBlock (q : FlowRef) (b : Bus)
  | updVerify (q : FlowRef) (b : Bus)
  | updActivate (q : FlowRef) (b : Bus)
  | updConfirm (q : FlowRef) (b : Bus)
  | updAbort (q : FlowRef) (b : Bus)
  | paramDelta (q : FlowRef) (b : Bus)
  | paramCommit (q : FlowRef) (b : Bus)
  | updStatus (q : FlowRef) (b : Bus)
  /-- FLASH_OPERATION_COMPLETE (R456): the flash operation of the update command running in q ends. -/
  | flashOperationComplete (dt : Nat) (q : FlowRef) (r : FlashResult)
  | selftest (q : FlowRef) (b : Bus)
  /-- SELFTEST_COMPLETE (R438): the test running in q ends; failing step, or none. -/
  | selftestComplete (dt : Nat) (q : FlowRef) (fail : Option Nat)
  | calibrate (q : FlowRef) (b : Bus)
  | countersRead (q : FlowRef) (b : Bus)
  | faultInject (q : FlowRef) (b : Bus)
  | journalRead (q : FlowRef) (b : Bus)
  | regionMap (q : FlowRef) (b : Bus)
  | scrubConfig (q : FlowRef) (b : Bus)
  | memStatus (q : FlowRef) (b : Bus)
  | shedPolicy (q : FlowRef) (b : Bus)
  | shedStatus (q : FlowRef) (b : Bus)
  | shedClass (q : FlowRef) (b : Bus)
  /-- TIDE_BOUNDARY (R26). -/
  | tideBoundary (dt : Nat) (m : Measures)
  /-- PICTURE_START (R19): coding of the next picture of channel c starts. -/
  | pictureStart (dt : Nat) (c : Fin 64) (x : PicIn)
  /-- ROW_START (R155): the row controller of a channel plans its next CTU row. -/
  | rowStart (dt : Nat) (x : RowIn)
  /-- VARIANT_CHOICE (R158): the row controller of c treats its next CTU, with the Isle's estimates. -/
  | variantChoice (c : Fin 64) (e : CtuEst)
  /-- ENTROPY_UNIT_START (R135): idle engine e takes the ready unit and codes what is written of it. -/
  | entropyUnitStart (dt : Nat) (e : Fin 12) (o : EntropyOut)
  /-- SLICE_ASSEMBLY (R136): the emitter assembles and checks the next slice of c. -/
  | sliceAssembly (dt : Nat) (c : Fin 64) (x : SliceIn)
  /-- EGRESS_RELEASE (R328): the next emission group of output flow w reaches its release instant on copy B or A; poison: its slice was read poisoned from the slice queue, with the size in bytes of its substitute (R248). -/
  | egressRelease (dt : Nat) (w : Fin 2048) (copyB : Bool) (poison : Option Nat)
  /-- MAC_FRAME_SELECT (R324): the MAC of port p can start a frame. -/
  | macFrameSelect (dt : Nat) (p : Port)
  /-- OUTPUT_PICTURE_START (R173): the next picture of output o starts. -/
  | outputPictureStart (dt : Nat) (o : Fin 32)
  /-- OUTPUT_LINE_COMPOSE (R180): the next line of o is composed; layers whose source reads are poisoned on it (R248). -/
  | outputLineCompose (dt : Nat) (o : Fin 32) (poisoned : List Nat)
  /-- ACCESS_UNIT_DECODE (R213): engine e decodes its earliest pending access unit. -/
  | accessUnitDecode (dt : Nat) (e : Fin 4) (a : AuIn)
  /-- PRESENTATION_INSTANT (R225): the presentation instant of the next picture of decoder d arrives. -/
  | presentationInstant (dt : Nat) (d : Fin 32)
  /-- ETHERNET_FRAME_RX (R301): port p receives a frame. -/
  | ethernetFrameRx (dt : Nat) (p : Port) (fr : RxFrame)
  /-- SDI_LINE_RX (R312): lane l receives a line. -/
  | sdiLineRx (dt : Nat) (l : Lane) (x : SdiLine)
  /-- LINE_DEADLINE (R104): the deadline of channel c's next unjudged line passes; poisoned: its ring was read poisoned (R248). -/
  | lineDeadline (dt : Nat) (c : Fin 64) (poisoned : Bool)
  /-- REPAIR_DEADLINE (R398): T_ref + (l + 2) × T_line passes for line l of channel c. -/
  | repairDeadline (dt : Nat) (c : Fin 64) (line : Nat)
  /-- ANNOUNCE (R351): port p receives an Announce. -/
  | announce (dt : Nat) (p : Port) (a : AnnounceData)
  /-- SYNC (R348): port p receives a Sync; t1 and correction in 2⁻¹⁶ ns, t2 the receive stamp. -/
  | sync (dt : Nat) (p : Port) (m : PtpMsg) (t1 t2 : Int) (correction : Int) (intervalNs : Nat)
  /-- FOLLOW_UP (R348). -/
  | followUp (dt : Nat) (p : Port) (m : PtpMsg) (t1 : Int) (correction : Int)
  /-- DELAY_RESP (R348): t4 the master's receive stamp. -/
  | delayResp (dt : Nat) (p : Port) (m : PtpMsg) (t4 : Int) (correction : Int) (intervalNs : Nat)
  /-- DELAY_REQ (R346): the device sends a Delay_Req, stamped t3. -/
  | delayReq (dt : Nat) (t3 : Int)
  /-- MASTER_LOST (R351). -/
  | masterLost (dt : Nat)
  /-- TIME_EVENT (R277): slot i reaches its instant. -/
  | timeEvent (dt : Nat) (i : Fin 64)
  /-- PULSE_START (R355). -/
  | pulseStart (dt : Nat) (o : Fin 4)
  /-- PULSE_END (R355). -/
  | pulseEnd (dt : Nat) (o : Fin 4)
  /-- TRIGGER_EDGE (R357): TRIG_INn has changed its level. -/
  | triggerEdge (dt : Nat) (n : Fin 4) (rising : Bool) (x : EdgeIn)
  /-- TRIGGER_TIME (R358). -/
  | triggerTime (dt : Nat) (n : Fin 4)
  /-- CONTROL_EVENT (R359). -/
  | controlEvent (dt : Nat) (n : Fin 4)
  /-- CLOCK_LOSS (R31, R32): a window of the monitor has ended. -/
  | clockLoss (x : ClockWindow)
  /-- CLOCK_RETURN (R33). -/
  | clockReturn (d : ClockDomain)
  /-- LANE_FAULT (R319): lane l meets a cause. -/
  | laneFault (l : Lane) (x : LaneFaultIn)
  /-- LANE_RELOCK (R319): a lane has locked again. -/
  | laneRelock (x : LaneLock)
  /-- PORT_DOWN (R320): a lane of p is in fault, or its RS-FEC reports uncorrectable codewords. -/
  | portDown (p : Port) (x : PortFaultIn)
  /-- PORT_UP (R320): all lanes of the port are locked and the PCS is aligned. -/
  | portUp (x : PortLink)
  /-- HEARTBEAT_SEND (R396). -/
  | heartbeatSend (dt : Nat)
  /-- HEARTBEAT (R396). -/
  | heartbeat (dt : Nat) (h : HbPayload)
  /-- HEARTBEAT_MISS (R396). -/
  | heartbeatMiss (dt : Nat)
  /-- TIDE_RECORD (R397). -/
  | tideRecord (r : TideRec)
  /-- SLICE_CHECK (R399). -/
  | sliceCheck (e : SliceCheckEntry)
  /-- COMMAND (R389). -/
  | command (c : MirrorCmd)
  /-- OUTCOME (R389). -/
  | outcome (serial : Nat) (o : Byte) (r0 r1 : Word) (b : Bus)
  /-- INPUT (R391). -/
  | input (e : InputEntry)
  /-- REPAIR_REQ (R398). -/
  | repairReq (r : RepairLine)
  /-- REPAIR_DATA (R398): data parts, or not held. -/
  | repairData (dt : Nat) (r : RepairLine) (held : Bool) (offset total : Nat) (data : List Byte)
  /-- GROUP_END (R394). -/
  | groupEnd (flow : Fin 2048) (copyB : Bool) (serial : Nat)
  /-- YIELD (R406). -/
  | yield (dt : Nat) (claim : Word) (reason : Nat) (keyed : Bool) (swapTide : Nat)
  /-- BULK (R412). -/
  | bulk (p : BulkPart)
  /-- TIME (R392). -/
  | time (t : TimeFrame)
  /-- SHED (R411). -/
  | shed (f : ShedFrame)
  /-- SHED_ACK_TIMEOUT (R411). -/
  | shedAckTimeout (dt : Nat)
  /-- ACKNOWLEDGEMENT (R316): of the last frame received in order. -/
  | acknowledgement (seq : BitVec 16)
  /-- NEGATIVE_ACKNOWLEDGEMENT (R316): the first frame to resend. -/
  | negativeAcknowledgement (seq : BitVec 16)
  /-- RESEND_TIMEOUT (R316). -/
  | resendTimeout (dt : Nat)
  /-- CAUSEWAY_BAD_FRAME (R316). -/
  | causewayBadFrame (r : BadFrame)
  /-- CLAIM_IN_HIGH (R403): CLAIM_IN is high; dt ticks have passed. -/
  | claimInHigh (dt : Nat)
  /-- ASSERTING_WINDOW_END (R403). -/
  | assertingWindowEnd (dt : Nat)
  /-- CLAIM_IN_LOW (R403). -/
  | claimInLow (dt : Nat)
  /-- BACKOFF_EXPIRY (R403). -/
  | backoffExpiry (dt : Nat)
  /-- KEEPER_REFRESH (R404). -/
  | keeperRefresh (dt : Nat)
  /-- KEEPER_LAPSE (R404). -/
  | keeperLapse (dt : Nat)
  /-- KEEPER_RELEASE (R404). -/
  | keeperRelease (dt : Nat)
  /-- CLAIM_WAIT_EXPIRY (R406). -/
  | claimWaitExpiry (dt : Nat)
  /-- HOLD_N_LOW (R405). -/
  | holdNLow
  /-- STANDBY_SLICE_FREE (R394). -/
  | standbySliceFree (dt : Nat) (c : Fin 64)
  /-- REFRESH_DUE (R242); calOk tells whether a deferred calibration step of an emergency burst passes (R250). -/
  | refreshDue (dt : Nat) (p : Pc) (calOk : Bool)
  /-- MAKE_UP_BURST (R243); calOk tells whether a due calibration step passes (R439). -/
  | makeUpBurst (dt : Nat) (p : Pc) (calOk : Bool)
  /-- CALIBRATION_STEP_DUE (R250): by time, or by a temperature move of 4 °C to temp. -/
  | calibrationStepDue (dt : Nat) (p : Pc) (temp : Option Int)
  /-- CAL_DEFERRED (R250). -/
  | calDeferred (dt : Nat) (p : Pc)
  /-- AGE_PROMOTION (R241): request id of PC p. -/
  | agePromotion (dt : Nat) (p : Pc) (id : Nat)
  /-- NEXT_REQUEST (R239): the controller of p serves its next request; what the error codes of a read say (R247): an error corrected, on the die or by the controller; an uncorrectable one. -/
  | nextRequest (dt : Nat) (p : Pc) (corrected : Option Bool) (uncorrectable : Bool)
  /-- PARITY_ALERT (R245, R246): a command-parity alert. -/
  | parityAlert (dt : Nat) (x : AlertIn)
  /-- QDR_PARITY_ERROR (R238): for the access with this number. -/
  | qdrParityError (p : QPort) (access : Nat)
  /-- SCRUB (R249): the scrubber of HBM3E (or QDR-IV) reads the atom at addr. -/
  | scrub (dt : Nat) (hbm : Bool) (r : ScrubFind)
  /-- ARBITER_ROUND (R255, R258, R262): master ports issue the requests listed, oldest first; arbiter a ends its transaction and chooses the next. At arbiters 48 to 130 the
requesters are those listed (beside the queue of a QPORT); 131 + m is the response path of master port m (R258). -/
  | arbiterRound (dt : Nat) (a : Nat) (x : RoundIn)
  /-- STAGED_SET_APPLY (R264): arbiter a, holding no grant, applies the staged set. -/
  | stagedSetApply (a : Nat)
  /-- STARVATION (R267): the wait counter of requester i at a reaches its limit. -/
  | starvation (a i : Nat)
  /-- EMERGENCY_PREEMPTION (R268): an emergency requester takes arbiter a. -/
  | emergencyPreemption (a : Nat) (refresh : Bool)
  /-- REQUEST_WITHDRAWAL (R271). -/
  | requestWithdrawal (a i : Nat)
  /-- REQUESTER_MASK (R270): the mask of requester i of a is asserted or released. -/
  | requesterMask (a i : Nat) (on : Bool)
  /-- ERROR_RESPONSE (R259): the default target answers a request, one that the matrix holds or one that was issued and granted with this step. -/
  | errorResponse (dt : Nat) (held : Bool) (r : FabReq)
  /-- THREAD_EVENT (R275 to R277, R281): an awaited event arrives, or firmware acts. -/
  | threadEvent (dt : Nat) (x : ThreadIn)
  /-- PREFETCH_FILL (R278). -/
  | prefetchFill
  /-- THREAD_YIELD (R280): the thread of core c yields. -/
  | threadYield (dt : Nat) (c : Core) (y : YieldKind)
  /-- RUN_LIMIT (R280): core c's thread has run 50 µs; q is the command it served, if any. -/
  | runLimit (dt : Nat) (c : Core) (q : Option FlowRef)
  /-- SOURCE_LEVEL_CHANGE (R284): the synchronised level of source n follows its block. -/
  | sourceLevelChange (n : Source)
  /-- MSI_X_MESSAGE (R290). -/
  | msiXMessage (f : Fn) (v : Fin 16)
  /-- MODERATION_TIMER_EXPIRY (R290). -/
  | moderationTimerExpiry (dt : Nat) (f : Fn) (v : Fin 16)
  /-- REDIRECTION (R292). -/
  | redirection (dt : Nat) (n : Source)
  /-- FALLBACK_COMPLETION (R292). -/
  | fallbackCompletion (n : Source)
  /-- IRQ_CLAIM (R289): target t (function 0 to 31, core 32 to 39) reads its IRQ_CLAIM. -/
  | irqClaim (t : Fin 40)
  /-- IRQ_DONE (R284): target t writes v. -/
  | irqDone (t : Fin 40) (v : Word)
  /-- IRQ_BADDONE_CNT (R285): f reads the register. -/
  | irqBaddoneCnt (f : Fn)
  /-- IRQ_MASK_SET (R284): f writes v to word k. -/
  | irqMaskSet (f : Fn) (k : Fin 32) (v : Word)
  | irqMaskClr (f : Fn) (k : Fin 32) (v : Word)
  | irqPendSet (f : Fn) (k : Fin 32) (v : Word)
  | irqPendClr (f : Fn) (k : Fin 32) (v : Word)
  /-- IRQ_ROUTE (R288): f writes v to IRQ_ROUTE[n]. -/
  | irqRoute (f : Fn) (n : Source) (v : Word)
  /-- ARB_COMMIT (R264): f writes v. -/
  | arbCommit (f : Fn) (v : Word)
  /-- STARVED_CLEAR (R267): f writes v to ARB_STARVE_STAT. -/
  | starvedClear (f : Fn) (v : Word)
  /-- FAB_DECERR_CLEAR (R259): f writes v to FAB_DECERR_STAT. -/
  | fabDecerrClear (f : Fn) (v : Word)
  /-- LO_READ_LATCH (R5, R76, R491, R499, R500): f reads a window; a 4-byte read of a _LO register of CTLWIN latches the whole value. -/
  | loReadLatch (f : Fn) (x : ReadIn)
  /-- TIME_SEC_LO (R344): f reads it. -/
  | timeSecLo (f : Fn)
  /-- TIME_ADDEND (R343): f writes v with an access of size bytes. -/
  | timeAddend (f : Fn) (size : Nat) (v : DWord)
  /-- TIME_CAPT_READ (R362): f reads word 0 of TIME_CAPT[n]. -/
  | timeCaptRead (f : Fn) (n : Fin 4)
  /-- CRC_INIT (R436): f writes v, with INIT 1, to CRC_CTL[u]. -/
  | crcInit (f : Fn) (u : Fin 12) (v : Word)
  /-- CRC_OWNER_CHANGE (R436): f writes v to CRC_CTL[u] with another OWNER. -/
  | crcOwnerChange (f : Fn) (u : Fin 12) (v : Word)
  /-- CRC_RUNNING_WRITE (R434): a 4-byte write to _LO or _HI, or an 8-byte write. -/
  | crcRunningWrite (f : Fn) (u : Fin 12) (hi : Bool) (size : Nat) (v : DWord)
  /-- CRC_FOLD (R435). -/
  | crcFold (f : Fn) (u : Fin 12) (size : Nat) (v : DWord)
  /-- CRC_DATA (R433). -/
  | crcData (f : Fn) (u : Fin 12) (size : Nat) (v : DWord)
  /-- CRC_DATA_PORT (R433). -/
  | crcDataPort (f : Fn) (u : Fin 12) (bytes : List Byte)
  /-- FUNC_RESET_CTL (R423): f writes v. -/
  | funcResetCtl (f : Fn) (v : Word)
  /-- GLB_RESET (R475): f writes v. -/
  | glbReset (f : Fn) (v : Word)
  /-- SHED_STATE_READ (R489): f reads SHED_STATE. -/
  | shedStateRead (f : Fn)
  /-- SURFWIN_WRITE (R500): f writes bytes at offset. -/
  | surfwinWrite (f : Fn) (offset : Nat) (bytes : List Byte)
  /-- CTLWIN_BAD_ACCESS (R491): an access of a size or alignment CTLWIN does not accept. -/
  | ctlwinBadAccess (f : Fn) (offset : Nat) (size : Nat) (write : Bool)
  /-- REGISTER_WRITE (R6): an aligned 4- or 8-byte write of CTLWIN. -/
  | registerWrite (f : Fn) (offset : Nat) (size : Nat) (v : DWord)
  /-- FLR (R425). -/
  | flr (f : Fn)
  /-- HOST_RESET (R474). -/
  | hostReset
  /-- COLD_RESET (R472). -/
  | coldReset (st : Straps)
  /-- WARM_RESET (R473): the warm reset that has been started ends after dt ticks; training results of the memories. -/
  | warmReset (dt : Nat) (qportTrainOk : BitVec 8) (pcTrainOk : BitVec 64)
  /-- AVS_VID_STEP (R468): the requested code moves one step up or down. -/
  | avsVidStep (dt : Nat) (up : Bool)
  /-- CAUSE_ONSET (R478). -/
  | causeOnset (dt : Nat) (c : Cause)
  /-- CAUSE_END (R478). -/
  | causeEnd (dt : Nat) (c : Cause)
  /-- SHED_STEP_TAKEN (R481). -/
  | shedStepTaken (dt : Nat)
  /-- SHED_STEP_UNDONE (R482). -/
  | shedStepUndone (dt : Nat)
  /-- TRIAL_EXPIRY (R458). -/
  | trialExpiry (dt : Nat)
  /-- FERRY_COMMAND (R448): a valid COMMAND datagram from client c with sequence number seq. -/
  | ferryCommand (c : Client) (seq : Nat) (p : Packet)
  /-- FERRY_DATA (R450): a DATA datagram that R447 finds valid. -/
  | ferryData (c : Client) (offset : Nat) (bytes : List Byte)
  /-- FERRY_FRAME_RX (R446). -/
  | ferryFrameRx (fr : FerryFrame)
  /-- FERRY_LINK_LOSS (R456). -/
  | ferryLinkLoss (dt : Nat)
  /-- JOURNAL_WRITE (R443). -/
  | journalWrite (dt : Nat)
  /-- FAULT_INJECT_TIMEOUT (R440): q holds the armed injection. -/
  | faultInjectTimeout (dt : Nat) (q : FlowRef)
  /-- PORT_FRAME (R370): a frame of audio port p starts; the slave stamp; the slots' samples. -/
  | portFrame (dt : Nat) (p : Fin 8) (stamp : Instant) (samples : List Int)
  /-- BUS_FRAME (R363). -/
  | busFrame (dt : Nat)
  /-- MUTE_TIMEOUT (R376): bus n has been armed for 10 ms. -/
  | muteTimeout (dt : Nat) (n : Fin 128)
  /-- AUDIO_CLOCK_LOSS (R372): a port meets a cause of loss. -/
  | audioClockLoss (x : AudioLossIn)
  /-- AUDIO_CLOCK_RETURN (R373). -/
  | audioClockReturn (p : Fin 8)
  /-- ACQUIRING_DONE (R373). -/
  | acquiringDone (p : Fin 8)
  /-- PCIE_CONFIGURATION_WRITE (R291). -/
  | pcieConfigurationWrite (f : Fn) (w : CfgWrite)
  /-- LINK_POWER_STATE_CHANGE (R291). -/
  | linkPowerStateChange (dt : Nat) (l : LinkState)
  /-- HOLD_N_HIGH (R403). -/
  | holdNHigh
  /-- SUPPLY_MONITOR_CROSSING (R478). -/
  | supplyMonitorCrossing (dt : Nat) (x : Supply)
  /-- POWER_REMOVED (R476). -/
  | powerRemoved
  /-- QDR_RETRAIN_COMPLETE (R439): the retraining of CALIBRATE in q ends; steps passed, 4 if all. -/
  | qdrRetrainComplete (dt : Nat) (q : FlowRef) (passed : Nat)
  deriving DecidableEq, Repr

end Sys2Proof
end

