-- ==== Sys2Proof/Decode.lean ====
section
/-! DEFINITION. Words that spell a step. No row of spec/opcode_table.json gives bits: a step is an access, an event or a command, not a word. -/

namespace Sys2Proof

/-- The step that a word of nbits bits spells: none, since the table gives no row any bits. -/
def decodeTableWord (_nbits _w : Nat) : Option Instr := none

end Sys2Proof
end

