-- ==== Sys2Proof/Config.lean ====
section
/-! DEFINITION. What one implementation fixes and the manual does not give: constants without a body, so that no proof can see their value. -/

namespace Sys2Proof.Config

/-- Fused device serial number (R61, Table 2.16 SERIAL). The manual gives no value (log 7). -/
opaque serial : DWord
/-- FW_VERSION of the image a device boots when no update has been loaded (Table 17.2). The manual gives no value (log 7). -/
opaque fwVersion : Word
/-- CODING_GEN of that image (Table 17.2) (log 7). -/
opaque codingGen : Word
/-- SEC_VERSION of that image, 0 to 63 (Table 17.2) (log 7). -/
opaque secVersion : Fin 64
/-- The fused hash of key slot k: SHA-384 of a public key (R452) (log 7). -/
opaque keyHash : Nat → List Byte
/-- KEY_INDEX of that image, 0 to 3 (Table 17.2) (log 7). -/
opaque keyIndex : Fin 4
/-- SHA-384 (FIPS 180-4), named by R452 and not given by the manual (log 8). -/
opaque sha384 : List Byte → List Byte
/-- ECDSA P-384 verification (FIPS 186-5), named by R452: public key, message digest, signature (log 8). -/
opaque ecdsaValid : List Byte → List Byte → List Byte → Bool
/-- The fused AVS floor code, 0 to 60; the device uses at least code 10 (R468) (log 7). -/
opaque vidFloor : Fin 61
/-- A fresh value for the n-th point where the manual leaves a value of an answer or a result open (log 9). -/
opaque freeValue : Nat → Nat
/-- Coefficients of the transmit conversion over the 64 newest bus samples: R371 centres its filter on an instant whose later samples do not exist yet (log 10). -/
opaque asrcTxCoef : Nat → Nat → Int

/-- Chroma format (Table 6.1 codes, taken modulo 3) assumed for an ingest decoder of a given number before its stream is known: DEC_OPEN does not name one, and R215 needs s (log 24). -/
opaque ingestChroma : Nat → Nat
/-- Pictures in the DPB of a decoder of a given codec: R232 names "its declared level", which DEC_OPEN does not declare (log 24). -/
opaque dpbPictures : Nat → Nat

/-- Bank and row within its PC of a 512-byte block of HBM3E, by block number: Table 8.4 gives the PC and no more (R239, log 170). -/
opaque hbmBank : Nat → Nat
opaque hbmRow : Nat → Nat
/-- PC that holds a 4 KiB granule once PCs have been removed (R246): an index, taken modulo the PCs that remain, by the mask of the removed ones and the granule number (log 170). -/
opaque reducedPc : Nat → Nat → Nat
/-- Device address on bridge 0 of a function's register, by function and CTLWIN offset: Table 9.2 gives the bridge's range and no layout (R260, log 171). -/
opaque ctlwinBus : Nat → Nat → BitVec 44

/-- Sample by plane, row and column (taken modulo 1,024) of a hold picture when none exists yet: a run loses lines before it has coded a wholly received picture, and R104, R105 and R233 name no other content (log 165). -/
opaque noHold : Nat → Nat → Nat → Nat

/-- Colour code (Table 6.1 codes, taken modulo 4) of a source whose commands carry none: an SDI lane (kind 2) or a decoder (kind 3) of a given number (log 29). -/
opaque sourceColour : Nat → Nat → Nat

end Sys2Proof.Config
end

