-- ==== Sys2Proof/Machine/FMap.lean ====
section
/-! DEFINITION. Sparse tables: a finite map from numbers to values, kept as a list sorted by key with no repeats. -/

namespace Sys2Proof.Machine

/-- A sparse table keyed by numbers, sorted by key, no key twice. -/
abbrev FMap (α : Type) := List (Nat × α)

namespace FMap

/-- The entry at key k, if any. -/
def get? {α : Type} : FMap α → Nat → Option α
  | [], _ => none
  | (j, v) :: r, k => if j = k then some v else get? r k

/-- The entry at key k, or the value an unlisted key stands for. -/
def getD {α : Type} (m : FMap α) (k : Nat) (d : α) : α := (get? m k).getD d

/-- Put a value at key k, keeping the keys sorted. -/
def set {α : Type} : FMap α → Nat → α → FMap α
  | [], k, v => [(k, v)]
  | (j, w) :: r, k, v => if k < j then (k, v) :: (j, w) :: r else if j = k then (k, v) :: r else (j, w) :: set r k v

/-- Remove key k. -/
def erase {α : Type} : FMap α → Nat → FMap α
  | [], _ => []
  | (j, w) :: r, k => if j = k then erase r k else (j, w) :: erase r k

/-- Apply f to the entry at key k, if there is one. -/
def modify {α : Type} : FMap α → Nat → (α → α) → FMap α
  | [], _, _ => []
  | (j, w) :: r, k, f => if j = k then (j, f w) :: r else (j, w) :: modify r k f

/-- Whether key k is listed. -/
def has {α : Type} (m : FMap α) (k : Nat) : Bool := (get? m k).isSome

/-- Apply f to every entry. -/
def mapVals {α β : Type} (f : Nat → α → β) (m : FMap α) : FMap β := m.map (fun p => (p.1, f p.1 p.2))

/-- Keep the entries that satisfy p. -/
def keep {α : Type} (p : Nat → α → Bool) (m : FMap α) : FMap α := m.filter (fun e => p e.1 e.2)

/-- The least number below n that is not a key: "the lowest free number" (R79, R172, R216). -/
def lowestFree {α : Type} (m : FMap α) (n : Nat) : Option Nat := (List.range n).find? (fun k => !(has m k))

/-- Keys strictly rise. -/
def wf {α : Type} : FMap α → Bool
  | [] => true
  | [_] => true
  | (j, _) :: (k, w) :: r => decide (j < k) && wf ((k, w) :: r)

end FMap
end Sys2Proof.Machine
end

