-- ==== Sys2Proof/Machine/StateAudio.lean ====
section
/-! DEFINITION. State of the audio ports and buses (14). -/

namespace Sys2Proof.Machine

/-- A source of a bus (Table 14.2). -/
inductive BusSrc where
  | none
  | slot (port slot : Nat)
  | flow (flow channel : Nat)
  deriving DecidableEq, Repr

/-- What an armed bus does when it switches (R375, R376, R377): the serial of its command. -/
inductive BusArm where
  | mute (serial : Nat)
  | unmute (serial : Nat)
  /-- step 1 of a source change: mute on the old source, then take the new one -/
  | change (serial : Nat) (src : BusSrc)
  /-- step 3 of a source change -/
  | rejoin (serial : Nat)
  /-- the unmute after a port's clock has returned (R373) -/
  | clock
  deriving DecidableEq, Repr

/-- A bus (R363, R374 to R377). -/
structure BusSt where
  /-- owner, while its source is set (R374); reset none -/
  owner : Option Fn := none
  /-- source (R374); reset none -/
  src : BusSrc := .none
  /-- it outputs zero (R376); reset not muted -/
  muted : Bool := false
  /-- silent since its port's clock returned, until the port runs (R373); reset false -/
  clockMuted : Bool := false
  /-- armed switch, with the instant of the boundary at which it armed; reset none -/
  armed : Option (BusArm × Instant) := none
  /-- requests that arm at the next bus frame boundary: the request, and IMMEDIATE (R376) -/
  next : List (BusArm × Bool) := []
  /-- last source sample (R376) -/
  lastIn : Int := 0
  /-- source samples of the current block, newest first (R364, R391) -/
  blockIn : List Int := []
  deriving DecidableEq, Repr

/-- AUD_PORT_CONFIG of a port (Table 14.1); reset off. -/
structure AudPortCfg where
  format : Nat := 0
  master : Bool := false
  fs96 : Bool := false
  slots : Nat := 0
  fsyncDelay : Bool := false
  fsyncPol : Bool := false
  edge : Bool := false
  txIdle : Bool := false
  deriving DecidableEq, Repr

/-- What the pins of a port carry for one frame (R366, Table 14.1), by BCLK period: the level of FSYNC or LRCLK where the port is master, the BCLK periods by which the data follow it, the data bits by slot, most significant first (none: high impedance), and whether they change on the rising edge. -/
structure AudioWave where
  sync : List Bool
  delay : Nat
  data : List (Option Bool)
  risingDrive : Bool
  deriving DecidableEq, Repr

/-- An audio port (R366 to R373). -/
structure AudPort where
  cfg : AudPortCfg := {}
  /-- STATE (Table 14.3): 0 off, 1 clock lost, 2 acquiring, 3 running; reset 0 -/
  st : Nat := 0
  /-- RX_MASK and TX_MASK in force; reset 0 (no slot is configured) -/
  rxMask : Nat := 0
  txMask : Nat := 0
  /-- masks that wait for the next port frame: command serial, masks (R368) -/
  nextMasks : List (Nat × Nat × Nat) := []
  /-- stamps of the last 1,025 frames, newest first, in 2⁻³² ns (R370) -/
  stamps : List Instant := []
  /-- smoothed instant u of the last frame, in 2⁻¹⁶ ns (R370) -/
  u : Option Int := none
  /-- frames seen since the estimate was restarted (R370, R373) -/
  frames : Nat := 0
  /-- frame numbers of the last slips (R370) -/
  slips : List Nat := []
  /-- recent frames: smoothed instant in 2⁻¹⁶ ns, samples by slot, newest first (R371) -/
  recent : List (Int × List Int) := []
  /-- next frame number of a master port (R367) -/
  nextFrame : Nat := 0
  inserted : Nat := 0
  dropped : Nat := 0
  losses : Nat := 0
  /-- source 32 + n condition (R372); reset 0 -/
  lostSrc : Bool := false
  deriving DecidableEq, Repr

/-- The audio unit (R363 to R383). -/
structure Audio where
  /-- FS_BUS is 96 kHz (R366); reset 48 kHz -/
  fs96 : Bool := false
  /-- BUS_LAT in µs (R366); reset 2,000 -/
  busLat : Nat := 2000
  /-- ports 0 to 7; unlisted: reset port -/
  ports : FMap AudPort := []
  /-- buses 0 to 127; unlisted: reset bus -/
  buses : FMap BusSt := []
  /-- transmit slots connected: port × 32 + slot to bus (R374) -/
  txSlots : FMap Nat := []
  /-- transmit-slot and ST 302 changes that wait for the next bus frame boundary: command serial (R374) -/
  nextRoutes : List Nat := []
  /-- functions whose reset acts on their buses at the next bus frame boundary (R382) -/
  resets : List Nat := []
  /-- next bus sample number (R363) -/
  nextSample : Nat := 0
  /-- bus samples below this number repeat after a backward clock step (R364); reset 0 -/
  repeatUntil : Nat := 0
  /-- recent bus samples by bus, newest first (R371, R380) -/
  samples : FMap (List (Nat × Int)) := []
  /-- AUD_STEP_FRAMES (R364); reset 0 -/
  stepFrames : Nat := 0
  /-- audio commands in progress: serial, buses still waiting, timeouts, superseded buses (R376, R377) -/
  cmds : FMap (List Nat × Nat × Bool) := []
  deriving DecidableEq, Repr

end Sys2Proof.Machine
end

