-- ==== Sys2Proof/Machine/StateChan.lean ====
section
/-! DEFINITION. State of channels, their configuration, coding, rate control, Lagoon and slice queues (03, 04, 05). -/

namespace Sys2Proof.Machine

/-- Channel states (Table 3.2). -/
inductive ChanState where
  | idle | armed | running | draining
  deriving DecidableEq, Repr

/-- CHAN_CONFIG as accepted (Table 3.1), TOTAL_LINES resolved by R81. -/
structure ChanCfg where
  srcKind : Nat
  refMode : Nat
  srcIndex : Nat
  width : Nat
  height : Nat
  rateNum : Nat
  rateDen : Nat
  totalLines : Nat
  lossPolicy : Nat
  shedClass : Nat
  deriving DecidableEq, Repr

/-- ENC_PROFILE as accepted (Table 4.6). -/
structure EncProfile where
  codec : Nat
  profile : Nat
  chroma : Nat
  tier : Nat
  level : Nat
  ctuSmall : Bool
  /-- k, CTU rows per slice -/
  sliceRows : Nat
  parallel : Nat
  tileCols : Nat
  deriving DecidableEq, Repr

/-- ENC_GOP (Table 4.9). Before any ENC_GOP: low-delay P, one reference, no periodic key pictures, STAGGER_AUTO 1 (the default the table gives; the others DESIGN CHOICE, log 15). -/
structure EncGop where
  structure' : Nat := 0
  nRef : Nat := 1
  miniGop : Nat := 0
  lookahead : Nat := 0
  keyInterval : Nat := 0
  keyKind : Nat := 0
  refreshPics : Nat := 2
  staggerSlot : Nat := 0
  staggerAuto : Bool := true
  deriving DecidableEq, Repr

/-- ENC_SPEC (Table 4.4) with its defaults. -/
structure EncSpec where
  dualQp : Bool := true
  runAhead : Bool := true
  deltaQp : Nat := 2
  deriving DecidableEq, Repr

/-- ENC_ME (Table 4.3) with its defaults. -/
structure EncMe where
  l1Range : Nat := 2
  l3Range : Nat := 1
  deriving DecidableEq, Repr

/-- RC_CONFIG (Table 5.1). -/
structure RcCfg where
  mode : Nat
  hrd : Bool
  react : Nat
  keyBoost : Nat
  rateMax : Nat
  rateTgt : Nat
  rowCap : Nat
  cpbSize : Nat
  qpMin : Nat
  qpMax : Nat
  qpInit : Nat
  cqQp : Nat
  /-- FLOOR_CTU, default resolved -/
  floorCtu : Nat
  /-- V_TARGET, default resolved -/
  vTarget : Nat
  /-- LL_CTU_BITS; 0 selects W_ll (R163) -/
  llCtuBits : Nat
  deriving DecidableEq, Repr

/-- ENC_REGION (Table 5.4). -/
structure Region where
  kind : Nat := 0
  qpOffset : Int := 0
  x : Nat := 0
  y : Nat := 0
  w : Nat := 0
  h : Nat := 0
  deriving DecidableEq, Repr

/-- The coding parameters that change at a picture start (R27). -/
structure Coding where
  gop : EncGop := {}
  spec : EncSpec := {}
  me : EncMe := {}
  rc : Option RcCfg := none
  /-- regions 0 to 7 (R162); unlisted: off -/
  regions : FMap Region := []
  deriving DecidableEq, Repr

/-- A Lagoon record (Table 4.10): the fields of its header, and its payload as a string whose bin i is bit i. -/
structure CtuRec where
  channel : Nat := 0
  rowEnd : Bool := false
  picEnd : Bool := false
  variant : Bool := false
  lossless : Bool := false
  copy : Bool := false
  ctuX : Nat
  ctuY : Nat := 0
  picture : Nat := 0
  qp : Nat
  slice : Nat := 0
  binCount : Nat
  estBits : Nat
  /-- CHECK as written -/
  check : Word := 0
  /-- it carries poison from a reference or lookahead row (R247, R248) -/
  poisoned : Bool := false
  payload : Nat := 0
  deriving DecidableEq, Repr

/-- What the parameter sets of a stream say (R122, R123, R147, R149). -/
structure ParamSets where
  codec : Nat
  profile : Nat
  tier : Nat
  level : Nat
  chroma : Nat
  depth : Nat
  width : Nat
  height : Nat
  ctu : Nat
  /-- first CTU column of each tile column, and the end (R122, R124) -/
  columns : List Nat
  sliceRows : Nat
  numRef : Nat
  /-- tools whose enabling flag is 1 (Tables 4.7 and 4.8) -/
  tools : List Tool
  /-- cu_qp_delta_enabled_flag, and the depth of quantisation groups below the CTU (R147) -/
  cuQpDelta : Bool := true
  qpGroupDepth : Nat := 0
  /-- loop filtering across tile and slice boundaries (R124) -/
  filterAcross : Bool := true
  /-- the one NAL HRD schedule: bit_rate in bit/s, cpb_size in bits, cbr_flag (R149) -/
  hrd : Option (Nat × Nat × Bool) := none
  deriving DecidableEq, Repr

/-- The NAL units of Table 4.11, in its order. -/
inductive NalKind where
  | aud | vps | sps | pps | aps | bufferingPeriod | pictureTiming | recoveryPoint | timing | slice | filler | lossFlag | staleBitmap | regionHash | endOfBitstream
  deriving DecidableEq, Repr

/-- How a slice's CTUs are coded where it is a substitute (R139). -/
inductive SliceBody where
  /-- the units of the entropy engines -/
  | coded
  /-- every CTU skipped, or intra DC in I slices, with zero residual; SAO and ALF off -/
  | substitute
  deriving DecidableEq, Repr

/-- What the spec states of a NAL unit's content: the bytes, or the values of its fields where the codec's standard gives the syntax. -/
inductive NalBody where
  | bytes (b : List Byte)
  | none
  | params (p : ParamSets)
  /-- ALF coefficients (R123) -/
  | alf (coeffs : List Int)
  /-- initial_cpb_removal_delay and initial_cpb_removal_offset (R150) -/
  | buffering (delay offset : Nat)
  /-- cpb_removal_delay and dpb_output_delay (R150) -/
  | pictureTiming (removal output : Nat)
  /-- recovery_poc_cnt (R129) -/
  | recovery (count : Nat)
  /-- picture and slice numbers, I slice, entry-point offsets, ph_recovery_poc_cnt of a VVC GDR picture (R129, R136, R139) -/
  | slice (picture slice : Nat) (intra : Bool) (entries : List Nat) (recovery : Option Nat) (body : SliceBody)
  deriving DecidableEq, Repr

/-- A NAL unit of an access unit (R141): its type, its size in bytes after emulation prevention, and its content. -/
structure Nal where
  kind : NalKind
  type : Nat
  size : Nat
  body : NalBody := .none
  deriving DecidableEq, Repr

/-- A CTU's chosen reconstruction and the Isle that coded it (R109, R110). -/
structure CtuRecon where
  isle : Nat
  samples : Planes
  deriving DecidableEq, Repr

/-- What the entropy engines hold of a unit between runs and after it (R135, R136). -/
structure UnitOut where
  bytes : List Byte := []
  coder : List Byte := []
  context : List Byte := []
  /-- a record CHECK did not match: the unit ended as failed (R136) -/
  failed : Bool := false
  /-- a word of it was read poisoned (R137, R248) -/
  poisoned : Bool := false
  deriving DecidableEq, Repr

/-- Row modes (R157). -/
inductive RowMode where
  | normal | floor | copy
  deriving DecidableEq, Repr

/-- One CTU row of a picture as the row controller plans and codes it (R155 to R160). -/
structure Row where
  mode : RowMode := .normal
  /-- allowance a, b_row, q_row of the plan (R155) -/
  a : Int := 0
  bRow : Int := 0
  qRow : Int := 0
  /-- ll_est(n, r) and ll_bins_est(n, r) (R164) -/
  llEst : Nat := 0
  llBinsEst : Nat := 0
  /-- next CTU column to choose -/
  next : Nat := 0
  /-- e, bins, k, drift, cut of code_row (R158) -/
  e : Nat := 0
  bins : Nat := 0
  k : Nat := 0
  drift : Int := 0
  cut : Bool := false
  /-- sum of the quantisers of counted CTUs and their number (R156) -/
  qpSum : Nat := 0
  counted : Nat := 0
  /-- Isle estimate of the row's non-lossless CTUs (R153) -/
  estNl : Nat := 0
  /-- actual non-lossless and lossless bits, once known (R20, R155) -/
  actual : Option (Nat × Nat) := none
  /-- records of the row that no engine has read (R132, R133) -/
  records : List CtuRec := []
  /-- non-lossless and lossless bits of the records read so far (R155) -/
  count : Nat × Nat := (0, 0)
  deriving DecidableEq, Repr

/-- Key-picture kinds (R127). -/
inductive KeyKind where
  | idr | cra | refresh
  deriving DecidableEq, Repr

/-- What a group of a channel stream carries beside its NAL units in MPEG-2 transport (R144, R381). -/
structure TsExtra where
  /-- slice 0: a PES packet begins -/
  pes : Bool := false
  pcr : Bool := false
  pat : Bool := false
  /-- ST 302 PES packets that ride in the group, and their buses -/
  audio : Nat := 0
  buses : Nat := 0
  /-- number of the first of them: PES packet k carries [k, k + 1) ms (R381) -/
  firstMs : Nat := 0
  deriving DecidableEq, Repr

/-- A slice waiting in the slice queue or for its groups (R140). -/
structure SliceQ where
  picture : Nat
  slice : Nat
  /-- E(n, s) in 2⁻³² ns (R86) -/
  due : Rat
  /-- it stands for the end-of-bitstream NAL unit alone (R99, R100) -/
  marker : Bool := false
  /-- it waited for room in the queue, and is counted in LATE_SLICES for that (R160) -/
  waited : Bool := false
  /-- sizes in bytes of the group's NAL units, in order (R140) -/
  nals : List Nat
  /-- which of them is the slice, the first CTU row of the slice, and what its group carries in MPEG-2 transport -/
  sliceAt : Nat := 0
  rowA : Nat := 0
  extra : TsExtra := {}
  /-- slice check value; 0 for a substitute (R138) -/
  check : Word
  substitute : Bool
  /-- the first slice of its R86 group -/
  firstOfRow : Bool
  /-- end-of-bitstream NAL unit (R99) -/
  eob : Bool := false
  /-- output flows that carry it, with its group's serial in each (R394, R407) -/
  groups : List (Nat × Nat) := []
  /-- its first frame has started on some flow (R87) -/
  begun : Bool := false
  deriving DecidableEq, Repr

/-- A picture of a run that has started; its counts are read by later pictures (R84, R156, R164). -/
structure Pic where
  number : Nat
  /-- T_ref (R85) -/
  tref : Instant
  /-- the delay its slices use (R90), in 2⁻³² ns, S included (R126) -/
  delay : Rat
  /-- the parameters in force for the whole picture (R27) -/
  coding : Coding
  key : Option KeyKind := none
  /-- index in a gradual refresh (R129) -/
  refreshIdx : Option Nat := none
  /-- coded at two quantisers unless an exception of R115 applies (R115, R120) -/
  dual : Bool := true
  /-- I slices -/
  intra : Bool := false
  /-- display position (R126) -/
  display : Nat := 0
  /-- lossless rectangles in luma samples: the regions of KIND 2 and the Lighthouse region (R163) -/
  lossless : List (Nat × Nat × Nat × Nat) := []
  /-- Lighthouse region whose hash is sent, if loaded (R204): output and rectangle -/
  lighthouse : Option Nat := none
  /-- output picture number of a composed channel (R141) -/
  outPicture : Nat := 0
  /-- b_nl: the nominal bits of the picture, its lossless reserve taken off (R154) -/
  bNl : Int := 0
  /-- rows planned so far, by number -/
  rows : FMap Row := []
  /-- entropy units that have ended, by slice (R134) -/
  unitsDone : FMap (List Nat) := []
  /-- what the engines hold of each unit, by slice × 256 + unit (R135, R136) -/
  units : FMap UnitOut := []
  /-- reference pictures: list 0 and list 1 (R125) -/
  refs : List Nat × List Nat := ([], [])
  /-- hierarchy level in a mini-GOP; 0 outside distribution mode (R125, R169) -/
  level : Nat := 0
  /-- complexity: the sum of its CTUs' level-1 costs as they were coded (R169, R170) -/
  cost : Nat := 0
  /-- vectors of its prediction units, which the next picture's search starts from (R112) -/
  vectors : List PredUnit := []
  /-- reconstruction of the chosen variants, by row × 65536 + column (R109, R110) -/
  recon : FMap CtuRecon := []
  /-- ALF coefficients in use (R123) -/
  alf : List Int := []
  /-- source picture whose rows it codes (R84); none under an input-loss policy -/
  source : Option Nat := none
  /-- K_ref of the gradual refresh it belongs to (R129) -/
  refreshLen : Nat := 0
  /-- motion-search levels 1 and 2 ran ahead for it (R117) -/
  ahead : Bool := false
  /-- rate-control stalls of the picture (R20; class 8 beyond one, Table 16.1) -/
  stalls : Nat := 0
  /-- it has been counted in HRD_VIOLATIONS (R151, R154, R161) -/
  violated : Bool := false
  /-- lossless actual counts of this picture, by row × 65536 + column: bits, bins (R164) -/
  llActual : FMap (Nat × Nat) := []
  /-- slices assembled -/
  slices : Nat := 0
  /-- bits of the access unit known so far, filler excluded (R152) -/
  bits : Nat := 0
  /-- bits of the NAL units counted in `bits` before the first slice of the last tile row or slice row (R153) -/
  bitsBeforeLast : Nat := 0
  /-- F(n) once computed (R151) -/
  filler : Option Nat := none
  /-- loss flags to send: first picture of the loss, first affected row, cause, policy (Table 4.13) -/
  loss : List (Nat × Nat × Nat × Nat) := []
  /-- stale flags: source stale, layers (Table 4.13) -/
  staleSrc : Bool := false
  staleLayers : Nat := 0
  deriving DecidableEq, Repr

/-- What the channel sees of its source (R85, R104 to R106). -/
structure ChanIn where
  /-- lost lines that the hold picture's replace, by source picture (R104, R233) -/
  replaced : FMap (List Nat) := []
  /-- T_refs of source pictures that have begun and have not been started, oldest first, with the source's picture number; none for a picture under an input-loss policy (R85) -/
  pending : List (Instant × Option Nat) := []
  /-- 0 locked, 1 lost, 2 restoring (Table 3.7); reset 0 -/
  status : Nat := 0
  /-- source picture whose lines are being judged: its number, T_ref, next line to judge, whether it has begun (R104) -/
  judging : Option (Nat × Instant × Nat × Bool) := none
  /-- consecutive lost lines (R104); reset 0 -/
  lostRun : Nat := 0
  /-- first picture of the current loss (Table 4.13) -/
  lossSince : Nat := 0
  /-- whole pictures received since the loss (R106) -/
  whole : Nat := 0
  /-- the judged picture has lost a line (R106) -/
  broken : Bool := false
  deriving DecidableEq, Repr

/-- What one run of a channel holds (R84, R94). -/
structure Run where
  /-- START_MODE and its start time or trigger (R95, R96) -/
  startMode : Nat := 0
  startAt : Instant := 0
  trigger : Nat := 0
  /-- capture time of the trigger, once it fired (R96) -/
  captured : Option Instant := none
  /-- on a standby: picture 0 is the one the holder names, with its T_ref once that has come (R391); none: the member's own start decides -/
  byHolder : Option (Option Instant) := none
  /-- the Isle allocation, in Isle order (R109); empty when nothing is admitted -/
  isles : List Nat := []
  /-- admitted RATE_MAX in kbit/s, N_REF and delay in ns: a raised quantity is held to the end of the run (R91, R94) -/
  admRate : Nat := 0
  admRef : Nat := 0
  admDelay : Rat := 0
  /-- largest D admitted in this run, in ns (R232) -/
  maxDelay : Rat := 0
  /-- holds LOOKAHEAD space (R116) -/
  lookaheadSpace : Bool := false
  /-- current and target delay in 2⁻³² ns, S not included (R86, R90) -/
  delayCur : Rat := 0
  delayTgt : Rat := 0
  /-- number of the next picture to start (R84) -/
  nextPic : Nat := 0
  /-- T_ref of the last picture started (R85) -/
  lastTref : Instant := 0
  /-- pictures in progress, and the finished ones whose counts later pictures read (R156, R164) -/
  pics : FMap Pic := []
  /-- picture in gradual refresh: first picture, K_ref (R129) -/
  refresh : Option (Nat × Nat) := none
  /-- key picture requested for a picture by KEY_REQUEST, or forced (R127, R139) -/
  forceKey : Option KeyKind := none
  /-- force an IDR at the next picture because of a substitute slice (R139) -/
  forceIdr : Bool := false
  /-- first picture of the pictures that carry CAUSE 2 (R139) -/
  substSince : Option Nat := none
  /-- first picture of the current mini-GOP and its length (R126, R127) -/
  gopStart : Nat := 0
  gopLen : Nat := 1
  /-- V(m) and U(m) for the picture m = vPic (R152), and those of the picture before it (R153) -/
  v : Int := 0
  u : Int := 0
  vPic : Nat := 0
  vPrev : Int := 0
  uPrev : Int := 0
  /-- next millisecond of ST 302 audio to send (R381); none before the first group of a run -/
  st302Next : Option Nat := none
  /-- row the controller is coding: picture, row (R155) -/
  curRow : Option (Nat × Nat) := none
  /-- the row controller waits for an actual count (R20), an Isle for a row slot (R133); each wait is counted once -/
  stalled : Bool := false
  slotWait : Bool := false
  /-- run-ahead results exist for the next picture (R117, R118) -/
  runAheadValid : Bool := false
  /-- results of motion-search levels 1 and 2, by picture (R112, R117) -/
  search : FMap (List AreaSearch) := []
  /-- the row to start has waited for run-ahead results (R117) -/
  aheadWait : Bool := false
  /-- the hold picture: the latest one coded from wholly received input (R233) -/
  hold : Option Nat := none
  /-- complexities of the pictures of the current mini-GOP, in decoding order (R170) -/
  gopCosts : List Nat := []
  /-- source picture of each picture in capture order (R84, R126) -/
  sources : FMap Nat := []
  /-- latest IRAP picture (R125) -/
  lastIrap : Nat := 0
  /-- ALF coefficients of the last APS sent (R141) -/
  lastAps : List Int := []
  /-- the next slice waits for room in the slice queue (R160) -/
  queueWait : Bool := false
  /-- Lagoon row slots, rows begun and freed (R130, R133) -/
  lagoonSlots : Nat := 3
  rowsBegun : Nat := 0
  rowsFreed : Nat := 0
  /-- Lagoon-high level (R133) -/
  lagoonHigh : Bool := false
  /-- slice queue: slices assembled and not emitted (R140) -/
  queue : List SliceQ := []
  /-- picture and slice of the next slice the emitter expects (R137) -/
  nextSlice : Nat × Nat := (0, 0)
  /-- E of the slices that carried the last PCR, PAT (R144) -/
  lastPcr : Option Rat := none
  /-- last picture that carried a buffering period message (R150) -/
  lastBp : Nat := 0
  lastPat : Option Rat := none
  /-- slices emitted in this run, and the last (R99) -/
  emitted : Nat := 0
  /-- the drained picture: no later picture is coded (R99) -/
  drainAfter : Option Nat := none
  /-- abort requested (R100) -/
  aborting : Bool := false
  deriving DecidableEq, Repr

/-- Channel counters (Tables 3.7, 4.6a, 5.6, 16.10); all run from CHAN_START (R171). -/
structure ChanCounters where
  lateSlices : Nat := 0
  missingLines : Nat := 0
  rcStalls : Nat := 0
  specDualCtus : Nat := 0
  specHighChosen : Nat := 0
  runaheadDiscards : Nat := 0
  runaheadWaits : Nat := 0
  lagoonStalls : Nat := 0
  substSlices : Nat := 0
  floorRows : Nat := 0
  copyRows : Nat := 0
  guardCuts : Nat := 0
  rowCapOver : Nat := 0
  hrdViolations : Nat := 0
  /-- QP_AVG of the last completed picture (Table 5.6) -/
  qpAvg : Nat := 0
  /-- V_DEV as last set (Table 5.6) -/
  vDev : Int := 0
  /-- BUDGET of the last picture started (Table 5.6) -/
  budget : Int := 0
  /-- PICTURE: the last picture started (Table 3.7) -/
  picture : Nat := 0
  /-- last 64 check entries, oldest first (Table 16.10) -/
  checks : List (Nat × Nat × Word) := []
  deriving DecidableEq, Repr

/-- A channel (R79 to R108). -/
structure Chan where
  /-- owning function (R79) -/
  owner : Fn
  /-- state (Table 3.2); on creation IDLE -/
  st : ChanState := .idle
  /-- CHAN_CONFIG, once accepted; on creation unconfigured (R79) -/
  cfg : Option ChanCfg := none
  /-- ENC_PROFILE, once accepted -/
  profile : Option EncProfile := none
  /-- coding parameters in force, or stored for the next run (R83) -/
  coding : Coding := {}
  /-- CHAN_SET_DELAY value in µs, 0 = D_min (R88, R89); on creation 0 (DESIGN CHOICE, log 15) -/
  delayReq : Nat := 0
  /-- SHED_CLASS override by SHED_CLASS (R487) -/
  shedClass : Nat := 0
  /-- STOP_REASON (Table 3.7); on creation 0 -/
  stopReason : Nat := 0
  /-- loss flag (R102); on creation 0 -/
  lossFlag : Bool := false
  /-- slice-fault source condition (R139); on creation 0 -/
  sliceFault : Bool := false
  /-- confidence source condition (R228); on creation 0 -/
  confidence : Bool := false
  input : ChanIn := {}
  run : Run := {}
  counters : ChanCounters := {}
  /-- ST 302 attachment: audio buses carried in the transport stream (R381); on creation none -/
  st302 : List Nat := []
  /-- the owning function is being reset: destroyed at end of stream (R107) -/
  doomed : Bool := false
  deriving DecidableEq, Repr

end Sys2Proof.Machine
end

