-- ==== Sys2Proof/Machine/StateFab.lean ====
section
/-! DEFINITION. State of the fast matrix and its arbiters (09). -/

namespace Sys2Proof.Machine

/-- Class, level and RUN_M1 of one requester at one arbiter (Table 9.5). -/
structure Prio where
  cls : Nat
  level : Nat := 0
  runM1 : Nat := 0
  deriving DecidableEq, Repr

/-- A request in flight on the matrix, between its issue and its service by the target (R255, R256). -/
structure FabTx where
  /-- order of issue over all ports -/
  seq : Nat
  /-- transaction ID, 0 to 511, of its master port (R255) -/
  id : Nat
  req : FabReq
  /-- target port 0 to 47 (Table 9.2) -/
  target : Nat
  /-- tick of its grant at the target's arbiter, once granted -/
  grantedAt : Option Nat := none
  /-- a read of the scrubbers, and what it finds (R249) -/
  scrub : Option ScrubFind := none
  deriving DecidableEq, Repr

/-- A response on its way to its master (R257). -/
structure FabResp where
  tx : FabTx
  /-- the error status, distinct from the poison mark (R259) -/
  err : Bool := false
  poisoned : Bool := false
  /-- bytes that a read returns -/
  data : List Byte := []
  deriving DecidableEq, Repr

/-- A grant in progress (R262, R263). -/
structure Grant where
  requester : Nat
  /-- transactions that the tenure may still hold (R263), and how many it was given -/
  remaining : Nat
  run : Nat
  /-- the order of winners before its round, for a withdrawal before the first beat (R271) -/
  wonBefore : List Nat
  /-- the transaction under it, by order of issue -/
  tx : Option Nat := none
  deriving DecidableEq, Repr

/-- A requester that waits: ticks counted before, and the tick since which it counts, if it is not masked (R267, R270). -/
structure Waiter where
  counted : Nat := 0
  since : Option Nat
  /-- its wait has been reported (R267) -/
  reported : Bool := false
  deriving DecidableEq, Repr

/-- One arbiter (R261 to R271). -/
structure Arb where
  /-- requesters that have won since reset, the last winner last: they rank below all others, which rank in ascending order (R262); reset none -/
  won : List Nat := []
  /-- the grant in progress; reset none -/
  grant : Option Grant := none
  /-- emergency in progress over that grant (R268): true refresh, false debug; reset none -/
  emergency : Option Bool := none
  /-- emergencies that wait (R269); reset none -/
  emergencyWait : List Bool := []
  /-- waiting requesters (R267); reset none -/
  waiting : FMap Waiter := []
  /-- masked requesters (R270); reset none -/
  masked : List Nat := []
  /-- ARB_STARVE_LIMIT (Table 9.8); reset 0x0100 -/
  limit : Nat := 0x100
  /-- values in force; unlisted: port class, level 0, RUN 1 (Table 9.5) -/
  prio : FMap Prio := []
  deriving DecidableEq, Repr

/-- The fast matrix (R253 to R272). -/
structure Fab where
  /-- arbiters 0 to 130 (Table 9.4) and, as 131 + m, the response path of master port m (R258); unlisted: reset arbiter -/
  arbs : FMap Arb := []
  /-- requests in flight, in order of issue (R255, R256); reset none -/
  txs : List FabTx := []
  /-- responses not yet delivered, each target's in the order in which it completed them (R257); reset none -/
  resps : List FabResp := []
  /-- order of issue of the next request (the model's own) -/
  nextSeq : Nat := 0
  /-- ARB_SHADOW_PRIO by 64a + i; unlisted: reset value (Table 9.5) -/
  shadow : FMap Prio := []
  /-- the staged set (R264); reset empty -/
  staged : FMap Prio := []
  /-- arbiters that have not applied the staged set; ARB_COMMIT PENDING is 1 while there is one (R264); reset none -/
  pendingArbs : List Nat := []
  /-- ARB_COMMIT COMMIT_LOST (R265); reset 0 -/
  commitLost : Bool := false
  /-- ARB_STARVE_STAT (Table 9.7); reset 0 -/
  starved : Bool := false
  multi : Bool := false
  starveArb : Nat := 0
  starveReq : Nat := 0
  starveCount : Nat := 0
  /-- FAB_DECERR_STAT and FAB_DECERR_ADDR (Table 9.9); reset 0 -/
  decValid : Bool := false
  decMaster : Nat := 0
  decWrite : Bool := false
  decCount : Nat := 0
  decAddr : Nat := 0
  deriving DecidableEq, Repr

end Sys2Proof.Machine
end

