-- ==== Sys2Proof/Machine/StateComp.lean ====
section
/-! DEFINITION. State of outputs, layers, surfaces (06), decoders (07) and the two memories (08). -/

namespace Sys2Proof.Machine

/-- A layer as LAYER_SET stages it (Table 6.2). -/
structure Layer where
  srcKind : Nat
  srcIndex : Nat
  alphaMode : Nat
  alpha : Nat
  sx : Nat
  sy : Nat
  sw : Nat
  sh : Nat
  dx : Nat
  dy : Nat
  dw : Nat
  dh : Nat
  lag : Nat
  deriving DecidableEq, Repr

/-- One staged change of an output (R177, R200, R207). -/
inductive LayerChange where
  | set (layer : Nat) (l : Layer)
  | clear (layer : Nat)
  | fresh (layer : Nat) (maxAge : Nat)
  | lhLoad (surface x y : Nat)
  | lhUnload
  deriving DecidableEq, Repr

/-- A COMPOSE_COMMIT that waits for its output picture (R196, R198). -/
structure Commit where
  /-- serial number of the command -/
  serial : Nat
  fn : Fn
  /-- the effective output picture; none: the next that starts -/
  number : Option Nat
  changes : List LayerChange
  deriving DecidableEq, Repr

/-- A publication of a surface buffer (R179, R183). -/
structure Publication where
  buffer : Nat
  flip : Instant
  /-- CONTENT_TIME in ns; 0: T_out of the first picture that selects it (R206) -/
  contentNs : Nat
  /-- first output picture of the lowest-numbered output that selected it: output, m (R183) -/
  firstUse : Option (Nat × Nat) := none
  deriving DecidableEq, Repr

/-- A SURFACE_UPDATE that has started and not completed (R183). -/
structure PendingUpdate where
  serial : Nat
  pub : Publication
  /-- FLIP_TIME has passed: the buffer is the published one -/
  flipped : Bool := false
  /-- bytes copied from the block -/
  bytes : Nat := 0
  deriving DecidableEq, Repr

/-- A surface (R182 to R186). -/
structure Surface where
  /-- owning function -/
  owner : Fn
  format : Nat
  colour : Nat
  buffers : Nat
  width : Nat
  height : Nat
  /-- SURFWIN offset of buffer 0 in bytes (R182, R500) -/
  offset : Nat
  /-- contents of each buffer, sorted by offset, bytes equal to 0 not listed (log 6) -/
  mem : FMap (List Host.Cell) := []
  /-- poisoned atoms of the surface: offset from the surface's base / 32 (R247) -/
  poison : List Nat := []
  /-- publications, the one in force first, with the earlier ones that pictures still read (R179, R183) -/
  pubs : List Publication := []
  /-- updates that have started and not completed (R183) -/
  pending : List PendingUpdate := []
  deriving DecidableEq, Repr

/-- What a layer goes on showing when the output or the decoder it took as its source is gone (R176, R219). -/
inductive FrozenImage where
  /-- its source had shown nothing -/
  | nothing
  /-- a buffer of a surface, as it stood -/
  | surface (x : Surface) (buffer : Nat)
  /-- a decoded picture: size, chroma format, colour code, samples -/
  | picture (width height chroma colour : Nat) (planes : Planes)
  deriving DecidableEq, Repr

/-- A frozen source with the content time it keeps, in ns (R176, R206, R219). -/
structure Frozen where
  image : FrozenImage
  contentNs : Nat
  deriving DecidableEq, Repr

/-- What an output picture that is done leaves for the channel pictures coded from it: its Lighthouse layer, region hash, stale bitmap and lines (R192, R204, R205, R209). -/
structure OutFacts where
  lh : Option (Nat × Nat × Nat)
  hash : Word
  stale : DWord
  /-- its final lines, as the COMPOSE ring received them (R192) -/
  lines : FMap (List Nat × List Nat × List Nat) := []
  deriving DecidableEq, Repr

/-- What one layer of one output picture reads (R179): none: nothing (R181). -/
structure LayerSel where
  layer : Nat
  /-- SRC_KIND and SRC_INDEX of the layer: a previously selected picture counts only if it is of the same source (R180) -/
  src : Nat × Nat := (0, 0)
  /-- the source picture: buffer number of a surface, picture number otherwise -/
  pick : Option Nat
  /-- the picture selected before it, for R180 -/
  prior : Option Nat := none
  /-- content time in ns (R206) -/
  contentNs : Nat := 0
  /-- stale, and g of the age bar (R207, R208) -/
  stale : Bool := false
  bars : Nat := 0
  deriving DecidableEq, Repr

/-- An output picture in composition (R173, R180). -/
structure OutPic where
  number : Nat
  tOut : Instant
  layers : FMap Layer
  maxAges : FMap Nat
  /-- Lighthouse: surface, X, Y -/
  lh : Option (Nat × Nat × Nat)
  sels : List LayerSel
  /-- next line to compose -/
  nextLine : Nat := 0
  /-- running value of the region hash (R203) -/
  hash : Word := 0xFFFFFFFF
  /-- stale bitmap of the picture (R209) -/
  stale : DWord := 0
  /-- composed lines by number: Y, Cb, Cr samples (R192) -/
  lines : FMap (List Nat × List Nat × List Nat) := []
  /-- layers whose source went before or while the picture was composed, with what they show (R176, R219, R221) -/
  frozen : FMap Frozen := []
  /-- decisions of R180 for the output lines of the chroma group in composition: by line and layer, the rows of the previous picture -/
  decided : FMap (FMap (List Nat)) := []
  deriving DecidableEq, Repr

/-- OUT_CREATE as accepted (Table 6.1). -/
structure OutCfg where
  width : Nat
  height : Nat
  rateNum : Nat
  rateDen : Nat
  totalLines : Nat
  chroma : Nat
  colour : Nat
  toSurface : Option Nat
  offsetNs : Nat
  bgY : Nat
  bgCb : Nat
  bgCr : Nat
  deriving DecidableEq, Repr

/-- A composition output (R172 to R211). -/
structure Output where
  /-- owning function (R172) -/
  owner : Fn
  cfg : OutCfg
  /-- compositor 0 to 3 (R174) -/
  compositor : Nat
  /-- shed class by SHED_CLASS (R487); on creation 2 -/
  shedClass : Nat := 2
  /-- applied layers 0 to 62 (R177, R199); on creation none -/
  layers : FMap Layer := []
  /-- applied freshness limits by layer, µs (R207); on creation none -/
  maxAges : FMap Nat := []
  /-- applied Lighthouse layer: surface, X, Y (R200); on creation none -/
  lh : Option (Nat × Nat × Nat) := none
  /-- the owner's stage, oldest change first (R177); on creation empty -/
  stage : List LayerChange := []
  /-- PF0's stage of the Lighthouse layer (R200); on creation empty -/
  lhStage : List LayerChange := []
  /-- commits that wait (R198); on creation empty -/
  commits : List Commit := []
  /-- commits applied since creation, the applied-state serial of Table 15.4a -/
  applied : Nat := 0
  /-- OUT_CREATE OP 1 accepted: it is destroyed at the next picture boundary (R175) -/
  dying : Bool := false
  /-- number of the next output picture to start (R173) -/
  next : Nat
  /-- pictures in composition, by number (R180) -/
  pics : FMap OutPic := []
  /-- selections of the last picture started, by layer (R180) -/
  lastSels : List LayerSel := []
  /-- OUT_PICTURE, last output picture started (Table 6.7); on creation 0 -/
  outPicture : Nat := 0
  /-- T_out and least content time of the last pictures started, newest first (R206) -/
  history : List (Nat × Instant × Nat) := []
  /-- STALE of the last picture started (Table 6.7) -/
  stale : DWord := 0
  /-- REGION_HASH of the last completed picture (Table 6.7) -/
  regionHash : Word := 0
  /-- LATE_SRC_LINES (Table 6.7) -/
  lateSrcLines : Nat := 0
  /-- layers whose source output or decoder is gone, until a commit changes the layer (R176, R219); on creation none -/
  frozen : FMap Frozen := []
  /-- the last 128 pictures that are done, for the channels that still code from them (R204, R205, R209); on creation none -/
  done : FMap OutFacts := []
  /-- stopped by shedding or by the loss of its compositor (R422, R483): it composes nothing -/
  stopped : Bool := false
  deriving DecidableEq, Repr

/-- A decoded picture kept for presentation and as a reference (R217 to R223). -/
structure DecPic where
  /-- presentation instant (R217), once the picture is due for output -/
  present : Option Instant
  contentNs : Nat
  planes : Planes
  concealed : Bool := false
  /-- it may be presented (R220, R225, R227) -/
  show' : Bool := true
  number : Nat
  /-- when it was decoded (R225) -/
  decoded : Instant := 0
  deriving DecidableEq, Repr

/-- An access unit that has arrived and waits for decoding (R213, R217). -/
structure AuWait where
  /-- serial number of the access unit in its decoder (Table 15.4a INPUT KIND 3) -/
  serial : Nat
  first : Instant
  last : Instant
  present : Instant
  /-- its packets' payloads in order, none for a gap; a confidence decoder's NAL units (R220, R222, R224, R228) -/
  data : List (Option (List Byte)) := []
  /-- picture of the channel that a confidence decoder decodes (R228) -/
  coded : Option Nat := none
  deriving DecidableEq, Repr

/-- What a stream's NAL units decode to: the first decoding of them fixes it for every other (R224). -/
structure Decoding where
  codec : Nat
  /-- base-layer NAL units of the access units so far, the last one's at the end -/
  units : List (List (List Byte))
  facts : AuIn
  deriving DecidableEq, Repr

/-- An access unit being received (R217, R218). -/
structure AuPart where
  /-- receive stamps of its first and latest packet, and their RTP timestamp -/
  first : Instant
  last : Instant
  ts : Nat
  data : List (Option (List Byte)) := []
  deriving DecidableEq, Repr

/-- A decoder (R212 to R230). -/
structure Decoder where
  owner : Fn
  /-- 0 ingest, 1 confidence; codec; presentation and content-time modes (Table 7.1) -/
  srcKind : Nat
  codec : Nat
  presMode : Nat
  ctMode : Nat
  srcIndex : Nat
  width : Nat
  height : Nat
  rateNum : Nat
  rateDen : Nat
  /-- presentation lag in µs -/
  lag : Nat
  engine : Nat
  /-- chroma format of the stream, once a picture has been decoded; on opening unknown -/
  chroma : Option Nat := none
  /-- DEC_POLICY (Table 7.2); defaults 0 -/
  errMode : Nat := 0
  hashAction : Nat := 0
  /-- access units received and not decoded (R213) -/
  aus : List AuWait := []
  /-- the access unit being received (R217, R218) -/
  part : Option AuPart := none
  /-- continuity counters of MPEG-2 transport, by PID (R222) -/
  cc : FMap Nat := []
  /-- NAL units of the access units taken since the stream began (R224) -/
  history : List (List (List Byte)) := []
  /-- a parameter set was in error: every picture is concealed until an IRAP picture with valid ones (Table 7.4) -/
  badSets : Bool := false
  /-- serial number of the next access unit received (Table 15.4a) -/
  auSerial : Nat := 0
  /-- STATE (Table 7.5); on opening 0, or 3 for a confidence decoder -/
  st : Nat := 0
  /-- decoding has started at a start point (R220) -/
  startedAt : Bool := false
  /-- pictures before the recovery point are not presented (R220) -/
  recovering : Bool := false
  /-- concealment persists until an IRAP or recovery point (R222, R223) -/
  concealing : Bool := false
  /-- content time of the last picture decoded that carried no loss flag (R218) -/
  heldContent : Option Nat := none
  /-- the most recent good picture (R222) -/
  good : Option DecPic := none
  /-- pictures decoded and waiting for their presentation instant, oldest first -/
  waiting : List DecPic := []
  /-- presented pictures that may still be read, newest first (R221) -/
  presented : List DecPic := []
  /-- next number of a decoded picture -/
  nextNumber : Nat := 0
  stopped : Bool := false
  hashFailSrc : Bool := false
  pictures : Nat := 0
  concealed : Nat := 0
  missingRefs : Nat := 0
  syntaxErrors : Nat := 0
  hashFail : Nat := 0
  lateArrivals : Nat := 0
  lateDecodes : Nat := 0
  pktLost : Nat := 0
  hashOk : Nat := 0
  hashBadSei : Nat := 0
  reconMismatch : Nat := 0
  ctFallback : Nat := 0
  oversize : Nat := 0
  upstreamStale : DWord := 0
  upstreamFlag : Bool := false
  /-- FLAGS: the last presented picture was concealed, the last region hash failed (Table 7.5) -/
  lastConcealed : Bool := false
  lastHashFailed : Bool := false
  deriving DecidableEq, Repr

/-- A request in an HBM3E controller (R239 to R241). -/
structure PcReq where
  /-- order of arrival at the controller -/
  id : Nat
  tx : FabTx
  /-- class in force after promotion: 0 RT, 1 BE, 2 MGMT, 3 Emergency (R241, R253) -/
  cls : Nat
  /-- tick of arrival -/
  arrived : Nat
  deriving DecidableEq, Repr

/-- One HBM3E pseudo-channel controller (R239 to R246, R250). -/
structure PcCtl where
  /-- queued requests, oldest first (R239); reset empty -/
  queue : List PcReq := []
  nextId : Nat := 0
  /-- open row of each bank (R239); reset none -/
  openRows : FMap Nat := []
  /-- banks in order, each with the id of a matching earlier request still queued (R240); reset none -/
  inOrder : List (Nat × Nat) := []
  /-- class of the request in service: the one issued last (R242); reset none -/
  inService : Option Nat := none
  /-- tick until which a burst or a replay occupies the PC (R243 to R245); reset 0 -/
  busyUntil : Nat := 0
  /-- issued commands of the retry buffer, oldest first: id and the tick of issue, refreshes among them (R245); reset empty -/
  retry : List (Nat × Nat) := []
  /-- the command of the last alert, and its consecutive alerts (R246); reset none -/
  alerts : Option (Nat × Nat) := none
  /-- pending refreshes (R242); reset 0 -/
  pendRefresh : Nat := 0
  /-- tick at which the next refresh falls due (R242); reset one tREFI -/
  nextRefresh : Nat := 1950
  /-- tick of the last RT request (R243); reset 0 -/
  lastRt : Nat := 0
  /-- tick of the last calibration step, and whether a step is due since (R250) -/
  lastCal : Nat := 0
  calDue : Option Nat := none
  /-- temperature that made the step due (R250); reset none -/
  dueTemp : Option Int := none
  /-- CAL_DEFERRED applies: the step waits for the next emergency burst (R250) -/
  deferred : Bool := false
  deriving DecidableEq, Repr

/-- One QPORT controller (R237, R238). -/
structure QportCtl where
  /-- queued accesses, oldest first (Table 8.3); reset empty -/
  queue : List FabTx := []
  /-- number of the next access issued (the model's own) -/
  nextAccess : Nat := 0
  /-- accesses issued in the last 16 cycles, oldest first: number and tick of issue (R238); reset none -/
  recent : List (Nat × Nat) := []
  /-- tick until which reissued accesses occupy the port (R238); reset 0 -/
  busyUntil : Nat := 0
  deriving DecidableEq, Repr

/-- A memory's scrubbing (R249, Table 8.8). -/
structure ScrubCfg where
  period : Nat
  ceThreshold : Nat := 0
  /-- next atom to read, and corrected errors of this pass -/
  nextAtom : Nat := 0
  ceThisPass : Nat := 0
  passes : Nat := 0
  /-- tick at which the pass began (R249); reset 0 -/
  passStart : Nat := 0
  deriving DecidableEq, Repr

/-- Both memories (R231 to R252, Table 8.9). -/
structure Mem where
  /-- QPORTs in service (R235); reset: those that pass training -/
  qportIn : BitVec 8 := 0xFF
  /-- QDR-IV density, true = 288 Mbit (R235); reset: the parameter store, 288 Mbit where it holds none (Table 17.6) -/
  density288 : Bool := true
  /-- PCs out of service (R246); reset: those that fail training -/
  pcOut : BitVec 64 := 0
  /-- QPORTs in the interleave since the last cold or warm reset (R236, R237); reset: those that pass training -/
  qportLaid : BitVec 8 := 0xFF
  /-- PCs removed from the interleave at the last cold or warm reset (R246); reset: those that fail training -/
  pcRemoved : BitVec 64 := 0
  /-- region sizes in force by KIND (Table 8.1); reset: Table 8.1 -/
  regions : FMap Nat := [(0, 64), (1, 768), (2, 384), (3, 128), (4, 128), (8, 1024), (9, 8192), (10, 2048), (11, 4096), (12, 32768)]
  /-- the minimums do not fit (R236); reset false -/
  noFit : Bool := false
  /-- PC controllers (R239); unlisted: reset controller -/
  pcs : FMap PcCtl := []
  /-- QPORT controllers (R238); unlisted: reset controller -/
  qports : FMap QportCtl := []
  /-- bytes that requests of the matrix have written, by device address (Table 9.2); unlisted: 0 (log 6) -/
  cells : List Host.Cell := []
  /-- poisoned atoms outside surfaces: memory (1 = HBM3E) and byte address (R247, R440); reset none -/
  poison : List (Bool × Nat) := []
  /-- consecutive failures of one QDR-IV access: port to (access, count) (R238); reset none -/
  qFail : FMap (Nat × Nat) := []
  scrubQdr : ScrubCfg := { period := 60 }
  scrubHbm : ScrubCfg := { period := 3600 }
  /-- UE log, oldest first, at most 32 (R249); reset empty -/
  ueLog : List (Bool × Nat) := []
  /-- memory-correctable and memory-uncorrectable source conditions (R248, R249); reset 0 -/
  ceSrc : Bool := false
  ueSrc : Bool := false
  qdrCe : Nat := 0
  qdrUe : Nat := 0
  qdrReplays : Nat := 0
  hbmCeHost : Nat := 0
  hbmCeDie : Nat := 0
  hbmUe : Nat := 0
  parityReplays : Nat := 0
  poisonReads : Nat := 0
  poisonLines : Nat := 0
  emergencyRefresh : Nat := 0
  pendMax : Nat := 0
  /-- HBM_TEMP, published stack temperature in °C (Table 8.9); reset 0 (DESIGN CHOICE, log 17) -/
  hbmTemp : Nat := 0
  /-- stack temperature at each PC's last calibration (R250) -/
  calTemp : FMap Int := []
  agePromotions : Nat := 0
  calSteps : Nat := 0
  calDeferred : Nat := 0
  deriving DecidableEq, Repr

end Sys2Proof.Machine
end

