-- ==== Sys2Proof/Machine/StateHost.lean ====
section
/-! DEFINITION. State of the host interface: queues, flows, fences, subscriptions, snapshot pages (02), interrupts and Harbour (10), faults, journal and check-value units (16), CTLWIN latches (00, 19). -/

namespace Sys2Proof.Machine

/-- A completion or event record (Table 2.7), before the queue gives it its PHASE. -/
structure Rec where
  tag : Word := 0
  opcode : Nat := 0
  outcome : Nat := 0
  flow : Nat := 0
  progress : Nat := 0
  result0 : Nat := 0
  result1 : Nat := 0
  tide : Nat := 0
  sqHead : Nat := 0
  sq : Nat := 0
  deriving DecidableEq, Repr

/-- A submission queue (R34 to R37, Tables 2.2 to 2.4). -/
structure Sq where
  /-- SQ_BASE_LO and SQ_BASE_HI as last written (Table 2.2); reset 0 -/
  base : Nat := 0
  /-- SQ_CTL SIZE_M1 as last written (Table 2.3); reset 0 -/
  sizeM1 : Nat := 0
  /-- SQ_BIND CQ (Table 2.4); reset 0 -/
  bindCq : Nat := 0
  /-- SQ_BIND FLOW (Table 2.4); reset 0 -/
  bindFlow : Nat := 0
  /-- SQ_CTL ENABLE (R36); reset 0 -/
  enable : Bool := false
  /-- SQ_CTL ACTIVE (Table 2.3); reset 0 -/
  active : Bool := false
  /-- SQ_CTL ERROR (R37, R42, R46); reset 0 -/
  error : Bool := false
  /-- base latched at ENABLE (R36); reset 0 -/
  lBase : Nat := 0
  /-- slots latched at ENABLE (R35, R36); reset 2, the smallest ring -/
  slots : Nat := 2
  /-- CQ latched at ENABLE (R36); reset 0 -/
  cq : Nat := 0
  /-- flow latched at ENABLE (R36); reset 0 -/
  flow : Nat := 0
  /-- head: the next slot the device reads (R43, R45); reset 0 -/
  head : Nat := 0
  /-- tail: the last DB_SQ value accepted (R42); reset 0 -/
  tail : Nat := 0
  deriving DecidableEq, Repr

/-- A record slot that holds a record the host has not consumed (R45, R54, R55). -/
structure Slot where
  /-- written without QUIET: it counts for the CQ's interrupt source (R54) -/
  announces : Bool
  /-- the subscription whose reserved slot it is (R55) -/
  sub : Option Nat := none
  deriving DecidableEq, Repr

/-- A record that waits for the CQ's ERROR to be cleared (R46), or for the link (R291). -/
structure HeldRec where
  record : Rec
  announces : Bool
  sub : Option Nat := none
  deriving DecidableEq, Repr

/-- A completion queue (R34, R38, R45, R52, Tables 2.2 and 2.5). -/
structure Cq where
  /-- CQ_BASE_LO and CQ_BASE_HI as last written (Table 2.2); reset 0 -/
  base : Nat := 0
  /-- CQ_CTL SIZE_M1 as last written (Table 2.5); reset 0 -/
  sizeM1 : Nat := 0
  /-- CQ_CTL VECTOR as last written (Table 2.5); reset 0 -/
  vecReg : Nat := 0
  /-- CQ_CTL ENABLE (R36); reset 0 -/
  enable : Bool := false
  /-- CQ_CTL ACTIVE (Table 2.5); reset 0 -/
  active : Bool := false
  /-- CQ_CTL ERROR (R39, R42, R46, R283); reset 0 -/
  error : Bool := false
  /-- base latched at ENABLE (R36); reset 0 -/
  lBase : Nat := 0
  /-- slots latched at ENABLE (R35); reset 2, the smallest ring -/
  slots : Nat := 2
  /-- VECTOR latched at ENABLE (R282, R283); reset 0 -/
  vector : Nat := 0
  /-- head last written to DB_CQ (R42); reset 0 -/
  head : Nat := 0
  /-- tail: the slot the next record is written to (R52); reset 0 -/
  tail : Nat := 0
  /-- write phase (R38, R52); reset 1 -/
  phase : Bool := true
  /-- the records from head to tail, in ring order (R45, R54); reset empty -/
  occ : List Slot := []
  /-- slots reserved by fetched commands (R45); reset 0 -/
  reserved : Nat := 0
  /-- records held while ERROR is set after a write error (R46); reset empty -/
  held : List HeldRec := []
  /-- a record write has failed and the queue holds its records (R46); reset false -/
  holding : Bool := false
  deriving DecidableEq, Repr

/-- A fence (R66). -/
structure Fence where
  /-- the 64-bit value (R66); reset 0 -/
  value : Nat := 0
  /-- the flow the fence is bound to, if any (R66); reset unbound -/
  flow : Option Nat := none
  deriving DecidableEq, Repr

/-- A subscription (R60, Table 2.14). -/
structure Sub where
  kind : Nat
  object : Nat
  cq : Nat
  flow : Nat
  sq : Nat
  quiet : Bool
  /-- its reserved slot holds a record (R55) -/
  occupied : Bool := false
  /-- the pending merged record: RESULT0 of the latest event, events merged, TIDE of the latest event (R55) -/
  pending : Option (Nat × Nat × Nat) := none
  /-- an OP 1 command waits for its slot to be released (R60) -/
  cancelling : Bool := false
  deriving DecidableEq, Repr

/-- An MSI-X table entry (R501). -/
structure MsixEntry where
  /-- message address; reset 0 -/
  addr : Nat := 0
  /-- message data; reset 0 -/
  data : Nat := 0
  /-- vector control, bit 0 the Mask bit; reset 1 (PRESUMED, the PCIe reset of the Mask bit, log 12) -/
  control : Nat := 1
  deriving DecidableEq, Repr

/-- The state of one PCIe function. -/
structure FnState where
  /-- SQs by index (R34); reset none -/
  sqs : FMap Sq := []
  /-- CQs by index (R34); reset none -/
  cqs : FMap Cq := []
  /-- fences 0 to 1,023 (R66); reset value 0, unbound -/
  fences : FMap Fence := []
  /-- subscriptions 0 to 63 (R60); reset none -/
  subs : FMap Sub := []
  /-- number of the last publication since function reset, modulo 2³² (R74); reset 0 -/
  snapK : Nat := 0
  /-- SNAP_SEQ_HEAD (Table 19.7); reset 0 -/
  snapHead : Nat := 0
  /-- SNAP_SEQ_TAIL (Table 19.7); reset 0 -/
  snapTail : Nat := 0
  /-- SNAP_TIDE (Table 19.7); reset 0 -/
  snapTide : Nat := 0
  /-- status page 0 of SNAPWIN, trailing zeros not listed (Table 2.13, R74); reset all zero -/
  page0 : List Byte := []
  /-- status page 1 (Table 2.13, R74); reset all zero -/
  page1 : List Byte := []
  /-- latches of the _HI halves, by offset of the _LO register (R5); unlisted: the reset value of that half -/
  latches : FMap Word := []
  /-- latch of TIME_SEC_HI, TIME_NS, TIME_FRAC by TIME_SEC_LO (R344): seconds, ns, fraction; reset 0 -/
  timeLatch : Nat × Nat × Nat := (0, 0, 0)
  /-- latches of words 1 to 3 of TIME_CAPT[n] (R362); reset 0 -/
  captLatch : FMap (Nat × Nat × Nat) := []
  /-- the function is in D3hot (R291); reset D0 (PRESUMED, log 12) -/
  d3hot : Bool := false
  /-- PME_En (R291); reset 0 (PRESUMED, log 12) -/
  pmeEn : Bool := false
  /-- Bus Master Enable (R291); reset 0 (PRESUMED, log 12) -/
  busMaster : Bool := false
  /-- MSI-X Enable (R291); reset 0 (PRESUMED, log 12) -/
  msixEnable : Bool := false
  /-- MSI-X Function Mask (R291); reset 0 (PRESUMED, log 12) -/
  functionMask : Bool := false
  /-- MSI-X table entries 0 to 15 (R283, R501); unlisted: reset entry -/
  msix : FMap MsixEntry := []
  /-- vectors that are NOTIFIED (R290); reset all IDLE -/
  notified : BitVec 16 := 0
  /-- moderation timers running: vector to the tick at which it ends (R290); reset none -/
  timers : FMap Nat := []
  /-- IRQ_MOD_CTL DELAY by vector, µs (Table 10.10); reset 0 -/
  modDelay : FMap Nat := []
  /-- FUNC_RESET_CTL BUSY (Table 16.3); reset 0 -/
  busy : Bool := false
  /-- the reset in progress is or became an FLR: no further record is written (R425, R427); reset 0 -/
  resetFlr : Bool := false
  /-- step 3 of the reset in progress has run, with this number of ST_RESET completions (R424); reset none -/
  resetCount : Option Nat := none
  /-- count of SURFWIN writes dropped, SURF_WRITE_DROPS (R184, R500); reset 0 -/
  surfDrops : Nat := 0
  /-- the function's surface-protect source condition (R184); reset 0 -/
  surfProtect : Bool := false
  /-- CQs on whose rings a record write meets a PCIe error (R46, log 37): the host's memory path, not the device's; reset none -/
  unwritable : List Nat := []
  /-- an advisory non-fatal error is logged in the function's AER registers (Table 9.3); reset 0 (PRESUMED, log 12) -/
  aer : Bool := false
  deriving DecidableEq, Repr

/-- What ends a started command that has not completed. -/
inductive Wait where
  /-- nothing: it can be started (not started yet) -/
  | none
  /-- FENCE_WAIT (R68, R69): fence, owner, value, tick of the timeout -/
  | fence (fence : Nat) (owner : Fn) (value : Nat) (deadline : Nat)
  /-- the next Tide boundary (Table 1.5, R59) -/
  | tide
  /-- SNAPSHOT_CONFIG of a new period (R25, R59) -/
  | period
  /-- EVENT_SUBSCRIBE OP 1: the reserved slot of the subscription is released (R60) -/
  | slotRelease (sub : Nat)
  /-- a picture start of a channel: its number, or the next if none (R19, R50) -/
  | picture (channel : Nat) (number : Option Nat)
  /-- CHAN_START: picture 0 of the channel starts (R96) -/
  | chanStart (channel : Nat)
  /-- CHAN_STOP: the end-of-stream marker is emitted (R98, R99) -/
  | chanStop (channel : Nat)
  /-- COMPOSE_COMMIT: an output picture start: its number, or the next (R50, R196) -/
  | outPicture (output : Nat) (number : Option Nat)
  /-- SURFACE_UPDATE: the flip time (R183) -/
  | flip (t : Instant)
  /-- SURFACE_UPDATE or SURFACE_FREE: pictures that read the surface finish (R183) -/
  | surface (surface : Nat)
  /-- LANE_TEST, EYE_SCAN (R317, R318): ticks at which it ends -/
  | laneTest (lane : Nat) (deadline : Nat)
  /-- AUD_SLOTMASK, AUD_ROUTE, AUD_MUTE: a port frame or a bus frame boundary (R368, R374 to R376) -/
  | audio
  /-- PAIR_CONFIG while FORMING (R386): tick of the timeout -/
  | forming (deadline : Nat)
  /-- PAIR_SWAP, PAIR_RESYNC, PAIR_MODE (R412 to R414) -/
  | pair
  /-- an update command's flash operation (R456) -/
  | flash
  /-- SELFTEST (R437): target, index, tick at which it ends -/
  | selftest (target index deadline : Nat)
  /-- CALIBRATE of an HBM3E PC (R439) -/
  | calibrate (pc : Nat)
  /-- CALIBRATE of a QDR-IV port (R439): tick limit -/
  | retrain (port : Nat) (deadline : Nat)
  /-- FAULT_INJECT (R440): kind, tick limit of KIND 1 -/
  | inject (kind : Nat) (deadline : Nat)
  /-- TIME_SET with MODE 2: the next Sync (R353) -/
  | sync
  /-- FUNC_RESET waits for the reset of its target to end; one that was merged into a running reset reports PROGRESS 0 (R424, R427) -/
  | funcReset (target : Nat) (merged : Bool)
  /-- pictures that hold an object, such as DEC_CLOSE (R219) or an OUT_CREATE removal (R175) -/
  | release (kind object : Nat)
  deriving DecidableEq, Repr

/-- A fetched, uncompleted command (R45, R63). -/
structure Cmd where
  /-- order of fetch in the device, one number per command -/
  serial : Nat := 0
  /-- issuing function (PF0's privilege for a Ferry command, R73) -/
  fn : Fn := 0
  /-- originating SQ and its head after this fetch (Table 2.7) -/
  sq : Nat := 0
  sqHead : Nat := 0
  /-- the CQ in which a record slot is reserved (R45) -/
  cq : Nat := 0
  packet : Packet := Vector.replicate 16 0
  /-- refused by the cycle check at fetch (R70) -/
  cyclic : Bool := false
  started : Bool := false
  /-- tick at which it started (R69) -/
  startTick : Nat := 0
  wait : Wait := .none
  /-- progress count at its start, in the unit of its class (R65) -/
  base : Nat := 0
  /-- progress so far, for classes that count as they go (R65) -/
  progress : Nat := 0
  /-- RESULT words fixed before completion -/
  result0 : Nat := 0
  result1 : Nat := 0
  /-- the INDIRECT parameter block as read at its start (R49) -/
  block : List Byte := []
  /-- the mirror serial under which the holder sent it; on a mirrored command: taken over, its record is to be written here (R389, R409) -/
  mirrorSerial : Option Nat := none
  /-- a command that the partner fetched: no record is written here unless it has been taken over (R388 to R390, R409) -/
  mirrored : Bool := false
  /-- the Ferry client and sequence number (R448) -/
  ferry : Option (Client × Nat) := none
  deriving DecidableEq, Repr

/-- An interrupt source (R284, R287). -/
structure Src where
  /-- synchronised level (Table 10.7); reset 0 -/
  level : Bool := false
  /-- PEND_SW (R284); reset 0 -/
  pendSw : Bool := false
  /-- ACTIVE, and the target that claimed it (R284, R285); reset not active -/
  claimer : Option Nat := none
  /-- REPEND (R284); reset 0 -/
  repend : Bool := false
  /-- IRQ_MASK (Table 10.7); reset 1 -/
  masked : Bool := true
  /-- IRQ_ROUTE TARGET of a device source (Table 10.8); reset 0 -/
  target : Nat := 0
  /-- IRQ_ROUTE PRIO (Table 10.8); reset 0 -/
  prio : Nat := 0
  /-- IRQ_ROUTE VECTOR of a device or object source (Table 10.8); reset 0 -/
  vector : Nat := 0
  /-- IRQ_ROUTE FALLEN (R292); reset 0 -/
  fallen : Bool := false
  /-- the tick since which it has been pending and unmasked for an undeliverable host target (R292); reset none -/
  stuckSince : Option Nat := none
  deriving DecidableEq, Repr

/-- The interrupt controller (R282 to R295). -/
structure Irq where
  /-- sources 0 to 1,023; unlisted: the reset source -/
  srcs : FMap Src := []
  /-- IRQ_FALLBACK CORE (Table 10.11); reset 0 -/
  fallbackCore : Nat := 0
  /-- IRQ_FALLBACK REDIRECTS, saturating at 65,535 (Table 10.11); reset 0 -/
  redirects : Nat := 0
  /-- IRQ_BADDONE_CNT COUNT by target (R285, Table 10.10); reset 0 -/
  badCount : FMap Nat := []
  /-- IRQ_BADDONE_CNT LAST by target (Table 10.10); reset 0 -/
  badLast : FMap Nat := []
  /-- Lighthouse-lost source condition (source 44, R176); reset 0 -/
  lhLost : Bool := false
  deriving DecidableEq, Repr

/-- Thread states (Table 10.2). -/
inductive ThreadState where
  | free | blocked | ready | prefetched (core : Nat) | running (core : Nat)
  deriving DecidableEq, Repr

/-- A Harbour thread descriptor (R275). -/
structure Thread where
  /-- state (Table 10.2); reset FREE -/
  st : ThreadState := .free
  /-- priority 0 to 31 (R275); reset 0 (DESIGN CHOICE, log 13) -/
  prio : Nat := 0
  /-- Harbour flow, or none (R275); reset none (DESIGN CHOICE, log 13) -/
  flow : Option Nat := none
  /-- the cycle of Harbour in which it became READY (R278) -/
  readyAt : Nat := 0
  /-- RE_READY (R276) -/
  reReady : Bool := false
  /-- cancelled while RUNNING: it becomes FREE at its yield (R281) -/
  cancelled : Bool := false
  deriving DecidableEq, Repr

/-- Core states (R274). -/
inductive CoreState where
  | run | sleep | reset
  deriving DecidableEq, Repr

/-- A Skerry core (R273, R274). -/
structure SkerryCore where
  /-- state (R274); reset SLEEP after boot (DESIGN CHOICE, log 13) -/
  st : CoreState := .sleep
  /-- the thread it runs -/
  running : Option Nat := none
  /-- the tick at which that thread started (R280) -/
  since : Nat := 0
  /-- its prefetch slot (R278) -/
  slot : Option Nat := none
  /-- the tick at which a core in RESET returns to RUN (R280) -/
  back : Option Nat := none
  deriving DecidableEq, Repr

/-- A time-event slot (R277). -/
structure TimeSlot where
  at' : Instant
  period : Option Nat := none
  thread : Nat
  deriving DecidableEq, Repr

/-- Harbour (R275 to R281, Table 10.3). -/
structure Harbour where
  /-- thread descriptors 0 to 1,023 (R275); unlisted: FREE -/
  threads : FMap Thread := []
  /-- cores 0 to 7 (R273); unlisted: reset core -/
  cores : FMap SkerryCore := []
  /-- time-event slots 0 to 63 (R277); reset none -/
  slots : FMap TimeSlot := []
  /-- thread that takes the control events of a trigger (R359); reset none -/
  trigThreads : FMap Nat := []
  /-- cycles of Harbour that have passed (R278); reset 0 -/
  clock : Nat := 0
  /-- HBR_DISPATCHES (Table 10.3); reset 0 -/
  dispatches : Nat := 0
  /-- HBR_RECALLS; reset 0 -/
  recalls : Nat := 0
  /-- HBR_CANCEL_RACE; reset 0 -/
  cancelRace : Nat := 0
  /-- HBR_LOST_EVENTS; reset 0 -/
  lostEvents : Nat := 0
  /-- HBR_RUN_LIMIT; reset 0 -/
  runLimit : Nat := 0
  /-- HBR_READY_MAX since the last publication; reset 0 -/
  readyMax : Nat := 0
  /-- TEV_SKIPPED; reset 0 -/
  tevSkipped : Nat := 0
  /-- the Harbour-fault source condition (R280); reset 0 -/
  fault : Bool := false
  deriving DecidableEq, Repr

/-- A fault-journal entry (Table 16.9) without its CHECK, which follows from the rest. -/
structure JEntry where
  seq : Nat
  tide : Nat
  cls : Nat
  flags : Nat
  function : Nat
  objKind : Nat
  object : Nat
  detail : Nat
  deriving DecidableEq, Repr

/-- The fault journal and the class counters (R419, R442, R443). -/
structure Journal where
  /-- entries staged and not yet in flash, in SEQ order (R443); reset empty -/
  staged : List JEntry := []
  /-- ticks at which the staged entries were detected (R443) -/
  stagedAt : List Nat := []
  /-- entries in the flash ring, oldest first (R442); reset empty (PRESUMED: a new part, log 14) -/
  flash : List JEntry := []
  /-- next sequence number (R442); reset 1 (PRESUMED: a new part, log 14) -/
  nextSeq : Nat := 1
  /-- FAULTS by class 0 to 15 (R445); reset 0 -/
  faults : FMap Nat := []
  /-- entries beyond the rate, merged: one per class, with the number merged (R443); reset empty -/
  merged : FMap (JEntry × Nat) := []
  /-- entries written to flash in the current second, and the tick it began (R443) -/
  rateCount : Nat := 0
  rateStart : Nat := 0
  deriving DecidableEq, Repr

/-- A check-value unit (R431 to R436). -/
structure CrcUnit where
  /-- CRC_CTL ALG; reset 0 -/
  alg : Nat := 0
  /-- CRC_CTL DATA_BYTES; reset 4 -/
  dataBytes : Nat := 4
  /-- CRC_CTL FOLD_BYTES; reset 8 -/
  foldBytes : Nat := 8
  /-- CRC_CTL OWNER; reset 0 -/
  owner : Nat := 0
  /-- running value; reset RUNNING_LO 0xFFFF_FFFF, RUNNING_HI 0 -/
  value : DWord := 0xFFFFFFFF
  /-- a write to _HI held for the next write to _LO (R434); reset none -/
  heldHi : Option Word := none
  deriving DecidableEq, Repr

/-- Units under test or out of service, and class 7 histories (R422, R438). -/
structure Units where
  /-- Isles out of service until warm reset (R422, R438); reset none -/
  isleOut : BitVec 64 := 0
  /-- entropy engines out of service; reset none -/
  entropyOut : BitVec 12 := 0
  /-- compositors out of service; reset none -/
  compOut : BitVec 4 := 0
  /-- decode engines out of service; reset none -/
  decOut : BitVec 4 := 0
  /-- units under SELFTEST (R438): (target, index); reset none -/
  testing : List (Nat × Nat) := []
  /-- ticks of recent class 7 faults by unit (target × 256 + index) (R422); reset none -/
  recent7 : FMap (List Nat) := []
  /-- armed injections (R440): kind, index, address, count, command serial; reset none -/
  injections : List (Nat × Nat × Nat × Nat × Nat) := []
  deriving DecidableEq, Repr

end Sys2Proof.Machine
end

