-- ==== Sys2Proof/Machine/StateNet.lean ====
section
/-! DEFINITION. State of lanes, ports, input flows, the Causeway link (11) and egress scheduling (12). -/

namespace Sys2Proof.Machine

/-- A lane's configuration (Table 11.2). -/
structure LaneCfg where
  /-- 0 off, 1 Ethernet, 2 SDI receive, 3 SDI transmit, 4 Causeway, 5 test; reset 0 (R298) -/
  mode : Nat := 0
  rate : Nat := 0
  txInvert : Bool := false
  rxInvert : Bool := false
  loopback : Bool := false
  sdiRef : Bool := false
  /-- taps; reset 4, 51, 8 (R298) -/
  txPre : Nat := 4
  txMain : Nat := 51
  txPost : Nat := 8
  testRate : Nat := 0
  deriving DecidableEq, Repr

/-- A received picture of a live source (R179, R180, R304, R305): lines with their completion stamps. -/
structure LivePic where
  number : Nat
  tref : Instant
  /-- RTP timestamp that marks the picture (R305) -/
  ts : Nat
  /-- samples received so far, by line: Y, Cb, Cr values with their offsets -/
  segs : List RowSeg := []
  /-- luma samples received, by line -/
  got : FMap Nat := []
  /-- completion stamp of the lines received whole (R304) -/
  done : FMap Instant := []
  /-- lines that are lost whatever is received of them (R312) -/
  bad : List Nat := []
  /-- every line is lost: the payload identifier disagrees (R312) -/
  formatError : Bool := false
  /-- the reference instant is that of a received line 0, not an estimate (R85) -/
  trefSet : Bool := true
  /-- a packet of it was dropped for its format (R305) -/
  dropped : Bool := false
  deriving DecidableEq, Repr

/-- A lane (R296 to R319). -/
structure LaneSt where
  cfg : LaneCfg := {}
  /-- in fault (R319); reset not in fault -/
  fault : Bool := false
  /-- reference clock lost (R319, Table 11.12); reset false -/
  refLost : Bool := false
  /-- the fault is high BER (R319, Table 11.11); reset false -/
  highBer : Bool := false
  /-- FAULTS, saturating (Table 11.12); reset 0 -/
  faults : Nat := 0
  /-- SLIPS: SDI_SLIPS of a transmit lane (R313); reset 0 -/
  slips : Nat := 0
  /-- detected SDI rate code and family (Table 11.12); reset 0 -/
  detRate : Nat := 0
  family1001 : Bool := false
  /-- pictures of SDI receive: the current and the earlier ones still selectable, newest first (R179) -/
  pics : List LivePic := []
  nextPic : Nat := 0
  deriving DecidableEq, Repr

/-- PORT_CONFIG (Table 11.3); after cold reset MAX_FRAME 1,518 and zero elsewhere (R299). -/
structure PortCfg where
  speed : Nat := 0
  fec : Bool := false
  firstLane : Nat := 0
  maxFrame : Nat := 1518
  mac : Nat := 0
  ip : Nat := 0
  mask : Nat := 0
  gateway : Nat := 0
  deriving DecidableEq, Repr

/-- A gate control list (R330, R331). -/
structure GateList where
  /-- GATES and INTERVAL in ns of each entry -/
  entries : List (Nat × Nat)
  /-- base time in ns, cycle in ns -/
  base : Nat
  cycle : Nat
  deriving DecidableEq, Repr

/-- A frame that does not belong to an output flow (R322, R354): its queue, length without FCS, and the receive stamp of one that the transparent clock forwards. -/
structure FwFrame where
  queue : Nat
  len : Nat
  ingress : Option Instant := none
  /-- the PTP message of one that the transparent clock forwards (R354) -/
  ptp : Option PtpMsg := none
  deriving DecidableEq, Repr

/-- An Ethernet port and its egress scheduler (R299, R320, R322 to R333). -/
structure PortSt where
  cfg : PortCfg := {}
  /-- down (R320); reset false: a disabled port is neither up nor down -/
  down : Bool := false
  /-- only the RS-FEC takes it down (R320) -/
  fecDown : Bool := false
  /-- remote fault received (Table 11.11); reset false -/
  remoteFault : Bool := false
  rxFrames : Nat := 0
  rxBad : Nat := 0
  rxDiscard : Nat := 0
  fecCorr : Nat := 0
  fecUncorr : Nat := 0
  linkDowns : Nat := 0
  arpDrops : Nat := 0
  /-- OVERHEAD (R325); reset 24 -/
  overhead : Nat := 24
  /-- QUANTUM3 to QUANTUM7 (Table 12.1); reset 9,240 (the value 0 selects; DESIGN CHOICE, log 18) -/
  quantum : FMap Nat := []
  /-- DWRR pointer (3 to 7) and deficits (R324); reset 3 and 0 -/
  pointer : Nat := 3
  arrivedAt : Bool := false
  deficits : FMap Nat := []
  /-- gate list in force; none: all open (R330, R331) -/
  gates : Option GateList := none
  /-- list waiting for its first instant: none is "nothing waits" (R331) -/
  nextGates : Option (Option GateList × Instant) := none
  /-- tick until which the MAC is busy with a frame (R324) -/
  busyUntil : Nat := 0
  /-- flow copy and group whose frame is on the wire: flow, copy B, group serial (R335, R338) -/
  sending : Option (Nat × Bool × Nat) := none
  /-- frames the firmware sends and those the transparent clock forwards, oldest first (R322, R354); reset none -/
  fwQueue : List FwFrame := []
  deriving DecidableEq, Repr

/-- FLOW_IN_ADD (Table 11.5). -/
structure FlowInCfg where
  kind : Nat
  dual : Bool
  portA : Nat
  portB : Nat
  destA : Nat
  destB : Nat
  udpA : Nat
  udpB : Nat
  srcA : Nat
  srcB : Nat
  rateIn : Nat
  /-- WINDOW in ms, default resolved -/
  window : Nat
  width : Nat
  height : Nat
  rateNum : Nat
  rateDen : Nat
  sampling : Nat
  depth10 : Bool
  colour : Nat
  /-- KIND 3: first bus, channels, packet time code, link offset (R378) -/
  audio : Nat × Nat × Nat × Nat := (0, 0, 0, 0)
  deriving DecidableEq, Repr

/-- A sequence number seen by the merge (R303): number, stamp, path of the first copy, and whether both paths delivered it. -/
structure SeqSeen where
  seq : Nat
  stamp : Instant
  pathB : Bool
  both : Bool := false
  deriving DecidableEq, Repr

/-- A merged packet of a compressed flow: extended sequence number, receive stamp, RTP timestamp, whether it ends an access unit, payload (R307). -/
structure HeldPkt where
  seq : Nat
  stamp : Instant
  ts : Nat
  ends : Bool
  data : List Byte
  deriving DecidableEq, Repr

/-- An input flow (R302 to R308). -/
structure FlowIn where
  owner : Fn
  cfg : FlowInCfg
  /-- recent sequence numbers, newest first (R303) -/
  seen : List SeqSeen := []
  newest : Option Nat := none
  /-- KIND 1 and 2: merged packets that wait for earlier numbers, and the next number to hand over (R307) -/
  held : List HeldPkt := []
  handed : Option Nat := none
  /-- next extended sequence number whose loss is still open (R303) -/
  settled : Option Nat := none
  /-- last packet stamp of each path (Table 11.10 FLAGS) -/
  lastA : Option Instant := none
  lastB : Option Instant := none
  formatMismatch : Bool := false
  formatRun : Nat := 0
  pkts : Nat := 0
  pktLost : Nat := 0
  lostA : Nat := 0
  lostB : Nat := 0
  skewNs : Int := 0
  latePkts : Nat := 0
  formatErrors : Nat := 0
  /-- KIND 0: pictures, newest first (R179, R304) -/
  pics : List LivePic := []
  nextPic : Nat := 0
  /-- KIND 3: received samples by channel, at the bus sample they land on (R379) -/
  play : FMap (List Int) := []
  deriving DecidableEq, Repr

/-- FLOW_OUT_ADD (Table 11.7). -/
structure FlowOutCfg where
  kind : Nat
  dual : Bool
  portA : Nat
  portB : Nat
  queue : Nat
  srcIndex : Nat
  maxPayload : Nat
  destA : Nat
  destB : Nat
  udpDstA : Nat
  udpDstB : Nat
  udpSrc : Nat
  vlanId : Nat
  pcp : Nat
  vlanOn : Bool
  dscp : Nat
  pt : Nat
  ssrc : Nat
  firstSeq : Nat
  delayChan : Nat
  /-- KIND 4: channels, packet time code (R380); KIND 6: first SDI lane -/
  audio : Nat × Nat := (0, 0)
  lane : Nat := 0
  deriving DecidableEq, Repr

/-- How an RTP packet carries NAL units (R143): one alone; several, under the payload header type; a fragment of one, with its place. -/
inductive RtpPay where
  | single
  | aggregation (type : Nat) (count : Nat)
  | fragment (type : Nat) (first last : Bool)
  deriving DecidableEq, Repr

/-- Bus samples that a group carries (R380, R381): its buses, the first sample and their number, whether L16 takes the upper 16 bits, and the elementary stream of ST 302 (PID, stream type, registration descriptor). -/
structure AudioPart where
  buses : List Nat
  first : Nat
  count : Nat
  l16 : Bool := false
  es : Option (Nat × Nat × String) := none
  deriving DecidableEq, Repr

/-- What the packets of an emission group carry beside their payload: the RTP timestamp and whether the last packet ends an access unit (R143), and in MPEG-2 transport the PCR of the video PID, PTS and DTS of a PES packet that begins in it, the PTS of the ST 302 PES packets, and the transport packets of PAT, PMT, video and audio (R144, R381). A timestamp is none where the spec states none (log 35). -/
structure GroupInfo where
  ts : Option Nat := none
  marker : Bool := false
  pcr : Option Nat := none
  times : Option (Nat × Nat) := none
  audioPts : List Nat := []
  packets : List Nat := []
  /-- payload structure of each RTP packet (R143) -/
  pays : List RtpPay := []
  /-- stream type in the PMT; PES_packet_length and data_alignment_indicator of a PES packet that begins in the group (R144) -/
  streamType : Nat := 0
  pesLength : Nat := 0
  pesAligned : Bool := true
  /-- audio that the group carries (R380, R381) -/
  audio : Option AudioPart := none
  deriving DecidableEq, Repr

/-- RTP header (R143, R309): payload type, sequence number, timestamp, marker where the spec states them, SSRC. -/
structure RtpHdr where
  pt : Nat
  seq : Nat
  ts : Option Nat
  marker : Option Bool
  ssrc : Nat
  deriving DecidableEq, Repr

/-- Headers of a frame of an output flow (R309): addresses, UDP ports, DSCP, VLAN identifier and priority, RTP header. The first frame of a group in MPEG-2 transport also shows what the group carries and its first continuity counters. -/
structure FrameHdr where
  src : Nat
  dst : Nat
  udpSrc : Nat
  udpDst : Nat
  dscp : Nat
  vlan : Option (Nat × Nat)
  rtp : Option RtpHdr
  /-- payload structure of a channel's RTP packet (R143) -/
  pay : Option RtpPay := none
  transport : Option (GroupInfo × List Nat)
  deriving DecidableEq, Repr

/-- An emission group of a flow copy (R334, R140): serial in the flow, its frames' lengths in bytes without FCS, release instant, picture and slice of a channel group, whether its gate decision has been taken. -/
structure Group where
  serial : Nat
  release : Rat
  frames : List Nat
  /-- each further frame is released this much after the one before it, 2⁻³² ns (R329) -/
  spacing : Rat := 0
  picture : Nat := 0
  slice : Nat := 0
  /-- last slice of a run: the end-of-bitstream marker travels in it (R99) -/
  eob : Bool := false
  info : GroupInfo := {}
  /-- RTP sequence number of its first packet and continuity counters of its first transport packets, given at its release (R143, R394) -/
  seq : Nat := 0
  cc : List Nat := []
  /-- the gate has passed it (R335) -/
  passed : Bool := false
  /-- it has been released (R328): it takes part in the selection -/
  released : Bool := false
  /-- frames sent -/
  sent : Nat := 0
  /-- frame whose holding back by the guard band has been counted (R332) -/
  deferred : Option Nat := none
  deriving DecidableEq, Repr

/-- A token bucket (R326): credit at tick `asOf`, in units of 1/4,000,000 byte, so that RATE in kbit/s adds exactly RATE units per CLK_TIME tick. -/
structure Bucket where
  rate : Nat := 0
  burst : Nat := 4194304
  credit : Nat := 4194304 * 4000000
  asOf : Nat := 0
  deriving DecidableEq, Repr

/-- One copy of an output flow (R309, R323 to R336). -/
structure FlowCopy where
  bucket : Bucket := {}
  /-- next RTP sequence number (R143, R394); FIRST_SEQ when the flow is added -/
  nextSeq : Nat := 0
  /-- next continuity counters of PAT, PMT, video and audio PID (R144, R394); 0 when the flow is added (DESIGN CHOICE, log 35) -/
  cc : List Nat := [0, 0, 0, 0]
  /-- groups produced and not finished, in order (R323) -/
  groups : List Group := []
  /-- groups the closed gate holds, oldest first, at most two (R336) -/
  held : List Group := []
  /-- groups of a channel flow that the closed gate has discarded from staging and the slice queue still holds, oldest first (R394, R407) -/
  kept : List Group := []
  deriving DecidableEq, Repr

/-- An output flow (R309, R310, R337 to R341). -/
structure FlowOut where
  owner : Fn
  cfg : FlowOutCfg
  copyA : FlowCopy := {}
  copyB : FlowCopy := {}
  nextSerial : Nat := 0
  /-- next line and picture of a KIND 3 flow, next packet of a KIND 4 or 5 flow -/
  nextUnit : Nat × Nat := (0, 0)
  framesSent : Nat := 0
  lateGroups : Nat := 0
  guardDefers : Nat := 0
  claimHeld : Nat := 0
  downDrops : Nat := 0
  disableDrops : Nat := 0
  /-- bytes of egress staging reserved (R337) -/
  staging : Nat := 0
  /-- removed: only the group in transmission finishes (R340) -/
  removed : Bool := false
  /-- R520 ring-read load admitted, bytes/s -/
  load : Rat := 0
  deriving DecidableEq, Repr

/-- A configuration command that has been accepted and waits for the next Tide boundary (R27, R298). -/
structure PendCfg where
  serial : Nat
  opcode : Nat
  packet : Packet
  fn : Fn
  deriving DecidableEq, Repr

/-- A Causeway frame in the transmit buffer (R316). -/
structure CwFrame where
  seq : Nat
  /-- tick of its last sending -/
  sent : Nat
  type : Nat
  payload : List Byte
  deriving DecidableEq, Repr

/-- An 8b/10b character of the Causeway: the control characters R316 names for frames, or data. -/
inductive CwChar where
  | k27_7 | k28_3 | k29_7 | data (b : Byte)
  deriving DecidableEq, Repr

/-- The Causeway link (R314 to R316). -/
structure CwLink where
  /-- sequence number of the next frame sent; reset 0 -/
  txSeq : Nat := 0
  /-- frames sent and not acknowledged, oldest first (R316); reset none -/
  unacked : List CwFrame := []
  /-- CW_RESENDS (R316); reset 0 -/
  resends : Nat := 0
  /-- STALE_FRAMES, BAD_FRAMES (R394, R395); reset 0 -/
  staleFrames : Nat := 0
  badFrames : Nat := 0
  deriving DecidableEq, Repr

/-- Lanes, ports and flows. -/
structure Net where
  /-- lanes 0 to 95; unlisted: reset lane -/
  lanes : FMap LaneSt := []
  /-- ports 0 to 15; unlisted: reset port -/
  ports : FMap PortSt := []
  /-- input flows by number (R302); reset none -/
  flowsIn : FMap FlowIn := []
  /-- output flows by number (R309); reset none -/
  flowsOut : FMap FlowOut := []
  /-- addresses resolved by ARP: port × 2³² + address (R309); reset none -/
  resolved : List Nat := []
  /-- commands that wait for the Tide boundary, in order of acceptance (R298) -/
  pendCfg : List PendCfg := []
  /-- input and output flows to remove at the next Tide boundary (R308) -/
  removals : List (Bool × Nat) := []
  cw : CwLink := {}
  deriving DecidableEq, Repr

end Sys2Proof.Machine
end

