-- ==== Sys2Proof/Machine/StatePair.lean ====
section
/-! DEFINITION. State of redundant pairs: roles, claim keeper, lockstep, reconciliation, repair, joining (15). -/

namespace Sys2Proof.Machine

/-- The TAGs of one function and flow (R390, R416). -/
structure TagSt where
  started : Word := 0
  done : Word := 0
  count : Nat := 0
  deriving DecidableEq, Repr

/-- PAIR_CONFIG (Table 15.2). -/
structure PairCfg where
  lanes : Nat := 0
  firstHolder : Bool := false
  autoResync : Bool := false
  deriving DecidableEq, Repr

/-- A mirrored command sent and not answered (holder), or received and waiting (standby) (R389). -/
structure Mirror where
  serial : Nat
  /-- the flow whose front command it is -/
  flow : Nat
  outcome : Nat
  result0 : Nat
  result1 : Nat
  /-- BOUNDARY_KIND, its channel or output, and BOUNDARY, as sent (Table 15.4a) -/
  kind : Nat
  object : Nat
  boundary : Nat
  deriving DecidableEq, Repr

/-- What a yielding holder still has to do (R405, R406, R411, R414). -/
structure YieldSt where
  reason : Nat
  keyed : Bool := false
  swapTide : Nat := 0
  deriving DecidableEq, Repr

/-- The pair (R384 to R417). -/
structure Pair where
  /-- sampled PAIR_MEMBER strap (R384); reset 0 until sampled -/
  member : Bool := false
  /-- MODE: compatibility (R413); reset native (DESIGN CHOICE, log 20) -/
  compat : Bool := false
  /-- PAIR_CONFIG in force; reset none -/
  cfg : Option PairCfg := none
  /-- STATE (Table 15.1); reset UNPAIRED -/
  st : PairState := .unpaired
  /-- role (R385); reset none -/
  role : PairRole := .none
  /-- newest claim number known (R402); reset 0 (Table 15.9) -/
  claim : Word := 0
  /-- claim number and contents of the partner's last heartbeat (R396); reset none -/
  partner : Option HbPayload := none
  /-- tick of the last heartbeat received, and misses counted since (R396) -/
  lastHb : Nat := 0
  misses : Nat := 0
  /-- tick of the last heartbeat sent (R396) -/
  lastHbSent : Nat := 0
  /-- the partner has been declared lost (R396); reset true: no partner heard -/
  lost : Bool := true
  /-- keeper state (R403); reset RELEASED -/
  keeper : Keeper := .released
  /-- CLAIM_OUT is driven low (R403); reset released -/
  claimOutLow : Bool := false
  /-- level of CLAIM_IN, and the tick since which it has been high (R403); reset high (pulled up, R384) -/
  claimIn : Bool := true
  claimInSince : Nat := 0
  /-- level of HOLD_N (R405); reset high -/
  holdN : Bool := true
  /-- tick at which ASSERTING began, and the tick before which it may not try again (R403) -/
  assertStart : Nat := 0
  backoffUntil : Nat := 0
  /-- tick of the last keeper refresh; the lapse sequence has closed the gates (R404) -/
  lastRefresh : Nat := 0
  lapsing : Option Nat := none
  /-- keeper refresh stopped by injection (R440 KIND 9), heartbeats suppressed until a tick (KIND 8) -/
  noRefresh : Bool := false
  hbSuppressUntil : Nat := 0
  /-- the holder is yielding (R405) -/
  yielding : Option YieldSt := none
  /-- a lapse has put every transmitter into electrical idle (R404) -/
  txIdle : Bool := false
  /-- the standby waits for CLAIM_IN: tick of the loss or YIELD (R406) -/
  claimWait : Option Nat := none
  /-- the partner's YIELD, keyed and its swap Tide (R406, R414) -/
  partnerYield : Option YieldSt := none
  /-- LINE_FAULT (R406); reset 0 -/
  lineFault : Bool := false
  /-- pair source condition (source 52); reset 0 -/
  src : Bool := false
  /-- mirror serial of the next mirrored command (Table 15.4a); reset 0 -/
  nextMirror : Nat := 0
  /-- serial expected next from the holder -/
  nextFromHolder : Nat := 0
  /-- mirrored commands sent and not answered, oldest first (R389); reset none -/
  sent : List Mirror := []
  /-- function resets that wait for the Tide boundary at which both members begin them: function, cause, Tide number (R429); reset none -/
  resets : List (Nat × Nat × Nat) := []
  /-- TAGs by function × 256 + flow (R390); reset none -/
  tags : FMap TagSt := []
  /-- own TIDE_RECORD of the last Tides, newest first (R397) -/
  ownRecords : List TideRec := []
  /-- records of the partner whose Tide has not ended here yet (R397) -/
  partnerRecords : List TideRec := []
  /-- Tide of the last partner record, and consecutive late records (R397) -/
  lastPartnerTide : Option Nat := none
  lateRun : Nat := 0
  /-- own slice checks not yet compared, and the partner's (R399) -/
  ownChecks : List SliceCheckEntry := []
  partnerChecks : List SliceCheckEntry := []
  /-- last GROUP_END serial by flow × 2 + copy (R407); reset none -/
  groupEnds : FMap Nat := []
  /-- inputs received from the holder and not used yet (R391) -/
  inputs : List InputEntry := []
  /-- lines wanted from the partner (R398) -/
  repairs : List RepairLine := []
  /-- bytes of a line received so far (R398) -/
  repairParts : List (RepairLine × List Byte) := []
  /-- objects not yet joined: kind 1 channel, 2 output, 3 decoder, and number (R412) -/
  joinPending : List (Nat × Nat) := []
  /-- rate-control states and command blocks received in BULK frames: by channel (KIND 2), surface and buffer (KIND 0, Table 15.4a) -/
  rcStates : FMap (List Byte) := []
  /-- FORCE_KEY and MAX_WAIT of the resync in progress (Table 15.7) -/
  forceKey : Bool := false
  maxWait : Nat := 0
  /-- the Tide in which the pair became SYNCED or MIXED: records of later Tides are compared (R397); reset 0 -/
  syncTide : Nat := 0
  /-- Tides reconciled, for PROGRESS (R412, Table 2.11) -/
  reconciled : Nat := 0
  /-- first picture of each channel after the resync began, for MAX_WAIT (Table 15.7) -/
  joinStart : FMap Nat := []
  /-- keyed swap: its instant X, the channels that still owe their IDR, and the picture each coded it at (R414) -/
  keyedAt : Option Instant := none
  keyedLeft : List Nat := []
  keyedPics : FMap Nat := []
  /-- SHED proposals: next serial, and the one that waits: step, undo, serial, Tide number of its sending (R411) -/
  nextShed : Nat := 0
  shedWait : Option (Nat × Bool × Nat × Nat) := none
  /-- its channels and effective pictures (R411) -/
  shedPlan : List (Nat × Nat) := []
  /-- time exchange: own number, T1 sent; offset of the standby clock in ns (R392) -/
  exchange : Nat := 0
  exchangeT1 : Option Instant := none
  /-- the clock is to be stepped to the holder's at the join (R392) -/
  stepPending : Bool := false
  clockOffsetNs : Int := 0
  /-- the clock has been stepped at a join: the holder's Tide number is adopted at the next boundary (R23) -/
  adoptTide : Bool := false
  takeovers : Nat := 0
  divergences : Nat := 0
  repairedLines : Nat := 0
  repairMisses : Nat := 0
  hbMissed : Nat := 0
  reconLate : Nat := 0
  orphanRecords : Nat := 0
  checksCompared : Nat := 0
  lastTakeoverTide : Nat := 0
  deriving DecidableEq, Repr

end Sys2Proof.Machine
end

