-- ==== Sys2Proof/Machine/StateTime.lean ====
section
/-! DEFINITION. State of the time unit: PTP, pulses, triggers and captures, the Tide (01, 13). -/

namespace Sys2Proof.Machine

/-- PTP states (Table 13.3). -/
inductive PtpState where
  | disabled | listening | acquiring | locked | holdover | refused
  deriving DecidableEq, Repr

/-- PTP_CONFIG in force (Table 13.5). -/
structure PtpCfg where
  role : Bool := false
  profile : Nat := 0
  announceTimeout : Nat := 0
  /-- DOMAIN as written, 0xFF = the profile's default -/
  domain : Nat := 0xFF
  ports : BitVec 16 := 0
  tcPorts : BitVec 16 := 0
  /-- ASYM by port, ns; unlisted 0 -/
  asym : FMap Int := []
  deriving DecidableEq, Repr

/-- A foreign master that has been heard (R346): its dataset, port, and ticks of its Announces. -/
structure Foreign where
  port : Nat
  data : AnnounceData
  times : List Nat := []
  deriving DecidableEq, Repr

/-- The PTP instance (R346 to R352). -/
structure Ptp where
  /-- configuration in force; reset ROLE 0 (the other fields 0, DESIGN CHOICE, log 19) -/
  cfg : PtpCfg := {}
  /-- STATE (Table 13.3); reset DISABLED -/
  st : PtpState := .disabled
  foreign : List Foreign := []
  /-- the selected master, and the slave port; reset none -/
  master : Option Foreign := none
  /-- last grandmaster identity selected (R351) -/
  lastGm : Option Nat := none
  /-- ticks of the last Announce and Sync of the master, Sync interval in ns (R351) -/
  lastAnnounce : Nat := 0
  lastSync : Nat := 0
  syncInterval : Nat := 1000000000
  /-- a two-step Sync that waits for its Follow_Up: sequence, t2, correction in 2⁻¹⁶ ns (R348) -/
  pendingSync : Option (Nat × Int × Int) := none
  /-- a Delay_Req that waits for its Delay_Resp: sequence, t3 (R346) -/
  pendingReq : Option (Nat × Int) := none
  nextReqSeq : Nat := 0
  reqInterval : Nat := 1000000000
  lastReq : Nat := 0
  /-- last offsets, newest first, at most 4, in 2⁻¹⁶ ns (R348) -/
  offsets : List Int := []
  /-- path delays, newest first, at most 16, in 2⁻¹⁶ ns (R348) -/
  paths : List Int := []
  /-- t2 − t1 of the last Sync used, for the next exchange -/
  msDelay : Int := 0
  /-- consecutive Syncs within ±100 ns, outside ±1,000 ns (R348, R349) -/
  inRun : Nat := 0
  outRun : Nat := 0
  /-- integrator of the loop, in ADDEND units (R348) -/
  integral : Int := 0
  /-- ADDEND values in LOCKED, newest first: tick from which it held, ticks it held (the newest still holds), value (R351) -/
  addendLog : List (Nat × Nat × Nat) := []
  /-- PENDING_STEP_NS (Table 13.9); reset 0 -/
  pendingStep : Int := 0
  offsetNs : Int := 0
  pathNs : Int := 0
  steps : Nat := 0
  refusals : Nat := 0
  masterChanges : Nat := 0
  holdoverEntries : Nat := 0
  syncRx : Nat := 0
  tcForwarded : Nat := 0
  tcDiscards : Nat := 0
  /-- last synchronization metadata TLV (R347); reset none -/
  metadata : List Byte := []
  /-- source 47 condition (Table 10.4); reset 0 -/
  src : Bool := false
  deriving DecidableEq, Repr

/-- A pulse output (R355, R360). -/
structure Pulse where
  owner : Fn
  /-- MODE 1 or 2 -/
  mode : Nat
  activeLow : Bool
  start : Instant
  num : Nat
  den : Nat
  /-- WIDTH in ns -/
  width : Nat
  /-- next pulse number -/
  k : Nat := 0
  /-- end of the pulse in progress, in elapsed ns (R356) -/
  highUntil : Option Nat := none
  deriving DecidableEq, Repr

/-- A trigger (R357 to R360). -/
structure Trigger where
  owner : Fn
  source : Nat
  edge : Nat
  action : Nat
  /-- TIME of SOURCE 2 -/
  at' : Instant
  num : Nat
  den : Nat
  fired : Bool := false
  /-- the control cycle: first fire time C and next event number (R359) -/
  cycle : Option (Instant × Nat) := none
  deriving DecidableEq, Repr

/-- TIME_CAPT[n] (Table 13.10). -/
structure Capt where
  /-- capture: seconds and nanoseconds; reset 0 -/
  sec : Nat := 0
  ns : Nat := 0
  valid : Bool := false
  overrun : Bool := false
  count : Nat := 0
  /-- source 48 + n condition (R357); reset 0 -/
  src : Bool := false
  deriving DecidableEq, Repr

/-- A waiting SNAPSHOT_CONFIG of a new period (R25): the period in units of 62.5 µs, the command's serial. -/
structure PeriodChange where
  period : Nat
  serial : Nat
  deriving DecidableEq, Repr

/-- The time unit (R22 to R25, R342 to R362). -/
structure TimeUnit where
  /-- the local clock, in 2⁻³² ns since local time zero (R342); reset 0 -/
  local' : Instant := 0
  /-- TIME_ADDEND (R343); reset 0x2_0000_0000 -/
  addend : Nat := 0x200000000
  /-- TIME_JUMP_LIMIT LIMIT (Table 13.10); reset 0x3E8 -/
  jumpLimit : Nat := 0x3E8
  /-- TIME_JUMP_LIMIT REFUSED; reset 0 -/
  refused : Bool := false
  /-- TIME_CAPT[0..3]; unlisted: reset value -/
  capt : FMap Capt := []
  /-- Tide period in units of 62.5 µs (R22); reset 2 = 125 µs -/
  period : Nat := 2
  /-- period change that waits (R25); reset none -/
  periodChange : Option PeriodChange := none
  /-- Tide number; none before the first boundary (R23); reset none -/
  tide : Nat := 0
  /-- a Tide boundary has occurred since cold reset (R23) -/
  tideStarted : Bool := false
  /-- local time and tick of the last boundary (R24); reset 0 -/
  lastBoundary : Instant := 0
  lastBoundaryTick : Nat := 0
  /-- local time of the next boundary by the multiples of the period (R22, R24); reset one period: the first boundary is one period after local time 0, not at it (DESIGN CHOICE, log 183) -/
  nextBoundary : Instant := 125000 * 4294967296
  /-- the clock has been stepped since the last boundary (R24) -/
  stepped : Bool := false
  ptp : Ptp := {}
  /-- PPS_OUT0 to 3 taken (R355); reset none: MODE 0 -/
  pulses : FMap Pulse := []
  /-- level of the outputs as driven (R355); reset 0 -/
  pulseOut : BitVec 4 := 0
  /-- triggers taken (R358); reset none: SOURCE 0 -/
  triggers : FMap Trigger := []
  deriving DecidableEq, Repr

end Sys2Proof.Machine
end

