-- ==== Sys2Proof/Machine/StateUpd.lean ====
section
/-! DEFINITION. State of the Ferry port, firmware and parameter update (17), and of power, resets and shedding (18). -/

namespace Sys2Proof.Machine

/-- A record or answer sent on the Ferry port and kept for repeats (R448). -/
structure FerryKept where
  seq : Nat
  opcode : Nat
  outcome : Nat
  flow : Nat
  tag : Word
  progress : Nat
  result0 : Nat
  result1 : Nat
  tide : Nat
  answer : List Byte
  deriving DecidableEq, Repr

/-- A Ferry client (R448). -/
structure FerryClient where
  client : Client
  /-- order in which it was last heard -/
  lastHeard : Nat
  /-- kept records and answers of its last 256 executed commands, newest first -/
  kept : List FerryKept := []
  /-- sequence numbers of commands accepted and not completed -/
  running : List Nat := []
  deriving DecidableEq, Repr

/-- Session states (ch 17, Loading an image). -/
inductive Session where
  | idle | receiving | verified | trial
  deriving DecidableEq, Repr

/-- A code slot of the boot flash (R453, R455): blocks that are programmed, with their descriptor entries. -/
structure FlashSlot where
  sessionId : Nat := 0
  imageBlocks : Nat := 0
  imageBytes : Nat := 0
  /-- descriptor present -/
  descriptor : Bool := false
  /-- accepted blocks: index to CRC-32C entry (R455) -/
  entries : FMap Word := []
  /-- contents of the programmed blocks -/
  blocks : FMap (List Byte) := []
  /-- a factory image the model does not hold the bytes of: it is valid (R452) with the fused versions (log 7) -/
  factory : Bool := false
  deriving DecidableEq, Repr

/-- The boot record in force (R454). -/
structure BootRecord where
  brSeq : Nat := 0
  activeB : Bool := false
  trial : Bool := false
  trialSlotB : Bool := false
  attempts : Nat := 0
  trialS : Nat := 0
  fallback : Bool := false
  deriving DecidableEq, Repr

/-- A parameter record (R461). -/
structure ParamRec where
  key : Nat
  value : List Byte
  deriving DecidableEq, Repr

/-- The Ferry port and update state (R446 to R466). -/
structure Upd where
  clients : List FerryClient := []
  heard : Nat := 0
  /-- staging segments that are marked written, with their bytes (R450); reset none -/
  staging : FMap (List Byte) := []
  ferryDiscards : Nat := 0
  ferryBad : Nat := 0
  ferryRepeats : Nat := 0
  session : Session := .idle
  /-- client that owns the session (R456) -/
  owner : Option Client := none
  /-- LAST_FAIL (Table 17.7); reset 0 -/
  lastFail : Nat := 0
  /-- slots A and B (R453); a new part holds a factory image in slot A (PRESUMED, log 14) -/
  slotA : FlashSlot := { factory := true }
  slotB : FlashSlot := {}
  boot : BootRecord := {}
  /-- no valid slot, or strapped: boot loader only (R458, R471); reset false -/
  loader : Bool := false
  /-- FW_VERSION and CODING_GEN of the running image; none: the factory image (log 7) -/
  running : Option (Word × Word) := none
  /-- fused security version (R452); a new part: that of the factory image (log 7) -/
  secFused : Option Nat := none
  /-- revoked key slots (R452); reset none (PRESUMED, log 14) -/
  revoked : BitVec 4 := 0
  /-- fuse steps of UPD_CONFIRM still to complete (R459): security version and mask -/
  fusePending : Option (Nat × BitVec 4) := none
  /-- tick at which the trial timer expires (R458) -/
  trialEnd : Option Nat := none
  /-- parameter store: values in force since the last reset, by key (R461, R464); reset: the stored values, defaults of Table 17.6 where none -/
  params : FMap (List Byte) := []
  /-- committed values, which take effect at the next reset (R462) -/
  stored : FMap (List Byte) := []
  /-- open transaction: its client and records (R461) -/
  txn : Option (Client × List ParamRec) := none
  /-- number of the open or next transaction, last committed number (R462) -/
  nextTxn : Nat := 1
  txnCommitted : Nat := 0
  baseSeq : Nat := 0
  /-- bytes used in the delta journal (R463) -/
  journalUsed : Nat := 0
  deriving DecidableEq, Repr

/-- SHED_POLICY in force (Table 18.7, R481, R482, R486). -/
structure ShedPolicy where
  /-- MAX_STEP; reset 8 -/
  maxStep : Nat := 8
  /-- HOLD_STEP; reset 0 -/
  holdStep : Nat := 0
  pinDis : Bool := false
  vddioDis : Bool := false
  /-- STEP_INTERVAL in µs; reset 100 -/
  interval : Nat := 100
  /-- RECOVER_MS; reset 10 -/
  recover : Nat := 10
  deriving DecidableEq, Repr

/-- A condition of a shedding cause: the tick since which it has been present, or absent (R478). -/
structure CondSt where
  present : Bool := false
  since : Nat := 0
  deriving DecidableEq, Repr

/-- Power, resets and shedding (R467 to R489). -/
structure Power where
  /-- the device is powered and out of cold reset; reset true: State.reset is the machine after cold reset (R472) -/
  on : Bool := true
  /-- GLB_STATUS READY (R473, R494); reset true: configuration access has returned -/
  ready : Bool := true
  /-- a warm reset has been started and its first steps done (R473); reset none -/
  warmPending : Option WarmCause := none
  /-- GLB_STATUS WARM_CAUSE and WARM_COUNT; reset 0 -/
  warmCause : Nat := 0
  warmCount : Nat := 0
  /-- BOOT_SRC0, BOOT_SRC1 straps (R471); reset low -/
  bootSrc0 : Bool := false
  bootSrc1 : Bool := false
  /-- AVS_VID code requested (R468); reset 25 (R476) -/
  vid : Nat := 25
  /-- tick of its last move; reset so that the first can come 1 ms after reset (R468) -/
  vidTick : Nat := 495000
  policy : ShedPolicy := {}
  /-- SHED_STATE STEP; reset 0 -/
  step : Nat := 0
  /-- PEAK of SHED_STATE, since its last read; reset 0 -/
  peakReg : Nat := 0
  /-- PEAK of the shedding record, since the last publication; reset 0 -/
  peakRec : Nat := 0
  /-- causes present (R478, R486); reset none -/
  core : Bool := false
  vddio : Bool := false
  pin : Bool := false
  /-- conditions as the monitors see them (R478) -/
  coreCond : CondSt := {}
  bankCond : FMap CondSt := []
  pinCond : CondSt := {}
  /-- tick of the last step taken or undone, or none (R481) -/
  lastStep : Option Nat := none
  /-- tick since which no cause has been present (R482) -/
  quietSince : Nat := 0
  /-- PAIR_WAIT (R485); reset 0 -/
  pairWait : Bool := false
  /-- QUIESCED (R484); reset 0 -/
  quiesced : Bool := false
  /-- agreed changes of a coding step whose effective pictures have not all started: the step before the change, and (channel, effective picture) (R120, R485); reset none -/
  changes : List (Nat × List (Nat × Nat)) := []
  /-- STEPS_TAKEN, STEPS_UNDONE, CORE_EVENTS, PIN_EVENTS, PAIR_YIELDS (Table 18.8); reset 0 -/
  stepsTaken : Nat := 0
  stepsUndone : Nat := 0
  coreEvents : Nat := 0
  pinEvents : Nat := 0
  pairYields : Nat := 0
  /-- POWER_W and CORE_MV as last measured (Table 18.8); reset 0 (DESIGN CHOICE, log 17) -/
  powerW : Nat := 0
  coreMv : Nat := 0
  /-- core clock domains lost (R32, R421); reset none -/
  clocksLost : List ClockDomain := []
  /-- lost domains whose clock has returned: what they fed stays stopped until warm reset (R33, R421); reset none -/
  clocksBack : List ClockDomain := []
  /-- PCIe link state (R291); reset L0 (PRESUMED, log 12) -/
  link : LinkState := .l0
  /-- ALERT_N driven low (R479); reset released -/
  alertLow : Bool := false
  deriving DecidableEq, Repr

end Sys2Proof.Machine
end

