-- ==== Sys2Proof/Machine/State.lean ====
section
/-! DEFINITION. The whole state of the device, its reset value, and the reasons a step can stop. -/

namespace Sys2Proof.Machine

/-- Why a step stops with a fault. No step of this model does: every fault of the manual (Table 16.1) is an effect on the state. -/
inductive Fault where
  /-- raised by no one; kept because a step's outcome needs a type of faults (safe) -/
  | none
  deriving DecidableEq, Repr

/-- Why a step is refused. -/
inductive Refusal where
  /-- raised by exec's arm of a row that has no meaning yet (safe: the machine stops) -/
  | notModelled (mnemonic : String)
  deriving DecidableEq, Repr

/-- What leaves the device (log 4). -/
inductive Out where
  /-- a completion or event record written: function, host address, record, PHASE (R51, R52) -/
  | record (f : Nat) (addr : Nat) (r : Rec) (phase : Bool)
  /-- an answer block written: function, host address, bytes (R58) -/
  | answer (f : Nat) (addr : Nat) (bytes : List Byte)
  /-- an MSI-X message: function, vector, address and data of the entry (R290, R501) -/
  | msix (f : Nat) (v : Nat) (addr data : Nat)
  /-- a PM_PME message (R291) -/
  | pme (f : Nat)
  /-- a register read completes with a value (R491) -/
  | read (f : Nat) (offset : Nat) (value : Nat)
  /-- a read of configuration space, SNAPWIN or SURFWIN completes with bytes; with the poisoned (EP) bit (R2, R76, R500) -/
  | data (f : Nat) (w : ReadWindow) (offset : Nat) (bytes : List Byte) (poisoned : Bool)
  /-- a read completes with Unsupported Request (R491, R494) -/
  | unsupported (f : Nat) (offset : Nat)
  /-- a frame starts on port p: flow, copy, group, bytes without FCS, headers (R309, R324) -/
  | frame (p : Nat) (flow : Nat) (copyB : Bool) (group : Nat) (len : Nat) (hdr : FrameHdr)
  /-- a frame the firmware or the transparent clock sends (R301, R322, R354) -/
  | fwFrame (p : Nat) (queue : Nat) (len : Nat)
  /-- port p begins or stops sending remote fault (R320) -/
  | remoteFault (p : Nat) (on : Bool)
  /-- a PTP frame that the transparent clock forwards on port p: message type, correctionField in 2⁻¹⁶ ns, whether its UDP checksum is set to zero (R354) -/
  | ptpFrame (p : Nat) (msgType : Nat) (correction : Int) (checksumZero : Bool)
  /-- a slice is emitted: channel, picture, slice, check value (R86, R87) -/
  | slice (c picture slice : Nat) (check : Word)
  /-- NAL units of an access unit in order: channel, picture (R141) -/
  | nals (c picture : Nat) (units : List Nal)
  /-- a channel's end-of-bitstream marker is emitted (R99) -/
  | eos (c : Nat)
  /-- a Causeway frame sent: type (Table 15.4), sequence number, and the characters of each lane in lane order (R316) -/
  | causeway (type seq : Nat) (payload : List Byte) (lanes : List (List CwChar))
  /-- the same, with a bad CRC (R440 KIND 5) -/
  | causewayBad (type seq : Nat)
  /-- a negative acknowledgement: the first frame to resend (R316) -/
  | causewayNak (seq : Nat)
  /-- a Ferry datagram: client, TYPE, SEQ, body (R447, R448) -/
  | ferry (c : Client) (type seq : Nat) (body : List Byte)
  /-- a Ferry frame answered by firmware: ARP or ICMP echo (R446) -/
  | ferryFrame (f : FerryFrame)
  /-- levels of pins: CLAIM_OUT, ALERT_N, PPS_OUT -/
  | pin (name : String) (high : Bool)
  /-- a composed line: output, picture, line, Y, Cb, Cr (R192) -/
  | line (o m line : Nat) (y cb cr : List Nat)
  /-- a frame of an audio port: samples driven by slot, none where the pin is in high impedance (R367, R368, R371) -/
  | audioFrame (p : Nat) (samples : List (Option Int)) (wave : AudioWave)
  /-- samples that a released group carries, by bus, and the elementary stream of ST 302: its PID, stream type and registration (R380, R381) -/
  | audio (flow : Nat) (copyB : Bool) (group : Nat) (es : Option (Nat × Nat × String)) (samples : List (List Int))
  /-- a response delivered to a master port: ID, beats, error status, poison mark, bytes of a read (R255 to R259) -/
  | response (m id beats : Nat) (err poisoned : Bool) (data : List Byte)
  /-- an SDI picture sent (R313): lane, picture -/
  | sdi (lane m : Nat)
  deriving DecidableEq, Repr

/-- The state of the device. -/
structure State where
  /-- commands that wait, first in first out (the model's own); reset empty -/
  pending : List Instr := []
  /-- CLK_TIME ticks of 2 ns since power-on (R342); reset 0 -/
  now : Nat := 0
  /-- counter of free values (the model's own, log 9); reset 0 (DESIGN CHOICE, log 9) -/
  freeCtr : Nat := 0
  /-- what has left the device, newest first (the model's own, log 4); reset empty -/
  outbox : List Out := []
  /-- value returned by the last register read (the model's own, log 4); reset none -/
  readData : Option Nat := none
  /-- functions PF0 and VF1 to VF31 (R34); unlisted: reset function -/
  fns : FMap FnState := []
  /-- FUNC_QUOTA by VF: SQ_COUNT, CQ_COUNT (Table 2.1); unlisted (0, 0) -/
  quotas : FMap (Nat × Nat) := []
  /-- VF Enable of PF0's SR-IOV capability (R40); reset 0 (PRESUMED, log 12) -/
  vfEnable : Bool := false
  /-- fetched, uncompleted commands by flow: 256 × function + flow, and 8192 + Ferry flow, oldest first (R7, R45) -/
  flows : FMap (List Cmd) := []
  /-- visible, unfetched entries by flow: the SQ of each, in submission order (R44) -/
  arrivals : FMap (List Nat) := []
  /-- next serial number of a fetched command -/
  nextSerial : Nat := 0
  irq : Irq := {}
  harbour : Harbour := {}
  journal : Journal := {}
  /-- check-value units 0 to 15 (R431); unlisted: reset unit -/
  crc : FMap CrcUnit := []
  units : Units := {}
  /-- channels 0 to 63 (R79); reset none -/
  chans : FMap Chan := []
  /-- outputs 0 to 31 (R172); reset none -/
  outs : FMap Output := []
  /-- surfaces 0 to 4,095 (R182); reset none -/
  surfs : FMap Surface := []
  /-- decoders 0 to 31 (R216); reset none -/
  decs : FMap Decoder := []
  /-- what received streams have decoded to (the model's own, log 169: R224); reset none -/
  decodes : List Decoding := []
  mem : Mem := {}
  fab : Fab := {}
  net : Net := {}
  time : TimeUnit := {}
  audio : Audio := {}
  pair : Pair := {}
  upd : Upd := {}
  power : Power := {}
  deriving DecidableEq, Repr

/-- The machine right after cold reset, in service (R472, Table 19.8). -/
def State.reset : State := {}

end Sys2Proof.Machine
end

