-- ==== Sys2Proof/Machine/Operands.lean ====
section
/-! DEFINITION. Operand forms: fields of command packets (R47 to R50), little-endian words and bytes (R3), and what Table 2.9 and Table 2.12 say of each opcode. -/

namespace Sys2Proof.Machine

/-- Bits [hi:lo] of a number. -/
def bitsOf (n hi lo : Nat) : Nat := (n >>> lo) % 2 ^ (hi + 1 - lo)

/-- Bit i of a number. -/
def bitOf (n i : Nat) : Bool := n.testBit i

/-- Bits as a signed number of the given width. -/
def signedOf (n width : Nat) : Int := if n < 2 ^ (width - 1) then (n : Int) else (n : Int) - (2 ^ width : Nat)

/-- A signed number as an unsigned field of the given width. -/
def unsignedOf (i : Int) (width : Nat) : Nat := (i % (2 ^ width : Nat)).toNat

/-- Word i of a packet (R47). -/
def word (p : Packet) (i : Nat) : Nat := (p.toList.getD i 0).toNat

/-- Bits [hi:lo] of word i of a packet. -/
def fld (p : Packet) (i hi lo : Nat) : Nat := bitsOf (word p i) hi lo

/-- Bit b of word i of a packet. -/
def flag (p : Packet) (i b : Nat) : Bool := bitOf (word p i) b

/-- A 64-bit value in words i and i + 1, low word first. -/
def dword (p : Packet) (i : Nat) : Nat := word p i + word p (i + 1) * 2 ^ 32

/-- OPCODE, QUIET, AT_PICTURE, INDIRECT, FLOW, TAG and PICTURE (Table 2.6). -/
def opcodeOf (p : Packet) : Nat := fld p 0 15 0
def quietOf (p : Packet) : Bool := flag p 0 16
def atPictureOf (p : Packet) : Bool := flag p 0 17
def indirectOf (p : Packet) : Bool := flag p 0 18
def flowOf (p : Packet) : Nat := fld p 0 31 24
def tagOf (p : Packet) : Word := BitVec.ofNat 32 (word p 1)
def pictureOf (p : Packet) : Nat := dword p 14

/-- A time in words i to i + 2: seconds [31:0], seconds [47:32], nanoseconds (R95, R183), in ns. -/
def timeNsOf (p : Packet) (i : Nat) : Nat := (word p i + fld p (i + 1) 15 0 * 2 ^ 32) * 1000000000 + word p (i + 2)

/-- One nanosecond in units of 2⁻³² ns (R342). -/
def nsUnit : Nat := 4294967296

/-- A time in ns as an instant. -/
def nsInstant (ns : Nat) : Instant := ns * nsUnit

/-- Nanoseconds of an instant, the fraction dropped. -/
def instantNs (t : Instant) : Nat := t / nsUnit

/-- n bytes of a number, least significant first (R3). -/
def le (n v : Nat) : List Byte := (List.range n).map (fun i => BitVec.ofNat 8 (v >>> (8 * i)))

/-- n bytes of a number, most significant first (R142). -/
def be (n v : Nat) : List Byte := (le n v).reverse

/-- A number from bytes, least significant first (R3). -/
def ofLe : List Byte → Nat
  | [] => 0
  | b :: r => b.toNat + 256 * ofLe r

/-- n bytes of a signed number, least significant first. -/
def leInt (n : Nat) (v : Int) : List Byte := le n (unsignedOf v (8 * n))

/-- n zero bytes. -/
def zeros (n : Nat) : List Byte := List.replicate n 0

/-- n bytes of a list from offset o, missing bytes read as zero. -/
def slice (b : List Byte) (o n : Nat) : List Byte := (List.range n).map (fun i => b.getD (o + i) 0)

/-- Sum of a list of integers. -/
def sumInt (l : List Int) : Int := l.foldl (· + ·) 0

/-- Sum of a list of numbers. -/
def sumBy {α : Type} (f : α → Nat) (l : List α) : Nat := l.foldl (fun a x => a + f x) 0

/-- Insert by key, after equal keys. -/
def insertOn {α : Type} (key : α → Nat) (x : α) : List α → List α
  | [] => [x]
  | y :: r => if key x < key y then x :: y :: r else y :: insertOn key x r

/-- A list in rising order of a key; equal keys keep their order. -/
def sortOn {α : Type} (key : α → Nat) (l : List α) : List α := l.foldl (fun a x => insertOn key x a) []

/-- Division rounding up. -/
def ceilDiv (a b : Nat) : Nat := (a + b - 1) / b

/-- Saturating increment. -/
def satInc (n limit : Nat) : Nat := min (n + 1) limit

/-- 32-bit counters wrap at 2³² (R445). -/
def inc32 (n : Nat) : Nat := (n + 1) % 2 ^ 32

/-- Who may issue an opcode (Table 2.12). -/
inductive Allow where
  | all | pf0 | ferry | pf0OrFerry
  deriving DecidableEq, Repr

/-- What INDIRECT means for an opcode (R49, R58): no block; a parameter block, required or optional; an answer block. -/
inductive BlockUse where
  | noBlock | required | optional | answer
  deriving DecidableEq, Repr

/-- Progress classes of Table 2.11. -/
inductive ProgClass where
  | none | query | channel | commit | staging | surface | decoding | lane | config | pair | update | test
  deriving DecidableEq, Repr

/-- What is said of one opcode: its fields as (word, high bit, low bit), who may issue it, its block, whether AT_PICTURE is valid (R50), its class (Table 2.11). -/
structure OpInfo where
  code : Nat
  fields : List (Nat × Nat × Nat)
  allow : Allow := .all
  block : BlockUse := .noBlock
  atPicture : Bool := false
  cls : ProgClass := .config
  deriving DecidableEq, Repr

/-- System and channel opcodes (ch 02, 03). -/
def opTableA : List OpInfo := [
  { code := 0x0100, fields := [], cls := .none },
  { code := 0x0101, fields := [], block := .answer, cls := .query },
  { code := 0x0102, fields := [(2, 2, 0)] },
  { code := 0x0103, fields := [(2, 9, 0), (3, 31, 0), (4, 31, 0)], cls := .none },
  { code := 0x0104, fields := [(2, 9, 0), (2, 20, 16), (3, 31, 0), (4, 31, 0), (5, 31, 0)], cls := .none },
  { code := 0x0105, fields := [(2, 4, 0)], allow := .pf0, cls := .none },
  { code := 0x0106, fields := [(2, 0, 0), (2, 15, 8), (2, 25, 16), (3, 15, 0), (4, 5, 0)] },
  { code := 0x0107, fields := [], block := .answer, cls := .query },
  { code := 0x0201, fields := [], cls := .channel },
  { code := 0x0202, fields := [(2, 5, 0), (3, 2, 0), (3, 23, 8), (4, 31, 0), (5, 31, 0), (6, 31, 0), (7, 3, 0)], cls := .channel },
  { code := 0x0203, fields := [(2, 5, 0), (3, 1, 0), (3, 9, 8), (4, 31, 0), (5, 15, 0), (6, 31, 0)], cls := .channel },
  { code := 0x0204, fields := [(2, 5, 0), (3, 0, 0)], cls := .channel },
  { code := 0x0205, fields := [(2, 5, 0)], cls := .channel },
  { code := 0x0206, fields := [(2, 5, 0), (3, 15, 0)], atPicture := true, cls := .channel },
  { code := 0x0207, fields := [(2, 5, 0), (3, 1, 0)], atPicture := true, cls := .channel },
  { code := 0x0208, fields := [(5, 5, 0)], block := .answer, cls := .query }]

/-- Encoding and composition opcodes (ch 04, 05, 06). -/
def opTableB : List OpInfo := [
  { code := 0x0301, fields := [(2, 5, 0), (3, 15, 0), (4, 9, 0)], cls := .channel },
  { code := 0x0302, fields := [(2, 5, 0), (3, 13, 0), (4, 17, 0), (4, 31, 24), (5, 4, 0)], atPicture := true, cls := .channel },
  { code := 0x0303, fields := [(2, 5, 0), (3, 2, 0), (3, 10, 8), (3, 15, 12), (4, 31, 0), (5, 31, 0), (6, 31, 0), (7, 31, 0), (8, 31, 0), (9, 25, 0), (10, 31, 0)], atPicture := true, cls := .channel },
  { code := 0x0304, fields := [(2, 5, 0), (2, 20, 16), (3, 10, 8), (3, 15, 12), (4, 31, 0), (5, 31, 0), (8, 31, 0), (9, 25, 0), (10, 31, 0)], atPicture := true, cls := .channel },
  { code := 0x0305, fields := [(2, 5, 0), (2, 10, 8), (3, 1, 0), (3, 15, 8), (4, 31, 0), (5, 31, 0)], atPicture := true, cls := .channel },
  { code := 0x0306, fields := [(2, 5, 0), (3, 1, 0), (3, 6, 4)], atPicture := true, cls := .channel },
  { code := 0x0307, fields := [(2, 5, 0), (3, 3, 0)], atPicture := true, cls := .channel },
  { code := 0x0401, fields := [(2, 1, 0), (2, 12, 8), (3, 31, 0), (4, 31, 0), (5, 31, 0), (6, 3, 0), (6, 31, 16), (7, 31, 0), (8, 29, 0)] },
  { code := 0x0402, fields := [(2, 4, 0), (2, 13, 8), (2, 18, 16), (3, 29, 0), (4, 31, 0), (5, 31, 0), (6, 31, 0), (7, 31, 0), (8, 15, 0)], cls := .staging },
  { code := 0x0403, fields := [(2, 4, 0), (2, 13, 8)], cls := .staging },
  { code := 0x0404, fields := [(2, 4, 0)], atPicture := true, cls := .commit },
  { code := 0x0405, fields := [(2, 4, 0), (2, 8, 8), (3, 11, 0), (4, 31, 0)], allow := .pf0, cls := .staging },
  { code := 0x0406, fields := [(2, 4, 0), (2, 13, 8), (3, 31, 0)], cls := .staging },
  { code := 0x0407, fields := [(2, 3, 0), (2, 5, 4), (2, 9, 8), (3, 31, 0)], cls := .surface },
  { code := 0x0408, fields := [(2, 11, 0)], cls := .surface },
  { code := 0x0409, fields := [(5, 11, 0), (5, 17, 16), (6, 31, 0), (7, 15, 0), (8, 31, 0), (9, 31, 0), (10, 15, 0), (11, 31, 0)], block := .optional, cls := .surface }]

/-- Decoding, lane, port, time and audio opcodes (ch 07, 11, 12, 13, 14). -/
def opTableC : List OpInfo := [
  { code := 0x0501, fields := [(2, 4, 0), (3, 15, 0), (4, 31, 0), (5, 31, 0), (6, 15, 0), (7, 31, 0)], cls := .decoding },
  { code := 0x0502, fields := [(2, 4, 0)], cls := .decoding },
  { code := 0x0503, fields := [(2, 4, 0), (3, 2, 0)], cls := .decoding },
  { code := 0x0504, fields := [(5, 4, 0)], block := .answer, cls := .query },
  { code := 0x0601, fields := [(2, 6, 0), (2, 14, 8), (3, 10, 0), (4, 17, 0), (5, 15, 0)], allow := .pf0 },
  { code := 0x0602, fields := [(2, 7, 0), (3, 6, 0), (4, 13, 0), (5, 31, 0), (6, 15, 0), (7, 31, 0), (8, 31, 0), (9, 31, 0)], allow := .pf0 },
  { code := 0x0603, fields := [(2, 11, 0), (3, 31, 0), (4, 15, 0), (5, 31, 0), (6, 31, 0), (7, 15, 0), (8, 31, 0), (9, 31, 0), (10, 15, 0), (11, 31, 0), (12, 31, 0), (13, 20, 0)] },
  { code := 0x0604, fields := [(2, 14, 0), (3, 31, 0), (4, 31, 0), (5, 31, 0), (6, 31, 0), (7, 31, 0), (8, 5, 0), (8, 14, 8), (9, 31, 0), (10, 31, 0)] },
  { code := 0x0605, fields := [(2, 10, 0), (2, 16, 16)] },
  { code := 0x0606, fields := [(2, 1, 0), (2, 26, 16), (3, 31, 0), (4, 31, 0), (5, 31, 0), (6, 15, 0)] },
  { code := 0x0607, fields := [(5, 3, 0), (5, 8, 8), (5, 24, 16), (6, 31, 0), (7, 15, 0), (8, 31, 0), (9, 31, 0)], allow := .pf0, block := .optional },
  { code := 0x0608, fields := [(2, 8, 0), (3, 3, 0), (4, 31, 0), (5, 1, 0), (6, 31, 0)], cls := .lane },
  { code := 0x0609, fields := [(5, 5, 0), (5, 13, 8), (5, 21, 16), (6, 9, 0)], block := .answer, cls := .lane },
  { code := 0x0701, fields := [(2, 31, 0), (3, 15, 0), (4, 31, 0), (5, 31, 0), (6, 31, 0), (7, 31, 0), (8, 31, 0), (9, 31, 0), (10, 31, 0), (11, 31, 0)], allow := .pf0 },
  { code := 0x0702, fields := [(2, 2, 0), (3, 31, 0), (4, 31, 0), (5, 31, 0)], allow := .pf0 },
  { code := 0x0703, fields := [(2, 4, 0), (3, 31, 0), (4, 15, 0), (5, 31, 0), (6, 31, 0), (7, 15, 0), (8, 31, 0)] },
  { code := 0x0704, fields := [(2, 5, 0), (2, 9, 8), (3, 31, 0), (4, 15, 0), (5, 31, 0), (6, 31, 0), (7, 15, 0)] },
  { code := 0x0705, fields := [], block := .answer, cls := .query },
  { code := 0x0801, fields := [(2, 3, 0), (3, 13, 0), (4, 15, 0)], allow := .pf0 },
  { code := 0x0802, fields := [(2, 3, 0), (3, 31, 0), (4, 31, 0)] },
  { code := 0x0803, fields := [(2, 1, 0), (2, 14, 8), (3, 1, 0), (3, 15, 8), (3, 31, 16), (4, 0, 0)] },
  { code := 0x0804, fields := [(2, 14, 8), (2, 22, 16), (3, 1, 0)] }]

/-- Pair, update, diagnostics, memory and power opcodes (ch 15 to 18, 08). -/
def opTableD : List OpInfo := [
  { code := 0x0901, fields := [(2, 4, 0)], allow := .pf0, cls := .pair },
  { code := 0x0902, fields := [], block := .answer, cls := .query },
  { code := 0x0903, fields := [(2, 0, 0)], allow := .pf0, cls := .pair },
  { code := 0x0904, fields := [(2, 0, 0), (3, 31, 0)], allow := .pf0, cls := .pair },
  { code := 0x0905, fields := [(2, 0, 0)], allow := .pf0, cls := .pair },
  { code := 0x0A01, fields := [(2, 31, 0), (3, 31, 0), (4, 31, 0), (5, 0, 0)], allow := .ferry, cls := .none },
  { code := 0x0A02, fields := [(5, 31, 0), (6, 31, 0)], allow := .ferry, block := .required, cls := .update },
  { code := 0x0A03, fields := [], allow := .ferry, cls := .update },
  { code := 0x0A04, fields := [(2, 11, 0), (2, 16, 16)], allow := .ferry, cls := .none },
  { code := 0x0A05, fields := [], allow := .pf0OrFerry, cls := .none },
  { code := 0x0A06, fields := [(2, 0, 0)], allow := .ferry, cls := .none },
  { code := 0x0A07, fields := [], allow := .ferry, block := .required, cls := .update },
  { code := 0x0A08, fields := [(2, 31, 0)], allow := .ferry, cls := .none },
  { code := 0x0A09, fields := [(5, 0, 0)], block := .answer, cls := .query },
  { code := 0x0B01, fields := [(2, 2, 0), (2, 15, 8)], cls := .test },
  { code := 0x0B02, fields := [(2, 1, 0), (2, 15, 8)], allow := .pf0, cls := .test },
  { code := 0x0B03, fields := [(5, 1, 0), (5, 13, 8)], block := .answer, cls := .query },
  { code := 0x0B04, fields := [(2, 15, 0), (3, 31, 0), (4, 31, 0), (5, 15, 0), (6, 31, 0)], allow := .pf0, cls := .test },
  { code := 0x0B05, fields := [(5, 31, 0), (6, 31, 0)], block := .answer, cls := .query },
  { code := 0x0C01, fields := [(2, 3, 0), (3, 31, 0)], allow := .pf0 },
  { code := 0x0C02, fields := [(2, 0, 0), (3, 31, 0), (4, 15, 0)], allow := .pf0 },
  { code := 0x0C03, fields := [], block := .answer, cls := .query },
  { code := 0x0D01, fields := [(2, 9, 0), (3, 31, 0)], allow := .pf0 },
  { code := 0x0D02, fields := [], block := .answer, cls := .query },
  { code := 0x0D03, fields := [(2, 0, 0), (2, 13, 8), (3, 1, 0)], allow := .pf0 }]

/-- The opcodes of Table 2.9. -/
def opTable : List OpInfo := opTableA ++ opTableB ++ opTableC ++ opTableD

/-- The row of an opcode, if Table 2.9 has it (R56). -/
def opInfo (code : Nat) : Option OpInfo := opTable.find? (fun i => i.code == code)

/-- The bits of word w that a packet of this opcode may set: its fields, the block words with INDIRECT (R49), the picture words with AT_PICTURE (R47), the words that DEC_OPEN of a confidence decoder ignores (R216). Bits that no table gives the opcode count as reserved (R4, log 22). -/
def definedBits (i : OpInfo) (p : Packet) (w : Nat) : Nat :=
  let f := i.fields.foldl (fun m x => if x.1 = w then m ||| ((2 ^ (x.2.1 + 1) - 1) - (2 ^ x.2.2 - 1)) else m) 0
  if indirectOf p && (2 ≤ w && w ≤ 4) then 2 ^ 32 - 1
  else if atPictureOf p && 14 ≤ w then 2 ^ 32 - 1
  else if i.code = 0x0501 && flag p 2 0 && (4 ≤ w && w ≤ 7) then 2 ^ 32 - 1
  else f

/-- No reserved bit is set (R4). -/
def reservedOk (i : OpInfo) (p : Packet) : Bool :=
  fld p 0 23 19 == 0 && (List.range 14).all (fun k => word p (k + 2) &&& (2 ^ 32 - 1 - definedBits i p (k + 2)) == 0)

/-- Outcome codes (Table 2.10). -/
def stOk : Nat := 0x00
def stOkPartial : Nat := 0x01
def stCancelled : Nat := 0x02
def stBadOpcode : Nat := 0x10
def stBadParam : Nat := 0x11
def stBadState : Nat := 0x12
def stNoResource : Nat := 0x13
def stCapacity : Nat := 0x14
def stLinebuf : Nat := 0x15
def stCycle : Nat := 0x16
def stTimeout : Nat := 0x17
def stDenied : Nat := 0x18
def stCheck : Nat := 0x19
def stSignature : Nat := 0x1A
def stFence : Nat := 0x1B
def stFault : Nat := 0x20
def stReset : Nat := 0x21
def stShed : Nat := 0x22
def stPair : Nat := 0x23

end Sys2Proof.Machine
end

