-- ==== Sys2Proof/Machine/Ops.lean ====
section
/-! DEFINITION. Named operations shared by every meaning: time, functions, output trace, journal, free values, object look-up. -/

namespace Sys2Proof.Machine

/-- The device acts: it is powered, out of cold reset, not in the course of a warm reset (R473) and not quiesced by shedding step 8 (R476, R484). -/
def acting (s : State) : Bool := s.power.on && !s.power.quiesced && s.power.warmPending.isNone

/-- A clock domain is lost (R32, R421). -/
def clockLost (s : State) (d : ClockDomain) : Bool := s.power.clocksLost.contains d

/-- Edges of a domain clock in a window of 64 XTAL_IN periods, 1.28 µs, in hundredths (R31, Table 1.5a). -/
def nominalEdges : ClockDomain → Nat
  | .isle => 192000 | .ent => 256000 | .fab => 153600 | .ctl => 153600 | .hbm => 153600 | .qdr => 136512 | .pcie => 128000 | .time => 64000 | .ferry => 16000

/-- A window's count shows a lost clock: it is zero or deviates from nominal by more than one eighth (R31). -/
def windowLost (edges nominal : Nat) : Bool := edges == 0 || decide (nominal < 8 * ((edges : Int) - nominal).natAbs)

/-- dt CLK_TIME ticks pass: each adds ADDEND to the local clock (R342), which stands still while CLK_TIME is lost. -/
def advance (dt : Nat) (s : State) : State :=
  { s with now := s.now + dt, time.local' := if clockLost s .time then s.time.local' else s.time.local' + dt * s.time.addend }

/-- A channel as it stands now: armed for a start time that has come, it has started; that is its start event (R96, Table 3.3). -/
def startedChan (s : State) (x : Chan) : Chan :=
  if x.st == .armed && x.run.startMode == 1 && decide (x.run.startAt ≤ s.time.local') then { x with st := .running } else x

/-- A step of the device: nothing happens while it does not act. -/
def act (s : State) (k : State → State) : State := if acting s then k s else s

/-- A step that time brings: dt ticks pass, then it acts. -/
def actAfter (dt : Nat) (s : State) (k : State → State) : State := if acting s then k (advance dt s) else s

/-- Frames of a stream may still leave: while the device acts, and, once a warm reset has begun, until every stream has ended (R100, R457). -/
def egressing (s : State) : Bool := s.power.on && !s.power.quiesced && (s.power.warmPending.isNone || s.chans.any (fun e => e.2.st == .running || e.2.st == .draining))

/-- A step of egress that time brings. -/
def egressAfter (dt : Nat) (s : State) (k : State → State) : State := if egressing s then k (advance dt s) else s

/-- A step reaches the host interface: the device is in service (R494) and CLK_PCIE runs (Table 16.2). -/
def hostUp (s : State) : Bool := acting s && s.power.ready && !clockLost s .pcie

/-- Vendor and device ID, in DEV_ID and in the configuration space of every function (R2, Table 19.3). -/
def vendorId : Nat := 0x1FA3
def deviceId : Nat := 0x9616

/-- CLK_TIME ticks of a span in ns, µs and ms. -/
def ticksNs (n : Nat) : Nat := n / 2
def ticksUs (n : Nat) : Nat := n * 500
def ticksMs (n : Nat) : Nat := n * 500000

/-- The state of function f. -/
def fnAt (s : State) (f : Nat) : FnState := s.fns.getD f {}

/-- Replace the state of function f. -/
def setFn (s : State) (f : Nat) (x : FnState) : State := { s with fns := s.fns.set f x }

/-- Change the state of function f. -/
def modFn (s : State) (f : Nat) (g : FnState → FnState) : State := setFn s f (g (fnAt s f))

/-- Something leaves the device. -/
def emit (s : State) (o : Out) : State := { s with outbox := o :: s.outbox }

/-- A fresh free value (log 9). -/
def freshValue (s : State) : Nat := Config.freeValue s.freeCtr

/-- The next free value is another one. -/
def spendFree (s : State) : State := { s with freeCtr := s.freeCtr + 1 }

/-- SQs and CQs of a function (R34): a VF has its quota, PF0 the queues not given to VFs. -/
def sqQuota (s : State) (f : Nat) : Nat :=
  if f = 0 then 1024 - sumBy (fun e => e.2.1) s.quotas else (s.quotas.getD f (0, 0)).1
def cqQuota (s : State) (f : Nat) : Nat :=
  if f = 0 then 1024 - sumBy (fun e => e.2.2) s.quotas else (s.quotas.getD f (0, 0)).2

/-- Key of a flow in the tables of flows. -/
def flowKey : FlowRef → Nat
  | .host f k => 256 * f.val + k.val
  | .ferry k => 8192 + k.val

/-- Commands of a flow, oldest first. -/
def flowCmds (s : State) (k : Nat) : List Cmd := s.flows.getD k []

/-- Replace the commands of a flow. -/
def setFlow (s : State) (k : Nat) (l : List Cmd) : State :=
  { s with flows := if l.isEmpty then s.flows.erase k else s.flows.set k l }

/-- Every fetched, uncompleted command with its flow, in flow order. -/
def allCmds (s : State) : List (Nat × Cmd) := s.flows.foldr (fun e r => e.2.map (fun c => (e.1, c)) ++ r) []

/-- FLAGS of a journal entry that the pair gives: [1] holder, [2] standby (Table 16.9). -/
def pairFlags (s : State) : Nat := match s.pair.role with | .holder => 2 | .standby => 4 | .none => 0

/-- Stage one journal entry and count it in FAULTS (R419, R442, R443). FLAGS: injected, output left R18. -/
def journalAdd (s : State) (cls flags function objKind object detail : Nat) : State :=
  let e : JEntry := { seq := s.journal.nextSeq, tide := s.time.tide, cls := cls, flags := flags ||| pairFlags s, function := function,
                      objKind := objKind, object := object, detail := detail % 2 ^ 48 }
  { s with journal.staged := s.journal.staged ++ [e], journal.stagedAt := s.journal.stagedAt ++ [s.now],
           journal.nextSeq := s.journal.nextSeq + 1, journal.faults := s.journal.faults.set cls (inc32 (s.journal.faults.getD cls 0)) }

/-- A fault that is counted and not journaled (R419, class 3). -/
def countFault (s : State) (cls : Nat) : State :=
  { s with journal.faults := s.journal.faults.set cls (inc32 (s.journal.faults.getD cls 0)) }

/-- Function code of a journal entry that concerns the device (Table 16.9). -/
def deviceFn : Nat := 0xFF

/-- Channel, output, surface and decoder by number. -/
def chanAt (s : State) (c : Nat) : Option Chan := s.chans.get? c
def outAt (s : State) (o : Nat) : Option Output := s.outs.get? o
def surfAt (s : State) (n : Nat) : Option Surface := s.surfs.get? n
def decAt (s : State) (d : Nat) : Option Decoder := s.decs.get? d

/-- Replace one of them. -/
def setChan (s : State) (c : Nat) (x : Chan) : State := { s with chans := s.chans.set c x }
def setOut (s : State) (o : Nat) (x : Output) : State := { s with outs := s.outs.set o x }
def setSurf (s : State) (n : Nat) (x : Surface) : State := { s with surfs := s.surfs.set n x }
def setDec (s : State) (d : Nat) (x : Decoder) : State := { s with decs := s.decs.set d x }

/-- Change one of them, if it exists. -/
def modChan (s : State) (c : Nat) (g : Chan → Chan) : State := { s with chans := s.chans.modify c g }
def modOut (s : State) (o : Nat) (g : Output → Output) : State := { s with outs := s.outs.modify o g }
def modSurf (s : State) (n : Nat) (g : Surface → Surface) : State := { s with surfs := s.surfs.modify n g }
def modDec (s : State) (d : Nat) (g : Decoder → Decoder) : State := { s with decs := s.decs.modify d g }

/-- Lane, port, audio port, bus, arbiter, PC controller, Harbour thread and core by number. -/
def laneAt (s : State) (l : Nat) : LaneSt := s.net.lanes.getD l {}
def setLane (s : State) (l : Nat) (x : LaneSt) : State := { s with net.lanes := s.net.lanes.set l x }
def modLane (s : State) (l : Nat) (g : LaneSt → LaneSt) : State := setLane s l (g (laneAt s l))
def portAt (s : State) (p : Nat) : PortSt := s.net.ports.getD p {}
def setPort (s : State) (p : Nat) (x : PortSt) : State := { s with net.ports := s.net.ports.set p x }
def modPort (s : State) (p : Nat) (g : PortSt → PortSt) : State := setPort s p (g (portAt s p))
def audPortAt (s : State) (p : Nat) : AudPort := s.audio.ports.getD p {}
def modAudPort (s : State) (p : Nat) (g : AudPort → AudPort) : State := { s with audio.ports := s.audio.ports.set p (g (audPortAt s p)) }
def busAt (s : State) (b : Nat) : BusSt := s.audio.buses.getD b {}
def modBus (s : State) (b : Nat) (g : BusSt → BusSt) : State := { s with audio.buses := s.audio.buses.set b (g (busAt s b)) }
def arbAt (s : State) (a : Nat) : Arb := s.fab.arbs.getD a {}
def modArb (s : State) (a : Nat) (g : Arb → Arb) : State := { s with fab.arbs := s.fab.arbs.set a (g (arbAt s a)) }
def pcAt (s : State) (p : Nat) : PcCtl := s.mem.pcs.getD p {}
def qportAt (s : State) (p : Nat) : QportCtl := s.mem.qports.getD p {}
def modQport (s : State) (p : Nat) (g : QportCtl → QportCtl) : State := { s with mem.qports := s.mem.qports.set p (g (qportAt s p)) }
def modPc (s : State) (p : Nat) (g : PcCtl → PcCtl) : State := { s with mem.pcs := s.mem.pcs.set p (g (pcAt s p)) }
def threadAt (s : State) (t : Nat) : Thread := s.harbour.threads.getD t {}
def modThread (s : State) (t : Nat) (g : Thread → Thread) : State := { s with harbour.threads := s.harbour.threads.set t (g (threadAt s t)) }
def coreAt (s : State) (c : Nat) : SkerryCore := s.harbour.cores.getD c {}
def modCore (s : State) (c : Nat) (g : SkerryCore → SkerryCore) : State := { s with harbour.cores := s.harbour.cores.set c (g (coreAt s c)) }

/-- Input and output flows by number. -/
def flowInAt (s : State) (n : Nat) : Option FlowIn := s.net.flowsIn.get? n
def flowOutAt (s : State) (n : Nat) : Option FlowOut := s.net.flowsOut.get? n
def modFlowIn (s : State) (n : Nat) (g : FlowIn → FlowIn) : State := { s with net.flowsIn := s.net.flowsIn.modify n g }
def modFlowOut (s : State) (n : Nat) (g : FlowOut → FlowOut) : State := { s with net.flowsOut := s.net.flowsOut.modify n g }

/-- A pair is configured (R388). -/
def pairOn (s : State) : Bool := s.pair.cfg.isSome

/-- The member holds the claim (R335, R404): no pair, or its keeper is in HOLDING and it is not yielding. -/
def holdsClaim (s : State) : Bool :=
  !pairOn s || (s.pair.keeper == .holding && s.pair.yielding.isNone && s.pair.lapsing.isNone)

/-- The device is the holder of a configured pair. -/
def isHolder (s : State) : Bool := pairOn s && s.pair.role == .holder

/-- The device is the standby of a configured pair. -/
def isStandby (s : State) : Bool := pairOn s && s.pair.role == .standby

/-- The standby stands in lockstep: SYNCED or MIXED (R389). -/
def inLockstep (s : State) : Bool := pairOn s && (s.pair.st == .synced || s.pair.st == .mixed)

/-- In-service Isles, entropy engines, compositors and decode engines: those not out of service and not under test (R422, R438). -/
def isleIn (s : State) (i : Nat) : Bool := decide (i < 64) && !(s.units.isleOut.getLsbD i) && !(s.units.testing.contains (0, i))
def entropyIn (s : State) (e : Nat) : Bool := decide (e < 12) && !(s.units.entropyOut.getLsbD e) && !(s.units.testing.contains (1, e))
def decEngineIn (s : State) (e : Nat) : Bool := decide (e < 4) && !(s.units.decOut.getLsbD e) && !(s.units.testing.contains (2, e))
def compIn (s : State) (c : Nat) : Bool := decide (c < 4) && !(s.units.compOut.getLsbD c) && !(s.units.testing.contains (3, c))
def countIn (p : Nat → Bool) (n : Nat) : Nat := ((List.range n).filter p).length
def islesInCount (s : State) : Nat := countIn (isleIn s) 64
def entropyInCount (s : State) : Nat := countIn (entropyIn s) 12
/-- Skerry cores in RUN or SLEEP (Table 2.16). -/
def coresUp (s : State) : Nat := countIn (fun c => (coreAt s c).st != .reset) 8
/-- QPORTs and PCs in service. -/
def qportsIn (s : State) : Nat := countIn (fun p => s.mem.qportIn.getLsbD p) 8
def pcsIn (s : State) : Nat := countIn (fun p => !(s.mem.pcOut.getLsbD p)) 64
/-- Data that the interleave since the last reset holds: QDR-IV in Mbit (R236), HBM3E in MiB (R246). -/
def qdrMbit (s : State) : Nat := countIn (fun p => s.mem.qportLaid.getLsbD p) 8 * (if s.mem.density288 then 256 else 128)
def hbmMib (s : State) : Nat := (64 - countIn (fun p => s.mem.pcRemoved.getLsbD p) 64) * 768

/-- Local time in ns, the fraction dropped. -/
def localNs (s : State) : Nat := instantNs s.time.local'

/-- Local time as an exact number of 2⁻³² ns. -/
def localQ (s : State) : Rat := (s.time.local' : Rat)

/-- Nanoseconds as an exact number of 2⁻³² ns. -/
def nsQ (r : Rat) : Rat := r * 4294967296

end Sys2Proof.Machine
end

