-- ==== Sys2Proof/Machine/Crc.lean ====
section
/-! DEFINITION. Check values: CRC-32C and CRC-64 (R432, Table 16.5), the slice check value (R138) and the units' registers (R431 to R436). -/

namespace Sys2Proof.Machine

/-- One bit of a reflected CRC: the low bit leaves. -/
def crcBitR (poly v : Nat) : Nat := if v % 2 = 1 then (v / 2) ^^^ poly else v / 2

/-- One byte into a reflected CRC (ALG 0 and 2). -/
def crcByteR (poly v : Nat) (b : Byte) : Nat :=
  (List.range 8).foldl (fun a _ => crcBitR poly a) (v ^^^ b.toNat)

/-- One bit of a 64-bit CRC, most significant bit first. -/
def crcBit64 (v : Nat) : Nat :=
  if v / 2 ^ 63 % 2 = 1 then (v * 2 % 2 ^ 64) ^^^ 0x42F0E1EBA9EA3693 else v * 2 % 2 ^ 64

/-- One byte into CRC-64 ECMA-182 (ALG 1). -/
def crcByte64 (v : Nat) (b : Byte) : Nat :=
  (List.range 8).foldl (fun a _ => crcBit64 a) (v ^^^ (b.toNat * 2 ^ 56))

/-- Bytes into the running value of an algorithm (R432). -/
def crcRun (alg v : Nat) (bs : List Byte) : Nat :=
  bs.foldl (fun a b => if alg = 0 then crcByteR 0x82F63B78 a b else if alg = 1 then crcByte64 a b else crcByteR 0xC96C5795D7870F42 a b) v

/-- The value INIT loads (Table 16.5). -/
def crcInitial (alg : Nat) : Nat := if alg = 0 then 0xFFFFFFFF else if alg = 1 then 0 else 2 ^ 64 - 1

/-- CRC-32C of a byte string, final XOR applied. -/
def crc32c (bs : List Byte) : Nat := crcRun 0 0xFFFFFFFF bs ^^^ 0xFFFFFFFF

end Sys2Proof.Machine
end

