-- ==== Sys2Proof/Machine/Link.lean ====
section
/-! DEFINITION. Sending on the Causeway (R316, R394, R395) and whether it can be reached. -/

namespace Sys2Proof.Machine

/-- Causeway lanes that PAIR_CONFIG LANES selects: 1, 2, 4 or 8 from lane 88 (R314, Table 15.2). -/
def cwLanes (c : PairCfg) : List Nat := (List.range (2 ^ c.lanes)).map (88 + ·)

/-- The Causeway carries frames: a pair is configured, its lanes are in Causeway mode and not in fault, and CLK_FAB runs (Table 16.2). -/
def cwLive (s : State) : Bool :=
  match s.pair.cfg with
  | none => false
  | some c => !clockLost s .fab && (cwLanes c).all (fun l => (laneAt s l).cfg.mode == 4 && !(laneAt s l).fault)

/-- A Causeway frame from /K27.7/ to /K29.7/ (R316). -/
def cwChars (f : CwFrame) : List CwChar :=
  let body := le 1 f.type ++ le 2 f.seq ++ zeros 1 ++ le 2 f.payload.length ++ f.payload
  [.k27_7] ++ (body ++ le 4 (crc32c body)).map .data ++ [.k29_7]

/-- Characters striped across n lanes in lane order; a lane without one at the end carries /K28.3/ (R316). -/
def stripes (n : Nat) (l : List CwChar) : List (List CwChar) :=
  (List.range n).map (fun i => (List.range (ceilDiv l.length n)).map (fun k => l.getD (k * n + i) .k28_3))

/-- A frame goes out; while FAULT_INJECT KIND 5 has frames left, with a bad CRC (R440). -/
def cwEmit (f : CwFrame) (s : State) : State :=
  match s.units.injections.find? (fun x => x.1 == 5 && decide (0 < x.2.2.2.1)) with
  | some (k, i, a, n, serial) =>
    emit { s with units.injections := s.units.injections.map (fun x => if x.2.2.2.2 = serial then (k, i, a, n - 1, serial) else x) } (.causewayBad f.type f.seq)
  | none => emit s (.causeway f.type f.seq f.payload (stripes (s.pair.cfg.elim [] cwLanes).length (cwChars f)))

/-- Send one frame of a type; it is kept until it is acknowledged (R316). -/
def cwSend (type : Nat) (payload : List Byte) (s : State) : State :=
  if cwLive s then
    let q := s.net.cw.txSeq
    let f : CwFrame := { seq := q, sent := s.now, type := type, payload := payload }
    cwEmit f { s with net.cw := { s.net.cw with txSeq := (q + 1) % 65536, unacked := s.net.cw.unacked ++ [f] } }
  else s

/-- A time stamp of a Causeway payload: seconds, nanoseconds, 16-bit fraction (R395). -/
def stampBytes (t : Instant) : List Byte :=
  let ns := instantNs t
  le 6 (ns / 1000000000) ++ le 4 (ns % 1000000000) ++ le 2 (t % nsUnit / 65536)

/-- HEARTBEAT codes (Table 15.4a). -/
def pairStateCode : PairState → Nat
  | .unpaired => 0 | .forming => 1 | .resyncing => 2 | .synced => 3 | .mixed => 4 | .diverged => 5 | .degraded => 6
def pairRoleCode : PairRole → Nat
  | .holder => 0 | .standby => 1 | .none => 2
def keeperCode : Keeper → Nat
  | .released => 0 | .asserting => 1 | .holding => 2

/-- An INPUT frame with one entry (Table 15.4a). -/
def inputBytes : InputEntry → List Byte
  | .tref c o p t => le 2 0 ++ le 2 1 ++ le 2 (c + if o then 32768 else 0) ++ zeros 2 ++ le 8 p ++ stampBytes t
  | .verdict c v a n p => le 2 1 ++ le 2 1 ++ le 1 c ++ le 1 v ++ le 2 a ++ le 2 n ++ zeros 2 ++ le 8 p
  | .liveLine o l a n u p => le 2 2 ++ le 2 1 ++ le 1 o ++ le 1 l ++ le 2 a ++ le 2 n ++ le 1 (if u then 1 else 0) ++ zeros 1 ++ le 8 p
  | .decStamp d a x y => le 2 3 ++ le 2 1 ++ le 1 d ++ zeros 3 ++ le 8 a ++ stampBytes x ++ stampBytes y
  | .contentTime o l p t => le 2 4 ++ le 2 1 ++ le 1 o ++ le 1 l ++ zeros 2 ++ le 8 p ++ stampBytes t
  | .audioBus b k xs => le 2 5 ++ le 2 1 ++ le 1 b ++ le 1 xs.length ++ zeros 2 ++ le 8 k ++ ((List.range 12).map (fun i => leInt 3 (xs.getD i 0))).flatten

/-- The holder of a pair sends an input to the standby (R391). -/
def sendInput (e : InputEntry) (s : State) : State := if isHolder s then cwSend 6 (inputBytes e) s else s

end Sys2Proof.Machine
end

