-- ==== Sys2Proof/Machine/Records.lean ====
section
/-! DEFINITION. Completion and event records: reservation, writing, holding, merging (R39, R45, R46, R51 to R55, R60, R63, R448). -/

namespace Sys2Proof.Machine

/-- SQ and CQ of a function by index; an index never written has its reset registers. -/
def sqAt (x : FnState) (n : Nat) : Sq := x.sqs.getD n {}
def cqAt (x : FnState) (n : Nat) : Cq := x.cqs.getD n {}

/-- Change one queue of function f. -/
def modSq (f n : Nat) (g : Sq → Sq) (s : State) : State := modFn s f (fun x => { x with sqs := x.sqs.set n (g (sqAt x n)) })
def modCq (f n : Nat) (g : Cq → Cq) (s : State) : State := modFn s f (fun x => { x with cqs := x.cqs.set n (g (cqAt x n)) })

/-- Record slots of a CQ that nothing holds or reserves (R35, R45, R55, R60). -/
def cqFree (x : FnState) (n : Nat) : Nat :=
  let q := cqAt x n
  (q.slots - 1) - (q.occ.length + q.reserved + (q.held.filter (fun h => h.sub.isSome)).length
    + (x.subs.filter (fun e => e.2.cq == n && !e.2.occupied)).length)

/-- Write one record into the next slot of a CQ (R51, R52); a command's record uses up its reservation (R45), and an event record carries its SQ's head as it is then (R60). -/
def cqWrite (f n : Nat) (r : Rec) (announces : Bool) (sub : Option Nat) (s : State) : State :=
  let q := cqAt (fnAt s f) n
  let r := if sub.isSome then { r with sqHead := (sqAt (fnAt s f) r.sq).head } else r
  emit (modCq f n (fun q => { q with
      occ := q.occ ++ [{ announces := announces, sub := sub }]
      tail := (q.tail + 1) % q.slots
      phase := if q.tail + 1 = q.slots then !q.phase else q.phase
      reserved := if sub.isNone then q.reserved - 1 else q.reserved }) s)
    (.record f (q.lBase + 32 * q.tail) r q.phase)

/-- Record writes to the ring of CQ n meet no PCIe error (R46). -/
def cqWritable (x : FnState) (n : Nat) : Bool := !(x.unwritable.contains n)

/-- A PCIe error on a record write: the CQ's ERROR bit is set, the CQ holds its records, and the fault is journaled (R46, R418). -/
def cqFails (f n : Nat) (r : Rec) (s : State) : State :=
  journalAdd (modCq f n (fun q => { q with error := true, holding := true }) s) 10 0 f 7 r.opcode (r.tag.toNat + r.progress % 65536 * 2 ^ 32)

/-- Write a record, or hold it: after a PCIe error on a record write the CQ holds that record and every later one (R46), and a record waits while the link is not in L0 (R8, R291). -/
def cqPut (f n : Nat) (r : Rec) (announces : Bool) (sub : Option Nat) (ok : Bool) (s : State) : State :=
  let q := cqAt (fnAt s f) n
  if q.holding || s.power.link != .l0 then modCq f n (fun q => { q with held := q.held ++ [{ record := r, announces := announces, sub := sub }] }) s
  else if ok && cqWritable (fnAt s f) n then cqWrite f n r announces sub s
  else cqFails f n r (modCq f n (fun q => { q with held := [{ record := r, announces := announces, sub := sub }] }) s)

/-- Write held records in their original order, as far as no write fails: `failAt` is the number written before one does (R46). -/
def cqDrainFrom (f n : Nat) (failAt : Option Nat) : List HeldRec → State → State
  | [], s => modCq f n (fun q => { q with held := [], holding := false }) s
  | h :: r, s =>
    if failAt = some 0 then cqFails f n h.record (modCq f n (fun q => { q with held := h :: r }) s)
    else cqDrainFrom f n (failAt.map (· - 1)) r (cqWrite f n h.record h.announces h.sub s)

/-- The held records are written once ERROR is cleared; a further PCIe error holds those that are left (R46). -/
def cqDrain (f n : Nat) (failAt : Option Nat) (s : State) : State :=
  cqDrainFrom f n (if cqWritable (fnAt s f) n then failAt else some 0) (cqAt (fnAt s f) n).held s

/-- A fetched command of SQ n of f has not completed, or its record is held (R39). -/
def sqOutstanding (s : State) (f n : Nat) : Bool :=
  (allCmds s).any (fun e => e.2.fn.val == f && e.2.sq == n && e.2.ferry.isNone && !e.2.mirrored)
    || (fnAt s f).cqs.any (fun e => e.2.held.any (fun h => h.record.sq == n && h.sub.isNone))

/-- ACTIVE of a disabled SQ clears once nothing of it is outstanding (R39). -/
def settleSqs (f : Nat) (s : State) : State :=
  modFn s f (fun x => { x with sqs := x.sqs.mapVals (fun n q => if q.active && !q.enable && !(sqOutstanding s f n) then { q with active := false } else q) })

/-- The four words and TIDE of a record as bytes (Table 2.7). -/
def recBytes (r : Rec) (phase : Bool) : List Byte :=
  le 4 r.tag.toNat ++ le 2 r.opcode ++ le 1 r.outcome ++ le 1 r.flow ++ le 4 r.progress ++ le 4 r.result0 ++ le 4 r.result1
    ++ le 8 r.tide ++ le 4 (r.sqHead + r.sq * 2 ^ 12 + if phase then 2 ^ 31 else 0)

/-- A Ferry datagram with its header and CHECK (Table 17.1). -/
def ferryDatagram (type seq offset : Nat) (body : List Byte) : List Byte :=
  let h := le 2 0x5946 ++ le 1 1 ++ le 1 type ++ le 4 seq ++ le 4 offset
  h ++ le 4 (crc32c (h ++ zeros 4 ++ body)) ++ body

/-- Send an answer in ANSWER datagrams of up to 1,024 bytes (R450). -/
def ferrySendAnswer (c : Client) (seq : Nat) (a : List Byte) (s : State) : State :=
  (List.range (ceilDiv a.length 1024)).foldl
    (fun s i => emit s (.ferry c 4 seq (ferryDatagram 4 seq (1024 * i) ((a.drop (1024 * i)).take 1024)))) s

/-- Send a kept answer and record (R448, R450). -/
def ferrySendKept (c : Client) (k : FerryKept) (s : State) : State :=
  let r : Rec := { tag := k.tag, opcode := k.opcode, outcome := k.outcome, flow := k.flow, progress := k.progress, result0 := k.result0, result1 := k.result1, tide := k.tide }
  emit (ferrySendAnswer c k.seq k.answer s) (.ferry c 2 k.seq (ferryDatagram 2 k.seq 0 (recBytes r false)))

/-- A Ferry command ends: its answer and record are sent and kept among the last 256 of its client (R448, R449). -/
def ferryFinish (c : Client) (k : FerryKept) (s : State) : State :=
  ferrySendKept c k { s with upd.clients := s.upd.clients.map (fun x =>
    if x.client = c then { x with kept := (k :: x.kept).take 256, running := x.running.filter (fun n => n != k.seq) } else x) }

/-- Channel number of a command of the Channels and Encoding groups (word 2 bits [5:0]). -/
def chanOf (p : Packet) : Nat := fld p 2 5 0

/-- The count from which PROGRESS of a command's class starts (R65, Table 2.11). -/
def progressBase (s : State) (p : Packet) : Nat :=
  match (opInfo (opcodeOf p)).map OpInfo.cls with
  | some .channel => match chanAt s (chanOf p) with | some c => c.run.emitted | none => 0
  | some .decoding => match decAt s (fld p 2 4 0) with | some d => d.pictures | none => 0
  | some .pair => s.pair.reconciled
  | _ => 0

/-- Line rate of a lane in kbit/s (Table 11.1); an SDI receive lane that has detected none is taken at 12G. -/
def laneKbps (s : State) (l : Nat) : Nat :=
  let x := laneAt s l
  let code := if x.cfg.mode = 2 then (if x.detRate = 0 then 5 else x.detRate) else x.cfg.rate
  if code = 0 then 10312500 else if code = 1 then 25781250 else if code = 2 then 53125000 else if code = 3 then 2970000
  else if code = 4 then 5940000 else if code = 5 then 11880000 else x.cfg.testRate * 1000

/-- LANE_TEST and EYE_SCAN: the lane, the bits of one unit of PROGRESS, the units of the whole command (R317, R318). -/
def laneUnits (p : Packet) : Nat × Nat × Nat :=
  if opcodeOf p = 0x0608 then (fld p 2 6 0, 2 ^ 20, word p 4)
  else (fld p 6 6 0, 2 ^ fld p 5 21 16, (63 / max (fld p 5 5 0) 1 + 1) * (254 / max (fld p 5 13 8) 1 + 1))

/-- Units of a LANE_TEST or EYE_SCAN finished by now. -/
def laneProgress (s : State) (c : Cmd) : Nat :=
  let (l, bits, full) := laneUnits c.packet
  min full ((s.now - c.startTick) * laneKbps s l / (500000 * bits))

/-- Steps of a SELFTEST target and its duration in ticks (Table 16.7a). -/
def testSteps (target : Nat) : Nat := if target = 0 then 12 else if target = 1 then 6 else if target = 2 then 8 else if target = 3 then 8 else 4
def testTicks (target : Nat) : Nat := ticksMs (if target = 0 then 18 else if target = 1 then 4 else if target = 2 then 10 else if target = 3 then 12 else 2)

/-- Steps of a SELFTEST or of a QDR-IV retraining that are over by now: the steps of one take equal parts of its time (DESIGN CHOICE, log 156). -/
def stepsDone (s : State) (c : Cmd) : Nat :=
  match c.wait with
  | .selftest t _ _ => min (testSteps t) (testSteps t * (s.now - c.startTick) / testTicks t)
  | .retrain _ _ => min 4 (4 * (s.now - c.startTick) / ticksMs 2)
  | _ => c.progress

/-- PROGRESS of a command that ends after it has waited: the work of its class between start and record (R65). -/
def progressOf (s : State) (c : Cmd) : Nat :=
  match (opInfo (opcodeOf c.packet)).map OpInfo.cls with
  | some .channel => progressBase s c.packet - c.base
  | some .decoding => progressBase s c.packet - c.base
  | some .pair => s.pair.reconciled - c.base
  | some .lane => laneProgress s c
  | some .test => stepsDone s c
  | some .surface => (s.surfs.findSome? (fun e => (e.2.pending.find? (fun u => u.serial == c.serial)).map (fun u => u.bytes))).getD c.progress
  | _ => c.progress

/-- The uncompleted command with this serial number, and its flow. -/
def findCmd (s : State) (serial : Nat) : Option (Nat × Cmd) := (allCmds s).find? (fun e => e.2.serial == serial)

/-- Change the uncompleted command with this serial number. -/
def modCmd (serial : Nat) (g : Cmd → Cmd) (s : State) : State :=
  { s with flows := s.flows.mapVals (fun _ l => l.map (fun c => if c.serial = serial then g c else c)) }

/-- An SQ of f bound to a flow, for the record of a mirrored command after a takeover (R390, R409). -/
def sqForFlow (x : FnState) (flow : Nat) : Option (Nat × Sq) := x.sqs.find? (fun e => e.2.active && e.2.flow == flow)

/-- Count a mirrored command as completed for its function and flow (R390, R416). -/
def tagDone (f flow : Nat) (tag : Word) (s : State) : State :=
  { s with pair.tags := s.pair.tags.modify (256 * f + flow) (fun t => { t with done := tag }) }

/-- Count a mirrored command as started (R390, R416). -/
def tagStarted (f flow : Nat) (tag : Word) (s : State) : State :=
  let t := s.pair.tags.getD (256 * f + flow) {}
  { s with pair.tags := s.pair.tags.set (256 * f + flow) { t with started := tag, count := inc32 t.count } }

/-- Write the record of a command taken over from the failed holder, if the member has a matching SQ with a free slot (R390, R409). -/
def orphanOrWrite (c : Cmd) (r : Rec) (s : State) : State :=
  let f := c.fn.val
  match sqForFlow (fnAt s f) (flowOf c.packet) with
  | some (n, q) =>
    if 0 < cqFree (fnAt s f) q.cq then
      cqPut f q.cq { r with sq := n, sqHead := q.head } (!quietOf c.packet) none true (modCq f q.cq (fun y => { y with reserved := y.reserved + 1 }) s)
    else { s with pair.orphanRecords := inc32 s.pair.orphanRecords }
  | none => { s with pair.orphanRecords := inc32 s.pair.orphanRecords }

/-- LAST_FAIL: the outcome of the last update command that failed (Table 17.7); the update commands are those of Table 17.4 that act on a session. -/
def updateFailed (op outcome : Nat) (s : State) : State :=
  if 0x0A01 ≤ op ∧ op ≤ 0x0A06 ∧ 0x10 ≤ outcome then { s with upd.lastFail := outcome } else s

/-- The flow a record names: the flow of the command's SQ (R48, Tables 2.4 and 2.7); the flow its packet names for a Ferry or a mirrored command. -/
def recordFlow (k : Nat) (c : Cmd) : Nat := if c.ferry.isSome || c.mirrored then flowOf c.packet else k % 256

/-- The fence a packet names: its owner, number and value (R67, R68). -/
def fenceAt (s : State) (f n : Nat) : Fence := (fnAt s f).fences.getD n {}

/-- The fence value of a command as RESULT words (Table 2.11). -/
def fenceResults (s : State) (f n : Nat) : Nat × Nat := ((fenceAt s f n).value % 2 ^ 32, (fenceAt s f n).value / 2 ^ 32)

/-- RESULT0 and RESULT1 of a record: of the class Fences, whatever the outcome, the value of the named fence at completion (Table 2.11); otherwise those given. -/
def recordResults (s : State) (c : Cmd) (r0 r1 : Nat) : Nat × Nat :=
  let op := opcodeOf c.packet
  if op = 0x0103 then fenceResults s c.fn.val (fld c.packet 2 9 0)
  else if op = 0x0104 then fenceResults s (fld c.packet 2 20 16) (fld c.packet 2 9 0)
  else (r0, r1)

/-- The command with this serial number completes with one record (R63). Its flow continues (R7). `answer` is what its answer block received. -/
def completeCmd (serial outcome progress r0 r1 : Nat) (answer : List Byte) (recordOk : Bool) (s : State) : State :=
  match findCmd s serial with
  | none => s
  | some (k, c) =>
    let s := updateFailed (opcodeOf c.packet) outcome (setFlow s k ((flowCmds s k).filter (fun x => x.serial != serial)))
    let (r0, r1) := recordResults s c r0 r1
    let r : Rec := { tag := tagOf c.packet, opcode := opcodeOf c.packet, outcome := outcome, flow := recordFlow k c, progress := progress % 2 ^ 32,
                     result0 := r0 % 2 ^ 32, result1 := r1 % 2 ^ 32, tide := s.time.tide, sqHead := c.sqHead, sq := c.sq }
    let f := c.fn.val
    match c.ferry with
    | some (cl, seq) =>
      ferryFinish cl { seq := seq, opcode := r.opcode, outcome := outcome, flow := r.flow, tag := r.tag, progress := r.progress, result0 := r.result0,
                       result1 := r.result1, tide := r.tide, answer := answer } s
    | none =>
      if c.mirrored then
        let s := tagDone f (flowOf c.packet) (tagOf c.packet) s
        if c.mirrorSerial.isSome then orphanOrWrite c r s else s
      else
        let s := if c.mirrorSerial.isSome then tagDone f (flowOf c.packet) (tagOf c.packet) s else s
        if clockLost s .pcie then
          settleSqs f (journalAdd (modCq f c.cq (fun q => { q with reserved := q.reserved - 1 }) s) 1 0 f 7 r.opcode (r.tag.toNat + r.progress % 65536 * 2 ^ 32))
        else settleSqs f (cqPut f c.cq r (!quietOf c.packet) none recordOk s)

/-- Complete with the given outcome; PROGRESS is that of the command's class when it was interrupted (0x20 to 0x23) and 0 when it ended without effect (R63). -/
def endCmd (serial outcome r0 r1 : Nat) (s : State) : State :=
  match findCmd s serial with
  | none => s
  | some (_, c) => completeCmd serial outcome (if 0x20 ≤ outcome then progressOf s c else 0) r0 r1 [] true s

/-- Complete a waiting command with ST_OK and the PROGRESS of its class; `full` is the full count of a class that does not count as it goes. -/
def finishCmd (serial full r0 r1 : Nat) (s : State) : State :=
  match findCmd s serial with
  | none => s
  | some (_, c) =>
    let n := match (opInfo (opcodeOf c.packet)).map OpInfo.cls with
      | some .channel => progressOf s c
      | some .decoding => progressOf s c
      | some .pair => progressOf s c
      | _ => full
    completeCmd serial stOk n r0 r1 [] true s

/-- Complete the FAULT_INJECT command that armed an injection, with the journal entry's number (R441). -/
def injectionDone (serial seq : Nat) (s : State) : State :=
  completeCmd serial stOk 1 (seq % 2 ^ 32) (seq / 2 ^ 32) [] true { s with units.injections := s.units.injections.filter (fun x => x.2.2.2.2 != serial) }

/-- The armed injection of a kind and index, if any: its address, count and the serial of its command (R440). -/
def injectionOf (s : State) (kind index : Nat) : Option (Nat × Nat × Nat) :=
  (s.units.injections.find? (fun x => x.1 == kind && x.2.1 == index)).map (fun x => x.2.2)

/-- The record of subscription i that stands for n events (R60, R55); cqWrite gives it its SQ_HEAD. -/
def eventRec (i : Nat) (u : Sub) (r0 n tide : Nat) : Rec :=
  { tag := BitVec.ofNat 32 i, opcode := 0x0106, outcome := stOk, flow := u.flow, progress := u.kind + u.object * 65536, result0 := r0 % 2 ^ 32,
    result1 := n % 2 ^ 32, tide := tide, sq := u.sq }

/-- Write a subscription's record into its reserved slot (R55); a CQ that no longer accepts records takes none. -/
def writeEvent (f i : Nat) (u : Sub) (r0 n tide : Nat) (s : State) : State :=
  if (cqAt (fnAt s f) u.cq).active && !clockLost s .pcie then
    cqPut f u.cq (eventRec i u r0 n tide) (!u.quiet) (some i) true
      (modFn s f (fun x => { x with subs := x.subs.modify i (fun u => { u with occupied := true, pending := none }) }))
  else s

/-- One event for one subscription: written, or merged while its slot is occupied (R55). -/
def eventTo (f i : Nat) (u : Sub) (r0 : Nat) (s : State) : State :=
  if u.occupied || (u.pending.isSome && !(cqAt (fnAt s f) u.cq).active) then
    modFn s f (fun x => { x with subs := x.subs.modify i (fun u =>
      { u with pending := some (r0, (match u.pending with | some (_, n, _) => n + 1 | none => 1), s.time.tide) }) })
  else writeEvent f i u r0 1 s.time.tide s

/-- An event of a kind and object for function f (R60): every subscription to it that is not being cancelled. -/
def postEvent (f kind object r0 : Nat) (s : State) : State :=
  ((fnAt s f).subs.filter (fun e => e.2.kind == kind && e.2.object == object && !e.2.cancelling)).foldl (fun s e => eventTo f e.1 e.2 r0 s) s

/-- An event of a kind without object, for every function that subscribed to it. -/
def postEventAll (kind r0 : Nat) (s : State) : State := s.fns.foldl (fun s e => postEvent e.1 kind 0 r0 s) s

/-- The reserved slot of subscription i of f is released: a merged record is written, or a cancelled subscription ends (R55, R60). -/
def subReleased (f i : Nat) (s : State) : State :=
  match (fnAt s f).subs.get? i with
  | none => s
  | some u =>
    let s := modFn s f (fun x => { x with subs := x.subs.modify i (fun u => { u with occupied := false }) })
    match u.pending with
    | some (r0, n, t) => writeEvent f i u r0 n t s
    | none => if u.cancelling then
        let s := modFn s f (fun x => { x with subs := x.subs.erase i })
        ((allCmds s).filter (fun e => e.2.fn.val == f && e.2.ferry.isNone && e.2.wait == .slotRelease i)).foldl (fun s e => finishCmd e.2.serial 1 0 0 s) s
      else s

/-- CQ n of f is disabled: the reserved slots of its subscriptions hold nothing any more, and a subscription being cancelled ends (R55, R60, log 37). -/
def cqSubsRelease (f n : Nat) (s : State) : State :=
  ((fnAt s f).subs.filter (fun e => e.2.cq == n && e.2.occupied)).foldl (fun s e =>
    subReleased f e.1 (if e.2.cancelling then modFn s f (fun x => { x with subs := x.subs.modify e.1 (fun u => { u with pending := none }) }) else s)) s

/-- CQ n of f is enabled again: merged records that wait for a slot are written (R55, log 37). -/
def cqSubsResume (f n : Nat) (s : State) : State :=
  ((fnAt s f).subs.filter (fun e => e.2.cq == n)).foldl (fun s e => match e.2.pending with
    | some (r0, m, t) => writeEvent f e.1 e.2 r0 m t s
    | none => s) s

/-- Release the first n occupied slots of CQ q of f (R45, R498). -/
def cqRelease (f n k : Nat) (s : State) : State :=
  let gone := (cqAt (fnAt s f) n).occ.take k
  let s := modCq f n (fun q => { q with occ := q.occ.drop k, head := (q.head + k) % q.slots }) s
  gone.foldl (fun s o => match o.sub with | some i => subReleased f i s | none => s) s

end Sys2Proof.Machine
end

