-- ==== Sys2Proof/Machine/Queues.lean ====
section
/-! DEFINITION. Queue rings, doorbells and fetch (R34 to R46, R70, R71, R498). -/

namespace Sys2Proof.Machine

/-- A write of function f to a queue register or doorbell is taken: the device serves it, the function is not being reset (R494). -/
def queueWritable (s : State) (f : Nat) : Bool := hostUp s && !(fnAt s f).busy

/-- SQ n, or CQ n, of f is within its quota (R492). -/
def sqIn (s : State) (f n : Nat) : Bool := decide (n < sqQuota s f)
def cqIn (s : State) (f n : Nat) : Bool := decide (n < cqQuota s f)

/-- Key of the flow an SQ is bound to. -/
def sqFlowKey (f : Nat) (q : Sq) : Nat := 256 * f + q.flow

/-- SQs of f that appear in the arrivals of flows are numbered 1024 f + n, so that they stay apart. -/
def arrivalsOf (s : State) (k : Nat) : List Nat := s.arrivals.getD k []

/-- Replace the unfetched entries of a flow. -/
def setArrivals (s : State) (k : Nat) (l : List Nat) : State :=
  { s with arrivals := if l.isEmpty then s.arrivals.erase k else s.arrivals.set k l }

/-- Take the last n occurrences of x out of a list. -/
def dropLastN (x n : Nat) (l : List Nat) : List Nat :=
  (l.foldr (fun y (acc : List Nat × Nat) => if y = x ∧ 0 < acc.2 then (acc.1, acc.2 - 1) else (y :: acc.1, acc.2)) ([], n)).1

/-- Entries of an SQ between its head and a tail, in ring order (R498). -/
def ringCount (slots head tail : Nat) : Nat := (tail + slots - head) % slots

/-- DB_SQ[n] of f receives v (R42, R44, R498). -/
def writeDbSq (f n v : Nat) (s : State) : State :=
  let q := sqAt (fnAt s f) n
  if !(queueWritable s f && sqIn s f n && q.enable) then s
  else
    let t := v % 4096
    if q.slots ≤ t then modSq f n (fun q => { q with error := true }) s
    else if t = q.tail then s
    else
      let was := ringCount q.slots q.head q.tail
      let now := ringCount q.slots q.head t
      let k := sqFlowKey f q
      let s := modSq f n (fun q => { q with tail := t }) s
      if !q.active then s
      else if was ≤ now then setArrivals s k (arrivalsOf s k ++ List.replicate (now - was) n)
      else setArrivals s k (dropLastN n (was - now) (arrivalsOf s k))

/-- DB_CQ[n] of f receives v (R42, R45, R498). -/
def writeDbCq (f n v : Nat) (s : State) : State :=
  let q := cqAt (fnAt s f) n
  if !(queueWritable s f && cqIn s f n && q.enable) then s
  else
    let h := v % 4096
    let k := ringCount q.slots q.head h
    if q.slots ≤ h then modCq f n (fun q => { q with error := true }) s
    else if h = q.head then s
    else if q.occ.length < k then modCq f n (fun q => { q with error := true }) s
    else cqRelease f n k s

/-- ENABLE of SQ n of f changes from 0 to 1 (R35 to R37): it becomes active only if its CQ is active, also where commands of its earlier life are outstanding. -/
def sqStart (f n sizeM1 : Nat) (s : State) : State :=
  let x := fnAt s f
  let q := sqAt x n
  let c := cqAt x q.bindCq
  let good := cqIn s f q.bindCq && c.active
  modSq f n (fun q => { q with enable := true, sizeM1 := sizeM1, lBase := q.base, slots := max (sizeM1 + 1) 2, cq := q.bindCq, flow := q.bindFlow,
                               head := 0, tail := 0, active := good, error := q.error || !good }) s

/-- ENABLE of SQ n of f is cleared: unfetched entries are abandoned (R39). -/
def sqStop (f n : Nat) (s : State) : State :=
  let k := sqFlowKey f (sqAt (fnAt s f) n)
  let s := setArrivals s k ((arrivalsOf s k).filter (fun m => m != n))
  settleSqs f (modSq f n (fun q => { q with enable := false }) s)

/-- SQ_CTL[n] of f is written with v (Table 2.3): ERROR is cleared by a 1, then ENABLE acts. -/
def writeSqCtl (f n v : Nat) (s : State) : State :=
  if !(queueWritable s f && sqIn s f n) then s
  else
    let s := if bitOf v 2 then modSq f n (fun q => { q with error := false }) s else s
    let q := sqAt (fnAt s f) n
    if q.enable then (if bitOf v 0 then s else sqStop f n s)
    else if bitOf v 0 then sqStart f n (bitsOf v 19 8) s
    else modSq f n (fun q => { q with sizeM1 := bitsOf v 19 8 }) s

/-- ENABLE of CQ n of f changes from 0 to 1 (R35, R36, R38, R283). -/
def cqStart (f n sizeM1 vec : Nat) (s : State) : State :=
  cqSubsResume f n <|
  modCq f n (fun q => { q with enable := true, sizeM1 := sizeM1, vecReg := vec, lBase := q.base, slots := max (sizeM1 + 1) 2, vector := vec,
                               head := 0, tail := 0, phase := true, occ := [], reserved := 0, held := [], holding := false,
                               active := decide (vec ≤ 15), error := q.error || decide (15 < vec) }) s

/-- ENABLE of CQ n of f is to be cleared: refused while an active SQ is bound to it (R39). -/
def cqStop (f n : Nat) (s : State) : State :=
  if (fnAt s f).sqs.any (fun e => e.2.active && e.2.cq == n) then modCq f n (fun q => { q with error := true }) s
  else cqSubsRelease f n (modCq f n (fun q => { q with enable := false, active := false }) s)

/-- CQ_CTL[n] of f is written with v (Table 2.5); held records are written once ERROR is cleared (R46). -/
def writeCqCtl (f n v : Nat) (failAt : Option Nat) (s : State) : State :=
  if !(queueWritable s f && cqIn s f n) then s
  else
    let q0 := cqAt (fnAt s f) n
    let s := if bitOf v 2 then
        let s := modCq f n (fun q => { q with error := false }) s
        if q0.holding then settleSqs f (cqDrain f n failAt s) else s
      else s
    if q0.enable then (if bitOf v 0 then s else cqStop f n s)
    else if bitOf v 0 then cqStart f n (bitsOf v 19 8) (bitsOf v 30 20) s
    else modCq f n (fun q => { q with sizeM1 := bitsOf v 19 8, vecReg := bitsOf v 30 20 }) s

/-- SQ_BASE, SQ_BIND and CQ_BASE are written while ENABLE is 0 (R36, Tables 2.2 and 2.4). -/
def writeSqBase (f n : Nat) (hi : Bool) (v : Nat) (s : State) : State :=
  if !(queueWritable s f && sqIn s f n) || (sqAt (fnAt s f) n).enable then s
  else modSq f n (fun q => { q with base := if hi then q.base % 2 ^ 32 + v * 2 ^ 32 else q.base / 2 ^ 32 * 2 ^ 32 + v / 4096 * 4096 }) s
def writeSqBind (f n v : Nat) (s : State) : State :=
  if !(queueWritable s f && sqIn s f n) || (sqAt (fnAt s f) n).enable then s
  else modSq f n (fun q => { q with bindCq := bitsOf v 9 0, bindFlow := bitsOf v 23 16 }) s
def writeCqBase (f n : Nat) (hi : Bool) (v : Nat) (s : State) : State :=
  if !(queueWritable s f && cqIn s f n) || (cqAt (fnAt s f) n).enable then s
  else modCq f n (fun q => { q with base := if hi then q.base % 2 ^ 32 + v * 2 ^ 32 else q.base / 2 ^ 32 * 2 ^ 32 + v / 4096 * 4096 }) s

/-- SQ_CTL and CQ_CTL as read (Tables 2.3 and 2.5). -/
def sqCtlValue (q : Sq) : Nat := q.enable.toNat + q.active.toNat * 2 + q.error.toNat * 4 + q.sizeM1 * 256
def cqCtlValue (q : Cq) : Nat := q.enable.toNat + q.active.toNat * 2 + q.error.toNat * 4 + q.sizeM1 * 256 + q.vecReg * 2 ^ 20

/-- FUNC_QUOTA[vf] receives v (R34, R40): ignored while VF Enable is set, or where the totals would exceed 1,024. -/
def writeQuota (f vf v : Nat) (s : State) : State :=
  let sq := bitsOf v 10 0
  let cq := bitsOf v 26 16
  let others := s.quotas.erase vf
  if hostUp s && f == 0 && !s.vfEnable && decide (1 ≤ vf) && decide (vf ≤ 31)
      && decide (sumBy (fun e => e.2.1) others + sq ≤ 1024) && decide (sumBy (fun e => e.2.2) others + cq ≤ 1024) then
    { s with quotas := if sq = 0 ∧ cq = 0 then others else others.set vf (sq, cq) }
  else s

/-- A FENCE_WAIT in flow k that no check but the cycle check refuses (R64, R68): the others take no part in the graph. -/
def waitCounts (k : Nat) (c : Cmd) : Bool :=
  opcodeOf c.packet == 0x0104 && !c.cyclic && flowOf c.packet == k % 256 && (c.fn.val == 0 || fld c.packet 2 20 16 == c.fn.val)
    && decide (word c.packet 5 ≤ 60000) && !atPictureOf c.packet && !indirectOf c.packet
    && (opInfo 0x0104).elim false (fun i => reservedOk i c.packet)

/-- The commands that a FENCE_WAIT depends on through its fence (R70). -/
def fenceDeps (s : State) (k : Nat) (c : Cmd) : List Nat :=
  if !waitCounts k c then []
  else
    let owner := fld c.packet 2 20 16
    let n := fld c.packet 2 9 0
    let want := dword c.packet 3
    let fe := fenceAt s owner n
    match fe.flow with
    | none => []
    | some fl =>
      if want ≤ fe.value then []
      else
        let cs := flowCmds s (256 * owner + fl)
        match cs.find? (fun d => opcodeOf d.packet == 0x0103 && flowOf d.packet == fl && fld d.packet 2 9 0 == n && decide (want ≤ dword d.packet 3)) with
        | some d => [d.serial]
        | none => match cs.getLast? with | some d => [d.serial] | none => []

/-- The command before this one in its flow (R70). -/
def flowDeps (l : List Cmd) (serial : Nat) : List Nat :=
  match (l.takeWhile (fun d => d.serial != serial)).getLast? with | some d => [d.serial] | none => []

/-- Edges of the dependency graph out of one command (R70). -/
def cmdDeps (s : State) (serial : Nat) : List Nat :=
  match findCmd s serial with
  | none => []
  | some (k, c) => flowDeps (flowCmds s k) serial ++ fenceDeps s k c

/-- Commands reachable in at most n further edges from those listed. -/
def reach (s : State) : Nat → List Nat → List Nat
  | 0, l => l
  | n + 1, l =>
    let m := (l.flatMap (cmdDeps s)).filter (fun x => !l.contains x)
    if m.isEmpty then l else reach s n (l ++ m.dedup)

/-- The FENCE_WAIT with this serial closes a cycle among the fetched, uncompleted commands (R70). -/
def closesCycle (s : State) (serial : Nat) : Bool := (reach s (allCmds s).length (cmdDeps s serial)).contains serial

/-- SQ n of f can be fetched from: active, enabled, without ERROR, next in its flow's order, a record slot free (R41, R44, R45). -/
def fetchable (s : State) (f n : Nat) : Bool :=
  let x := fnAt s f
  let q := sqAt x n
  queueWritable s f && !clockLost s .ctl && sqIn s f n && q.enable && q.active && !q.error
    && (arrivalsOf s (sqFlowKey f q)).head? == some n && q.head != q.tail && decide (0 < cqFree x q.cq)

/-- The device reads the next slot of SQ n of f (R43, R45, R46) and checks a FENCE_WAIT for cycles (R70). -/
def fetchSlot (f : Fn) (n : Nat) (slot : SlotRead) (s : State) : State :=
  if !fetchable s f.val n then s
  else
    let q := sqAt (fnAt s f.val) n
    match slot with
    | .error => journalAdd (modSq f.val n (fun q => { q with error := true }) s) 10 0 f.val 0 n (q.lBase + 64 * q.head)
    | .packet p =>
      let k := sqFlowKey f.val q
      let head := (q.head + 1) % q.slots
      let c : Cmd := { serial := s.nextSerial, fn := f, sq := n, sqHead := head, cq := q.cq, packet := p }
      let s := setArrivals s k ((arrivalsOf s k).drop 1)
      let s := modCq f.val q.cq (fun y => { y with reserved := y.reserved + 1 }) (modSq f.val n (fun q => { q with head := head }) s)
      let s := setFlow { s with nextSerial := s.nextSerial + 1 } k (flowCmds s k ++ [c])
      if opcodeOf p = 0x0104 && closesCycle s c.serial then modCmd c.serial (fun c => { c with cyclic := true }) s else s

/-- DB_SQ (R42): function f writes v to DB_SQ[n]. -/
def execDbSq (f : Fn) (n : Nat) (v : Word) (s : State) : Host.Outcome State Fault Refusal := .next (writeDbSq f.val n v.toNat s)
/-- DB_CQ (R42): function f writes v to DB_CQ[n]. -/
def execDbCq (f : Fn) (n : Nat) (v : Word) (s : State) : Host.Outcome State Fault Refusal := .next (writeDbCq f.val n v.toNat s)
/-- SQ_ENABLE (R36): f writes v, with ENABLE 1, to SQ_CTL[n]. -/
def execSqEnable (f : Fn) (n : Nat) (v : Word) (s : State) : Host.Outcome State Fault Refusal := .next (writeSqCtl f.val n (v ||| 1).toNat s)
/-- SQ_DISABLE (R39): f writes v, with ENABLE 0, to SQ_CTL[n]. -/
def execSqDisable (f : Fn) (n : Nat) (v : Word) (s : State) : Host.Outcome State Fault Refusal := .next (writeSqCtl f.val n (v &&& 0xFFFFFFFE).toNat s)
/-- CQ_ENABLE (R38): f writes v, with ENABLE 1, to CQ_CTL[n]. -/
def execCqEnable (f : Fn) (n : Nat) (v : Word) (s : State) : Host.Outcome State Fault Refusal := .next (writeCqCtl f.val n (v ||| 1).toNat none s)
/-- CQ_DISABLE (R39): f writes v, with ENABLE 0, to CQ_CTL[n]. -/
def execCqDisable (f : Fn) (n : Nat) (v : Word) (s : State) : Host.Outcome State Fault Refusal := .next (writeCqCtl f.val n (v &&& 0xFFFFFFFE).toNat none s)
/-- SQ_ERROR_CLEAR (R46): f writes a 1 to ERROR of SQ_CTL[n]. -/
def execSqErrorClear (f : Fn) (n : Nat) (v : Word) (s : State) : Host.Outcome State Fault Refusal := .next (writeSqCtl f.val n (v ||| 4).toNat s)
/-- CQ_ERROR_CLEAR (R46): f writes a 1 to ERROR of CQ_CTL[n]; the held records are written, as far as no write fails. -/
def execCqErrorClear (f : Fn) (n : Nat) (v : Word) (failAt : Option Nat) (s : State) : Host.Outcome State Fault Refusal :=
  .next (writeCqCtl f.val n (v ||| 4).toNat failAt s)
/-- FUNC_QUOTA (R34): f writes v to FUNC_QUOTA[vf]. -/
def execFuncQuota (f : Fn) (vf : Nat) (v : Word) (s : State) : Host.Outcome State Fault Refusal := .next (writeQuota f.val vf v.toNat s)
/-- COMMAND_FETCH (R45): the device reads the next slot of SQ n of f. -/
def execCommandFetch (f : Fn) (n : Nat) (slot : SlotRead) (s : State) : Host.Outcome State Fault Refusal := .next (fetchSlot f n slot s)

end Sys2Proof.Machine
end

