-- ==== Sys2Proof/Machine/Commands.lean ====
section
/-! DEFINITION. How a command starts, is checked, completes or waits (R7, R48 to R50, R56 to R58, R63 to R65, R72, R73, R388 to R390, R450, R458). -/

namespace Sys2Proof.Machine

/-- What a command's meaning is given: its flow, the command itself, its function and packet, its parameter block. -/
structure CmdIn where
  key : Nat
  cmd : Cmd
  f : Nat
  p : Packet
  block : List Byte := []

/-- What a command's meaning answers. -/
inductive CmdRes where
  /-- it completes: outcome, PROGRESS, RESULT0, RESULT1 -/
  | done (s : State) (outcome progress r0 r1 : Nat)
  /-- it waits, with RESULT words fixed so far -/
  | pend (s : State) (w : Wait) (r0 r1 : Nat)
  /-- it answers a query: the bytes for its answer block, and its result words -/
  | answer (s : State) (bytes : List Byte) (r0 r1 : Nat)
  /-- it writes whole units into its answer block: bytes written and result words (R318, R444) -/
  | units (s : State) (bytes : List Byte) (progress r0 r1 : Nat)

/-- The meaning of an opcode: when it is denied (R72, R73), what it does otherwise, and what it sets going once it waits. -/
structure Meaning where
  deny : CmdIn → State → Bool := fun _ _ => false
  /-- RESULT0 of a denial: the layer of a commit (R196) -/
  denyWord : CmdIn → State → Nat := fun _ _ => 0
  run : CmdIn → State → CmdRes
  after : CmdIn → State → State := fun _ s => s

/-- A refusal: no effect, progress 0 (R63). -/
def refuse (s : State) (outcome : Nat) : CmdRes := .done s outcome 0 0 0

/-- ST_OK with the full count. -/
def okDone (s : State) (progress : Nat) : CmdRes := .done s stOk progress 0 0

/-- Firmware runs: the device acts and CLK_CTL is not lost (Table 10.1). -/
def fwUp (s : State) : Bool := acting s && !clockLost s .ctl

/-- The flow number that FLOW must equal (R48, R449). -/
def flowNumber (key : Nat) : Nat := key % 256

/-- INDIRECT is used as the opcode says, with a block of legal address, alignment and length (R49, R58, R450). -/
def blockOk (i : OpInfo) (p : Packet) (ferry : Bool) : Bool :=
  if indirectOf p then
    i.block != .noBlock && decide (4 ≤ word p 4) && decide (word p 4 ≤ 1048576) && word p 4 % 4 == 0 &&
      (if !ferry then word p 2 % 64 == 0
       else if i.block == .answer then word p 2 == 0 && word p 3 == 0
       else word p 2 % 1024 == 0 && word p 3 == 0 && decide (word p 2 + word p 4 ≤ 1048576))
  else i.block != .required && i.block != .answer

/-- The checks of the packet that give ST_BAD_PARAM for every opcode (R4, R48, R49, R50). -/
def packetOk (i : OpInfo) (c : Cmd) (key : Nat) : Bool :=
  let p := c.packet
  flowOf p == flowNumber key && (!atPictureOf p || i.atPicture) && blockOk i p c.ferry.isSome && reservedOk i p

/-- The path the command came by may issue the opcode (R73, Table 2.12). -/
def allowed (i : OpInfo) (c : Cmd) : Bool :=
  match i.allow with
  | .all => true
  | .pf0 => c.ferry.isSome || c.fn == 0
  | .ferry => c.ferry.isSome
  | .pf0OrFerry => c.ferry.isSome || c.fn == 0

/-- A command on the Ferry port that it does not take (R449). -/
def ferryDenied (c : Cmd) : Bool :=
  c.ferry.isSome && (opcodeOf c.packet == 0x0103 || opcodeOf c.packet == 0x0104 || opcodeOf c.packet == 0x0106)

/-- The device stays in its boot loader and does not take the command (R458). -/
def loaderRefuses (s : State) (c : Cmd) : Bool :=
  s.upd.loader && !(c.ferry.isSome && opcodeOf c.packet / 256 == 0x0A)

/-- All checks and the meaning of a command, in the order of R64 and, for a parameter block, of R49. -/
def evalCmd (i : OpInfo) (m : Meaning) (ci : CmdIn) (s : State) : CmdRes :=
  if loaderRefuses s ci.cmd then refuse s stBadState
  else if !allowed i ci.cmd || ferryDenied ci.cmd then refuse s stDenied
  else if indirectOf ci.p && i.block != .answer && i.block != .noBlock && !packetOk i ci.cmd ci.key then refuse s stBadParam
  else if m.deny ci s then .done s stDenied 0 (m.denyWord ci s) 0
  else if !packetOk i ci.cmd ci.key then refuse s stBadParam
  else if ci.cmd.cyclic then
    let (r0, r1) := fenceResults s (fld ci.p 2 20 16) (fld ci.p 2 9 0)
    .done s stCycle 0 r0 r1
  else m.run ci s

/-- The command reads a parameter block: its checks before the read pass (R49). -/
def readsBlock (i : OpInfo) (c : Cmd) (key : Nat) (s : State) : Bool :=
  indirectOf c.packet && i.block != .answer && !loaderRefuses s c && allowed i c && !ferryDenied c && packetOk i c key

/-- The first segment of a staging range that is not marked written (R450). -/
def unstaged (s : State) (off len : Nat) : Option Nat :=
  ((List.range (ceilDiv len 1024)).map (fun j => off / 1024 + j)).find? (fun j => !(s.upd.staging.has j))

/-- Bytes of a staging range (R450). -/
def stagedBytes (s : State) (off len : Nat) : List Byte :=
  (((List.range (ceilDiv len 1024)).map (fun j => s.upd.staging.getD (off / 1024 + j) [])).flatten).take len

/-- Clear the marks of a staging range (R450). -/
def unstage (off len : Nat) (s : State) : State :=
  { s with upd.staging := s.upd.staging.keep (fun j _ => !(decide (off / 1024 ≤ j) && decide (j < off / 1024 + ceilDiv len 1024))) }

/-- Opcodes that a configured pair mirrors (R388, Table 15.3). -/
def mirroredOp (op : Nat) : Bool :=
  op == 0x0105 || (op / 256 == 2 && op != 0x0208) || op / 256 == 3 || op / 256 == 4 || (op / 256 == 5 && op != 0x0504) || op == 0x0803 || op == 0x0804

/-- Complete a command with its result; an answer fills the block as far as it reaches (R58). `after` is what a waiting command sets going. -/
def settleRes (serial : Nat) (b : Bus) (block : List Byte) (after : State → State) (r : CmdRes) : State :=
  match r with
  | .done s o n r0 r1 => completeCmd serial o n r0 r1 [] b.recordOk s
  | .pend s w r0 r1 =>
    after (modCmd serial (fun c => { c with started := true, startTick := s.now, wait := w, base := progressBase s c.packet, result0 := r0, result1 := r1,
                                            block := block }) s)
  | .answer s bytes r0 r1 =>
    match findCmd s serial with
    | none => s
    | some (_, c) =>
      let n := min bytes.length (word c.packet 4)
      let got := bytes.take n
      if c.ferry.isNone && (!b.answerOk || clockLost s .pcie) then completeCmd serial stFault 0 0 0 [] b.recordOk (journalAdd s 10 0 c.fn.val 7 (opcodeOf c.packet) ((tagOf c.packet).toNat))
      else
        let s := if c.ferry.isSome then s else emit s (.answer c.fn.val (dword c.packet 2) got)
        if n < bytes.length then completeCmd serial stOkPartial n bytes.length r1 got b.recordOk s
        else completeCmd serial stOk n r0 r1 got b.recordOk s
  | .units s bytes n r0 r1 =>
    match findCmd s serial with
    | none => s
    | some (_, c) =>
      if c.ferry.isNone && (!b.answerOk || clockLost s .pcie) then completeCmd serial stFault 0 0 0 [] b.recordOk (journalAdd s 10 0 c.fn.val 7 (opcodeOf c.packet) ((tagOf c.packet).toNat))
      else
        let s := if c.ferry.isSome then s else emit s (.answer c.fn.val (dword c.packet 2) bytes)
        completeCmd serial stOk n r0 r1 bytes b.recordOk s

/-- Outcome and result words that a result stands for when the pair compares them (R389). -/
def resOutcome : CmdRes → Nat × Nat × Nat
  | .done _ o _ r0 r1 => (o, r0, r1)
  | .pend _ _ r0 r1 => (stOk, r0, r1)
  | .answer _ _ r0 r1 => (stOk, r0, r1)
  | .units _ _ _ r0 r1 => (stOk, r0, r1)

/-- BOUNDARY_KIND of a mirrored command, its channel or output, and BOUNDARY (Table 15.4a). -/
def resBoundary (s : State) : CmdRes → Nat × Nat × Nat
  | .pend _ (.picture c n) _ _ => (0, c, n.getD ((chanAt s c).elim 0 (fun x => x.run.nextPic)))
  | .pend _ (.chanStart c) _ _ => (0, c, 0)
  | .pend _ (.outPicture o n) _ _ => (1, o, n.getD ((outAt s o).elim 0 (fun x => x.next)))
  | .pend _ .tide _ _ => (2, 0, s.time.tide + 1)
  | .pend _ (.funcReset _ _) _ _ => (2, 0, s.time.tide + 1)
  | _ => (3, 0, 0)

/-- A mirrored command with the standby's answer outstanding takes effect at this picture of a channel (kind 0) or an output (kind 1): the picture waits for the answer (R389). -/
def mirrorAwaited (s : State) (kind object n : Nat) : Bool := s.pair.sent.any (fun m => m.kind == kind && m.object == object && decide (m.boundary ≤ n))

/-- The COMMAND frame of a mirrored command, its block sent ahead in BULK frames of KIND 1 (R389, Table 15.4a). -/
def sendMirror (serial : Nat) (ci : CmdIn) (res : CmdRes) (s : State) : State :=
  let (o, r0, r1) := resOutcome res
  let (bk, _, bd) := resBoundary s res
  let blk := ci.block
  let s := (List.range (ceilDiv blk.length 2032)).foldl (fun s i =>
    cwSend 0x0B (le 1 1 ++ le 1 0 ++ le 2 (serial % 65536) ++ le 4 (2032 * i) ++ le 4 blk.length ++ zeros 4 ++ (blk.drop (2032 * i)).take 2032) s) s
  cwSend 4 (le 4 serial ++ le 1 ci.f ++ le 1 (flowOf ci.p) ++ le 1 bk ++ le 1 o ++ le 8 bd ++ le 4 r0 ++ le 4 r1 ++ le 4 blk.length ++ zeros 4
    ++ (ci.p.toList.map (fun w => le 4 w.toNat)).flatten) s

/-- A mirrored command starts on a holder in lockstep: its checks run, it is sent, and it waits for the standby's answer (R389). -/
def startMirrored (i : OpInfo) (m : Meaning) (ci : CmdIn) (s : State) : State :=
  let res := evalCmd i m ci s
  let (o, r0, r1) := resOutcome res
  let ser := s.pair.nextMirror
  let (bk, obj, bd) := resBoundary s res
  let s := sendMirror ser ci res s
  let s := { s with pair.nextMirror := (ser + 1) % 2 ^ 32, pair.sent := s.pair.sent ++ [{ serial := ser, flow := ci.key, outcome := o, result0 := r0, result1 := r1, kind := bk, object := obj, boundary := bd }] }
  modCmd ci.cmd.serial (fun c => { c with started := true, startTick := s.now, block := ci.block, mirrorSerial := some ser, base := progressBase s c.packet }) s

/-- Refusals that R64 ranks before ST_PAIR, which is among the remaining ones: ST_BAD_OPCODE, ST_DENIED, ST_BAD_PARAM, ST_CYCLE, ST_BAD_STATE, ST_NO_RESOURCE, ST_CAPACITY, ST_LINEBUF. -/
def beforePair (o : Nat) : Bool := (decide (0x10 ≤ o) && decide (o ≤ 0x16)) || o == 0x18

/-- What a mirrored command answers on a standby (R390): the first refusal of R64, ST_PAIR where no earlier one applies. -/
def standbyRes (s : State) : CmdRes → CmdRes
  | .done _ o n r0 r1 => if beforePair o then .done s o n r0 r1 else refuse s stPair
  | _ => refuse s stPair

/-- A command starts with its block read: mirrored by a holder in lockstep, refused on a standby, run alone otherwise (R388 to R390). -/
def startWith (i : OpInfo) (m : Meaning) (ci : CmdIn) (b : Bus) (s : State) : State :=
  if mirroredOp i.code && pairOn s then
    if isStandby s then settleRes ci.cmd.serial b ci.block (fun s => s) (standbyRes s (evalCmd i m ci s))
    else
      let s := if isHolder s then tagStarted ci.f (flowOf ci.p) (tagOf ci.p) s else s
      if isHolder s && inLockstep s then startMirrored i m ci s
      else settleRes ci.cmd.serial b ci.block (m.after ci) (evalCmd i m ci s)
  else settleRes ci.cmd.serial b ci.block (m.after ci) (evalCmd i m ci s)

/-- The front command of flow q starts (R7), if it has the opcode of the row. -/
def startRow (code : Nat) (m : Meaning) (q : FlowRef) (b : Bus) (s : State) : State :=
  let key := flowKey q
  match flowCmds s key, opInfo code with
  | c :: _, some i =>
    if !fwUp s || c.started || opcodeOf c.packet != code || (c.ferry.isNone && (fnAt s c.fn.val).busy) then s
    else
      let ci : CmdIn := { key := key, cmd := c, f := c.fn.val, p := c.packet }
      if readsBlock i c key s then
        if c.ferry.isSome then
          match unstaged s (word c.packet 2) (word c.packet 4) with
          | some j => completeCmd c.serial stBadState 0 (1024 * j) 0 [] true s
          | none =>
            let bytes := stagedBytes s (word c.packet 2) (word c.packet 4)
            startWith i m { ci with block := bytes } b (unstage (word c.packet 2) (word c.packet 4) s)
        else
          match b.block with
          | .error => completeCmd c.serial stFault 0 0 0 [] b.recordOk (journalAdd s 10 0 c.fn.val 7 (opcodeOf c.packet) (tagOf c.packet).toNat)
          | .bytes bs =>
            if clockLost s .pcie then completeCmd c.serial stFault 0 0 0 [] b.recordOk s
            else startWith i m { ci with block := slice bs 0 (word c.packet 4) } b s
      else startWith i m ci b s
  | _, _ => s

/-- UNKNOWN_OPCODE (R56): the front command of flow q has no opcode of Table 2.9. -/
def execUnknownOpcode (q : FlowRef) (b : Bus) (s : State) : Host.Outcome State Fault Refusal :=
  .next (match flowCmds s (flowKey q) with
    | c :: _ =>
      if fwUp s && !c.started && (opInfo (opcodeOf c.packet)).isNone && !(c.ferry.isNone && (fnAt s c.fn.val).busy) then
        completeCmd c.serial (if loaderRefuses s c then stBadState else stBadOpcode) 0 0 0 [] b.recordOk s
      else s
    | [] => s)

end Sys2Proof.Machine
end

