-- ==== Sys2Proof/Machine/Formats.lean ====
section
/-! DEFINITION. Formats of pictures: chroma, bytes and bits per pixel, line-buffer width, surface layout (Tables 3.5, 6.3, R182, R194, R221, R520). -/

namespace Sys2Proof.Machine

/-- Bytes per pixel s by CHROMA (Table 3.5). -/
def bytesPerPixel (chroma : Nat) : Rat := if chroma = 0 then 15 / 8 else if chroma = 1 then 5 / 2 else 15 / 4

/-- FORMAT is one of Table 6.3. -/
def formatOk (f : Nat) : Bool := decide (f ≤ 4) || f == 8 || f == 9 || f == 10

/-- The format is Reef (R185). -/
def isReef (f : Nat) : Bool := decide (8 ≤ f)

/-- The format has alpha (Table 6.3). -/
def hasAlpha (f : Nat) : Bool := f == 2 || f == 3 || f == 10

/-- Chroma format of a surface format: 0 4:2:0, 1 4:2:2, 2 4:4:4; RGBA has all planes whole. -/
def formatChroma (f : Nat) : Nat := if f = 4 then 0 else if f = 0 ∨ f = 8 then 1 else 2

/-- Bits per pixel in the line buffer, by format (Table 6.3). -/
def bitsPerPixel (f : Nat) : Nat := if hasAlpha f then 40 else if f = 1 ∨ f = 9 then 30 else 20

/-- Format of a source by its chroma: decoders and live sources are stored as LIN_YUV (R221, R194). -/
def linOfChroma (c : Nat) : Nat := if c = 0 then 4 else if c = 1 then 0 else 1

/-- Unit size in bytes of a linear format (Table 6.3). -/
def unitBytes (f : Nat) : Nat := if f = 2 then 1 else 2

/-- Bytes of one pixel in a buffer, b_mem (R520). -/
def memBytes (f : Nat) : Rat :=
  if isReef f then (bitsPerPixel f : Rat) / 8 + 1 / 16
  else (unitBytes f : Rat) * (if hasAlpha f then 4 else if f = 1 then 3 else if f = 0 then 2 else 3 / 2)

/-- n rounded up to a multiple of m. -/
def roundUp (n m : Nat) : Nat := ceilDiv n m * m

/-- Bytes of one line of a linear format with pitch rounded to 256 bytes (R182): of RGBA four units a pixel; of a Y plane one, of an interleaved CbCr plane of 4:2:2 or 4:2:0 one. -/
def linePitch (f w : Nat) : Nat := roundUp (w * unitBytes f * (if hasAlpha f then 4 else 1)) 256

/-- Bytes of the Reef header array, padded to 4 KiB (R185). -/
def reefHeader (w h : Nat) : Nat := roundUp (w / 16 * (h / 8) * 8) 4096

/-- Bytes that a buffer's content takes (R182, R185). -/
def bufferBytes (f w h : Nat) : Nat :=
  if isReef f then reefHeader w h + w / 16 * (h / 8) * 768
  else if hasAlpha f then linePitch f w * h
  else if f = 1 then 3 * linePitch f w * h
  else if f = 0 then 2 * linePitch f w * h
  else linePitch f w * h + linePitch f w * (h / 2)

/-- Buffer size S, rounded up to 64 KiB (R182). -/
def bufferSize (f w h : Nat) : Nat := roundUp (bufferBytes f w h) 65536

/-- Bytes a surface takes: BUFFERS × S. -/
def surfaceBytes (x : Surface) : Nat := x.buffers * bufferSize x.format x.width x.height

/-- Picture size and rate of an SDI receive lane, from its detected rate (Table 11.1, R311): 3G 1080p60, 6G 2160p30, 12G 2160p60 (PRESUMED, log 25). -/
def sdiRaster (x : LaneSt) : Nat × Nat × Nat × Nat :=
  let den := if x.family1001 then 1001 else 1000
  if x.detRate = 3 then (1920, 1080, 60000, den) else if x.detRate = 4 then (3840, 2160, 30000, den) else (3840, 2160, 60000, den)

/-- Chroma of SAMPLING (Table 11.5): 4:2:2, 4:4:4, 4:2:0, RGB as 4:4:4. -/
def samplingChroma (n : Nat) : Nat := if n = 0 then 1 else if n = 2 then 0 else 2

end Sys2Proof.Machine
end

