-- ==== Sys2Proof/Machine/Loads.lean ====
section
/-! DEFINITION. Channel geometry, admission and the space objects take in the memory regions (R86, R88, R91 to R94, R130, R215, R232, R520). Times are in ns, rates in units per ns. -/

namespace Sys2Proof.Machine

/-- Picture period in ns of a rate num / den (R85). -/
def periodNs (num den : Nat) : Rat := (den * 1000000000 : Nat) / (num : Rat)

/-- Rounded up to a whole number. -/
def ceilRat (r : Rat) : Nat := (Rat.ceil r).toNat

/-- Line period T_lo of an output (R173). -/
def outLineNs (o : OutCfg) : Rat := periodNs o.rateNum o.rateDen / (o.totalLines : Rat)

/-- Compositor line latency t_comp = 4 × T_lo + 8 µs (R173). -/
def outLatency (o : OutCfg) : Rat := 4 * outLineNs o + 8000

/-- What the geometry of a configured channel gives (Table 3.5, R86, R88, R122). -/
structure Geom where
  /-- CTU width and height -/
  ctu : Nat
  /-- C_row and CTU rows of a picture -/
  cRow : Nat
  rows : Nat
  /-- CTU rows per slice -/
  k : Nat
  period : Rat
  tLine : Rat
  tRow : Rat
  tAct : Rat
  dMin : Rat
  deriving DecidableEq, Repr

/-- CTU size of a profile (Table 4.6). -/
def ctuOf (p : EncProfile) : Nat :=
  if p.codec = 1 then (if p.ctuSmall then 64 else 128) else (if p.ctuSmall then 32 else 64)

/-- The output that feeds a composed channel. -/
def feedOutput (s : State) (c : ChanCfg) : Option OutCfg := if c.srcKind = 2 then (outAt s c.srcIndex).map (fun o => o.cfg) else none

/-- Geometry of a channel with the given configuration and profile. -/
def geomOf (s : State) (c : ChanCfg) (p : EncProfile) : Geom :=
  let period := periodNs c.rateNum c.rateDen
  let tLine := match feedOutput s c with | some o => outLineNs o | none => period / (c.totalLines : Rat)
  let comp := match feedOutput s c with | some o => outLatency o | none => 0
  let ctu := ctuOf p
  let tRow := (ctu : Rat) * tLine
  { ctu := ctu, cRow := ceilDiv c.width ctu, rows := ceilDiv c.height ctu, k := p.sliceRows, period := period, tLine := tLine, tRow := tRow,
    tAct := (c.height : Rat) * tLine, dMin := max 500000 (((p.sliceRows + 1 : Nat) : Rat) * tRow + 40000 + comp) }

/-- Geometry of a channel, once it is configured. -/
def chanGeom (s : State) (x : Chan) : Option Geom :=
  match x.cfg, x.profile with
  | some c, some p => some (geomOf s c p)
  | _, _ => none

/-- Admission quantities of one channel (Table 3.5). -/
structure Load where
  chan : Nat
  nIsle : Nat
  cRow : Nat
  tRow : Rat
  tAct : Rat
  dMin : Rat
  /-- D in ns, and the largest D admitted in the run (R232) -/
  d : Rat
  dMax : Rat
  /-- R in bit/ns and B -/
  r : Rat
  b : Nat
  /-- entropy units per row, peak bin rate -/
  u : Nat
  q : Rat
  cRate : Rat
  s : Rat
  pAvg : Rat
  nRef : Nat
  a : Nat
  composed : Bool
  /-- WIDTH, HEIGHT, H_ctu, LOOKAHEAD and whether it takes LOOKAHEAD space (R232) -/
  width : Nat
  height : Nat
  ctu : Nat
  lookahead : Nat
  laSpace : Bool
  deriving DecidableEq, Repr

/-- Number of Isles for a peak pixel rate (Table 3.5). -/
def islesFor (pRow rIsle : Rat) : Nat := let n := ceilRat (pRow / rIsle); if 8 < n then roundUp n 8 else n

/-- The quantities of a channel for a rate in kbit/s, N_REF, and delays in ns: D and the largest D of the run. -/
def loadOf (s : State) (n : Nat) (c : ChanCfg) (p : EncProfile) (b rate nRef lookahead : Nat) (laSpace : Bool) (delay most : Rat) : Load :=
  let g := geomOf s c p
  let pRow := ((g.cRow * g.ctu * g.ctu : Nat) : Rat) / g.tRow
  { chan := n, nIsle := islesFor pRow (if p.codec = 1 then 1296875 / 10000000 else 259375 / 1000000), cRow := g.cRow, tRow := g.tRow, tAct := g.tAct,
    dMin := g.dMin, d := delay, dMax := max delay most, r := (rate : Rat) / 1000000, b := b, u := if p.parallel = 2 then p.tileCols else 1,
    q := 16 / 10 * (b : Rat) / g.tRow, cRate := ((g.cRow * g.rows : Nat) : Rat) / g.period, s := bytesPerPixel p.chroma,
    pAvg := ((c.width * c.height : Nat) : Rat) / g.period, nRef := nRef, a := if lookahead = 0 then 0 else 2, composed := c.srcKind == 2,
    width := c.width, height := c.height, ctu := g.ctu, lookahead := lookahead, laSpace := laSpace }

/-- Load held by a channel that is not IDLE (R94). -/
def heldLoad (s : State) (n : Nat) (x : Chan) : Option Load :=
  match x.cfg, x.profile, x.coding.rc with
  | some c, some p, some rc =>
    if x.st == .idle then none
    else some (loadOf s n c p rc.rowCap x.run.admRate x.run.admRef x.coding.gop.lookahead x.run.lookaheadSpace x.run.admDelay x.run.maxDelay)
  | _, _, _ => none

/-- Loads of all admitted channels but one, with a candidate, in channel order. -/
def poolWith (s : State) (cand : Option Load) (except' : Option Nat) : List Load :=
  let held := s.chans.filterMap (fun e => if some e.1 = except' then none else heldLoad s e.1 e.2)
  match cand with
  | none => held
  | some l => insertOn (fun x => x.chan) l held

/-- Sum of exact numbers. -/
def sumRat {α : Type} (f : α → Rat) (l : List α) : Rat := l.foldl (fun a x => a + f x) 0

/-- Bin rate of the in-service entropy engines in bin/ns: 3.2 Gbin/s each, 38.4 Gbin/s with all twelve (R422). -/
def binRate (s : State) : Rat := 32 / 10 * (entropyInCount s : Rat)

/-- L, device-wide (Table 3.5, R422); with no engine in service any load at all is too much, and L counts as one second. -/
def loadL (s : State) (ls : List Load) : Rat :=
  let excess := max 0 (sumRat (fun l => l.q) ls - binRate s)
  if binRate s = 0 then (if excess = 0 then 0 else 1000000000) else excess * ls.foldl (fun m l => max m l.tAct) 0 / binRate s

/-- Row slots of a channel's Lagoon partition (R130). -/
def lagoonSlots (l : Rat) (x : Load) : Nat := 3 + ceilRat (l / x.tRow)

/-- Bits of a channel's Lagoon partition (R130). -/
def lagoonBits (l : Rat) (x : Load) : Rat := (lagoonSlots l x : Rat) * (16 / 10 * (x.b : Rat) + ((256 * x.cRow : Nat) : Rat))

/-- Bits of a channel's slice queue: what check 7 counts (Table 3.6), and what it holds of the region (R232). -/
def sliceqBits (x : Load) : Nat := (ceilRat (x.d / x.tRow) + 1) * x.b
def sliceqHeld (x : Load) : Nat := (ceilRat (x.dMax / x.tRow) + 1) * x.b

/-- Bytes/ns of a channel in checks 8 and 9. -/
def hbmLoad (x : Load) : Rat := x.s * x.pAvg * (1 + 3 / 2 * (x.nRef : Rat) + (x.a : Rat))
def qdrLoad (x : Load) : Rat :=
  (if x.composed then 1 else 2) * x.s * x.pAvg + (2 * (16 / 10 * x.r + 256 * x.cRate) + 2 * x.r) / 8

/-- Isles that some channel holds. -/
def allocatedIsles (s : State) (except' : Nat) : List Nat := s.chans.foldl (fun l e => if e.1 = except' then l else l ++ e.2.run.isles) []

/-- Unallocated in-service Isles of Atoll a, in order. -/
def freeIsles (s : State) (except' a : Nat) : List Nat :=
  ((List.range 8).map (fun i => 8 * a + i)).filter (fun i => isleIn s i && !(allocatedIsles s except').contains i)

/-- Placement of n Isles for a channel (Table 3.6, check 2). -/
def placeIsles (s : State) (chan n : Nat) : Option (List Nat) :=
  let atolls := List.range 8
  if n ≤ 8 then
    let fits := atolls.filter (fun a => decide (n ≤ (freeIsles s chan a).length))
    match sortOn (fun a => (freeIsles s chan a).length) fits with
    | a :: _ => some ((freeIsles s chan a).take n)
    | [] => none
  else
    let whole := atolls.filter (fun a => (freeIsles s chan a).length == 8)
    if n / 8 ≤ whole.length then some ((whole.take (n / 8)).flatMap (freeIsles s chan)) else none

/-- Chroma of an ingest or confidence decoder's pictures (R221); unknown before the first picture (log 24). -/
def decChroma (s : State) (n : Nat) (d : Decoder) : Nat :=
  if d.srcKind = 1 then ((chanAt s d.srcIndex).bind (fun c => c.profile)).elim 1 (fun p => p.chroma)
  else d.chroma.getD (Config.ingestChroma n % 3)

/-- Pixel rate of a decoder's declared maxima in pixel/ns (R212). -/
def decPixels (d : Decoder) : Rat := ((d.width * d.height : Nat) : Rat) / periodNs d.rateNum d.rateDen

/-- Memory loads of a decoder in checks 8 and 9 (R215). -/
def decHbm (s : State) (n : Nat) (d : Decoder) : Rat := 4 * bytesPerPixel (decChroma s n d) * decPixels d
def decQdr (s : State) (d : Decoder) : Rat :=
  let kbps : Nat := if d.srcKind = 1 then ((chanAt s d.srcIndex).bind (fun c => c.coding.rc)).elim 0 (fun r => r.rateMax) else (flowInAt s d.srcIndex).elim 0 (fun f => f.cfg.rateIn)
  2 * ((kbps : Rat) / 1000000) / 8

/-- FORMAT of a layer's source buffer: surface, live flow or lane, decoder, output's surface (R194, R520). -/
def layerFormat (s : State) (l : Layer) : Option Nat :=
  if l.srcKind = 0 then (surfAt s l.srcIndex).map (fun x => x.format)
  else if l.srcKind = 1 then (flowInAt s l.srcIndex).map (fun f => linOfChroma (samplingChroma f.cfg.sampling))
  else if l.srcKind = 2 then some 0
  else if l.srcKind = 3 then (decAt s l.srcIndex).map (fun d => linOfChroma (decChroma s l.srcIndex d))
  else (outAt s l.srcIndex).bind (fun o => o.cfg.toSurface.bind (fun n => (surfAt s n).map (fun x => x.format)))

/-- src_rate in pixel/ns: SW × SH over the time of its DH destination lines (R196). -/
def srcRate (o : OutCfg) (l : Layer) : Rat := ((l.sw * l.sh : Nat) : Rat) / ((l.dh : Rat) * outLineNs o)

/-- Pixel rate p_src and chroma of a live source (R520). -/
def livePixels (s : State) (l : Layer) : Rat × Nat :=
  if l.srcKind = 1 then
    match flowInAt s l.srcIndex with
    | some f => (((f.cfg.width * f.cfg.height : Nat) : Rat) / periodNs f.cfg.rateNum f.cfg.rateDen, samplingChroma f.cfg.sampling)
    | none => (0, 1)
  else
    let (w, h, n, d) := sdiRaster (laneAt s l.srcIndex)
    (((w * h : Nat) : Rat) / periodNs n d, 1)

/-- Memory loads of one enabled layer in checks 8 and 9 (Table 6.2a). -/
def layerHbm (s : State) (o : OutCfg) (l : Layer) : Rat :=
  if l.srcKind = 1 ∨ l.srcKind = 2 then 0 else match layerFormat s l with | some f => memBytes f * srcRate o l | none => 0
def layerQdr (s : State) (o : OutCfg) (l : Layer) : Rat :=
  if l.srcKind = 1 ∨ l.srcKind = 2 then let (p, c) := livePixels s l; bytesPerPixel c * (p + srcRate o l) else 0

/-- The Lighthouse layer as an unscaled opaque surface layer (R202). -/
def lighthouseLayer (s : State) (surf x y : Nat) : Option Layer :=
  (surfAt s surf).map (fun f => { srcKind := 0, srcIndex := surf, alphaMode := 0, alpha := 4095, sx := 0, sy := 0, sw := f.width, sh := f.height, dx := x, dy := y, dw := f.width, dh := f.height, lag := 0 })

/-- Enabled layers of a layer state, the Lighthouse layer as number 63. -/
def enabledLayers (s : State) (layers : FMap Layer) (lh : Option (Nat × Nat × Nat)) : List (Nat × Layer) :=
  layers ++ (match lh with | some (f, x, y) => (lighthouseLayer s f x y).elim [] (fun l => [(63, l)]) | none => [])

/-- Pixel rate p_out (R520). -/
def outPixels (o : OutCfg) : Rat := ((o.width * o.height : Nat) : Rat) / periodNs o.rateNum o.rateDen

/-- Own loads of an output: the write of its TO_SURFACE surface and of its ring (Table 6.2a). -/
def outHbm (s : State) (o : OutCfg) : Rat := (o.toSurface.bind (surfAt s)).elim 0 (fun x => memBytes x.format * outPixels o)
def outQdr (o : OutCfg) : Rat := bytesPerPixel o.chroma * outPixels o

/-- Layer loads of an output in checks 8 and 9. -/
def layersHbm (s : State) (o : OutCfg) (ls : List (Nat × Layer)) : Rat := sumRat (fun e => layerHbm s o e.2) ls
def layersQdr (s : State) (o : OutCfg) (ls : List (Nat × Layer)) : Rat := sumRat (fun e => layerQdr s o e.2) ls

/-- A layer state after further changes, oldest first (R198). -/
def changesOn (layers : FMap Layer) (lh : Option (Nat × Nat × Nat)) (cs : List LayerChange) : FMap Layer × Option (Nat × Nat × Nat) :=
  cs.foldl (fun a c => match c with
    | .set n l => (a.1.set n l, a.2)
    | .clear n => (a.1.erase n, a.2)
    | .fresh _ _ => a
    | .lhLoad f x y => (a.1, some (f, x, y))
    | .lhUnload => (a.1, none)) (layers, lh)

/-- The Lighthouse layers of an output: the applied one and the one after each waiting commit, in that order (R198). -/
def lhStates (o : Output) : List (Option (Nat × Nat × Nat)) :=
  (List.range (o.commits.length + 1)).map (fun k => (changesOn o.layers o.lh ((o.commits.take k).flatMap (fun c => c.changes))).2)

/-- The layer states of an output: the applied one and the one after each waiting commit, in that order (R194, R197, R198, R520). -/
def layerStates (s : State) (o : Output) : List (List (Nat × Layer)) :=
  (List.range (o.commits.length + 1)).map (fun k =>
    let (ls, lh) := changesOn o.layers o.lh ((o.commits.take k).flatMap (fun c => c.changes))
    enabledLayers s ls lh)

/-- Greatest of exact numbers, at least 0. -/
def maxRat {α : Type} (f : α → Rat) (l : List α) : Rat := l.foldl (fun a x => max a (f x)) 0

/-- The loads that an output's layers hold: those of the applied state until it is replaced, and those of every state that is being committed (R520). -/
def heldHbm (s : State) (o : Output) : Rat := maxRat (layersHbm s o.cfg) (layerStates s o)
def heldQdr (s : State) (o : Output) : Rat := maxRat (layersQdr s o.cfg) (layerStates s o)

/-- Loads of FLOW_OUT_ADDs that are admitted and wait for their Tide boundary: the ring read of an ST 2110-20 or SDI transmit flow (Table 6.2a). -/
def waitingFlowLoad (s : State) : Rat :=
  sumRat (fun e => if e.2.wait = .tide ∧ opcodeOf e.2.packet = 0x0604 ∧ (fld e.2.packet 2 2 0 = 3 ∨ fld e.2.packet 2 2 0 = 6) then
      (outAt s (fld e.2.packet 3 15 0)).elim 0 (fun o => outQdr o.cfg) else 0) (allCmds s)

/-- All other loads of checks 8 and 9, in bytes/ns: outputs, layers, output flows, decoders (R215, R520); without the layers of output `skip`. -/
def otherHbmBut (s : State) (skip : Option Nat) : Rat :=
  sumRat (fun e => outHbm s e.2.cfg + if skip = some e.1 then 0 else heldHbm s e.2) s.outs + sumRat (fun e => decHbm s e.1 e.2) s.decs
def otherQdrBut (s : State) (skip : Option Nat) : Rat :=
  sumRat (fun e => outQdr e.2.cfg + if skip = some e.1 then 0 else heldQdr s e.2) s.outs + sumRat (fun e => decQdr s e.2) s.decs
    + sumRat (fun e => e.2.load) s.net.flowsOut + waitingFlowLoad s
def otherHbm (s : State) : Rat := otherHbmBut s none
def otherQdr (s : State) : Rat := otherQdrBut s none

/-- Bits of a region in force, Mbit and MiB as powers of two (Table 8.1; the examples of R94 count a Mbit as 2²⁰ bits). -/
def regionBits (s : State) (kind : Nat) : Nat := let v := s.mem.regions.getD kind 0; if kind < 8 then v * 2 ^ 20 else v * 2 ^ 20 * 8

/-- Ceilings of checks 8 and 9 in bytes/ns. -/
def hbmCeiling (s : State) : Rat := 230625 / 10000 * (pcsIn s : Rat)
def qdrCeiling (s : State) : Rat := 144 / 10 * (qportsIn s : Rat)

/-- Check 8 or 9 fails for loads of channels with further other loads; the code, or none. `skip` names an output whose layers the further loads replace. -/
def memoryCheckBut (s : State) (skip : Option Nat) (ls : List Load) (moreHbm moreQdr : Rat) : Option Nat :=
  if hbmCeiling s < sumRat hbmLoad ls + otherHbmBut s skip + moreHbm then some 8
  else if qdrCeiling s < sumRat qdrLoad ls + otherQdrBut s skip + moreQdr then some 9
  else none
def memoryCheck (s : State) (ls : List Load) (moreHbm moreQdr : Rat) : Option Nat := memoryCheckBut s none ls moreHbm moreQdr

/-- First failure of checks 4 over the channels in order (R93). -/
def check4 (l : Rat) : List Load → Option (Nat × Nat)
  | [] => none
  | x :: r =>
    if x.tRow < 16 / 10 * (x.b : Rat) / (32 / 10 * (x.u : Rat)) + 40000 then some (4, x.chan)
    else if x.tRow < l + 40000 then some (4, 0xFFFFFFFF)
    else check4 l r

/-- Admission (R91 to R93): the code of the first failing check and RESULT1, or none. `place` tells whether the candidate needs Isles. -/
def admitLoad (s : State) (cand : Load) (place : Bool) : Option (Nat × Nat) :=
  let ls := poolWith s (some cand) (some cand.chan)
  let l := loadL s ls
  let all := 0xFFFFFFFF
  if islesInCount s < sumBy (fun x => x.nIsle) ls then some (1, all)
  else if place && (placeIsles s cand.chan cand.nIsle).isNone then some (2, cand.chan)
  else if binRate s < sumRat (fun x => 16 / 10 * x.r) ls then some (3, all)
  else match check4 l ls with
    | some e => some e
    | none => match ls.find? (fun x => decide (x.d - x.dMin < l)) with
      | some x => some (5, x.chan)
      | none =>
        if (regionBits s 3 : Rat) < sumRat (lagoonBits l) ls then some (6, all)
        else if regionBits s 4 < sumBy sliceqBits ls then some (7, all)
        else (memoryCheck s ls 0 0).map (fun c => (c, all))

/-- Bytes of a channel's input or composition ring, of its references, of its lookahead store (R232). -/
def ringBytes (x : Load) : Rat := ((3 * x.ctu + 8) * x.width : Nat) * x.s
def referenceBytes (x : Load) : Rat := ((x.nRef + 2) * x.width * x.height : Nat) * x.s
def lookaheadBytes (x : Load) : Rat := if x.laSpace then ((x.lookahead + 3) * x.width * x.height : Nat) * (5 / 16) * (10 / 8) else 0

/-- Lines a live layer source holds: 8 source lines beyond its LAG, in its own format (R232). -/
def liveLayerBytes (s : State) (l : Layer) : Rat :=
  if l.srcKind = 1 then
    match flowInAt s l.srcIndex with
    | some f => (8 + (((l.lag * 1000 : Nat) : Rat) / (periodNs f.cfg.rateNum f.cfg.rateDen / (f.cfg.height : Rat)))) * (f.cfg.width : Rat) * bytesPerPixel (samplingChroma f.cfg.sampling)
    | none => 0
  else if l.srcKind = 2 then
    let (w, h, n, d) := sdiRaster (laneAt s l.srcIndex)
    (8 + (((l.lag * 1000 : Nat) : Rat) / (periodNs n d / (h : Rat)))) * (w : Rat) * bytesPerPixel 1
  else 0

/-- Bytes of a decoder's store: DPB and three presentation buffers (R221, R232, log 24). -/
def decoderBytes (s : State) (n : Nat) (d : Decoder) : Rat :=
  let f := linOfChroma (decChroma s n d)
  (((Config.dpbPictures d.codec + 3) * bufferBytes f d.width d.height : Nat) : Rat)

/-- Bytes taken in a region (R232). -/
def regionUsed (s : State) (ls : List Load) (kind : Nat) : Rat :=
  if kind = 1 then sumRat (fun x => if x.composed then 0 else ringBytes x) ls
    + sumRat (fun e => maxRat (fun ls => sumRat (fun l => liveLayerBytes s l.2) ls) (layerStates s e.2)) s.outs
  else if kind = 2 then sumRat (fun x => if x.composed then ringBytes x else 0) ls
  else if kind = 3 then sumRat (fun x => lagoonBits (loadL s ls) x / 8) ls
  else if kind = 4 then ((sumBy sliceqHeld ls : Nat) : Rat) / 8
  else if kind = 9 then sumRat referenceBytes ls
  else if kind = 10 then sumRat lookaheadBytes ls
  else if kind = 11 then sumRat (fun e => decoderBytes s e.1 e.2) s.decs
  else if kind = 12 then ((sumBy (fun e => surfaceBytes e.2) s.surfs : Nat) : Rat)
  else 0

/-- A region holds what the loads take. -/
def regionFits (s : State) (ls : List Load) (kind : Nat) : Bool := decide (regionUsed s ls kind ≤ (regionBits s kind : Rat) / 8)

/-- A channel finds its space at CHAN_START (R232): ring, Lagoon partition, slice queue, references, lookahead. -/
def spaceFits (s : State) (ls : List Load) : Bool := [1, 2, 3, 4, 9, 10].all (regionFits s ls)

end Sys2Proof.Machine
end

