-- ==== Sys2Proof/Machine/RateOps.lean ====
section
/-! DEFINITION. Pure parts of coding and rate control: levels (R121, log 27), lossless areas (R124, R163), slices and tiles (R122, R134), the bucket and the rounding functions of R150 to R156. -/

namespace Sys2Proof.Machine

/-- Limits of one level: general_level_idc of HEVC, MaxLumaPs, MaxLumaSr, MaxBR of Main and High tier (0: no High tier), most tile columns (PRESUMED from the two standards, log 27). -/
def levelTable : List (Nat × Nat × Nat × Nat × Nat × Nat) := [
  (30, 36864, 552960, 128, 0, 1), (60, 122880, 3686400, 1500, 0, 1), (63, 245760, 7372800, 3000, 0, 1),
  (90, 552960, 16588800, 6000, 0, 2), (93, 983040, 33177600, 10000, 0, 3), (120, 2228224, 66846720, 12000, 30000, 5),
  (123, 2228224, 133693440, 20000, 50000, 5), (150, 8912896, 267386880, 25000, 100000, 10), (153, 8912896, 534773760, 40000, 160000, 10),
  (156, 8912896, 1069547520, 60000, 240000, 10), (180, 35651584, 1069547520, 60000, 240000, 20), (183, 35651584, 2139095040, 120000, 480000, 20),
  (186, 35651584, 4278190080, 240000, 800000, 20)]

/-- The HEVC level with the limits of a VVC level: 16 × major + 3 × minor (log 27). -/
def hevcLevel (vvc : Nat) : Nat := 30 * (vvc / 16) + vvc % 16

/-- The limits of LEVEL under a codec. -/
def levelOf (codec level : Nat) : Option (Nat × Nat × Nat × Nat × Nat × Nat) :=
  levelTable.find? (fun e => e.1 == if codec = 1 then hevcLevel level else level)

/-- Bit-rate factor of NAL HRD by codec and profile (log 27). -/
def nalFactor (p : EncProfile) : Nat :=
  if p.codec = 1 then (if p.profile = 1 then 2750 else 1100)
  else if p.profile = 2 then 1834 else if p.profile = 3 then 2750 else 1100

/-- Maximum bit rate in bit/s of the configured level, tier and profile (R148). -/
def levelRate (p : EncProfile) : Nat := (levelOf p.codec p.level).elim 0 (fun e => (if p.tier = 1 then e.2.2.2.2.1 else e.2.2.2.1) * nalFactor p)

/-- PROFILE allows CHROMA (Table 4.6). -/
def chromaAllowed (codec profile chroma : Nat) : Bool :=
  if codec = 0 then decide (profile ≤ 3) && decide (chroma ≤ profile - 1) else codec == 1 && decide (profile ≤ 1) && decide (chroma ≤ 2 * profile)

/-- Bit depth of the coded samples (Table 4.6). -/
def bitDepth (p : EncProfile) : Nat := if p.codec = 0 ∧ p.profile = 0 then 8 else 10

/-- A rectangle in luma samples: left, top, width, height. -/
abbrev Rect := Nat × Nat × Nat × Nat

/-- The CTU at column c, row r overlaps a rectangle. -/
def overlaps (ctu r c : Nat) (q : Rect) : Bool :=
  decide (c * ctu < q.1 + q.2.2.1) && decide (q.1 < (c + 1) * ctu) && decide (r * ctu < q.2.1 + q.2.2.2) && decide (q.2.1 < (r + 1) * ctu)

/-- The CTU is lossless (R124). -/
def isLossless (ctu : Nat) (rects : List Rect) (r c : Nat) : Bool := rects.any (overlaps ctu r c)

/-- Lossless CTUs of row r (R163). -/
def losslessCount (g : Geom) (rects : List Rect) (r : Nat) : Nat := ((List.range g.cRow).filter (isLossless g.ctu rects r)).length

/-- Rectangles of the regions of KIND 2 (R162). -/
def regionRects (c : Coding) : List Rect := (c.regions.filter (fun e => e.2.kind == 2)).map (fun e => (e.2.x, e.2.y, e.2.w, e.2.h))

/-- Every region that is on lies inside the picture (R162). -/
def regionsInside (c : Coding) (w h : Nat) : Bool :=
  c.regions.all (fun e => e.2.kind == 0 || (decide (e.2.x + e.2.w ≤ w) && decide (e.2.y + e.2.h ≤ h)))

/-- The Lighthouse rectangle of a Lighthouse layer (R202). -/
def lhRect (s : State) (lh : Option (Nat × Nat × Nat)) : List Rect :=
  match lh with
  | some (f, x, y) => (surfAt s f).elim [] (fun u => [(x, y, u.width, u.height)])
  | none => []

/-- The Lighthouse rectangles that a channel must be able to code, one case after the other: its output's region in force, and the one after each waiting commit (R163, R201). -/
def chanLhCases (s : State) (c : ChanCfg) : List (List Rect) :=
  if c.srcKind = 2 then (outAt s c.srcIndex).elim [[]] (fun o => ((lhStates o).map (lhRect s)).eraseDups) else [[]]

/-- W_ll (R163): CTU samples × (1 + 2c) × (bit depth + 2). -/
def wLossless (p : EncProfile) : Nat :=
  let n := ctuOf p * ctuOf p
  (if p.chroma = 0 then n * 3 / 2 else if p.chroma = 1 then n * 2 else n * 3) * (bitDepth p + 2)

/-- LL_CTU_BITS with its default (R163). -/
def llBits (rc : RcCfg) (p : EncProfile) : Nat := if rc.llCtuBits = 0 then wLossless p else rc.llCtuBits

/-- f_row(r) (R154). -/
def floorRow (g : Geom) (rc : RcCfg) (rects : List Rect) (r : Nat) : Nat := rc.floorCtu * (g.cRow - losslessCount g rects r)

/-- The row requirement of R163 holds for every row. -/
def rowsOk (g : Geom) (p : EncProfile) (rc : RcCfg) (rects : List Rect) : Bool :=
  (List.range g.rows).all (fun r => decide (losslessCount g rects r * llBits rc p + floorRow g rc rects r ≤ rc.rowCap))

/-- A rectangle aligned to the CTU grid: first and end column, first and end row (R124). -/
def gridRect (ctu : Nat) (q : Rect) : Nat × Nat × Nat × Nat := (q.1 / ctu, ceilDiv (q.1 + q.2.2.1) ctu, q.2.1 / ctu, ceilDiv (q.2.1 + q.2.2.2) ctu)

/-- A VVC channel holds at most one lossless rectangle, with PARALLEL 2 and three tile columns (R124). -/
def vvcOk (p : EncProfile) (rects : List Rect) : Bool :=
  p.codec != 1 || rects.isEmpty
    || (decide ((rects.map (gridRect (ctuOf p))).dedup.length ≤ 1) && p.parallel == 2 && decide (3 ≤ p.tileCols))

/-- Lossless rectangles satisfy R124 and R163. -/
def losslessOk (g : Geom) (p : EncProfile) (rc : RcCfg) (rects : List Rect) : Bool := rowsOk g p rc rects && vvcOk p rects

/-- Even tile columns, the wider ones on the left: the first CTU column of each, and C_row (R122). -/
def evenColumns (cRow n : Nat) : List Nat := (List.range (n + 1)).map (fun i => i * (cRow / n) + min i (cRow % n))

/-- Move the interior boundary nearest to CTU column c onto it (R124); a column at the picture's edge moves none. -/
def moveBoundary (cRow c : Nat) (bs : List Nat) : List Nat :=
  if c = 0 ∨ cRow ≤ c then bs
  else
    let inner := bs.filter (fun b => decide (0 < b) && decide (b < cRow))
    let dist := fun b => if b < c then c - b else b - c
    match sortOn dist inner with
    | b :: _ => bs.map (fun x => if x = b then c else x)
    | [] => bs

/-- Column boundaries of the tiles of a picture (R122, R124). -/
def tileColumns (p : EncProfile) (g : Geom) (rects : List Rect) : List Nat :=
  if p.parallel != 2 then [0, g.cRow]
  else
    let bs := evenColumns g.cRow p.tileCols
    match p.codec, rects with
    | 1, q :: _ =>
      let (a, b, _, _) := gridRect g.ctu q
      let moved := moveBoundary g.cRow a bs
      let rest := moved.filter (fun x => x != a)
      sortOn (fun x => x) (moveBoundary g.cRow (min b g.cRow) rest ++ (if moved.contains a then [a] else []))
    | _, _ => bs

/-- One slice of a picture: first row of its tile row (for o(s)), rows and CTU columns; first of its group (R86, R122). -/
structure SliceGeom where
  group : Nat
  rowA : Nat
  rowB : Nat
  colA : Nat
  colB : Nat
  first : Bool
  deriving DecidableEq, Repr

/-- Slices of a picture in decoding order (R122). -/
def slicesOf (p : EncProfile) (g : Geom) (rects : List Rect) : List SliceGeom :=
  (List.range (ceilDiv g.rows g.k)).flatMap (fun i =>
    let a := i * g.k
    let b := min (a + g.k) g.rows
    match p.codec, rects with
    | 1, q :: _ =>
      let (c0, c1, r0, r1) := gridRect g.ctu q
      let c1 := min c1 g.cRow
      let cuts := [a] ++ [r0, r1].filter (fun r => decide (a < r) && decide (r < b)) ++ [b]
      let left := if 0 < c0 then [(a, b, 0, c0)] else []
      let mid := (cuts.zip (cuts.drop 1)).map (fun e => (e.1, e.2, c0, c1))
      let right := if c1 < g.cRow then [(a, b, c1, g.cRow)] else []
      (left ++ mid ++ right).zipIdx.map (fun e => { group := a, rowA := e.1.1, rowB := e.1.2.1, colA := e.1.2.2.1, colB := e.1.2.2.2, first := e.2 == 0 })
    | _, _ => [{ group := a, rowA := a, rowB := b, colA := 0, colB := g.cRow, first := true }])

/-- Entropy units of a slice: rows and columns of each (R134). -/
def unitsOf (p : EncProfile) (g : Geom) (rects : List Rect) (x : SliceGeom) : List (Nat × Nat × Nat × Nat) :=
  if p.parallel = 1 then (List.range (x.rowB - x.rowA)).map (fun i => (x.rowA + i, x.rowA + i + 1, x.colA, x.colB))
  else if p.parallel = 2 then
    let bs := (tileColumns p g rects).filter (fun b => decide (x.colA ≤ b) && decide (b ≤ x.colB))
    (bs.zip (bs.drop 1)).map (fun e => (x.rowA, x.rowB, e.1, e.2))
  else [(x.rowA, x.rowB, x.colA, x.colB)]

/-- Limits of R121 hold: picture size and luma sample rate of LEVEL, tile columns, where they stand after R124's move, at least 256 samples wide. -/
def levelOk (p : EncProfile) (c : ChanCfg) (g : Geom) (rects : List Rect) : Bool :=
  match levelOf p.codec p.level with
  | none => false
  | some (_, ps, sr, _, _, _) =>
    decide (c.width * c.height ≤ ps) && decide (c.width * c.width ≤ 8 * ps) && decide (c.height * c.height ≤ 8 * ps)
      && decide (c.width * c.height * c.rateNum ≤ sr * c.rateDen)
      && (p.parallel != 2 || (let bs := tileColumns p g rects
            (bs.zip (bs.drop 1)).all (fun e => decide (256 + e.1 * g.ctu ≤ min (e.2 * g.ctu) c.width))))

/-- Drain of picture n at a rate in kbit/s (R152). -/
def drainOf (c : ChanCfg) (kbps n : Nat) : Nat :=
  kbps * 1000 * c.rateDen * (n + 1) / c.rateNum - kbps * 1000 * c.rateDen * n / c.rateNum

/-- base of R152. -/
def drainBase (c : ChanCfg) (kbps : Nat) : Nat := kbps * 1000 * c.rateDen / c.rateNum

/-- V_t (R152). -/
def vTargetBits (rc : RcCfg) : Nat := rc.cpbSize * rc.vTarget / 1024

/-- K = 2^REACT (Table 5.1). -/
def reactK (rc : RcCfg) : Nat := 2 ^ rc.react

/-- lg(x) = floor(256 × log2(max(x, 1))), exactly: the largest n with 2^n ≤ max(x, 1)^256 (R156). -/
def lg (x : Nat) : Nat := Nat.log2 (max x 1 ^ 256)

/-- Division rounding halves away from zero (R156). -/
def roundDiv (a : Int) (b : Nat) : Int :=
  let m : Int := ((2 * a.natAbs + b) / (2 * b) : Nat)
  if a < 0 then -m else m

/-- Mean rounded to the nearest integer, halves upward; 0 of nothing (R156). -/
def meanUp (sum n : Nat) : Nat := if n = 0 then 0 else (2 * sum + n) / (2 * n)

/-- Division rounding toward minus infinity (R154). -/
def divDown (a : Int) (b : Nat) : Int := Int.fdiv a (b : Int)

/-- A value limited to a range. -/
def clampInt (x lo hi : Int) : Int := max lo (min x hi)

/-- copy_bits and copy_bins (Table 5.3). -/
def copyCost (codec : Nat) (intra : Bool) : Nat × Nat :=
  if codec = 0 then (if intra then (16, 24) else (4, 6)) else (if intra then (24, 32) else (6, 8))

/-- Filler bits F of a CBR picture whose bucket reaches v with `bits` and drains d; and whether the bound B reduced it (R151). -/
def fillerOf (rc : RcCfg) (v : Int) (bits d : Nat) : Nat × Bool :=
  let want := ((d : Int) - v - (bits : Int)).toNat
  let f := min rc.rowCap want
  (if f = 0 then 0 else max 24 (8 * ceilDiv f 8), decide (rc.rowCap < want))

/-- What the controller of a coding channel works with. -/
structure Ctl where
  cfg : ChanCfg
  prof : EncProfile
  g : Geom
  run : Run

/-- The controller of a configured channel. -/
def ctlOf (s : State) (x : Chan) : Option Ctl :=
  match x.cfg, x.profile with
  | some c, some p => some { cfg := c, prof := p, g := geomOf s c p, run := x.run }
  | _, _ => none

/-- Kinds of R155: key picture (IRAP or first picture of a gradual refresh) or other. -/
def isIrap (q : Pic) : Bool := q.key == some .idr || q.key == some .cra
def isKeyPic (q : Pic) : Bool := isIrap q || q.refreshIdx == some 0

/-- Content of a copy CTU (Table 5.3): the size of its coding units, skipped with merge index 0 or intra DC; SAO, and in VVC ALF, merged from the left where it is allowed to be. -/
structure CopyContent where
  cuSize : Nat
  skip : Bool
  filtersMerged : Bool
  deriving DecidableEq, Repr

/-- Table 5.3 for a CTU of column c. -/
def copyContent (p : EncProfile) (intra : Bool) (ctu c : Nat) : CopyContent :=
  if intra then { cuSize := if p.codec = 0 then 32 else 64, skip := false, filtersMerged := false }
  else { cuSize := ctu, skip := true, filtersMerged := c != 0 }

end Sys2Proof.Machine
end

