-- ==== Sys2Proof/Machine/Nals.lean ====
section
/-! DEFINITION. NAL units of an access unit: types, headers, emulation prevention, SEI messages, filler, end of bitstream, parameter sets and the tools they enable (R123, R129, R136, R139, R141, R142, R147, R149 to R151). -/

namespace Sys2Proof.Machine

/-- NAL unit types by codec: those of SEI and filler as R142 and R151 give them, the others PRESUMED from the codecs' standards (log 164). -/
def nalType (codec : Nat) (k : NalKind) : Nat :=
  let of' := fun (h v : Nat) => if codec = 0 then h else v
  match k with
  | .aud => of' 35 20
  | .vps => of' 32 14
  | .sps => of' 33 15
  | .pps => of' 34 16
  | .aps => of' 0 17
  | .bufferingPeriod | .pictureTiming | .recoveryPoint | .timing => of' 39 23
  | .slice => of' 1 0
  | .filler => of' 38 12
  | .lossFlag | .staleBitmap | .regionHash => of' 40 24
  | .endOfBitstream => of' 37 22

/-- Type of the slice NAL units of a picture: IDR, CRA, the GDR picture that starts a VVC refresh (R129), or trailing (PRESUMED, log 164). -/
def sliceNalType (codec : Nat) (q : Pic) : Nat :=
  if q.key = some .idr then (if codec = 0 then 20 else 8)
  else if q.key = some .cra then (if codec = 0 then 21 else 9)
  else if codec = 1 ∧ q.refreshIdx = some 0 then 10
  else nalType codec .slice

/-- NAL unit header, 2 bytes: type and temporal identifier, layer 0 (R143 names its length; the layout is PRESUMED from the standards, log 164). -/
def nalHeader (codec type tid : Nat) : List Byte :=
  if codec = 0 then [BitVec.ofNat 8 (2 * type), BitVec.ofNat 8 (tid + 1)] else [0, BitVec.ofNat 8 (8 * type + tid + 1)]

/-- Emulation prevention over a payload after `z` zero bytes (R136): 3 goes before a byte of at most 3 that follows two zero bytes. -/
def emulate : Nat → List Byte → List Byte
  | _, [] => []
  | z, b :: r =>
    if 2 ≤ z ∧ b.toNat ≤ 3 then 3 :: b :: emulate (if b = 0 then 1 else 0) r
    else b :: emulate (if b = 0 then z + 1 else 0) r

/-- A payload after emulation prevention; a last byte of zero, as cabac_zero_words leave it, is followed by 3 (PRESUMED, log 164). -/
def nalPayload (b : List Byte) : List Byte :=
  let e := emulate 0 b
  if e.getLast? = some 0 then e ++ [3] else e

/-- payloadType or payload size of an SEI message: 255s and the rest. -/
def seiNumber (n : Nat) : List Byte := List.replicate (n / 255) 255 ++ [BitVec.ofNat 8 (n % 255)]

/-- A user-data-unregistered SEI message, payloadType 5, in a NAL unit of its own (R141, R142). -/
def seiNal (codec : Nat) (k : NalKind) (payload : List Byte) : Nal :=
  let b := nalHeader codec (nalType codec k) 0 ++ nalPayload (seiNumber 5 ++ seiNumber payload.length ++ payload ++ [0x80])
  { kind := k, type := nalType codec k, size := b.length, body := .bytes b }

/-- The filler data NAL unit of f bits (R151): its header, f / 8 − 3 bytes of 0xFF, 0x80. -/
def fillerNal (codec f : Nat) : Nal :=
  { kind := .filler, type := nalType codec .filler, size := f / 8,
    body := .bytes (nalHeader codec (nalType codec .filler) 0 ++ List.replicate (f / 8 - 3) 0xFF ++ [0x80]) }

/-- The end-of-bitstream NAL unit: a header alone (R99, R141). -/
def eobNal (codec : Nat) : Nal :=
  { kind := .endOfBitstream, type := nalType codec .endOfBitstream, size := 2, body := .bytes (nalHeader codec (nalType codec .endOfBitstream) 0) }

/-- A NAL unit whose syntax the codec's standard gives: its size comes with it, its content as field values. -/
def fieldNal (codec : Nat) (k : NalKind) (size : Nat) (body : NalBody) : Nal := { kind := k, type := nalType codec k, size := size, body := body }

/-- Use of a tool by a codec (Tables 4.7 and 4.8). -/
inductive ToolUse where
  | used
  /-- in lossless CTUs only -/
  | losslessOnly
  /-- except in lossless CTUs -/
  | notLossless
  | notUsed
  deriving DecidableEq, Repr

/-- Table 4.7: HEVC. A tool that HEVC does not have is not used. -/
def hevcUse (p : EncProfile) : Tool → ToolUse
  | .cuBypass => .losslessOnly
  | .transformSkip | .signHiding | .merge | .amvp | .amp | .tmvp | .strongIntra => .used
  | .deblocking | .sao => .notLossless
  | .crossComponent => if p.profile = 3 then .used else .notUsed
  | .wavefront => if p.parallel = 1 then .used else .notUsed
  | .tiles => if p.parallel = 2 then .used else .notUsed
  | _ => .notUsed

/-- Table 4.8: VVC. A tool that VVC does not have is not used. -/
def vvcUse (p : EncProfile) : Tool → ToolUse
  | .multiTypeTree | .dualTree | .wideAngles | .mrl | .cclm | .merge | .amvp | .affine | .sbTmvp | .mmvd | .smvd | .amvr | .bcw
  | .dmvr | .bdof | .prof | .transformSkip | .gdr => .used
  | .implicitMts | .lfnst | .jointCbCr | .dependentQuant | .deblocking | .sao | .alf => .notLossless
  | .wavefront => if p.parallel = 1 then .used else .notUsed
  | .tiles => if p.parallel = 2 then .used else .notUsed
  | _ => .notUsed

/-- Use of a tool in a stream (R123). -/
def toolUse (p : EncProfile) (t : Tool) : ToolUse := if p.codec = 0 then hevcUse p t else vvcUse p t

/-- Every tool of Tables 4.7 and 4.8. -/
def allTools : List Tool :=
  [.cuBypass, .transformSkip, .signHiding, .merge, .amvp, .amp, .tmvp, .strongIntra, .crossComponent, .wavefront, .tiles,
   .constrainedIntra, .pcm, .scalingLists, .weightedPrediction, .longTermRefs, .dependentSlices,
   .implicitRdpcm, .extendedPrecision, .persistentRice, .bypassAlignment] ++
  [.deblocking, .sao, .alf, .multiTypeTree, .dualTree, .wideAngles, .mrl, .cclm, .affine, .sbTmvp, .mmvd, .smvd, .amvr, .bcw,
   .dmvr, .bdof, .prof, .implicitMts, .lfnst, .jointCbCr, .dependentQuant, .gdr] ++
  [.mip, .isp, .sbt, .gpm, .ciip, .bdpcm, .palette, .ibc, .act, .ccAlf, .lmcs, .subpictures, .resampling, .virtualBoundaries]

/-- The tools whose enabling flag is 1: a tool that is not used has its flag at 0 (R123). -/
def enabledTools (p : EncProfile) : List Tool := allTools.filter (fun t => toolUse p t != .notUsed)

/-- HRD parameters of a stream (R149, Table 5.2): bit_rate R in bit/s, cpb_size, cbr_flag in CBR. -/
def hrdOf (rc : RcCfg) : Option (Nat × Nat × Bool) := if rc.hrd then some (rc.rateMax * 1000, rc.cpbSize, rc.mode == 0) else none

/-- Parameter sets of a picture's stream (R122 to R124, R147, R149). -/
def paramSetsOf (k : Ctl) (rc : RcCfg) (q : Pic) : ParamSets :=
  { codec := k.prof.codec, profile := k.prof.profile, tier := k.prof.tier, level := k.prof.level, chroma := k.prof.chroma, depth := bitDepth k.prof,
    width := k.cfg.width, height := k.cfg.height, ctu := k.g.ctu, columns := tileColumns k.prof k.g q.lossless, sliceRows := k.prof.sliceRows, numRef := q.coding.gop.nRef,
    tools := enabledTools k.prof, filterAcross := !(k.prof.codec == 1 && !q.lossless.isEmpty), hrd := hrdOf rc }

/-- The parameter-set NAL units of a codec (Table 4.11); in HEVC the HRD parameters stand in the VPS and the SPS, in VVC in the SPS (R149). -/
def paramKinds (codec : Nat) : List NalKind := if codec = 0 then [.vps, .sps, .pps] else [.sps, .pps]

/-- No start-code emulation outside emulation prevention (R137). -/
def noEmulation : List Byte → Bool
  | a :: b :: c :: r =>
    !(a == 0 && b == 0 && (decide (c.toNat < 3) || (c == 3 && (match r with | d :: _ => decide (3 < d.toNat) | [] => false)))) && noEmulation (b :: c :: r)
  | _ => true

end Sys2Proof.Machine
end

