-- ==== Sys2Proof/Machine/Packets.lean ====
section
/-! DEFINITION. Transport packetisation: frames of an emission group over RTP and MPEG-2 transport, and groups handed to the flows' copies (R143, R144, R309, R323, R328, R381). -/

namespace Sys2Proof.Machine

/-- The port of one copy of an output flow (R309). -/
def copyPort (c : FlowOutCfg) (b : Bool) : Nat := if b then c.portB else c.portA

/-- One copy of an output flow. -/
def copyAt (x : FlowOut) (b : Bool) : FlowCopy := if b then x.copyB else x.copyA

/-- Change one copy of output flow w. -/
def modCopy (w : Nat) (b : Bool) (g : FlowCopy → FlowCopy) (s : State) : State :=
  modFlowOut s w (fun x => if b then { x with copyB := g x.copyB } else { x with copyA := g x.copyA })

/-- Fixed MAC-to-PCS latency of a port in ns (Table 12.2a). -/
def macLatency (s : State) (p : Nat) : Nat :=
  let c := (portAt s p).cfg
  if c.speed = 1 then 410
  else if c.speed = 2 then (if c.fec then 330 else 230)
  else if c.speed = 3 then 290
  else if c.speed = 4 then (if (laneAt s c.firstLane).cfg.rate = 2 then 250 else if c.fec then 250 else 150)
  else if c.speed = 5 then 220
  else if c.speed = 6 then 200
  else 0

/-- Copies of a flow: A, and B with DUAL. -/
def copiesOf (c : FlowOutCfg) : List Bool := if c.dual then [false, true] else [false]

/-- Frame length without FCS of a UDP payload of n bytes: Ethernet 14, VLAN 4, IPv4 20, UDP 8, at least 60 (R143, R309). -/
def udpFrame (c : FlowOutCfg) (n : Nat) : Nat := max 60 (42 + (if c.vlanOn then 4 else 0) + n)

/-- Frame length of an RTP payload of n bytes (RTP header 12 bytes, R143). -/
def rtpFrame (c : FlowOutCfg) (n : Nat) : Nat := udpFrame c (12 + n)

/-- Payload header types of aggregation packets and fragmentation units (R143). -/
def aggregationType (codec : Nat) : Nat := if codec = 0 then 48 else 28
def fragmentType (codec : Nat) : Nat := if codec = 0 then 49 else 29

/-- The fragmentation units of a NAL unit: 3 bytes of headers each, all full but the last (R143). -/
def fragments (codec maxPayload nal : Nat) : List (Nat × RtpPay) :=
  let room := maxPayload - 3
  let body := nal - 2
  let n := ceilDiv body room
  if room = 0 then []
  else (List.range n).map (fun i => (3 + min room (body - i * room), .fragment (fragmentType codec) (i == 0) (i + 1 == n)))

/-- Size of a packet that holds these NAL units: one alone, or an aggregation packet (R143). -/
def packSize : List Nat → Nat
  | [] => 0
  | [n] => n
  | l => 2 + sumBy (fun n => 2 + n) l

/-- A packet that holds these NAL units: its size, and how it carries them (R143). -/
def packOf (codec : Nat) (l : List Nat) : Nat × RtpPay := (packSize l, if l.length = 1 then .single else .aggregation (aggregationType codec) l.length)

/-- RTP payloads of one emission group: greedy packing in order (R143). `cur` is the packet being built, in order. -/
def rtpPack (codec maxPayload : Nat) : List Nat → List Nat → List (Nat × RtpPay)
  | cur, [] => if cur.isEmpty then [] else [packOf codec cur]
  | cur, n :: r =>
    if maxPayload < n then (if cur.isEmpty then [] else [packOf codec cur]) ++ fragments codec maxPayload n ++ rtpPack codec maxPayload [] r
    else if cur.isEmpty || decide (packSize (cur ++ [n]) ≤ maxPayload) then rtpPack codec maxPayload (cur ++ [n]) r
    else packOf codec cur :: rtpPack codec maxPayload [n] r

/-- Transport packets of a byte string whose first packet loses `extra` bytes to an adaptation field. -/
def tsPackets (bytes extra : Nat) : Nat := if bytes ≤ 184 - extra then 1 else 1 + ceilDiv (bytes - (184 - extra)) 184

/-- Frames of n transport packets: seven to a datagram, the last holding the rest (R144). -/
def tsFrames (c : FlowOutCfg) (n : Nat) : List Nat :=
  (List.range (ceilDiv n 7)).map (fun i => let k := min 7 (n - 7 * i); if c.kind = 2 then rtpFrame c (188 * k) else udpFrame c (188 * k))

/-- Bytes of one ST 302 PES packet of 1 ms: PES header 14, audio header 4, 48 samples of 7 bytes a pair (R381). -/
def st302Bytes (buses : Nat) : Nat := 18 + 48 * 7 * (buses / 2)

/-- Transport packets of a group by PID: PAT, PMT, the NAL units with 4-byte start codes and the 14-byte PES header of slice 0, PCR in an 8-byte adaptation field, ST 302 audio (R144, R381). -/
def groupTs (nals : List Nat) (e : TsExtra) : List Nat :=
  [e.pat.toNat, e.pat.toNat, tsPackets (sumBy (fun n => n + 4) nals + (if e.pes then 14 else 0)) (if e.pcr then 8 else 0), e.audio * tsPackets (st302Bytes e.buses) 0]

/-- An instant in 2⁻³² ns in ticks of a clock of `rate` Hz, fraction dropped (log 35). -/
def clockTicks (rate : Nat) (t : Rat) : Int := Rat.floor (t * (rate : Rat) / nsQ 1000000000)

/-- Frame lengths of a channel group on a flow (R143, R144). -/
def groupFrames (c : FlowOutCfg) (nals : List Nat) (e : TsExtra) : List Nat :=
  if c.kind = 0 then (rtpPack 0 c.maxPayload [] nals).map (fun e => rtpFrame c e.1) else tsFrames c (sumBy id (groupTs nals e))

/-- T_ref of the picture at a picture's display position (R126, R143). -/
def displayTref (x : Chan) (period : Rat) (q : Pic) : Rat :=
  match x.run.pics.get? q.display with
  | some p => (p.tref : Rat)
  | none => match x.input.pending[q.display - x.run.nextPic]? with
    | some e => if x.run.nextPic ≤ q.display then (e.1 : Rat) else (q.tref : Rat)
    | none => (q.tref : Rat) + nsQ ((((q.display : Int) - (q.number : Int) : Int) : Rat) * period)

/-- What the packets of a channel group carry (R143, R144, R381). -/
def groupInfo (s : State) (x : Chan) (k : Ctl) (q : Pic) (fo : FlowOutCfg) (nals : List Nat) (e : TsExtra) (due : Rat) (last : Bool) : GroupInfo :=
  let shown := displayTref x k.g.period q
  let p := nsQ k.g.period
  let g : Nat := if q.coding.gop.structure' = 2 then 2 ^ q.coding.gop.miniGop else 1
  let ticks := fun (t : Rat) => (clockTicks 90000 t % 2 ^ 33).toNat
  if fo.kind = 0 then { ts := some (clockTicks 90000 shown % 2 ^ 32).toNat, marker := last, pays := (rtpPack k.prof.codec fo.maxPayload [] nals).map (fun e => e.2) }
  else
    { streamType := if k.prof.codec = 0 then 0x24 else 0x33, pcr := if e.pcr then some (clockTicks 27000000 due % (2 ^ 33 * 300)).toNat else none,
      times := if e.pes then some (ticks (shown + q.delay + (g : Rat) * p), ticks ((q.tref : Rat) + q.delay + p)) else none,
      audioPts := (List.range e.audio).map (fun i =>
        ticks (((e.firstMs + i : Nat) : Rat) * nsQ 1000000 - nsQ ((s.audio.busLat * 1000 : Nat) : Rat) + q.delay + p + nsQ 1000000000 / 180000)),
      packets := groupTs nals e,
      audio := if e.audio = 0 then none else some { buses := x.st302, first := e.firstMs * 48, count := e.audio * 48, es := some (0x0110, 0x06, "BSSD") } }

/-- Hand a group to every copy of flow w; the release instant of a channel group is `due` less the latency of the copy's port (R323, R328, R521). Answers its serial. -/
def addGroup (w : Nat) (due : Rat) (frames : List Nat) (spacing : Rat) (picture slice : Nat) (eob : Bool) (info : GroupInfo) (s : State) : State × Nat :=
  match flowOutAt s w with
  | none => (s, 0)
  | some x =>
    let n := x.nextSerial
    let put := fun (b : Bool) (s : State) => modCopy w b (fun c => { c with groups := c.groups ++
      [{ serial := n, release := if x.cfg.kind ≤ 2 then due - nsQ (macLatency s (copyPort x.cfg b) : Rat) else due, frames := frames, spacing := spacing, picture := picture, slice := slice, eob := eob, info := info }] }) s
    let s := (copiesOf x.cfg).foldl (fun s b => put b s) s
    (modFlowOut s w (fun x => { x with nextSerial := n + 1 }), n)

/-- The group with a serial takes the next sequence and continuity numbers of its flow copy; held and discarded groups count as sent ones (R143, R394). -/
def numberGroup (kind serial : Nat) (c : FlowCopy) : FlowCopy :=
  match c.groups.find? (fun g => g.serial == serial) with
  | none => c
  | some g =>
    { c with
      groups := c.groups.map (fun y => if y.serial = serial then { y with seq := c.nextSeq, cc := c.cc } else y),
      nextSeq := if kind = 1 then c.nextSeq else (c.nextSeq + g.frames.length) % 65536,
      cc := (List.range 4).map (fun i => (c.cc.getD i 0 + g.info.packets.getD i 0) % 16) }

/-- Headers of frame number i of a group (R143, R309). -/
def frameHdr (s : State) (c : FlowOutCfg) (b : Bool) (g : Group) (i : Nat) : FrameHdr :=
  { src := (portAt s (copyPort c b)).cfg.ip, dst := if b then c.destB else c.destA, udpSrc := c.udpSrc, udpDst := if b then c.udpDstB else c.udpDstA, dscp := c.dscp,
    vlan := if c.vlanOn then some (c.vlanId, c.pcp) else none,
    rtp := if c.kind = 1 then none else
      some { pt := c.pt, seq := (g.seq + i) % 65536, ts := g.info.ts, marker := if c.kind = 0 then some (g.info.marker && i + 1 == g.frames.length) else none, ssrc := c.ssrc },
    pay := g.info.pays[i]?,
    transport := if (c.kind = 1 ∨ c.kind = 2) ∧ i = 0 then some (g.info, g.cc) else none }

end Sys2Proof.Machine
end

