-- ==== Sys2Proof/Machine/CrcUnits.lean ====
section
/-! DEFINITION. The general check-value units (R431 to R436). -/

namespace Sys2Proof.Machine

/-- Check-value unit u. -/
def crcAt (s : State) (u : Nat) : CrcUnit := s.crc.getD u {}

/-- Replace unit u. -/
def setCrc (u : Nat) (x : CrcUnit) (s : State) : State := { s with crc := s.crc.set u x }

/-- A running value of an algorithm: 32 bits for ALG 0 (R434). -/
def crcWidth (alg v : Nat) : DWord := BitVec.ofNat 64 (if alg = 0 then v % 2 ^ 32 else v)

/-- A change of owner, or the reset of the owner, loads the initial value and the reset widths (R436). -/
def crcReload (x : CrcUnit) : CrcUnit := { x with dataBytes := 4, foldBytes := 8, value := BitVec.ofNat 64 (crcInitial x.alg), heldHi := none }

/-- CRC_CTL[u] receives v from f (R431, Table 16.6): only the owner writes, PF0 alone changes OWNER. -/
def writeCrcCtl (f u v : Nat) (s : State) : State :=
  let x := crcAt s u
  let own := x.owner = f
  if !hostUp s ∨ (!own ∧ f ≠ 0) then s
  else
    let alg := bitsOf v 1 0
    let y := if own then { x with alg := if alg = 3 then x.alg else alg, dataBytes := bitsOf v 7 4, foldBytes := bitsOf v 11 8 } else x
    if f = 0 ∧ bitsOf v 20 16 ≠ x.owner then setCrc u (crcReload { y with owner := bitsOf v 20 16 }) s
    else if own then setCrc u (if bitOf v 12 then { y with value := BitVec.ofNat 64 (crcInitial y.alg), heldHi := none } else y) s
    else s

/-- CRC_RUNNING[u] receives v from f (R434): a high half is held for the next low half; 8 bytes set both. -/
def writeCrcRunning (f u : Nat) (hi : Bool) (size v : Nat) (s : State) : State :=
  let x := crcAt s u
  if !hostUp s ∨ x.owner ≠ f then s
  else if hi then (if x.alg = 0 then s else setCrc u { x with heldHi := some (BitVec.ofNat 32 v) } s)
  else if size = 8 then setCrc u { x with value := crcWidth x.alg v, heldHi := none } s
  else
    let h := match x.heldHi with | some h => h.toNat | none => x.value.toNat / 2 ^ 32
    setCrc u { x with value := crcWidth x.alg (v % 2 ^ 32 + h * 2 ^ 32), heldHi := none } s

/-- Bytes enter unit u (R432, R433). -/
def crcTake (u : Nat) (bs : List Byte) (s : State) : State :=
  let x := crcAt s u
  setCrc u { x with value := BitVec.ofNat 64 (crcRun x.alg x.value.toNat bs) } s

/-- Bytes of a width field: 0 means 8 (Table 16.6). -/
def crcBytes (n : Nat) : Nat := if n = 0 then 8 else min n 8

/-- CRC_FOLD[u] or CRC_DATA[u] receives v from f with one aligned 8-byte access; another size is ignored (R433, R435, R491). -/
def writeCrcBytes (f u size v n : Nat) (s : State) : State :=
  if !hostUp s ∨ (crcAt s u).owner ≠ f ∨ size ≠ 8 then s else crcTake u (le (crcBytes n) v) s

/-- CRC_INIT (R434, R436): f writes v, with INIT 1, to CRC_CTL[u]. -/
def execCrcInit (f : Fn) (u : Fin 12) (v : Word) (s : State) : Host.Outcome State Fault Refusal := .next (writeCrcCtl f.val u.val (v ||| 0x1000).toNat s)
/-- CRC_OWNER_CHANGE (R431, R436): f writes v to CRC_CTL[u]. -/
def execCrcOwnerChange (f : Fn) (u : Fin 12) (v : Word) (s : State) : Host.Outcome State Fault Refusal := .next (writeCrcCtl f.val u.val v.toNat s)
/-- CRC_RUNNING_WRITE (R434). -/
def execCrcRunningWrite (f : Fn) (u : Fin 12) (hi : Bool) (size : Nat) (v : DWord) (s : State) : Host.Outcome State Fault Refusal :=
  .next (writeCrcRunning f.val u.val hi size v.toNat s)
/-- CRC_FOLD (R435). -/
def execCrcFold (f : Fn) (u : Fin 12) (size : Nat) (v : DWord) (s : State) : Host.Outcome State Fault Refusal :=
  .next (writeCrcBytes f.val u.val size v.toNat (crcAt s u.val).foldBytes s)
/-- CRC_DATA (R433). -/
def execCrcData (f : Fn) (u : Fin 12) (size : Nat) (v : DWord) (s : State) : Host.Outcome State Fault Refusal :=
  .next (writeCrcBytes f.val u.val size v.toNat (crcAt s u.val).dataBytes s)
/-- CRC_DATA_PORT (R433): all bytes of one write enter in address order. -/
def execCrcDataPort (f : Fn) (u : Fin 12) (bytes : List Byte) (s : State) : Host.Outcome State Fault Refusal :=
  .next (if hostUp s && (crcAt s u.val).owner == f.val then crcTake u.val bytes s else s)

end Sys2Proof.Machine
end

