-- ==== Sys2Proof/Machine/Flags.lean ====
section
/-! DEFINITION. Levels and condition flags that follow from the state: the level of every interrupt source (R282, Table 10.4) and the pending conditions (R284). -/

namespace Sys2Proof.Machine

/-- Clock domains in the order of sources 0 to 7. -/
def clockSources : List ClockDomain := [.isle, .ent, .fab, .hbm, .qdr, .pcie, .time, .ferry]

/-- A lane quad has a lane in fault or without its clock, or is the first quad of a port that is down (R319, R320). -/
def quadLevel (s : State) (q : Nat) : Bool :=
  (List.range 4).any (fun i => (laneAt s (4 * q + i)).fault)
    || (List.range 16).any (fun p => (portAt s p).cfg.speed != 0 && (portAt s p).cfg.firstLane / 4 == q && (portAt s p).down)

/-- An ERROR bit of function f is set (R41). -/
def queueError (s : State) (f : Nat) : Bool := (fnAt s f).sqs.any (fun e => e.2.error) || (fnAt s f).cqs.any (fun e => e.2.error)

/-- A CQ of f with vector v holds a record beyond the head that was written without QUIET (R54). -/
def vectorLevel (s : State) (f v : Nat) : Bool :=
  (fnAt s f).cqs.any (fun e => e.2.active && e.2.vector == v && e.2.occ.any (fun o => o.announces))

/-- A supply monitor is below its threshold (R478). -/
def supplyLevel (s : State) : Bool := s.power.coreCond.present || s.power.bankCond.any (fun e => e.2.present)

/-- Level that the block of source n drives (Table 10.4). -/
def blockLevel (s : State) (n : Nat) : Bool :=
  if n < 8 then (match clockSources[n]? with | some d => clockLost s d && !(s.power.clocksBack.contains d) | none => false)
  else if n < 32 then quadLevel s (n - 8)
  else if n < 40 then (audPortAt s (n - 32)).lostSrc
  else if n = 40 then s.mem.ceSrc
  else if n = 41 then s.mem.ueSrc
  else if n = 42 then s.fab.decValid
  else if n = 43 then s.fab.starved
  else if n = 44 then s.irq.lhLost
  else if n = 45 then s.power.step != 0 || s.power.peakReg != 0
  else if n = 46 then supplyLevel s
  else if n = 47 then s.time.ptp.src
  else if n < 52 then (s.time.capt.getD (n - 48) {}).src
  else if n = 52 then s.pair.src
  else if n = 53 then s.harbour.fault
  else if n = 54 then s.irq.srcs.any (fun e => e.2.fallen)
  else if n = 55 then s.upd.session == .trial || s.upd.boot.fallback
  else if n < 128 then false
  else if n < 192 then (match chanAt s (n - 128) with | some c => c.run.lagoonHigh | none => false)
  else if n < 256 then (match chanAt s (n - 192) with | some c => c.sliceFault | none => false)
  else if n < 320 then (match chanAt s (n - 256) with | some c => c.confidence | none => false)
  else if n < 352 then (match decAt s (n - 320) with | some d => d.hashFailSrc | none => false)
  else if n < 384 then queueError s (n - 352)
  else if n < 416 then (fnAt s (n - 384)).surfProtect
  else if n < 512 then false
  else vectorLevel s ((n - 512) / 16) ((n - 512) % 16)

/-- Sources whose condition the manual asserts and does not say when it ends: its end is open (log 16). -/
def endOpen (n : Nat) : Bool :=
  n == 40 || n == 41 || n == 44 || n == 47 || n == 52 || n == 53 || (decide (192 ≤ n) && decide (n < 352)) || (decide (384 ≤ n) && decide (n < 416))

/-- The condition of such a source ends. -/
def endCondition (n : Nat) (s : State) : State :=
  if n = 40 then { s with mem.ceSrc := false }
  else if n = 41 then { s with mem.ueSrc := false }
  else if n = 44 then { s with irq.lhLost := false }
  else if n = 47 then { s with time.ptp.src := false }
  else if n = 52 then { s with pair.src := false }
  else if n = 53 then { s with harbour.fault := false }
  else if n < 192 then s
  else if n < 256 then modChan s (n - 192) (fun c => { c with sliceFault := false })
  else if n < 320 then modChan s (n - 256) (fun c => { c with confidence := false })
  else if n < 352 then modDec s (n - 320) (fun d => { d with hashFailSrc := false })
  else if 384 ≤ n ∧ n < 416 then modFn s (n - 384) (fun x => { x with surfProtect := false })
  else s

/-- A source's stored state; an unlisted one is as after reset. -/
def srcAt (s : State) (n : Nat) : Src := s.irq.srcs.getD n {}

/-- Owner of a source: PF0 of device sources, the owner of the object, the function of a queue source (R282, Table 10.4). -/
def srcOwner (s : State) (n : Nat) : Option Nat :=
  if n < 56 then some 0
  else if n < 128 then none
  else if n < 192 then (chanAt s (n - 128)).map (fun c => c.owner.val)
  else if n < 256 then (chanAt s (n - 192)).map (fun c => c.owner.val)
  else if n < 320 then (chanAt s (n - 256)).map (fun c => c.owner.val)
  else if n < 352 then (decAt s (n - 320)).map (fun d => d.owner.val)
  else if n < 384 then some (n - 352)
  else if n < 416 then some (n - 384)
  else if n < 512 then none
  else some ((n - 512) / 16)

/-- Target of a source: written for device sources, the owner otherwise (R287, Table 10.8). -/
def srcTarget (s : State) (n : Nat) : Option Nat := if n < 56 then some (srcAt s n).target else srcOwner s n

/-- Vector of a source: fixed at v for queue source 512 + 16f + v (R287). -/
def srcVector (s : State) (n : Nat) : Nat := if n < 512 then (srcAt s n).vector else (n - 512) % 16

/-- Pending: not ACTIVE, and its level or PEND_SW is 1 (R284). -/
def srcPending (x : Src) : Bool := x.claimer.isNone && (x.level || x.pendSw)

/-- Pending and unmasked. -/
def srcReady (x : Src) : Bool := srcPending x && !x.masked

/-- MSI-X entry v of f. -/
def msixAt (x : FnState) (v : Nat) : MsixEntry := x.msix.getD v {}

/-- Function f is deliverable on vector v (R291). -/
def deliverable (s : State) (f v : Nat) : Bool :=
  let x := fnAt s f
  !x.d3hot && x.busMaster && x.msixEnable && !x.functionMask && !(bitOf (msixAt x v).control 0)

/-- Sources that are ready for target t, in ascending number. -/
def readyFor (s : State) (t : Nat) : List Nat :=
  (s.irq.srcs.filter (fun e => srcReady e.2 && srcTarget s e.1 == some t)).map (fun e => e.1)

/-- A ready source is on vector v of function f (R290). -/
def vectorReady (s : State) (f v : Nat) : Bool := (readyFor s f).any (fun n => srcVector s n == v)

/-- Pending bits of f: vectors with a ready source while f is not deliverable (R291, R501), and vectors with a source held at a fallback core (R292). -/
def pendingBits (s : State) (f : Nat) : Nat :=
  sumBy (fun v => if (vectorReady s f v && !deliverable s f v) || s.irq.srcs.any (fun e => e.2.fallen && srcTarget s e.1 == some f && srcVector s e.1 == v) then 2 ^ v else 0) (List.range 16)

end Sys2Proof.Machine
end

