-- ==== Sys2Proof/Machine/Irq.lean ====
section
/-! DEFINITION. The interrupt controller (R282 to R295). -/

namespace Sys2Proof.Machine

/-- Change one source. -/
def modSrc (n : Nat) (g : Src → Src) (s : State) : State := { s with irq.srcs := s.irq.srcs.set n (g (srcAt s n)) }

/-- A core leaves SLEEP when a source is claimable at its target or its slot fills, and sleeps when neither holds and it runs no thread (R274). -/
def coreSettle (s : State) : State :=
  (List.range 8).foldl (fun s c =>
    let x := coreAt s c
    if x.st == .reset then s
    else
      let awake := x.running.isSome || x.slot.isSome || !(readyFor s (32 + c)).isEmpty
      let st := if awake then CoreState.run else .sleep
      if x.st == st then s else modCore s c (fun x => { x with st := st })) s

/-- A NOTIFIED vector with no ready source returns to IDLE (R290). -/
def vectorSettle (s : State) : State :=
  { s with fns := s.fns.mapVals (fun f x => { x with notified := BitVec.ofNat 16 (sumBy (fun v => if x.notified.getLsbD v && vectorReady s f v then 2 ^ v else 0) (List.range 16)) }) }

/-- A source is ready for a host function that is not deliverable (R292). -/
def stuck (s : State) (n : Nat) (x : Src) : Bool :=
  srcReady x && (match srcTarget s n with | some t => decide (t < 32) && !deliverable s t (srcVector s n) | none => false)

/-- The 1 ms of R292 counts from the later of becoming pending and the target becoming undeliverable. -/
def stuckSettle (s : State) : State :=
  { s with irq.srcs := s.irq.srcs.mapVals (fun n x =>
      if stuck s n x then (if x.stuckSince.isNone then { x with stuckSince := some s.now } else x)
      else if x.stuckSince.isSome then { x with stuckSince := none } else x) }

/-- Sources newly ready for a function in D3hot with PME_En set also cause a PM_PME message (R291). -/
def pmeFor (old s : State) : State :=
  s.irq.srcs.foldl (fun t e =>
    match srcTarget s e.1 with
    | some f => if decide (f < 32) && srcReady e.2 && !(srcReady (srcAt old e.1)) && (fnAt s f).d3hot && (fnAt s f).pmeEn then emit t (.pme f) else t
    | none => t) s

/-- What the controller evaluates after its state has changed: PME, vectors, the redirection count and core wakes (R286 order 5). -/
def irqSettle (old s : State) : State := coreSettle (stuckSettle (vectorSettle (pmeFor old s)))

/-- Change the controller and evaluate it. -/
def irqDo (g : State → State) (s : State) : State := irqSettle s (g s)

/-- SOURCE_LEVEL_CHANGE (R284): the synchronised level of source n follows its block; a rising level of an ACTIVE source sets REPEND.
A condition whose end the manual leaves open may have ended when its level is sampled again: a free value says so (log 16). -/
def sampleLevel (n : Nat) (s : State) : State :=
  let s := if endOpen n && blockLevel s n && (srcAt s n).level then
      let ends := freshValue s % 2 == 1
      let s := spendFree s
      if ends then endCondition n s else s
    else s
  let l := blockLevel s n
  modSrc n (fun x => { x with level := l, repend := x.repend || (l && !x.level && x.claimer.isSome) }) s
def execSourceLevelChange (n : Source) (s : State) : Host.Outcome State Fault Refusal :=
  .next (act s fun s => if clockLost s .ctl then s else irqDo (sampleLevel n.val) s)

/-- MSI_X_MESSAGE (R290, R501): the message for vector v of f is sent once its conditions hold and the link is in L0 (R291). -/
def sendMsix (f v : Nat) (s : State) : State :=
  let x := fnAt s f
  if hostUp s && !clockLost s .ctl && s.power.link == .l0 && !(x.notified.getLsbD v) && vectorReady s f v && !(x.timers.has v) && deliverable s f v then
    let e := msixAt x v
    let d := x.modDelay.getD v 0
    emit (setFn s f { x with notified := x.notified ||| BitVec.ofNat 16 (2 ^ v), timers := if d = 0 then x.timers else x.timers.set v (s.now + ticksUs d) })
      (.msix f v e.addr e.data)
  else s
def execMsiXMessage (f : Fn) (v : Fin 16) (s : State) : Host.Outcome State Fault Refusal := .next (sendMsix f.val v.val s)

/-- MODERATION_TIMER_EXPIRY (R290). -/
def timerExpiry (f v : Nat) (s : State) : State :=
  match (fnAt s f).timers.get? v with
  | some t => if t ≤ s.now then modFn s f (fun x => { x with timers := x.timers.erase v }) else s
  | none => s
def execModerationTimerExpiry (dt : Nat) (f : Fn) (v : Fin 16) (s : State) : Host.Outcome State Fault Refusal :=
  .next (actAfter dt s (timerExpiry f.val v.val))

/-- Claim source n for target t (R284). -/
def claimSrc (n t : Nat) (s : State) : State := modSrc n (fun x => { x with claimer := some t, pendSw := false, repend := false }) s

/-- The core that takes redirected sources: IRQ_FALLBACK CORE, or the lowest-numbered core that is up (R292, R293). -/
def fallbackTarget (s : State) : Nat :=
  if (coreAt s s.irq.fallbackCore).st != .reset then s.irq.fallbackCore
  else ((List.range 8).find? (fun c => (coreAt s c).st != .reset)).getD s.irq.fallbackCore

/-- REDIRECTION (R292, R293): after 1 ms of a host target that is not deliverable, or at once for a core in RESET, the fallback core claims the source. -/
def redirect (n : Nat) (s : State) : State :=
  let x := srcAt s n
  let host := match x.stuckSince with | some t => decide (t + ticksMs 1 ≤ s.now) && stuck s n x | none => false
  let core := srcReady x && (match srcTarget s n with | some t => decide (32 ≤ t) && (coreAt s (t - 32)).st == .reset | none => false)
  if !host && !core then s
  else
    let f := (srcTarget s n).getD 0
    let s := modSrc n (fun x => { x with fallen := host }) (claimSrc n (32 + fallbackTarget s) s)
    let s := { s with irq.redirects := satInc s.irq.redirects 65535 }
    if host then journalAdd s 0 0 f 5 n 0 else s
def execRedirection (dt : Nat) (n : Source) (s : State) : Host.Outcome State Fault Refusal :=
  .next (actAfter dt s fun s => if clockLost s .ctl then s else irqDo (redirect n.val) s)

/-- A source is completed: ACTIVE clears and REPEND moves into PEND_SW (R284). -/
def completeSrc (n : Nat) (s : State) : State := modSrc n (fun x => { x with claimer := none, pendSw := x.repend, repend := false, fallen := false }) s

/-- FALLBACK_COMPLETION (R292): firmware completes a held source once its function is deliverable. -/
def fallbackDone (n : Nat) (s : State) : State :=
  match srcTarget s n with
  | some f => if (srcAt s n).fallen && deliverable s f (srcVector s n) then completeSrc n s else s
  | none => s
def execFallbackCompletion (n : Source) (s : State) : Host.Outcome State Fault Refusal :=
  .next (act s fun s => if clockLost s .ctl then s else irqDo (fallbackDone n.val) s)

/-- The source a claim of target t returns: the highest PRIO, then the lowest number (R289). -/
def claimChoice (s : State) (t : Nat) : Option Nat :=
  (readyFor s t).foldl (fun w n => match w with
    | none => some n
    | some m => if (srcAt s m).prio < (srcAt s n).prio then some n else some m) none

/-- A target's access reaches the controller: a function through the host interface, a core when it is up. -/
def targetUp (s : State) (t : Nat) : Bool :=
  if t < 32 then hostUp s && !clockLost s .ctl else acting s && !clockLost s .ctl && (coreAt s (t - 32)).st != .reset

/-- A register read answers a value (log 4). -/
def answerRead (f offset value : Nat) (s : State) : State := { emit s (.read f offset value) with readData := some value }

/-- A read that the device does not serve yet completes with Unsupported Request (R494). -/
def unserved (f offset : Nat) (s : State) : State :=
  if s.power.on && !s.power.ready && !clockLost s .pcie then emit s (.unsupported f offset) else s

/-- A read of function f reaches the device (R494). -/
def hostRead (f offset : Nat) (k : State → State) (s : State) : State := if hostUp s then k s else unserved f offset s

/-- IRQ_CLAIM (R289): the read claims the chosen source and returns it with VALID, or returns 0. -/
def claim (t : Nat) (s : State) : State :=
  match claimChoice s t with
  | some n => answerRead t 0x040400 (n + 2 ^ 31) (irqDo (claimSrc n t) s)
  | none => answerRead t 0x040400 0 s
def execIrqClaim (t : Fin 40) (s : State) : Host.Outcome State Fault Refusal := .next (if targetUp s t.val then claim t.val s else if t.val < 32 then unserved t.val 0x040400 s else s)

/-- IRQ_DONE (R284, R285): completes the source for its claimer; any other completion is counted. -/
def irqDoneBy (t n : Nat) (s : State) : State :=
  if (srcAt s n).claimer = some t then completeSrc n s
  else { s with irq.badCount := s.irq.badCount.set t (satInc (s.irq.badCount.getD t 0) 65535), irq.badLast := s.irq.badLast.set t n }
def execIrqDone (t : Fin 40) (v : Word) (s : State) : Host.Outcome State Fault Refusal :=
  .next (if targetUp s t.val && !(decide (t.val < 32) && (fnAt s t.val).busy) then irqDo (irqDoneBy t.val (bitsOf v.toNat 9 0)) s else s)

/-- The read of IRQ_BADDONE_CNT returns LAST and COUNT and clears COUNT (R285). -/
def readBadCount (f : Nat) (s : State) : State :=
  { answerRead f 0x040408 (s.irq.badCount.getD f 0 + s.irq.badLast.getD f 0 * 65536) s with irq.badCount := s.irq.badCount.set f 0 }

/-- IRQ_BADDONE_CNT (R285, Table 10.10): the read returns LAST and COUNT and clears COUNT. -/
def execIrqBaddoneCnt (f : Fn) (s : State) : Host.Outcome State Fault Refusal :=
  .next (hostRead f.val 0x040408 (readBadCount f.val) s)

/-- A write of function f to an interrupt register is taken (R494). -/
def irqWritable (s : State) (f : Nat) : Bool := hostUp s && !clockLost s .ctl && !(fnAt s f).busy

/-- Sources of word k whose bit of v is set and that f owns (R295). -/
def ownedBits (s : State) (f k v : Nat) : List Nat :=
  ((List.range 32).filter (fun j => bitOf v j)).map (fun j => 32 * k + j) |>.filter (fun n => srcOwner s n == some f)

/-- Apply a change to every source of word k that v names and f owns. -/
def irqBits (f k v : Nat) (g : Src → Src) (s : State) : State :=
  if irqWritable s f then irqDo (fun s => (ownedBits s f k v).foldl (fun s n => modSrc n g s) s) s else s

/-- IRQ_MASK_SET (Table 10.7): a 1 masks. -/
def execIrqMaskSet (f : Fn) (k : Fin 32) (v : Word) (s : State) : Host.Outcome State Fault Refusal :=
  .next (irqBits f.val k.val v.toNat (fun x => { x with masked := true }) s)
/-- IRQ_MASK_CLR (Table 10.7): a 1 unmasks. -/
def execIrqMaskClr (f : Fn) (k : Fin 32) (v : Word) (s : State) : Host.Outcome State Fault Refusal :=
  .next (irqBits f.val k.val v.toNat (fun x => { x with masked := false }) s)
/-- IRQ_PEND_SET (R284): a 1 sets PEND_SW, or REPEND of an ACTIVE source. -/
def execIrqPendSet (f : Fn) (k : Fin 32) (v : Word) (s : State) : Host.Outcome State Fault Refusal :=
  .next (irqBits f.val k.val v.toNat (fun x => if x.claimer.isSome then { x with repend := true } else { x with pendSw := true }) s)
/-- IRQ_PEND_CLR (R284): a 1 clears PEND_SW and REPEND. -/
def execIrqPendClr (f : Fn) (k : Fin 32) (v : Word) (s : State) : Host.Outcome State Fault Refusal :=
  .next (irqBits f.val k.val v.toNat (fun x => { x with pendSw := false, repend := false }) s)

/-- IRQ_ROUTE[n] receives v from f (R287, R295): TARGET of device sources, PRIO of the owner's sources, VECTOR of its device and object sources. -/
def writeRoute (f n v : Nat) (s : State) : State :=
  if srcOwner s n ≠ some f then s
  else
    let t := bitsOf v 5 0
    modSrc n (fun x => { x with prio := bitsOf v 10 8, vector := if n < 512 then bitsOf v 19 16 else x.vector,
                                target := if n < 56 ∧ (t = 0 ∨ (32 ≤ t ∧ t ≤ 39)) then t else x.target }) s
def execIrqRoute (f : Fn) (n : Source) (v : Word) (s : State) : Host.Outcome State Fault Refusal :=
  .next (if irqWritable s f.val then irqDo (writeRoute f.val n.val v.toNat) s else s)

/-- IRQ_ROUTE[n] as read (Table 10.8). -/
def routeValue (s : State) (n : Nat) : Nat :=
  let x := srcAt s n
  (srcTarget s n).getD 0 + x.prio * 256 + srcVector s n * 65536 + x.fallen.toNat * 2 ^ 24 + (srcPending x).toNat * 2 ^ 25
    + x.claimer.isSome.toNat * 2 ^ 26 + x.repend.toNat * 2 ^ 27

/-- Reset of function f in the controller (R294): its sources inactive, masked, at PRIO and VECTOR 0; its claims dropped; its vectors IDLE, its timers stopped. -/
def irqResetFn (f : Nat) (s : State) : State :=
  irqDo (fun s =>
    let s := { s with irq.srcs := s.irq.srcs.mapVals (fun n x =>
        if decide (56 ≤ n) && srcOwner s n == some f then { x with pendSw := false, repend := false, claimer := none, fallen := false, masked := true, prio := 0, vector := 0 }
        else if x.claimer == some f then { x with claimer := none, pendSw := x.repend, repend := false }
        else x) }
    modFn s f (fun x => { x with notified := 0, timers := [] })) s

end Sys2Proof.Machine
end

