-- ==== Sys2Proof/Machine/System.lean ====
section
/-! DEFINITION. System commands without device-wide answers: NOP, SNAPSHOT_CONFIG, fences, EVENT_SUBSCRIBE (R57, R59, R60, R66 to R71). -/

namespace Sys2Proof.Machine

/-- NOP (R57). -/
def meanNop : Meaning := { run := fun _ s => okDone s 0 }

/-- Tide periods by code, in units of 62.5 µs (R59). -/
def periodOfCode (c : Nat) : Nat := if c = 1 then 1 else if c = 2 then 2 else if c = 3 then 4 else 8

/-- The code of a period (R59, Table 2.16). -/
def periodCode (p : Nat) : Nat := if p = 1 then 1 else if p = 2 then 2 else if p = 4 then 3 else 4

/-- No channel runs (R25): every channel is IDLE. -/
def allIdle (s : State) : Bool := s.chans.all (fun e => e.2.st == .idle)

/-- SNAPSHOT_CONFIG (R25, R59). -/
def runSnapshotConfig (ci : CmdIn) (s : State) : CmdRes :=
  let code := fld ci.p 2 2 0
  if 4 < code then refuse s stBadParam
  else if code = 0 then .pend s .tide 0 0
  else
    let p := periodOfCode code
    if p ≠ s.time.period ∧ !(allIdle s && !pairOn s) then refuse s stBadState
    else
      let s := match s.time.periodChange with
        | some c => endCmd c.serial stCancelled 0 0 { s with time.periodChange := none }
        | none => s
      if p = s.time.period then .pend s .tide 0 0
      else .pend { s with time.periodChange := some { period := p, serial := ci.cmd.serial } } .period 0 0

def meanSnapshotConfig : Meaning :=
  { deny := fun ci _ => fld ci.p 2 2 0 != 0 && ci.f != 0, run := runSnapshotConfig }

/-- FENCE_WAITs whose fence has reached the awaited value complete (R68), those included that expire in this very cycle; one that expired earlier ends by R69 (log 1). -/
def resolveFences (f n : Nat) (s : State) : State :=
  let v := (fenceAt s f n).value
  let (r0, r1) := fenceResults s f n
  ((allCmds s).filter (fun e => match e.2.wait with
      | .fence m o want deadline => m == n && o.val == f && decide (want ≤ v) && decide (s.now ≤ deadline)
      | _ => false)).foldl (fun s e => completeCmd e.2.serial stOk 0 r0 r1 [] true s) s

/-- FENCE_SIGNAL (R66, R67). -/
def runFenceSignal (ci : CmdIn) (s : State) : CmdRes :=
  let n := fld ci.p 2 9 0
  let v := dword ci.p 3
  let fe := fenceAt s ci.f n
  let fl := flowNumber ci.key
  let (o0, o1) := fenceResults s ci.f n
  if v ≤ fe.value ∨ (fe.flow.isSome ∧ fe.flow ≠ some fl) then .done s stFence 0 o0 o1
  else
    let s := modFn s ci.f (fun x => { x with fences := x.fences.set n { value := v, flow := some fl } })
    .done (resolveFences ci.f n s) stOk 0 (v % 2 ^ 32) (v / 2 ^ 32)

def meanFenceSignal : Meaning := { run := runFenceSignal }

/-- FENCE_WAIT (R68, R69). -/
def runFenceWait (ci : CmdIn) (s : State) : CmdRes :=
  let n := fld ci.p 2 9 0
  let owner := fld ci.p 2 20 16
  let want := dword ci.p 3
  let ms := if word ci.p 5 = 0 then 1000 else word ci.p 5
  if 60000 < ms then refuse s stBadParam
  else
    let (r0, r1) := fenceResults s owner n
    if want ≤ (fenceAt s owner n).value then .done s stOk 0 r0 r1
    else .pend s (.fence n (Fin.ofNat 32 owner) want (s.now + ticksMs ms)) 0 0

def meanFenceWait : Meaning :=
  { deny := fun ci _ => ci.f != 0 && fld ci.p 2 20 16 != ci.f, run := runFenceWait }

/-- FENCE_WAIT_TIMEOUT (R69): the wait at the front of flow q has expired unresolved. Its record follows once the cycle of the expiry is over, since a signal of that cycle still resolves it. -/
def fenceTimeout (q : FlowRef) (s : State) : State :=
  match flowCmds s (flowKey q) with
  | c :: _ => match c.wait with
    | .fence n o _ deadline =>
      if deadline < s.now ∧ fwUp s then
        let (r0, r1) := fenceResults s o.val n
        completeCmd c.serial stTimeout 0 r0 r1 [] true s
      else s
    | _ => s
  | [] => s

/-- Event kinds that only PF0 may subscribe to (Table 2.15). -/
def eventPf0 (kind : Nat) : Bool := kind == 6 || kind == 7

/-- The owner of the object of an event kind, if there is such an object (Table 2.15). -/
def eventOwner (s : State) (kind object : Nat) : Option Nat :=
  if kind = 0 then (s.time.triggers.get? object).map (fun t => t.owner.val)
  else if kind = 2 then (chanAt s object).map (fun c => c.owner.val)
  else if kind = 3 then (outAt s object).map (fun o => o.owner.val)
  else if kind = 4 then (decAt s object).map (fun d => d.owner.val)
  else none

/-- The kind names an object (Table 2.15). -/
def eventHasObject (kind : Nat) : Bool := kind == 0 || kind == 2 || kind == 3 || kind == 4

/-- EVENT_SUBSCRIBE is denied: a KIND of PF0 from a VF, or an object of another function (R60). -/
def denyEventSubscribe (ci : CmdIn) (s : State) : Bool :=
  let kind := fld ci.p 2 15 8
  let object := fld ci.p 3 15 0
  !(flag ci.p 2 0) && ((eventPf0 kind && ci.f != 0) || (eventHasObject kind && (match eventOwner s kind object with | some o => o != ci.f | none => false)))

/-- EVENT_SUBSCRIBE (R60). DESIGN CHOICE (log 154), where the manual names no outcome: KIND 0 on a trigger that no function owns and a CQ from the function's quota on give ST_BAD_PARAM; OP 1 on a subscription that is being cancelled gives ST_BAD_STATE. -/
def runEventSubscribe (ci : CmdIn) (s : State) : CmdRes :=
  let x := fnAt s ci.f
  if flag ci.p 2 0 then
    let i := fld ci.p 4 5 0
    match x.subs.get? i with
    | none => refuse s stBadParam
    | some u =>
      if u.cancelling then refuse s stBadState
      else
        let s := modFn s ci.f (fun x => { x with subs := x.subs.modify i (fun u => { u with cancelling := true }) })
        if u.occupied then .pend s (.slotRelease i) 0 0
        else okDone (modFn s ci.f (fun x => { x with subs := x.subs.erase i })) 1
  else
    let kind := fld ci.p 2 15 8
    let object := fld ci.p 3 15 0
    let cq := fld ci.p 2 25 16
    if 7 < kind then refuse s stBadParam
    else if eventHasObject kind && (eventOwner s kind object).isNone then refuse s stBadParam
    else if !eventHasObject kind && object != 0 then refuse s stBadParam
    else if !(cqIn s ci.f cq) then refuse s stBadParam
    else if !(cqAt x cq).active then refuse s stBadState
    else match x.subs.lowestFree 64 with
      | none => refuse s stNoResource
      | some i =>
        if cqFree x cq = 0 then refuse s stNoResource
        else
          let u : Sub := { kind := kind, object := object, cq := cq, flow := flowOf ci.p, sq := ci.cmd.sq, quiet := quietOf ci.p }
          .done (modFn s ci.f (fun x => { x with subs := x.subs.set i u })) stOk 1 i 0

def meanEventSubscribe : Meaning := { deny := denyEventSubscribe, run := runEventSubscribe }

/-- NOP (R57): the front command of flow q completes with ST_OK, progress 0. -/
def execNop (q : FlowRef) (b : Bus) (s : State) : Host.Outcome State Fault Refusal := .next (startRow 0x0100 meanNop q b s)
/-- SNAPSHOT_CONFIG (R59). -/
def execSnapshotConfig (q : FlowRef) (b : Bus) (s : State) : Host.Outcome State Fault Refusal := .next (startRow 0x0102 meanSnapshotConfig q b s)
/-- FENCE_SIGNAL (R67). -/
def execFenceSignal (q : FlowRef) (b : Bus) (s : State) : Host.Outcome State Fault Refusal := .next (startRow 0x0103 meanFenceSignal q b s)
/-- FENCE_WAIT (R68). -/
def execFenceWait (q : FlowRef) (b : Bus) (s : State) : Host.Outcome State Fault Refusal := .next (startRow 0x0104 meanFenceWait q b s)
/-- FENCE_WAIT_TIMEOUT (R69). -/
def execFenceWaitTimeout (dt : Nat) (q : FlowRef) (s : State) : Host.Outcome State Fault Refusal := .next (actAfter dt s (fenceTimeout q))
/-- EVENT_SUBSCRIBE (R60). -/
def execEventSubscribe (q : FlowRef) (b : Bus) (s : State) : Host.Outcome State Fault Refusal := .next (startRow 0x0106 meanEventSubscribe q b s)

end Sys2Proof.Machine
end

