-- ==== Sys2Proof/Machine/ResetEnd.lean ====
section
/-! DEFINITION. The end of a per-function reset: steps 3 to 6 of R424, once the objects of step 2 have stopped (R294, R424, R425, R428, R436). -/

namespace Sys2Proof.Machine

/-- The objects of f have stopped (R424 step 2). -/
def resetStopped (f : Nat) (s : State) : Bool :=
  let mine := fun (o : Fn) => o.val == f
  s.chans.all (fun e => !(mine e.2.owner) || e.2.st == .idle) && !(s.outs.any (fun e => mine e.2.owner))
    && !(s.net.flowsIn.any (fun e => mine e.2.owner)) && !(s.net.flowsOut.any (fun e => mine e.2.owner && !e.2.removed)) && !(s.audio.resets.contains f)

/-- Step 3 of R424: one fetched, uncompleted command ends with ST_RESET; an FLR writes no record and journals its TAG and PROGRESS (R425). -/
def resetCommand (f : Nat) (flr : Bool) (s : State) (c : Cmd) : State :=
  if flr && !c.mirrored then
    let s := journalAdd s 10 0 f 7 (opcodeOf c.packet) ((tagOf c.packet).toNat + progressOf s c % 65536 * 2 ^ 32)
    match findCmd s c.serial with
    | some (k, _) => setFlow s k ((flowCmds s k).filter (fun x => x.serial != c.serial))
    | none => s
  else
    let (r0, r1) := match c.wait with | .fence n o _ _ => fenceResults s o.val n | _ => (0, 0)
    endCmd c.serial stReset r0 r1 s

/-- Step 3 of R424: every fetched, uncompleted command of f ends. -/
def resetCommands (f : Nat) (s : State) : State :=
  let cmds := ((allCmds s).filter (fun e => e.2.fn.val == f && e.2.ferry.isNone)).map (fun e => e.2)
  let s := cmds.foldl (resetCommand f (fnAt s f).resetFlr) s
  modFn s f (fun x => { x with resetCount := some (cmds.filter (fun c => !c.mirrored)).length })

/-- The records of step 3 have been written: none waits for the link (R8, R428). Records that a PCIe error holds are not waited for, since the queue registers take no write while BUSY is 1 (R494); an FLR waits for none (R425). -/
def resetRecorded (f : Nat) (s : State) : Bool :=
  (fnAt s f).resetFlr || (fnAt s f).cqs.all (fun e => e.2.held.isEmpty || e.2.holding)

/-- A record that was never written is journaled: its TAG and PROGRESS, class 10 (R425, R428). -/
def journalHeld (f : Nat) (s : State) (h : HeldRec) : State :=
  if h.sub.isSome then s else journalAdd s 10 0 f 7 h.record.opcode (h.record.tag.toNat + h.record.progress % 65536 * 2 ^ 32)

/-- Steps 4 to 6 of R424: interrupts and fences are reset, surfaces and queues go, BUSY clears, the FUNC_RESETs complete. The function's register latches stay: R424 and R502 do not name them (DESIGN CHOICE, log 121). -/
def resetFinish (f : Nat) (s : State) : State :=
  let count := (fnAt s f).resetCount.getD 0
  let s := ((fnAt s f).cqs.flatMap (fun e => e.2.held)).foldl (journalHeld f) s
  let s := irqResetFn f s
  let s := { s with chans := s.chans.keep (fun _ x => !(x.owner.val == f)), surfs := s.surfs.keep (fun _ x => !(x.owner.val == f)),
                    arrivals := s.arrivals.keep (fun k _ => !(k / 256 == f)), crc := s.crc.mapVals (fun _ (u : CrcUnit) => if u.owner = f then crcReload u else u) }
  let s := modFn s f (fun x => { x with fences := [], subs := [], sqs := [], cqs := [], snapK := 0, snapHead := 0, snapTail := 0, snapTide := 0, page0 := [], page1 := [],
                                        busy := false, resetFlr := false, resetCount := none })
  let done := (allCmds s).filterMap (fun e => match e.2.wait with | .funcReset t m => if t = f then some (e.2.serial, m) else none | _ => none)
  done.foldl (fun s e => completeCmd e.1 stOk (if e.2 then 0 else count) 0 0 [] true s) s

/-- The reset of f goes on as far as it can (R424: each step completes before the next begins). -/
def settleReset (s : State) (f : Nat) : State :=
  if !((fnAt s f).busy && resetStopped f s) then s
  else
    let s := if (fnAt s f).resetCount.isNone then resetCommands f s else s
    if resetRecorded f s then resetFinish f s else s

/-- Resets whose objects have all stopped go on to their end (R424). -/
def settleResets (s : State) : State := s.fns.foldl (fun s e => settleReset s e.1) s

end Sys2Proof.Machine
end

