-- ==== Sys2Proof/Machine/Emission.lean ====
section
/-! DEFINITION. Output flows of a channel, slices leaving the slice queue, end of stream, stops (R86, R94, R98 to R102, R140, R338, R394, R521). -/

namespace Sys2Proof.Machine

/-- A poisoned read: counted in POISON_READS, PF0's memory-uncorrectable source asserted, journaled in class 4 (R248, Table 16.1). -/
def poisonRead (action owner kind index picture : Nat) (s : State) : State :=
  journalAdd { s with mem.poisonReads := inc32 s.mem.poisonReads, mem.ueSrc := true } 4 action owner kind index picture

/-- Output flows that carry the stream of channel c (Table 11.7, KIND 0 to 2). -/
def chanFlows (s : State) (c : Nat) : List Nat :=
  (s.net.flowsOut.filter (fun e => decide (e.2.cfg.kind ≤ 2) && e.2.cfg.srcIndex == c && !e.2.removed)).map (fun e => e.1)

/-- The group with this serial is still queued or held on some copy of flow w. -/
def groupPending (s : State) (w serial : Nat) : Bool :=
  match flowOutAt s w with
  | none => false
  | some x => (copiesOf x.cfg).any (fun b => (copyAt x b).groups.any (fun g => g.serial == serial) || (copyAt x b).held.any (fun g => g.serial == serial))

/-- The holder has reported the end of group `serial` of flow w on every copy (R394). -/
def groupReported (s : State) (w serial : Nat) : Bool :=
  match flowOutAt s w with
  | none => true
  | some x => (copiesOf x.cfg).all (fun b => match s.pair.groupEnds.get? (2 * w + b.toNat) with | some n => decide (serial ≤ n) | none => false)

/-- A slice has left the slice queue: all its groups have ended; with no flow, its emission instant has come. A standby keeps it until the holder reports (R394). -/
def sliceEnded (s : State) (x : SliceQ) : Bool :=
  if x.groups.isEmpty then decide (x.due ≤ localQ s)
  else if isStandby s then x.groups.all (fun g => groupReported s g.1 g.2)
  else x.groups.all (fun g => !(groupPending s g.1 g.2))

/-- Commands that wait on channel c. -/
def chanWaiters (s : State) (c : Nat) : List Cmd :=
  ((allCmds s).filter (fun e => match e.2.wait with
    | .picture d _ => d == c
    | .chanStart d => d == c
    | .chanStop d => d == c
    | _ => false)).map (fun e => e.2)

/-- A channel's state is IDLE again: Isles, load and run are released, counters stay (R94, R171). -/
def chanIdle (c : Nat) (s : State) : State := modChan s c (fun x => { x with st := .idle, run := {}, input := {} })

/-- Remove a channel: its number, settings and ST 302 attachments are free (R103). -/
def chanRemove (c : Nat) (s : State) : State := { s with chans := s.chans.erase c }

/-- The commands that wait on a channel complete: by a stop of shedding or fault all alike; otherwise an abort ends with ST_OK, a drain that it overtook with ST_OK_PARTIAL, and what waited for a picture with ST_CANCELLED (R101, R102, Table 3.3). -/
def endWaiters (c : Nat) (s : State) : State :=
  match chanAt s c with
  | none => s
  | some x =>
    (chanWaiters s c).foldl (fun s d =>
      if x.stopReason = 2 then endCmd d.serial stShed 0 0 s
      else if x.stopReason = 3 then endCmd d.serial stFault 0 0 s
      else match d.wait with
        | .chanStop _ =>
          let n := progressOf s d
          completeCmd d.serial (if x.run.aborting && !(flag d.packet 3 0) then stOkPartial else stOk) n 0 0 [] true s
        | _ => endCmd d.serial stCancelled 0 0 s) s

/-- What waits on channel c ends with an outcome. -/
def cancelWaiters (c outcome : Nat) (s : State) : State := (chanWaiters s c).foldl (fun s d => endCmd d.serial outcome 0 0 s) s

/-- Run-ahead results are discarded as a whole (R118). -/
def discardRunahead (x : Chan) : Chan :=
  if x.run.runAheadValid then
    { x with run.runAheadValid := false, run.search := x.run.search.keep (fun n _ => decide (n < x.run.nextPic)), counters.runaheadDiscards := inc32 x.counters.runaheadDiscards }
  else x

/-- The stream of a channel whose function is being reset has ended: its Isles and load are released; it is destroyed when its commands have been completed (R107, R424). -/
def chanDoomedEnd (c : Nat) (s : State) : State := modChan s c (fun x => { x with st := .idle, run := { emitted := x.run.emitted }, input := {} })

/-- End of stream (R99, R100): the stream's last NAL unit has been emitted; the waiting commands complete and the channel becomes IDLE, or ends with its function's reset (R107). -/
def chanEnd (c : Nat) (s : State) : State :=
  match chanAt s c with
  | none => s
  | some x =>
    let s := modChan s c (fun x => { discardRunahead x with stopReason := if x.stopReason = 0 then 1 else x.stopReason })
    let s := if isStandby s then s else emit s (.eos c)
    if x.doomed then settleResets (chanDoomedEnd c s) else chanIdle c (endWaiters c s)

/-- Slices at the front of channel c's queue that have ended leave it (R140); the last slice of a drained run ends the stream (R99). -/
def settleSlices (c : Nat) (s : State) : State :=
  match chanAt s c with
  | none => s
  | some x =>
    let gone := x.run.queue.takeWhile (sliceEnded s)
    if gone.isEmpty then s
    else
      let slices := gone.filter (fun q => !q.marker)
      let s := modChan s c (fun y => { y with run.queue := y.run.queue.drop gone.length, run.emitted := y.run.emitted + slices.length })
      let s := if isStandby s then s else slices.foldl (fun s q => emit s (.slice c q.picture q.slice q.check)) s
      if gone.any (fun q => q.eob) then chanEnd c s else s

/-- Settle every channel. -/
def settleAllSlices (s : State) : State := s.chans.foldl (fun s e => settleSlices e.1 s) s

/-- T_ref meets the condition of the start mode for picture 0 (R96). -/
def startsAt (x : Chan) (t : Instant) : Bool :=
  match x.run.byHolder with
  | some h => h.elim false (fun a => decide (a ≤ t))
  | none => if x.run.startMode = 0 then decide (x.run.startAt < t)
  else if x.run.startMode = 1 then decide (x.run.startAt ≤ t)
  else match x.run.captured with | some c => decide (c ≤ t) | none => false

/-- Reference instants that come before picture 0 may start are dropped (R96). -/
def dropEarly (x : Chan) : Chan :=
  if x.run.nextPic = 0 then { x with input.pending := x.input.pending.dropWhile (fun e => !(startsAt x e.1)) } else x

/-- A slice that fails R137 (R139): the substitute, its counter and source, the forced IDR, the loss flag with CAUSE 2. -/
def substitute (c n first : Nat) (s : State) : State :=
  modChan s c (fun x => { x with
    counters.substSlices := inc32 x.counters.substSlices, sliceFault := true,
    run := { x.run with forceIdr := true, substSince := some (x.run.substSince.getD n),
                        pics := x.run.pics.mapVals (fun m q => if n ≤ m ∧ !(q.loss.any (fun l => l.2.2.1 == 2)) then { q with loss := q.loss ++ [(x.run.substSince.getD n, if m = n then first else 0, 2, 0xFF)] } else q) } })

/-- A port is sending a frame of flow w, copy b, group g. -/
def onWire (s : State) (w : Nat) (b : Bool) (serial : Nat) : Bool :=
  s.net.ports.any (fun e => e.2.sending == some (w, b, serial))

/-- The group is in transmission: a frame of it has been sent or is being sent, and it has not ended. -/
def groupSending (s : State) (w : Nat) (b : Bool) (g : Group) : Bool := decide (0 < g.sent) || onWire s w b g.serial

/-- The holder reports the end of a group of a flow copy to its partner (R335, R339, R394). -/
def reportGroup (w : Nat) (b : Bool) (serial : Nat) (s : State) : State :=
  if isHolder s then cwSend 9 (le 2 (w + b.toNat * 32768) ++ zeros 2 ++ le 8 serial) s else s

/-- Drop the groups of one copy of flow w that `keep` does not spare, and the held ones; answers the frames dropped. -/
def dropCopy (w : Nat) (b : Bool) (spare : Group → Bool) (s : State) : State × Nat :=
  match flowOutAt s w with
  | none => (s, 0)
  | some x =>
    let c := copyAt x b
    let gone := c.groups.filter (fun g => !(spare g)) ++ c.held
    let s := modCopy w b (fun c => { c with groups := c.groups.filter spare, held := [], kept := [] }) s
    (gone.foldl (fun s g => reportGroup w b g.serial s) s, sumBy (fun g => g.frames.length - g.sent) gone)

/-- Count frames in DISABLE_DROPS of flow w. -/
def countDisabled (w n : Nat) (s : State) : State := modFlowOut s w (fun x => { x with disableDrops := (x.disableDrops + n) % 2 ^ 32 })

/-- Drop every group of flow w that is not in transmission, on both copies; frames dropped are counted as asked (R100, R340). -/
def dropGroups (w : Nat) (count : Bool) (s : State) : State :=
  match flowOutAt s w with
  | none => s
  | some x =>
    (copiesOf x.cfg).foldl (fun s b =>
      let (s', n) := dropCopy w b (groupSending s w b) s
      if count then countDisabled w n s' else s') s

/-- The end-of-bitstream NAL unit of channel c goes out by itself, as an emission group at `due` behind what is queued; when it has ended the stream has (R99, R100). A run without a picture has no bitstream to end. -/
def endStream (c : Nat) (due : Rat) (s : State) : State :=
  match chanAt s c with
  | none => s
  | some x =>
    let n := x.run.nextPic - 1
    match ctlOf s x, x.run.pics.get? n with
    | some k, some q =>
      if x.run.queue.any (fun e => e.eob) then settleSlices c s else
      let nal := eobNal k.prof.codec
      let (s, groups) := (chanFlows s c).foldl (fun (a : State × List (Nat × Nat)) w =>
        match flowOutAt a.1 w with
        | none => a
        | some fo =>
          let (s', ser) := addGroup w due (groupFrames fo.cfg [nal.size] {}) 0 n 0 true (groupInfo a.1 x k q fo.cfg [nal.size] {} due true) a.1
          (s', a.2 ++ [(w, ser)])) (s, [])
      let s := modChan s c (fun y => { y with run.queue := y.run.queue ++
        [{ picture := n, slice := 0, due := due, marker := true, nals := [nal.size], check := 0, substitute := false, firstOfRow := false, eob := true, groups := groups }] })
      settleSlices c (emit s (.nals c n [nal]))
    | _, _ => chanEnd c s

/-- Coding stops at once and no further slice is emitted; a slice in transmission finishes, and the end-of-bitstream NAL unit follows it immediately (R100). -/
def chanAbort (c : Nat) (s : State) : State :=
  match chanAt s c with
  | none => s
  | some _ =>
    let s := (chanFlows s c).foldl (fun s w => dropGroups w false s) s
    let s := modChan s c (fun x => { discardRunahead x with run.aborting := true, run.queue := x.run.queue.filter (fun q => q.groups.any (fun g => groupPending s g.1 g.2)) })
    endStream c (localQ s) s

/-- An ARMED start ends with an outcome and the channel is IDLE (Table 3.3). -/
def cancelArmed (c outcome : Nat) (s : State) : State :=
  match chanAt s c with
  | none => s
  | some x =>
    if x.st == .armed then
      chanIdle c ((chanWaiters s c).foldl (fun s d => endCmd d.serial outcome 0 0 s) s)
    else s

/-- A stop by shedding (2) or a hardware fault (3) behaves as an abort and sets the loss flag (R102). -/
def chanStopFor (c reason : Nat) (s : State) : State :=
  match chanAt s c with
  | none => s
  | some x =>
    let mark := fun s => modChan s c (fun x => { x with stopReason := reason, lossFlag := true })
    match x.st with
    | .idle => s
    | .armed => cancelArmed c (if reason = 2 then stShed else stFault) (mark s)
    | _ => chanAbort c (mark s)

/-- The effective shed class of a channel (R487): class 1 while its output carries a Lighthouse layer. -/
def chanShedClass (s : State) (x : Chan) : Nat :=
  match x.cfg with
  | some c => if c.srcKind = 2 && ((outAt s c.srcIndex).bind (fun o => o.lh)).isSome then 1 else x.shedClass
  | none => x.shedClass

/-- The effective shed class of an output (R487). -/
def outShedClass (o : Output) : Nat := if o.lh.isSome then 1 else o.shedClass

/-- Shedding steps in force stop the objects of a class: class 3 at step 5, 2 at 6, 1 at 7 (Table 18.6). -/
def shedStops (s : State) (cls : Nat) : Bool := decide (8 - cls ≤ s.power.step)

end Sys2Proof.Machine
end

