-- ==== Sys2Proof/Machine/Claim.lean ====
section
/-! DEFINITION. What faults and divergences do to a pair and to units: pair state, yield, divergence, units taken out of service (R385, R400, R401, R405, R422). -/

namespace Sys2Proof.Machine

/-- PF0 hears of a change of pair STATE or role (Table 2.15 KIND 6). -/
def pairEvent (s : State) : State := postEvent 0 6 0 (pairStateCode s.pair.st + pairRoleCode s.pair.role * 256) s

/-- Enter a pair state (Table 15.1). -/
def setPairState (st : PairState) (s : State) : State := 
  if s.pair.st = st then s
  else pairEvent { s with pair.st := st, pair.syncTide := if (st == .synced || st == .mixed) && s.pair.st != .synced && s.pair.st != .mixed then s.time.tide else s.pair.syncTide }

/-- Take a role (R385). -/
def setPairRole (r : PairRole) (s : State) : State := if s.pair.role = r then s else pairEvent { s with pair.role := r }

/-- PF0's pair source is asserted. -/
def raisePair (s : State) : State := { s with pair.src := true }

/-- Fault class 11 (Table 16.1): DETAIL names the event, 1 partner lost, 2 divergence, 3 LINE_FAULT, 4 late TIDE_RECORD. -/
def pairFault (detail : Nat) (s : State) : State := raisePair (journalAdd s 11 0 deviceFn 0 0 detail)

/-- A holder yields (R405 steps 1 and 2): it sends YIELD and closes its gates; the keeper releases once its groups have ended. -/
def pairYield (reason : Nat) (keyed : Bool) (swapTide : Nat) (s : State) : State :=
  if isHolder s && s.pair.yielding.isNone then
    cwSend 0x0A (le 4 s.pair.claim.toNat ++ le 1 reason ++ le 1 keyed.toNat ++ zeros 2 ++ le 8 swapTide)
      { s with pair.yielding := some { reason := reason, keyed := keyed, swapTide := swapTide } }
  else s

/-- A fault that is classed as taking over: a holder with a SYNCED standby yields (R401, Table 16.1). -/
def faultYield (s : State) : State := if s.pair.st = .synced then pairYield 2 false 0 s else s

/-- A divergence (R400): the pair becomes DIVERGED, it is counted, the pair source is asserted. -/
def diverge (s : State) : State :=
  if pairOn s && s.pair.st != .diverged && (s.pair.st == .synced || s.pair.st == .mixed) then
    pairFault 2 (setPairState .diverged { s with pair.divergences := inc32 s.pair.divergences })
  else s

/-- CODING_GEN of the running image (Table 17.2); the factory image has the fused one (log 7). -/
def runningGen (s : State) : Word := match s.upd.running with | some (_, g) => g | none => Config.codingGen

/-- The members run images of different coding generations (R412, R415). -/
def genDiffers (s : State) : Bool := match s.pair.partner with | some h => h.codingGen != runningGen s | none => false

/-- On the holder: once every object has joined, the pair is SYNCED, or MIXED where the coding generations differ, and PAIR_RESYNC completes (R412). -/
def settleJoin (s : State) : State :=
  if s.pair.st = .resyncing ∧ isHolder s ∧ s.pair.joinPending.isEmpty then
    let s := setPairState (if genDiffers s then .mixed else .synced) s
    ((allCmds s).filter (fun e => opcodeOf e.2.packet == 0x0904 && e.2.wait == .pair)).foldl (fun s e => finishCmd e.2.serial 0 0 0 s) s
  else s

/-- The holder tells a joiner how far the groups of some flows have been numbered, in GROUP_END frames that name the last group before the join (log 34). -/
def alignFlows (which : FlowOutCfg → Bool) (s : State) : State :=
  s.net.flowsOut.foldl (fun s e =>
    if which e.2.cfg && decide (0 < e.2.nextSerial) then
      (copiesOf e.2.cfg).foldl (fun s b => cwSend 9 (le 2 (e.1 + if b then 32768 else 0) ++ zeros 2 ++ le 8 (e.2.nextSerial - 1)) s) s
    else s) s

/-- An object joins (R412): kind 1 channel, 2 output, 3 decoder. -/
def joined (kind n : Nat) (s : State) : State :=
  if s.pair.st = .resyncing ∧ s.pair.joinPending.contains (kind, n) then
    let s := { s with pair.joinPending := s.pair.joinPending.filter (fun x => x != (kind, n)) }
    -- both members count an output's applied states from its join (Table 15.4a)
    let s := if kind = 2 then modOut s n (fun o => { o with applied := 0 }) else s
    settleJoin (if isHolder s then alignFlows (fun c => (decide (c.kind ≤ 2) && kind == 1 && c.srcIndex == n) || ((c.kind == 3 || c.kind == 6) && kind == 2 && c.srcIndex == n)) s else s)
  else s

/-- Two check entries of the same slice. -/
def sameSlice (a b : SliceCheckEntry) : Bool := a.channel == b.channel && a.picture == b.picture && a.slice == b.slice

/-- One slice compared on both members (R399 to R401): a mismatch or a failure of the standby alone diverges; a holder whose slice alone failed yields. -/
def compareSlice (own other : SliceCheckEntry) (s : State) : State :=
  let s := { s with pair.checksCompared := inc32 s.pair.checksCompared }
  if own.failed && other.failed then s
  else if own.failed then (if isHolder s then faultYield s else diverge s)
  else if other.failed then (if isHolder s then diverge s else s)
  else if own.check != other.check then diverge s
  else s

/-- Compare every own slice whose partner's check has arrived (R399); checks of a MIXED pair are not compared (R415). -/
def compareChecks (s : State) : State :=
  if s.pair.st != .synced then s
  else
    let both := s.pair.ownChecks.filterMap (fun a => (s.pair.partnerChecks.find? (sameSlice a)).map (fun b => (a, b)))
    let s := { s with pair.ownChecks := s.pair.ownChecks.filter (fun a => !(both.any (fun e => sameSlice a e.1))),
                      pair.partnerChecks := s.pair.partnerChecks.filter (fun a => !(both.any (fun e => sameSlice a e.1))) }
    both.foldl (fun s e => compareSlice e.1 e.2 s) s

/-- A member sends the check of a slice it has coded and compares it (R399, Table 15.4a). -/
def sendCheck (e : SliceCheckEntry) (s : State) : State :=
  if pairOn s && (s.pair.st == .synced || s.pair.st == .mixed) then
    let s := cwSend 3 (le 1 e.channel ++ le 1 e.failed.toNat ++ le 2 e.slice ++ le 4 e.check.toNat ++ le 8 e.picture) s
    compareChecks { s with pair.ownChecks := s.pair.ownChecks ++ [e] }
  else s

/-- The device codes and composes: a standby only while it joins or stands in lockstep (R400). -/
def mayCode (s : State) : Bool := !(isStandby s) || s.pair.st == .synced || s.pair.st == .mixed || s.pair.st == .resyncing

/-- Unallocated in-service Isles of the Atoll of Isle i. -/
def spareIsles (s : State) (i : Nat) : List Nat :=
  let used := s.chans.foldl (fun l e => l ++ e.2.run.isles) []
  ((List.range 8).map (fun k => i / 8 * 8 + k)).filter (fun k => isleIn s k && !(used.contains k))

/-- Replace the Isles of an allocation that are out of service, in order (R422). -/
def replaceIsles (s : State) (c : Nat) : State :=
  match chanAt s c with
  | none => s
  | some x => x.run.isles.foldl (fun s i =>
      if isleIn s i then s
      else match spareIsles s i with
        | j :: _ => modChan s c (fun x => { x with run.isles := sortOn (fun k => k) (x.run.isles.map (fun k => if k = i then j else k)) })
        | [] => s) s

/-- A decoder changes STATE (Tables 7.5 and 2.15). -/
def setDecState (d st : Nat) (s : State) : State :=
  match decAt s d with
  | none => s
  | some x => if x.st = st then s else postEvent x.owner.val 4 d st (modDec s d (fun x => { x with st := st }))

/-- What the loss of a unit does to running objects (R422). Targets: 0 Isle, 1 entropy engine, 2 decode engine, 3 compositor. -/
def unitLost (target index : Nat) (s : State) : State :=
  if target = 0 then
    s.chans.foldl (fun s e => if e.2.run.isles.contains index && (spareIsles s index).isEmpty then chanStopFor e.1 3 s else s) s
  else if target = 2 then
    s.decs.foldl (fun s e => if e.2.engine = index then setDecState e.1 4 (modDec s e.1 (fun d => { d with stopped := true })) else s) s
  else if target = 3 then
    s.outs.foldl (fun s e =>
      if e.2.compositor = index then
        let s := modOut s e.1 (fun o => { o with stopped := true })
        if e.2.lh.isSome then { s with irq.lhLost := true } else s
      else s) s
  else s

/-- A unit goes out of service until warm reset (R422, R438). -/
def unitOut (target index : Nat) (s : State) : State :=
  let s := if target = 0 then { s with units.isleOut := s.units.isleOut ||| BitVec.ofNat 64 (2 ^ index) }
    else if target = 1 then { s with units.entropyOut := s.units.entropyOut ||| BitVec.ofNat 12 (2 ^ index) }
    else if target = 2 then { s with units.decOut := s.units.decOut ||| BitVec.ofNat 4 (2 ^ index) }
    else { s with units.compOut := s.units.compOut ||| BitVec.ofNat 4 (2 ^ index) }
  unitLost target index s

/-- A unit raises a class 7 fault: it is journaled, and the third within 1 s takes the unit out of service (R419, R422). -/
def engineFaultAs (flags target index function objKind object detail : Nat) (s : State) : State :=
  let s := journalAdd s 7 flags function objKind object detail
  let k := target * 256 + index
  let recent := (s.now :: s.units.recent7.getD k []).filter (fun t => decide (s.now < t + 500000000))
  let s := { s with units.recent7 := s.units.recent7.set k recent }
  if 3 ≤ recent.length then unitOut target index s else s

/-- The same, of a fault that was not injected. -/
def engineFault (target index function objKind object detail : Nat) (s : State) : State := engineFaultAs 8 target index function objKind object detail s

end Sys2Proof.Machine
end

