-- ==== Sys2Proof/Machine/Channels.lean ====
section
/-! DEFINITION. Channel and encoding commands: creation, configuration, start, stop, delay, key requests, coding parameters, rate control (R79 to R108, R113 to R129, R145 to R169). -/

namespace Sys2Proof.Machine

/-- The channel a command names exists (R72, Table 2.10); it is taken as it stands at the command's start. -/
def withChan (s : State) (c : Nat) (k : Chan → CmdRes) : CmdRes :=
  match chanAt s c with
  | some x => k (startedChan s x)
  | none => refuse s stBadParam

/-- A channel of another function (R72). -/
def denyChan (c : Nat) (ci : CmdIn) (s : State) : Bool := (chanAt s c).elim false (fun x => x.owner.val != ci.f)
def denyNamed (ci : CmdIn) (s : State) : Bool := denyChan (chanOf ci.p) ci s

/-- RUNNING or DRAINING; ARMED, RUNNING or DRAINING. -/
def coding (x : Chan) : Bool := x.st == .running || x.st == .draining
def admitted (x : Chan) : Bool := x.st != .idle

/-- CHAN_CREATE (R79). -/
def runChanCreate (ci : CmdIn) (s : State) : CmdRes :=
  match s.chans.lowestFree 64 with
  | none => refuse s stNoResource
  | some c => .done (setChan s c { owner := Fin.ofNat 32 ci.f }) stOk 0 c 0
def meanChanCreate : Meaning := { run := runChanCreate }

/-- TOTAL_LINES by HEIGHT (R81). -/
def standardLines (h : Nat) : Option Nat := if h = 720 then some 750 else if h = 1080 then some 1125 else if h = 2160 then some 2250 else if h = 4320 then some 4500 else none

/-- CHAN_CONFIG of a packet (Table 3.1); none where a field is out of range (R81). -/
def chanCfgOf (p : Packet) : Option ChanCfg :=
  let h := fld p 4 31 16
  let w := fld p 4 15 0
  let den := fld p 6 15 0
  let num := word p 5
  let lines := if fld p 6 31 16 = 0 then standardLines h else if h + 8 ≤ fld p 6 31 16 then some (fld p 6 31 16) else none
  match lines with
  | none => none
  | some t =>
    if fld p 3 1 0 = 3 ∨ w = 0 ∨ h = 0 ∨ w % 8 ≠ 0 ∨ h % 8 ≠ 0 ∨ (den ≠ 1000 ∧ den ≠ 1001) ∨ num = 0 ∨ 120 * den < num
        ∨ fld p 7 1 0 = 3 ∨ fld p 7 3 2 = 0 ∨ (flag p 3 2 ∧ fld p 3 1 0 ≠ 0) then none
    else some { srcKind := fld p 3 1 0, refMode := fld p 3 2 2, srcIndex := fld p 3 23 8, width := w, height := h, rateNum := num, rateDen := den,
                totalLines := t, lossPolicy := fld p 7 1 0, shedClass := fld p 7 3 2 }

/-- The source a channel names is there: a KIND 0 input flow, a lane, an output. -/
def sourceExists (s : State) (c : ChanCfg) : Bool :=
  if c.srcKind = 0 then (flowInAt s c.srcIndex).elim false (fun f => f.cfg.kind == 0)
  else if c.srcKind = 1 then decide (c.srcIndex < 96)
  else (outAt s c.srcIndex).isSome

/-- The source belongs to another function (R72); lanes belong to none. -/
def sourceForeign (s : State) (kind index f : Nat) : Bool :=
  if kind = 0 then (flowInAt s index).elim false (fun x => x.owner.val != f)
  else if kind = 2 then (outAt s index).elim false (fun x => x.owner.val != f)
  else false

/-- CHAN_CONFIG (R80, R81, R83). -/
def runChanConfig (ci : CmdIn) (s : State) : CmdRes :=
  withChan s (chanOf ci.p) fun x =>
    match chanCfgOf ci.p with
    | none => refuse s stBadParam
    | some c =>
      if !sourceExists s c then refuse s stBadParam
      else if admitted x then refuse s stBadState
      else okDone (modChan s (chanOf ci.p) (fun x => { x with cfg := some c, shedClass := c.shedClass })) 0
def meanChanConfig : Meaning :=
  { deny := fun ci s => denyNamed ci s || sourceForeign s (fld ci.p 3 1 0) (fld ci.p 3 23 8) ci.f, run := runChanConfig }

/-- ENC_PROFILE of a packet (Table 4.6); none where a field is out of range, a TIER 1 with a LEVEL that has no High tier among them: the section does not name that case (DESIGN CHOICE, log 160). -/
def encProfileOf (p : Packet) : Option EncProfile :=
  let codec := fld p 3 1 0
  let par := fld p 4 5 4
  let cols := fld p 4 9 6
  let high := flag p 3 7
  match levelOf codec (fld p 3 15 8) with
  | none => none
  | some lv =>
    if 1 < codec ∨ !chromaAllowed codec (fld p 3 4 2) (fld p 3 6 5) ∨ par = 3 ∨ (high ∧ lv.2.2.2.2.1 = 0)
        ∨ (par = 2 ∧ (cols = 0 ∨ 8 < cols)) ∨ (par ≠ 2 ∧ cols ≠ 0) then none
    else some { codec := codec, profile := fld p 3 4 2, chroma := fld p 3 6 5, tier := high.toNat, level := fld p 3 15 8, ctuSmall := flag p 4 0,
                sliceRows := fld p 4 3 1 + 1, parallel := par, tileCols := cols }

/-- ENC_PROFILE (R83, R121). -/
def runEncProfile (ci : CmdIn) (s : State) : CmdRes :=
  withChan s (chanOf ci.p) fun x =>
    match encProfileOf ci.p with
    | none => refuse s stBadParam
    | some e => if admitted x then refuse s stBadState else okDone (modChan s (chanOf ci.p) (fun x => { x with profile := some e })) 0
def meanEncProfile : Meaning := { deny := denyNamed, run := runEncProfile }

/-- ENC_GOP of a packet (Table 4.9). -/
def encGopOf (p : Packet) : EncGop :=
  { structure' := fld p 3 1 0, nRef := fld p 3 4 2, miniGop := fld p 3 7 5, lookahead := fld p 3 13 8, keyInterval := fld p 4 15 0, keyKind := fld p 4 17 16,
    refreshPics := fld p 4 31 24, staggerSlot := fld p 5 3 0, staggerAuto := flag p 5 4 }

/-- Its fields are in range (Table 4.9). -/
def encGopOk (g : EncGop) : Bool :=
  decide (g.structure' ≤ 2) && decide (1 ≤ g.nRef) && decide (g.nRef ≤ 4) && decide (g.keyKind ≤ 2) && decide (2 ≤ g.refreshPics)
    && (if g.structure' = 2 then decide (g.miniGop ≤ 4) && decide (g.lookahead ≤ 32) && decide (2 ^ g.miniGop - 1 ≤ g.lookahead)
        else g.miniGop == 0 && g.lookahead == 0)

/-- RC_CONFIG of a packet with its defaults resolved (Table 5.1). -/
def rcCfgOf (p : Packet) : RcCfg :=
  { mode := fld p 3 1 0, hrd := flag p 3 2, react := fld p 3 10 8, keyBoost := fld p 3 15 12, rateMax := word p 4, rateTgt := word p 5, rowCap := word p 6,
    cpbSize := word p 7, qpMin := fld p 8 7 0, qpMax := fld p 8 15 8, qpInit := fld p 8 23 16, cqQp := fld p 8 31 24,
    floorCtu := if fld p 9 15 0 = 0 then 64 else fld p 9 15 0, vTarget := if fld p 9 25 16 = 0 then 512 else fld p 9 25 16, llCtuBits := word p 10 }

/-- Highest quantiser of a codec (R146). -/
def qpLimit (x : Chan) : Nat := match x.profile with | some p => if p.codec = 1 then 63 else 51 | none => 63

/-- RATE_MAX and RATE_TGT in range (Table 5.1). -/
def rateOk (r : RcCfg) : Bool :=
  decide (1000 ≤ r.rateMax) && decide (r.rateMax ≤ 4000000)
    && (if r.mode = 1 then decide (1000 ≤ r.rateTgt) && decide (r.rateTgt ≤ r.rateMax) else r.rateTgt == 0)

/-- The quantisers satisfy R146 and Table 5.1. -/
def qpOk (limit : Nat) (r : RcCfg) : Bool :=
  decide (r.qpMax ≤ limit) && decide (r.qpMin ≤ r.qpInit) && decide (r.qpInit ≤ r.qpMax) && decide (r.qpMin + 6 ≤ r.qpMax)
    && (if r.mode = 2 then decide (r.qpMin ≤ r.cqQp) && decide (r.cqQp ≤ r.qpMax) else r.cqQp == 0)

/-- The fields of REACT, FLOOR_CTU and V_TARGET are in range (Table 5.1). -/
def shapeOk (r : RcCfg) : Bool := decide (r.react ≤ 6)
def floorOk (r : RcCfg) : Bool := decide (32 ≤ r.floorCtu) && decide (r.floorCtu ≤ 4096)

/-- All ranges of RC_CONFIG (R145). -/
def rcCfgOk (limit : Nat) (r : RcCfg) : Bool :=
  decide (r.mode ≤ 2) && shapeOk r && rateOk r && decide (4096 ≤ r.rowCap) && decide (r.rowCap ≤ 67108864) && decide (8192 ≤ r.cpbSize) && qpOk limit r && floorOk r

/-- The set of values after an RC_UPDATE (R165). -/
def rcUpdated (p : Packet) (r : RcCfg) : RcCfg :=
  let n := rcCfgOf p
  let r := if flag p 2 16 then { r with rateMax := n.rateMax, rateTgt := n.rateTgt } else r
  let r := if flag p 2 17 then { r with qpMin := n.qpMin, qpMax := n.qpMax, qpInit := n.qpInit, cqQp := n.cqQp } else r
  let r := if flag p 2 18 then { r with react := n.react, keyBoost := n.keyBoost } else r
  let r := if flag p 2 19 then { r with floorCtu := n.floorCtu, vTarget := n.vTarget } else r
  if flag p 2 20 then { r with llCtuBits := n.llCtuBits } else r

/-- The selected fields of an RC_UPDATE are in range (R165, R166). -/
def rcUpdateOk (limit : Nat) (p : Packet) (r : RcCfg) : Bool :=
  let n := rcUpdated p r
  (!flag p 2 16 || rateOk n) && (!flag p 2 17 || qpOk limit n) && (!flag p 2 18 || shapeOk n) && (!flag p 2 19 || floorOk n)

/-- ENC_REGION of a packet (Table 5.4). -/
def regionOf (p : Packet) : Region :=
  { kind := fld p 3 1 0, qpOffset := signedOf (fld p 3 15 8) 8, x := fld p 4 15 0, y := fld p 4 31 16, w := fld p 5 15 0, h := fld p 5 31 16 }

/-- Its fields are in range (Table 5.4); the rectangle of a region that is off is not checked. -/
def regionOk (r : Region) : Bool :=
  decide (r.kind ≤ 2) && (if r.kind = 1 then decide (-12 ≤ r.qpOffset) && decide (r.qpOffset ≤ 12) else r.qpOffset == 0)
    && (r.kind == 0 || (decide (8 ≤ r.w) && decide (8 ≤ r.h)))

/-- What a coding command changes (R27): the parameters after it. -/
def changeCoding (p : Packet) (c : Coding) : Coding :=
  let op := opcodeOf p
  if op = 0x0302 then { c with gop := encGopOf p }
  else if op = 0x0303 then { c with rc := some (rcCfgOf p) }
  else if op = 0x0304 then { c with rc := c.rc.map (rcUpdated p) }
  else if op = 0x0305 then { c with regions := c.regions.set (fld p 2 10 8) (regionOf p) }
  else if op = 0x0306 then { c with spec := { dualQp := flag p 3 0, runAhead := flag p 3 1, deltaQp := fld p 3 6 4 } }
  else if op = 0x0307 then { c with me := { l1Range := fld p 3 1 0, l3Range := fld p 3 3 2 } }
  else c

/-- The picture a waiting command of channel c takes effect at. -/
def waitNumber (x : Chan) : Wait → Option Nat
  | .picture _ n => some (n.getD x.run.nextPic)
  | _ => none

/-- Commands that wait for a picture of channel c, with their picture, in the order in which they take effect: by picture, then by start (R19, R167). -/
def pictureWaiters (s : State) (c : Nat) (x : Chan) : List (Nat × Cmd) :=
  let l := ((allCmds s).filter (fun e => match e.2.wait with | .picture d _ => d == c | _ => false)).map (fun e => e.2)
  sortOn (fun e => e.1) ((sortOn (fun d => d.startTick * 2 ^ 64 + d.serial) l).map (fun d => ((waitNumber x d.wait).getD 0, d)))

/-- The parameters after each picture at which something changes (R167). -/
def codingPath (c : Coding) : List (Nat × Packet) → List (Nat × Coding)
  | [] => []
  | (n, p) :: r =>
    let c' := changeCoding p c
    (match r with | (m, _) :: _ => (if m = n then [] else [(n, c')]) | [] => [(n, c')]) ++ codingPath c' r

/-- The parameters from picture n on, with a further change at n that comes after the waiting ones (R167). -/
def codingsWith (s : State) (c : Nat) (x : Chan) (n : Nat) (p : Packet) : List Coding :=
  let l := (pictureWaiters s c x).map (fun e => (e.1, e.2.packet))
  ((codingPath x.coding (insertOn (fun e => e.1) (n, p) l)).filter (fun e => decide (n ≤ e.1))).map (fun e => e.2)

/-- Lossless areas of a channel under given parameters satisfy R124 and R163, a Lighthouse rectangle included. -/
def chanLosslessOk (s : State) (x : Chan) (lh : List Rect) (c : Coding) : Bool :=
  match x.cfg, x.profile, c.rc with
  | some cfg, some p, some rc => losslessOk (geomOf s cfg p) p rc (regionRects c ++ lh)
  | _, _, _ => true

/-- They do for every picture from n on after a further change. -/
def losslessWith (s : State) (c : Nat) (x : Chan) (n : Nat) (p : Packet) : Bool :=
  let cases := x.cfg.elim [[]] (chanLhCases s)
  (codingsWith s c x n p).all (fun k => cases.all (fun lh => chanLosslessOk s x lh k))

/-- The picture a command of a coding channel names, or the next to start (R50). -/
def targetPicture (ci : CmdIn) (x : Chan) : Nat := if atPictureOf ci.p then pictureOf ci.p else x.run.nextPic

/-- AT_PICTURE names a picture too far ahead, or one that has started (R50). The spec does not say from where 65,536 pictures are counted: the model counts from the picture in progress, and from picture 0 where none has started (DESIGN CHOICE, log 157). -/
def tooFar (ci : CmdIn) (x : Chan) : Bool := atPictureOf ci.p && decide (x.run.nextPic - 1 + 65536 < pictureOf ci.p)
def alreadyStarted (ci : CmdIn) (x : Chan) : Bool := atPictureOf ci.p && coding x && decide (pictureOf ci.p < x.run.nextPic)

/-- ST_BAD_STATE with the picture in progress (R50). -/
def startedRefusal (x : Chan) (s : State) : CmdRes := .done s stBadState 0 ((x.run.nextPic - 1) % 2 ^ 32) ((x.run.nextPic - 1) / 2 ^ 32)

/-- A change that waits for its picture, also for a picture of the next run where it names one (R50, log 158), or is stored at once where the channel does not code (R19, R83). -/
def changeAtPicture (ci : CmdIn) (c : Nat) (x : Chan) (s : State) (store : State → State) : CmdRes :=
  if coding x || atPictureOf ci.p then .pend s (.picture c (if atPictureOf ci.p then some (pictureOf ci.p) else none)) 0 0
  else okDone (store s) 0

/-- A field that only an IDLE channel may change would change in a run (R125, R145): the channel is admitted, or the command names a picture after the first of the next run (log 158). -/
def fixedNow (ci : CmdIn) (x : Chan) : Bool := admitted x || (atPictureOf ci.p && decide (0 < pictureOf ci.p))

/-- The parameters a run that starts now begins with and, by the commands that wait, comes to (R50, R83). -/
def codingsAhead (s : State) (c : Nat) (x : Chan) : List Coding :=
  x.coding :: (codingPath x.coding ((pictureWaiters s c x).map (fun e => (e.1, e.2.packet)))).map (fun e => e.2)

/-- Store a coding change. -/
def storeChange (c : Nat) (p : Packet) (s : State) : State := modChan s c (fun x => { x with coding := changeCoding p x.coding })

/-- Raise the admitted load of a channel that is not IDLE (R91, R94), or give it another D (R89): the refusal, or the state in which that load is held. A longer slice queue is judged by check 7, more references or lookahead by their regions. -/
def raiseLoad (s : State) (c : Nat) (x : Chan) (rate nRef : Nat) (delay : Rat) (la : Bool) (n : EncGop) : State × Option CmdRes :=
  match x.cfg, x.profile, x.coding.rc with
  | some cfg, some p, some rc =>
    let r := max rate x.run.admRate
    let f := max nRef x.run.admRef
    let l := la || x.run.lookaheadSpace
    if !admitted x || (r == x.run.admRate && f == x.run.admRef && decide (delay = x.run.admDelay) && l == x.run.lookaheadSpace) then (s, none)
    else
      let cand := loadOf s c cfg p rc.rowCap r f n.lookahead l delay x.run.maxDelay
      if !([9, 10].all (regionFits s (poolWith s (some cand) (some c)))) then (s, some (refuse s stNoResource))
      else match (if r == x.run.admRate && f == x.run.admRef && decide (delay = x.run.admDelay) then none else admitLoad s cand false) with
        | some (code, who) => (s, some (.done s stCapacity 0 code who))
        | none => (modChan s c (fun x => { x with run.admRate := r, run.admRef := f, run.admDelay := delay, run.maxDelay := cand.dMax, run.lookaheadSpace := l }), none)
  | _, _, _ => (s, none)

/-- Delay in ns that a CHAN_SET_DELAY value in µs selects (R88). -/
def delayOf (g : Geom) (us : Nat) : Rat := if us = 0 then g.dMin else ((us * 1000 : Nat) : Rat)

/-- A delay of d ns leaves room for the audio of an ST 302 attachment: D + S + P ≥ BUS_LAT + 1,000 µs + T_row (R381). -/
def st302Room (s : State) (x : Chan) (d : Rat) : Bool :=
  match chanGeom s x with
  | some g => decide (((s.audio.busLat * 1000 + 1000000 : Nat) : Rat) + g.tRow ≤ d + (x.coding.gop.lookahead : Rat) * g.period + g.period)
  | none => false

/-- CHAN_SET_DELAY (R89 to R91, R381). In IDLE and ARMED the value is stored, whatever D_min is (R89); a value below D_min is not admitted, as it raises nothing that Table 3.6 counts (log 59). -/
def runChanSetDelay (ci : CmdIn) (s : State) : CmdRes :=
  withChan s (chanOf ci.p) fun x =>
    let c := chanOf ci.p
    let v := fld ci.p 3 15 0
    let low := match chanGeom s x with | some g => decide (0 < v) && decide (((v * 1000 : Nat) : Rat) < g.dMin) | none => false
    if !(v == 0 || (decide (500 ≤ v) && decide (v ≤ 40000))) || tooFar ci x || (low && coding x) then refuse s stBadParam
    else if alreadyStarted ci x then startedRefusal x s
    else
      let d := match chanGeom s x with | some g => delayOf g v | none => 0
      if !x.st302.isEmpty && !(st302Room s x d) then refuse s stBadState
      else match (if low then (s, none) else raiseLoad s c x x.run.admRate x.run.admRef d false x.coding.gop) with
      | (_, some r) => r
      | (s, none) => changeAtPicture ci c x s (fun s => modChan s c (fun x => { x with delayReq := v }))
def meanChanSetDelay : Meaning := { deny := denyNamed, run := runChanSetDelay }

/-- KEY_REQUEST (R83, R127). -/
def runKeyRequest (ci : CmdIn) (s : State) : CmdRes :=
  withChan s (chanOf ci.p) fun x =>
    if fld ci.p 3 1 0 = 3 || tooFar ci x then refuse s stBadParam
    else if alreadyStarted ci x then startedRefusal x s
    else if x.st != .running then refuse s stBadState
    else changeAtPicture ci (chanOf ci.p) x s (fun s => s)
def meanKeyRequest : Meaning := { deny := denyNamed, run := runKeyRequest }

/-- ENC_GOP (R125, R91). Outside IDLE a STRUCTURE, MINI_GOP or LOOKAHEAD equal to the one in force changes nothing and is no ground for refusal: the rule does not say (DESIGN CHOICE, log 159). -/
def runEncGop (ci : CmdIn) (s : State) : CmdRes :=
  withChan s (chanOf ci.p) fun x =>
    let g := encGopOf ci.p
    let o := x.coding.gop
    if !encGopOk g || tooFar ci x then refuse s stBadParam
    else if alreadyStarted ci x then startedRefusal x s
    else if fixedNow ci x && (g.structure' != o.structure' || g.miniGop != o.miniGop || g.lookahead != o.lookahead) then refuse s stBadState
    else match raiseLoad s (chanOf ci.p) x x.run.admRate g.nRef x.run.admDelay false o with
      | (_, some r) => r
      | (s, none) => changeAtPicture ci (chanOf ci.p) x s (storeChange (chanOf ci.p) ci.p)
def meanEncGop : Meaning := { deny := denyNamed, run := runEncGop }

/-- ENC_SPEC (R116). -/
def runEncSpec (ci : CmdIn) (s : State) : CmdRes :=
  withChan s (chanOf ci.p) fun x =>
    if fld ci.p 3 6 4 = 0 || decide (6 < fld ci.p 3 6 4) || tooFar ci x then refuse s stBadParam
    else if alreadyStarted ci x then startedRefusal x s
    else match raiseLoad s (chanOf ci.p) x x.run.admRate x.run.admRef x.run.admDelay (flag ci.p 3 1) x.coding.gop with
      | (_, some r) => r
      | (s, none) => changeAtPicture ci (chanOf ci.p) x s (storeChange (chanOf ci.p) ci.p)
def meanEncSpec : Meaning := { deny := denyNamed, run := runEncSpec }

/-- ENC_ME (R113). -/
def runEncMe (ci : CmdIn) (s : State) : CmdRes :=
  withChan s (chanOf ci.p) fun x =>
    if fld ci.p 3 1 0 = 3 || fld ci.p 3 3 2 == 3 || tooFar ci x then refuse s stBadParam
    else if alreadyStarted ci x then startedRefusal x s
    else changeAtPicture ci (chanOf ci.p) x s (storeChange (chanOf ci.p) ci.p)
def meanEncMe : Meaning := { deny := denyNamed, run := runEncMe }

/-- ENC_REGION (R162, R163, R167). -/
def runEncRegion (ci : CmdIn) (s : State) : CmdRes :=
  withChan s (chanOf ci.p) fun x =>
    let r := regionOf ci.p
    let outside := match x.cfg with | some c => r.kind != 0 && (decide (c.width < r.x + r.w) || decide (c.height < r.y + r.h)) | none => false
    if !regionOk r || outside || tooFar ci x then refuse s stBadParam
    else if alreadyStarted ci x then startedRefusal x s
    else if admitted x && !(losslessWith s (chanOf ci.p) x (targetPicture ci x) ci.p) then refuse s stBadState
    else changeAtPicture ci (chanOf ci.p) x s (storeChange (chanOf ci.p) ci.p)
def meanEncRegion : Meaning := { deny := denyNamed, run := runEncRegion }

/-- A rate-control command whose new values are `r` (R91, R165 to R167): R163 where the channel is not IDLE, then admission of a raised R. -/
def changeRate (ci : CmdIn) (x : Chan) (r : RcCfg) (s : State) : CmdRes :=
  let c := chanOf ci.p
  if alreadyStarted ci x then startedRefusal x s
  else if admitted x && !(losslessWith s c x (targetPicture ci x) ci.p) then refuse s stBadState
  else match raiseLoad s c x r.rateMax x.run.admRef x.run.admDelay false x.coding.gop with
    | (_, some e) => e
    | (s, none) => changeAtPicture ci c x s (storeChange c ci.p)

/-- RC_CONFIG (R145). -/
def runRcConfig (ci : CmdIn) (s : State) : CmdRes :=
  withChan s (chanOf ci.p) fun x =>
    let r := rcCfgOf ci.p
    if !rcCfgOk (qpLimit x) r || tooFar ci x then refuse s stBadParam
    else if alreadyStarted ci x then startedRefusal x s
    else match fixedNow ci x, x.coding.rc with
      | true, some o =>
        if r.mode != o.mode || r.hrd != o.hrd || r.rowCap != o.rowCap || r.cpbSize != o.cpbSize then refuse s stBadState else changeRate ci x r s
      | _, _ => changeRate ci x r s
def meanRcConfig : Meaning := { deny := denyNamed, run := runRcConfig }

/-- The rate-control values that hold when an update takes effect: those after the changes that wait before it (R166). -/
def rcBefore (s : State) (ci : CmdIn) (x : Chan) : Option RcCfg :=
  let l := (pictureWaiters s (chanOf ci.p) x).filter (fun e => decide (e.1 ≤ targetPicture ci x))
  (l.foldl (fun c e => changeCoding e.2.packet c) x.coding).rc

/-- RC_UPDATE (R165, R166). -/
def runRcUpdate (ci : CmdIn) (s : State) : CmdRes :=
  withChan s (chanOf ci.p) fun x =>
    match rcBefore s ci x with
    | none => if tooFar ci x then refuse s stBadParam else refuse s stBadState
    | some r =>
      if !rcUpdateOk (qpLimit x) ci.p r || tooFar ci x then refuse s stBadParam
      else changeRate ci x (rcUpdated ci.p r) s
def meanRcUpdate : Meaning := { deny := denyNamed, run := runRcUpdate }

/-- The source of a configured channel does not fit it: a KIND 0 flow that differs or is RGB (R306), an output of another size or rate (R85). -/
def sourceMismatch (s : State) (c : ChanCfg) : Bool :=
  if c.srcKind = 0 then
    (flowInAt s c.srcIndex).elim false (fun f => f.cfg.sampling == 3 || f.cfg.width != c.width || f.cfg.height != c.height
      || f.cfg.rateNum * c.rateDen != c.rateNum * f.cfg.rateDen)
  else if c.srcKind = 2 then
    (outAt s c.srcIndex).elim false (fun o => o.cfg.width != c.width || o.cfg.height != c.height || o.cfg.rateNum * c.rateDen != c.rateNum * o.cfg.rateDen)
  else false

/-- A channel fed by an output with a Lighthouse layer can carry it (R201): CHROMA of the output, not HEVC Main. -/
def lhProfileOk (s : State) (c : ChanCfg) (p : EncProfile) : Bool :=
  match feedOutput s c with | some o => p.chroma == o.chroma && !(p.codec == 0 && p.profile == 0) | none => true

/-- The conditions under which CHAN_START ends with ST_BAD_PARAM (R121, R124, R146, R148, R163, R201, R306). -/
def startParamBad (s : State) (x : Chan) (c : ChanCfg) (p : EncProfile) (rc : RcCfg) : Bool :=
  let g := geomOf s c p
  let cases := chanLhCases s c
  !(cases.all (fun lh => levelOk p c g (regionRects x.coding ++ lh))) || !qpOk (qpLimit x) rc || (!rc.hrd && rc.mode == 0) || (rc.hrd && rc.mode == 2)
    || (rc.hrd && decide (levelRate p < rc.rateMax * 1000))
    || decide (rc.cpbSize < drainBase c rc.rateMax * (2 + rc.keyBoost) / 2 + rc.rowCap)
    || !regionsInside x.coding c.width c.height || !(cases.all (fun lh => losslessOk g p rc (regionRects x.coding ++ lh))) || sourceMismatch s c
    || (cases.any (fun lh => !lh.isEmpty) && !lhProfileOk s c p)

/-- Start time of START_MODE 1 in ns (R95). -/
def startNs (p : Packet) : Nat := timeNsOf p 4

/-- The trigger of START_MODE 2 is set to a channel-start action (R96). -/
def triggerStarts (s : State) (n : Nat) : Bool := (s.time.triggers.get? n).elim false (fun t => t.action == 1)

/-- A parameter of CHAN_START is refused whatever the channel: START_MODE 3, and with START_MODE 1 a nanosecond field that is no fraction of a second, for which the spec gives no range (DESIGN CHOICE, log 161). -/
def startFieldsBad (p : Packet) : Bool := fld p 3 1 0 == 3 || (fld p 3 1 0 == 1 && decide (1000000000 ≤ word p 6))

/-- The largest value of a list, at least d. -/
def mostOf {α : Type} (f : α → Nat) (d : Nat) (l : List α) : Nat := l.foldl (fun m x => max m (f x)) d

/-- CHAN_START (R83, R88 to R97, R102, R483). The load admitted covers the changes that wait for pictures of the run (R91). D_min in RESULT0 is rounded up to a whole ns, and the row slots stay as L gave them at CHAN_START: the spec states neither (DESIGN CHOICE, logs 162 and 163). -/
def runChanStart (ci : CmdIn) (s : State) : CmdRes :=
  withChan s (chanOf ci.p) fun x =>
    let n := chanOf ci.p
    let mode := fld ci.p 3 1 0
    match x.cfg, x.profile, x.coding.rc with
    | some c, some p, some rc =>
      if startFieldsBad ci.p || startParamBad s x c p rc then refuse s stBadParam
      else if admitted x then refuse s stBadState
      else
        let g := geomOf s c p
        let d := delayOf g x.delayReq
        if !sourceExists s c || (c.srcKind == 1 && (laneAt s c.srcIndex).cfg.mode != 2) then refuse s stBadState
        else if d < g.dMin then .done s stBadState 0 (ceilRat g.dMin) 0
        else if mode = 1 ∧ nsInstant (startNs ci.p) ≤ s.time.local' then refuse s stBadState
        else if mode = 2 ∧ !triggerStarts s (fld ci.p 3 9 8) then refuse s stBadState
        else if c.refMode = 1 ∧ s.time.ptp.st ≠ .locked then refuse s stBadState
        else
          let all := codingsAhead s n x
          let rate := mostOf (fun k => (k.rc.map (fun r => r.rateMax)).getD 0) rc.rateMax all
          let refs := mostOf (fun k => k.gop.nRef) 0 all
          let la := all.any (fun k => k.spec.runAhead) || x.coding.gop.lookahead != 0
          let l := loadOf s n c p rc.rowCap rate refs x.coding.gop.lookahead la d d
          let ls := poolWith s (some l) (some n)
          if s.mem.noFit || !spaceFits s ls then refuse s stNoResource
          else match admitLoad s l true, placeIsles s n l.nIsle with
            | some (code, who), _ => .done s stCapacity 0 code who
            | none, none => .done s stCapacity 0 2 n
            | none, some isles =>
              if shedStops s (chanShedClass s x) then refuse s stShed
              else
                let pool := loadL s ls
                let start : Instant := if mode = 1 then nsInstant (startNs ci.p) else s.time.local'
                let run : Run := { startMode := mode, startAt := start, trigger := fld ci.p 3 9 8, isles := isles, admRate := rate, admRef := refs,
                                   admDelay := d, maxDelay := d, lookaheadSpace := la, lagoonSlots := lagoonSlots pool l, v := (vTargetBits rc : Int) }
                .pend (modChan s n (fun x => { x with st := if mode = 0 then .running else .armed, run := run, counters := {}, stopReason := 0, lossFlag := false,
                                                      sliceFault := false, confidence := false, input := {} })) (.chanStart n) 0 0
    | _, _, _ => if startFieldsBad ci.p then refuse s stBadParam else refuse s stBadState
def meanChanStart : Meaning := { deny := denyNamed, run := runChanStart }

/-- Under an input-loss policy the T_refs follow one another by the picture period (R85): those that have come by an instant. A composed channel has those of its output, a standby in lockstep those of the holder (R391). -/
def lostTrefs (s : State) (x : Chan) (now : Instant) : List (Instant × Option Nat) :=
  let last := (x.input.pending.getLast?).map (fun e => e.1)
  match x.cfg, chanGeom s x with
  | some c, some g =>
    if x.input.status = 0 ∨ c.srcKind = 2 ∨ (x.run.nextPic = 0 ∧ last.isNone) ∨ (isStandby s && inLockstep s) then []
    else
      let p := max 1 (Rat.floor (nsQ g.period)).toNat
      let t := last.getD x.run.lastTref
      (List.range ((now - t) / p)).map (fun i => (t + (i + 1) * p, none))
  | _, _ => []

/-- They join the reference instants that wait. -/
def fillLost (c : Nat) (s : State) : State := modChan s c (fun x => { x with input.pending := x.input.pending ++ lostTrefs s x s.time.local' })

/-- The number of pictures whose T_ref is at or before an instant (R85, R99). -/
def picturesBegun (s : State) (x : Chan) (now : Instant) : Nat :=
  x.run.nextPic + ((x.input.pending ++ lostTrefs s x now).filter (fun e => decide (e.1 ≤ now))).length

/-- All slices of the pictures up to number n have been assembled. -/
def slicesDone (s : State) (x : Chan) (n : Nat) : Bool :=
  decide (n < x.run.nextPic) && (match x.cfg, x.profile, x.run.pics.get? n with
    | some c, some p, some q => decide ((slicesOf p (geomOf s c p) q.lossless).length ≤ q.slices)
    | _, _, _ => true)

/-- A drain begins (R99): the current picture is the last. Before picture 0 there is nothing to code. -/
def chanDrain (c : Nat) (s : State) : State :=
  match chanAt s c with
  | none => s
  | some x =>
    let x := dropEarly x
    let begun := picturesBegun s x s.time.local'
    let none' := begun == 0
    let n := begun - 1
    let s := modChan s c (fun x => { dropEarly x with st := .draining, run.drainAfter := some n })
    if none' then chanEnd c s
    else if slicesDone s x n then
      endStream c (max (localQ s) ((x.run.queue.getLast?).elim 0 (fun q => q.due))) s
    else s

/-- CHAN_STOP once the command itself waits: drain or abort (R98 to R101). -/
def stopNow (c : Nat) (abort : Bool) (s : State) : State :=
  match chanAt s c with
  | none => s
  | some x =>
    if abort then chanAbort c s
    else if x.st == .draining then s
    else chanDrain c s

/-- A CHAN_STOP that has been accepted waits for the end of stream; the stop itself is taken up once it waits, so that it completes with the others (R99 to R101). -/
def runChanStop (ci : CmdIn) (s : State) : CmdRes :=
  withChan s (chanOf ci.p) fun x =>
    let c := chanOf ci.p
    if x.st == .idle then refuse s stBadState
    else if x.st == .armed then okDone (modChan (cancelArmed c stCancelled s) c (fun x => { x with stopReason := 1 })) 0
    else .pend s (.chanStop c) 0 0
def meanChanStop : Meaning := { deny := denyNamed, run := runChanStop, after := fun ci s => stopNow (chanOf ci.p) (flag ci.p 3 0) s }

/-- CHAN_DESTROY (R83, R103); what still waits for a picture of the channel ends with ST_CANCELLED (log 158). -/
def runChanDestroy (ci : CmdIn) (s : State) : CmdRes :=
  withChan s (chanOf ci.p) fun x =>
    let c := chanOf ci.p
    if coding x then refuse s stBadState
    else okDone (chanRemove c (cancelWaiters c stCancelled (cancelArmed c stCancelled s))) 0
def meanChanDestroy : Meaning := { deny := denyNamed, run := runChanDestroy }

/-- STATE codes (Table 3.7). -/
def chanCode : ChanState → Nat
  | .idle => 0 | .armed => 1 | .running => 2 | .draining => 3

/-- Whole nanoseconds of a delay held in 2⁻³² ns. -/
def delayNs (r : Rat) : Nat := (Rat.floor (r / 4294967296)).toNat

/-- S = A × P in 2⁻³² ns (R126). -/
def lookaheadSpan (s : State) (x : Chan) : Rat :=
  match chanGeom s x with | some g => nsQ ((x.coding.gop.lookahead : Rat) * g.period) | none => 0

/-- The channel status record (Table 3.7). -/
def chanRecord (s : State) (n : Nat) (x : Chan) : List Byte :=
  let sp := lookaheadSpan s x
  let begun := coding x && decide (0 < x.run.nextPic)
  let armed := if x.st = .idle then 0 else (chanGeom s x).elim 0 (fun g => delayNs (nsQ (delayOf g x.delayReq) + sp))
  let cur := if begun then delayNs (x.run.delayCur + sp) else armed
  let tgt := if begun then delayNs (x.run.delayTgt + sp) else if x.st ≠ .idle then armed
    else if x.delayReq = 0 then 0 else x.delayReq * 1000 + delayNs sp
  le 1 n ++ le 1 (chanCode x.st) ++ le 1 x.input.status ++ le 1 (x.stopReason + x.lossFlag.toNat * 128) ++ le 4 cur ++ le 4 tgt
    ++ le 8 x.counters.picture ++ le 4 x.counters.lateSlices ++ le 4 x.counters.missingLines ++ le 4 x.counters.rcStalls

/-- CHAN_STATUS (R108). -/
def runChanStatus (ci : CmdIn) (s : State) : CmdRes :=
  let c := fld ci.p 5 5 0
  withChan s c fun x => .answer s (chanRecord s c x) 0 0
def meanChanStatus : Meaning := { deny := fun ci s => denyChan (fld ci.p 5 5 0) ci s, run := runChanStatus }

/-- CHAN_CREATE (R79). -/
def execChanCreate (q : FlowRef) (b : Bus) (s : State) : Host.Outcome State Fault Refusal := .next (startRow 0x0201 meanChanCreate q b s)
/-- CHAN_CONFIG (R80). -/
def execChanConfig (q : FlowRef) (b : Bus) (s : State) : Host.Outcome State Fault Refusal := .next (startRow 0x0202 meanChanConfig q b s)
/-- CHAN_START (R95). -/
def execChanStart (q : FlowRef) (b : Bus) (s : State) : Host.Outcome State Fault Refusal := .next (startRow 0x0203 meanChanStart q b s)
/-- CHAN_STOP (R98). -/
def execChanStop (q : FlowRef) (b : Bus) (s : State) : Host.Outcome State Fault Refusal := .next (startRow 0x0204 meanChanStop q b s)
/-- CHAN_DESTROY (R103). -/
def execChanDestroy (q : FlowRef) (b : Bus) (s : State) : Host.Outcome State Fault Refusal := .next (startRow 0x0205 meanChanDestroy q b s)
/-- CHAN_SET_DELAY (R89). -/
def execChanSetDelay (q : FlowRef) (b : Bus) (s : State) : Host.Outcome State Fault Refusal := .next (startRow 0x0206 meanChanSetDelay q b s)
/-- KEY_REQUEST (R127). -/
def execKeyRequest (q : FlowRef) (b : Bus) (s : State) : Host.Outcome State Fault Refusal := .next (startRow 0x0207 meanKeyRequest q b s)
/-- CHAN_STATUS (R108). -/
def execChanStatus (q : FlowRef) (b : Bus) (s : State) : Host.Outcome State Fault Refusal := .next (startRow 0x0208 meanChanStatus q b s)
/-- ENC_PROFILE (R121). -/
def execEncProfile (q : FlowRef) (b : Bus) (s : State) : Host.Outcome State Fault Refusal := .next (startRow 0x0301 meanEncProfile q b s)
/-- ENC_GOP (R125). -/
def execEncGop (q : FlowRef) (b : Bus) (s : State) : Host.Outcome State Fault Refusal := .next (startRow 0x0302 meanEncGop q b s)
/-- RC_CONFIG (R145). -/
def execRcConfig (q : FlowRef) (b : Bus) (s : State) : Host.Outcome State Fault Refusal := .next (startRow 0x0303 meanRcConfig q b s)
/-- RC_UPDATE (R165). -/
def execRcUpdate (q : FlowRef) (b : Bus) (s : State) : Host.Outcome State Fault Refusal := .next (startRow 0x0304 meanRcUpdate q b s)
/-- ENC_REGION (R162). -/
def execEncRegion (q : FlowRef) (b : Bus) (s : State) : Host.Outcome State Fault Refusal := .next (startRow 0x0305 meanEncRegion q b s)
/-- ENC_SPEC (R116). -/
def execEncSpec (q : FlowRef) (b : Bus) (s : State) : Host.Outcome State Fault Refusal := .next (startRow 0x0306 meanEncSpec q b s)
/-- ENC_ME (R113). -/
def execEncMe (q : FlowRef) (b : Bus) (s : State) : Host.Outcome State Fault Refusal := .next (startRow 0x0307 meanEncMe q b s)

end Sys2Proof.Machine
end

