-- ==== Sys2Proof/Machine/DecState.lean ====
section
/-! DEFINITION. Which decoders run, and access units that reach a decoder (R217, R222, R228, R229, R391, R422). -/

namespace Sys2Proof.Machine

/-- An applied layer uses decoder n (R229). -/
def decUsed (s : State) (n : Nat) : Bool := s.outs.any (fun e => e.2.layers.any (fun l => l.2.srcKind == 3 && l.2.srcIndex == n))

/-- Decoder n is stopped: its engine is out of service (R422), or shedding step 4 stops it (R229). -/
def decStopped (s : State) (n : Nat) (d : Decoder) : Bool :=
  d.stopped || (decide (4 ≤ s.power.step) && (d.srcKind == 1 || !decUsed s n))

/-- A decoder that stops keeps its last presented picture and shows STATE 4; one that resumes waits for a start point (R229). -/
def settleDecoder (n : Nat) (s : State) : State :=
  match decAt s n with
  | none => s
  | some d =>
    if decStopped s n d then
      if d.st = 4 then s else setDecState n 4 (modDec s n (fun d => { d with aus := [], startedAt := false, part := none, history := [], badSets := false, waiting := [] }))
    else if d.st = 4 then setDecState n (if d.srcKind = 1 then 3 else 0) s
    else s
def settleDecoders (s : State) : State := s.decs.foldl (fun s e => settleDecoder e.1 s) s

/-- An access unit has arrived whole at decoder n: its stamps and presentation instant (R217); a stopped decoder takes none. The holder of a pair sends the stamps (R391). -/
def pushAu (n : Nat) (first last present : Instant) (data : List (Option (List Byte))) (coded : Option Nat) (s : State) : State :=
  match decAt s n with
  | none => s
  | some d =>
    let s := modDec s n (fun d => { d with auSerial := d.auSerial + 1, aus := if decStopped s n d then [] else d.aus ++ [{ serial := d.auSerial, first := first, last := last, present := present, data := data, coded := coded }] })
    sendInput (.decStamp n d.auSerial first last) s

/-- The access unit that decoder n is receiving is whole: it waits for decoding; `present` is the instant of media time, none in arrival mode (R217). -/
def closeAu (n : Nat) (present : Option Instant) (coded : Option Nat) (s : State) : State :=
  match decAt s n with
  | none => s
  | some d => match d.part with
    | none => s
    | some p => pushAu n p.first p.last ((present.getD p.last) + nsInstant (d.lag * 1000)) p.data coded (modDec s n (fun d => { d with part := none }))

/-- A packet or NAL unit joins the access unit that decoder n is receiving (R217). -/
def joinAu (n : Nat) (stamp : Instant) (ts : Nat) (data : List (Option (List Byte))) (s : State) : State :=
  modDec s n (fun d => { d with part := some (match d.part with
    | none => { first := stamp, last := stamp, ts := ts, data := data }
    | some p => { p with last := stamp, data := p.data ++ data }) })

/-- NAL units of picture m of channel c reach the confidence decoders of the channel in emission order (R228): those of slice 0 begin an access unit, those of the last slice complete it. -/
def feedConfidence (c m : Nat) (first last : Bool) (nals : List (List Byte)) (s : State) : State :=
  (s.decs.filter (fun e => e.2.srcKind == 1 && e.2.srcIndex == c)).foldl (fun s e =>
    let s := joinAu e.1 s.time.local' 0 (nals.map some) (if first then modDec s e.1 (fun d => { d with part := none }) else s)
    if last then closeAu e.1 none (some m) s else s) s

end Sys2Proof.Machine
end

