-- ==== Sys2Proof/Machine/Depacket.lean ====
section
/-! DEFINITION. NAL units of a received access unit: RTP payloads and MPEG-2 transport taken apart, gaps, the base layer, units that decoding resumes at (R220, R222, Tables 7.3 and 7.4). The layouts are those of the RFCs and standards that Table 7.3 names (PRESUMED, log 168). -/

namespace Sys2Proof.Machine

/-- Bits of the byte at a place; 0 beyond the end. -/
def byteAt (b : List Byte) (i : Nat) : Nat := (b.getD i 0).toNat

/-- Bytes of a NAL unit header: 2 in HEVC (0) and VVC (1), 1 in AVC (2). -/
def headerLen (codec : Nat) : Nat := if codec = 2 then 1 else 2

/-- NAL unit type. -/
def unitType (codec : Nat) (n : List Byte) : Nat :=
  if codec = 0 then byteAt n 0 / 2 % 64 else if codec = 1 then byteAt n 1 / 8 else byteAt n 0 % 32

/-- nuh_layer_id; AVC has none. -/
def unitLayer (codec : Nat) (n : List Byte) : Nat :=
  if codec = 0 then byteAt n 0 % 2 * 32 + byteAt n 1 / 8 else if codec = 1 then byteAt n 0 % 64 else 0

/-- Payload header types of aggregation and fragmentation packets: R143's in HEVC and VVC, STAP-A and FU-A in AVC. -/
def apType (codec : Nat) : Nat := if codec = 2 then 24 else aggregationType codec
def fuType (codec : Nat) : Nat := if codec = 2 then 28 else fragmentType codec

/-- NAL units of an aggregation packet behind its payload header, each behind its 16-bit size. -/
def aggregated : Nat → List Byte → List (List Byte)
  | 0, _ => []
  | fuel + 1, b =>
    let n := byteAt b 0 * 256 + byteAt b 1
    if b.length < 2 ∨ n = 0 then [] else (b.drop 2).take n :: aggregated fuel (b.drop (2 + n))

/-- The NAL unit header that a fragmentation unit's headers stand for. -/
def fuHeader (codec : Nat) (b : List Byte) : List Byte :=
  if codec = 0 then [BitVec.ofNat 8 (byteAt b 0 / 128 * 128 + byteAt b 2 % 64 * 2 + byteAt b 0 % 2), BitVec.ofNat 8 (byteAt b 1)]
  else if codec = 1 then [BitVec.ofNat 8 (byteAt b 0), BitVec.ofNat 8 (byteAt b 2 % 32 * 8 + byteAt b 1 % 8)]
  else [BitVec.ofNat 8 (byteAt b 0 / 32 * 32 + byteAt b 1 % 32)]

/-- A PACI packet's payload with its own header: header extensions are passed over (Table 7.3). -/
def paciInner (b : List Byte) : List Byte :=
  let f := byteAt b 2 * 256 + byteAt b 3
  [BitVec.ofNat 8 (byteAt b 0 / 128 * 128 + f / 512 % 64 * 2 + byteAt b 0 % 2), BitVec.ofNat 8 (byteAt b 1)] ++ b.drop (4 + f / 16 % 32)

/-- Units found so far, and the fragmented one being put together. -/
structure Depack where
  done : List (List Byte) := []
  part : Option (List Byte) := none
  /-- a gap or a discarded unit: units are passed over until one that decoding resumes at (R222) -/
  skip : Bool := false
  deriving DecidableEq, Repr

/-- A unit that begins a slice, a picture or a parameter set: coded slices, parameter sets, picture headers and access unit delimiters (R222). -/
def resumesAt (codec : Nat) (n : List Byte) : Bool :=
  let t := unitType codec n
  if codec = 0 then decide (t ≤ 35) else if codec = 1 then decide (t ≤ 11) || (decide (14 ≤ t) && decide (t ≤ 20)) else (decide (1 ≤ t) && decide (t ≤ 5)) || (decide (7 ≤ t) && decide (t ≤ 9))

/-- One more whole unit. -/
def Depack.put (codec : Nat) (n : List Byte) (d : Depack) : Depack :=
  if d.skip && !(resumesAt codec n) then d else { d with done := d.done ++ [n], skip := false }

/-- One RTP payload; none: a gap, which discards the fragmented unit it touches (R222, Table 7.4). -/
def Depack.payload (codec : Nat) (d : Depack) : Option (List Byte) → Depack
  | none => { d with part := none, skip := true }
  | some b0 =>
    let b := if codec = 0 && unitType 0 b0 == 50 then paciInner b0 else b0
    let t := unitType codec b
    if t = apType codec then (aggregated b.length (b.drop (headerLen codec))).foldl (fun d n => d.put codec n) { d with part := none }
    else if t = fuType codec then
      let h := byteAt b (headerLen codec)
      let body := b.drop (headerLen codec + 1)
      let part := if h / 128 = 1 then some (fuHeader codec b ++ body) else d.part.map (fun p => p ++ body)
      if h / 64 % 2 = 1 then (match part with | some n => Depack.put codec n { d with part := none } | none => { d with part := none })
      else { d with part := part }
    else d.put codec b

/-- The bytes behind the header and adaptation field of a transport packet; none where it has no payload. -/
def tsBody (b : List Byte) : List Byte :=
  let c := byteAt b 3 / 16 % 4
  if c % 2 = 0 then [] else b.drop (4 + (if c = 3 then 1 + byteAt b 4 else 0))
def tsPid (b : List Byte) : Nat := byteAt b 1 % 32 * 256 + byteAt b 2

/-- Transport packets of a datagram. -/
def tsSplit (b : List Byte) : List (List Byte) := (List.range (b.length / 188)).map (fun i => (b.drop (188 * i)).take 188)

/-- Continuity-counter gaps of transport packets, and the counters by PID after them (Table 7.4). -/
def tsGaps (cc : FMap Nat) (l : List (List Byte)) : Nat × FMap Nat :=
  l.foldl (fun a b =>
    let c := byteAt b 3 % 16
    if byteAt b 3 / 16 % 2 = 0 ∨ tsPid b = 0x1FFF then a
    else match a.2.get? (tsPid b) with
      | some x => (if c = x ∨ c = (x + 1) % 16 then a.1 else a.1 + 1, a.2.set (tsPid b) c)
      | none => (a.1, a.2.set (tsPid b) c)) (0, cc)

/-- A PES packet of a video stream begins in this body. -/
def pesVideo (b : List Byte) : Bool := byteAt b 0 == 0 && byteAt b 1 == 0 && byteAt b 2 == 1 && byteAt b 3 / 16 == 14

/-- The elementary stream that transport packets carry on the PID of their video stream. -/
def elementary (l : List (List Byte)) : List Byte :=
  match l.find? (fun b => pesVideo (tsBody b)) with
  | none => []
  | some h => (l.filter (fun b => tsPid b == tsPid h)).flatMap (fun b => let x := tsBody b; if pesVideo x then x.drop (9 + byteAt x 8) else x)

/-- NAL units of a byte stream: what stands between its start codes, trailing zero bytes dropped. -/
def byteStream : List Byte → List Byte → List (List Byte)
  | cur, [] => if cur.isEmpty then [] else [cur]
  | cur, b :: r =>
    match cur.reverse, b with
    | 0 :: 0 :: rest, 1#8 => (let n := (rest.dropWhile (fun x => x == 0)).reverse; if n.isEmpty then [] else [n]) ++ byteStream [] r
    | _, _ => byteStream (cur ++ [b]) r

/-- Units of transport data, gap by gap: a unit that a gap touches is discarded. -/
def tsUnits (codec : Nat) (parts : List (Option (List Byte))) : Depack :=
  let runs := parts.foldl (fun (a : List (List (List Byte))) p => match p with
    | none => a ++ [[]]
    | some b => a.dropLast ++ [(a.getLast?).getD [] ++ tsSplit b]) [[]]
  runs.zipIdx.foldl (fun d r =>
    let ns := byteStream [] (elementary r.1)
    let ns := (if r.2 = 0 then ns else ns.drop 1)
    let ns := if r.2 + 1 < runs.length then ns.dropLast else ns
    ns.foldl (fun d n => d.put codec n) { d with skip := decide (0 < r.2) }) {}

/-- The NAL units of an access unit, other layers than the base layer discarded (R220). `ts`: over MPEG-2 transport. -/
def baseUnits (codec : Nat) (ts : Bool) (parts : List (Option (List Byte))) : List (List Byte) :=
  let d := if ts then tsUnits codec parts else parts.foldl (Depack.payload codec) {}
  d.done.filter (fun n => unitLayer codec n == 0)

/-- NAL syntax error: forbidden_zero_bit set, or start-code emulation in the payload (Table 7.4). -/
def badUnit (n : List Byte) : Bool := decide (128 ≤ byteAt n 0) || !(noEmulation n)

/-- Profile and level lie in Table 7.3: profiles in its order, levels as the standards number them (6.2 is 186 in HEVC and 102 in VVC, 5.2 is 52 in AVC). -/
def decodable (codec profile level : Nat) : Bool :=
  if codec = 0 then decide (profile < 4) && decide (level ≤ 186) else if codec = 1 then decide (profile < 2) && decide (level ≤ 102) else decide (profile < 2) && decide (level ≤ 52)

end Sys2Proof.Machine
end

