-- ==== Sys2Proof/Machine/Fabric.lean ====
section
/-! DEFINITION. The arbiters of the fast matrix and their registers (R259, R261 to R272). -/

namespace Sys2Proof.Machine

/-- Requesters of arbiter a, emergency requesters apart (Table 9.4). -/
def arbSize (a : Nat) : Nat :=
  if a < 48 then 64 else if a < 56 then 2 else if a < 120 then 4 else if a < 128 then 8 else if a < 130 then 6 else if a = 130 then 8 else if a < 163 then 48 else 0

/-- Fixed class of master port m: 0 RT, 1 BE, 2 MGMT, 3 Emergency (Table 9.1). -/
def portClass (m : Nat) : Nat := if m < 24 then 0 else if m < 28 then 1 else if m < 31 then 2 else 3

/-- Reset value of ARB_SHADOW_PRIO[a][i]: the class of the requester's port (Table 9.5, R256). CLASS has no code for Emergency: M31's is 2 (DESIGN CHOICE, log 172). -/
def prioReset (i : Nat) : Prio := { cls := min 2 (portClass (i / 2)) }

/-- Values in force of requester i at arbiter a. Arbiters of 48 and above have neither classes nor levels (R261). -/
def prioOf (x : Arb) (a i : Nat) : Prio := if a < 48 then x.prio.getD i (prioReset i) else { cls := 0 }

/-- Rank of requester i: those that have never won rank first, by number; the winners follow, the last winner last (R262). -/
def rankOf (x : Arb) (i : Nat) : Nat := match x.won.findIdx? (· == i) with | some j => 1000 + j | none => i

/-- Requester i is chosen before j: class, then level, then rank (R262). -/
def beats (x : Arb) (a i j : Nat) : Bool :=
  let p := prioOf x a i
  let q := prioOf x a j
  decide (p.cls < q.cls) || (p.cls == q.cls && (decide (q.level < p.level) || (p.level == q.level && decide (rankOf x i < rankOf x j))))

/-- The winner of a round (R262). A QPORT controller serves the matrix stream, and training only while its port is out of service; a PC controller its queues in class order (R239, Table 9.4). -/
def roundWinner (s : State) (x : Arb) (a : Nat) (reqs : List Nat) : Option Nat :=
  if 48 ≤ a ∧ a < 56 then reqs.find? (fun i => i == (if s.mem.qportIn.getLsbD (a - 48) then 0 else 1))
  else if 56 ≤ a ∧ a < 120 then (List.range 4).find? (fun i => reqs.contains i)
  else reqs.foldl (fun w i => match w with | none => some i | some j => if beats x a i j then some i else some j) none

/-- Arbiter a applies the staged set (R264): all its values change at once. -/
def applyStaged (a : Nat) (s : State) : State :=
  if s.fab.pendingArbs.contains a then
    let mine := (s.fab.staged.keep (fun k _ => k / 64 == a)).map (fun e => (e.1 % 64, e.2))
    { modArb s a (fun x => { x with prio := mine }) with fab.pendingArbs := s.fab.pendingArbs.filter (· != a) }
  else s

/-- Waiting requesters after a round: the winner leaves, the others requesting wait (R267). -/
def waitAfter (x : Arb) (now : Nat) (reqs : List Nat) (w : Nat) : FMap Waiter :=
  let m := x.waiting.keep (fun i _ => reqs.contains i || x.masked.contains i)
  (reqs.foldl (fun m i => if m.has i then m else m.set i { since := some now }) m).erase w

/-- Hold a round at arbiter a among the requesters that are requesting and not masked (R262, R263). -/
def holdRound (a : Nat) (reqs : List Nat) (s : State) : State :=
  let x := arbAt s a
  match roundWinner s x a reqs with
  | none => modArb s a (fun x => { x with grant := none, waiting := x.waiting.keep (fun i _ => x.masked.contains i) })
  | some w =>
    let run := if a < 48 then (prioOf x a w).runM1 + 1 else 1
    modArb s a (fun x => { x with grant := some { requester := w, remaining := run, run := run, wonBefore := x.won },
                                  won := x.won.filter (· != w) ++ [w], waiting := waitAfter x s.now reqs w })

/-- The emergency that goes next: refresh before debug (R269). -/
def nextEmergency (l : List Bool) : Option (Bool × List Bool) :=
  if l.contains true then some (true, l.erase true) else match l with | e :: r => some (e, r) | [] => none

/-- One transaction of arbiter a ends and the next is chosen (R262, R263, R268, R269): an emergency ends first and the tenure it broke resumes; a tenure goes on
while its winner presents transactions without a gap; otherwise the arbiter applies a staged set (R264) and holds a round. -/
def arbiterRound (a : Nat) (reqs : List Nat) (s : State) : State :=
  if 162 < a then s
  else
    let x := arbAt s a
    let rs := (reqs.filter (fun i => decide (i < arbSize a) && !(decide (48 ≤ a) && x.masked.contains i))).dedup
    match nextEmergency x.emergencyWait with
    | some (e, r) => modArb s a (fun x => { x with emergency := some e, emergencyWait := r })
    | none =>
      if x.emergency.isSome ∧ x.grant.isSome then modArb s a (fun x => { x with emergency := none })
      else
        match x.grant with
        | some g =>
          if 1 < g.remaining ∧ rs.contains g.requester then
            modArb s a (fun x => { x with emergency := none, grant := some { g with remaining := g.remaining - 1 }, waiting := waitAfter x s.now rs g.requester })
          else holdRound a rs (applyStaged a (modArb s a (fun x => { x with emergency := none, grant := none })))
        | none => holdRound a rs (applyStaged a (modArb s a (fun x => { x with emergency := none })))

/-- STAGED_SET_APPLY (R264): an arbiter that holds no grant applies the staged set. -/
def execStagedSetApply (a : Nat) (s : State) : Host.Outcome State Fault Refusal :=
  .next (act s fun s => if (arbAt s a).grant.isNone then applyStaged a s else s)

/-- Arbiter clock cycles in a number of CLK_TIME ticks: CLK_QDR 1.0665 GHz at 48 to 55, 1.2 GHz elsewhere (Table 1.5a). -/
def arbCycles (a ticks : Nat) : Nat := if 48 ≤ a ∧ a < 56 then ticks * 2133 / 1000 else ticks * 12 / 5

/-- Cycles that a requester has waited (R267, R270). -/
def waited (a now : Nat) (w : Waiter) : Nat := arbCycles a (w.counted + match w.since with | some t => now - t | none => 0)

/-- STARVATION (R267): the wait of requester i at arbiter a reaches the limit; each wait counts once. -/
def starve (a i : Nat) (s : State) : State :=
  let x := arbAt s a
  match x.waiting.get? i with
  | none => s
  | some w =>
    if decide (130 < a) || w.reported || x.limit == 0 || decide (waited a s.now w < x.limit * 16) then s
    else
      let s := modArb s a (fun x => { x with waiting := x.waiting.set i { w with reported := true } })
      { s with fab := { s.fab with multi := s.fab.multi || s.fab.starved, starved := true, starveCount := satInc s.fab.starveCount 255,
                                   starveArb := if s.fab.starved then s.fab.starveArb else a, starveReq := if s.fab.starved then s.fab.starveReq else i } }
def execStarvation (a i : Nat) (s : State) : Host.Outcome State Fault Refusal := .next (act s (starve a i))

/-- EMERGENCY_PREEMPTION (R268, R269): refresh at a PC controller, or the debug port at an arbiter it reaches (Table 9.4), takes the arbiter; it waits while another emergency runs. -/
def preempt (a : Nat) (refresh : Bool) (s : State) : State :=
  if (refresh && !(decide (56 ≤ a) && decide (a < 120))) || decide (120 ≤ a) then s
  else modArb s a (fun x => match x.emergency with
    | none => { x with emergency := some refresh }
    | some _ => { x with emergencyWait := x.emergencyWait ++ [refresh] })

/-- Requester i withdraws at arbiter a (R271): no starvation arises; a grant not yet begun leaves the ranks as before its round, one under way ends its tenure. -/
def withdraw (a i : Nat) (s : State) : State :=
  if 48 ≤ a then s
  else modArb s a (fun x =>
    let x := { x with waiting := x.waiting.erase i }
    match x.grant with
    | some g => if g.requester = i then (if g.remaining = g.run then { x with grant := none, won := g.wonBefore } else { x with grant := none }) else x
    | none => x)

/-- The mask of requester i at arbiter a of 48 and above is asserted or released (R270): a masked requester does not request, its wait counter holds. -/
def maskRequester (a i : Nat) (on : Bool) (s : State) : State :=
  if a < 48 ∨ 130 < a then s
  else modArb s a (fun x =>
    if on then
      if x.masked.contains i then x
      else { x with masked := x.masked ++ [i], waiting := x.waiting.modify i (fun w => { w with counted := w.counted + (match w.since with | some t => s.now - t | none => 0), since := none }) }
    else { x with masked := x.masked.filter (· != i), waiting := x.waiting.modify i (fun w => if w.since.isNone then { w with since := some s.now } else w) })
def execRequesterMask (a i : Nat) (on : Bool) (s : State) : Host.Outcome State Fault Refusal := .next (act s (maskRequester a i on))

/-- An error response to master m is recorded (R259). -/
def recordDecodeError (m : Nat) (write : Bool) (addr : Nat) (s : State) : State :=
  let v := s.fab.decValid
  { s with fab := { s.fab with decCount := satInc s.fab.decCount 65535, decValid := true, decMaster := if v then s.fab.decMaster else m,
                               decWrite := if v then s.fab.decWrite else write, decAddr := if v then s.fab.decAddr else addr } }

/-- A write by PF0 to a register that only PF0 has (R492). -/
def pf0Write (s : State) (f : Fn) : Bool := hostUp s && f == 0

/-- ARB_COMMIT receives v (R264, R265, Table 9.6). -/
def writeArbCommit (v : Nat) (s : State) : State :=
  let s := if bitOf v 2 then { s with fab.commitLost := false } else s
  if !bitOf v 0 then s
  else if s.fab.pendingArbs.isEmpty then { s with fab := { s.fab with staged := s.fab.shadow, pendingArbs := List.range 48 } }
  else { s with fab.commitLost := true }
def execArbCommit (f : Fn) (v : Word) (s : State) : Host.Outcome State Fault Refusal :=
  .next (if pf0Write s f then writeArbCommit v.toNat s else s)

/-- ARB_STARVE_STAT receives v (R267, Table 9.7): a 1 in STARVED clears STARVED, MULTI and COUNT. -/
def execStarvedClear (f : Fn) (v : Word) (s : State) : Host.Outcome State Fault Refusal :=
  .next (if pf0Write s f && v.getLsbD 0 then { s with fab := { s.fab with starved := false, multi := false, starveCount := 0 } } else s)

/-- FAB_DECERR_STAT receives v (R259, Table 9.9): a 1 in VALID clears VALID and COUNT. -/
def execFabDecerrClear (f : Fn) (v : Word) (s : State) : Host.Outcome State Fault Refusal :=
  .next (if pf0Write s f && v.getLsbD 0 then { s with fab := { s.fab with decValid := false, decCount := 0 } } else s)

/-- ARB_SHADOW_PRIO[a][i] receives v (R261, R264, Table 9.5). -/
def writeShadow (a i v : Nat) (s : State) : State :=
  if 48 ≤ a ∨ 64 ≤ i then s
  else
    let old := s.fab.shadow.getD (64 * a + i) (prioReset i)
    let cls := bitsOf v 1 0
    { s with fab.shadow := s.fab.shadow.set (64 * a + i) { cls := if cls = 3 then old.cls else cls, level := bitsOf v 5 4, runM1 := bitsOf v 10 8 } }

/-- ARB_STARVE_LIMIT[a] receives v (Table 9.8). -/
def writeStarveLimit (a v : Nat) (s : State) : State :=
  if 130 < a then s else modArb s a (fun x => { x with limit := v % 65536 })

end Sys2Proof.Machine
end

