-- ==== Sys2Proof/Machine/Sched.lean ====
section
/-! DEFINITION. Skerry cores and the Harbour scheduler (R273 to R281). -/

namespace Sys2Proof.Machine

/-- Threads in READY. -/
def readyCount (s : State) : Nat := (s.harbour.threads.filter (fun e => e.2.st == .ready)).length

/-- HBR_READY_MAX follows the number of READY threads (Table 10.3). -/
def noteReady (s : State) : State := { s with harbour.readyMax := max s.harbour.readyMax (readyCount s) }

/-- Thread t becomes READY now (R276, R278). -/
def makeReady (t : Nat) (s : State) : State :=
  noteReady (modThread s t (fun x => { x with st := .ready, readyAt := s.harbour.clock, reReady := false }))

/-- An event arrives for thread t (R276): a BLOCKED thread becomes READY, a RUNNING one is marked RE_READY, one that is ready already merges it, one for a FREE thread is lost. -/
def threadPost (t : Nat) (s : State) : State :=
  match (threadAt s t).st with
  | .free => { s with harbour.lostEvents := inc32 s.harbour.lostEvents }
  | .blocked => makeReady t s
  | .ready => s
  | .prefetched _ => s
  | .running _ => modThread s t (fun x => { x with reReady := true })

/-- Harbour flow k is held: one of its threads is PREFETCHED or RUNNING (R278). -/
def harbourHeld (s : State) (k : Nat) : Bool :=
  s.harbour.threads.any (fun e => e.2.flow == some k && (match e.2.st with | .prefetched _ => true | .running _ => true | _ => false))

/-- Thread t is READY and eligible: it has no flow, or its flow is not held (R278). -/
def eligible (s : State) (t : Nat) : Bool :=
  let x := threadAt s t
  x.st == .ready && (match x.flow with | none => true | some k => !harbourHeld s k)

/-- Thread t ranks above u: higher priority, then ready earlier, then the lower number (R278). -/
def ranksAbove (s : State) (t u : Nat) : Bool :=
  let x := threadAt s t
  let y := threadAt s u
  decide (y.prio < x.prio) || (x.prio == y.prio && (decide (x.readyAt < y.readyAt) || (x.readyAt == y.readyAt && decide (t < u))))

/-- The best of a list of threads. -/
def bestOf (s : State) (l : List Nat) : Option Nat :=
  l.foldl (fun b t => match b with | none => some t | some u => if ranksAbove s t u then some t else some u) none

/-- The best eligible thread (R278). -/
def bestEligible (s : State) : Option Nat := bestOf s ((s.harbour.threads.map (fun e => e.1)).filter (eligible s))

/-- Put thread t into the slot of core c. -/
def prefetch (t c : Nat) (s : State) : State :=
  modCore (modThread s t (fun x => { x with st := .prefetched c })) c (fun x => { x with slot := some t })

/-- A core with an empty slot that is not in RESET gets the best eligible thread (R278). -/
def fillCore (s : State) (c : Nat) : State :=
  if (coreAt s c).st == .reset || (coreAt s c).slot.isSome then s
  else match bestEligible s with | some t => prefetch t c s | none => s

/-- An idle core starts the thread of its slot (R274, R280). -/
def startSlot (s : State) (c : Nat) : State :=
  let x := coreAt s c
  match x.slot with
  | some t =>
    if x.running.isNone && x.st != .reset then
      { modCore (modThread s t (fun y => { y with st := .running c })) c (fun y => { y with slot := none, running := some t, since := s.now, st := .run })
        with harbour.dispatches := inc32 s.harbour.dispatches }
    else s
  | none => s

/-- The lowest-ranked PREFETCHED thread, and its core (R279). -/
def worstPrefetched (s : State) : Option (Nat × Nat) :=
  (List.range 8).foldl (fun w c => match (coreAt s c).slot with
    | none => w
    | some t => match w with | none => some (t, c) | some (u, d) => if ranksAbove s u t then some (t, c) else some (u, d)) none

/-- At most one recall a cycle (R279): the recalled thread returns to READY with its original ready cycle. -/
def recallBest (s : State) : State :=
  match bestEligible s, worstPrefetched s with
  | some t, some (u, c) =>
    if ranksAbove s t u then
      let s := prefetch t c (modThread s u (fun x => { x with st := .ready }))
      { s with harbour.recalls := inc32 s.harbour.recalls }
    else s
  | _, _ => s

/-- A core reset by the run limit returns to RUN, and its mask at arbiter 130 is released (R270, R280). -/
def coreReturn (s : State) (c : Nat) : State :=
  match (coreAt s c).back with
  | some t => if t ≤ s.now then maskRequester 130 c false (modCore s c (fun x => { x with st := .run, back := none })) else s
  | none => s

/-- One cycle of Harbour (R278 to R280): what has come since the last one came in the same CLK_CTL cycle. -/
def harbourCycle (s : State) : State :=
  let cores := List.range 8
  let s := cores.foldl coreReturn s
  let s := recallBest (cores.foldl fillCore s)
  let s := coreSettle (noteReady (cores.foldl startSlot s))
  { s with harbour.clock := s.harbour.clock + 1 }

/-- Cancel thread t (R281); one made ready in this cycle is a race that the cancel wins. -/
def threadCancel (t : Nat) (s : State) : State :=
  let x := threadAt s t
  let s := if x.st == .ready && x.readyAt == s.harbour.clock then { s with harbour.cancelRace := inc32 s.harbour.cancelRace } else s
  match (threadAt s t).st with
  | .free => s
  | .blocked => modThread s t (fun _ => {})
  | .ready => modThread s t (fun _ => {})
  | .prefetched c => modCore (modThread s t (fun _ => {})) c (fun x => { x with slot := none })
  | .running _ => modThread s t (fun x => { x with cancelled := true, reReady := false })

/-- Firmware acts on Harbour and on its time-event slots (R275, R277, R281): it sets priority and flow of a thread that is FREE or BLOCKED alone. -/
def fwAct (s : State) : FwAct → State
  | .set t prio flow =>
    if (threadAt s t.val).st == .free || (threadAt s t.val).st == .blocked then
      modThread s t.val (fun x => { x with st := .blocked, prio := prio.val, flow := flow.map (fun k => k.val) })
    else s
  | .post t => threadPost t.val s
  | .cancel t => threadCancel t.val s
  | .slot i at' period t => { s with harbour.slots := s.harbour.slots.set i.val { at' := at', period := period, thread := t.val } }
  | .clearSlot i => { s with harbour.slots := s.harbour.slots.erase i.val }
  | .control n t => { s with harbour.trigThreads := match t with | some t => s.harbour.trigThreads.set n.val t.val | none => s.harbour.trigThreads.erase n.val }

/-- The running thread of core c yields (R280, R281). -/
def threadYields (c : Nat) (y : YieldKind) (s : State) : State :=
  match (coreAt s c).running with
  | none => s
  | some t =>
    let x := threadAt s t
    let s := modCore s c (fun z => { z with running := none })
    let s := match y with
      | .finish => modThread s t (fun _ => {})
      | .block => if x.cancelled then modThread s t (fun _ => {})
                  else if x.reReady then makeReady t s
                  else modThread s t (fun z => { z with st := .blocked })
    coreSettle (startSlot s c)

/-- Core c is reset behind its mask (R270, class 9): its running thread t is freed, its prefetched one is ready again, the Harbour fault is set. -/
def resetCore (c t : Nat) (s : State) : State :=
  let x := coreAt s c
  let slotBack := fun s => match x.slot with | some u => modThread s u (fun z => { z with st := .ready }) | none => s
  let s := maskRequester 130 c true s
  let s := slotBack (modThread s t (fun _ => {}))
  let s := modCore s c (fun _ => { st := .reset, running := none, slot := none, back := some (s.now + ticksUs 20) })
  { s with harbour.fault := true }

/-- A thread has run 50 µs on core c (R280): Harbour fault, core reset behind its mask, thread freed, its command ends with ST_FAULT; class 9. -/
def runLimitTrip (c : Nat) (q : Option FlowRef) (s : State) : State :=
  let x := coreAt s c
  match x.running with
  | none => s
  | some t =>
    let inj := injectionOf s 10 c
    if s.now < x.since + ticksUs 50 ∧ inj.isNone then s
    else
      let s := resetCore c t s
      let s := { s with harbour.runLimit := inc32 s.harbour.runLimit }
      let seq := s.journal.nextSeq
      let s := journalAdd s 9 (if inj.isSome then 1 else 0) deviceFn 5 c 0
      let s := match q with
        | some r => match flowCmds s (flowKey r) with
          | d :: _ => if d.started then endCmd d.serial stFault d.result0 d.result1 s else s
          | [] => s
        | none => s
      match inj with
      | some (_, _, serial) => injectionDone serial seq s
      | none => s

/-- An event arrives, and firmware acts in the same cycle (R275 to R277, R281). -/
def threadEvent (t : Option (Fin 1024)) (acts : List FwAct) (s : State) : State :=
  if clockLost s .ctl then s else acts.foldl fwAct (match t with | some t => threadPost t.val s | none => s)
/-- THREAD_EVENT (R275 to R277, R281). -/
def execThreadEvent (dt : Nat) (x : ThreadIn) (s : State) : Host.Outcome State Fault Refusal := .next (actAfter dt s (threadEvent x.thread x.acts))
/-- PREFETCH_FILL (R278). -/
def execPrefetchFill (s : State) : Host.Outcome State Fault Refusal := .next (act s fun s => if clockLost s .ctl then s else harbourCycle s)
/-- THREAD_YIELD (R280). -/
def execThreadYield (dt : Nat) (c : Core) (y : YieldKind) (s : State) : Host.Outcome State Fault Refusal :=
  .next (actAfter dt s fun s => if clockLost s .ctl then s else threadYields c.val y s)
/-- RUN_LIMIT (R280). -/
def execRunLimit (dt : Nat) (c : Core) (q : Option FlowRef) (s : State) : Host.Outcome State Fault Refusal :=
  .next (actAfter dt s fun s => if clockLost s .ctl then s else runLimitTrip c.val q s)

/-- Time-event slots after the local clock has been stepped (R277): on a forward step each slot passed fires once, in due order, and a periodic slot takes the first
instant of its series after the new time, its skipped occurrences counted. -/
def slotsAfterStep (old new : Instant) (s : State) : State :=
  if new < old then s
  else
    let due := sortOn (fun e => e.2.at') (s.harbour.slots.filter (fun e => decide (old < e.2.at') && decide (e.2.at' ≤ new)))
    due.foldl (fun s e =>
      let s := threadPost e.2.thread s
      match e.2.period with
      | none => { s with harbour.slots := s.harbour.slots.erase e.1 }
      | some p =>
        let k := (new - e.2.at') / max p 1
        { s with harbour.slots := s.harbour.slots.set e.1 { e.2 with at' := e.2.at' + (k + 1) * max p 1 }, harbour.tevSkipped := (s.harbour.tevSkipped + k) % 2 ^ 32 }) s

/-- TIME_EVENT (R277): slot i reaches its instant. -/
def timeEventFire (i : Nat) (s : State) : State :=
  match s.harbour.slots.get? i with
  | none => s
  | some e =>
    if e.at' ≤ s.time.local' && !clockLost s .time then
      let s := threadPost e.thread s
      match e.period with
      | none => { s with harbour.slots := s.harbour.slots.erase i }
      | some p => { s with harbour.slots := s.harbour.slots.set i { e with at' := e.at' + p } }
    else s
def execTimeEvent (dt : Nat) (i : Fin 64) (s : State) : Host.Outcome State Fault Refusal := .next (actAfter dt s (timeEventFire i.val))

end Sys2Proof.Machine
end

