-- ==== Sys2Proof/Machine/TimeOps.lean ====
section
/-! DEFINITION. The local clock: its registers, steps and what follows a step (R24, R277, R342 to R344, R349, R353, R356, R362, R364). -/

namespace Sys2Proof.Machine

/-- The clock wraps at 2⁴⁸ seconds (R342). -/
def clockModulus : Nat := 2 ^ 48 * 1000000000 * nsUnit

/-- Seconds, nanoseconds and fraction of an instant (R342). -/
def instantParts (t : Instant) : Nat × Nat × Nat := (instantNs t / 1000000000, instantNs t % 1000000000, t % nsUnit)

/-- The jump guard is armed (R349). -/
def guardArmed (s : State) : Bool := s.chans.any (fun e => e.2.st != .idle) || !s.outs.isEmpty || isHolder s

/-- ADDEND within its bounds (R343). -/
def clampAddend (v : Nat) : Nat := min (max v 0x1FFBE76C9) 0x200418937

/-- The Tide period as a span of local time. -/
def tideSpan (s : State) : Nat := nsInstant (s.time.period * 62500)

/-- Half a Tide period in CLK_TIME ticks. -/
def halfTideTicks (s : State) : Nat := ticksNs (s.time.period * 62500) / 2

/-- The next boundary after a step (R24): the next whole multiple, or the one after it where that would come less than half a period of elapsed time after the previous one. -/
def planBoundary (s : State) : Instant :=
  let p := tideSpan s
  let m := (s.time.local' / p + 1) * p
  let ahead := ceilDiv (m - s.time.local') (max s.time.addend 1)
  if s.now - s.time.lastBoundaryTick + ahead < halfTideTicks s then m + p else m

/-- Instant of occurrence k of a series from `start` with period num / den ns (R355, R359). -/
def seriesInstant (start : Instant) (num den k : Nat) : Instant := start + nsInstant (k * num / max den 1)

/-- The first occurrence of a series that lies after instant t (R356). -/
def firstAfter (start : Instant) (num den : Nat) (t : Instant) : Nat :=
  if t < start then 0 else ceilDiv (((t - start) / nsUnit + 1) * max den 1) (max num 1)

/-- Level of a pulse output (R355). -/
def drivePulse (o : Nat) (high : Bool) (s : State) : State :=
  if s.time.pulseOut.getLsbD o == high then s
  else emit { s with time.pulseOut := if high then s.time.pulseOut ||| BitVec.ofNat 4 (2 ^ o) else s.time.pulseOut &&& ~~~(BitVec.ofNat 4 (2 ^ o)) }
    (.pin ("PPS_OUT" ++ toString o) high)

/-- A pulse of output o starts; it lasts WIDTH ns of elapsed time (R355, R356). -/
def pulseBegin (o : Nat) (x : Pulse) (s : State) : State :=
  drivePulse o (!x.activeLow) { s with time.pulses := s.time.pulses.set o { x with k := x.k + 1, highUntil := some (2 * s.now + x.width) } }

/-- TEV_SKIPPED counts n more (R277). -/
def skipEvents (n : Nat) (s : State) : State := { s with harbour.tevSkipped := (s.harbour.tevSkipped + n) % 2 ^ 32 }

/-- One pulse output after a clock step (R356). -/
def pulseAfterStep (old new : Instant) (s : State) (e : Nat × Pulse) : State :=
  let x := e.2
  if x.mode = 1 then
    if new < x.start then { s with time.pulses := s.time.pulses.set e.1 { x with k := 0 } }
    else if x.k = 0 ∧ old < new then pulseBegin e.1 x s
    else s
  else
    let k := firstAfter x.start x.num x.den new
    let s := { s with time.pulses := s.time.pulses.set e.1 { x with k := k } }
    if old < new then skipEvents (k - x.k) s else s

/-- A control event of trigger n: an event record to every subscription of the trigger (R60), and a firmware time event of the thread that takes it (R359). -/
def controlFire (n k : Nat) (x : Trigger) (s : State) : State :=
  let s := postEvent x.owner.val 0 n (k % 2 ^ 32) s
  match s.harbour.trigThreads.get? n with
  | some t => threadPost t s
  | none => s

/-- One control cycle after a clock step (R359, R277). -/
def cycleAfterStep (old new : Instant) (s : State) (e : Nat × Trigger) : State :=
  match e.2.cycle with
  | none => s
  | some (c, k) =>
    let next := firstAfter c e.2.num e.2.den new
    if old < new ∧ k < next then
      skipEvents (next - k - 1) (controlFire e.1 k e.2 { s with time.triggers := s.time.triggers.set e.1 { e.2 with cycle := some (c, next) } })
    else s

/-- Bus sample rate in Hz (R363). -/
def busRate (s : State) : Nat := if s.audio.fs96 then 96000 else 48000

/-- Instant of bus sample i: exact time not below i × 10⁹ / FS_BUS ns (R363). -/
def busDue (s : State) (i : Nat) (t : Instant) : Bool := decide (i * 1000000000 * nsUnit ≤ t * busRate s)

/-- Number of the first bus sample after an instant (R363). -/
def busAfter (s : State) (t : Instant) : Nat := t * busRate s / (1000000000 * nsUnit) + 1

/-- The bus timeline after a step: passed samples are never produced, repeated ones take zero; both are counted (R364). -/
def audioAfterStep (old new : Instant) (s : State) : State :=
  let i := busAfter s new
  let n := s.audio.nextSample
  if old ≤ new then
    if n < i then { s with audio.nextSample := i, audio.stepFrames := (s.audio.stepFrames + (i - n)) % 2 ^ 32 } else s
  else if i < n then { s with audio.nextSample := i, audio.repeatUntil := max s.audio.repeatUntil n, audio.stepFrames := (s.audio.stepFrames + (n - i)) % 2 ^ 32 }
  else s

/-- The local clock is set to a new value, and Tides, time events, pulses, control cycles and buses follow (R24, R277, R356, R359, R364). -/
def setClock (new : Instant) (s : State) : State :=
  let old := s.time.local'
  let s := { s with time.local' := new, time.stepped := true }
  let s := { s with time.nextBoundary := planBoundary s }
  let s := slotsAfterStep old new s
  let s := s.time.pulses.foldl (pulseAfterStep old new) s
  let s := s.time.triggers.foldl (cycleAfterStep old new) s
  audioAfterStep old new s

/-- Step the clock by a signed span (R349, R353): counted in STEPS. -/
def stepClock (delta : Int) (s : State) : State :=
  let s := setClock (((s.time.local' : Int) + delta) % (clockModulus : Int)).toNat s
  { s with time.ptp.steps := inc32 s.time.ptp.steps }

/-- A signed 64-bit number as RESULT0 and RESULT1. -/
def resultPair (v : Int) : Nat × Nat := let u := unsignedOf v 64; (u % 2 ^ 32, u / 2 ^ 32)

/-- TIME_SEC_LO (R344): the read latches the whole local time for the function. -/
def readSecLo (f : Nat) (s : State) : State :=
  let p := instantParts s.time.local'
  answerRead f 0x060000 (p.1 % 2 ^ 32) (modFn s f (fun x => { x with timeLatch := p }))

/-- TIME_ADDEND (R343, R362): one aligned 8-byte write of PF0 while ROLE is 0. -/
def writeAddend (f size v : Nat) (s : State) : State :=
  if hostUp s && f == 0 && size == 8 && !s.time.ptp.cfg.role && !(fnAt s f).busy then { s with time.addend := clampAddend (v % 2 ^ 36) } else s

/-- TIME_CAPT[n] word 0 (R362, Table 13.10): the read latches words 1 to 3 and clears OVERRUN and VALID. -/
def readCapt (f n : Nat) (s : State) : State :=
  let c := s.time.capt.getD n {}
  answerRead f (0x060040 + 16 * n) (c.ns + c.overrun.toNat * 2 ^ 30 + c.valid.toNat * 2 ^ 31)
    { modFn s f (fun x => { x with captLatch := x.captLatch.set n (c.sec % 2 ^ 32, c.sec / 2 ^ 32 % 65536, c.count) }) with
      time.capt := s.time.capt.set n { c with overrun := false, valid := false, src := false } }

/-- TIME_SEC_LO (R344): f reads it. -/
def execTimeSecLo (f : Fn) (s : State) : Host.Outcome State Fault Refusal := .next (hostRead f.val 0x060000 (readSecLo f.val) s)
/-- TIME_ADDEND (R343): f writes v with an access of size bytes. -/
def execTimeAddend (f : Fn) (size : Nat) (v : DWord) (s : State) : Host.Outcome State Fault Refusal := .next (writeAddend f.val size v.toNat s)
/-- TIME_CAPT_READ (R362): f reads word 0 of TIME_CAPT[n]. -/
def execTimeCaptRead (f : Fn) (n : Fin 4) (s : State) : Host.Outcome State Fault Refusal := .next (hostRead f.val (0x060040 + 16 * n.val) (readCapt f.val n.val) s)

end Sys2Proof.Machine
end

