-- ==== Sys2Proof/Machine/Ptp.lean ====
section
/-! DEFINITION. The PTP instance: BMCA, servo, jump guard, holdover, PTP_CONFIG and TIME_SET (R346 to R353). Offsets are in units of 2⁻¹⁶ ns. -/

namespace Sys2Proof.Machine

/-- Units of 2⁻¹⁶ ns in n nanoseconds. -/
def fracNs (n : Int) : Int := n * 65536

/-- STATE codes (Table 13.3). -/
def ptpCode : PtpState → Nat
  | .disabled => 0 | .listening => 1 | .acquiring => 2 | .locked => 3 | .holdover => 4 | .refused => 5

/-- The domain in use (R347). -/
def ptpDomain (c : PtpCfg) : Nat := if c.domain = 0xFF then (if c.profile = 1 then 127 else 0) else c.domain

/-- The announce receipt timeout in announce intervals (R347). -/
def announceLimit (c : PtpCfg) : Nat := if c.announceTimeout = 0 then 3 else c.announceTimeout

/-- The member follows the holder's clock instead of its own servo: a standby, or a member that is joining (R349, R392). -/
def followsHolder (s : State) : Bool := isStandby s || (pairOn s && s.pair.role == .none && s.pair.st == .resyncing)

/-- TIME_SET commands that wait for a Sync (R353). -/
def syncWaiters (s : State) : List Nat := ((allCmds s).filter (fun e => e.2.wait == .sync)).map (fun e => e.2.serial)

/-- The newest ADDEND of the log has held until now (R351). -/
def closeLog (now : Nat) : List (Nat × Nat × Nat) → List (Nat × Nat × Nat)
  | (t, _, v) :: r => (t, now - t, v) :: r
  | [] => []

/-- The log as far as 16 s of LOCKED reach back. -/
def trimLog : Nat → List (Nat × Nat × Nat) → List (Nat × Nat × Nat)
  | _, [] => []
  | left, (t, n, v) :: r => if left = 0 then [] else (t, n, v) :: trimLog (left - n) r

/-- ADDEND × ticks and ticks over the last 16 s in LOCKED. -/
def logSum : Nat → List (Nat × Nat × Nat) → Nat × Nat
  | _, [] => (0, 0)
  | left, (_, n, v) :: r => let m := min n left; let (a, b) := logSum (left - m) r; (a + m * v, b + m)

/-- Ticks in 16 s (R351). -/
def holdSpan : Nat := ticksMs 16000

/-- Enter a PTP state: STATE, source 47 and the event of KIND 5 (Tables 10.4 and 2.15); time in LOCKED is logged for R351. TIME_SET commands that wait for REFUSED end with it (R353). -/
def setPtp (st : PtpState) (s : State) : State :=
  if s.time.ptp.st == st then s
  else
    let was := s.time.ptp.st
    let s := if was == .locked then { s with time.ptp.addendLog := trimLog holdSpan (closeLog s.now s.time.ptp.addendLog) } else s
    let s := if st == .locked then { s with time.ptp.addendLog := (s.now, 0, s.time.addend) :: s.time.ptp.addendLog } else s
    let s := { s with time.ptp.st := st, time.ptp.src := true, time.ptp.holdoverEntries := if st == .holdover then inc32 s.time.ptp.holdoverEntries else s.time.ptp.holdoverEntries }
    let s := if was == .refused then (syncWaiters s).foldl (fun s n => endCmd n stCancelled 0 0 s) { s with time.ptp.pendingStep := 0 } else s
    postEventAll 5 (ptpCode st) s

/-- A free ADDEND within the bounds of R343: what the loop of R348 computes, whose coefficients and rounding the manual does not give (log 23). -/
def freeAddend (s : State) : Nat := clampAddend (0x1FFBE76C9 + freshValue s % 8589935)

/-- The servo sets ADDEND (R348). -/
def steer (s : State) : State :=
  if followsHolder s then s
  else
    let v := freeAddend s
    let s := { spendFree s with time.addend := v }
    if s.time.ptp.st == .locked then { s with time.ptp.addendLog := trimLog holdSpan ((s.now, 0, v) :: closeLog s.now s.time.ptp.addendLog) } else s

/-- ADDEND is frozen at the mean of its values over the last 16 s in LOCKED (R351); with no time in LOCKED that mean is of nothing, a free value (log 23). -/
def holdAddend (s : State) : State :=
  let (a, n) := logSum holdSpan s.time.ptp.addendLog
  if n = 0 then { spendFree s with time.addend := freeAddend s } else { s with time.addend := clampAddend (a / n) }

/-- The instance restarts (R352): LISTENING, or DISABLED with ROLE 0. -/
def ptpRestart (s : State) : State :=
  let s := setPtp (if s.time.ptp.cfg.role then .listening else .disabled) s
  { s with time.ptp := { s.time.ptp with foreign := [], master := none, pendingSync := none, pendingReq := none, offsets := [], paths := [], inRun := 0, outRun := 0, integral := 0 } }

/-- Rank of a dataset under the default BMCA (R346): the lower list wins. -/
def bmcaKey (x : Foreign) : List Nat :=
  let d := x.data
  [d.gmPriority1, d.gmClass, d.gmAccuracy, d.gmVariance, d.gmPriority2, d.gmIdentity, d.stepsRemoved, d.source, x.port]

/-- Lexicographic order. -/
def lexLt : List Nat → List Nat → Bool
  | [], [] => false
  | [], _ :: _ => true
  | _ :: _, [] => false
  | a :: r, b :: t => if a < b then true else if b < a then false else lexLt r t

/-- Qualified: 2 Announces within 4 announce intervals (R346, Table 13.1). -/
def qualified (now : Nat) (x : Foreign) : Bool :=
  decide (2 ≤ (x.times.filter (fun t => decide (now ≤ t + ticksNs (4 * x.data.intervalNs)))).length)

/-- The best qualified foreign master. -/
def bestMaster (s : State) : Option Foreign :=
  (s.time.ptp.foreign.filter (qualified s.now)).foldl (fun b x => match b with | none => some x | some y => if lexLt (bmcaKey x) (bmcaKey y) then some x else b) none

/-- The BMCA selects a master: the instance enters ACQUIRING with an empty filter (R351; the filter as Table 13.4 shows). -/
def selectMaster (x : Foreign) (s : State) : State :=
  let changed := match s.time.ptp.lastGm with | some g => g != x.data.gmIdentity | none => false
  let s := { s with time.ptp := { s.time.ptp with master := some x, lastGm := some x.data.gmIdentity, lastAnnounce := s.now, lastSync := s.now, pendingSync := none, pendingReq := none, offsets := [], inRun := 0, outRun := 0, integral := 0, masterChanges := if changed then inc32 s.time.ptp.masterChanges else s.time.ptp.masterChanges } }
  setPtp .acquiring s

/-- Port p may carry the slave (Table 13.5), is enabled and receives frames (R320). -/
def ptpPort (s : State) (p : Nat) : Bool := s.time.ptp.cfg.ports.getLsbD p && (portAt s p).cfg.speed != 0 && !(portAt s p).down

/-- ANNOUNCE (R346, R351): port p receives an Announce. -/
def announceRx (p : Nat) (a : AnnounceData) (s : State) : State :=
  if !(s.time.ptp.cfg.role && ptpPort s p && a.domain == ptpDomain s.time.ptp.cfg && decide (a.stepsRemoved < 255)) then s
  else
    let old := (s.time.ptp.foreign.find? (fun x => x.port == p && x.data.source == a.source)).elim [] (fun x => x.times)
    let x : Foreign := { port := p, data := a, times := (s.now :: old).take 4 }
    let s := { s with time.ptp.foreign := s.time.ptp.foreign.filter (fun (y : Foreign) => !(y.port == p && y.data.source == a.source)) ++ [x] }
    let s := match s.time.ptp.cfg.profile, a.metadata with
      | 1, some m => { s with time.ptp.metadata := m }
      | _, _ => s
    let s := match s.time.ptp.master with
      | some m => if m.port = p ∧ m.data.source = a.source then { s with time.ptp.master := some { x with data := { a with gmIdentity := m.data.gmIdentity } }, time.ptp.lastAnnounce := s.now } else s
      | none => s
    match bestMaster s with
    | none => s
    | some b => match s.time.ptp.master with
      | none => selectMaster b s
      | some m =>
        if b.data.gmIdentity ≠ m.data.gmIdentity ∨ b.port ≠ m.port then selectMaster b s
        else { s with time.ptp.master := some b }

/-- The filtered offset as sum and count of the last offsets (R348). -/
def offsetSum (s : State) : Int := s.time.ptp.offsets.foldl (· + ·) 0

/-- The filtered offset lies within ±n ns, compared exactly. -/
def offsetWithin (s : State) (n : Nat) : Bool :=
  decide ((offsetSum s).natAbs ≤ n * 65536 * max s.time.ptp.offsets.length 1)

/-- The step that the filtered offset requires, minus it, in 2⁻³² ns (R349). -/
def requiredStep (s : State) : Int := -((offsetSum s * 65536) / (max s.time.ptp.offsets.length 1 : Nat))

/-- A signed 32-bit field, saturating (Table 13.9). -/
def sat32 (v : Int) : Int := max (-2147483648) (min 2147483647 v)

/-- A step is applied: filter and integrator restart, the loop acquires again (R349, Table 13.4). -/
def applyStep (delta : Int) (s : State) : State :=
  let s := stepClock delta s
  setPtp .acquiring { s with time.ptp := { s.time.ptp with offsets := [], inRun := 0, outRun := 0, integral := 0, pendingStep := 0, pendingReq := none } }

/-- Whole nanoseconds of a span, toward zero (R353). -/
def wholeNs (q : Int) : Int := Int.tdiv q (nsUnit : Int)

/-- What the servo does after an offset (R348 to R350, R353). -/
def servo (s : State) : State :=
  let within := offsetWithin s 1000
  let s := { s with time.ptp.inRun := if offsetWithin s 100 then s.time.ptp.inRun + 1 else 0, time.ptp.outRun := if within then 0 else s.time.ptp.outRun + 1 }
  let delta := requiredStep s
  let ns := wholeNs delta
  if s.time.ptp.st == .refused then
    if within then setPtp .acquiring s
    else
      let s := { s with time.ptp.pendingStep := ns }
      match syncWaiters s with
      | [] => if guardArmed s || followsHolder s then s else applyStep (ns * (nsUnit : Int)) s
      | ws =>
        let r := resultPair ns
        let s := ws.foldl (fun s n => finishCmd n 1 r.1 r.2 s) s
        applyStep (ns * (nsUnit : Int)) s
  else
    let s := if s.time.ptp.st == .locked && !within then setPtp .acquiring s else s
    if 4 ≤ s.time.ptp.outRun ∧ !followsHolder s then
      if guardArmed s && decide (s.time.jumpLimit * nsUnit < delta.natAbs) then
        let s := setPtp .refused s
        holdAddend { s with time.refused := true, time.ptp.src := true, time.ptp.refusals := inc32 s.time.ptp.refusals, time.ptp.pendingStep := ns }
      else applyStep delta s
    else
      let s := steer s
      if s.time.ptp.st == .acquiring && decide (16 ≤ s.time.ptp.inRun) then setPtp .locked s else s

/-- A Sync gives an offset (R348). -/
def useOffset (t1 t2 correction : Int) (s : State) : State :=
  match s.time.ptp.master with
  | none => s
  | some m =>
    let n := s.time.ptp.paths.length
    let path : Int := if n = 0 then (freshValue s : Int) else s.time.ptp.paths.foldl (· + ·) 0 / (n : Int)
    let s := if n = 0 then spendFree s else s
    let off := t2 - t1 - correction - path - fracNs (s.time.ptp.cfg.asym.getD m.port 0)
    let s := { s with time.ptp := { s.time.ptp with offsets := (off :: s.time.ptp.offsets).take 4, msDelay := t2 - t1 - correction, syncRx := inc32 s.time.ptp.syncRx } }
    let s := { s with time.ptp.offsetNs := sat32 (Int.tdiv (offsetSum s) (65536 * (max s.time.ptp.offsets.length 1 : Nat))) }
    servo s

/-- The message is from the selected master on the slave port, in the domain in use. -/
def fromMaster (s : State) (p : Nat) (m : PtpMsg) : Bool :=
  s.time.ptp.cfg.role && ptpPort s p && m.domain == ptpDomain s.time.ptp.cfg && m.multicast
    && (match s.time.ptp.master with | some x => x.port == p && x.data.source == m.source | none => false)

/-- logSyncInterval from −7 to +1 (R347). -/
def syncIntervalOk (ns : Nat) : Bool := decide (7812500 ≤ ns) && decide (ns ≤ 2000000000)

/-- SYNC (R348): port p receives a Sync. -/
def syncRx (p : Nat) (m : PtpMsg) (t1 t2 correction : Int) (interval : Nat) (s : State) : State :=
  if fromMaster s p m && syncIntervalOk interval then
    let s := { s with time.ptp.lastSync := s.now, time.ptp.syncInterval := interval }
    if m.twoStep then { s with time.ptp.pendingSync := some (m.sequence, t2, correction) } else useOffset t1 t2 correction { s with time.ptp.pendingSync := none }
  else s

/-- FOLLOW_UP (R348): t1 and the correction of the Sync it follows. -/
def followUpRx (p : Nat) (m : PtpMsg) (t1 correction : Int) (s : State) : State :=
  if fromMaster s p m then
    match s.time.ptp.pendingSync with
    | some (q, t2, _) => if q = m.sequence then useOffset t1 t2 correction { s with time.ptp.pendingSync := none } else s
    | none => s
  else s

/-- DELAY_RESP (R348): an exchange completes. -/
def delayRespRx (p : Nat) (m : PtpMsg) (t4 correction : Int) (interval : Nat) (s : State) : State :=
  if fromMaster s p m then
    match s.time.ptp.pendingReq with
    | some (q, t3) =>
      if q = m.sequence then
        let ps := (((s.time.ptp.msDelay + (t4 - t3 - correction)) / 2) :: s.time.ptp.paths).take 16
        { s with time.ptp := { s.time.ptp with pendingReq := none, reqInterval := interval, paths := ps, pathNs := Int.tdiv (ps.foldl (· + ·) 0) ((65536 * ps.length : Nat) : Int) } }
      else s
    | none => s
  else s

/-- DELAY_REQ (R346): the device sends a Delay_Req at the interval that the master's Delay_Resp gives. -/
def delayReqTx (t3 : Int) (s : State) : State :=
  match s.time.ptp.master with
  | some m =>
    if s.time.ptp.cfg.role && decide (s.time.ptp.lastReq + ticksNs s.time.ptp.reqInterval ≤ s.now) && !(portAt s m.port).down then
      let q := s.time.ptp.nextReqSeq
      emit { s with time.ptp := { s.time.ptp with pendingReq := some (q, t3), nextReqSeq := (q + 1) % 65536, lastReq := s.now } } (.fwFrame m.port 0 86)
    else s
  | none => s

/-- MASTER_LOST (R351): the announce receipt timeout, or 8 Sync intervals without Sync. -/
def masterLost (s : State) : State :=
  match s.time.ptp.master with
  | some m =>
    if s.time.ptp.lastAnnounce + ticksNs (announceLimit s.time.ptp.cfg * m.data.intervalNs) ≤ s.now ∨ s.time.ptp.lastSync + ticksNs (8 * s.time.ptp.syncInterval) ≤ s.now then
      let locked := s.time.ptp.st == .locked
      let s := setPtp (if locked then .holdover else .listening) s
      let s := { s with time.ptp := { s.time.ptp with master := none, pendingSync := none, pendingReq := none, foreign := s.time.ptp.foreign.filter (fun (y : Foreign) => !(y.port == m.port && y.data.source == m.data.source)) } }
      if locked && !followsHolder s then holdAddend s else s
    else s
  | none => s

/-- PTP_CONFIG of a packet (Table 13.5). -/
def ptpCfgOf (p : Packet) : PtpCfg :=
  { role := flag p 2 0, profile := fld p 2 3 1, announceTimeout := fld p 2 7 4, domain := fld p 2 15 8, ports := BitVec.ofNat 16 (fld p 2 31 16),
    tcPorts := BitVec.ofNat 16 (fld p 3 15 0),
    asym := (List.range 16).filterMap (fun q =>
      let v := signedOf (if q % 2 = 0 then fld p (4 + q / 2) 15 0 else fld p (4 + q / 2) 31 16) 16
      if v = 0 then none else some (q, v)) }

/-- A configuration command that takes effect and completes at the next Tide boundary (Table 1.5). -/
def pendTide (ci : CmdIn) (s : State) : CmdRes :=
  .pend { s with net.pendCfg := s.net.pendCfg ++ [{ serial := ci.cmd.serial, opcode := opcodeOf ci.p, packet := ci.p, fn := ci.cmd.fn }] } .tide 0 0

/-- PTP_CONFIG (R352). -/
def runPtpConfig (ci : CmdIn) (s : State) : CmdRes :=
  let c := ptpCfgOf ci.p
  if 2 < c.profile ∨ c.announceTimeout = 1 ∨ 10 < c.announceTimeout ∨ (127 < c.domain ∧ c.domain ≠ 0xFF) then refuse s stBadParam
  else if (List.range 16).any (fun q => (c.ports.getLsbD q || c.tcPorts.getLsbD q) && (portAt s q).cfg.speed == 0) then refuse s stBadState
  else pendTide ci s

def meanPtpConfig : Meaning := { run := runPtpConfig }

/-- PTP_CONFIG takes effect (R352). -/
def applyPtpConfig (p : Packet) (s : State) : State :=
  let c := ptpCfgOf p
  let old := s.time.ptp.cfg
  let s := { s with time.ptp.cfg := c }
  if c.role ≠ old.role ∨ ptpDomain c ≠ ptpDomain old then ptpRestart s else s

/-- TIME_SET (R353, Table 13.6). -/
def runTimeSet (ci : CmdIn) (s : State) : CmdRes :=
  let p := ci.p
  let mode := fld p 2 1 0
  if mode = 3 ∨ (mode = 0 ∧ (fld p 4 31 16 ≠ 0 ∨ 1000000000 ≤ word p 5)) then refuse s stBadParam
  else if mode = 2 then (if s.time.ptp.st == .refused then .pend s .sync 0 0 else refuse s stBadState)
  else
    let delta : Int := if mode = 0 then (nsInstant (timeNsOf p 3) : Int) - (s.time.local' : Int) else signedOf (dword p 3) 64 * (nsUnit : Int)
    if s.time.ptp.cfg.role || (guardArmed s && !(flag p 2 2) && decide (s.time.jumpLimit * nsUnit < delta.natAbs)) then refuse s stBadState
    else
      let r := resultPair (wholeNs delta)
      .done (stepClock delta s) stOk 1 r.1 r.2

def meanTimeSet : Meaning := { run := runTimeSet }

/-- ANNOUNCE (R351). -/
def execAnnounce (dt : Nat) (p : Port) (a : AnnounceData) (s : State) : Host.Outcome State Fault Refusal :=
  .next (actAfter dt s fun s => if clockLost s .time then s else announceRx p.val a s)
/-- SYNC (R348). -/
def execSync (dt : Nat) (p : Port) (m : PtpMsg) (t1 t2 correction : Int) (intervalNs : Nat) (s : State) : Host.Outcome State Fault Refusal :=
  .next (actAfter dt s fun s => if clockLost s .time then s else syncRx p.val m t1 t2 correction intervalNs s)
/-- FOLLOW_UP (R348). -/
def execFollowUp (dt : Nat) (p : Port) (m : PtpMsg) (t1 correction : Int) (s : State) : Host.Outcome State Fault Refusal :=
  .next (actAfter dt s fun s => if clockLost s .time then s else followUpRx p.val m t1 correction s)
/-- DELAY_RESP (R348). -/
def execDelayResp (dt : Nat) (p : Port) (m : PtpMsg) (t4 correction : Int) (intervalNs : Nat) (s : State) : Host.Outcome State Fault Refusal :=
  .next (actAfter dt s fun s => if clockLost s .time then s else delayRespRx p.val m t4 correction intervalNs s)
/-- DELAY_REQ (R346). -/
def execDelayReq (dt : Nat) (t3 : Int) (s : State) : Host.Outcome State Fault Refusal :=
  .next (actAfter dt s fun s => if clockLost s .time then s else delayReqTx t3 s)
/-- MASTER_LOST (R351). -/
def execMasterLost (dt : Nat) (s : State) : Host.Outcome State Fault Refusal :=
  .next (actAfter dt s fun s => if clockLost s .time then s else masterLost s)
/-- PTP_CONFIG (R352). -/
def execPtpConfig (q : FlowRef) (b : Bus) (s : State) : Host.Outcome State Fault Refusal := .next (startRow 0x0701 meanPtpConfig q b s)
/-- TIME_SET (R353). -/
def execTimeSet (q : FlowRef) (b : Bus) (s : State) : Host.Outcome State Fault Refusal := .next (startRow 0x0702 meanTimeSet q b s)

end Sys2Proof.Machine
end

