-- ==== Sys2Proof/Machine/NetCfg.lean ====
section
/-! DEFINITION. Configuration of lanes, ports, flows, shapers and gate lists, as commands give it and as it applies at the Tide boundary (R296 to R299, R302, R308, R309, R326, R327, R330, R331, R338, R340). -/

namespace Sys2Proof.Machine

/-- Mbit/s of a SPEED code (Table 11.3). -/
def speedMbps (n : Nat) : Nat :=
  if n = 1 then 10000 else if n = 2 then 25000 else if n = 3 then 50000 else if n = 4 then 100000 else if n = 5 then 200000 else if n = 6 then 400000 else 0

/-- Lane count and RATE of a port's row of Table 11.4: the 100G row is the one that the RATE of the first lane selects (R299). -/
def portRow (s : State) (speed first : Nat) : Nat × Nat :=
  if speed = 1 then (1, 0)
  else if speed = 2 then (1, 1)
  else if speed = 3 then (1, 2)
  else if speed = 4 then (if (laneAt s first).cfg.rate = 2 then (2, 2) else (4, 1))
  else if speed = 5 then (4, 2)
  else (8, 2)

/-- The lanes of a port; a disabled port has none. -/
def portLanes (s : State) (c : PortCfg) : List Nat :=
  if c.speed = 0 then [] else (List.range (portRow s c.speed c.firstLane).1).map (c.firstLane + ·)

/-- Lanes of the enabled ports but one. -/
def otherPortLanes (s : State) (except' : Nat) : List Nat :=
  (s.net.ports.filter (fun e => e.1 != except')).flatMap (fun e => portLanes s e.2.cfg)

/-- The four lanes of quad-link 12G-SDI are used where the picture rate exceeds that of 2160p at 60 Hz (R311, R313). -/
def quadLink (o : OutCfg) : Bool := decide (3840 * 2160 * 60 * max o.rateDen 1 < o.width * o.height * o.rateNum)

/-- Lanes that carry an output's SDI transmit flow. -/
def sdiLanes (s : State) (c : FlowOutCfg) : List Nat :=
  if (outAt s c.srcIndex).elim false (fun o => quadLink o.cfg) then (List.range 4).map (c.lane + ·) else [c.lane]

/-- Lanes that carry a flow (R298). -/
def flowLanes (s : State) : List Nat := s.net.flowsOut.flatMap (fun e => if e.2.cfg.kind = 6 then sdiLanes s e.2.cfg else [])

/-- Lanes of an enabled Causeway (R298, R314). -/
def causewayLanes (s : State) : List Nat := s.pair.cfg.elim [] cwLanes

/-- Lane settings of LANE_CONFIG (Table 11.2). -/
def laneCfgOf (p : Packet) : LaneCfg :=
  { mode := fld p 3 2 0, rate := fld p 3 6 3, txInvert := flag p 3 7, rxInvert := flag p 3 8, loopback := flag p 3 9, sdiRef := flag p 3 10,
    txPre := fld p 4 5 0, txMain := fld p 4 11 6, txPost := fld p 4 17 12, testRate := fld p 5 15 0 }

/-- Lanes that LANE_CONFIG names. -/
def laneRange (p : Packet) : List Nat := (List.range (fld p 2 14 8)).map (fld p 2 6 0 + ·)

/-- LANE_TEST (opcode 0x0608) or EYE_SCAN (0x0609) commands that run on a lane. -/
def laneWaiters (s : State) (op l : Nat) : List Cmd :=
  ((allCmds s).filter (fun e => opcodeOf e.2.packet == op && (match e.2.wait with | .laneTest n _ => n == l | _ => false))).map (fun e => e.2)

/-- One lane is set up anew: it counts as locked unless its reference clock is lost. -/
def laneSetUp (c : LaneCfg) (x : LaneSt) : LaneSt :=
  if x.cfg = c then x
  else if x.cfg.mode = c.mode ∧ x.cfg.rate = c.rate ∧ x.cfg.testRate = c.testRate then { x with cfg := c }
  else { x with cfg := c, fault := x.refLost && c.mode != 0, highBer := false, detRate := 0, family1001 := c.mode == 3 && c.sdiRef, pics := [] }

/-- LANE_CONFIG takes effect on the lanes (R298); SDI_REF goes to the whole quad. -/
def setLanes (p : Packet) (s : State) : State :=
  let c := laneCfgOf p
  let ls := laneRange p
  let s := ls.foldl (fun s l => modLane s l (laneSetUp c)) s
  (ls.flatMap (fun l => (List.range 4).map (l / 4 * 4 + ·))).foldl (fun s l =>
    modLane s l (fun x => { x with cfg.sdiRef := c.sdiRef, family1001 := if x.cfg.mode = 3 then c.sdiRef else x.family1001 })) s

/-- LANE_CONFIG takes effect (R298): a test that runs on a lane ends (R317), an eye scan whose lane is set up anew loses lock (R318). -/
def applyLaneConfig (p : Packet) (s : State) : State :=
  let c := laneCfgOf p
  let s := (laneRange p).foldl (fun s l =>
    let x := (laneAt s l).cfg
    let s := (laneWaiters s 0x0608 l).foldl (fun s d => completeCmd d.serial stCancelled (progressOf s d) 0 0 [] true s) s
    if x.mode = c.mode ∧ x.rate = c.rate ∧ x.testRate = c.testRate then s else (laneWaiters s 0x0609 l).foldl (fun s d => endCmd d.serial stFault 0 0 s) s) s
  setLanes p s

/-- PORT_CONFIG of a packet (Table 11.3). -/
def portCfgOf (p : Packet) : PortCfg :=
  { speed := fld p 2 6 4, fec := flag p 2 7, firstLane := fld p 3 6 0, maxFrame := fld p 4 13 0, mac := word p 5 + fld p 6 15 0 * 2 ^ 32, ip := word p 7,
    mask := word p 8, gateway := word p 9 }

/-- Flow copies of kinds 0 to 5 whose port is n: flow and copy. -/
def boundCopies (s : State) (n : Nat) : List (Nat × Bool) :=
  s.net.flowsOut.flatMap (fun e => if e.2.cfg.kind = 6 ∨ e.2.removed then [] else ((copiesOf e.2.cfg).filter (fun b => copyPort e.2.cfg b == n)).map (fun b => (e.1, b)))

/-- Input flows that name port n. -/
def boundInputs (s : State) (n : Nat) : List Nat :=
  (s.net.flowsIn.filter (fun e => e.2.cfg.portA == n || (e.2.cfg.dual && e.2.cfg.portB == n))).map (fun e => e.1)

/-- A port stops (R338): its released groups that are not in transmission are discarded and counted, and firmware's frames with them. -/
def portStop (n : Nat) (s : State) : State :=
  let s := modPort s n (fun x => { x with fwQueue := [] })
  (boundCopies s n).foldl (fun s e =>
    let (s', k) := dropCopy e.1 e.2 (fun g => groupSending s e.1 e.2 g || !g.released) s
    countDisabled e.1 k s') s

/-- The configuration part of PORT_CONFIG (R299): SPEED 0 only disables; the DWRR state starts anew when a port is enabled (R324). -/
def setPortCfg (p : Packet) (s : State) : State :=
  let n := fld p 2 3 0
  let c := portCfgOf p
  if c.speed = 0 then modPort s n (fun x => { x with cfg.speed := 0, down := false, fecDown := false })
  else if (portAt s n).cfg = c then s
  else
    let down := (portLanes s c).any (fun l => (laneAt s l).fault)
    modPort s n (fun x =>
      if x.cfg.speed = 0 then { x with cfg := c, down := down, fecDown := false, pointer := 3, arrivedAt := false, deficits := [] }
      else { x with cfg := c, down := down, fecDown := false })

/-- PORT_CONFIG takes effect. -/
def applyPortConfig (p : Packet) (s : State) : State :=
  let n := fld p 2 3 0
  let was := (portAt s n).cfg.speed
  let s := setPortCfg p s
  if fld p 2 6 4 = 0 ∧ was ≠ 0 then portStop n s else s

/-- FLOW_IN_ADD of a packet (Table 11.5, R378). -/
def flowInCfgOf (p : Packet) : FlowInCfg :=
  let k := fld p 2 2 0
  let v := k == 0
  { kind := k, dual := flag p 2 3, portA := fld p 2 7 4, portB := fld p 2 11 8, destA := word p 3, destB := word p 6, udpA := fld p 4 15 0,
    udpB := fld p 7 15 0, srcA := word p 5, srcB := word p 8, rateIn := word p 9, window := if fld p 10 15 0 = 0 then 10 else fld p 10 15 0,
    width := if v then fld p 11 15 0 else 0, height := if v then fld p 11 31 16 else 0, rateNum := if v then word p 12 else 0,
    rateDen := if v then fld p 13 15 0 else 0, sampling := if v then fld p 13 17 16 else 0, depth10 := v && flag p 13 18,
    colour := if v then fld p 13 20 19 else 0,
    audio := if k = 3 then (fld p 11 6 0, fld p 11 8 8, fld p 11 9 9, fld p 11 11 10) else (0, 0, 0, 0) }

/-- A new input flow takes the lowest free number (R302); answers it. -/
def addFlowIn (fn : Fn) (p : Packet) (s : State) : State × Nat :=
  match s.net.flowsIn.lowestFree 1024 with
  | some n => ({ s with net.flowsIn := s.net.flowsIn.set n { owner := fn, cfg := flowInCfgOf p } }, n)
  | none => (s, 0)

/-- FLOW_OUT_ADD of a packet (Table 11.7, R380). -/
def flowOutCfgOf (p : Packet) : FlowOutCfg :=
  let k := fld p 2 2 0
  let src := fld p 3 15 0
  { kind := k, dual := flag p 2 3 && k != 6, portA := fld p 2 7 4, portB := fld p 2 11 8, queue := if k = 6 then 0 else fld p 2 14 12,
    srcIndex := if k = 4 then src % 128 else src, maxPayload := if fld p 3 31 16 = 0 then 1428 else fld p 3 31 16, destA := word p 4, destB := word p 6,
    udpDstA := fld p 5 15 0, udpSrc := fld p 5 31 16, udpDstB := fld p 7 15 0, vlanId := fld p 7 27 16, pcp := fld p 7 30 28, vlanOn := flag p 7 31,
    dscp := fld p 8 5 0, pt := if k = 2 then 33 else fld p 8 14 8, ssrc := word p 9, firstSeq := fld p 10 15 0, delayChan := fld p 10 31 16,
    audio := if k = 4 then (src / 128 % 64 + 1, src / 8192 % 8) else (0, 0), lane := if k = 6 then fld p 2 14 8 else 0 }

/-- Bytes of a KIND 4 packet's RTP payload (R380): channels, samples of a packet time of 1 ms or 125 µs, 2 or 3 bytes each. -/
def audioPayload (channels depth ptime : Nat) (fs96 : Bool) : Nat :=
  channels * ((if ptime = 0 then 48 else 6) * (if fs96 then 2 else 1)) * (if depth = 0 then 2 else 3)

/-- Frame lengths that a flow can send, without FCS: the largest (R309). -/
def flowFrame (s : State) (c : FlowOutCfg) : Nat :=
  if c.kind = 1 then udpFrame c 1316
  else if c.kind = 2 then rtpFrame c 1316
  else if c.kind = 4 then rtpFrame c (audioPayload c.audio.1 (c.audio.2 % 2) (c.audio.2 / 2) s.audio.fs96)
  else rtpFrame c c.maxPayload

/-- Staging that a flow reserves, in bytes (R337). For a channel: twice k rows at B in one slice NAL unit, in frames of the flow; nothing before the channel has its profile and rate control. -/
def stagingOf (s : State) (c : FlowOutCfg) : Nat :=
  if c.kind ≤ 2 then
    match (chanAt s c.srcIndex).bind (fun x => x.profile.bind (fun p => x.coding.rc.map (fun r => p.sliceRows * r.rowCap))) with
    | some bits => 2 * sumBy id (groupFrames c [ceilDiv bits 8] { pes := true, pcr := true, pat := true })
    | none => 0
  else if c.kind = 3 then (outAt s c.srcIndex).elim 0 (fun o => 4 * ceilRat ((o.cfg.width : Rat) * bytesPerPixel o.cfg.chroma))
  else if c.kind = 6 then 0
  else 65536

/-- Memory load of a flow that reads an output's ring, in bytes/ns (R520). -/
def flowLoad (s : State) (c : FlowOutCfg) : Rat :=
  if c.kind = 3 ∨ c.kind = 6 then (outAt s c.srcIndex).elim 0 (fun o => outQdr o.cfg) else 0

/-- A new output flow takes the lowest free number (R309); its buckets are unshaped (R326). Answers the number. -/
def addFlowOut (fn : Fn) (p : Packet) (s : State) : State × Nat :=
  let c := flowOutCfgOf p
  match s.net.flowsOut.lowestFree 2048 with
  | some n => ({ s with net.flowsOut := s.net.flowsOut.set n { owner := fn, cfg := c, copyA := { nextSeq := c.firstSeq }, copyB := { nextSeq := c.firstSeq }, staging := stagingOf s c, load := flowLoad s c } }, n)
  | none => (s, 0)

/-- An output flow is removed (R340): the group in transmission finishes, the rest is discarded; buckets, staging and load are free. -/
def removeFlowOut (w : Nat) (s : State) : State :=
  let s := dropGroups w true s
  match flowOutAt s w with
  | none => s
  | some x =>
    if x.copyA.groups.isEmpty && x.copyB.groups.isEmpty then { s with net.flowsOut := s.net.flowsOut.erase w }
    else modFlowOut s w (fun x => { x with removed := true, staging := 0, load := 0 })

/-- An input flow is removed (R308). -/
def removeFlowIn (n : Nat) (s : State) : State := { s with net.flowsIn := s.net.flowsIn.erase n }

/-- FLOW_REMOVE takes effect. -/
def applyFlowRemove (p : Packet) (s : State) : State :=
  if flag p 2 16 then removeFlowOut (fld p 2 10 0) s else removeFlowIn (fld p 2 10 0) s

/-- Credit of a bucket now (R326); an unshaped one reads BURST. -/
def creditNow (s : State) (b : Bucket) : Nat :=
  if b.rate = 0 then b.burst * 4000000 else min (b.burst * 4000000) (b.credit + b.rate * (s.now - b.asOf))

/-- QUANTUM of a field: 0 selects 9,240 (Table 12.1). -/
def quantumOf (v : Nat) : Nat := if v = 0 then 9240 else v

/-- SHAPER_SET takes effect (R327): the credit carries over, clipped. -/
def applyShaper (p : Packet) (s : State) : State :=
  let n := fld p 2 26 16
  if fld p 2 1 0 = 0 then
    let burst := word p 4
    let shape := fun (b : Bucket) => ({ rate := word p 3, burst := burst, credit := min (creditNow s b) (burst * 4000000), asOf := s.now } : Bucket)
    modFlowOut s n (fun x => { x with copyA.bucket := shape x.copyA.bucket, copyB.bucket := shape x.copyB.bucket })
  else
    let q : FMap Nat := [(3, quantumOf (fld p 4 15 0)), (4, quantumOf (fld p 4 31 16)), (5, quantumOf (fld p 5 15 0)), (6, quantumOf (fld p 5 31 16)), (7, quantumOf (fld p 6 15 0))]
    modPort s n (fun x => { x with overhead := fld p 3 5 0, quantum := q })

/-- Gate list of a GATE_SCHEDULE block (R330). -/
def gateListOf (p : Packet) (block : List Byte) : GateList :=
  { entries := (List.range (fld p 5 24 16)).map (fun i => (ofLe (slice block (8 * i) 1), ofLe (slice block (8 * i + 4) 4))), base := timeNsOf p 6, cycle := word p 9 }

/-- The first instant BASE + k × CYCLE, for whole k, at or after t (R331). -/
def gateStart (g : GateList) (t : Instant) : Instant :=
  let b := nsInstant g.base
  if t ≤ b then b else b + nsInstant (ceilDiv (t - b) (nsInstant (max g.cycle 1)) * g.cycle)

/-- GATE_SCHEDULE takes effect at a boundary (R330, R331); answers RESULT0 and RESULT1. -/
def applyGate (p : Packet) (block : List Byte) (s : State) : State × Nat × Nat :=
  let n := fld p 5 3 0
  if flag p 5 8 then
    let g := gateListOf p block
    let t := gateStart g s.time.local'
    (modPort s n (fun x => { x with nextGates := some (some g, t) }), instantNs t % 1000000000, instantNs t / 1000000000 % 2 ^ 32)
  else (modPort s n (fun x => { x with gates := none, nextGates := none }), 0, 0)

/-- PAIR_CONFIG of a packet (Table 15.2). -/
def pairCfgOf (p : Packet) : PairCfg := { lanes := fld p 2 2 1, firstHolder := flag p 2 3, autoResync := flag p 2 4 }

/-- What a command that waits for the boundary will have configured, as far as the checks of this chapter look at it (R298, R299). -/
def configStep (s : State) (c : PendCfg) : State :=
  let p := c.packet
  if c.opcode = 0x0601 then setLanes p s
  else if c.opcode = 0x0602 then setPortCfg p s
  else if c.opcode = 0x0603 then (addFlowIn c.fn p s).1
  else if c.opcode = 0x0604 then (addFlowOut c.fn p s).1
  else if c.opcode = 0x0605 then
    (if flag p 2 16 then { s with net.flowsOut := s.net.flowsOut.erase (fld p 2 10 0) } else removeFlowIn (fld p 2 10 0) s)
  else if c.opcode = 0x0606 then applyShaper p s
  else if c.opcode = 0x0607 then
    (applyGate p ((findCmd s c.serial).elim [] (fun e => e.2.block)) s).1
  else if c.opcode = 0x0801 then (if fld p 2 3 0 = 15 then { s with audio.fs96 := flag p 3 3 } else s)
  else if c.opcode = 0x0901 then { s with pair.cfg := if flag p 2 0 then some (pairCfgOf p) else none }
  else s

/-- The configuration as it will stand once every command accepted before has applied (R298). -/
def configAhead (s : State) : State := s.net.pendCfg.foldl configStep s

end Sys2Proof.Machine
end

