-- ==== Sys2Proof/Machine/Lanes.lean ====
section
/-! DEFINITION. Lanes and ports: LANE_CONFIG, PORT_CONFIG, LANE_TEST, EYE_SCAN, lane faults, ports down and up (R296 to R299, R317 to R320, R338, R339). -/

namespace Sys2Proof.Machine

/-- A MODE takes a RATE (R298). -/
def modeTakesRate (mode rate : Nat) : Bool :=
  if mode = 1 then decide (rate ≤ 2)
  else if mode = 3 then decide (3 ≤ rate) && decide (rate ≤ 5)
  else if mode = 4 then rate == 1
  else if mode = 5 then decide (rate ≤ 2) || rate == 6
  else true

/-- A mode uses PLL A (R296). -/
def onPllA (mode : Nat) : Bool := mode == 1 || mode == 4 || mode == 5

/-- All lanes of quad q that use PLL A run at one line rate (R297). -/
def quadOneRate (s : State) (q : Nat) : Bool :=
  let cs := ((List.range 4).map (fun i => (laneAt s (4 * q + i)).cfg)).filter (fun c => onPllA c.mode)
  cs.all (fun c => cs.all (fun d => c.rate == d.rate && c.testRate == d.testRate))

/-- Values of LANE_CONFIG outside Table 11.2 (R298). -/
def laneCfgBad (p : Packet) : Bool :=
  let c := laneCfgOf p
  let first := fld p 2 6 0
  let count := fld p 2 14 8
  let fixed := c.mode == 0 || c.mode == 2
  count == 0 || decide (96 < first + count) || decide (5 < c.mode) || (c.mode == 4 && decide (first < 88)) || !(modeTakesRate c.mode c.rate)
    || (c.loopback && c.mode != 5) || decide (63 < c.txPre + c.txMain + c.txPost)
    || (if c.rate = 6 then !fixed && (decide (c.testRate < 1250) || decide (56250 < c.testRate)) else c.testRate != 0)

/-- LANE_CONFIG (R297, R298). -/
def runLaneConfig (ci : CmdIn) (s : State) : CmdRes :=
  let s0 := configAhead s
  let s1 := setLanes ci.p s0
  let mode := fld ci.p 3 2 0
  let held := s0.net.ports.flatMap (fun e => portLanes s0 e.2.cfg) ++ flowLanes s0 ++ causewayLanes s0
  if laneCfgBad ci.p || (laneRange ci.p).any (fun l => !(quadOneRate s1 (l / 4))) then refuse s stBadParam
  else if (laneRange ci.p).any (fun l => held.contains l && (laneAt s0 l).cfg.mode != mode) then refuse s stBadState
  else pendTide ci s
def meanLaneConfig : Meaning := { run := runLaneConfig }

/-- Sum of the speeds of the enabled ports, in Mbit/s. -/
def totalSpeed (s : State) : Nat := sumBy (fun e => speedMbps e.2.cfg.speed) s.net.ports

/-- PORT_CONFIG (R299). -/
def runPortConfig (ci : CmdIn) (s : State) : CmdRes :=
  let n := fld ci.p 2 3 0
  let c := portCfgOf ci.p
  if c.speed = 7 ∨ (c.speed = 0 ∧ c.fec) then refuse s stBadParam
  else if c.speed = 0 then pendTide ci s
  else
    let s0 := configAhead s
    let old := (portAt s0 n).cfg
    let (k, rate) := portRow s0 c.speed c.firstLane
    let fecOk := c.speed == 2 || (c.speed == 4 && rate == 1)
    let lanes := (List.range k).map (c.firstLane + ·)
    if c.firstLane % k ≠ 0 ∨ 96 < c.firstLane + k ∨ (c.fec ∧ !fecOk) ∨ c.maxFrame < 1518 ∨ 9216 < c.maxFrame then refuse s stBadParam
    else if lanes.any (fun l => (laneAt s0 l).cfg.mode != 1 || (laneAt s0 l).cfg.rate != rate || (otherPortLanes s0 n).contains l) then refuse s stBadState
    else if old.speed ≠ 0 ∧ old ≠ c ∧ !((boundCopies s0 n).isEmpty && (boundInputs s0 n).isEmpty) then refuse s stBadState
    else if old.speed = 0 ∧ (boundCopies s0 n).any (fun e => (flowOutAt s0 e.1).elim false (fun x => decide (c.maxFrame < flowFrame s0 x.cfg + 4))) then refuse s stBadState
    else if 3200000 < totalSpeed (setPortCfg ci.p s0) then refuse s stCapacity
    else pendTide ci s
def meanPortConfig : Meaning := { run := runPortConfig }

/-- A test rate that is PAM4 (Table 11.1). -/
def isPam4 (c : LaneCfg) : Bool := c.rate == 2 || (c.rate == 6 && decide (28125 < c.testRate))

/-- LANE_TEST (R317, Table 11.8). -/
def runLaneTest (ci : CmdIn) (s : State) : CmdRes :=
  let p := ci.p
  let l := fld p 2 6 0
  let pat := fld p 3 3 0
  let c := (laneAt s l).cfg
  if 95 < l ∨ 7 < pat ∨ word p 4 = 0 ∨ 2 ^ 31 < word p 4 ∨ fld p 5 1 0 = 3 ∨ (fld p 5 1 0 = 2 ∧ word p 6 = 0) then refuse s stBadParam
  else if c.mode = 5 ∧ ((isPam4 c ∧ pat ≤ 4) ∨ (!(isPam4 c) ∧ (pat = 5 ∨ pat = 6))) then refuse s stBadParam
  else if c.mode ≠ 5 ∨ !((laneWaiters s 0x0608 l).isEmpty) then refuse s stBadState
  else .pend s (.laneTest l (s.now + ceilDiv (word p 4 * 2 ^ 20 * 500000) (laneKbps s l))) 0 0
def meanLaneTest : Meaning := { run := runLaneTest }

/-- EYE_SCAN (R318, Table 11.9). -/
def runEyeScan (ci : CmdIn) (s : State) : CmdRes :=
  let p := ci.p
  let l := fld p 6 6 0
  let x := laneAt s l
  let ph := fld p 5 5 0
  let v := fld p 5 13 8
  let dwell := fld p 5 21 16
  let (_, bits, full) := laneUnits p
  if !(indirectOf p) || flag p 6 7 then refuse s stBadParam
  else if 95 < l ∨ ph = 0 ∨ 32 < ph ∨ v = 0 ∨ dwell < 20 ∨ 40 < dwell ∨ 2 < fld p 6 9 8 ∨ word p 4 < 4 * full then refuse s stBadParam
  else if fld p 6 9 8 ≠ 0 ∧ x.cfg.mode ≠ 0 ∧ !(isPam4 x.cfg && x.cfg.mode != 2) then refuse s stBadParam
  else if x.cfg.mode = 0 ∨ x.cfg.mode = 3 ∨ x.fault then refuse s stBadState
  else if 4 ≤ ((allCmds s).filter (fun e => opcodeOf e.2.packet == 0x0609 && (match e.2.wait with | .laneTest _ _ => true | _ => false))).length then refuse s stNoResource
  else .pend s (.laneTest l (s.now + ceilDiv (full * bits * 500000) (laneKbps s l))) 0 0
def meanEyeScan : Meaning := { run := runEyeScan }

/-- The LANE_TEST or EYE_SCAN at the front of flow q, once its time has come. -/
def laneDue (s : State) (op : Nat) (q : FlowRef) : Option Cmd :=
  match flowCmds s (flowKey q) with
  | c :: _ => match c.wait with
    | .laneTest _ t => if opcodeOf c.packet = op ∧ t ≤ s.now then some c else none
    | _ => none
  | [] => none

/-- Pattern length of LANE_TEST in bits (Table 11.8): PRBS7 to PRBS31, PRBS13Q and PRBS31Q of two bits a symbol, the square wave. -/
def patternBits (pat : Nat) : Nat := [127, 511, 32767, 8388607, 2147483647, 16382, 4294967294].getD pat 8

/-- Bits of a test of `len` bits that the generator inverts (R317): the least significant bit of a PAM4 symbol is its second. DESIGN CHOICE (log 175): the start is the test's first bit or symbol, and each interval's error is its last bit. -/
def injectedBits (c : LaneCfg) (p : Packet) (len : Nat) : List Nat :=
  if !(c.loopback && flag p 2 7) then []
  else if fld p 5 1 0 = 1 then [if isPam4 c then 1 else 0]
  else if fld p 5 1 0 = 2 then (List.range (len / (word p 6 * 1024))).map (fun k => (k + 1) * (word p 6 * 1024) - 1)
  else []

/-- The checker of a lane test (R317). -/
structure LaneChecker where
  /-- first bit of the run that is free of error so far -/
  clean : Nat := 0
  locked : Bool := false
  /-- errors counted since it locked, newest first -/
  recent : List Nat := []
  errors : Nat := 0
  relocks : Nat := 0
  deriving DecidableEq, Repr

/-- The checker meets the wrong bit e (R317): locked after 2 × (pattern length) bits without error it counts it, and loses lock at 8 errors within 64 bits. -/
def LaneChecker.wrong (len e : Nat) (k : LaneChecker) : LaneChecker :=
  if !(k.locked || decide (k.clean + 2 * len ≤ e)) then { k with clean := e + 1 }
  else
    let recent := e :: k.recent.filter (fun x => decide (e < x + 64))
    if 8 ≤ recent.length then { clean := e + 1, errors := k.errors + 1, relocks := k.relocks + 1 }
    else { k with locked := true, recent := recent, errors := k.errors + 1 }

/-- Bits that differ from the pattern: those the channel and the generator invert, but not both. -/
def wrongBits (flips injected : List Nat) : List Nat :=
  sortOn (fun x => x) ((flips.filter (fun x => !(injected.contains x))) ++ injected.filter (fun x => !(flips.contains x)))

/-- Bits of the test that the channel inverts: at a PAM4 rate a symbol's more significant bit comes first (R317). -/
def receivedFlips (c : LaneCfg) (low high : List Nat) : List Nat := if isPam4 c then low.map (fun i => 2 * i + 1) ++ high.map (fun i => 2 * i) else low

/-- LANE_TEST_DONE (R317): without the checker no error is counted. -/
def laneTestDone (q : FlowRef) (low high : List Nat) (s : State) : State :=
  match laneDue s 0x0608 q with
  | some c =>
    let p := c.packet
    let len := word p 4 * 2 ^ 20
    let bits := wrongBits ((receivedFlips (laneAt s (fld p 2 6 0)).cfg low high).filter (fun x => decide (x < len))).dedup (injectedBits (laneAt s (fld p 2 6 0)).cfg p len)
    let k : LaneChecker := if flag p 2 8 then bits.foldl (fun k e => k.wrong (patternBits (fld p 3 3 0)) e) {} else {}
    finishCmd c.serial (word p 4) (k.errors % 2 ^ 32) (k.relocks % 2 ^ 32) s
  | none => s

/-- EYE_SCAN_DONE (R318): one 4-byte mismatch count per point. -/
def eyeScanDone (q : FlowRef) (counts : List Word) (b : Bus) (s : State) : State :=
  match laneDue s 0x0609 q with
  | some c =>
    let full := (laneUnits c.packet).2.2
    settleRes c.serial b [] (fun s => s) (.units s ((List.range full).flatMap (fun i => le 4 ((counts.getD i 0).toNat))) full 0 0)
  | none => s

/-- Removed flows whose last group has ended are gone (R340). -/
def reapFlows (s : State) : State :=
  { s with net.flowsOut := s.net.flowsOut.keep (fun _ x => !(x.removed && x.copyA.groups.isEmpty && x.copyB.groups.isEmpty)) }

/-- Count frames in DOWN_DROPS of flow w. -/
def countDown (w n : Nat) (s : State) : State := modFlowOut s w (fun x => { x with downDrops := (x.downDrops + n) % 2 ^ 32 })

/-- An enabled port that is up goes down (R320): the frame on the wire is cut off, released groups are discarded (R339). -/
def portGoDown (n : Nat) (fecOnly : Bool) (s : State) : State :=
  let x := portAt s n
  if x.cfg.speed = 0 then s
  else if x.down then (if fecOnly then s else modPort s n (fun x => { x with fecDown := false }))
  else
    let s := modPort s n (fun x => { x with down := true, fecDown := fecOnly, linkDowns := inc32 x.linkDowns, busyUntil := s.now, sending := none, fwQueue := [] })
    let s := emit s (.remoteFault n true)
    let s := s.net.flowsOut.foldl (fun s e =>
      if e.2.cfg.kind = 6 then s
      else ((copiesOf e.2.cfg).filter (fun b => copyPort e.2.cfg b == n)).foldl (fun s b =>
        let (s', k) := dropCopy e.1 b (fun g => !g.released) s
        countDown e.1 k s') s) s
    settleAllSlices (reapFlows s)

/-- Enabled ports that use lane l. -/
def laneUsers (s : State) (l : Nat) : List Nat := (s.net.ports.filter (fun e => (portLanes s e.2.cfg).contains l)).map (fun e => e.1)

/-- A cause applies to a lane in its mode (R319). -/
def causeFits (mode : Nat) : LaneFaultCause → Bool
  | .recoveredClock _ _ => mode == 1 || mode == 2 || mode == 4 || mode == 5
  | .referenceClock => mode != 0
  | .blockLock => mode == 1
  | .highBer => mode == 1
  | .fecAlignment => mode == 1
  | .timingReference _ => mode == 2
  | .alignment _ => mode == 4
  | .deskew _ => mode == 4

/-- A cause that the device judges (R31, R315, R319): the window's edge count, 3 lines without timing reference signals, 4 violations within 64 characters, more than 64 characters of skew; the PCS and FEC clauses of IEEE 802.3 decide the others. -/
def causeMet : LaneFaultCause → Bool
  | .recoveredClock edges nominal => windowLost edges nominal
  | .timingReference lines => decide (3 ≤ lines)
  | .alignment v => (List.range v.length).any (fun i => match v[i]?, v[i + 3]? with | some a, some b => decide (b < a + 64) | _, _ => false)
  | .deskew skew => decide (64 < skew)
  | _ => true

/-- DETAIL of a lane's journal entry. -/
def laneCauseCode : LaneFaultCause → Nat
  | .recoveredClock _ _ => 1 | .referenceClock => 2 | .blockLock => 3 | .highBer => 4 | .fecAlignment => 5 | .timingReference _ => 6 | .alignment _ => 7 | .deskew _ => 8

/-- LANE_FAULT (R319, R320, Table 16.1 class 2). A frame partly received is counted as a bad one of its port (DEDUCED, log 175). -/
def laneFail (l : Nat) (c : LaneFaultCause) (partialRx : Bool) (s : State) : State :=
  let x := laneAt s l
  if !(causeFits x.cfg.mode c && causeMet c) then s
  else
    let s := modLane s l (fun x => { x with refLost := x.refLost || c == .referenceClock, highBer := x.highBer || c == .highBer })
    if x.fault then s
    else
      let s := modLane s l (fun x => { x with fault := true, faults := satInc x.faults 65535 })
      let s := journalAdd s 2 0 deviceFn 5 l (laneCauseCode c)
      let s := (laneWaiters s 0x0609 l).foldl (fun s d => endCmd d.serial stFault 0 0 s) s
      let s := if partialRx then ((laneUsers s l).filter (fun n => !(portAt s n).down)).foldl (fun s n => modPort s n (fun x => { x with rxBad := inc32 x.rxBad })) s else s
      (laneUsers s l).foldl (fun s n => portGoDown n false s) s

/-- LANE_RELOCK (R315, R319, R33): the lane is locked again; a Causeway lane after 4 commas. -/
def laneLock (l commas : Nat) (s : State) : State :=
  if (laneAt s l).cfg.mode = 4 ∧ commas < 4 then s else modLane s l (fun x => { x with fault := false, refLost := false, highBer := false })

/-- A lane of port n is in fault. -/
def portLaneFault (s : State) (n : Nat) : Bool := (portLanes s (portAt s n).cfg).any (fun l => (laneAt s l).fault)

/-- The port has RS-FEC (Table 11.4). -/
def portFec (s : State) (c : PortCfg) : Bool :=
  c.speed != 0 && (c.fec || decide (5 ≤ c.speed) || c.speed == 3 || (c.speed == 4 && (laneAt s c.firstLane).cfg.rate == 2))

/-- Remote fault received on an enabled port (Table 11.11). -/
def remoteSeen (n : Nat) (remote : Bool) (s : State) : State := if (portAt s n).cfg.speed = 0 then s else modPort s n (fun x => { x with remoteFault := remote })

/-- PORT_DOWN (R320). -/
def portFail (n uncorr : Nat) (remote : Bool) (s : State) : State :=
  let s := remoteSeen n remote s
  if portLaneFault s n then portGoDown n false s
  else if portFec s (portAt s n).cfg then
    let s := modPort s n (fun x => { x with fecUncorr := (x.fecUncorr + uncorr) % 2 ^ 32 })
    if 10 < uncorr then portGoDown n true s else s
  else s

/-- PORT_UP (R320): all lanes are locked and the PCS is aligned; a port that was down stops sending remote fault. -/
def portComeUp (n : Nat) (remote : Bool) (s : State) : State :=
  let s := remoteSeen n remote s
  if portLaneFault s n then s
  else
    let s := if (portAt s n).down then emit s (.remoteFault n false) else s
    modPort s n (fun x => { x with down := false, fecDown := false })

/-- LANE_CONFIG (R298). -/
def execLaneConfig (q : FlowRef) (b : Bus) (s : State) : Host.Outcome State Fault Refusal := .next (startRow 0x0601 meanLaneConfig q b s)
/-- PORT_CONFIG (R299). -/
def execPortConfig (q : FlowRef) (b : Bus) (s : State) : Host.Outcome State Fault Refusal := .next (startRow 0x0602 meanPortConfig q b s)
/-- LANE_TEST (R317). -/
def execLaneTest (q : FlowRef) (b : Bus) (s : State) : Host.Outcome State Fault Refusal := .next (startRow 0x0608 meanLaneTest q b s)
/-- LANE_TEST_DONE (R317). -/
def execLaneTestDone (dt : Nat) (q : FlowRef) (low high : List Nat) (s : State) : Host.Outcome State Fault Refusal :=
  .next (actAfter dt s (laneTestDone q low high))
/-- EYE_SCAN (R318). -/
def execEyeScan (q : FlowRef) (b : Bus) (s : State) : Host.Outcome State Fault Refusal := .next (startRow 0x0609 meanEyeScan q b s)
/-- EYE_SCAN_DONE (R318). -/
def execEyeScanDone (dt : Nat) (q : FlowRef) (counts : List Word) (b : Bus) (s : State) : Host.Outcome State Fault Refusal :=
  .next (actAfter dt s (eyeScanDone q counts b))
/-- LANE_FAULT (R319). -/
def execLaneFault (l : Lane) (x : LaneFaultIn) (s : State) : Host.Outcome State Fault Refusal := .next (act s (laneFail l.val x.cause x.partialRx))
/-- LANE_RELOCK (R319). -/
def execLaneRelock (x : LaneLock) (s : State) : Host.Outcome State Fault Refusal := .next (act s (laneLock x.lane.val x.commas))
/-- PORT_DOWN (R320). -/
def execPortDown (p : Port) (x : PortFaultIn) (s : State) : Host.Outcome State Fault Refusal := .next (act s (portFail p.val x.uncorrectable x.remote))
/-- PORT_UP (R320). -/
def execPortUp (x : PortLink) (s : State) : Host.Outcome State Fault Refusal := .next (act s (portComeUp x.port.val x.remote))

end Sys2Proof.Machine
end

