-- ==== Sys2Proof/Machine/FlowCmds.lean ====
section
/-! DEFINITION. Network flows, shapers and time gates as commands: FLOW_IN_ADD, FLOW_OUT_ADD, FLOW_REMOVE, SHAPER_SET, GATE_SCHEDULE, GATE_LIST_APPLY (R302, R308, R309, R313, R326, R327, R330 to R333, R337, R378, R380). -/

namespace Sys2Proof.Machine

/-- Ports that a flow names. -/
def inPorts (c : FlowInCfg) : List Nat := if c.dual then [c.portA, c.portB] else [c.portA]
def outPorts (c : FlowOutCfg) : List Nat := if c.kind = 6 then [] else (copiesOf c).map (copyPort c)

/-- Port, destination and UDP port that the paths of a flow match (R302). -/
def inPaths (c : FlowInCfg) : List (Nat × Nat × Nat) :=
  (c.portA, c.destA, c.udpA) :: (if c.dual then [(c.portB, c.destB, c.udpB)] else [])

/-- Values of FLOW_IN_ADD outside Tables 11.5 and R378, the buses running at 96 kHz or not. -/
def flowInBad (s : State) (p : Packet) : Bool :=
  let c := flowInCfgOf p
  let (ch, depth, fs, pt) := c.audio
  decide (4 < c.kind) || (!c.dual && c.portB != 0) || decide (150 < c.window) || (c.kind == 2 && c.dual)
    || (if c.kind = 0 then c.rateNum == 0 || (c.rateDen != 1000 && c.rateDen != 1001)
        else if c.kind = 3 then
          ch == 0 || decide (64 < ch) || decide (2 ≤ pt) || (fs == 1) != s.audio.fs96 || (fs == 1 && decide (32 < ch)) || flag p 11 7 || fld p 11 31 12 != 0
            || word p 12 != 0 || word p 13 != 0
            || (inPorts c).any (fun n => decide ((portAt s n).cfg.maxFrame < 58 + audioPayload ch depth pt (fs == 1)))
        else word p 11 != 0 || word p 12 != 0 || word p 13 != 0)

/-- FLOW_IN_ADD (R302, R303, R378). -/
def runFlowInAdd (ci : CmdIn) (s : State) : CmdRes :=
  let s0 := configAhead s
  let c := flowInCfgOf ci.p
  if flowInBad s0 ci.p then refuse s stBadParam
  else if (inPorts c).any (fun n => (portAt s0 n).cfg.speed == 0) then refuse s stBadState
  else match s0.net.flowsIn.find? (fun e => (inPaths e.2.cfg).any (fun x => (inPaths c).contains x)) with
    | some e => .done s stBadState 0 (if e.2.owner.val = ci.f && (flowInAt s e.1).isSome then e.1 else 0xFFFFFFFF) 0
    | none =>
      match s0.net.flowsIn.lowestFree 1024 with
      | none => refuse s stNoResource
      | some _ => pendTide ci s
def meanFlowInAdd : Meaning := { run := runFlowInAdd }

/-- A channel, output, input flow or bus that FLOW_OUT_ADD names belongs to another function (R72, R374). -/
def denyFlowOutAdd (ci : CmdIn) (s : State) : Bool :=
  let c := flowOutCfgOf ci.p
  if c.kind ≤ 2 then denyChan c.srcIndex ci s
  else if c.kind = 3 ∨ c.kind = 6 then (outAt s c.srcIndex).elim false (fun o => o.owner.val != ci.f)
  else if c.kind = 4 then (List.range c.audio.1).any (fun i => (busAt s (c.srcIndex + i)).owner.elim false (fun f => f.val != ci.f))
  else if c.kind = 5 then (flowInAt s c.srcIndex).elim false (fun x => x.owner.val != ci.f) || denyChan c.delayChan ci s
  else false

/-- Values of FLOW_OUT_ADD outside Table 11.7, sources that do not exist, frames beyond MAX_FRAME (R309, R313, R380, R519). -/
def flowOutBad (s : State) (c : FlowOutCfg) : Bool :=
  decide (6 < c.kind) || decide (c.maxPayload < 256) || decide (8952 < c.maxPayload)
    || (if c.kind ≤ 2 then (chanAt s c.srcIndex).isNone
        else if c.kind = 4 then decide (128 < c.srcIndex + c.audio.1) || decide (4 ≤ c.audio.2)
        else if c.kind = 5 then (flowInAt s c.srcIndex).elim true (fun x => x.cfg.kind != 4) || (chanAt s c.delayChan).isNone
        else match outAt s c.srcIndex with
          | none => true
          | some o =>
            if c.kind = 3 then false
            else o.cfg.chroma != 1 || (o.cfg.rateDen == 1001) != (laneAt s c.lane).cfg.sdiRef || decide (95 < c.lane) || (quadLink o.cfg && c.lane % 4 != 0))
    || (outPorts c).any (fun n => decide ((portAt s n).cfg.maxFrame < flowFrame s c + 4))

/-- A queue is closed throughout a gate list (R333). -/
def closedIn (g : GateList) (q : Nat) : Bool := g.entries.all (fun e => !(bitOf e.1 q))

/-- The gate lists in force and waiting on a port. -/
def gateLists (x : PortSt) : List GateList := x.gates.toList ++ (match x.nextGates with | some (some g, _) => [g] | _ => [])

/-- Buckets in use (R326) and staging reserved (R337). -/
def bucketsUsed (s : State) : Nat := sumBy (fun e => if e.2.cfg.kind = 6 ∨ e.2.removed then 0 else (copiesOf e.2.cfg).length) s.net.flowsOut
def stagingUsed (s : State) : Nat := sumBy (fun e => e.2.staging) s.net.flowsOut

/-- FLOW_OUT_ADD (R309, R313, R326, R333, R337, R380, R520). -/
def runFlowOutAdd (ci : CmdIn) (s : State) : CmdRes :=
  let s0 := configAhead s
  let c := flowOutCfgOf ci.p
  if flowOutBad s0 c then refuse s stBadParam
  else if (outPorts c).any (fun n => (gateLists (portAt s0 n)).any (fun g => closedIn g c.queue)) then refuse s stBadState
  else if c.kind = 6 ∧ (sdiLanes s0 c).any (fun l => (laneAt s0 l).cfg.mode != 3 || (flowLanes s0).contains l) then refuse s stBadState
  else if c.kind = 4 ∧ (List.range c.audio.1).any (fun i => (busAt s (c.srcIndex + i)).owner.isNone) then refuse s stBadState
  else if (s0.net.flowsOut.lowestFree 2048).isNone ∨ 2048 < bucketsUsed s0 + (outPorts c).length ∨ 16777216 < stagingUsed s0 + stagingOf s0 c then refuse s stNoResource
  else if flowLoad s0 c ≠ 0 ∧ qdrCeiling s < sumRat qdrLoad (poolWith s none none) + otherQdr s + flowLoad s0 c then .done s stCapacity 0 9 0xFFFFFFFF
  else pendTide ci s
def meanFlowOutAdd : Meaning := { deny := denyFlowOutAdd, run := runFlowOutAdd }

/-- A layer that an output has applied or staged, or that a commit holds, takes input flow n (R308). -/
def layerUsesFlow (s : State) (n : Nat) : Bool :=
  let uses := fun (l : Layer) => l.srcKind == 1 && l.srcIndex == n
  s.outs.any (fun e => e.2.layers.any (fun l => uses l.2)
    || (e.2.stage ++ e.2.commits.flatMap (fun c => c.changes)).any (fun c => match c with | .set _ l => uses l | _ => false))

/-- Something uses input flow n (R308). -/
def flowInUsed (s : State) (n : Nat) : Bool :=
  s.chans.any (fun e => e.2.st != .idle && e.2.cfg.elim false (fun c => c.srcKind == 0 && c.srcIndex == n)) || layerUsesFlow s n
    || s.decs.any (fun e => e.2.srcKind == 0 && e.2.srcIndex == n)
    || (configAhead s).net.flowsOut.any (fun e => e.2.cfg.kind == 5 && e.2.cfg.srcIndex == n && !e.2.removed)

/-- FLOW_REMOVE (R308). -/
def runFlowRemove (ci : CmdIn) (s : State) : CmdRes :=
  let n := fld ci.p 2 10 0
  if flag ci.p 2 16 then
    match flowOutAt s n with
    | some x => if x.removed then refuse s stBadParam else pendTide ci s
    | none => refuse s stBadParam
  else match flowInAt s n with
    | none => refuse s stBadParam
    | some _ => if flowInUsed s n then refuse s stBadState else pendTide ci s
def meanFlowRemove : Meaning :=
  { deny := fun ci s =>
      let n := fld ci.p 2 10 0
      if flag ci.p 2 16 then (flowOutAt s n).elim false (fun x => x.owner.val != ci.f) else (flowInAt s n).elim false (fun x => x.owner.val != ci.f),
    run := runFlowRemove }

/-- SHAPER_SET (R327, Table 12.1). -/
def runShaperSet (ci : CmdIn) (s : State) : CmdRes :=
  let p := ci.p
  let n := fld p 2 26 16
  let q := [fld p 4 15 0, fld p 4 31 16, fld p 5 15 0, fld p 5 31 16, fld p 6 15 0]
  if fld p 2 1 0 = 0 then
    match flowOutAt s n with
    | none => refuse s stBadParam
    | some x =>
      if x.removed ∨ word p 5 ≠ 0 ∨ word p 6 ≠ 0 ∨ (word p 3 ≠ 0 ∧ (word p 3 < 1000 ∨ 400000000 < word p 3)) ∨ 4194304 < word p 4
          ∨ (outPorts x.cfg).any (fun m => decide (word p 4 < (portAt s m).cfg.maxFrame + (portAt s m).overhead)) then refuse s stBadParam
      else pendTide ci s
  else if fld p 2 1 0 = 1 then
    (if 15 < n ∨ fld p 3 31 6 ≠ 0 ∨ q.any (fun v => v != 0 && decide (v < 1536)) then refuse s stBadParam else pendTide ci s)
  else refuse s stBadParam
def meanShaperSet : Meaning :=
  { deny := fun ci s =>
      if fld ci.p 2 1 0 = 0 then (flowOutAt s (fld ci.p 2 26 16)).elim false (fun x => x.owner.val != ci.f)
      else fld ci.p 2 1 0 == 1 && ci.f != 0,
    run := runShaperSet }

/-- Time that a frame of n bytes, FCS included, takes on a port, in ns (R332). -/
def txNs (s : State) (p n : Nat) : Rat := (8000 * (n + 8) : Nat) / (max (speedMbps (portAt s p).cfg.speed) 1 : Nat)

/-- How long the gate of queue q stays open from the start of a list of entries, in ns. -/
def openRun (q : Nat) : List (Nat × Nat) → Nat
  | [] => 0
  | (g, t) :: r => if bitOf g q then t + openRun q r else 0

/-- The longest open window of queue q in a list, one that spans the cycle wrap counted as one (R333). -/
def longestOpen (g : GateList) (q : Nat) : Nat :=
  (List.range g.entries.length).foldl (fun m i => max m (openRun q (g.entries.drop i ++ g.entries.take i))) 0

/-- A queue that opens in the list without a window for a MAX_FRAME frame (R333). -/
def windowTooShort (s : State) (p : Nat) (g : GateList) : Bool :=
  (List.range 8).any (fun q => !(closedIn g q) && !(g.entries.all (fun e => bitOf e.1 q)) && decide ((longestOpen g q : Rat) < txNs s p (portAt s p).cfg.maxFrame))

/-- GATE_SCHEDULE (R330, R333, Table 12.3). -/
def runGateSchedule (ci : CmdIn) (s : State) : CmdRes :=
  let p := ci.p
  let n := fld p 5 3 0
  let count := fld p 5 24 16
  let s0 := configAhead s
  if flag p 5 8 then
    let g := gateListOf p ci.block
    if !(indirectOf p) || count == 0 || decide (256 < count) || word p 4 != 8 * count || decide (1000000000 ≤ word p 8)
        || decide (g.cycle < 1000) || decide (1000000000 < g.cycle) || g.entries.any (fun e => decide (e.2 < 100) || decide (1000000000 < e.2))
        || (List.range count).any (fun i => ofLe (slice ci.block (8 * i + 1) 3) != 0) || sumBy (fun e => e.2) g.entries != g.cycle
        || ((portAt s0 n).cfg.speed != 0 && windowTooShort s0 n g) then refuse s stBadParam
    else if (boundCopies s0 n).any (fun e => (flowOutAt s0 e.1).elim false (fun x => closedIn g x.cfg.queue)) then refuse s stBadState
    else pendTide ci s
  else if indirectOf p || count != 0 then refuse s stBadParam
  else pendTide ci s
def meanGateSchedule : Meaning := { run := runGateSchedule }

/-- GATE_LIST_APPLY (R331): the waiting list of port n applies from its first instant. -/
def gateListApply (n : Nat) (s : State) : State :=
  match (portAt s n).nextGates with
  | some (g, t) => if t ≤ s.time.local' then modPort s n (fun x => { x with gates := g, nextGates := none }) else s
  | none => s

/-- FLOW_IN_ADD (R302). -/
def execFlowInAdd (q : FlowRef) (b : Bus) (s : State) : Host.Outcome State Fault Refusal := .next (startRow 0x0603 meanFlowInAdd q b s)
/-- FLOW_OUT_ADD (R309). -/
def execFlowOutAdd (q : FlowRef) (b : Bus) (s : State) : Host.Outcome State Fault Refusal := .next (startRow 0x0604 meanFlowOutAdd q b s)
/-- FLOW_REMOVE (R308). -/
def execFlowRemove (q : FlowRef) (b : Bus) (s : State) : Host.Outcome State Fault Refusal := .next (startRow 0x0605 meanFlowRemove q b s)
/-- SHAPER_SET (R327). -/
def execShaperSet (q : FlowRef) (b : Bus) (s : State) : Host.Outcome State Fault Refusal := .next (startRow 0x0606 meanShaperSet q b s)
/-- GATE_SCHEDULE (R330). -/
def execGateSchedule (q : FlowRef) (b : Bus) (s : State) : Host.Outcome State Fault Refusal := .next (startRow 0x0607 meanGateSchedule q b s)
/-- GATE_LIST_APPLY (R331). -/
def execGateListApply (dt : Nat) (p : Port) (s : State) : Host.Outcome State Fault Refusal := .next (actAfter dt s (gateListApply p.val))

end Sys2Proof.Machine
end

