-- ==== Sys2Proof/Machine/InputLoss.lean ====
section
/-! DEFINITION. Loss and return of a channel's input (R104 to R106). -/

namespace Sys2Proof.Machine

/-- Input loss of channel c is declared in picture n from CTU row `row` on: the picture carries the loss flag, and the policy applies until input is restored (R104, R105). The pictures after it take their T_ref from it (R85), so that what has begun of the source beyond it no longer counts. -/
def declareLoss (c n row : Nat) (s : State) : State :=
  match chanAt s c with
  | none => s
  | some x =>
    if x.input.status = 1 ∨ x.st = .idle then s
    else
      let policy := x.cfg.elim 0 (fun g => g.lossPolicy)
      let keep := if x.cfg.elim false (fun g => g.srcKind == 2) then x.input.pending else x.input.pending.take (n + 1 - x.run.nextPic)
      modChan s c (fun x =>
        let pics := x.run.pics.modify n (fun q => { q with loss := q.loss ++ [(n, row, 1, policy)], staleSrc := q.staleSrc || policy == 1 })
        { x with input := { x.input with status := 1, lossSince := n, whole := 0, pending := keep }, run := { x.run with pics := pics } })

/-- A picture of the source has been received whole: after two in a row under loss, content resumes at the next picture (R106). -/
def wholePicture (c : Nat) (s : State) : State :=
  modChan s c (fun x =>
    if x.input.status = 0 then x
    else if 1 ≤ x.input.whole then { x with input := { x.input with status := 0, whole := 0, lostRun := 0 } }
    else { x with input := { x.input with status := 2, whole := x.input.whole + 1 } })

/-- A picture of the source was not whole: counting starts again (R106). -/
def brokenPicture (c : Nat) (s : State) : State :=
  modChan s c (fun x => if x.input.status = 0 then x else { x with input := { x.input with status := 1, whole := 0 } })

/-- Line l of output picture m, which picture n of composed channel c codes, has been read from the COMPOSE ring. A poisoned one counts as lost: up to two in a row come from the hold picture, a third declares input loss (R104, R248). -/
def ringLine (c n m ctu l : Nat) (bad : Bool) (s : State) : State :=
  match chanAt s c with
  | none => s
  | some x =>
    let run := if bad then x.input.lostRun + 1 else 0
    let s := modChan (if bad then poisonRead 0 x.owner.val 1 c l s else s) c (fun y => { y with input.lostRun := run })
    let s := if bad && decide (run ≤ 2) then
        modChan s c (fun y => { y with counters.missingLines := inc32 y.counters.missingLines, input.replaced := y.input.replaced.set m (y.input.replaced.getD m [] ++ [l]) })
      else s
    if run = 3 then declareLoss c n ((l - 2) / max ctu 1) s else s

end Sys2Proof.Machine
end

