-- ==== Sys2Proof/Machine/Memory.lean ====
section
/-! DEFINITION. Addressed buffer memory: bytes of a surface buffer by offset, in one canonical form (R182, R500). A byte that nothing has written reads 0 (log 6). -/

namespace Sys2Proof.Machine

namespace Memory

/-- What an unlisted byte reads as (log 6). -/
def absent : Byte := 0

/-- The byte at an offset. -/
def read : List Host.Cell → Nat → Byte
  | [], _ => absent
  | (j, b) :: r, a => if j = a then b else if a < j then absent else read r a

/-- Write one byte: offsets stay strictly rising, and a byte equal to what an unlisted offset reads as is not listed. -/
def write : List Host.Cell → Nat → Byte → List Host.Cell
  | [], a, v => if v = absent then [] else [(a, v)]
  | (j, b) :: r, a, v =>
    if a < j then (if v = absent then (j, b) :: r else (a, v) :: (j, b) :: r)
    else if j = a then (if v = absent then r else (a, v) :: r)
    else (j, b) :: write r a v

/-- Write a run of bytes from an offset. -/
def writeAll (m : List Host.Cell) (a : Nat) : List Byte → List Host.Cell
  | [] => m
  | b :: r => writeAll (write m a b) (a + 1) r

/-- The canonical form: offsets strictly rise and no listed byte reads as an unlisted one. -/
def wf : List Host.Cell → Bool
  | [] => true
  | [(_, b)] => b != absent
  | (j, b) :: (k, c) :: r => b != absent && decide (j < k) && wf ((k, c) :: r)

/-- A run of bytes. -/
def bytes (m : List Host.Cell) (a n : Nat) : List Byte := (List.range n).map (fun i => read m (a + i))

/-- A 16-bit little-endian unit. -/
def unit (m : List Host.Cell) (a : Nat) : Nat := (read m a).toNat + 256 * (read m (a + 1)).toNat

end Memory

/-- One buffer of a surface. -/
def bufferMem (x : Surface) (b : Nat) : List Host.Cell := x.mem.getD b []

/-- Write bytes into a buffer of a surface from an offset; every atom they cover whole is no longer poisoned (R247). -/
def writeBuffer (x : Surface) (b off : Nat) (bs : List Byte) : Surface :=
  let m := Memory.writeAll (bufferMem x b) off bs
  let base := b * bufferSize x.format x.width x.height
  let first := base + off
  { x with mem := if m.isEmpty then x.mem.erase b else x.mem.set b m,
           poison := x.poison.filter (fun a => !(decide (first ≤ 32 * a) && decide (32 * a + 32 ≤ first + bs.length))) }

/-- Some atom of a byte range of buffer b is poisoned (R247). -/
def rangePoisoned (x : Surface) (b off len : Nat) : Bool :=
  let first := b * bufferSize x.format x.width x.height + off
  decide (0 < len) && x.poison.any (fun a => decide (first < 32 * a + 32) && decide (32 * a < first + len))

end Sys2Proof.Machine
end

