-- ==== Sys2Proof/Machine/Transfer.lean ====
section
/-! DEFINITION. Transfer functions, colour matrices and scaler coefficients (R187, R188, R191, R193, Table 6.5). Real functions are evaluated on integers in units of 2⁻¹²⁸, far finer than the rounding of the tables (log 28). -/

namespace Sys2Proof.Machine

/-- One, in units of 2⁻¹²⁸. -/
def fixOne : Nat := 2 ^ 128

/-- Integer square root of a number below 2²⁶⁴, bit by bit. -/
def isqrt (n : Nat) : Nat := (List.range 132).foldl (fun r i => let b := 131 - i; if (r + 2 ^ b) * (r + 2 ^ b) ≤ n then r + 2 ^ b else r) 0

/-- Fraction bits of a logarithm: repeated squaring of y in [1, 2). -/
def logBits : Nat → Nat → Nat → Nat
  | 0, _, acc => acc
  | n + 1, y, acc => let z := y * y / fixOne; if 2 * fixOne ≤ z then logBits n (z / 2) (2 * acc + 1) else logBits n z (2 * acc)

/-- log₂ of a positive number. -/
def log2Fix (x : Nat) : Int :=
  let k := x.log2
  let y := if k ≤ 128 then x <<< (128 - k) else x >>> (k - 128)
  ((k : Int) - 128) * (fixOne : Int) + (logBits 128 y 0 : Nat)

/-- Product of the roots 2^(2⁻ʲ) for the fraction bits of r, from bit b down; c is the root of the bit above. -/
def expBits : Nat → Nat → Nat → Nat → Nat
  | 0, _, _, acc => acc
  | b + 1, r, c, acc => let c' := isqrt (c * fixOne); expBits b r c' (if r.testBit b then acc * c' / fixOne else acc)

/-- 2 to a number. -/
def exp2Fix (z : Int) : Nat :=
  let q := z / (fixOne : Int)
  let m := expBits 128 (z % (fixOne : Int)).toNat (2 * fixOne) fixOne
  if 0 ≤ q then m <<< q.toNat else m >>> (-q).toNat

/-- x to the power num / den. -/
def powFix (x num den : Nat) : Nat := if x = 0 then 0 else exp2Fix (log2Fix x * (num : Int) / (den : Int))

/-- round_half_up(65,535 × v). -/
def round16 (v : Nat) : Nat := (2 * 65535 * v + fixOne) / (2 * fixOne)

/-- ln 2 and log₂ e in units of 2⁻¹²⁸. -/
def lnTwo : Nat := 235865763225513294137944142764154484399
def logTwoE : Nat := 490923683258796565746369346286093237521

/-- A decimal fraction n / 10⁸. -/
def dec8 (n : Nat) : Nat := n * fixOne / 100000000

/-- HLG constants a, b and c of BT.2100 (PRESUMED: the standard's, log 28). -/
def hlgA : Nat := dec8 17883277
def hlgB : Nat := dec8 28466892
def hlgC : Nat := dec8 55991073

/-- f(v) of Table 6.5. PQ constants are those of ST 2084 (PRESUMED, log 28). -/
def eotf (colour v : Nat) : Nat :=
  if colour ≤ 1 then powFix v 12 5
  else if colour = 2 then
    let n := powFix v 32 2523
    let c1 := 107 * fixOne / 128
    if n ≤ c1 then 0 else min fixOne (10 * powFix ((n - c1) * fixOne / (2413 * fixOne / 128 - 2392 * n / 128)) 8192 1305)
  else
    let e := if 2 * v ≤ fixOne then v * v / fixOne / 3
      else (exp2Fix (((v : Int) - (hlgC : Int)) * (logTwoE : Int) / (hlgA : Int)) + hlgB) / 12
    powFix e 6 5

/-- g(y) of Table 6.5. -/
def eotfInverse (colour y : Nat) : Nat :=
  if colour ≤ 1 then powFix y 5 12
  else if colour = 2 then
    let p := powFix (y / 10) 1305 8192
    powFix ((107 * fixOne + 2413 * p) / 128 * fixOne / (fixOne + 2392 * p / 128)) 2523 32
  else
    let e := powFix y 5 6
    if 12 * e ≤ fixOne then isqrt (3 * e * fixOne)
    else (log2Fix (12 * e - hlgB) * (lnTwo : Int) / (fixOne : Int) * (hlgA : Int) / (fixOne : Int) + (hlgC : Int)).toNat

/-- Entry i of the EOTF table T of a colour code, and of the inverse table U (R188). -/
def tableT (colour i : Nat) : Nat := round16 (eotf colour (i * fixOne / 1024))
def tableU (colour i : Nat) : Nat := round16 (eotfInverse colour (i * fixOne / 4096))

/-- A 16-bit nonlinear value made linear through T, and back through U (R188). -/
def linearise (colour x : Nat) : Nat :=
  let t := tableT colour (x / 64)
  t + ((tableT colour (x / 64 + 1) - t) * (x % 64) + 32) / 64
def delinearise (colour y : Nat) : Nat :=
  let u := tableU colour (y / 16)
  u + ((tableU colour (y / 16 + 1) - u) * (y % 16) + 8) / 16

/-- Clamp to 0 to hi, and division rounded half up. -/
def clampTo (hi : Nat) (x : Int) : Nat := if x < 0 then 0 else min hi x.toNat
def divHalfUp (a : Int) (b : Nat) : Int := (2 * a + (b : Int)) / (2 * (b : Int))

/-- a / b rounded half up to a multiple of 2⁻¹⁴, in units of 2⁻¹⁴. -/
def coef14 (a : Int) (b : Nat) : Int := divHalfUp (a * 16384) b

/-- Kr and Kb in ten-thousandths: BT.709 for COLOUR 0, BT.2020 otherwise (R187 step 4). -/
def krOf (colour : Nat) : Nat := if colour = 0 then 2126 else 2627
def kbOf (colour : Nat) : Nat := if colour = 0 then 722 else 593
def kgOf (colour : Nat) : Nat := 10000 - krOf colour - kbOf colour

/-- R′G′B′ in 16 bits of a narrow-range sample triple (R187 step 4). -/
def toRgb (colour y cb cr : Nat) : Nat × Nat × Nat :=
  let kr : Int := krOf colour
  let kb : Int := kbOf colour
  let kg := kgOf colour
  let ey : Int := ((y : Int) - 64) * 896 * 16384
  let u : Int := ((cb : Int) - 512) * 876
  let v : Int := ((cr : Int) - 512) * 876
  let out (x : Int) : Nat := clampTo 65535 (divHalfUp (65535 * x) (876 * 896 * 16384))
  (out (ey + coef14 (2 * (10000 - kr)) 10000 * v),
   out (ey - coef14 (2 * kb * (10000 - kb)) (10000 * kg) * u - coef14 (2 * kr * (10000 - kr)) (10000 * kg) * v),
   out (ey + coef14 (2 * (10000 - kb)) 10000 * u))

/-- A full-range component V / 1,023 in 16 bits. -/
def fullRange (v : Nat) : Nat := clampTo 65535 (divHalfUp (65535 * (v : Int)) 1023)

/-- Rows of the BT.709 to BT.2020 matrix of BT.2087 and of its inverse, in ten-thousandths (PRESUMED: the recommendations' figures, log 28). -/
def primaries (toWide : Bool) : List (List Int) :=
  if toWide then [[6274, 3293, 433], [691, 9195, 114], [164, 880, 8956]]
  else [[16605, -5876, -728], [-1246, 11329, -83], [-182, -1006, 11187]]

/-- Steps 5 to 7 of R187: linear light in the output's primaries and level. -/
def toLinear (src out : Nat) (rgb : Nat × Nat × Nat) : Nat × Nat × Nat :=
  let r := linearise src rgb.1
  let g := linearise src rgb.2.1
  let b := linearise src rgb.2.2
  let (r, g, b) :=
    if (src = 0) = (out = 0) then (r, g, b)
    else
      let m := primaries (src = 0)
      let row (i : Nat) : Nat := match m.getD i [] with
        | [x, y, z] => clampTo 65535 (divHalfUp (coef14 x 10000 * (r : Int) + coef14 y 10000 * (g : Int) + coef14 z 10000 * (b : Int)) 16384)
        | _ => 0
      (row 0, row 1, row 2)
  let level (x : Nat) : Nat :=
    if src ≤ 1 ∧ 2 ≤ out then clampTo 65535 (divHalfUp ((x * 13304 : Nat) : Int) 65536)
    else if 2 ≤ src ∧ out ≤ 1 then clampTo 65535 (divHalfUp ((x * 322837 : Nat) : Int) 65536)
    else x
  (level r, level g, level b)

/-- Steps 1 to 3 of R191: a linear value as narrow-range Y, Cb, Cr. -/
def fromLinear (out : Nat) (d : Nat × Nat × Nat) : Nat × Nat × Nat :=
  let r : Int := delinearise out d.1
  let g : Int := delinearise out d.2.1
  let b : Int := delinearise out d.2.2
  let kr : Int := krOf out
  let kb : Int := kbOf out
  let kg : Int := kgOf out
  let q (scale base : Nat) (x : Int) : Nat :=
    let v := divHalfUp ((scale : Int) * x + (base : Int) * (65535 * 16384)) (65535 * 16384)
    if v < 4 then 4 else min 1019 v.toNat
  (q 876 64 (coef14 kr 10000 * r + coef14 kg 10000 * g + coef14 kb 10000 * b),
   q 896 512 (coef14 (-kr) (2 * (10000 - kbOf out)) * r + coef14 (-kg) (2 * (10000 - kbOf out)) * g + 8192 * b),
   q 896 512 (8192 * r + coef14 (-kg) (2 * (10000 - krOf out)) * g + coef14 (-kb) (2 * (10000 - krOf out)) * b))

/-- π in units of 2⁻¹²⁸. -/
def piFix : Nat := 1069028584064966747859680373161870783300

/-- sin(π r) for r from 0 to 1/2 by its power series. -/
def sinSeries : Nat → Nat → Nat → Int → Int → Int
  | 0, _, _, _, acc => acc
  | n + 1, j, x2, term, acc =>
    let next := -(term * (x2 : Int) / (fixOne : Int)) / (((2 * j) * (2 * j + 1) : Nat) : Int)
    sinSeries n (j + 1) x2 next (acc + next)

/-- sin(π t) for t ≥ 0. -/
def sinPi (t : Nat) : Int :=
  let r := t % (2 * fixOne)
  let (neg, r) := if fixOne ≤ r then (true, r - fixOne) else (false, r)
  let r := if fixOne < 2 * r then fixOne - r else r
  let x := piFix * r / fixOne
  let v := sinSeries 24 1 (x * x / fixOne) (x : Int) (x : Int)
  if neg then -v else v

/-- The Lanczos kernel with parameter a at distance x ≥ 0 (R193). -/
def lanczos (a x : Nat) : Int :=
  if x = 0 then (fixOne : Int)
  else if a * fixOne ≤ x then 0
  else
    let px : Int := ((piFix * x / fixOne : Nat) : Int)
    (a : Int) * sinPi x * sinPi (x / a) * (fixOne : Int) / (px * px)

/-- Weights of n taps at phase φ / 64 for a ratio num / den, before rounding. -/
def tapWeights (n a phase num den : Nat) : List Int :=
  (List.range n).map (fun t =>
    let d := ((64 * (t : Int) - 64 * ((n / 2 - 1 : Nat) : Int) - (phase : Int)).natAbs) * fixOne / 64
    lanczos a (if den < num then d * den / num else d))

/-- The coefficients of one phase in units of 1/1,024: scaled to sum to one, rounded, and the tap nearest the centre takes the rest (R193, log 28). -/
def tapCoefs (n a phase num den : Nat) : List Int :=
  let w := tapWeights n a phase num den
  let total := w.foldl (· + ·) 0
  let c := w.map (fun x => (2 * 1024 * x + total) / (2 * total))
  let centre := if phase ≤ 32 then n / 2 - 1 else n / 2
  c.mapIdx (fun i x => if i = centre then x + (1024 - c.foldl (· + ·) 0) else x)

/-- Centre of output sample j at ratio num / den: whole source position and phase (R193). -/
def tapCentre (j num den : Nat) : Int × Nat :=
  let p : Int := ((64 * (2 * (j : Int) + 1) * (num : Int) - 64 * (den : Int)) + (den : Int)) / (2 * (den : Int))
  (p / 64, (p % 64).toNat)

end Sys2Proof.Machine
end

