-- ==== Sys2Proof/Machine/Pixels.lean ====
section
/-! DEFINITION. Samples of layer sources, Reef blocks, scaling, chroma, blending, direct groups and the stale mark (R182, R185 to R193, R202, R208). -/

namespace Sys2Proof.Machine

/-- A source picture as the compositor reads it: size, chroma format (0 4:2:0, 1 4:2:2, 2 4:4:4), RGB with alpha, colour code, and its samples in 10 bits by plane, row and column. -/
structure Raster where
  width : Nat
  height : Nat
  chroma : Nat
  rgba : Bool
  colour : Nat
  get : Nat → Nat → Nat → Nat

/-- Bits b to b + n − 1 of a little-endian bit string that starts at byte offset a (R186). -/
def bitRun (m : List Host.Cell) (a b n : Nat) : Nat :=
  ofLe (Memory.bytes m (a + b / 8) ((b % 8 + n + 7) / 8)) / 2 ^ (b % 8) % 2 ^ n

/-- Planes of a Reef block: rows and samples per row of each (R186). -/
def reefPlanes (f : Nat) : List (Nat × Nat) :=
  if f = 8 then [(8, 16), (8, 8), (8, 8)] else if f = 9 then [(8, 16), (8, 16), (8, 16)] else [(8, 16), (8, 16), (8, 16), (8, 16)]

/-- One predicted row (R186): the samples, and the bit after the row. `first` predicts its first sample. -/
def reefRow (m : List Host.Cell) (a bit n first : Nat) : Option (List Nat × Nat) :=
  let w := bitRun m a bit 4
  if 11 < w then none
  else
    let r := (List.range n).foldl (fun (acc : List Nat × Int) i =>
      let d : Int := if w = 0 then 0 else signedOf (bitRun m a (bit + 4 + i * w) w) w
      let v := acc.2 + d
      (acc.1 ++ [(v % 1024).toNat], v)) ([], (first : Int))
    some (r.1, bit + 4 + n * w)

/-- The rows of a predicted plane, from bit `bit` (R186). -/
def reefPlane (m : List Host.Cell) (a n : Nat) : Nat → Nat → Nat → List (List Nat) → Option (List (List Nat) × Nat)
  | 0, bit, _, acc => some (acc, bit)
  | k + 1, bit, first, acc =>
    match reefRow m a bit n first with
    | none => none
    | some (row, bit') => reefPlane m a n k bit' (row.headD 0) (acc ++ [row])

/-- A Reef block of a buffer decoded: its planes, or none where it counts as poisoned (R185, R186). -/
def reefBlock (x : Surface) (b j : Nat) : Option (List (List (List Nat))) :=
  let m := bufferMem x b
  let h := ofLe (Memory.bytes m (8 * j) 8)
  let kind := bitsOf h 2 0
  let slots := bitsOf h 4 3
  let planes := reefPlanes x.format
  let data := reefHeader x.width x.height + 768 * j
  if bitsOf h 7 5 ≠ 0 ∨ bitsOf h 63 48 ≠ 0 ∨ (planes.length < 4 ∧ bitsOf h 47 38 ≠ 0) then none
  else if kind = 0 then
    if slots ≠ 0 then none
    else some (planes.mapIdx (fun i p => List.replicate p.1 (List.replicate p.2 (bitsOf h (17 + 10 * i) (8 + 10 * i)))))
  else if slots = 0 then none
  else if kind = 1 then
    let total := sumBy (fun p => p.1 * p.2) planes
    if slots * 2048 < 10 * total then none
    else some ((planes.foldl (fun (acc : List (List (List Nat)) × Nat) p =>
      (acc.1 ++ [(List.range p.1).map (fun r => (List.range p.2).map (fun c => bitRun m data (acc.2 + 10 * (r * p.2 + c)) 10))], acc.2 + 10 * p.1 * p.2)) ([], 0)).1)
  else if kind = 2 then
    let r := planes.foldl (fun (acc : Option (List (List (List Nat)) × Nat)) p =>
      acc.bind (fun (done, bit) => (reefPlane m data p.2 p.1 bit 512 []).map (fun q => (done ++ [q.1], q.2)))) (some ([], 0))
    r.bind (fun q => if slots * 2048 < q.2 then none else some q.1)
  else none

/-- A 10-bit sample of a linear surface buffer by plane, row and column (R182, Table 6.3). -/
def linearSample (x : Surface) (b plane row col : Nat) : Nat :=
  let m := bufferMem x b
  let pitch := linePitch x.format x.width
  if x.format = 2 then
    let v := (Memory.read m (row * pitch + 4 * col + plane)).toNat
    v * 4 + v / 64
  else if x.format = 3 then Memory.unit m (row * pitch + 8 * col + 2 * plane) % 1024
  else if x.format = 1 then Memory.unit m (plane * pitch * x.height + row * pitch + 2 * col) % 1024
  else if plane = 0 then Memory.unit m (row * pitch + 2 * col) % 1024
  else Memory.unit m (pitch * x.height + row * pitch + 4 * col + 2 * (plane - 1)) % 1024

/-- A sample of a Reef buffer; a poisoned block reads 0 here and makes its lines poisoned (R186, R248). -/
def reefSample (x : Surface) (b plane row col : Nat) : Nat :=
  let bw := if x.format = 8 ∧ 0 < plane then 8 else 16
  match reefBlock x b (row / 8 * (x.width / 16) + col / bw) with
  | none => 0
  | some ps => ((ps.getD plane []).getD (row % 8) []).getD (col % bw) 0

/-- A surface buffer as a source. -/
def surfaceRaster (x : Surface) (b : Nat) : Raster :=
  { width := x.width, height := x.height, chroma := formatChroma x.format, rgba := hasAlpha x.format, colour := x.colour,
    get := if isReef x.format then reefSample x b else linearSample x b }

/-- Luma rows a to b − 1 of a source rectangle of a surface buffer are read poisoned: an atom of theirs is, or a Reef block is (R186, R247). -/
def surfaceRowPoisoned (x : Surface) (b row sx sw : Nat) : Bool :=
  if isReef x.format then
    (List.range (ceilDiv (sx + sw) 16 - sx / 16)).any (fun i =>
      let j := row / 8 * (x.width / 16) + sx / 16 + i
      (reefBlock x b j).isNone || rangePoisoned x b (8 * j) 8 || rangePoisoned x b (reefHeader x.width x.height + 768 * j) 768)
  else
    let pitch := linePitch x.format x.width
    let u := unitBytes x.format
    if hasAlpha x.format then rangePoisoned x b (row * pitch + 4 * u * sx) (4 * u * sw)
    else if x.format = 1 then (List.range 3).any (fun p => rangePoisoned x b (p * pitch * x.height + row * pitch + 2 * sx) (2 * sw))
    else rangePoisoned x b (row * pitch + 2 * sx) (2 * sw) ||
      rangePoisoned x b (pitch * x.height + (if x.format = 4 then row / 2 else row) * pitch + 2 * sx) (2 * sw)

/-- A sample of a received picture by plane, row and column, in 10 bits (R304 to R306); 4:2:0 chroma comes with the even rows. A sample never received reads 0. -/
def segSample (segs : List RowSeg) (chroma : Nat) (plane row col : Nat) : Nat :=
  let line := if plane ≠ 0 ∧ chroma = 0 then 2 * row else row
  let off (g : RowSeg) : Nat := if plane = 0 ∨ chroma = 2 then g.offset else g.offset / 2
  let vals (g : RowSeg) : List Nat := if plane = 0 then g.y else if plane = 1 then g.cb else g.cr
  match segs.find? (fun g => decide (g.row = line) && decide (off g ≤ col) && decide (col < off g + (vals g).length)) with
  | some g => (vals g).getD (col - off g) 0
  | none => 0

/-- A decoded picture as a source; 8-bit samples are widened by R182's rule. -/
def planesRaster (w h chroma colour : Nat) (p : Planes) : Raster :=
  { width := w, height := h, chroma := chroma, rgba := false, colour := colour,
    get := fun plane row col => ((if plane = 0 then p.y else if plane = 1 then p.cb else p.cr).getD row []).getD col 0 }

/-- A raster's sample with its coordinates held inside a rectangle: samples beyond the edge replicate it (R193). -/
def edged (x0 y0 w h : Nat) (g : Nat → Nat → Nat) (row col : Int) : Nat :=
  let c (base size : Nat) (v : Int) : Nat := base + (if v < 0 then 0 else min (size - 1) v.toNat)
  g (c y0 h row) (c x0 w col)

/-- One plane of a layer through its scaler: output sample at row v, column u (R193). -/
def scaledSample (x0 y0 sw sh dw dh : Nat) (g : Nat → Nat → Nat) (v u : Nat) : Nat :=
  if sw = dw ∧ sh = dh then g (y0 + v) (x0 + u)
  else
    let (ci, cp) := tapCentre u sw dw
    let (ri, rp) := tapCentre v sh dh
    let hc := tapCoefs 8 4 cp sw dw
    let vc := tapCoefs 6 3 rp sh dh
    let line (row : Int) : Nat :=
      clampTo 4095 ((sumInt ((List.range 8).map (fun t => hc.getD t 0 * (edged x0 y0 sw sh g row (ci + (t : Int) - 3) : Int))) + 128) / 256)
    clampTo 1023 ((sumInt ((List.range 6).map (fun t => vc.getD t 0 * (line (ri + (t : Int) - 2) : Int))) + 2048) / 4096)

/-- Source luma rows, relative to the source rectangle, that output row v of a layer reads (R193). -/
def tapRows (sh dh v : Nat) (scaled : Bool) : List Nat :=
  if !scaled then [v]
  else
    let (ri, _) := tapCentre v sh dh
    ((List.range 6).map (fun t => let r : Int := ri + (t : Int) - 2; if r < 0 then 0 else min (sh - 1) r.toNat)).eraseDups

/-- Chroma subsampling of a format: horizontal and vertical divisors. -/
def subX (chroma : Nat) : Nat := if chroma = 2 then 1 else 2
def subY (chroma : Nat) : Nat := if chroma = 0 then 2 else 1

/-- A layer ready to draw: its parameters, its source as each output line reads it (none: nothing is shown there, R181, R248), and its state. -/
structure Drawn where
  number : Nat
  layer : Layer
  src : Nat → Option Raster
  stale : Bool
  bars : Nat

/-- A layer is scaled (R178). -/
def isScaled (l : Layer) : Bool := l.sw != l.dw || l.sh != l.dh

/-- Sample of plane p of a layer after step 2 of R187, at row v and column u of that plane in the destination. -/
def nativeSample (l : Layer) (r : Raster) (p v u : Nat) : Nat :=
  let dx := if p = 0 ∨ p = 3 ∨ r.rgba then 1 else subX r.chroma
  let dy := if p = 0 ∨ p = 3 ∨ r.rgba then 1 else subY r.chroma
  scaledSample (l.sx / dx) (l.sy / dy) (ceilDiv l.sw dx) (ceilDiv l.sh dy) (ceilDiv l.dw dx) (ceilDiv l.dh dy) (r.get p) v u

/-- Chroma plane p of a layer upsampled to 4:4:4 at luma position v, u (R187 step 3): across first, then down. -/
def chromaSample (l : Layer) (r : Raster) (p v u : Nat) : Nat :=
  let cw := ceilDiv l.dw (subX r.chroma)
  let ch := ceilDiv l.dh (subY r.chroma)
  let across (row : Nat) : Nat :=
    if r.chroma = 2 then nativeSample l r p row u
    else
      let a := nativeSample l r p row (u / 2)
      if u % 2 = 0 then a else (a + nativeSample l r p row (min (cw - 1) (u / 2 + 1)) + 1) / 2
  if r.chroma ≠ 0 then across v
  else
    let other := if v % 2 = 0 then v / 2 - 1 else min (ch - 1) (v / 2 + 1)
    (across (v / 2) + across other + 1) / 2

/-- Linear components of a layer at luma position v, u of its destination (R187 steps 1 to 7). -/
def layerLinear (out : Nat) (l : Layer) (r : Raster) (v u : Nat) : Nat × Nat × Nat :=
  toLinear r.colour out
    (if r.rgba then (fullRange (nativeSample l r 0 v u), fullRange (nativeSample l r 1 v u), fullRange (nativeSample l r 2 v u))
     else toRgb r.colour (nativeSample l r 0 v u) (chromaSample l r 1 v u) (chromaSample l r 2 v u))

/-- Pixel alpha in 12 bits: 4,095 for opaque layers and sources without alpha (R187 step 1, R189). -/
def pixelAlpha (l : Layer) (r : Raster) (v u : Nat) : Nat :=
  if l.alphaMode = 0 ∨ !r.rgba then 4095 else let a := nativeSample l r 3 v u; a * 4 + a / 256

/-- One component blended onto the accumulator (R189). -/
def blend (mode ap al s d : Nat) : Nat :=
  let ae := (ap * al + 2047) / 4095
  if mode = 2 then min 65535 ((s * al + d * (4095 - ae) + 2047) / 4095) else (s * ae + d * (4095 - ae) + 2047) / 4095

/-- The layer covers output luma sample (x, y). -/
def covers (l : Layer) (x y : Nat) : Bool := decide (l.dx ≤ x) && decide (x < l.dx + l.dw) && decide (l.dy ≤ y) && decide (y < l.dy + l.dh)

/-- The linear value of output sample (x, y): every layer that shows something and covers it, from layer 0 upward, on the background (R189). -/
def blended (o : OutCfg) (ls : List Drawn) (x y : Nat) : Nat × Nat × Nat :=
  ls.foldl (fun d e => match e.src y with
    | some r =>
      if covers e.layer x y then
        let c := layerLinear o.colour e.layer r (y - e.layer.dy) (x - e.layer.dx)
        let ap := pixelAlpha e.layer r (y - e.layer.dy) (x - e.layer.dx)
        let f := blend e.layer.alphaMode ap e.layer.alpha
        (f c.1 d.1, f c.2.1 d.2.1, f c.2.2 d.2.2)
      else d
    | none => d) (toLinear o.colour o.colour (toRgb o.colour o.bgY o.bgCb o.bgCr))

/-- The layer shows something at output sample (x, y). -/
def shows (e : Drawn) (x y : Nat) : Bool := (e.src y).isSome && covers e.layer x y

/-- Samples of the group at (gx, gy) of the output's chroma groups (R190). -/
def groupSamples (o : OutCfg) (gx gy : Nat) : List (Nat × Nat) :=
  (List.range (subY o.chroma)).flatMap (fun j => (List.range (subX o.chroma)).map (fun i => (subX o.chroma * gx + i, subY o.chroma * gy + j)))

/-- The topmost layer that covers a sample of the group (R190). -/
def topmost (o : OutCfg) (ls : List Drawn) (gx gy : Nat) : Option Drawn :=
  (ls.filter (fun e => (groupSamples o gx gy).any (fun p => shows e p.1 p.2))).getLast?

/-- The layer whose samples a direct group takes, with its source on line y of the group, or none for the linear path (R190). -/
def directLayer (o : OutCfg) (ls : List Drawn) (gx gy y : Nat) : Option (Layer × Raster) :=
  match topmost o ls gx gy with
  | some e => match e.src y with
    | some r =>
      if (groupSamples o gx gy).all (fun p => shows e p.1 p.2)
          && e.layer.alphaMode == 0 && e.layer.alpha == 4095 && !r.rgba && r.chroma == o.chroma && r.colour == o.colour then some (e.layer, r) else none
    | none => none
  | none => none

/-- Inside the Lighthouse rectangle. -/
def inRect (q : Option (Nat × Nat × Nat × Nat)) (x y : Nat) : Bool :=
  match q with | some (a, b, w, h) => decide (a ≤ x) && decide (x < a + w) && decide (b ≤ y) && decide (y < b + h) | none => false

/-- Mark colour (R208). -/
def markColour (colour : Nat) : Nat × Nat × Nat := if colour = 0 then (877, 64, 553) else (888, 64, 548)

/-- The stale mark's colour at a luma sample, by the last stale layer that marks it; none where there is no mark (R208). -/
def markAt (o : OutCfg) (ls : List Drawn) (lh : Option (Nat × Nat × Nat × Nat)) (x y : Nat) : Option (Nat × Nat × Nat) :=
  ls.foldl (fun m e =>
    if e.stale && covers e.layer x y && !(e.number != 63 && inRect lh x y) then
      if x < e.layer.dx + 128 ∧ y < e.layer.dy + 16 then
        some (if (x - e.layer.dx) / 16 < e.bars then markColour o.colour else (64, 512, 512))
      else if (x + y) % 32 < 8 then some (markColour o.colour) else m
    else m) none

/-- Linear-path Y, Cb, Cr at full chroma resolution (R191 steps 1 to 3). -/
def linearYcc (o : OutCfg) (ls : List Drawn) (x y : Nat) : Nat × Nat × Nat := fromLinear o.colour (blended o ls x y)

/-- Linear-path chroma of a group: component sel at group (gx, gy) (R191 step 4). -/
def linearChroma (o : OutCfg) (ls : List Drawn) (sel : Nat × Nat × Nat → Nat) (gx gy : Nat) : Nat :=
  let at' (x y : Nat) : Nat := sel (linearYcc o ls x y)
  let half (y : Nat) : Nat :=
    let x := 2 * gx
    (at' (x - 1) y + 2 * at' x y + at' (min (o.width - 1) (x + 1)) y + 2) / 4
  if o.chroma = 2 then at' gx gy
  else if o.chroma = 1 then half gy
  else (half (2 * gy) + half (2 * gy + 1) + 1) / 2

/-- The final samples of output line y (R190 to R192, R208): Y, and Cb and Cr where the line carries chroma. -/
def composeLine (o : OutCfg) (ls : List Drawn) (lh : Option (Nat × Nat × Nat × Nat)) (y : Nat) : List Nat × List Nat × List Nat :=
  let luma := (List.range o.width).map (fun x =>
    match markAt o ls lh x y with
    | some c => c.1
    | none =>
      match directLayer o ls (x / subX o.chroma) (y / subY o.chroma) y with
      | some (l, r) => nativeSample l r 0 (y - l.dy) (x - l.dx)
      | none => (linearYcc o ls x y).1)
  let chroma (p : Nat) (sel : Nat × Nat × Nat → Nat) : List Nat :=
    if y % subY o.chroma ≠ 0 then []
    else (List.range (o.width / subX o.chroma)).map (fun gx =>
      match markAt o ls lh (subX o.chroma * gx) y with
      | some c => sel c
      | none =>
        match directLayer o ls gx (y / subY o.chroma) y with
        | some (l, r) => nativeSample l r p ((y - l.dy) / subY o.chroma) ((subX o.chroma * gx - l.dx) / subX o.chroma)
        | none => linearChroma o ls sel gx (y / subY o.chroma))
  (luma, chroma 1 (fun c => c.2.1), chroma 2 (fun c => c.2.2))

end Sys2Proof.Machine
end

