-- ==== Sys2Proof/Machine/RateCtl.lean ====
section
/-! DEFINITION. The row controller: which counts it may read (R20), the picture budget (R152 to R154), the plan of a row (R155, R156), lossless estimates (R164). -/

namespace Sys2Proof.Machine

/-- Pictures before n, newest first. -/
def earlierPics (r : Run) (n : Nat) : List Pic := ((r.pics.filter (fun e => decide (e.1 < n))).map (fun e => e.2)).reverse

/-- Row i of picture p may be read when row r of picture n starts: rows count on across pictures, with a lag of two (R20). -/
def lagOk (rows n r p i : Nat) : Bool := decide (p * rows + i + 2 ≤ n * rows + r)

/-- Actual counts (non-lossless, lossless) of row i of picture q, where the lag lets them be read. -/
def readable (k : Ctl) (n r : Nat) (q : Pic) (i : Nat) : Option (Nat × Nat) :=
  if lagOk k.g.rows n r q.number i then (q.rows.get? i).bind (fun x => x.actual) else none

/-- Every count that row r of picture n reads is available (R20). -/
def countsReady (k : Ctl) (n r : Nat) : Bool :=
  (k.run.pics.filter (fun e => decide (e.1 ≤ n))).all (fun e =>
    (List.range k.g.rows).all (fun i => !(lagOk k.g.rows n r e.1 i) || ((e.2.rows.get? i).bind (fun x => x.actual)).isSome))

/-- Actual bits and bins of the co-located lossless CTU in the latest earlier picture that has one, its status unchanged since (R164). -/
def llHistory (k : Ctl) (n r c : Nat) : List Pic → Option (Nat × Nat)
  | [] => none
  | q :: rest =>
    if !isLossless k.g.ctu q.lossless r c then none
    else match (if lagOk k.g.rows n 0 q.number r then q.llActual.get? (r * 65536 + c) else none) with
      | some v => some v
      | none => llHistory k n r c rest

/-- ll_est(n, r) and ll_bins_est(n, r) (R164). -/
def llEstimate (k : Ctl) (rc : RcCfg) (rects : List Rect) (n r : Nat) : Nat × Nat :=
  let cols := (List.range k.g.cRow).filter (isLossless k.g.ctu rects r)
  let w := llBits rc k.prof
  let es := cols.map (fun c => (llHistory k n r c (earlierPics k.run n)).getD (w, w))
  (sumBy (fun e => e.1) es, sumBy (fun e => e.2) es)

/-- ll_reserve(n) (R164). -/
def llReserveOf (k : Ctl) (rc : RcCfg) (rects : List Rect) (n : Nat) : Nat := sumBy (fun r => (llEstimate k rc rects n r).1) (List.range k.g.rows)

/-- Bits of picture n − 1 with the Isle estimate in place of its last row's count (R153): its NAL units up to its last group of slices, in that group the rows by their counts, and `tail`, the bits of that group's NAL units that no row counts. -/
def estimatedBits (k : Ctl) (q : Pic) (groups : List SliceGeom) (tail : Nat) : Nat :=
  let lastGroup := (groups.getLast?.map (fun x => x.group)).getD 0
  q.bitsBeforeLast + tail + sumBy (fun i => match q.rows.get? i with
      | some x => if i + 1 = k.g.rows then x.estNl + x.llEst else (match x.actual with | some (a, l) => a + l | none => 0)
      | none => 0) ((List.range k.g.rows).filter (fun i => decide (lastGroup ≤ i)))

/-- V and U after a picture whose size is `bits` and filler `f` (R152). -/
def bucketAfter (c : ChanCfg) (rc : RcCfg) (n : Nat) (v u : Int) (bits f : Nat) : Int × Int :=
  let v' := max 0 (v + (bits : Int) + (f : Int) - (drainOf c rc.rateMax n : Int))
  let cap : Int := (rc.cpbSize : Int)
  let u' := if rc.mode = 1 then clampInt (u + (bits : Int) - (drainOf c rc.rateTgt n : Int)) (-cap) cap else u
  (v', u')

/-- Filler of a picture: in CBR only (R151, R152). -/
def pictureFiller (c : ChanCfg) (rc : RcCfg) (n : Nat) (v : Int) (bits : Nat) : Nat × Bool :=
  if rc.mode = 0 then fillerOf rc v bits (drainOf c rc.rateMax n) else (0, false)

/-- V̂(n) and Û(n) (R153). -/
def estimatedBucket (k : Ctl) (rc : RcCfg) (n tail : Nat) : Int × Int :=
  if n = 0 then ((vTargetBits rc : Int), 0)
  else match k.run.pics.get? (n - 1) with
    | none => (k.run.v, k.run.u)
    | some q =>
      let orc := q.coding.rc.getD rc
      let (v, u) := if k.run.vPic = n then (k.run.vPrev, k.run.uPrev) else (k.run.v, k.run.u)
      let bits := estimatedBits k q (slicesOf k.prof k.g q.lossless) tail
      bucketAfter k.cfg orc (n - 1) v u bits (pictureFiller k.cfg orc (n - 1) v bits).1

/-- Hierarchy levels of the middle pictures between two coded display positions, in the order of their decoding (R125). -/
def dyadicLevels : Nat → Nat → Nat → Nat → List Nat
  | 0, _, _, _ => []
  | fuel + 1, lo, hi, d => if hi ≤ lo + 1 then [] else d :: (dyadicLevels fuel lo ((lo + hi) / 2) (d + 1) ++ dyadicLevels fuel ((lo + hi) / 2) hi (d + 1))

/-- Hierarchy level of the i-th picture of a mini-GOP of length n in decoding order: the anchor is at level 0. -/
def gopLevel (n i : Nat) : Nat := (0 :: dyadicLevels n 0 n 1).getD i 0

/-- Complexity c of the i-th picture of the current mini-GOP (R154, R170): from lookahead analysis, or under shedding step 1 that of the latest coded picture of its level (R169); 1 where there is none (log 167). -/
def gopComplexity (k : Ctl) (n : Nat) (lookahead : Bool) (i : Nat) : Nat :=
  if lookahead then k.run.gopCosts.getD i 0
  else match (earlierPics k.run n).find? (fun q => q.level == gopLevel k.run.gopLen i) with
    | some q => q.cost
    | none => 1

/-- c_sum (R170): over the mini-GOP, at least 1. -/
def gopComplexitySum (k : Ctl) (n : Nat) (lookahead : Bool) : Nat := max 1 (sumBy (gopComplexity k n lookahead) (List.range k.run.gopLen))

/-- picture_budget(n) (R154): b_pic, and whether it lies below need. `w` is the picture's weight in halves. -/
def pictureBudget (k : Ctl) (rc : RcCfg) (gop : EncGop) (n w : Nat) (v u : Int) (c cSum : Nat) (need : Nat) : Int × Bool :=
  let rate := if rc.mode = 1 then rc.rateTgt else rc.rateMax
  let d := sumBy (drainOf k.cfg rate) ((List.range k.run.gopLen).map (k.run.gopStart + ·))
  let plain := if gop.structure' = 2 then d * c / max cSum 1 else drainOf k.cfg rate n
  let nominal : Int := ((plain * w / 2 : Nat) : Int)
  let cap : Int := (rc.cpbSize : Int) - v - (rc.rowCap : Int)
  let b := if rc.mode = 0 then nominal - divDown (v - (vTargetBits rc : Int)) (reactK rc)
    else if rc.mode = 1 then min (nominal - divDown u (reactK rc)) cap
    else cap
  let b := min b cap
  (max b (need : Int), decide (b < (need : Int)))

/-- Weight of a picture in halves (R154, R168). -/
def pictureWeight (rc : RcCfg) (irap inRefresh : Bool) (kRef : Nat) : Nat :=
  if irap then 2 + rc.keyBoost else if inRefresh then 2 + ceilDiv rc.keyBoost (max kRef 1) else 2

/-- w(i) of R155 for picture n at the start of row r. -/
def rowWeight (k : Ctl) (q : Pic) (r i frow : Nat) : Nat :=
  match (earlierPics k.run q.number).findSome? (fun p => if isKeyPic p == isKeyPic q then readable k q.number r p i else none) with
  | some (nl, _) => max nl frow
  | none => frow

/-- row_qp (R156). -/
def rowQp (k : Ctl) (rc : RcCfg) (q : Pic) (r : Nat) (bRow : Int) : Int :=
  let p := (earlierPics k.run q.number).findSome? (fun p =>
    if isKeyPic p == isKeyPic q then
      match readable k q.number r p r, p.rows.get? r with
      | some (nl, _), some x => if 0 < x.counted then some (meanUp x.qpSum x.counted, nl) else none
      | _, _ => none
    else none)
  let q0 : Int := match p with
    | none => ((if rc.mode = 2 then rc.cqQp else rc.qpInit : Nat) : Int)
    | some (m, nl) => (m : Int) + roundDiv (6 * ((lg nl : Int) - (lg bRow.toNat : Int))) 256
  let q1 := if rc.mode = 2 then max q0 (rc.cqQp : Int) else q0
  clampInt q1 (rc.qpMin : Int) (((if q.dual then rc.qpMax - q.coding.spec.deltaQp else rc.qpMax : Nat)) : Int)

/-- Non-lossless bits of row i < r that the plan of row r counts: actual up to r − 2, the estimate of r − 1; and the lossless deviation, once known (R155). -/
def spentOf (q : Pic) (r i : Nat) : Int :=
  match q.rows.get? i with
  | none => 0
  | some x =>
    if i + 2 ≤ r then
      match x.actual with
      | some (nl, ll) => (nl : Int) + ((ll : Int) - (x.llEst : Int))
      | none => (x.estNl : Int)
    else (x.estNl : Int)

/-- row_plan(n, r) (R155). -/
def rowPlan (k : Ctl) (rc : RcCfg) (q : Pic) (r : Nat) : Row :=
  let f := floorRow k.g rc q.lossless
  let spent := (List.range r).foldl (fun a i => a + spentOf q r i) 0
  let later := (List.range k.g.rows).filter (fun i => decide (r < i))
  let a : Int := q.bNl - spent - (sumBy f later : Int)
  let (le', be') := llEstimate k rc q.lossless q.number r
  let base : Row := { a := a, llEst := le', llBinsEst := be' }
  if a ≤ 0 then { base with mode := .copy, cut := true }
  else if a ≤ (f r : Int) then { base with mode := .floor, bRow := a, qRow := (rc.qpMax : Int) }
  else
    let w := fun i => rowWeight k q r i (f i)
    let sum := w r + sumBy w later
    let bRow : Int := (f r : Int) + divDown ((a - (f r : Int)) * (w r : Int)) (max sum 1)
    { base with mode := .normal, bRow := bRow, qRow := rowQp k rc q r bRow }

/-- Quantiser offset of a CTU: that of the lowest-numbered offset region that covers it (R162). -/
def regionOffset (c : Coding) (ctu r col : Nat) : Int :=
  match c.regions.find? (fun e => e.2.kind == 1 && overlaps ctu r col (e.2.x, e.2.y, e.2.w, e.2.h)) with
  | some e => e.2.qpOffset
  | none => 0

end Sys2Proof.Machine
end

