-- ==== Sys2Proof/Machine/Source.lean ====
section
/-! DEFINITION. The source samples an Isle codes: received and composed lines in the channel's format, lines of the hold picture for lost ones, the input-loss policy (R104, R105, R121, R192, R233, R306). -/

namespace Sys2Proof.Machine

/-- Pictures of a live source: a KIND 0 flow, or an SDI receive lane. -/
def srcPics (s : State) (sdi : Bool) (n : Nat) : List LivePic := if sdi then (laneAt s n).pics else (flowInAt s n).elim [] (fun f => f.pics)

/-- The received picture of an uncomposed channel's source with a number. -/
def inputPic (s : State) (c : ChanCfg) (m : Nat) : Option LivePic := (srcPics s (c.srcKind == 1) c.srcIndex).find? (fun p => p.number == m)

/-- Chroma format of an uncomposed channel's source. -/
def inputForm (s : State) (c : ChanCfg) : Nat := if c.srcKind = 1 then 1 else (flowInAt s c.srcIndex).elim 1 (fun f => samplingChroma f.cfg.sampling)

/-- Line y of output picture m of the output a composed channel takes, as the COMPOSE ring received it (R192). -/
def outputLine (s : State) (o m y : Nat) : Option (List Nat × List Nat × List Nat) :=
  (outAt s o).bind (fun x => match x.pics.get? m with
    | some q => q.lines.get? y
    | none => (x.done.get? m).bind (fun q => q.lines.get? y))

/-- A chroma plane of one format read as another across a line: filtered and subsampled (R191 step 4), or interpolated (R187 step 3). `w` is its width in the source format. -/
def acrossSample (src dst w : Nat) (line : Nat → Nat) (col : Nat) : Nat :=
  if subX src = subX dst then line col
  else if subX src = 1 then (line (2 * col - 1) + 2 * line (2 * col) + line (min (w - 1) (2 * col + 1)) + 2) / 4
  else if col % 2 = 0 then line (col / 2) else (line (col / 2) + line (min (w - 1) (col / 2 + 1)) + 1) / 2

/-- A sample of a source picture in another chroma format (R306): across first, then down. `w`, `h` are its luma size. -/
def formatSample (src dst w h : Nat) (get : Nat → Nat → Nat → Nat) (plane row col : Nat) : Nat :=
  if plane = 0 then get 0 row col
  else
    let across := fun r => acrossSample src dst (w / subX src) (get plane r) col
    if subY src = subY dst then across row
    else if subY src = 1 then (across (2 * row) + across (2 * row + 1) + 1) / 2
    else
      let other := if row % 2 = 0 then row / 2 - 1 else min (h / 2 - 1) (row / 2 + 1)
      (across (row / 2) + across other + 1) / 2

/-- A sample of the reconstruction of a picture, widened to 10 bits. -/
def reconSample (k : Ctl) (q : Pic) (plane row col : Nat) : Nat :=
  let c := k.prof.chroma
  let w := if plane = 0 then k.g.ctu else k.g.ctu / subX c
  let h := if plane = 0 then k.g.ctu else k.g.ctu / subY c
  match q.recon.get? (row / h * 65536 + col / w) with
  | some r =>
    let v := ((if plane = 0 then r.samples.y else if plane = 1 then r.samples.cb else r.samples.cr).getD (row % h) []).getD (col % w) 0
    if bitDepth k.prof = 8 then v * 4 else v
  | none => 0

/-- A sample of the hold picture (R233); free where there is none yet. -/
def holdSample (k : Ctl) (plane row col : Nat) : Nat :=
  match k.run.hold.bind k.run.pics.get? with
  | some q => reconSample k q plane row col
  | none => Config.noHold plane row col % 1024

/-- The input loss that a picture carries from a CTU row on: that row and the policy (R104, R105). -/
def lossOf (q : Pic) : Option (Nat × Nat) :=
  (q.loss.find? (fun l => l.2.2.1 == 1)).map (fun l => (if l.1 = q.number then l.2.1 else 0, l.2.2.2))

/-- Luma line y of a picture lies in the rows that an input-loss policy fills. -/
def lineUnderPolicy (k : Ctl) (q : Pic) (y : Nat) : Bool := (lossOf q).elim false (fun l => decide (l.1 * k.g.ctu ≤ y))

/-- Luma line y of a picture was lost and is replaced from the hold picture (R104). -/
def lineReplaced (x : Chan) (q : Pic) (y : Nat) : Bool := q.source.elim false (fun m => (x.input.replaced.getD m []).contains y)

/-- Line y of a picture is decided: under a policy, replaced, or there whole; an Isle waits for each line of its row. -/
def lineSettled (s : State) (x : Chan) (k : Ctl) (q : Pic) (y : Nat) : Bool :=
  lineUnderPolicy k q y || lineReplaced x q y || (match q.source with
    | none => true
    | some m =>
      if k.cfg.srcKind = 2 then (outputLine s k.cfg.srcIndex m y).isSome
      else (inputPic s k.cfg m).elim true (fun p => !p.formatError && !(p.bad.contains y) && p.done.has y))

/-- A sample of the source picture as received or composed, in the channel's chroma format. -/
def ringSample (s : State) (k : Ctl) (m plane row col : Nat) : Nat :=
  if k.cfg.srcKind = 2 then
    let chroma := (outAt s k.cfg.srcIndex).elim 1 (fun o => o.cfg.chroma)
    let get := fun (p r c : Nat) =>
      let v := (outputLine s k.cfg.srcIndex m (if p = 0 then r else r * subY chroma)).getD ([], [], [])
      (if p = 0 then v.1 else if p = 1 then v.2.1 else v.2.2).getD c 0
    formatSample chroma k.prof.chroma k.cfg.width k.cfg.height get plane row col
  else
    let chroma := inputForm s k.cfg
    formatSample chroma k.prof.chroma k.cfg.width k.cfg.height (segSample ((inputPic s k.cfg m).elim [] (fun p => p.segs)) chroma) plane row col

/-- A 10-bit source sample of a picture, by plane, row and column of the plane (R104, R105): of its source; of the hold picture for replaced lines, and under freeze and stale; Y 64, Cb and Cr 512 under black. -/
def sourceSample (s : State) (x : Chan) (k : Ctl) (q : Pic) (plane row col : Nat) : Nat :=
  let y := if plane = 0 then row else row * subY k.prof.chroma
  if lineUnderPolicy k q y then
    if (lossOf q).elim 0 (fun l => l.2) = 2 then (if plane = 0 then 64 else 512) else holdSample k plane row col
  else if lineReplaced x q y then holdSample k plane row col
  else q.source.elim 0 (fun m => ringSample s k m plane row col)

/-- A source sample as the codec takes it: HEVC Main rounds to 8 bits (R121). -/
def codedSample (p : EncProfile) (v : Nat) : Nat := if bitDepth p = 8 then min 255 ((v + 2) / 4) else v

/-- The source samples of the CTU at row r, column c, cut at the picture's edges: what a lossless CTU reconstructs (R124). -/
def sourceCtu (s : State) (x : Chan) (k : Ctl) (q : Pic) (r c : Nat) : Planes :=
  let plane := fun (p dx dy : Nat) =>
    let w := k.g.ctu / dx
    let h := k.g.ctu / dy
    (List.range (min h (k.cfg.height / dy - r * h))).map (fun i => (List.range (min w (k.cfg.width / dx - c * w))).map (fun j =>
      codedSample k.prof (sourceSample s x k q p (r * h + i) (c * w + j))))
  let cx := subX k.prof.chroma
  let cy := subY k.prof.chroma
  { y := plane 0 1 1, cb := plane 1 cx cy, cr := plane 2 cx cy }

end Sys2Proof.Machine
end

