-- ==== Sys2Proof/Machine/NetRx.lean ====
section
/-! DEFINITION. Reception: Ethernet frames, the ST 2022-7 merge, pictures of live sources, SDI lines, line verdicts and input repair (R85, R104 to R106, R217, R300 to R307, R311, R312, R354, R379, R398). -/

namespace Sys2Proof.Machine

/-- Channels, outputs, decoders and flows run: the clocks that stop them are not lost (Table 16.2). -/
def flowClocks (s : State) : Bool := !clockLost s .fab && !clockLost s .hbm && !clockLost s .qdr

/-- The instant nearest to `near` that a 32-bit RTP timestamp names under a media clock (ST 2110-10; R85, R217, R379). -/
def mediaTick (ts rate : Nat) (near : Instant) : Nat :=
  let n := near * rate / (1000000000 * nsUnit)
  let d := signedOf ((ts + 2 ^ 32 - n % 2 ^ 32) % 2 ^ 32) 32
  ((n : Int) + d).toNat
def mediaInstant (ts rate : Nat) (near : Instant) : Instant := mediaTick ts rate near * 1000000000 * nsUnit / rate

/-- Change the pictures of a live source. -/
def modPics (sdi : Bool) (n : Nat) (g : List LivePic → List LivePic) (s : State) : State :=
  if sdi then modLane s n (fun x => { x with pics := g x.pics }) else modFlowIn s n (fun x => { x with pics := g x.pics })

/-- Channels that take a live source as their own and are not IDLE (R306). -/
def srcChans (s : State) (sdi : Bool) (n : Nat) : List Nat :=
  (s.chans.filter (fun e => e.2.st != .idle && e.2.cfg.elim false (fun c => c.srcKind == (if sdi then 1 else 0) && c.srcIndex == n))).map (fun e => e.1)

/-- T_ref of a source picture for a channel (R85): by its arrival, or with REF_MODE 1 by its RTP timestamp. -/
def chanTref (c : ChanCfg) (p : LivePic) : Instant := if c.refMode = 1 then mediaInstant p.ts 90000 p.tref else p.tref

/-- The picture of its source that a channel judges, if it has begun. -/
def judgedPic (s : State) (c : ChanCfg) (k : Nat) : Option LivePic := (srcPics s (c.srcKind == 1) c.srcIndex).find? (fun p => p.number == k)

/-- A source picture gives a channel its reference instant (R85); under loss it only restarts the judging of lines. In lockstep the holder's value is used (R391). -/
def pushTref (n : Nat) (p : LivePic) (s : State) : State :=
  match chanAt s n with
  | none => s
  | some x => match x.cfg with
    | none => s
    | some c =>
      let t := chanTref c p
      let s := if isStandby s && inLockstep s then s
        else if x.input.status ≠ 0 then s
        else
          let s := modChan s n (fun x => { x with input.pending := x.input.pending ++ [(t, some p.number)] })
          if x.run.nextPic = 0 ∧ !(startsAt x t) then s else sendInput (.tref n false (x.run.nextPic + (dropEarly x).input.pending.length) t) s
      match x.input.judging with
      | some (_, _, _, true) => s
      | some (_, _, _, false) => modChan s n (fun x => { x with input.judging := some (p.number, t, 0, true), input.broken := false })
      | none => if decide (0 < x.run.nextPic) || startsAt x t then modChan s n (fun x => { x with input.judging := some (p.number, t, 0, true), input.broken := false }) else s

/-- Every consumer of a source hears of the reference instant of its newest picture. -/
def announcePic (sdi : Bool) (n : Nat) (p : LivePic) (s : State) : State := (srcChans s sdi n).foldl (fun s c => pushTref c p s) s

/-- Live pictures that no layer can select any longer are dropped: all but the newest 24, which cover the largest LAG (R179). -/
def keepPics (l : List LivePic) : List LivePic := l.take 24

/-- A new picture of a source: with a sample of line 0 its T_ref is the stamp; otherwise one period after the picture before it, until line 0 arrives (R85). -/
def newPic (number ts : Nat) (stamp : Instant) (first : Bool) (period : Rat) (old : List LivePic) : LivePic :=
  let guess := match old.head? with | some p => p.tref + (Rat.floor (nsQ period)).toNat | none => stamp
  { number := number, tref := if first then stamp else guess, ts := ts, trefSet := first }

/-- Add a packet's samples to a picture (R304): a line is whole once all its luma samples are in. -/
def addSegs (width : Nat) (stamp : Instant) (segs : List RowSeg) (p : LivePic) : LivePic :=
  segs.foldl (fun p g =>
    let n := p.got.getD g.row 0 + g.y.length
    { p with segs := p.segs ++ [g], got := p.got.set g.row n, done := if width ≤ n ∧ !(p.done.has g.row) then p.done.set g.row stamp else p.done }) p

/-- Samples of an 8-bit source are widened (R306). -/
def widen (ten : Bool) (g : RowSeg) : RowSeg :=
  if ten then g else { g with y := g.y.map (fun v => v * 4 + v / 64), cb := g.cb.map (fun v => v * 4 + v / 64), cr := g.cr.map (fun v => v * 4 + v / 64) }

/-- An accepted packet of a KIND 0 flow (R304 to R306). -/
def videoPacket (n : Nat) (f : FlowIn) (ts : Nat) (segs : List RowSeg) (stamp : Instant) (s : State) : State :=
  let c := f.cfg
  let bad := segs.any (fun g => decide (c.height ≤ g.row) || decide (c.width < g.offset + g.y.length) || g.secondField)
  let known := f.pics.any (fun p => p.ts == ts)
  let first := !bad && segs.any (fun g => g.row == 0)
  let s :=
    if known then s
    else
      let clear := f.formatMismatch && (f.pics.head?).elim false (fun p => !p.dropped)
      let p := newPic f.nextPic ts stamp first (periodNs c.rateNum c.rateDen) f.pics
      let s := modFlowIn s n (fun x => { x with pics := keepPics (p :: x.pics), nextPic := x.nextPic + 1, formatMismatch := x.formatMismatch && !clear })
      if first then announcePic false n p s else s
  let s :=
    if known && first then
      match (srcPics s false n).find? (fun p => p.ts == ts && !p.trefSet) with
      | some p =>
        let p' := { p with tref := stamp, trefSet := true }
        announcePic false n p' (modPics false n (fun l => l.map (fun q => if q.number = p.number then p' else q)) s)
      | none => s
    else s
  if bad then
    let s := modPics false n (fun l => l.map (fun p => if p.ts = ts then { p with dropped := true } else p)) s
    modFlowIn s n (fun x => { x with formatErrors := inc32 x.formatErrors, formatRun := x.formatRun + 1, formatMismatch := x.formatMismatch || decide (64 ≤ x.formatRun + 1) })
  else
    modPics false n (fun l => l.map (fun p => if p.ts = ts then addSegs c.width stamp (segs.map (widen c.depth10)) p else p))
      (modFlowIn s n (fun x => { x with formatRun := 0 }))

/-- Decoders that take flow n (R307). -/
def flowDecs (s : State) (n : Nat) : List Nat := (s.decs.filter (fun e => e.2.srcKind == 0 && e.2.srcIndex == n)).map (fun e => e.1)

/-- A merged payload, handed over in sequence order, reaches decoder d (R217, R218, R222, R307): an RTP timestamp that changes ends an access unit whose marker was lost; `lost` packets are missing before it. -/
def decPayload (d : Nat) (rtp : Bool) (p : HeldPkt) (lost : Nat) (s : State) : State :=
  match decAt s d with
  | none => s
  | some x =>
    let media := fun (ts : Nat) (stamp : Instant) => if x.presMode = 1 then some (mediaInstant ts 90000 stamp) else none
    let gap : List (Option (List Byte)) := if 0 < lost then [none] else []
    let s := match x.part with
      | some a => if rtp && a.ts != p.ts then closeAu d (media a.ts a.last) none (joinAu d a.last a.ts gap s) else s
      | none => s
    let (cuts, cc) := if rtp then (0, x.cc) else tsGaps x.cc (tsSplit p.data)
    let gap := if 0 < cuts then [none] else gap
    let s := joinAu d p.stamp p.ts (gap ++ [some p.data]) (modDec s d (fun y => { y with cc := cc, pktLost := (y.pktLost + lost) % 2 ^ 32 }))
    if p.ends then closeAu d (media p.ts p.stamp) none s else s

/-- A payload reaches every decoder of flow n (R307). -/
def decPackets (n : Nat) (rtp : Bool) (p : HeldPkt) (lost : Nat) (s : State) : State := (flowDecs s n).foldl (fun s d => decPayload d rtp p lost s) s

/-- The merged packets that can be handed over in sequence order: each number before them has come or is lost (R303, R307). With them the packets missing before each. -/
def inOrder : List HeldPkt → Nat → Nat → List (HeldPkt × Nat)
  | [], _, _ => []
  | p :: r, next, settled => if p.seq ≤ max next settled then (p, p.seq - next) :: inOrder r (p.seq + 1) settled else []

/-- Packets of a compressed flow go on to the decoders in sequence-number order (R307). -/
def handOver (n : Nat) (s : State) : State :=
  match flowInAt s n with
  | none => s
  | some f =>
    let l := sortOn (fun p => p.seq) f.held
    let next := f.handed.getD (l.head?.elim 0 (fun p => p.seq))
    let out := inOrder l next (f.settled.getD 0)
    let after := (out.getLast?).elim next (fun e => e.1.seq + 1)
    let s := modFlowIn s n (fun f => { f with held := l.drop out.length, handed := if f.handed.isNone && out.isEmpty then none else some after })
    out.foldl (fun s e => decPackets n (f.cfg.kind == 1) e.1 e.2 s) s

/-- A merged packet waits for its turn; one whose turn has passed is dropped. -/
def holdPacket (n : Nat) (p : HeldPkt) (s : State) : State :=
  modFlowIn s n (fun f => if f.handed.elim false (fun m => decide (p.seq < m)) then f else { f with held := f.held ++ [p] })

/-- An accepted packet of a KIND 3 flow (R379): its samples land on bus samples, or it is discarded whole. -/
def audioPacket (n : Nat) (f : FlowIn) (ts : Nat) (samples : List (List Int)) (stamp : Instant) (s : State) : State :=
  let rate := if s.audio.fs96 then 96000 else 48000
  let i := mediaTick ts rate stamp + s.audio.busLat * rate / 1000000
  let at' := i * 1000000000 * nsUnit / rate
  if at' < stamp + nsInstant 20000 ∨ stamp + nsInstant (s.audio.busLat * 1000 + 1000000) < at' then modFlowIn s n (fun x => { x with pktLost := inc32 x.pktLost })
  else
    let len := (samples.head?).elim 0 List.length
    modFlowIn s n (fun x => { x with play := (List.range len).foldl (fun m j =>
      m.set (i + j) (samples.map (fun ch => let v := ch.getD j 0; if f.cfg.audio.2.1 = 0 then v * 256 else v))) x.play })

/-- An accepted packet of a KIND 4 flow is handed to every relaying output flow, to leave at its stamp plus the current delay of DELAY_CHAN (R307, R310, Table 12.2). -/
def relayPacket (n ts : Nat) (len : Nat) (stamp : Instant) (s : State) : State :=
  (s.net.flowsOut.filter (fun e => e.2.cfg.kind == 5 && e.2.cfg.srcIndex == n && !e.2.removed)).foldl (fun s e =>
    let d := (chanAt s e.2.cfg.delayChan).elim 0 (fun x => x.run.delayCur)
    (addGroup e.1 ((stamp : Rat) + d) [rtpFrame e.2.cfg len] 0 0 0 false { ts := some (((ts : Int) + clockTicks 90000 d) % 2 ^ 32).toNat } s).1) s

/-- Sequence number of a merged packet and whether it is a 16-bit one (R303). -/
def seqOf : RxPayload → Option (Nat × Bool)
  | .video q _ _ => some (q, false)
  | .rtp q _ _ _ => some (q, true)
  | .audio q _ _ => some (q, true)
  | .ancillary q _ _ => some (q, true)
  | _ => none

/-- The payload is what the flow's KIND carries (Table 11.5). -/
def kindFits (kind : Nat) : RxPayload → Bool
  | .video _ _ _ => kind == 0
  | .rtp _ _ _ _ => kind == 1 || kind == 2
  | .transport _ _ => kind == 2
  | .audio _ _ _ => kind == 3
  | .ancillary _ _ _ => kind == 4
  | _ => false

/-- Extend a 16-bit sequence number to the value nearest to the newest one (R303). -/
def extendSeq (newest : Option Nat) (q : Nat) (short : Bool) : Nat :=
  match newest with
  | none => q + 2 ^ 32
  | some m =>
    let w := if short then 16 else 32
    ((m : Int) + signedOf ((q + 2 ^ w - m % 2 ^ w) % 2 ^ w) w).toNat

/-- Numbers whose WINDOW has passed are settled (R303): those not received are lost; those of a dual flow that came on one path only are missing on the other. -/
def settleSeq (t : Instant) (f : FlowIn) : FlowIn :=
  let w := nsInstant (f.cfg.window * 1000000)
  let old := f.seen.filter (fun e => decide (e.stamp + w < t))
  if old.isEmpty then f
  else
    let top := old.foldl (fun m e => max m e.seq) 0
    let from' := f.settled.getD (f.seen.foldl (fun m e => min m e.seq) top)
    let have' := (f.seen.filter (fun e => decide (from' ≤ e.seq) && decide (e.seq ≤ top))).length
    let lost := top + 1 - from' - have'
    let oneA := (old.filter (fun e => !e.both && !e.pathB)).length
    let oneB := (old.filter (fun e => !e.both && e.pathB)).length
    { f with seen := f.seen.filter (fun e => decide (t ≤ e.stamp + w)), settled := some (max from' (top + 1)), pktLost := (f.pktLost + lost) % 2 ^ 32,
             lostA := if f.cfg.dual then (f.lostA + oneB) % 2 ^ 32 else f.lostA, lostB := if f.cfg.dual then (f.lostB + oneA) % 2 ^ 32 else f.lostB }

/-- What the merge decides of a packet (R303): accepted or not, and the flow afterwards. -/
def mergePacket (pathB : Bool) (q : Nat) (short : Bool) (t : Instant) (f0 : FlowIn) : Bool × FlowIn :=
  let f := settleSeq t f0
  let e := extendSeq f.newest q short
  match f.seen.find? (fun x => x.seq == e) with
  | some x =>
    let skew : Int := if pathB then (t : Int) - (x.stamp : Int) else (x.stamp : Int) - (t : Int)
    (false, { f with seen := f.seen.map (fun y => if y.seq = e ∧ x.pathB != pathB then { y with both := true } else y),
                     skewNs := if x.pathB = pathB then f.skewNs else Int.tdiv skew (nsUnit : Int) })
  | none =>
    if f.settled.elim false (fun m => decide (e < m)) then (false, { f with latePkts := inc32 f.latePkts })
    else (true, { f with seen := { seq := e, stamp := t, pathB := pathB } :: f.seen, newest := some (max (f.newest.getD 0) e), pkts := inc32 f.pkts })

/-- A packet goes to the flow's consumers (R304 to R307, R379). `q`: its extended sequence number. -/
def deliver (n q : Nat) (t : Instant) (x : RxPayload) (s : State) : State :=
  match flowInAt s n with
  | none => s
  | some f => match x with
    | .video _ ts segs => videoPacket n f ts segs t s
    | .rtp _ ts m b => holdPacket n { seq := q, stamp := t, ts := ts, ends := m, data := b } s
    | .transport e b => decPackets n false { seq := 0, stamp := t, ts := 0, ends := e, data := b } 0 s
    | .audio _ ts v => audioPacket n f ts v t s
    | .ancillary _ ts d => relayPacket n ts d.length t s
    | _ => s

/-- A frame that matches input flow n on path A or B (R301 to R304). -/
def flowPacket (n : Nat) (pathB : Bool) (fr : RxFrame) (s : State) : State :=
  match flowInAt s n with
  | none => s
  | some f =>
    let t := fr.stamp
    let f := if pathB then { f with lastB := some t } else { f with lastA := some t }
    if !(kindFits f.cfg.kind fr.payload) then
      modFlowIn s n (fun _ => if f.cfg.kind = 0 then { f with formatErrors := inc32 f.formatErrors, formatRun := f.formatRun + 1, formatMismatch := f.formatMismatch || decide (64 ≤ f.formatRun + 1) } else f)
    else match seqOf fr.payload with
      | none => deliver n 0 t fr.payload (modFlowIn s n (fun _ => { f with pkts := inc32 f.pkts }))
      | some (q, short) =>
        let (ok, f') := mergePacket pathB q short t f
        let s := modFlowIn s n (fun _ => f')
        handOver n (if ok then deliver n ((f'.seen.head?).elim 0 (fun e => e.seq)) t fr.payload s else s)

/-- The input flow and path that a frame on port p matches (R302). -/
def matchFlow (s : State) (p : Nat) (fr : RxFrame) : Option (Nat × Bool) :=
  let hit := fun (port dest udp src : Nat) => port == p && fr.dst.toNat == dest && fr.udpDst.toNat == udp && (src == 0 || fr.src.toNat == src)
  s.net.flowsIn.findSome? (fun e =>
    let c := e.2.cfg
    if hit c.portA c.destA c.udpA c.srcA then some (e.1, false)
    else if c.dual && hit c.portB c.destB c.udpB c.srcB then some (e.1, true)
    else none)

/-- Firmware queues a frame on port p (R322). -/
def fwSend (p queue len : Nat) (s : State) : State := modPort s p (fun x => { x with fwQueue := x.fwQueue ++ [{ queue := queue, len := len }] })

/-- Multicast groups of the input flows on port p (R301). -/
def joinedGroups (s : State) (p : Nat) : List Nat :=
  (s.net.flowsIn.flatMap (fun e => (inPaths e.2.cfg).filterMap (fun x => if x.1 = p ∧ x.2.1 / 2 ^ 28 = 14 then some x.2.1 else none))).dedup

/-- An IGMPv3 report of the groups of port p: Ethernet 14, IPv4 with router alert 24, 8 bytes and 8 for each group (R301). -/
def igmpReport (p : Nat) (s : State) : State :=
  let g := (joinedGroups s p).length
  if g = 0 then s else fwSend p 2 (max 60 (46 + 8 * g)) s

/-- A PTP frame is forwarded by the transparent clock (R354). -/
def forwardPtp (p : Nat) (m : PtpMsg) (fr : RxFrame) (s : State) : State :=
  let tc := s.time.ptp.cfg.tcPorts
  if !(tc.getLsbD p) || !m.multicast || m.msgType == 2 || m.msgType == 3 || m.msgType == 10 then s
  else
    (List.range 16).foldl (fun s q =>
      if q ≠ p ∧ tc.getLsbD q ∧ (portAt s q).cfg.speed ≠ 0 then modPort s q (fun x => { x with fwQueue := x.fwQueue ++ [{ queue := 0, len := fr.bytes - 4, ingress := some fr.stamp, ptp := some m }] }) else s) s

/-- RX_DISCARD of port p (R301). -/
def rxDiscard (p : Nat) (s : State) : State := modPort s p (fun x => { x with rxDiscard := inc32 x.rxDiscard })

/-- ETHERNET_FRAME_RX (R299 to R301): port p receives a frame. -/
def frameRx (p : Nat) (fr : RxFrame) (s : State) : State :=
  let x := portAt s p
  if x.cfg.speed = 0 || x.down || !flowClocks s then s
  else
    let s := modPort s p (fun x => { x with fecCorr := (x.fecCorr + fr.fecCorr) % 2 ^ 32, fecUncorr := (x.fecUncorr + fr.fecUncorr) % 2 ^ 32 })
    let s := if fr.fcsOk then modPort s p (fun x => { x with rxFrames := inc32 x.rxFrames }) else s
    if !fr.fcsOk || decide (fr.bytes < 64) || decide (x.cfg.maxFrame < fr.bytes) then modPort s p (fun x => { x with rxBad := inc32 x.rxBad })
    else if fr.pause || fr.fragment || fr.ipOptions || decide (1 < fr.vlanTags) then rxDiscard p s
    else match fr.payload with
      | .ptp m => if fr.ipv4Udp then forwardPtp p m fr s else rxDiscard p s
      | .arp request =>
        if fr.dst.toNat = x.cfg.ip then
          let s := { s with net.resolved := if s.net.resolved.contains (p * 2 ^ 32 + fr.src.toNat) then s.net.resolved else s.net.resolved ++ [p * 2 ^ 32 + fr.src.toNat] }
          if request then fwSend p 2 60 s else s
        else s
      | .icmpEcho => if fr.dst.toNat = x.cfg.ip then fwSend p 2 (fr.bytes - 4) s else s
      | .igmp => igmpReport p s
      | _ =>
        if !fr.ipv4Udp then rxDiscard p s
        else match matchFlow s p fr with
          | some (n, b) => flowPacket n b fr s
          | none => rxDiscard p s

/-- The line period of the channels that take lane l as their source, in ns (R312): a link of quad-link 12G-SDI carries two raster lines. -/
def sdiPeriods (s : State) (l : Nat) : List Rat :=
  (srcChans s true l).filterMap (fun c => (chanAt s c).bind (fun x => x.cfg.map (fun g =>
    (if 3840 * 2160 * 60 * max g.rateDen 1 < g.width * g.height * g.rateNum then 2 else 1) * (periodNs g.rateNum g.rateDen / (g.totalLines : Rat)))))

/-- SDI_LINE_RX (R311, R312): lane l receives an active line. -/
def sdiLine (l : Nat) (x : SdiLine) (s : State) : State :=
  let a := laneAt s l
  if a.cfg.mode ≠ 2 ∨ a.fault ∨ !(flowClocks s) then s
  else
    let s := modLane s l (fun a => { a with detRate := x.rate, family1001 := x.family1001 })
    let a := laneAt s l
    let (w, _, num, den) := sdiRaster a
    let top := (a.pics.head?).bind (fun p => (p.done.getLast?).map (fun e => e.1))
    let fresh := a.pics.isEmpty || x.line == 0 || top.elim false (fun n => decide (x.line ≤ n))
    let s :=
      if fresh then
        let p := { newPic a.nextPic 0 x.stamp (x.line == 0) (periodNs num den) a.pics with formatError := !x.payloadIdOk }
        let s := modLane s l (fun a => { a with pics := keepPics (p :: a.pics), nextPic := a.nextPic + 1 })
        if x.line = 0 then announcePic true l p s else s
      else s
    let drift := (sdiPeriods s l).any (fun t => let d := (x.period : Rat) - nsQ t; decide (nsQ t * 5 / 1000 < d) || decide (d < -(nsQ t * 5 / 1000)))
    let lost := !x.crcOk || decide (2000 < x.skewNs) || drift
    let seg := { x.seg with row := x.line, offset := 0 }
    modPics true l (fun ps => match ps with
      | p :: r => (let q := { addSegs (min w seg.y.length) (x.stamp + x.period) [seg] p with formatError := p.formatError || !x.payloadIdOk }
                   if lost then { q with bad := q.bad ++ [x.line] } else q) :: r
      | [] => []) s

/-- Line l of a source picture has been received whole by instant t (R104, R304, R312). -/
def lineWhole (p : LivePic) (l : Nat) (t : Rat) : Bool :=
  !p.formatError && !(p.bad.contains l) && (match p.done.get? l with | some x => decide ((x : Rat) ≤ t) | none => false)

/-- The picture of a channel that a reference instant belongs to: the one started with it, or one that waits (R84, R85). -/
def picOfTref (x : Chan) (t : Instant) : Nat :=
  match x.run.pics.find? (fun e => e.2.tref == t) with
  | some e => e.1
  | none => x.run.nextPic + (x.input.pending.takeWhile (fun e => e.1 != t)).length

/-- The verdict that the holder sent for a line, on a standby in lockstep (R391). -/
def sentVerdict (s : State) (c line : Nat) : Option Nat :=
  s.pair.inputs.findSome? (fun e => match e with
    | .verdict c' v a n _ => if c' = c ∧ a ≤ line ∧ line < a + n then some v else none
    | _ => none)

/-- After its last line the judged picture gives way to the next one of the source, or to one that is expected a period later (R104, R106). -/
def nextJudged (c : Nat) (x : Chan) (g : ChanCfg) (period : Rat) (s : State) : State :=
  match x.input.judging with
  | none => s
  | some (k, t, _, real) =>
    let s := fillLost c s
    let s := if x.input.broken || !real then brokenPicture c s else wholePicture c s
    let n := if real then k + 1 else k
    let due := t + (Rat.floor (nsQ period)).toNat
    let j := match judgedPic s g n with
      | some p => if p.trefSet then (n, chanTref g p, 0, true) else (n, due, 0, false)
      | none => (n, due, 0, false)
    modChan s c (fun y => { y with input.judging := some j, input.broken := false })

/-- LINE_DEADLINE (R104, R105, R248, R391, R398): the next line of channel c is judged. -/
def judgeLine (c : Nat) (poisoned : Bool) (s : State) : State :=
  match chanAt s c with
  | none => s
  | some x0 => match x0.cfg, chanGeom s x0, x0.input.judging with
    | some g, some geo, some (k, t0, l, real0) =>
      -- a picture that has begun without its line 0 takes the expected instant
      let begun := if real0 then none else (judgedPic s g k).filter (fun p => !p.trefSet)
      let late : Rat := nsQ (((l + 4 : Nat) : Rat) * geo.tLine)
      if (s.time.local' : Rat) < (t0 : Rat) + late ∨ x0.st = .idle ∨ g.srcKind = 2 then s
      else
        let follow := isStandby s && inLockstep s
        match (if follow then sentVerdict s c l else some 0) with
        | none => s
        | some sent =>
          let s := match begun with
            | some p =>
              let p' := { p with tref := t0, trefSet := true }
              pushTref c p' (modPics (g.srcKind == 1) g.srcIndex (fun ps => ps.map (fun q => if q.number = k then p' else q)) s)
            | none => s
          let s := modChan s c (fun y => { y with input.judging := some (k, t0, l, real0 || begun.isSome) })
          let own := !poisoned && (judgedPic s g k).elim false (fun p => (real0 || begun.isSome) && lineWhole p l ((t0 : Rat) + late))
          let s := if poisoned then poisonRead 0 x0.owner.val 1 c l s else s
          let s := if follow && sent == 0 && !own then diverge s else s
          let lost := if follow then sent != 0 else !own
          let run := if lost then x0.input.lostRun + 1 else 0
          let n := picOfTref x0 t0
          let verdict := if !lost then 0 else if run ≤ 2 then 1 else 2
          let s := sendInput (.verdict c verdict l 1 n) s
          let s := { s with pair.inputs := s.pair.inputs.filter (fun e => match e with | .verdict c' _ a m _ => !(c' == c && decide (a + m ≤ l + 1)) | _ => true) }
          let s := modChan s c (fun y => { y with input.lostRun := run, input.broken := y.input.broken || lost })
          let s := if lost && decide (run ≤ 2) && x0.input.status == 0 then
              modChan s c (fun y => { y with counters.missingLines := inc32 y.counters.missingLines, input.replaced := y.input.replaced.set k (y.input.replaced.getD k [] ++ [l]) }) else s
          let s := if run = 3 then declareLoss c n ((l - 2) / max geo.ctu 1) s else s
          match chanAt s c with
          | none => s
          | some x =>
            if l + 1 < g.height then modChan s c (fun y => { y with input.judging := y.input.judging.map (fun j => (j.1, j.2.1, l + 1, j.2.2.2)) })
            else nextJudged c x g geo.period s
    | _, _, _ => s

/-- The line that a repair request names, for channel c (Table 15.4a). -/
def repairLineOf (g : ChanCfg) (p : LivePic) (l : Nat) : RepairLine :=
  { sdi := g.srcKind == 1, source := g.srcIndex, line := l, picture := if g.srcKind = 1 then instantNs p.tref else p.ts }

/-- REPAIR_DEADLINE (R398): T_ref + (l + 2) × T_line has passed and line l has not been received whole. -/
def repairDue (c l : Nat) (s : State) : State :=
  match chanAt s c with
  | none => s
  | some x => match x.cfg, chanGeom s x, x.input.judging with
    | some g, some geo, some (k, t, _, true) =>
      match judgedPic s g k with
      | none => s
      | some p =>
        let due : Rat := (t : Rat) + nsQ (((l + 2 : Nat) : Rat) * geo.tLine)
        let r := repairLineOf g p l
        if !(pairOn s) || g.srcKind == 2 || decide ((s.time.local' : Rat) < due) || decide (g.height ≤ l) || lineWhole p l due || s.pair.repairs.contains r then s
        else cwSend 7 (le 1 r.sdi.toNat ++ zeros 1 ++ le 2 r.source ++ le 2 l ++ zeros 2 ++ le 8 r.picture) { s with pair.repairs := s.pair.repairs ++ [r] }
    | _, _, _ => s

/-- The own picture that a repair frame names: by RTP timestamp, or for SDI by a T_ref within 1 µs (Table 15.4a). -/
def repairPic (s : State) (r : RepairLine) : Option LivePic :=
  (srcPics s r.sdi r.source).find? (fun p =>
    if r.sdi then decide (instantNs p.tref ≤ r.picture + 1000) && decide (r.picture ≤ instantNs p.tref + 1000) else p.ts % 2 ^ 32 == r.picture % 2 ^ 32)

/-- The samples of a line in order of offset: luma, Cb, Cr. -/
def lineSamples (p : LivePic) (l : Nat) : List Nat × List Nat × List Nat :=
  let gs := sortOn (fun g => g.offset) (p.segs.filter (fun g => g.row == l))
  (gs.flatMap (fun g => g.y), gs.flatMap (fun g => g.cb), gs.flatMap (fun g => g.cr))

/-- Order of samples in a line of a sampling: 0 luma, 1 Cb (R), 2 Cr (B) (ST 2110-20 pixel groups; 4:2:2 for SDI). -/
def groupOrder (sampling row : Nat) : List Nat :=
  if sampling = 0 then [1, 0, 2, 0] else if sampling = 2 then (if row % 2 = 0 then [0, 0, 1, 2] else [0]) else [1, 0, 2]

/-- Sampling and bits per sample of a live source as it is received. -/
def lineForm (s : State) (r : RepairLine) : Nat × Nat :=
  if r.sdi then (0, 10) else (flowInAt s r.source).elim (0, 10) (fun f => (f.cfg.sampling, if f.cfg.depth10 then 10 else 8))

/-- Number of a value in an order, per group. -/
def perGroup (order : List Nat) (k : Nat) : Nat := (order.filter (fun o => o == k)).length

/-- Samples of a line in the order they are sent, n groups. -/
def weave (order : List Nat) (n : Nat) (v : List Nat × List Nat × List Nat) : List Nat :=
  (List.range n).flatMap (fun i => (List.range order.length).map (fun j =>
    let k := order.getD j 0
    let at' := i * perGroup order k + perGroup (order.take j) k
    (if k = 0 then v.1 else if k = 1 then v.2.1 else v.2.2).getD at' 0))

/-- Words of a width as bytes: least significant bit first for SDI, most significant first for pixel groups (Table 15.4a). -/
def packWords (sdi : Bool) (w : Nat) (ws : List Nat) : List Byte :=
  let n := ceilDiv (w * ws.length) 8
  if sdi then le n (ws.foldr (fun x a => a * 2 ^ w + x % 2 ^ w) 0)
  else be n ((ws.foldl (fun a x => a * 2 ^ w + x % 2 ^ w) 0) * 2 ^ (8 * n - w * ws.length))
def unpackWords (sdi : Bool) (w : Nat) (b : List Byte) : List Nat :=
  let n := 8 * b.length / w
  let v := if sdi then ofLe b else ofLe b.reverse
  (List.range n).map (fun i => v >>> (if sdi then w * i else 8 * b.length - w * (i + 1)) % 2 ^ w)

/-- Bytes of a line as received, and the samples of such bytes. -/
def lineBytes (s : State) (r : RepairLine) (p : LivePic) : List Byte :=
  let (k, w) := lineForm s r
  let v := lineSamples p r.line
  let order := groupOrder k r.line
  let narrow := fun (l : List Nat) => if w = 8 then l.map (· / 4) else l
  packWords r.sdi w (weave order (v.1.length / perGroup order 0) (narrow v.1, narrow v.2.1, narrow v.2.2))
def lineOfBytes (s : State) (r : RepairLine) (b : List Byte) : RowSeg :=
  let (k, w) := lineForm s r
  let order := groupOrder k r.line
  let ws := unpackWords r.sdi w b
  let pick := fun (n : Nat) => (List.range ws.length).filterMap (fun i => if order.getD (i % order.length) 0 = n then ws[i]? else none)
  widen (w == 10) { row := r.line, offset := 0, y := pick 0, cb := pick 1, cr := pick 2 }

/-- REPAIR_REQ (R398): the partner asks for a line. -/
def answerRepair (r : RepairLine) (s : State) : State :=
  let head := fun (st : Nat) => le 1 r.sdi.toNat ++ le 1 st ++ le 2 r.source ++ le 2 r.line ++ zeros 2 ++ le 8 r.picture
  match (repairPic s r).filter (fun p => !p.formatError && !(p.bad.contains r.line) && p.done.has r.line) with
  | none => cwSend 8 (head 1 ++ zeros 8) s
  | some p =>
    let b := lineBytes s r p
    (List.range (max 1 (ceilDiv b.length 2024))).foldl (fun s i => cwSend 8 (head 0 ++ le 4 (2024 * i) ++ le 4 b.length ++ (b.drop (2024 * i)).take 2024) s) s

/-- REPAIR_DATA (R398): a part of a line arrives; the last part completes the line at this instant. -/
def takeRepair (r : RepairLine) (held : Bool) (offset total : Nat) (data : List Byte) (s : State) : State :=
  if !(s.pair.repairs.contains r) then s
  else
    let done := fun (s : State) => { s with pair.repairs := s.pair.repairs.filter (fun x => x != r), pair.repairParts := s.pair.repairParts.filter (fun x => x.1 != r) }
    if !held then done { s with pair.repairMisses := inc32 s.pair.repairMisses }
    else
      let got := ((s.pair.repairParts.find? (fun x => x.1 == r)).elim [] (fun x => x.2)).take offset ++ data
      if got.length < total then { s with pair.repairParts := s.pair.repairParts.filter (fun x => x.1 != r) ++ [(r, got)] }
      else
        match repairPic s r with
        | none => done s
        | some p =>
          let seg := lineOfBytes s r (got.take total)
          modPics r.sdi r.source (fun ps => ps.map (fun q =>
            if q.number = p.number then
              { q with done := q.done.set r.line s.time.local', bad := q.bad.filter (fun n => n != r.line), segs := q.segs.filter (fun g => g.row != r.line) ++ [seg] }
            else q)) (done { s with pair.repairedLines := inc32 s.pair.repairedLines })

/-- ETHERNET_FRAME_RX (R301). -/
def execEthernetFrameRx (dt : Nat) (p : Port) (fr : RxFrame) (s : State) : Host.Outcome State Fault Refusal := .next (actAfter dt s (frameRx p.val fr))
/-- SDI_LINE_RX (R312). -/
def execSdiLineRx (dt : Nat) (l : Lane) (x : SdiLine) (s : State) : Host.Outcome State Fault Refusal := .next (actAfter dt s (sdiLine l.val x))
/-- LINE_DEADLINE (R104). -/
def execLineDeadline (dt : Nat) (c : Fin 64) (poisoned : Bool) (s : State) : Host.Outcome State Fault Refusal := .next (actAfter dt s (judgeLine c.val poisoned))
/-- REPAIR_DEADLINE (R398). -/
def execRepairDeadline (dt : Nat) (c : Fin 64) (line : Nat) (s : State) : Host.Outcome State Fault Refusal := .next (actAfter dt s (repairDue c.val line))
/-- REPAIR_REQ (R398). -/
def execRepairReq (r : RepairLine) (s : State) : Host.Outcome State Fault Refusal := .next (act s fun s => if pairOn s then answerRepair r s else s)
/-- REPAIR_DATA (R398). -/
def execRepairData (dt : Nat) (r : RepairLine) (held : Bool) (offset total : Nat) (data : List Byte) (s : State) : Host.Outcome State Fault Refusal :=
  .next (actAfter dt s (takeRepair r held offset total data))

end Sys2Proof.Machine
end

