-- ==== Sys2Proof/Machine/Egress.lean ====
section
/-! DEFINITION. Egress scheduling: release of emission groups, the claim gate, time gates and the guard band, frame selection (R87, R248, R309, R322 to R326, R328, R331, R332, R334 to R336, R338, R339, R354). -/

namespace Sys2Proof.Machine

/-- Address that must be resolved before a copy's packets can be sent (R309): none for multicast; 0 where there is no way. -/
def nextHop (s : State) (c : FlowOutCfg) (b : Bool) : Option Nat :=
  let p := (portAt s (copyPort c b)).cfg
  let d := if b then c.destB else c.destA
  if d / 2 ^ 28 = 14 then none
  else if d &&& p.mask = p.ip &&& p.mask then some d
  else some p.gateway

/-- The destination of a copy is resolved (R309). -/
def resolved (s : State) (c : FlowOutCfg) (b : Bool) : Bool :=
  match nextHop s c b with
  | none => true
  | some d => d != 0 && s.net.resolved.contains (copyPort c b * 2 ^ 32 + d)

/-- Firmware asks for an address by ARP, once while its request waits (R309, R322). -/
def askArp (p : Nat) (s : State) : State :=
  if (portAt s p).fwQueue.any (fun f => f.queue == 2 && f.len == 60) then s else fwSend p 2 60 s

/-- Take group g out of a copy without sending it; its end is reported (R338, R339). -/
def discardGroup (w : Nat) (b : Bool) (g : Group) (s : State) : State :=
  reportGroup w b g.serial (modCopy w b (fun c => { c with groups := c.groups.filter (fun x => x.serial != g.serial) }) s)

/-- The closed claim gate holds a group: the last two of a copy; an older one is discarded and counted, and only the slice queue still has it (R336, R394). -/
def holdGroup (w : Nat) (b : Bool) (g : Group) (s : State) : State :=
  let s := modCopy w b (fun c => { c with groups := c.groups.filter (fun x => x.serial != g.serial), held := c.held ++ [{ g with released := true }] }) s
  match flowOutAt s w with
  | none => s
  | some x => match (copyAt x b).held with
    | a :: _ :: _ :: _ =>
      let s := modCopy w b (fun c => { c with held := c.held.drop 1, kept := if x.cfg.kind ≤ 2 then c.kept ++ [a] else c.kept }) s
      modFlowOut s w (fun x => { x with claimHeld := inc32 x.claimHeld })
    | _ => s

/-- A slice read poisoned from the slice queue is replaced by its substitute on every flow that carries it and has not begun it (R139, R248). -/
def poisonSlice (c : Nat) (q : SliceQ) (size : Nat) (s : State) : State :=
  let nals := q.nals.take q.sliceAt ++ [size] ++ q.nals.drop (q.sliceAt + 1)
  let owner := (chanAt s c).elim 0 (fun x => x.owner.val)
  let s := poisonRead 8 owner 1 c q.picture s
  let s := substitute c q.picture q.rowA s
  let s := modChan s c (fun x => { x with run.queue := x.run.queue.map (fun y =>
    if y.picture = q.picture ∧ y.slice = q.slice ∧ !y.marker then { y with nals := nals, substitute := true, check := 0 } else y) })
  let s := q.groups.foldl (fun s e => match flowOutAt s e.1 with
    | none => s
    | some x =>
      let change := fun (g : Group) => if g.serial = e.2 ∧ g.sent = 0 then { g with frames := groupFrames x.cfg nals q.extra, info.packets := if x.cfg.kind = 0 then [] else groupTs nals q.extra } else g
      (copiesOf x.cfg).foldl (fun s b => modCopy e.1 b (fun c => { c with groups := c.groups.map change, held := c.held.map change }) s) s) s
  if isHolder s then faultYield s else if isStandby s then diverge s else s

/-- The channel and slice-queue entry of a group. -/
def groupSlice (s : State) (x : FlowOut) (w serial : Nat) : Option (Nat × SliceQ) :=
  if 2 < x.cfg.kind then none
  else (chanAt s x.cfg.srcIndex).bind (fun c => (c.run.queue.find? (fun q => q.groups.contains (w, serial))).map (fun q => (x.cfg.srcIndex, q)))

/-- The bus sample with number i as recently kept (R363). -/
def keptSample (s : State) (b i : Nat) : Int := (((s.audio.samples.getD b []).find? (fun e => e.1 == i)).elim 0 (fun e => e.2))

/-- A released group shows the samples that it carries (R380, R381): L16 takes the upper 16 bits, without dither. -/
def emitAudio (w : Nat) (b : Bool) (g : Group) (s : State) : State :=
  match g.info.audio with
  | none => s
  | some a => emit s (.audio w b g.serial a.es (a.buses.map (fun n => (List.range a.count).map (fun j => let v := keptSample s n (a.first + j); if a.l16 then v / 256 else v))))

/-- EGRESS_RELEASE (R328, R334 to R339): the next group of a copy reaches its release instant. -/
def releaseGroup (w : Nat) (b : Bool) (poison : Option Nat) (s : State) : State :=
  match flowOutAt s w with
  | none => s
  | some x =>
    if x.cfg.kind = 6 ∨ (b ∧ !x.cfg.dual) ∨ !(flowClocks s) then s
    else match (copyAt x b).groups.find? (fun g => !g.released) with
      | none => s
      | some g0 =>
        if localQ s < g0.release then s
        else
          let s := match poison, groupSlice s x w g0.serial with
            | some n, some (c, q) => if q.substitute || q.marker then s else poisonSlice c q n s
            | _, _ => s
          match ((flowOutAt s w).bind (fun y => (copyAt y b).groups.find? (fun g => g.serial == g0.serial))) with
          | none => s
          | some g0 =>
            let p := copyPort x.cfg b
            let n := g0.frames.length
            let s := modCopy w b (numberGroup x.cfg.kind g0.serial) s
            let g := ((flowOutAt s w).bind (fun y => (copyAt y b).groups.find? (fun g => g.serial == g0.serial))).getD g0
            let s :=
              if (portAt s p).cfg.speed = 0 then countDisabled w n (discardGroup w b g s)
              else if (portAt s p).down then countDown w n (discardGroup w b g s)
              else if !(resolved s x.cfg b) then askArp p (modPort (discardGroup w b g s) p (fun y => { y with arpDrops := (y.arpDrops + n) % 2 ^ 32 }))
              else if pairOn s && !holdsClaim s then holdGroup w b g s
              else emitAudio w b g (modCopy w b (fun c => { c with groups := c.groups.map (fun y => if y.serial = g.serial then { y with released := true } else y) }) s)
            settleAllSlices (reapFlows s)

/-- Offset of instant t in a gate list's cycle, in 2⁻³² ns (R331). -/
def gateOffset (g : GateList) (t : Rat) : Rat :=
  let c := nsQ (max g.cycle 1 : Nat)
  let d := t - nsQ (g.base : Rat)
  d - (Rat.floor (d / c) : Rat) * c

/-- How long queue q's gate stays open from an offset on, in 2⁻³² ns; `fuel` bounds the entries looked at. -/
def openFrom (q : Nat) : List (Nat × Nat) → Rat → Rat
  | [], _ => 0
  | (m, t) :: r, o =>
    if nsQ (t : Rat) ≤ o then openFrom q r (o - nsQ (t : Rat))
    else if bitOf m q then nsQ (t : Rat) - o + openFrom q r 0
    else 0

/-- Queue q's gate is open from t through t + span under one list; none: all gates are open (R331, R332). -/
def openThrough (g : Option GateList) (q : Nat) (t span : Rat) : Bool :=
  match g with
  | none => true
  | some g => g.entries.all (fun e => bitOf e.1 q) || (decide (0 < openFrom q (g.entries ++ g.entries) (gateOffset g t)) && decide (span ≤ openFrom q (g.entries ++ g.entries) (gateOffset g t)))

/-- The guard band (R332): a frame of queue q that takes `span` may start now. A waiting list takes over at its first instant. -/
def gateAdmits (s : State) (x : PortSt) (q : Nat) (span : Rat) : Bool :=
  let t := localQ s
  match x.nextGates with
  | some (g, t2) =>
    if (t2 : Rat) ≤ t then openThrough g q t span
    else if t + span ≤ (t2 : Rat) then openThrough x.gates q t span
    else openThrough x.gates q t ((t2 : Rat) - t) && openThrough g q (t2 : Rat) (t + span - (t2 : Rat))
  | none => openThrough x.gates q t span

/-- A head that the scheduler of a port looks at (R323): queue, release, flow and copy, or none for a frame of the firmware, and its length without FCS. -/
structure Head where
  queue : Nat
  release : Rat
  flow : Option (Nat × Bool)
  len : Nat
  deriving DecidableEq, Repr

/-- The head group of a copy, if it is released. -/
def headGroup (c : FlowCopy) : Option Group := match c.groups with | g :: _ => if g.released then some g else none | [] => none

/-- Instant at which the next frame of a group is released (R328, R329). -/
def frameRelease (g : Group) : Rat := g.release + (g.sent : Rat) * g.spacing

/-- Heads of the copies on port p whose release has passed and whose bucket holds credit (R323, R325, R326); on a disabled port only groups in transmission (R338). -/
def flowHeads (s : State) (p : Nat) : List Head :=
  let x := portAt s p
  (s.net.flowsOut.flatMap (fun e => if e.2.cfg.kind = 6 then [] else ((copiesOf e.2.cfg).filter (fun b => copyPort e.2.cfg b == p)).map (fun b => (e.1, e.2, b)))).filterMap (fun e =>
    let c := copyAt e.2.1 e.2.2
    match headGroup c with
    | none => none
    | some g =>
      let len := g.frames.getD g.sent 0
      if g.sent < g.frames.length ∧ frameRelease g ≤ localQ s ∧ (x.cfg.speed ≠ 0 ∨ 0 < g.sent) ∧ (c.bucket.rate = 0 ∨ (len + x.overhead) * 4000000 ≤ creditNow s c.bucket) then
        some { queue := e.2.1.cfg.queue, release := frameRelease g, flow := some (e.1, e.2.2), len := len }
      else none)

/-- Frames of the firmware: the first of each queue (R322). -/
def fwHeads (s : State) (p : Nat) : List Head :=
  if (portAt s p).cfg.speed = 0 then []
  else (List.range 8).filterMap (fun q => ((portAt s p).fwQueue.find? (fun f => f.queue == q)).map (fun f => { queue := q, release := -1, flow := none, len := f.len }))

/-- Of the heads of one queue: the earliest release, the lower flow on a tie (R324). -/
def bestHead (l : List Head) : Option Head :=
  l.foldl (fun b h => match b with
    | none => some h
    | some k => if h.release < k.release then some h else b) none

/-- DWRR over queues 3 to 7 (R324): the frame to send, with the pointer, whether it has arrived, and the deficits afterwards. -/
def dwrr (x : PortSt) (best : Nat → Option Head) : Nat → Nat → Bool → FMap Nat → Option (Head × Nat × Bool × FMap Nat)
  | 0, _, _, _ => none
  | n + 1, q, arrived, d =>
    let next := if q = 7 then 3 else q + 1
    match best q with
    | none => dwrr x best n next false (d.set q 0)
    | some h =>
      let have' := d.getD q 0 + (if arrived then 0 else quantumOf (x.quantum.getD q 0))
      if h.len + x.overhead ≤ have' then some (h, q, true, d.set q (have' - (h.len + x.overhead)))
      else dwrr x best n next false (d.set q have')

/-- Count in GUARD_DEFERS the heads that the guard band holds back, each once (R332). -/
def countDefers (hs : List Head) (s : State) : State :=
  hs.foldl (fun s h => match h.flow with
    | none => s
    | some (w, b) =>
      match (flowOutAt s w).bind (fun x => headGroup (copyAt x b)) with
      | none => s
      | some g =>
        if g.deferred = some g.sent then s
        else
          let s := modCopy w b (fun c => { c with groups := c.groups.map (fun y => if y.serial = g.serial then { y with deferred := some g.sent } else y) }) s
          modFlowOut s w (fun x => { x with guardDefers := inc32 x.guardDefers })) s

/-- The frame on the wire of port p has ended; with it its group may have (R335, R340). -/
def endFrame (p : Nat) (s : State) : State :=
  match (portAt s p).sending with
  | none => s
  | some (w, b, serial) =>
    let s := modPort s p (fun x => { x with sending := none })
    match (flowOutAt s w).bind (fun x => (copyAt x b).groups.find? (fun g => g.serial == serial)) with
    | none => s
    | some g => if g.frames.length ≤ g.sent then settleAllSlices (reapFlows (discardGroup w b g s)) else s

/-- While the claim is not held, groups on port p that the gate has not passed are held (R335, R336). -/
def holdUnpassed (p : Nat) (s : State) : State :=
  if !(pairOn s) || holdsClaim s then s
  else
    (boundCopies s p).foldl (fun s e => match flowOutAt s e.1 with
      | none => s
      | some x => ((copyAt x e.2).groups.filter (fun g => g.released && !g.passed)).foldl (fun s g => holdGroup e.1 e.2 g s) s) s

/-- Ticks that a frame of n bytes without FCS occupies the wire: preamble, FCS and gap make 24 bytes (R325). -/
def wireTicks (s : State) (p n : Nat) : Nat :=
  let x := portAt s p
  ceilDiv (8 * (n + 24) * 1000) (2 * max (speedMbps (if x.cfg.speed = 0 then 1 else x.cfg.speed)) 1)

/-- A slice's first frame starts: it counts as late if its emission instant lies beyond E + 2 µs (R87). -/
def noteStart (w serial p : Nat) (s : State) : State :=
  match (flowOutAt s w).bind (fun x => groupSlice s x w serial) with
  | none => s
  | some (c, q) =>
    if q.begun then s
    else
      let late := q.firstOfRow && !q.waited && decide (q.due + nsQ 2000 < localQ s + nsQ (macLatency s p : Rat))
      modChan s c (fun x => { x with
        run.queue := x.run.queue.map (fun y => if y.groups.contains (w, serial) then { y with begun := true } else y),
        counters.lateSlices := if late then inc32 x.counters.lateSlices else x.counters.lateSlices })

/-- A frame of a flow copy starts (R323 to R326, R335). -/
def startFrame (p w : Nat) (b : Bool) (s : State) : State :=
  match (flowOutAt s w).bind (fun x => headGroup (copyAt x b)) with
  | none => s
  | some g =>
    let len := g.frames.getD g.sent 0
    let s := if g.sent = 0 then
        let s := noteStart w g.serial p s
        if g.release + nsQ 2000 < localQ s then modFlowOut s w (fun x => { x with lateGroups := inc32 x.lateGroups }) else s
      else s
    let cost := (len + (portAt s p).overhead) * 4000000
    let s := modCopy w b (fun c => { c with
      bucket := if c.bucket.rate = 0 then c.bucket else { c.bucket with credit := creditNow s c.bucket - cost, asOf := s.now },
      groups := c.groups.map (fun y => if y.serial = g.serial then { y with passed := true, sent := y.sent + 1 } else y) }) s
    let s := modFlowOut s w (fun x => { x with framesSent := inc32 x.framesSent })
    let s := modPort s p (fun x => { x with sending := some (w, b, g.serial), busyUntil := s.now + wireTicks s p len })
    let hdr := (flowOutAt s w).map (fun x => frameHdr s x.cfg b g g.sent)
    match hdr with
    | some h => emit s (.frame p w b g.serial len h)
    | none => s

/-- A PTP message as the transparent clock forwards it (R354): Sync and Delay_Req take the residence, in ns with 16 fraction bits, in their correctionField. -/
def forwarded (p : Nat) (residence : Int) (m : PtpMsg) : Out :=
  if m.msgType = 0 ∨ m.msgType = 1 then .ptpFrame p m.msgType (m.correction + residence / 65536) true else .ptpFrame p m.msgType m.correction false

/-- A frame of the firmware or of the transparent clock starts; one whose residence would exceed 1 ms is discarded (R322, R354). -/
def startFw (p q : Nat) (s : State) : State :=
  match (portAt s p).fwQueue.find? (fun f => f.queue == q) with
  | none => s
  | some f =>
    let s := modPort s p (fun x => { x with fwQueue := x.fwQueue.erase f })
    match f.ingress with
    | some t =>
      if t + nsInstant 1000000 < s.time.local' then { s with time.ptp.tcDiscards := inc32 s.time.ptp.tcDiscards }
      else
        let s := emit (modPort { s with time.ptp.tcForwarded := inc32 s.time.ptp.tcForwarded } p (fun x => { x with busyUntil := s.now + wireTicks s p f.len })) (.fwFrame p q f.len)
        f.ptp.elim s (fun m => emit s (forwarded p ((s.time.local' : Int) - (t : Int)) m))
    | none => emit (modPort s p (fun x => { x with busyUntil := s.now + wireTicks s p f.len })) (.fwFrame p q f.len)

/-- MAC_FRAME_SELECT (R322 to R326, R332): the MAC of port p can start a frame. With no eligible head in the DWRR group its pointer and deficits stay (DEDUCED, log 185). -/
def selectFrame (p : Nat) (s : State) : State :=
  if s.now < (portAt s p).busyUntil ∨ (portAt s p).down ∨ s.pair.txIdle ∨ !(flowClocks s) then s
  else
    let s := holdUnpassed p (endFrame p s)
    let x := portAt s p
    let all := fwHeads s p ++ flowHeads s p
    let admits := fun (h : Head) => gateAdmits s x h.queue (nsQ (txNs s p (h.len + 4)))
    let best := fun (q : Nat) => bestHead (all.filter (fun h => h.queue == q && admits h))
    let send := fun (h : Head) (s : State) => match h.flow with
      | some (w, b) => startFrame p w b s
      | none => startFw p h.queue s
    -- the heads the guard band holds back in the queues that are examined
    let chosen := [0, 1, 2].findSome? best
    let looked := fun (h : Head) => match chosen with | some k => decide (h.queue ≤ k.queue) | none => true
    let s := countDefers (all.filter (fun h => looked h && !(admits h))) s
    match chosen with
    | some h => send h s
    | none =>
      if ([3, 4, 5, 6, 7].all (fun q => (best q).isNone)) then s
      else match dwrr x best 64 x.pointer x.arrivedAt x.deficits with
        | some (h, q, a, d) => send h (modPort s p (fun x => { x with pointer := q, arrivedAt := a, deficits := d }))
        | none => s

/-- EGRESS_RELEASE (R328). -/
def execEgressRelease (dt : Nat) (w : Fin 2048) (copyB : Bool) (poison : Option Nat) (s : State) : Host.Outcome State Fault Refusal :=
  .next (egressAfter dt s (releaseGroup w.val copyB poison))
/-- MAC_FRAME_SELECT (R324). -/
def execMacFrameSelect (dt : Nat) (p : Port) (s : State) : Host.Outcome State Fault Refusal := .next (egressAfter dt s (selectFrame p.val))

end Sys2Proof.Machine
end

