-- ==== Sys2Proof/Machine/AudioOps.lean ====
section
/-! DEFINITION. Audio ports, buses, routes and mutes (R363 to R383). -/

namespace Sys2Proof.Machine

/-- AUD_PORT_CONFIG as a packet gives it (Table 14.1). -/
def audPortCfgOf (p : Packet) : AudPortCfg :=
  { format := fld p 3 1 0, master := flag p 3 2, fs96 := flag p 3 3, slots := fld p 3 9 4, fsyncDelay := flag p 3 10, fsyncPol := flag p 3 11,
    edge := flag p 3 12, txIdle := flag p 3 13 }

/-- Sample rate of a port in Hz. -/
def portRate (c : AudPortCfg) : Nat := if c.fs96 then 96000 else 48000

/-- A port's samples stand on the bus timeline: it is master at FS_BUS (R369). -/
def portOnBus (s : State) (n : Nat) : Bool := let c := (audPortAt s n).cfg; c.master && c.fs96 == s.audio.fs96

/-- The source a bus will have once every accepted change of it has taken effect. -/
def busTarget (b : BusSt) : BusSrc :=
  let ofArm := fun (a : BusArm) (d : BusSrc) => match a with | .change _ x => x | _ => d
  b.next.foldl (fun d a => ofArm a.1 d) (match b.armed with | some (a, _) => ofArm a b.src | none => b.src)

/-- One AUD_ROUTE of OP 1 on the transmit-slot table: connect or disconnect (R374, R375). -/
def txConnect (p : Packet) (m : FMap Nat) : FMap Nat :=
  let k := fld p 3 31 16 * 32 + fld p 3 15 8
  if flag p 4 0 then m.set k (fld p 2 14 8) else m.erase k

/-- Transmit-slot connections as they will stand once every accepted command has applied. -/
def txAhead (s : State) : FMap Nat :=
  s.audio.nextRoutes.foldl (fun m n => match findCmd s n with | some (_, c) => if fld c.packet 2 1 0 = 1 then txConnect c.packet m else m | none => m) s.audio.txSlots

/-- ASRC channels that a set of bus sources and transmit slots needs (R369). -/
def asrcNeed (s : State) (srcs : List BusSrc) (tx : FMap Nat) : Nat :=
  (srcs.filter (fun x => match x with | .slot n _ => !(portOnBus s n) | _ => false)).length + (tx.filter (fun e => !(portOnBus s (e.1 / 32)))).length

/-- Sources of all buses, accepted changes included. -/
def busTargets (s : State) : FMap BusSrc := s.audio.buses.map (fun e => (e.1, busTarget e.2))

/-- A route uses port n, or any route exists for the bus settings (R366). -/
def routeUses (s : State) (n : Nat) : Bool :=
  (busTargets s ++ s.audio.buses.map (fun e => (e.1, e.2.src))).any (fun e => match e.2 with
    | .slot q _ => q == n || n == 15
    | .flow _ _ => n == 15
    | .none => false)
  || (txAhead s ++ s.audio.txSlots).any (fun e => e.1 / 32 == n || n == 15)
  || (n == 15 && (s.chans.any (fun e => !e.2.st302.isEmpty) || !s.audio.nextRoutes.isEmpty))

/-- AUD_PORT_CONFIG (R366). -/
def runAudPortConfig (ci : CmdIn) (s : State) : CmdRes :=
  let n := fld ci.p 2 3 0
  let c := audPortCfgOf ci.p
  let lat := fld ci.p 4 15 0
  if n = 15 then
    if lat < 1000 ∨ 20000 < lat then refuse s stBadParam
    else if (c.fs96 != s.audio.fs96 || lat != s.audio.busLat) && routeUses s 15 then refuse s stBadState
    else pendTide ci s
  else if 7 < n ∨ c.format = 3 ∨ (c.format ≠ 0 ∧ (c.slots = 0 ∨ 32 < c.slots ∨ 49152000 < c.slots * 32 * portRate c)) ∨ (c.format = 2 ∧ c.slots ≠ 2) then refuse s stBadParam
  else if c != (audPortAt s n).cfg && routeUses s n then refuse s stBadState
  else pendTide ci s
def meanAudPortConfig : Meaning := { run := runAudPortConfig }

/-- The estimate of R370 starts again from nominal (R373). -/
def restartEstimate (x : AudPort) : AudPort := { x with stamps := [], u := none, frames := 0, slips := [], recent := [] }

/-- The masks that wait on port n apply and their commands complete (R368). -/
def applyMasks (n : Nat) (s : State) : State :=
  let l := (audPortAt s n).nextMasks
  match l.getLast? with
  | none => s
  | some (_, rx, tx) => l.foldl (fun s e => finishCmd e.1 1 0 0 s) (modAudPort s n (fun x => { x with rxMask := rx, txMask := tx, nextMasks := [] }))

/-- AUD_PORT_CONFIG takes effect at its Tide boundary (R366, R368). -/
def applyAudPort (p : Packet) (s : State) : State :=
  let n := fld p 2 3 0
  let c := audPortCfgOf p
  if n = 15 then
    let s' := { s with audio.busLat := fld p 4 15 0 }
    if c.fs96 = s.audio.fs96 then s'
    else
      let s' := { s' with audio.fs96 := c.fs96, audio.samples := [], audio.repeatUntil := 0 }
      { s' with audio.nextSample := busAfter s' s.time.local' }
  else
    let full := 2 ^ c.slots - 1
    let s := applyMasks n s
    modAudPort s n (fun x =>
      let x := { x with rxMask := full, txMask := full }
      if c = x.cfg then x
      else { restartEstimate x with cfg := c, st := if c.format = 0 then 0 else if c.master then 3 else 2, lostSrc := false })

/-- AUD_SLOTMASK (R368). -/
def runAudSlotmask (ci : CmdIn) (s : State) : CmdRes :=
  let n := fld ci.p 2 3 0
  if 7 < n then refuse s stBadParam
  else
    let s := modAudPort s n (fun x => { x with nextMasks := x.nextMasks ++ [(ci.cmd.serial, word ci.p 3, word ci.p 4)] })
    .pend s .audio 0 0
/-- On a port that is off or whose clock is lost the masks apply at once (R368). -/
def afterAudSlotmask (ci : CmdIn) (s : State) : State :=
  let n := fld ci.p 2 3 0
  if (audPortAt s n).st < 2 then applyMasks n s else s
def meanAudSlotmask : Meaning := { deny := fun ci _ => ci.f != 0, run := runAudSlotmask, after := afterAudSlotmask }

/-- A bus belongs to another function than f (R374). -/
def busForeign (s : State) (f b : Nat) : Bool := (busAt s b).owner.elim false (fun o => o.val != f)

/-- AUD_ROUTE or AUD_MUTE names something of another function (R72, R374). -/
def denyAudRoute (ci : CmdIn) (s : State) : Bool :=
  let b := fld ci.p 2 14 8
  let op := fld ci.p 2 1 0
  let kind := fld ci.p 3 1 0
  let obj := fld ci.p 3 31 16
  if op = 0 then busForeign s ci.f b || (kind == 1 && ci.f != 0) || (kind == 2 && (flowInAt s obj).elim false (fun x => x.owner.val != ci.f))
  else if op = 1 then ci.f != 0 || busForeign s ci.f b
  else if op = 2 then (List.range (fld ci.p 3 15 8)).any (fun i => busForeign s ci.f (b + i)) || denyChan obj ci s
  else false

/-- A source change is asked of bus b (R374, R375). -/
def askSource (ci : CmdIn) (b : Nat) (src : BusSrc) (s : State) : State :=
  let s := modBus s b (fun x => { x with owner := if src = .none then x.owner else some ci.cmd.fn, next := x.next ++ [(.change ci.cmd.serial src, false)] })
  { s with audio.cmds := s.audio.cmds.set ci.cmd.serial ([b], 0, false) }

/-- AUD_ROUTE (R369, R374, R375, R381). -/
def runAudRoute (ci : CmdIn) (s : State) : CmdRes :=
  let p := ci.p
  let op := fld p 2 1 0
  let b := fld p 2 14 8
  let kind := fld p 3 1 0
  let sub := fld p 3 15 8
  let obj := fld p 3 31 16
  let need := asrcNeed s (((busTargets s).erase b).map (fun e => e.2)) (txAhead s)
  let wait := fun (s : State) => CmdRes.pend { s with audio.nextRoutes := s.audio.nextRoutes ++ [ci.cmd.serial] } .audio 0 0
  if op = 0 then
    if kind = 0 then .pend (askSource ci b .none s) .audio 0 0
    else if kind = 1 then
      if 7 < obj ∨ 31 < sub then refuse s stBadParam
      else if !(portOnBus s obj) ∧ 128 ≤ need then refuse s stNoResource
      else .pend (askSource ci b (.slot obj sub) s) .audio 0 0
    else if kind = 2 then
      match flowInAt s obj with
      | none => refuse s stBadParam
      | some x => if x.cfg.kind ≠ 3 ∨ x.cfg.audio.1 ≤ sub then refuse s stBadParam else .pend (askSource ci b (.flow obj sub) s) .audio 0 0
    else refuse s stBadParam
  else if op = 1 then
    if 7 < obj ∨ 31 < sub ∨ kind ≠ 0 then refuse s stBadParam
    else if flag p 4 0 && decide (128 < asrcNeed s ((busTargets s).map (fun e => e.2)) (txConnect p (txAhead s))) then refuse s stNoResource
    else wait s
  else if op = 2 then
    if kind ≠ 0 ∨ !([2, 4, 6, 8].contains sub) ∨ 128 < b + sub ∨ 63 < obj then refuse s stBadParam
    else withChan s obj fun x =>
      if flag p 4 0 && (s.audio.fs96 || !((chanFlows s obj).any (fun w => (flowOutAt s w).elim false (fun y => y.cfg.kind == 1 || y.cfg.kind == 2)))
          || !((chanGeom s x).elim false (fun g => st302Room s x (delayOf g x.delayReq)))) then refuse s stBadState
      else wait s
  else refuse s stBadParam
def meanAudRoute : Meaning := { deny := denyAudRoute, run := runAudRoute }

/-- Buses that AUD_MUTE names (R376). -/
def muteBuses (p : Packet) : List Nat := (List.range (fld p 2 22 16 + 1)).map (fun i => fld p 2 14 8 + i)

/-- AUD_MUTE (R376). -/
def runAudMute (ci : CmdIn) (s : State) : CmdRes :=
  let l := muteBuses ci.p
  let arm : BusArm := if flag ci.p 3 0 then .mute ci.cmd.serial else .unmute ci.cmd.serial
  if l.any (fun b => decide (127 < b)) then refuse s stBadParam
  else
    let s := l.foldl (fun s b => modBus s b (fun x => { x with next := x.next ++ [(arm, flag ci.p 3 1)] })) s
    .pend { s with audio.cmds := s.audio.cmds.set ci.cmd.serial (l, 0, false) } .audio 0 0
def meanAudMute : Meaning := { deny := fun ci s => (muteBuses ci.p).any (busForeign s ci.f), run := runAudMute }

/-- Bus b has done with the command `serial`, by its switch, by the 10 ms limit, or because a later one superseded it; with its last bus the command completes (R376, R377). -/
def busDone (serial b : Nat) (timeout superseded : Bool) (s : State) : State :=
  match s.audio.cmds.get? serial with
  | none => s
  | some (l, n, sup) =>
    let l := l.filter (fun x => x != b)
    let n := n + timeout.toNat
    let sup := sup || superseded
    if !l.isEmpty then { s with audio.cmds := s.audio.cmds.set serial (l, n, sup) }
    else
      let s := { s with audio.cmds := s.audio.cmds.erase serial }
      if sup then endCmd serial stCancelled 0 0 s
      else
        let full := (findCmd s serial).elim 1 (fun c => if opcodeOf c.2.packet = 0x0804 then (muteBuses c.2.packet).length else 1)
        finishCmd serial full n 0 s

/-- The command that an arm belongs to. -/
def armSerial : BusArm → Option Nat
  | .mute n => some n
  | .unmute n => some n
  | .change n _ => some n
  | .rejoin n => some n
  | .clock => none

/-- 64-tap sum with coefficients in 2⁻²³ units, rounded half up and clamped to 24 bits (R371). -/
def asrcSum (coef : Nat → Int) (taps : List Int) : Int :=
  let v := (sumInt (taps.zipIdx.map (fun e => coef e.2 * e.1)) + 4194304) / 8388608
  max (-8388608) (min 8388607 v)

/-- π to 39 places. -/
def piQ : Rat := 3141592653589793238462643383279502884197 / 10 ^ 39

/-- sin (π y), by its series over the y of −1 to 1 that has the same sine. -/
def sineOf (y : Rat) : Rat :=
  let z := (y - 2 * (Rat.floor ((y + 1) / 2) : Rat)) * piQ
  ((List.range 24).foldl (fun (a : Rat × Rat) k => (a.1 + a.2, -(a.2 * z * z) / (((2 * k + 2) * (2 * k + 3) : Nat) : Rat))) ((0 : Rat), z)).1

/-- The Bessel function I0 of √q, by its series. -/
def besselI0 (q : Rat) : Rat :=
  ((List.range 40).foldl (fun (a : Rat × Rat) k => (a.1 + a.2, a.2 * q / (4 * ((k + 1) * (k + 1) : Nat) : Rat))) ((0 : Rat), (1 : Rat))).1

/-- Coefficient of a tap that lies x samples from the instant asked for (R371): the Kaiser-windowed sinc with β = 8.6 over 64 taps, cut off at `cut` cycles a sample, rounded to a multiple of 2⁻²³. DEDUCED (log 10): its gain is that of the ideal low-pass, one in the passband. -/
def kaiserSinc (cut x : Rat) : Int :=
  let a := 2 * cut * x
  let sinc : Rat := if a = 0 then 1 else sineOf a / (piQ * a)
  let w := besselI0 (7396 / 100 * (1 - x * x / 1024)) / besselI0 (7396 / 100)
  Rat.floor (2 * cut * sinc * w * 8388608 + 1 / 2)

/-- Coefficients of a receive conversion from rate `from'` to rate `to'`, by phase and tap: the cut-off is 0.45 times the lower rate (R371). -/
def asrcCoef (from' to' phase tap : Nat) : Int :=
  kaiserSinc (45 / 100 * (min from' to' : Nat) / (from' : Rat)) ((tap : Rat) - 31 - (phase : Rat) / 1024)

/-- Value of slot k of port n at capture instant t, in 2⁻¹⁶ ns: a copy of the frame in force where the port stands on the bus timeline, else the receive conversion; zero where the port has no later frame (R369, R371, R372). -/
def slotValue (s : State) (n k : Nat) (t : Int) : Int :=
  let fr := (audPortAt s n).recent
  let later := (fr.takeWhile (fun e => decide (t < e.1))).length
  let at' := fun (i : Nat) => (fr[i]?).elim (0 : Int) (fun e => e.2.getD k 0)
  if portOnBus s n then at' later
  else match fr[later]?, (if later = 0 then none else fr[later - 1]?) with
    | some a, some b =>
      let ph := ((2 * (t - a.1) * 1024 + (b.1 - a.1)) / (2 * max (b.1 - a.1) 1)).toNat
      -- tap m lies on frame j − 31 + m, and the newest frame has index 0
      let j := if ph = 1024 then later - 1 else later
      asrcSum (asrcCoef (portRate (audPortAt s n).cfg) (busRate s) (ph % 1024)) ((List.range 64).map (fun m => if j + 31 < m then 0 else at' (j + 31 - m)))
    | _, _ => 0

/-- Local instant of bus sample i (R363). -/
def busInstant (s : State) (i : Nat) : Instant := i * 1000000000 * nsUnit / busRate s

/-- Samples of a block of 125 µs (R364). -/
def blockLen (s : State) : Nat := if s.audio.fs96 then 12 else 6

/-- A source's sample at bus sample i (R363, R369, R379, R391): a standby takes the values of port-sourced buses from its partner. -/
def sourceValue (s : State) (b : Nat) (src : BusSrc) (i : Nat) : Int :=
  match src with
  | .none => 0
  | .flow n ch => (flowInAt s n).elim 0 (fun x => ((x.play.get? i).getD []).getD ch 0)
  | .slot n k =>
    if isStandby s && inLockstep s then
      (s.pair.inputs.findSome? (fun e => match e with | .audioBus b' q xs => if b' = b ∧ q = i / blockLen s then some (xs.getD (i % blockLen s) 0) else none | _ => none)).getD 0
    else slotValue s n k (((busInstant s i / 65536 : Nat) : Int) - ((s.audio.busLat * 1000 * 65536 : Nat) : Int))

/-- x_i = 0, or its sign differs from that of x_{i−1} (R376). -/
def crosses (prev x : Int) : Bool := x == 0 || decide (prev < 0) != decide (x < 0)

/-- An armed bus switches at sample i (R375, R376): the mute flag, the source, and what it still waits for. -/
def busSwitch (b i : Nat) (timeout : Bool) (s : State) : State :=
  let x := busAt s b
  match x.armed with
  | none => s
  | some (a, _) =>
    let set := fun (g : BusSt → BusSt) => modBus s b (fun x => g { x with armed := none })
    match a with
    | .mute n => busDone n b timeout false (set (fun x => { x with muted := true }))
    | .unmute n => busDone n b timeout false (set (fun x => { x with muted := false }))
    | .clock => set (fun x => { x with clockMuted := false })
    | .rejoin n => busDone n b timeout false (set (fun x => { x with muted := false }))
    | .change n src =>
      if src = .none then busDone n b timeout false (set (fun x => { x with owner := none, src := .none, muted := false, clockMuted := false, lastIn := 0 }))
      else
        let s := set (fun x => { x with muted := true, clockMuted := false, src := src, armed := some (.rejoin n, busInstant s i) })
        modBus s b (fun x => { x with lastIn := sourceValue s b src i })

/-- A request arms bus b at the boundary of sample i and supersedes the wait that has not ended (R376, R377). The unmute after a clock return gives way to a request of a function, which then decides. -/
def busArm (b i : Nat) (s : State) (r : BusArm × Bool) : State :=
  let x := busAt s b
  let s := match x.armed with
    | some (a, _) => (match armSerial a with
      | some n => if r.1 = .clock then s else busDone n b false true s
      | none => s)
    | none => s
  let s := if r.1 = .clock ∧ x.armed.isSome then modBus s b (fun x => { x with clockMuted := false, muted := true })
    else modBus s b (fun x => { x with armed := some (r.1, busInstant s i), muted := x.muted || (x.clockMuted && r.1 != .clock), clockMuted := x.clockMuted && r.1 == .clock })
  if r.2 then busSwitch b i false s else s

/-- The 10 ms of an armed bus are over at the boundary of sample i (R376). -/
def armLate (s : State) (i : Nat) (x : BusSt) : Bool :=
  match x.armed with | some (_, t) => decide (t + nsInstant 10000000 < busInstant s i) | none => false

/-- One bus at sample i: its requests arm, its source sample is taken, its switch happens, its output follows (R363, R364, R375, R376). -/
def busStep (i : Nat) (s : State) (b : Nat) : State :=
  let l := (busAt s b).next
  let s := l.foldl (busArm b i) (modBus s b (fun x => { x with next := [] }))
  let x := sourceValue s b (busAt s b).src i
  let s := if (busAt s b).armed.isSome && crosses (busAt s b).lastIn x then busSwitch b i false s
           else if armLate s i (busAt s b) then busSwitch b i true s
           else modBus s b (fun y => { y with lastIn := x })
  let y := busAt s b
  let v := sourceValue s b y.src i
  let out := if y.muted || y.clockMuted || decide (i < s.audio.repeatUntil) then 0 else v
  let s := modBus s b (fun y => { y with lastIn := v, blockIn := (v :: y.blockIn).take 12 })
  { s with audio.samples := s.audio.samples.set b (((i, out) :: s.audio.samples.getD b []).take 4096) }

/-- Transmit-slot and ST 302 changes take effect at a bus frame boundary (R374, R375, R381). -/
def applyRoutes (s : State) : State :=
  s.audio.nextRoutes.foldl (fun s n => match findCmd s n with
    | none => s
    | some (_, c) =>
      let p := c.packet
      let s := if fld p 2 1 0 = 1 then { s with audio.txSlots := txConnect p s.audio.txSlots }
        else modChan s (fld p 3 31 16) (fun x => { x with st302 := if flag p 4 0 then (List.range (fld p 3 15 8)).map (fun i => fld p 2 14 8 + i) else [] })
      finishCmd n 1 0 0 s) { s with audio.nextRoutes := [] }

/-- The buses, transmit slots and attachments of a function that has been reset end (R382). -/
def applyBusResets (s : State) : State :=
  s.audio.resets.foldl (fun s f =>
    let mine := fun (x : BusSt) => x.owner.elim false (fun o => o.val == f)
    { s with audio.buses := s.audio.buses.mapVals (fun _ x => if mine x then {} else x), audio.txSlots := if f = 0 then [] else s.audio.txSlots,
             chans := s.chans.mapVals (fun _ x => if x.owner.val = f then { x with st302 := [] } else x) }) { s with audio.resets := [] }

/-- Bus values of the block that ends with sample i go to the partner (R391). -/
def sendBlock (i : Nat) (s : State) : State :=
  let n := blockLen s
  if (i + 1) % n ≠ 0 then s
  else
    let s := s.audio.buses.foldl (fun s e => match e.2.src with
      | .slot _ _ => sendInput (.audioBus e.1 (i / n) ((e.2.blockIn.take n).reverse)) s
      | _ => s) s
    { s with pair.inputs := s.pair.inputs.filter (fun e => match e with | .audioBus _ q _ => decide (i / n < q) | _ => true) }

/-- ST 2110-30 packets that end with sample i are released 20 µs later (R380). -/
def audioPackets (i : Nat) (s : State) : State :=
  s.net.flowsOut.foldl (fun s e =>
    let c := e.2.cfg
    let n := if c.audio.2 / 2 = 0 then 8 * blockLen s else blockLen s
    if c.kind = 4 ∧ !e.2.removed ∧ (i + 1) % n = 0 then
      (addGroup e.1 ((((i + 1) * 1000000000 * nsUnit : Nat) : Rat) / (busRate s : Rat) + nsQ 20000)
        [rtpFrame c (audioPayload c.audio.1 (c.audio.2 % 2) (c.audio.2 / 2) s.audio.fs96)] 0 0 0 false
        { audio := some { buses := (List.range c.audio.1).map (c.srcIndex % 128 + ·), first := i + 1 - n, count := n, l16 := c.audio.2 % 2 == 0 },
          ts := some ((((i + 1 : Nat) : Int) - ((n + (s.audio.busLat * busRate s + 999999) / 1000000 : Nat) : Int)) % 2 ^ 32).toNat } s).1
    else s) s

/-- A standby in lockstep has the holder's values of every port-sourced bus for sample i (R391). -/
def busInputsReady (s : State) (i : Nat) : Bool :=
  !(isStandby s && inLockstep s) || s.audio.buses.all (fun e => match busTarget e.2 with
    | .slot _ _ => s.pair.inputs.any (fun x => match x with | .audioBus b q _ => b == e.1 && q == i / blockLen s | _ => false)
    | _ => true)

/-- A bus sample instant passes: sample nextSample of every bus is formed (R363). -/
def busFrame (s : State) : State :=
  let i := s.audio.nextSample
  if clockLost s .fab || !busDue s i s.time.local' || !busInputsReady s i then s
  else
    let s := applyRoutes (settleResets (applyBusResets s))
    let s := (s.audio.buses.map (fun e => e.1)).foldl (busStep i) s
    let s := audioPackets i (sendBlock i s)
    let s := { s with net.flowsIn := s.net.flowsIn.mapVals (fun _ (x : FlowIn) => { x with play := x.play.keep (fun k _ => decide (i < k)) }) }
    { s with audio.nextSample := i + 1 }

/-- MUTE_TIMEOUT (R376): the 10 ms of bus b are over and the sample now due is the first one after them. -/
def muteTimeout (b : Nat) (s : State) : State :=
  let i := s.audio.nextSample
  if armLate s i (busAt s b) && busDue s i s.time.local' then busSwitch b i true s else s

/-- Nominal frame period of a port in 2⁻¹⁶ ns (R370). -/
def nominalPeriod (c : AudPortCfg) : Int := ((1000000000 * 65536 / portRate c : Nat) : Int)

/-- The period estimate p̂ for a frame with stamp t (R370). -/
def periodEstimate (x : AudPort) (t : Int) : Int :=
  match x.stamps[1023]? with
  | some o => (t - ((o / 65536 : Nat) : Int)) / 1024
  | none => nominalPeriod x.cfg

/-- The edges of AUDn_BCLK show a lost clock (R31): BCLK runs at SLOTS × 32 × FS, and the window of 64 XTAL_IN periods lasts 1.28 µs. -/
def bclkLost (c : AudPortCfg) (edges : Nat) : Bool :=
  let nominal := c.slots * 32 * portRate c * 128
  edges == 0 || decide (nominal < 8 * (((edges * 10 ^ 8 : Nat) : Int) - (nominal : Int)).natAbs)

/-- The cause is met (R372): a slave port has seen no FSYNC edge for 2 nominal frame periods. -/
def audioCauseMet (s : State) (n : Nat) : AudioLossCause → Bool
  | .bclk edges => bclkLost (audPortAt s n).cfg edges
  | .fsync => let x := audPortAt s n
    !x.cfg.master && (x.stamps.head?).elim true (fun t => decide (t + 2 * (1000000000 * nsUnit / portRate x.cfg) ≤ s.time.local'))

/-- A port's clock is lost (R372). -/
def audioLoss (n : Nat) (s : State) : State :=
  let x := audPortAt s n
  if x.st < 2 then s
  else applyMasks n (modAudPort s n (fun x => { x with st := 1, losses := inc32 x.losses, lostSrc := true }))

/-- Sample that port n drives in slot k of a frame that starts at u, in 2⁻¹⁶ ns (R367, R368, R371): none is high impedance. -/
def txValue (s : State) (n : Nat) (u : Int) (k : Nat) : Option Int :=
  let x := audPortAt s n
  if !(bitOf x.txMask k) then (if x.cfg.txIdle then none else some 0)
  else match s.audio.txSlots.get? (n * 32 + k) with
    | none => some 0
    | some b =>
      let t := u - 125000 * 65536
      if portOnBus s n then some (keptSample s b ((t * (busRate s : Int) + 32768000000000) / 65536000000000).toNat)
      else
        let pos := (2 * t * (busRate s : Int) * 1024 + 65536000000000) / (2 * 65536000000000)
        some (asrcSum (Config.asrcTxCoef (pos % 1024).toNat) ((List.range 64).map (fun m => keptSample s b (s.audio.nextSample - 1 - m))))

/-- A slot's 32 BCLK periods: 24 bits, most significant first, and 8 zero bits (R366). -/
def slotBits : Option Int → List (Option Bool)
  | some v => (List.range 24).map (fun i => some (bitOf (unsignedOf v 24) (23 - i))) ++ List.replicate 8 (some false)
  | none => List.replicate 32 none

/-- Pins of a port for a frame (R366, Table 14.1): a TDM FSYNC is one BCLK wide, LRCLK is low for slot 0. -/
def audioWave (c : AudPortCfg) (samples : List (Option Int)) : AudioWave :=
  let bits := c.slots * 32
  { sync := if !c.master then [] else if c.format = 2 then (List.range bits).map (fun i => decide (32 ≤ i)) else (List.range bits).map (fun i => (i == 0) != c.fsyncPol),
    delay := if c.format = 2 || c.fsyncDelay then 1 else 0, data := samples.flatMap slotBits, risingDrive := c.edge }

/-- A frame of port n is placed at u with the samples given: masks apply, slots are read and driven (R367, R368, R371). -/
def placeFrame (n : Nat) (u : Int) (samples : List Int) (s : State) : State :=
  let s := applyMasks n s
  let x := audPortAt s n
  let got := (List.range x.cfg.slots).map (fun k => if bitOf x.rxMask k then samples.getD k 0 else 0)
  let s := modAudPort s n (fun x => { x with recent := ((u, got) :: x.recent).take 2048, frames := x.frames + 1 })
  let out := (List.range x.cfg.slots).map (txValue s n u)
  emit s (.audioFrame n out (audioWave x.cfg out))

/-- A frame of a slave port with its stamp: the smoothed instant, a frame missing or too many, the loss of the clock (R370). -/
def slaveFrame (n : Nat) (stamp : Instant) (samples : List Int) (s : State) : State :=
  let x := audPortAt s n
  let t : Int := ((stamp / 65536 : Nat) : Int)
  let nom := nominalPeriod x.cfg
  let p := periodEstimate x t
  let pred := match x.u with | some u => u + p | none => t
  let half := nom / 2
  let slip := fun (s : State) => modAudPort s n (fun x => { x with slips := (x.frames :: x.slips).take 3 })
  let s :=
    if half < t - pred then
      -- one frame is missing: a zero frame at the predicted instant
      let s := slip (modAudPort s n (fun x => { x with inserted := inc32 x.inserted, stamps := ((pred * 65536).toNat :: x.stamps).take 1025 }))
      let s := modAudPort s n (fun x => { x with recent := ((pred, List.replicate x.cfg.slots 0) :: x.recent).take 2048, frames := x.frames + 1 })
      let pred := pred + p
      let u := pred + (t - pred) / 4096
      placeFrame n u samples (modAudPort s n (fun x => { x with stamps := (stamp :: x.stamps).take 1025, u := some u }))
    else if t - pred < -half then slip (modAudPort s n (fun x => { x with dropped := inc32 x.dropped }))
    else
      let u := pred + (t - pred) / 4096
      placeFrame n u samples (modAudPort s n (fun x => { x with stamps := (stamp :: x.stamps).take 1025, u := some u }))
  let x := audPortAt s n
  let three := match x.slips[2]? with | some a => decide (x.slips.getD 0 0 < a + 8) | none => false
  if three || decide (nom < 1000 * (((p - nom).natAbs : Nat) : Int)) then audioLoss n s else s

/-- PORT_FRAME (R367, R370): a frame of port n starts; a master's frame number follows the local clock. While the clock is lost only a master still transmits (R372). -/
def portFrame (n : Nat) (stamp : Instant) (samples : List Int) (s : State) : State :=
  let x := audPortAt s n
  if x.st = 0 ∨ (x.st = 1 ∧ !x.cfg.master) then s
  else if x.cfg.master then
    let samples := if x.st = 1 then [] else samples
    let j := s.time.local' * portRate x.cfg / (1000000000 * nsUnit)
    if x.nextFrame = j + 1 then s
    else placeFrame n ((j * 1000000000 * 65536 / portRate x.cfg : Nat) : Int) samples (modAudPort s n (fun x => { x with nextFrame := j + 1 }))
  else slaveFrame n stamp samples s

/-- A bus takes its samples from a slot of port n. -/
def busOnPort (n : Nat) (x : BusSt) : Bool := match x.src with | .slot q _ => q == n | _ => false

/-- AUDIO_CLOCK_RETURN (R373): the estimate starts again; the port's buses stay silent until it runs. -/
def audioReturn (n : Nat) (s : State) : State :=
  if (audPortAt s n).st ≠ 1 then s
  else
    let s := modAudPort s n (fun x => { restartEstimate x with st := 2, lostSrc := false })
    { s with audio.buses := s.audio.buses.mapVals (fun _ x => if busOnPort n x then { x with clockMuted := true } else x) }

/-- ACQUIRING_DONE (R373): after 1,024 good frames the port runs and its buses unmute. -/
def acquired (n : Nat) (s : State) : State :=
  let x := audPortAt s n
  if x.st ≠ 2 ∨ x.frames < 1024 then s
  else
    let s := modAudPort s n (fun x => { x with st := 3 })
    { s with audio.buses := s.audio.buses.mapVals (fun _ x => if busOnPort n x && x.clockMuted then { x with next := x.next ++ [(.clock, false)] } else x) }

/-- RATIO_PPB of a port (Table 14.3). -/
def ratioPpb (x : AudPort) : Int :=
  match x.cfg.master, x.stamps.head? with
  | false, some t =>
    let nom := nominalPeriod x.cfg
    (periodEstimate { x with stamps := x.stamps.drop 1 } ((t / 65536 : Nat) : Int) - nom) * 1000000000 / nom
  | _, _ => 0

/-- Audio port status record (Table 14.3). -/
def audPortRecord (s : State) (n : Nat) : List Byte :=
  let x := audPortAt s n
  le 1 n ++ le 1 x.st ++ le 1 (x.cfg.master.toNat + 2 * x.cfg.fs96.toNat) ++ zeros 1 ++ leInt 4 (ratioPpb x) ++ le 4 x.inserted ++ le 4 x.dropped
    ++ le 4 x.losses ++ le 4 s.audio.stepFrames ++ le 4 x.rxMask ++ le 4 x.txMask

/-- AUD_PORT_CONFIG (R366). -/
def execAudPortConfig (q : FlowRef) (b : Bus) (s : State) : Host.Outcome State Fault Refusal := .next (startRow 0x0801 meanAudPortConfig q b s)
/-- AUD_SLOTMASK (R368). -/
def execAudSlotmask (q : FlowRef) (b : Bus) (s : State) : Host.Outcome State Fault Refusal := .next (startRow 0x0802 meanAudSlotmask q b s)
/-- AUD_ROUTE (R374). -/
def execAudRoute (q : FlowRef) (b : Bus) (s : State) : Host.Outcome State Fault Refusal := .next (startRow 0x0803 meanAudRoute q b s)
/-- AUD_MUTE (R376). -/
def execAudMute (q : FlowRef) (b : Bus) (s : State) : Host.Outcome State Fault Refusal := .next (startRow 0x0804 meanAudMute q b s)
/-- PORT_FRAME (R367, R370). -/
def execPortFrame (dt : Nat) (p : Fin 8) (stamp : Instant) (samples : List Int) (s : State) : Host.Outcome State Fault Refusal :=
  .next (actAfter dt s (portFrame p.val stamp samples))
/-- BUS_FRAME (R363). -/
def execBusFrame (dt : Nat) (s : State) : Host.Outcome State Fault Refusal := .next (actAfter dt s busFrame)
/-- MUTE_TIMEOUT (R376). -/
def execMuteTimeout (dt : Nat) (n : Fin 128) (s : State) : Host.Outcome State Fault Refusal := .next (actAfter dt s (muteTimeout n.val))
/-- AUDIO_CLOCK_LOSS (R372). -/
def execAudioClockLoss (x : AudioLossIn) (s : State) : Host.Outcome State Fault Refusal :=
  .next (actAfter x.ticks s fun s => if audioCauseMet s x.port.val x.cause then audioLoss x.port.val s else s)
/-- AUDIO_CLOCK_RETURN (R373). -/
def execAudioClockReturn (p : Fin 8) (s : State) : Host.Outcome State Fault Refusal := .next (act s (audioReturn p.val))
/-- ACQUIRING_DONE (R373). -/
def execAcquiringDone (p : Fin 8) (s : State) : Host.Outcome State Fault Refusal := .next (act s (acquired p.val))

end Sys2Proof.Machine
end

