-- ==== Sys2Proof/Machine/Compose.lean ====
section
/-! DEFINITION. Composition commands: outputs, staging, commits, the Lighthouse layer and freshness limits (R172 to R178, R194 to R202, R207, R520). -/

namespace Sys2Proof.Machine

/-- Output a packet of the Composition group names. -/
def outOf (p : Packet) : Nat := fld p 2 4 0

/-- The output a command names belongs to another function. -/
def denyOut (ci : CmdIn) (s : State) : Bool := (outAt s (outOf ci.p)).elim false (fun o => o.owner.val != ci.f)

/-- T_out(m) in ns after local time zero (R173). -/
def tOutNs (o : OutCfg) (m : Nat) : Nat := m * o.rateDen * 1000000000 / o.rateNum + o.offsetNs

/-- The least m whose T_out(m) falls after instant t (R173). -/
def firstPicture (o : OutCfg) (t : Instant) : Nat :=
  let need := instantNs t + 1 - o.offsetNs
  ceilDiv (need * o.rateNum) (o.rateDen * 1000000000)

/-- OUT_CREATE of a packet (Table 6.1); none where a field is out of range. -/
def outCfgOf (p : Packet) : Option OutCfg :=
  let w := fld p 3 15 0
  let h := fld p 3 31 16
  let num := word p 4
  let den := fld p 5 15 0
  let lines := if fld p 5 31 16 = 0 then standardLines h else if h + 8 ≤ fld p 5 31 16 then some (fld p 5 31 16) else none
  match lines with
  | none => none
  | some t =>
    if w % 16 ≠ 0 ∨ w < 64 ∨ 7680 < w ∨ h % 8 ≠ 0 ∨ h < 64 ∨ 4320 < h ∨ num = 0 ∨ (den ≠ 1000 ∧ den ≠ 1001) ∨ fld p 6 1 0 = 3 then none
    else if periodNs num den < (word p 7 : Rat) + 1 then none
    else some { width := w, height := h, rateNum := num, rateDen := den, totalLines := t, chroma := fld p 6 1 0, colour := fld p 6 3 2,
                toSurface := if fld p 6 31 16 = 0xFFFF then none else some (fld p 6 31 16), offsetNs := word p 7,
                bgY := fld p 8 9 0, bgCb := fld p 8 19 10, bgCr := fld p 8 29 20 }

/-- A TO_SURFACE surface fits the output and belongs to the issuing function (R172). -/
def toSurfaceOk (s : State) (f : Nat) (o : OutCfg) : Bool :=
  match o.toSurface with
  | none => true
  | some n => (surfAt s n).elim false (fun x => x.owner.val == f && x.width == o.width && x.height == o.height && !(hasAlpha x.format) &&
      formatChroma x.format == o.chroma && x.colour == o.colour && x.buffers == 3)

/-- Line load p_line of an output in pixel/ns, and of a compositor (R174). -/
def lineLoad (o : OutCfg) : Rat := (o.width : Rat) / outLineNs o
def compositorLoad (s : State) (c : Nat) : Rat := sumRat (fun e => if e.2.compositor = c then lineLoad e.2.cfg else 0) s.outs

/-- The in-service compositor with the least load that can take the output (R174, R422). -/
def placeOutput (s : State) (o : OutCfg) : Option Nat :=
  let fits := (List.range 4).filter (fun c => compIn s c && decide (compositorLoad s c + lineLoad o ≤ 42 / 10))
  fits.foldl (fun (b : Option Nat) c => match b with
    | none => some c
    | some d => if compositorLoad s c < compositorLoad s d then some c else some d) none

/-- A layer of another output, applied or being committed, takes output n as its source. -/
def readByOutput (s : State) (n : Nat) : Bool :=
  s.outs.any (fun e => e.1 != n && (layerStates s e.2).any (fun ls => ls.any (fun l => l.2.srcKind == 4 && l.2.srcIndex == n)))

/-- Something uses output n (R175): a channel that is not IDLE, an output flow, a layer of another output, a loaded Lighthouse layer. -/
def outUsed (s : State) (n : Nat) (o : Output) : Bool :=
  s.chans.any (fun e => e.2.st != .idle && e.2.cfg.elim false (fun c => c.srcKind == 2 && c.srcIndex == n))
    || s.net.flowsOut.any (fun e => (e.2.cfg.kind == 3 || e.2.cfg.kind == 6) && e.2.cfg.srcIndex == n && !e.2.removed)
    || readByOutput s n || (lhStates o).any (fun l => l.isSome)

/-- OUT_CREATE (R172 to R175, R483, R520). -/
def runOutCreate (ci : CmdIn) (s : State) : CmdRes :=
  let op := fld ci.p 2 1 0
  if op = 1 then
    match outAt s (fld ci.p 2 12 8) with
    | none => refuse s stBadParam
    | some o =>
      if o.dying || outUsed s (fld ci.p 2 12 8) o then refuse s stBadState
      else .pend (modOut s (fld ci.p 2 12 8) (fun o => { o with dying := true })) (.release 1 (fld ci.p 2 12 8)) 0 0
  else if op ≠ 0 ∨ fld ci.p 2 12 8 ≠ 0 then refuse s stBadParam
  else
    match outCfgOf ci.p with
    | none => refuse s stBadParam
    | some o =>
      if !toSurfaceOk s ci.f o then refuse s stBadParam
      else match s.outs.lowestFree 32 with
        | none => refuse s stNoResource
        | some n =>
          match placeOutput s o with
          | none => .done s stCapacity 0 0x300 0xFFFFFFFF
          | some c =>
            if s.mem.noFit then refuse s stNoResource
            else match memoryCheck s (poolWith s none none) (outHbm s o) (outQdr o) with
            | some e => .done s stCapacity 0 e 0xFFFFFFFF
            | none =>
              if shedStops s 2 then refuse s stShed
              else .done (setOut s n { owner := Fin.ofNat 32 ci.f, cfg := o, compositor := c, next := firstPicture o s.time.local' }) stOk 1 n 0
def meanOutCreate : Meaning :=
  { deny := fun ci s =>
      if fld ci.p 2 1 0 = 1 then (outAt s (fld ci.p 2 12 8)).elim false (fun o => o.owner.val != ci.f)
      else fld ci.p 2 1 0 == 0 && (surfAt s (fld ci.p 6 31 16)).elim false (fun x => x.owner.val != ci.f),
    run := runOutCreate }

/-- LAYER_SET of a packet (Table 6.2). -/
def layerOf (p : Packet) : Layer :=
  { srcKind := fld p 2 18 16, srcIndex := fld p 3 15 0, alphaMode := fld p 3 17 16, alpha := fld p 3 29 18, sx := fld p 4 15 0, sy := fld p 4 31 16,
    sw := fld p 5 15 0, sh := fld p 5 31 16, dx := fld p 6 15 0, dy := fld p 6 31 16, dw := fld p 7 15 0, dh := fld p 7 31 16, lag := fld p 8 15 0 }

/-- What a staged change settles: a layer (0), a freshness limit (1) or the Lighthouse layer (2), and the layer's number. -/
def changeKey : LayerChange → Nat × Nat
  | .set l _ => (0, l)
  | .clear l => (0, l)
  | .fresh l _ => (1, l)
  | .lhLoad _ _ _ => (2, 0)
  | .lhUnload => (2, 0)

/-- A stage after one more change: it replaces what the stage held for the same thing (R177, R196). -/
def restage (c : LayerChange) (l : List LayerChange) : List LayerChange := l.filter (fun d => changeKey d != changeKey c) ++ [c]

/-- Stage one change in the owner's stage (R177). -/
def stageChange (ci : CmdIn) (c : LayerChange) (s : State) : CmdRes :=
  match outAt s (outOf ci.p) with
  | none => refuse s stBadParam
  | some _ =>
    if fld ci.p 2 13 8 = 63 then refuse s stBadParam
    else okDone (modOut s (outOf ci.p) (fun o => { o with stage := restage c o.stage })) 1

/-- LAYER_SET and LAYER_CLEAR (R177). -/
def meanLayerSet : Meaning := { deny := denyOut, run := fun ci s => stageChange ci (.set (fld ci.p 2 13 8) (layerOf ci.p)) s }
def meanLayerClear : Meaning := { deny := denyOut, run := fun ci s => stageChange ci (.clear (fld ci.p 2 13 8)) s }

/-- FRESHNESS_SET (R207): layer 63 goes to PF0's stage. -/
def runFreshnessSet (ci : CmdIn) (s : State) : CmdRes :=
  match outAt s (outOf ci.p) with
  | none => refuse s stBadParam
  | some _ =>
    let l := fld ci.p 2 13 8
    let c := LayerChange.fresh l (word ci.p 3)
    okDone (modOut s (outOf ci.p) (fun o => if l = 63 then { o with lhStage := restage c o.lhStage } else { o with stage := restage c o.stage })) 1
def meanFreshnessSet : Meaning :=
  { deny := fun ci s => if fld ci.p 2 13 8 = 63 then ci.f != 0 else denyOut ci s, run := runFreshnessSet }

/-- The Lighthouse region of surface x at (X, Y) is legal on an output (R201). -/
def regionLegal (o : OutCfg) (x : Surface) (px py : Nat) : Bool :=
  !(hasAlpha x.format) && formatChroma x.format == o.chroma && x.colour == o.colour && decide (px + x.width ≤ o.width) && decide (py + x.height ≤ o.height) &&
    (o.chroma == 2 || (px % 2 == 0 && x.width % 2 == 0)) && (o.chroma != 0 || (py % 2 == 0 && x.height % 2 == 0))

/-- A channel fed by the output codes a Lighthouse rectangle losslessly in every picture to come (R163, R201). -/
def chanTakesRegion (s : State) (c : Nat) (x : Chan) (q : Rect) : Bool :=
  match x.cfg, x.profile with
  | some g, some p =>
    let path := (codingPath x.coding ((pictureWaiters s c x).map (fun e => (e.1, e.2.packet)))).map (fun e => e.2)
    lhProfileOk s g p && (x.coding :: path).all (chanLosslessOk s x [q])
  | _, _ => true

/-- LIGHTHOUSE_LOAD (R200, R201). -/
def runLighthouseLoad (ci : CmdIn) (s : State) : CmdRes :=
  let n := outOf ci.p
  match outAt s n with
  | none => refuse s stBadParam
  | some o =>
    if flag ci.p 2 8 then okDone (modOut s n (fun o => { o with lhStage := restage .lhUnload o.lhStage })) 1
    else
      let px := fld ci.p 4 15 0
      let py := fld ci.p 4 31 16
      match surfAt s (fld ci.p 3 11 0) with
      | none => refuse s stBadParam
      | some x =>
        if !regionLegal o.cfg x px py then refuse s stBadParam
        else if s.chans.any (fun e => (e.2.st == .armed || e.2.st == .running) && e.2.cfg.elim false (fun c => c.srcKind == 2 && c.srcIndex == n)
            && !chanTakesRegion s e.1 e.2 (px, py, x.width, x.height)) then refuse s stBadState
        else okDone (modOut s n (fun o => { o with lhStage := restage (.lhLoad (fld ci.p 3 11 0) px py) o.lhStage })) 1
def meanLighthouseLoad : Meaning :=
  { deny := fun ci s => ci.f != 0 || (!(flag ci.p 2 8) && (surfAt s (fld ci.p 3 11 0)).elim false (fun x => x.owner.val != 0)), run := runLighthouseLoad }

/-- The changes a commit of function f takes from the stages of an output (R196, R200). -/
def stageOf (f : Nat) (o : Output) : List LayerChange := (if o.owner.val = f then o.stage else []) ++ (if f = 0 then o.lhStage else [])

/-- The applied layer state overlaid with the stage of f, Lighthouse layer included, in layer order (R196). -/
def newLayers (s : State) (f : Nat) (o : Output) : List (Nat × Layer) :=
  let (ls, lh) := changesOn o.layers o.lh (stageOf f o)
  enabledLayers s ls lh

/-- The layer states whose sums a commit of f must keep within the limits: R196's new state, and where commits of the output wait the state that R198 will make of them and this one (R194: applied or being committed; DEDUCED, log 83). -/
def commitStates (s : State) (f : Nat) (o : Output) : List (List (Nat × Layer)) :=
  let (ls, lh) := changesOn o.layers o.lh (o.commits.flatMap (fun c => c.changes) ++ stageOf f o)
  newLayers s f o :: (if o.commits.isEmpty then [] else [enabledLayers s ls lh])

/-- The source a layer names: it exists, and it belongs to another function than `f` (R72, R196). -/
def layerSourceExists (s : State) (l : Layer) : Bool :=
  if l.srcKind = 0 then (surfAt s l.srcIndex).isSome
  else if l.srcKind = 1 then (flowInAt s l.srcIndex).elim false (fun x => x.cfg.kind == 0)
  else if l.srcKind = 2 then decide (l.srcIndex < 96) && (laneAt s l.srcIndex).cfg.mode == 2
  else if l.srcKind = 3 then (decAt s l.srcIndex).elim false (fun d => d.srcKind == 0)
  else (outAt s l.srcIndex).isSome
def layerSourceForeign (s : State) (f : Nat) (l : Layer) : Bool :=
  if l.srcKind = 0 then (surfAt s l.srcIndex).elim false (fun x => x.owner.val != f)
  else if l.srcKind = 1 then (flowInAt s l.srcIndex).elim false (fun x => x.owner.val != f)
  else if l.srcKind = 3 then (decAt s l.srcIndex).elim false (fun x => x.owner.val != f)
  else if l.srcKind = 4 then (outAt s l.srcIndex).elim false (fun x => x.owner.val != f)
  else false

/-- Size of a layer's source, once it exists. -/
def layerSourceSize (s : State) (l : Layer) : Option (Nat × Nat) :=
  if l.srcKind = 0 then (surfAt s l.srcIndex).map (fun x => (x.width, x.height))
  else if l.srcKind = 1 then (flowInAt s l.srcIndex).map (fun x => (x.cfg.width, x.cfg.height))
  else if l.srcKind = 2 then (let r := sdiRaster (laneAt s l.srcIndex); some (r.1, r.2.1))
  else if l.srcKind = 3 then (decAt s l.srcIndex).map (fun x => (x.width, x.height))
  else (outAt s l.srcIndex).map (fun x => (x.cfg.width, x.cfg.height))

/-- Parameters of layer n are legal on an output (R178, R179, Table 6.2). -/
def layerParamsOk (s : State) (o : OutCfg) (e : Nat × Layer) : Bool :=
  let l := e.2
  let ratio (a b : Nat) : Bool := decide (a ≤ 4 * b) && decide (b ≤ 8 * a)
  decide (l.srcKind ≤ 4) && l.alphaMode != 3 && decide (2 ≤ l.sw) && decide (2 ≤ l.sh) && decide (2 ≤ l.dw) && decide (2 ≤ l.dh)
    && ratio l.sw l.dw && ratio l.sh l.dh && (l.lag == 0 || l.srcKind == 1 || l.srcKind == 2)
    && (match layerSourceSize s l with | some (w, h) => decide (l.sx + l.sw ≤ w) && decide (l.sy + l.sh ≤ h) | none => true)
    && (l.alphaMode == 0 || !(layerSourceExists s l) || (l.srcKind == 0 && (surfAt s l.srcIndex).elim false (fun x => hasAlpha x.format)))
    && (l.srcKind != 4 || (match outAt s l.srcIndex with
        | some b => b.cfg.toSurface.isSome && decide (periodNs o.rateNum o.rateDen ≤ periodNs b.cfg.rateNum b.cfg.rateDen)
        | none => true))

/-- Outputs that layers take as their sources (R197). -/
def outputSources (ls : List (Nat × Layer)) : List Nat := (ls.filter (fun l => l.2.srcKind == 4)).map (fun l => l.2.srcIndex)

/-- Outputs reachable from a list in at most n further edges. -/
def sourceReach (s : State) : Nat → List Nat → List Nat
  | 0, l => l
  | n + 1, l => sourceReach s n ((l ++ l.flatMap (fun a => (outAt s a).elim [] (fun o => (layerStates s o).flatMap outputSources))).eraseDups)

/-- Line-buffer need of a layer in bits (R194). -/
def layerNeed (s : State) (l : Layer) : Nat :=
  match layerFormat s l with
  | none => 0
  | some f =>
    let reef := l.srcKind == 0 && isReef f || l.srcKind == 4 && isReef f
    let n := if isScaled l then (let k := 6 + ceilDiv l.sh l.dh; if reef then 8 * ceilDiv k 8 + 8 else k) else if reef then 16 else 2
    n * (if reef then roundUp l.sw 16 else l.sw) * bitsPerPixel f

/-- Bits that the layers of an output hold of the pool, each layer at the greatest need it has applied or being committed (R194). -/
def heldNeed (s : State) (o : Output) : Nat :=
  let states := layerStates s o
  sumBy (fun k => states.foldl (fun m ls => (ls.filter (fun e => e.1 == k)).foldl (fun m e => max m (roundUp (layerNeed s e.2) 4096)) m) 0) (List.range 64)

/-- Scaled, or unscaled, pipes that an output takes: one for each layer that needs one, applied or being committed (R178, R196). -/
def heldPipes (s : State) (scaled : Bool) (o : Output) : Nat :=
  let states := layerStates s o
  ((List.range 64).filter (fun k => states.any (fun ls => ls.any (fun e => e.1 == k && isScaled e.2 == scaled)))).length

/-- A sum over the other outputs of a compositor. -/
def onCompositor (s : State) (n c : Nat) (f : Output → Nat) : Nat := sumBy (fun e => if e.1 ≠ n ∧ e.2.compositor = c then f e.2 else 0) s.outs

/-- The first layer, in layer order, at which the line-buffer pool is exceeded (R195). -/
def poolOverrun (s : State) : Nat → List (Nat × Layer) → Option (Nat × Nat)
  | _, [] => none
  | total, e :: r =>
    let t := total + roundUp (layerNeed s e.2) 4096
    if 6291456 < t then some (e.1, layerNeed s e.2) else poolOverrun s t r

/-- COMPOSE_COMMIT is denied (R196): an output of another function, unless PF0 commits its own stage; a layer whose source belongs to another function than its stage's. -/
def commitDenied (ci : CmdIn) (s : State) : Option Nat :=
  match outAt s (outOf ci.p) with
  | none => none
  | some o => ((newLayers s ci.f o).find? (fun e => layerSourceForeign s (if e.1 = 63 then 0 else o.owner.val) e.2)).map (fun e => e.1)

/-- COMPOSE_COMMIT (R196 to R199): the checks in their order, then it waits for its output picture. -/
def runComposeCommit (ci : CmdIn) (s : State) : CmdRes :=
  let n := outOf ci.p
  match outAt s n with
  | none => refuse s stBadParam
  | some o =>
    let new := newLayers s ci.f o
    let at' := atPictureOf ci.p
    if at' && decide (o.next - 1 + 65536 < pictureOf ci.p) then refuse s stBadParam
    else match new.find? (fun e => !layerParamsOk s o.cfg e) with
    | some e => .done s stBadParam 0 e.1 0
    | none =>
      if (sourceReach s 32 ((commitStates s ci.f o).flatMap outputSources)).contains n then refuse s stCycle
      else if o.dying then refuse s stBadState
      else if at' && decide (pictureOf ci.p < o.next) then .done s stBadState 0 ((o.next - 1) % 2 ^ 32) ((o.next - 1) / 2 ^ 32)
      else match new.find? (fun e => !layerSourceExists s e.2) with
      | some e => .done s stBadState 0 e.1 0
      | none =>
        let states := commitStates s ci.f o
        let pipes (scaled : Bool) : Nat := onCompositor s n o.compositor (heldPipes s scaled)
        let commit : Commit := { serial := ci.cmd.serial, fn := Fin.ofNat 32 ci.f, number := if at' then some (pictureOf ci.p) else none, changes := stageOf ci.f o }
        let s' := modOut s n (fun o => { o with commits := o.commits ++ [commit], stage := if o.owner.val = ci.f then [] else o.stage, lhStage := if ci.f = 0 then [] else o.lhStage })
        let ls := poolWith s none none
        if states.any (fun l => decide (16 < pipes true + (l.filter (fun e => isScaled e.2)).length) || decide (48 < pipes false + (l.filter (fun e => !isScaled e.2)).length))
            || !regionFits s' ls 1 then refuse s stNoResource
        else match states.findSome? (poolOverrun s (onCompositor s n o.compositor (heldNeed s))) with
        | some (l, need) => .done s stLinebuf 0 l need
        | none => match new.find? (fun e => decide (84 / 10 < srcRate o.cfg e.2)) with
          | some e => .done s stCapacity 0 (0x100 + e.1) 0
          | none => match memoryCheckBut s (some n) ls (maxRat (layersHbm s o.cfg) states) (maxRat (layersQdr s o.cfg) states) with
            | some c => .done s stCapacity 0 c 0xFFFFFFFF
            | none => .pend s' (.outPicture n commit.number) 0 0

def meanComposeCommit : Meaning :=
  { deny := fun ci s => (outAt s (outOf ci.p)).elim false (fun o => o.owner.val != ci.f && ci.f != 0) || (commitDenied ci s).isSome,
    denyWord := fun ci s => if (outAt s (outOf ci.p)).elim false (fun o => o.owner.val != ci.f && ci.f != 0) then 0 else (commitDenied ci s).getD 0,
    run := runComposeCommit }

/-- OUT_CREATE (R172). -/
def execOutCreate (q : FlowRef) (b : Bus) (s : State) : Host.Outcome State Fault Refusal := .next (startRow 0x0401 meanOutCreate q b s)
/-- LAYER_SET (R177). -/
def execLayerSet (q : FlowRef) (b : Bus) (s : State) : Host.Outcome State Fault Refusal := .next (startRow 0x0402 meanLayerSet q b s)
/-- LAYER_CLEAR (R177). -/
def execLayerClear (q : FlowRef) (b : Bus) (s : State) : Host.Outcome State Fault Refusal := .next (startRow 0x0403 meanLayerClear q b s)
/-- COMPOSE_COMMIT (R196). -/
def execComposeCommit (q : FlowRef) (b : Bus) (s : State) : Host.Outcome State Fault Refusal := .next (startRow 0x0404 meanComposeCommit q b s)
/-- LIGHTHOUSE_LOAD (R200). -/
def execLighthouseLoad (q : FlowRef) (b : Bus) (s : State) : Host.Outcome State Fault Refusal := .next (startRow 0x0405 meanLighthouseLoad q b s)
/-- FRESHNESS_SET (R207). -/
def execFreshnessSet (q : FlowRef) (b : Bus) (s : State) : Host.Outcome State Fault Refusal := .next (startRow 0x0406 meanFreshnessSet q b s)

end Sys2Proof.Machine
end

