-- ==== Sys2Proof/Machine/Surfaces.lean ====
section
/-! DEFINITION. Surfaces: allocation, release, publication, host writes and the writer of Reef blocks (R182 to R186, R206, R393, R500). -/

namespace Sys2Proof.Machine

/-- SURFWIN size in bytes (Table 19.1). -/
def surfwinBytes : Nat := 64 * 2 ^ 30

/-- Surfaces of function f as (offset, bytes), in rising order of offset. -/
def surfRanges (s : State) (f : Nat) : List (Nat × Nat) :=
  sortOn (fun e => e.1) ((s.surfs.filter (fun e => e.2.owner.val == f)).map (fun e => (e.2.offset, surfaceBytes e.2)))

/-- The lowest offset at or after `at'` where `need` bytes are free. -/
def findGap (need : Nat) : Nat → List (Nat × Nat) → Nat
  | at', [] => at'
  | at', (o, n) :: r => if at' + need ≤ o then at' else findGap need (max at' (o + n)) r

/-- SURFACE_ALLOC (R182, R232, R500). -/
def runSurfaceAlloc (ci : CmdIn) (s : State) : CmdRes :=
  let fmt := fld ci.p 2 3 0
  let n := fld ci.p 2 9 8
  let w := fld ci.p 3 15 0
  let h := fld ci.p 3 31 16
  if !formatOk fmt ∨ n < 2 ∨ w % 16 ≠ 0 ∨ w < 16 ∨ 8192 < w ∨ h % 8 ≠ 0 ∨ h < 8 ∨ 4320 < h then refuse s stBadParam
  else
    let bytes := n * bufferSize fmt w h
    let off := findGap bytes 0 (surfRanges s ci.f)
    match s.surfs.lowestFree 4096 with
    | none => refuse s stNoResource
    | some k =>
      let x : Surface := { owner := Fin.ofNat 32 ci.f, format := fmt, colour := fld ci.p 2 5 4, buffers := n, width := w, height := h, offset := off }
      let s' := setSurf s k x
      if surfwinBytes < off + bytes ∨ !regionFits s' [] 12 then refuse s stNoResource
      else .done s' stOk bytes k (off / 65536)
def meanSurfaceAlloc : Meaning := { run := runSurfaceAlloc }

/-- A layer state or its changes use surface n. -/
def changeUses (n : Nat) : LayerChange → Bool
  | .set _ l => l.srcKind == 0 && l.srcIndex == n
  | .lhLoad f _ _ => f == n
  | _ => false

/-- An applied or staged layer, a waiting commit or a TO_SURFACE output uses surface n (R182). -/
def surfaceUsed (s : State) (n : Nat) : Bool :=
  s.outs.any (fun e =>
    let o := e.2
    o.layers.any (fun l => l.2.srcKind == 0 && l.2.srcIndex == n) || o.lh.elim false (fun l => l.1 == n) || o.cfg.toSurface == some n
      || o.stage.any (changeUses n) || o.lhStage.any (changeUses n) || o.commits.any (fun c => c.changes.any (changeUses n)))

/-- The surface a layer selection of an output picture reads (R179, R202), and its buffer. -/
def selBuffer (s : State) (q : OutPic) (e : LayerSel) : Option (Nat × Nat) :=
  match (if q.frozen.has e.layer then none else e.pick) with
  | none => none
  | some b =>
    if e.layer = 63 then q.lh.map (fun l => (l.1, b))
    else match q.layers.get? e.layer with
      | none => none
      | some l =>
        if l.srcKind = 0 then some (l.srcIndex, b)
        else if l.srcKind = 4 then ((outAt s l.srcIndex).bind (fun o => o.cfg.toSurface)).map (fun n => (n, b))
        else none

/-- An output picture in composition reads buffer b of surface n. -/
def bufferRead (s : State) (n b : Nat) : Bool := s.outs.any (fun e => e.2.pics.any (fun q => q.2.sels.any (fun l => selBuffer s q.2 l == some (n, b))))

/-- Result words of SURFACE_UPDATE: the first output picture that selected the buffer (R183). -/
def firstUseWords (p : Publication) : Nat × Nat := match p.firstUse with | some (_, m) => (m % 2 ^ 32, m / 2 ^ 32) | none => (0xFFFFFFFF, 0xFFFFFFFF)

/-- The publication of a buffer, as it stands now. -/
def pubNow (x : Surface) (p : Publication) : Publication := (x.pubs.find? (fun q => q.buffer == p.buffer)).getD p

/-- Put a publication among the others, latest flip first; of equal flips the newer comes first (R179). -/
def insertPub (p : Publication) : List Publication → List Publication
  | [] => [p]
  | q :: r => if q.flip ≤ p.flip then p :: q :: r else q :: insertPub p r

/-- Updates of surface n whose flip time has come take effect (R183). -/
def flipDue (n : Nat) (s : State) : State :=
  modSurf s n (fun x => x.pending.foldl (fun x u =>
    if !u.flipped && decide (u.pub.flip ≤ s.time.local') then
      { x with pubs := insertPub u.pub x.pubs, pending := x.pending.map (fun v => if v.serial = u.serial then { v with flipped := true } else v) }
    else x) x)

/-- Publications that a flipped update has superseded. -/
def olderPubs (x : Surface) (u : PendingUpdate) : List Publication := (x.pubs.dropWhile (fun q => q.buffer != u.pub.buffer)).drop 1

/-- Updates of surface n complete once no output picture reads what they replaced; those buffers are then free (R183). -/
def settleSurface (n : Nat) (s : State) : State :=
  let s := flipDue n s
  match surfAt s n with
  | none => s
  | some x => x.pending.foldl (fun s u =>
      match surfAt s n with
      | none => s
      | some y =>
        if u.flipped && (olderPubs y u).all (fun q => !bufferRead s n q.buffer) then
          let (r0, r1) := firstUseWords (pubNow y u.pub)
          let s := modSurf s n (fun y => { y with pubs := y.pubs.filter (fun q => !((olderPubs y u).contains q)), pending := y.pending.filter (fun v => v.serial != u.serial) })
          finishCmd u.serial u.bytes r0 r1 s
        else s) s

/-- Settle every surface. -/
def settleSurfaces (s : State) : State := s.surfs.foldl (fun s e => settleSurface e.1 s) s

/-- SURFACE_FREE (R182): waiting updates end first. -/
def runSurfaceFree (ci : CmdIn) (s : State) : CmdRes :=
  let n := fld ci.p 2 11 0
  match surfAt s n with
  | none => refuse s stBadParam
  | some x =>
    if surfaceUsed s n then refuse s stBadState
    else
      let s' := x.pending.foldl (fun s u =>
        if u.flipped || decide (u.pub.flip ≤ s.time.local') then (let r := firstUseWords (pubNow x u.pub); finishCmd u.serial u.bytes r.1 r.2 s)
        else endCmd u.serial stCancelled 0 0 s) s
      okDone { s' with surfs := s'.surfs.erase n } (surfaceBytes x)
def meanSurfaceFree : Meaning := { deny := fun ci s => (surfAt s (fld ci.p 2 11 0)).elim false (fun x => x.owner.val != ci.f), run := runSurfaceFree }

/-- Flip time of a SURFACE_UPDATE (R183): 0 means its start. -/
def flipTimeOf (p : Packet) (now : Instant) : Instant := if timeNsOf p 9 = 0 then now else nsInstant (timeNsOf p 9)

/-- SURFACE_UPDATE (R183): the block is copied at the start, then the command waits for its flip. -/
def runSurfaceUpdate (ci : CmdIn) (s : State) : CmdRes :=
  let n := fld ci.p 5 11 0
  let b := fld ci.p 5 17 16
  match surfAt s n with
  | none => refuse s stBadParam
  | some x =>
    if x.buffers ≤ b ∨ bufferBytes x.format x.width x.height < ci.block.length then refuse s stBadParam
    else if x.pubs.any (fun q => q.buffer == b) || x.pending.any (fun u => u.pub.buffer == b) then refuse s stBadState
    else
      let t := flipTimeOf ci.p s.time.local'
      let pub : Publication := { buffer := b, flip := t, contentNs := timeNsOf ci.p 6 }
      let s := modSurf s n (fun x =>
        let y := writeBuffer x b 0 ci.block
        { y with pending := y.pending ++ [{ serial := ci.cmd.serial, pub := pub, bytes := ci.block.length }] })
      .pend s (.flip t) 0 0
def meanSurfaceUpdate : Meaning :=
  { deny := fun ci s => (surfAt s (fld ci.p 5 11 0)).elim false (fun x => x.owner.val != ci.f), run := runSurfaceUpdate,
    after := fun ci s => settleSurface (fld ci.p 5 11 0) s }

/-- FLIP_TIME (R183): the flip time of the SURFACE_UPDATE running in q passes. -/
def flipTime (q : FlowRef) (s : State) : State :=
  match flowCmds s (flowKey q) with
  | c :: _ => (match c.wait with | .flip _ => settleSurface (fld c.packet 5 11 0) s | _ => s)
  | [] => s

/-- Count a dropped SURFWIN write and assert the function's surface-protect source (R184, R500). -/
def surfDrop (f : Nat) (s : State) : State := modFn s f (fun x => { x with surfDrops := inc32 x.surfDrops, surfProtect := true })

/-- A BULK frame of surface data (Table 15.4a, KIND 0). -/
def bulkSurface (n b off : Nat) (bs : List Byte) (s : State) : State :=
  (List.range (ceilDiv bs.length 2032)).foldl (fun s i =>
    cwSend 0x0B (le 1 0 ++ le 1 b ++ le 2 n ++ le 4 (off + 2032 * i) ++ le 4 bs.length ++ zeros 4 ++ (bs.drop (2032 * i)).take 2032) s) s

/-- One run of bytes inside one 64 KiB unit of f's window: written to a free buffer, and forwarded by a holder, or dropped (R184, R393, R500). Answers whether it was taken. -/
def surfwinRun (f offset : Nat) (bs : List Byte) (s : State) : State × Bool :=
  match s.surfs.find? (fun e => e.2.owner.val == f && decide (e.2.offset ≤ offset) && decide (offset < e.2.offset + surfaceBytes e.2)) with
  | none => (s, false)
  | some (n, x) =>
    let size := bufferSize x.format x.width x.height
    let b := (offset - x.offset) / size
    let off := (offset - x.offset) % size
    if isStandby s || x.pubs.any (fun q => q.buffer == b) || x.pending.any (fun u => u.pub.buffer == b) then (s, false)
    else
      let s := modSurf s n (fun x => writeBuffer x b off bs)
      (if isHolder s && s.pair.st != .unpaired then bulkSurface n b off bs s else s, true)

/-- SURFWIN_WRITE (R500): f writes bytes at an offset; a write that is dropped, in whole or in part, is counted once. -/
def surfwinWrite (f offset : Nat) (bs : List Byte) (s : State) : State :=
  let first := 65536 - offset % 65536
  let runs := (offset, bs.take first) :: (List.range (ceilDiv (bs.length - first) 65536)).map (fun i => (offset + first + 65536 * i, (bs.drop (first + 65536 * i)).take 65536))
  let r := (runs.filter (fun e => !e.2.isEmpty)).foldl (fun (a : State × Bool) e => let q := surfwinRun f e.1 e.2 a.1; (q.1, a.2 && q.2)) (s, true)
  if r.2 then r.1 else surfDrop f r.1

/-- Samples packed ten bits each, least significant bit first (R186), from bit `bit`: a number. -/
def pack10 (l : List Nat) : Nat := (l.foldr (fun v acc => acc * 1024 + v) 0)

/-- Least width of two's complement that holds every residual of a row (R186); 0 where all are zero. -/
def rowWidth (d : List Int) : Nat :=
  if d.all (fun x => x == 0) then 0
  else ((List.range 12).find? (fun w => decide (0 < w) && d.all (fun x => decide (-(2 ^ (w - 1) : Nat) ≤ x) && decide (x < (2 ^ (w - 1) : Nat))))).getD 11

/-- The bits of one predicted row: value and number of bits; `first` predicts its first sample (R186). -/
def predictRow (first : Nat) (row : List Nat) : Nat × Nat :=
  let d := (row.foldl (fun (a : List Int × Nat) (v : Nat) => (a.1 ++ [(v : Int) - (a.2 : Int)], v)) ([], first)).1
  let w := rowWidth d
  ((d.foldr (fun x acc => acc * 2 ^ w + unsignedOf x w) 0) * 16 + w, 4 + w * d.length)

/-- A block as its writer codes it (R185, R186): header, and data bytes. -/
def reefEncode (planes : List (List (List Nat))) : Nat × List Byte :=
  let flat := planes.map (fun p => p.flatten)
  if flat.all (fun p => p.all (fun v => v == p.headD 0)) then
    ((flat.mapIdx (fun i p => p.headD 0 * 2 ^ (8 + 10 * i))).foldl (· + ·) 0, [])
  else
    let raw := flat.flatten
    let rows := planes.flatMap (fun p => p.mapIdx (fun i row => predictRow (if i = 0 then 512 else (p.getD (i - 1) []).headD 0) row))
    let n := sumBy (fun r => r.2) rows
    if n ≤ 10 * raw.length then (2 + 8 * ceilDiv n 2048, le (8 * ceilDiv n 64) (rows.foldr (fun r acc => acc * 2 ^ r.2 + r.1) 0))
    else (1 + 8 * ceilDiv (10 * raw.length) 2048, le (8 * ceilDiv (10 * raw.length) 64) (pack10 raw))

/-- A row of samples in 16-bit units, padded to a pitch. -/
def unitRow (pitch : Nat) (l : List Nat) : List Byte := slice (l.flatMap (le 2)) 0 pitch

/-- Two planes' rows interleaved sample by sample. -/
def interleave : List Nat → List Nat → List Nat
  | a :: r, b :: t => a :: b :: interleave r t
  | _, _ => []

/-- A picture of the output's lines as bytes of a surface buffer, as (offset, bytes) runs (R172, R182, R185, R192). -/
def pictureRuns (x : Surface) (lines : FMap (List Nat × List Nat × List Nat)) : List (Nat × List Byte) :=
  let pitch := linePitch x.format x.width
  if isReef x.format then
    (List.range (x.height / 8)).flatMap (fun br => (List.range (x.width / 16)).flatMap (fun bc =>
      let cut (l : List Nat) (w : Nat) : List Nat := (l.drop (bc * w)).take w
      let rows := (List.range 8).map (fun i => lines.getD (8 * br + i) ([], [], []))
      let cw := if x.format = 8 then 8 else 16
      let (h, data) := reefEncode [rows.map (fun r => cut r.1 16), rows.map (fun r => cut r.2.1 cw), rows.map (fun r => cut r.2.2 cw)]
      let j := br * (x.width / 16) + bc
      [(8 * j, le 8 h), (reefHeader x.width x.height + 768 * j, data)]))
  else
    lines.flatMap (fun e =>
      let (y, cb, cr) := e.2
      let row := e.1
      if x.format = 1 then [(row * pitch, unitRow pitch y), ((x.height + row) * pitch, unitRow pitch cb), ((2 * x.height + row) * pitch, unitRow pitch cr)]
      else (row * pitch, unitRow pitch y) ::
        (if cb.isEmpty then [] else [((x.height + (if x.format = 4 then row / 2 else row)) * pitch, unitRow pitch (interleave cb cr))]))

/-- SURFACE_ALLOC (R182). -/
def execSurfaceAlloc (q : FlowRef) (b : Bus) (s : State) : Host.Outcome State Fault Refusal := .next (startRow 0x0407 meanSurfaceAlloc q b s)
/-- SURFACE_FREE (R182). -/
def execSurfaceFree (q : FlowRef) (b : Bus) (s : State) : Host.Outcome State Fault Refusal := .next (startRow 0x0408 meanSurfaceFree q b s)
/-- SURFACE_UPDATE (R183). -/
def execSurfaceUpdate (q : FlowRef) (b : Bus) (s : State) : Host.Outcome State Fault Refusal := .next (startRow 0x0409 meanSurfaceUpdate q b s)
/-- FLIP_TIME (R183). -/
def execFlipTime (dt : Nat) (q : FlowRef) (s : State) : Host.Outcome State Fault Refusal := .next (actAfter dt s (flipTime q))
/-- SURFWIN_WRITE (R500): function f writes bytes at offset. -/
def execSurfwinWrite (f : Fn) (offset : Nat) (bytes : List Byte) (s : State) : Host.Outcome State Fault Refusal :=
  .next (if hostUp s then surfwinWrite f.val offset bytes s else s)

end Sys2Proof.Machine
end

