-- ==== Sys2Proof/Machine/OutPics.lean ====
section
/-! DEFINITION. Output pictures: their start, selection of sources, freshness, lines, region hash and completion (R173, R175 to R181, R183, R199 to R210, R248, R310, R313, R329, R391). -/

namespace Sys2Proof.Machine

/-- Clocks without which no output composes (Table 16.2). -/
def composeClocks (s : State) : Bool := !(clockLost s .fab || clockLost s .hbm || clockLost s .qdr || clockLost s .time)

/-- An output composes: its compositor is in service and shedding has not stopped its class (R422, R483). -/
def outRuns (s : State) (o : Output) : Bool := !o.stopped && compIn s o.compositor && !(shedStops s (outShedClass o))

/-- Limits after the changes of a commit (R207). -/
def limitsOn (m : FMap Nat) (cs : List LayerChange) : FMap Nat :=
  cs.foldl (fun m c => match c with | .fresh l a => (if a = 0 then m.erase l else m.set l a) | _ => m) m

/-- Commits due at output picture m apply, oldest first, each whole, and complete (R10, R196, R198). -/
def applyCommits (n m : Nat) (s : State) : State :=
  match outAt s n with
  | none => s
  | some o =>
    let due := o.commits.filter (fun c => c.number.elim true (fun k => decide (k ≤ m)))
    due.foldl (fun s c =>
      let s := modOut s n (fun o =>
        let (ls, lh) := changesOn o.layers o.lh c.changes
        { o with layers := ls, lh := lh, frozen := o.frozen.keep (fun l _ => !(c.changes.any (fun x => match x with | .set k _ => k == l | .clear k => k == l | _ => false))), maxAges := limitsOn o.maxAges c.changes, applied := inc32 o.applied, commits := o.commits.filter (fun d => d.serial != c.serial) })
      finishCmd c.serial c.changes.length (m % 2 ^ 32) (m / 2 ^ 32) s) s

/-- Pictures of a live source, newest first (R179). -/
def livePics (s : State) (l : Layer) : List LivePic :=
  if l.srcKind = 1 then (flowInAt s l.srcIndex).elim [] (fun f => f.pics) else (laneAt s l.srcIndex).pics

/-- Decoded pictures of a decoder that may be shown, newest first (R179, R221). -/
def shownPics (s : State) (d : Nat) : List DecPic := (decAt s d).elim [] (fun x => (x.waiting.reverse ++ x.presented).filter (fun q => q.show'))

/-- The surface of a layer of SRC_KIND 0, or of the Lighthouse layer. -/
def pickSurface (s : State) (n : Nat) (t : Instant) : Option Publication := (surfAt s n).bind (fun x => x.pubs.find? (fun p => decide (p.flip ≤ t)))

/-- The picture of the source that the layer uses for an output picture starting at t, and its content time in ns (R179, R206). -/
def pickSource (s : State) (l : Layer) (frozen : Option Frozen) (t : Instant) : Option (Nat × Nat) :=
  match frozen with
  | some z => if z.image = .nothing then none else some (0, z.contentNs)
  | none =>
  if l.srcKind = 0 then (pickSurface s l.srcIndex t).map (fun p => (p.buffer, if p.contentNs = 0 then instantNs t else p.contentNs))
  else if l.srcKind ≤ 2 then
    ((livePics s l).find? (fun k => decide (k.tref + nsInstant (l.lag * 1000) ≤ t))).map (fun k => (k.number, instantNs k.tref))
  else if l.srcKind = 3 then
    ((shownPics s l.srcIndex).filter (fun k => k.present.elim false (fun p => decide (p ≤ t)))).foldl
      (fun (b : Option (DecPic)) k => match b with | none => some k | some c => if c.present.getD 0 < k.present.getD 0 then some k else b) none |>.map (fun k => (k.number, k.contentNs))
  else
    match outAt s l.srcIndex with
    | none => none
    | some o => ((o.history).find? (fun h => decide (nsQ ((instantNs h.2.1 : Rat) + periodNs o.cfg.rateNum o.cfg.rateDen) ≤ (t : Rat)))).map (fun h => (h.1 % 3, h.2.2))

/-- First selection of a surface buffer by an output: it fixes the content time of an update that gave none, and the result words of SURFACE_UPDATE (R183, R206). -/
def notePublication (surf buf o m : Nat) (tNs : Nat) (s : State) : State :=
  modSurf s surf (fun x => { x with pubs := x.pubs.map (fun p =>
    if p.buffer = buf then
      { p with contentNs := if p.contentNs = 0 then tNs else p.contentNs,
               firstUse := match p.firstUse with | none => some (o, m) | some (a, k) => if o < a then some (o, m) else some (a, k) }
    else p) })

/-- Age test (R207): stale, and the bar segments of R208. -/
def staleness (tNs contentNs maxAge : Nat) : Bool × Nat :=
  let limit := maxAge * 1000
  let age := tNs - contentNs
  if maxAge = 0 ∨ age ≤ limit then (false, 0) else (true, min 8 ((age / limit).log2 + 1))

/-- Selection of every enabled layer of an output picture (R179 to R181, R202, R206, R207). On a standby a content time comes from the holder (R391). -/
def selectLayers (s : State) (n m : Nat) (o : Output) (tNs : Nat) : List LayerSel :=
  let t := nsInstant tNs
  (enabledLayers s o.layers o.lh).map (fun e =>
    let pick := pickSource s e.2 (o.frozen.get? e.1) t
    let src := (e.2.srcKind, e.2.srcIndex)
    let own := pick.elim 0 (fun p => p.2)
    let content := if isStandby s then
        s.pair.inputs.foldl (fun c i => match i with | .contentTime o' l p x => if o' = n ∧ l = e.1 ∧ p = m then instantNs x else c | _ => c) own
      else own
    let last := o.lastSels.find? (fun x => x.layer == e.1 && x.src == src)
    let cur := pick.map (fun p => p.1)
    let prior := match last with | some x => if x.pick = cur then x.prior else x.pick | none => none
    let (st, g) := staleness tNs content (o.maxAges.getD e.1 0)
    { layer := e.1, src := src, pick := cur, prior := prior, contentNs := content, stale := st, bars := g })

/-- The stale bitmap of a selection (R209). -/
def staleBits (l : List LayerSel) : DWord := BitVec.ofNat 64 (sumBy (fun e => if e.stale then 2 ^ e.layer else 0) l)

/-- Least content time of the enabled layers of a picture (R206). -/
def leastContent (l : List LayerSel) : Option Nat := l.foldl (fun a e => some (a.elim e.contentNs (fun m => min m e.contentNs))) none

/-- The 20-byte prefix of the region-hash message (R203). -/
def hashPrefix (n m chroma x y w h : Nat) : List Byte := le 8 m ++ le 1 n ++ le 1 chroma ++ le 2 x ++ le 2 y ++ le 2 w ++ le 2 h ++ zeros 2

/-- Region rectangle of a Lighthouse layer. -/
def lhRegion (s : State) (lh : Option (Nat × Nat × Nat)) : Option (Nat × Nat × Nat × Nat) := (lhRect s lh).head?

/-- SDI transmit flows of an output: each picture is sent; a raster that has drifted ahead by more than T_lo repeats the picture before, one that has fallen behind omits this one (R313). The raster is taken to run at the rate of CLK_TIME and is compared anew after each slip (log 30). -/
def sdiPictures (n m : Nat) (tOut : Instant) (s : State) : State :=
  s.net.flowsOut.foldl (fun s e =>
    let w := e.2
    if w.cfg.kind ≠ 6 ∨ w.cfg.srcIndex ≠ n ∨ w.removed then s
    else
      match outAt s n with
      | none => s
      | some o =>
        let lane := laneAt s w.cfg.lane
        let sends := lane.cfg.mode == 3 && !lane.fault && !s.pair.txIdle
        let send (m : Nat) (s : State) : State := if sends then emit s (.sdi w.cfg.lane m) else s
        let trueNs : Int := ((2 * s.now : Nat) : Int) - ((instantNs s.time.local' : Int) - (instantNs tOut : Int))
        let set (m0 : Nat) (s : State) : State := modFlowOut s e.1 (fun x => { x with nextUnit := (m0 + 1, trueNs.toNat) })
        if w.nextUnit.1 = 0 then set m (send m s)
        else
          let expected : Rat := (w.nextUnit.2 : Rat) + ((m + 1 - w.nextUnit.1 : Nat) : Rat) * periodNs o.cfg.rateNum o.cfg.rateDen
          let drift : Rat := (trueNs : Rat) - expected
          let slip (s : State) : State := set m (modLane s w.cfg.lane (fun l => { l with slips := inc32 l.slips }))
          if outLineNs o.cfg < drift then slip (send m (send (m - 1) s))
          else if drift < -(outLineNs o.cfg) then slip s
          else send m s) s

/-- Channels that an output feeds. -/
def fedChannels (s : State) (n : Nat) : List Nat :=
  (s.chans.filter (fun e => e.2.st != .idle && e.2.cfg.elim false (fun c => c.srcKind == 2 && c.srcIndex == n))).map (fun e => e.1)

/-- An output picture gives its channels their T_ref (R85); a stopped output gives them the loss policy instead (R422, R483). -/
def feedChannels (n m : Nat) (t : Instant) (lost : Bool) (s : State) : State :=
  (fedChannels s n).foldl (fun s c =>
    let s := if lost then declareLoss c ((chanAt s c).elim 0 (fun x => x.run.nextPic)) 0 s else wholePicture c s
    modChan s c (fun x => { x with input := { x.input with pending := x.input.pending ++ [(t, if lost then none else some m)] } })) s

/-- The holder's content times and line decisions that this output picture still needs are here (R391). -/
def contentReady (s : State) (n m : Nat) (o : Output) : Bool :=
  !(isStandby s && inLockstep s) || (enabledLayers s o.layers o.lh).all (fun e => e.2.srcKind == 0 || e.2.srcKind == 4 ||
    s.pair.inputs.any (fun i => match i with | .contentTime o' l p _ => o' == n && l == e.1 && p == m | _ => false))

/-- A holder sends the content times of layers whose sources it receives or decodes (R391). -/
def sendContent (n m : Nat) (o : Output) (sels : List LayerSel) (s : State) : State :=
  (enabledLayers s o.layers o.lh).foldl (fun s e =>
    if e.2.srcKind = 0 ∨ e.2.srcKind = 4 then s
    else sendInput (.contentTime n e.1 m (nsInstant ((sels.find? (fun x => x.layer == e.1)).elim 0 (fun x => x.contentNs)))) s) s

/-- What a decoded picture leaves for a layer that shows it. -/
def decoderImage (s : State) (d : Nat) (pick : Option Nat) : FrozenImage :=
  match decAt s d, pick.bind (fun k => (shownPics s d).find? (fun p => p.number == k)) with
  | some x, some p => .picture x.width x.height (decChroma s d x) (Config.sourceColour 3 d % 4) p.planes
  | _, _ => .nothing

/-- What buffer b of an output's TO_SURFACE surface leaves for a layer that shows it. -/
def outputImage (s : State) (n : Nat) (b : Option Nat) : FrozenImage :=
  match (outAt s n).bind (fun o => o.cfg.toSurface.bind (surfAt s)), b with
  | some x, some k => .surface x k
  | _, _ => .nothing

/-- The last composed picture of output n, for the layers that took it: its buffer, and its content time (R176, R206). -/
def lastComposed (s : State) (n : Nat) : Frozen :=
  match (outAt s n).bind (fun o => (o.done.getLast?).map (fun e => (e.1, ((o.history.find? (fun h => h.1 == e.1)).map (fun h => h.2.2)).getD 0))) with
  | some (m, t) => { image := outputImage s n (some (m % 3)), contentNs := t }
  | none => { image := .nothing, contentNs := 0 }

/-- A layer takes source `index` of a kind. -/
def takesSource (kind index : Nat) (l : Layer) : Bool := l.srcKind == kind && l.srcIndex == index

/-- A picture in composition keeps the image that its layers selected of a source that goes (R176, R221). -/
def freezePicture (kind index : Nat) (image : Option Nat → FrozenImage) (q : OutPic) : OutPic :=
  let mine := q.sels.filter (fun e => e.layer != 63 && !(q.frozen.has e.layer) && (q.layers.get? e.layer).elim false (takesSource kind index))
  { q with frozen := mine.foldl (fun m e => m.set e.layer { image := image e.pick, contentNs := e.contentNs }) q.frozen }

/-- Applied layers go on showing an image of a source that goes (R176, R219). -/
def freezeLayers (kind index : Nat) (show' : LayerSel → Frozen) (o : Output) : FMap Frozen :=
  let mine := o.layers.filter (fun e => takesSource kind index e.2 && !(o.frozen.has e.1))
  mine.foldl (fun m e => m.set e.1 (show' ((o.lastSels.find? (fun x => x.layer == e.1)).getD { layer := e.1, pick := none }))) o.frozen

/-- A source goes: pictures in composition keep the image that each selected of it, and applied layers go on showing one, their content time standing still (R176, R219, R221). -/
def freezeSource (kind index : Nat) (image : Option Nat → FrozenImage) (show' : LayerSel → Frozen) (s : State) : State :=
  { s with outs := s.outs.mapVals (fun _ o => { o with pics := o.pics.mapVals (fun _ q => freezePicture kind index image q), frozen := freezeLayers kind index show' o }) }

/-- Output n goes as a source: its last composed picture stays (R176). -/
def freezeOutput (n : Nat) (s : State) : State := freezeSource 4 n (outputImage s n) (fun _ => lastComposed s n) s

/-- Decoder d goes as a source: each layer keeps the last picture it selected (R219, R221). -/
def freezeDecoder (d : Nat) (s : State) : State := freezeSource 3 d (decoderImage s d) (fun e => { image := decoderImage s d e.pick, contentNs := e.contentNs }) s

/-- The output is destroyed: waiting commits and its removal complete, a Lighthouse layer is lost (R175, R176); commands of a function being reset wait for its step 3 (R424). -/
def destroyOutput (n : Nat) (s : State) : State :=
  match outAt s n with
  | none => s
  | some o =>
    let s := (o.commits.filter (fun c => !(fnAt s c.fn.val).busy)).foldl (fun s c => endCmd c.serial stCancelled 0 0 s) s
    let s := if o.lh.isSome then { s with irq.lhLost := true } else s
    let s := freezeOutput n s
    let s := { s with outs := s.outs.erase n }
    settleResets <| settleSurfaces (((allCmds s).filter (fun e => e.2.wait == .release 1 n && !(fnAt s e.2.fn.val).busy)).foldl (fun s e => finishCmd e.2.serial 1 0 0 s) s)

/-- OUTPUT_PICTURE_START (R173): output picture m starts, or the output is destroyed at this boundary (R175). -/
def startOutPicture (n : Nat) (s : State) : State :=
  match outAt s n with
  | none => s
  | some o0 =>
    let m := o0.next
    let tNs := tOutNs o0.cfg m
    let t := nsInstant tNs
    if s.time.local' < t then s
    else if o0.dying then destroyOutput n s
    else if !composeClocks s || !mayCode s || !contentReady s n m o0 || mirrorAwaited s 1 n m then s
    else if !outRuns s o0 then feedChannels n m t true (modOut s n (fun o => { o with next := m + 1 }))
    else
      let s := settleDecoders (applyCommits n m s)
      match outAt s n with
      | none => s
      | some o =>
        let sels := selectLayers s n m o tNs
        let region := lhRegion s o.lh
        let hash := region.elim (0xFFFFFFFF : Nat) (fun q => crcRun 0 0xFFFFFFFF (hashPrefix n m o.cfg.chroma q.1 q.2.1 q.2.2.1 q.2.2.2))
        let pic : OutPic := { number := m, tOut := t, layers := o.layers, frozen := o.frozen, maxAges := o.maxAges, lh := o.lh, sels := sels, hash := BitVec.ofNat 32 hash, stale := staleBits sels }
        let least := (leastContent sels).getD tNs
        let s := modOut s n (fun o => { o with next := m + 1, pics := o.pics.set m pic, lastSels := sels, outPicture := m, stale := staleBits sels,
                                               history := ((m, t, least) :: o.history).take 4 })
        let s := (sels.filter (fun e => e.pick.isSome)).foldl (fun s e => match selBuffer s pic e with
          | some (f, b) => notePublication f b n m tNs s
          | none => s) s
        let s := sendContent n m o sels s
        let s := { s with pair.inputs := s.pair.inputs.filter (fun i => match i with | .contentTime o' _ p _ => !(o' == n && decide (p ≤ m)) | _ => true) }
        let s := feedChannels n m t false s
        let s := sdiPictures n m t s
        let s := joined 2 n s
        postEvent o.owner.val 3 n m s
def execOutputPictureStart (dt : Nat) (o : Fin 32) (s : State) : Host.Outcome State Fault Refusal := .next (actAfter dt s (startOutPicture o.val))

/-- The received picture of a live source with a number. -/
def livePic (s : State) (l : Layer) (k : Nat) : Option LivePic := (livePics s l).find? (fun p => p.number == k)

/-- Line `row` of the selected picture is complete by instant t (R180); lines of a picture in the wrong format are not (R306, R312). -/
def liveRowReady (p : LivePic) (row : Nat) (t : Rat) : Bool :=
  !p.formatError && !(p.bad.contains row) && (match p.done.get? row with | some x => decide ((x : Rat) ≤ t) | none => false)

/-- Chroma format, RGB and colour code of a live source. -/
def liveFormat (s : State) (l : Layer) : Nat × Bool × Nat :=
  if l.srcKind = 1 then (flowInAt s l.srcIndex).elim (1, false, 0) (fun f => (samplingChroma f.cfg.sampling, f.cfg.sampling == 3, f.cfg.colour))
  else (1, false, Config.sourceColour 2 l.srcIndex % 4)

/-- Source rows of a live layer that output line y reads: those of its luma taps, and in 4:2:0 those that carry the chroma rows it interpolates (R187, R193). -/
def liveRows (s : State) (l : Layer) (y : Nat) : List Nat :=
  let v := y - l.dy
  let luma := (tapRows l.sh l.dh v (isScaled l)).map (fun r => l.sy + r)
  let (chroma, rgb, _) := liveFormat s l
  if chroma = 0 ∧ !rgb then
    let ch := ceilDiv l.dh 2
    let other := if v % 2 = 0 then v / 2 - 1 else min (ch - 1) (v / 2 + 1)
    (luma ++ [v / 2, other].flatMap (fun u => (tapRows (ceilDiv l.sh 2) ch u (isScaled l)).map (fun r => 2 * (l.sy / 2 + r)))).eraseDups
  else luma

/-- Rows of a live layer that are late for an output line due at `limit`: for them the previous picture is used (R180). -/
def lateRows (s : State) (l : Layer) (e : LayerSel) (y : Nat) (limit : Rat) : List Nat :=
  (liveRows s l y).filter (fun row => match e.pick.bind (livePic s l) with | some p => !liveRowReady p row limit | none => true)

/-- The holder's decisions for rows of a layer, taken from what it has sent; none while one is missing (R391). -/
def takeRows (n m layer : Nat) : List Nat → List InputEntry → Option (List Nat × List InputEntry)
  | [], l => some ([], l)
  | row :: r, l =>
    let mine := fun (i : InputEntry) => match i with | .liveLine o' k a run _ p => o' == n && k == layer && p == m && decide (a ≤ row) && decide (row < a + run) | _ => false
    match l.find? mine with
    | some (.liveLine _ _ a run used _) =>
      (takeRows n m layer r (if a + run = row + 1 then l.eraseP mine else l)).map (fun x => (if used then row :: x.1 else x.1, x.2))
    | _ => none

/-- The source of a live layer for one output line: rows of the previous picture stand in for late ones (R180). -/
def liveRaster (s : State) (l : Layer) (e : LayerSel) (prev : List Nat) : Option Raster :=
  match e.pick.bind (livePic s l) with
  | none => none
  | some p =>
    let (chroma, rgb, colour) := liveFormat s l
    let old := e.prior.bind (livePic s l)
    if !prev.isEmpty && old.isNone then none
    else
      let size := (layerSourceSize s l).getD (0, 0)
      some { width := size.1, height := size.2, chroma := chroma, rgba := rgb, colour := colour,
             get := fun plane row col =>
               let luma := if plane ≠ 0 ∧ chroma = 0 ∧ !rgb then 2 * row else row
               segSample (if prev.contains luma then old.elim [] (fun q => q.segs) else p.segs) chroma plane row col }

/-- The black Lighthouse region of a picture without a published buffer, or with a poisoned line (R202, R248). -/
def blackRaster (o : OutCfg) (w h : Nat) : Raster :=
  { width := w, height := h, chroma := o.chroma, rgba := false, colour := o.colour, get := fun plane _ _ => if plane = 0 then 64 else 512 }

/-- What a frozen layer shows (R176, R219). -/
def frozenRaster (z : Frozen) : Option Raster :=
  match z.image with
  | .nothing => none
  | .surface x b => some (surfaceRaster x b)
  | .picture w h chroma colour planes => some (planesRaster w h chroma colour planes)

/-- The source a layer reads on one output line. -/
def lineRaster (s : State) (o : OutCfg) (q : OutPic) (e : LayerSel) (l : Layer) (prev : List Nat) : Option Raster :=
  if q.frozen.has e.layer then (q.frozen.get? e.layer).bind frozenRaster
  else if e.layer = 63 then
    match selBuffer s q e with
    | some (n, b) => (surfAt s n).map (fun x => surfaceRaster x b)
    | none => some (blackRaster o l.sw l.sh)
  else if l.srcKind = 0 ∨ l.srcKind = 4 then (selBuffer s q e).bind (fun nb => (surfAt s nb.1).map (fun x => surfaceRaster x nb.2))
  else if l.srcKind = 3 then
    match decAt s l.srcIndex with
    | none => none
    | some d => (shownPics s l.srcIndex).find? (fun p => some p.number == e.pick) |>.map (fun p =>
        planesRaster d.width d.height (decChroma s l.srcIndex d) (Config.sourceColour 3 l.srcIndex % 4) p.planes)
  else liveRaster s l e prev

/-- Reads of a layer on output line y are poisoned: the memory says so, or a Reef block is in error (R186, R247). -/
def linePoisoned (s : State) (q : OutPic) (e : LayerSel) (l : Layer) (y : Nat) : Bool :=
  match selBuffer s q e with
  | some (n, b) => (surfAt s n).elim false (fun x => (tapRows l.sh l.dh (y - l.dy) (isScaled l)).any (fun r => surfaceRowPoisoned x b (l.sy + r) l.sx l.sw))
  | none => false

/-- The layer parameters of a selection in a picture. -/
def selLayer (s : State) (q : OutPic) (e : LayerSel) : Option Layer :=
  if e.layer = 63 then q.lh.bind (fun l => lighthouseLayer s l.1 l.2.1 l.2.2) else q.layers.get? e.layer

/-- Bytes of one line of the region for the hash (R203). -/
def regionBytes (o : OutCfg) (q : Nat × Nat × Nat × Nat) (l : List Nat × List Nat × List Nat) : List Byte :=
  let cut (v : List Nat) (d : Nat) : List Byte := ((v.drop (q.1 / d)).take (q.2.2.1 / d)).flatMap (le 2)
  cut l.1 1 ++ cut l.2.1 (subX o.chroma) ++ cut l.2.2 (subX o.chroma)

/-- Samples of one picture in a KIND 3 packet: payload bytes, packets of a picture (R329). BPM blocks hold 180 bytes; RTP takes 12 bytes and the ST 2110-20 header 8 (log 31). -/
def videoPackets (o : OutCfg) (maxPayload : Nat) : Nat × Nat :=
  let blocks := (maxPayload - 20) / 180
  let total := ceilRat (((o.width * o.height : Nat) : Rat) * bytesPerPixel o.chroma / 180)
  (blocks, if blocks = 0 then 0 else ceilDiv total blocks)

/-- The packets of line y of a picture that begin in it leave as one emission group of each KIND 3 flow (R140, R310, R329). -/
def videoLine (n m y : Nat) (o : OutCfg) (t : Instant) (s : State) : State :=
  s.net.flowsOut.foldl (fun s e =>
    let w := e.2
    if w.cfg.kind ≠ 3 ∨ w.cfg.srcIndex ≠ n ∨ w.removed then s
    else
      let (blocks, pkts) := videoPackets o w.cfg.maxPayload
      let mine := (List.range pkts).filter (fun j => j * o.height / pkts == y)
      match mine with
      | [] => s
      | j0 :: _ =>
        let trs : Rat := (o.height : Rat) * outLineNs o / (pkts : Rat)
        let total := ceilRat (((o.width * o.height : Nat) : Rat) * bytesPerPixel o.chroma / 180)
        let len (j : Nat) : Nat := rtpFrame w.cfg (8 + 180 * min blocks (total - blocks * j))
        (addGroup e.1 ((t : Rat) + nsQ (outLatency o + 2 * outLineNs o + (j0 : Rat) * trs)) (mine.map len) (nsQ trs) m y false {} s).1) s

/-- Selections of a picture with their layers, and those that cover output line y. -/
def pictureLayers (s : State) (q : OutPic) : List (LayerSel × Layer) := q.sels.filterMap (fun e => (selLayer s q e).map (fun l => (e, l)))
def layersOn (s : State) (q : OutPic) (y : Nat) : List (LayerSel × Layer) := (pictureLayers s q).filter (fun p => decide (p.2.dy ≤ y) && decide (y < p.2.dy + p.2.dh))

/-- Layers on output line y that read a live source. -/
def liveOn (s : State) (q : OutPic) (y : Nat) : List (LayerSel × Layer) :=
  (layersOn s q y).filter (fun p => p.1.layer != 63 && (p.2.srcKind == 1 || p.2.srcKind == 2) && p.1.pick.isSome && !(q.frozen.has p.1.layer))

/-- Instant of output line y of a picture (R180). -/
def lineInstant (o : OutCfg) (q : OutPic) (y : Nat) : Rat := (q.tOut : Rat) + nsQ ((y : Rat) * outLineNs o)

/-- The decisions of R180 for output line y, by layer; a standby in lockstep takes those of the holder (R391). -/
def decideLine (s : State) (n m : Nat) (o : OutCfg) (q : OutPic) (y : Nat) (inputs : List InputEntry) : Option (FMap (List Nat) × List InputEntry) :=
  (liveOn s q y).foldl (fun (a : Option (FMap (List Nat) × List InputEntry)) p => a.bind (fun a =>
    if isStandby s && inLockstep s then (takeRows n m p.1.layer (liveRows s p.2 y) a.2).map (fun t => (a.1.set p.1.layer t.1, t.2))
    else some (a.1.set p.1.layer (lateRows s p.2 p.1 y (lineInstant o q y)), a.2))) (some ([], inputs))

/-- Lines of the chroma group that begins with line y (R190). -/
def groupLines (o : OutCfg) (y : Nat) : List Nat := (List.range (min (subY o.chroma) (o.height - y))).map (fun i => y + i)

/-- The decisions for every line of a group; a line of 4:2:0 chroma takes in both (R180, R191). -/
def decideLines (s : State) (n m : Nat) (o : OutCfg) (q : OutPic) (ys : List Nat) : Option (FMap (FMap (List Nat)) × List InputEntry) :=
  ys.foldl (fun (a : Option (FMap (FMap (List Nat)) × List InputEntry)) y => a.bind (fun a =>
    (decideLine s n m o q y a.2).map (fun d => (a.1.set y d.1, d.2)))) (some ([], s.pair.inputs))

/-- The holder sends its decisions for the lines of a group, one entry a row (R391). -/
def sendDecisions (n m : Nat) (q : OutPic) (ys : List Nat) (d : FMap (FMap (List Nat))) (s : State) : State :=
  (ys.flatMap (fun y => (liveOn s q y).flatMap (fun p => (liveRows s p.2 y).map (fun row =>
    InputEntry.liveLine n p.1.layer row 1 (((d.getD y []).getD p.1.layer []).contains row) m)))).foldl (fun s e => sendInput e s) s

/-- At the first line of a chroma group the sources of all its lines are decided; none: the holder's decisions are not all here (R180, R190, R391). -/
def groupDecided (n m y : Nat) (o : OutCfg) (q : OutPic) (s : State) : Option (OutPic × State) :=
  if y % subY o.chroma ≠ 0 then some (q, s)
  else
    let ys := groupLines o y
    (decideLines s n m o q ys).map (fun d =>
      ({ q with decided := d.1 }, if isStandby s then { s with pair.inputs := d.2 } else sendDecisions n m q ys d.1 s))

/-- Reads of a layer on output line y are poisoned: the operand names layer + 64 × the line's place in its chroma group, or the memory says so (R186, R247). -/
def layerPoisoned (s : State) (o : OutCfg) (q : OutPic) (poisoned : List Nat) (p : LayerSel × Layer) (y : Nat) : Bool :=
  poisoned.contains (p.1.layer + 64 * (y % subY o.chroma)) || (!(q.frozen.has p.1.layer) && linePoisoned s q p.1 p.2 y)

/-- The source of a layer on output line y: nothing outside it and on a line of a poisoned ordinary layer; black on one of the Lighthouse layer (R181, R202, R248). -/
def layerSource (s : State) (o : OutCfg) (q : OutPic) (poisoned : List Nat) (p : LayerSel × Layer) (y : Nat) : Option Raster :=
  if !(decide (p.2.dy ≤ y) && decide (y < p.2.dy + p.2.dh)) then none
  else if layerPoisoned s o q poisoned p y then (if p.1.layer = 63 then some (blackRaster o p.2.sw p.2.sh) else none)
  else lineRaster s o q p.1 p.2 ((q.decided.getD y []).getD p.1.layer [])

/-- The selection of a layer one of whose lines was poisoned: content time 0 in this picture, so stale whenever it has a limit (Table 8.7). -/
def poisonedSel (q : OutPic) (e : LayerSel) : LayerSel :=
  let g := staleness (instantNs q.tOut) 0 (q.maxAges.getD e.layer 0)
  { e with contentNs := 0, stale := g.1, bars := g.2 }

/-- Poisoned lines of layers are counted, and PF0 hears of them (R248). -/
def countPoisonLines (n m owner k : Nat) (s : State) : State :=
  if k = 0 then s
  else journalAdd { s with mem.poisonReads := (s.mem.poisonReads + k) % 2 ^ 32, mem.poisonLines := (s.mem.poisonLines + k) % 2 ^ 32, mem.ueSrc := true } 4 8 owner 2 n m

/-- OUTPUT_LINE_COMPOSE (R180, R189 to R192): the next line of the earliest picture in composition, once the last line of its chroma group is due. `poisoned`: layers whose reads are poisoned (R248). -/
def composeNext (n : Nat) (poisoned : List Nat) (s : State) : State :=
  match outAt s n with
  | none => s
  | some o =>
    match o.pics.find? (fun e => decide (e.2.nextLine < o.cfg.height)) with
    | none => s
    | some (m, q0) =>
      let y := q0.nextLine
      let last := min (o.cfg.height - 1) (y - y % subY o.cfg.chroma + subY o.cfg.chroma - 1)
      if localQ s < lineInstant o.cfg q0 last || !composeClocks s || !compIn s o.compositor then s
      else match groupDecided n m y o.cfg q0 s with
        | none => s
        | some (q, s) =>
          let bad := (layersOn s q y).filter (fun p => layerPoisoned s o.cfg q poisoned p y)
          let sels := q.sels.map (fun e => if bad.any (fun p => p.1.layer == e.layer) then poisonedSel q e else e)
          let drawn : List Drawn := sels.filterMap (fun e => (selLayer s q e).map (fun l =>
            { number := e.layer, layer := l, src := layerSource s o.cfg q poisoned (e, l), stale := e.stale, bars := e.bars }))
          let region := lhRegion s q.lh
          let line := composeLine o.cfg drawn region y
          let late := sumBy (fun (e : Nat × List Nat) => e.2.length) (q.decided.getD y [])
          let hash := match region with
            | some r => if r.2.1 ≤ y ∧ y < r.2.1 + r.2.2.2 then BitVec.ofNat 32 (crcRun 0 q.hash.toNat (regionBytes o.cfg r line)) else q.hash
            | none => q.hash
          let q' : OutPic := { q with nextLine := y + 1, hash := hash, sels := sels, stale := staleBits sels, lines := q.lines.set y line }
          let s := modOut s n (fun o => { o with pics := o.pics.set m q', lateSrcLines := (o.lateSrcLines + late) % 2 ^ 32, stale := if o.outPicture = m then q'.stale else o.stale,
                                                 history := o.history.map (fun h => if h.1 = m then (h.1, h.2.1, (leastContent sels).getD h.2.2) else h) })
          let s := countPoisonLines n m o.owner.val bad.length s
          let s := emit s (.line n m y line.1 line.2.1 line.2.2)
          videoLine n m y o.cfg q.tOut s
def execOutputLineCompose (dt : Nat) (o : Fin 32) (poisoned : List Nat) (s : State) : Host.Outcome State Fault Refusal := .next (actAfter dt s (composeNext o.val poisoned))

/-- OUTPUT_PICTURE_COMPLETE (R183): picture m of output n has its last line in the ring; its TO_SURFACE buffer is m mod 3 (log 32). -/
def completeOutPicture (n m : Nat) (s : State) : State :=
  match outAt s n with
  | none => s
  | some o =>
    match o.pics.get? m with
    | none => s
    | some q =>
      let due : Rat := (q.tOut : Rat) + nsQ ((o.cfg.height : Rat) * outLineNs o.cfg + outLatency o.cfg)
      if q.nextLine < o.cfg.height || decide (localQ s < due) then s
      else
        let s := match o.cfg.toSurface with
          | some f => modSurf s f (fun x => (pictureRuns x q.lines).foldl (fun x r => writeBuffer x (m % 3) r.1 r.2) x)
          | none => s
        let hash := if q.lh.isSome then q.hash ^^^ 0xFFFFFFFF else 0
        let s := modOut s n (fun o => { o with pics := o.pics.erase m, regionHash := hash,
                                               done := (o.done.set m { lh := q.lh, hash := hash, stale := q.stale, lines := q.lines }).drop (o.done.length - 127) })
        settleSurfaces s
def execOutputPictureComplete (dt : Nat) (o : Fin 32) (m : Nat) (s : State) : Host.Outcome State Fault Refusal := .next (actAfter dt s (completeOutPicture o.val m))

end Sys2Proof.Machine
end

