-- ==== Sys2Proof/Machine/Decoders.lean ====
section
/-! DEFINITION. Decoders: placement, opening, policy, closing, decoding, concealment, hash verification, presentation, status (R212 to R230, R248). -/

namespace Sys2Proof.Machine

/-- κ of a codec (R212). -/
def kappa (codec : Nat) : Nat := if codec = 1 then 2 else 1

/-- t_pic in ns (R213): 1 pixel per ns. -/
def tPic (d : Decoder) : Nat := kappa d.codec * d.width * d.height

/-- Weighted load of a decoder in pixel/ns (R212). -/
def decLoad (d : Decoder) : Rat := (kappa d.codec : Rat) * decPixels d

/-- The decoders placed on engine e. -/
def onEngine (s : State) (e : Nat) : List (Nat × Decoder) := s.decs.filter (fun x => x.2.engine == e)

/-- t_min in ns on an engine that holds the decoders listed, the new one included (R213). -/
def tMin (ds : List Decoder) : Nat := sumBy tPic ds + 50000

/-- A LAG in µs is at least t_min. -/
def lagCovers (lag tmin : Nat) : Bool := decide (tmin ≤ lag * 1000)

/-- The engine takes the new decoder as far as the others and the rate are concerned (R212, R214): everything but the new decoder's own LAG. -/
def engineTakes (s : State) (d : Decoder) (e : Nat) : Bool :=
  let old := (onEngine s e).map (fun x => x.2)
  decEngineIn s e && decide (sumRat decLoad (d :: old) ≤ 1) && old.all (fun x => lagCovers x.lag (tMin (d :: old)))

/-- t_min of the new decoder on engine e. -/
def newTMin (s : State) (d : Decoder) (e : Nat) : Nat := tMin (d :: (onEngine s e).map (fun x => x.2))

/-- The least loaded engine of a list, the lower number on a tie (R214). -/
def leastLoaded (s : State) (l : List Nat) : Option Nat :=
  let load (e : Nat) : Rat := sumRat (fun x => decLoad x.2) (onEngine s e)
  l.foldl (fun b e => match b with | none => some e | some c => if load e < load c then some e else some c) none

/-- The source of DEC_OPEN belongs to another function (R72). -/
def decForeign (ci : CmdIn) (s : State) : Bool :=
  let i := fld ci.p 3 15 0
  if flag ci.p 2 0 then (chanAt s i).elim false (fun c => c.owner.val != ci.f) else (flowInAt s i).elim false (fun w => w.owner.val != ci.f)

/-- The decoder that DEC_OPEN describes (Table 7.1); a confidence decoder takes its geometry from the channel (R216). None: a parameter that is not legal. -/
def decOf (ci : CmdIn) (s : State) : Option Decoder :=
  let p := ci.p
  let base : Decoder := { owner := Fin.ofNat 32 ci.f, srcKind := fld p 2 0 0, codec := fld p 2 2 1, presMode := fld p 2 3 3, ctMode := fld p 2 4 4, srcIndex := fld p 3 15 0,
                          width := fld p 4 15 0, height := fld p 4 31 16, rateNum := word p 5, rateDen := fld p 6 15 0, lag := word p 7, engine := 0 }
  if base.srcKind = 0 then
    match flowInAt s base.srcIndex with
    | none => none
    | some w =>
      if base.codec = 3 || !(w.cfg.kind == 1 || w.cfg.kind == 2) || (base.rateDen != 1000 && base.rateDen != 1001) || base.rateNum == 0 || base.width == 0 || base.height == 0
          || decide (1000000 < base.lag) || (base.presMode == 1 && (w.cfg.kind == 2 || s.time.ptp.st != .locked)) then none
      else some base
  else
    match chanAt s base.srcIndex with
    | none => none
    | some c =>
      if base.codec ≠ 0 ∨ (base.presMode = 1 ∧ s.time.ptp.st ≠ .locked) then none
      else
        match c.cfg, c.profile with
        | some g, some pr => some { base with width := g.width, height := g.height, rateNum := g.rateNum, rateDen := g.rateDen, codec := pr.codec, lag := 0, st := 3 }
        | _, _ => some { base with width := 0 }

/-- DEC_OPEN (R212 to R216). -/
def runDecOpen (ci : CmdIn) (s : State) : CmdRes :=
  match decOf ci s with
  | none => refuse s stBadParam
  | some d =>
    let takers := (List.range 4).filter (engineTakes s d)
    let fits := takers.filter (fun e => d.lag == 0 || lagCovers d.lag (newTMin s d e))
    let short := if d.lag ≠ 0 ∧ fits.isEmpty then leastLoaded s takers else none
    match short with
    | some e => .done s stBadParam 0 (ceilDiv (newTMin s d e) 1000) 0
    | none =>
      if d.srcKind = 1 ∧ (d.width = 0 ∨ (chanAt s d.srcIndex).elim true (fun c => c.st == .draining)) then refuse s stBadState
      else match s.decs.lowestFree 32 with
        | none => refuse s stNoResource
        | some n =>
          match leastLoaded s fits with
          | none => .done s stCapacity 0 0x200 0xFFFFFFFF
          | some e =>
            let d := { d with engine := e, lag := if d.lag = 0 then ceilDiv (newTMin s d e) 1000 else d.lag }
            let s' := setDec s n d
            if s.mem.noFit || !regionFits s' (poolWith s none none) 11 then refuse s stNoResource
            else match memoryCheck s' (poolWith s none none) 0 0 with
              | some c => .done s stCapacity 0 c 0xFFFFFFFF
              | none => .done s' stOk 0 n e

def meanDecOpen : Meaning := { deny := decForeign, run := runDecOpen }

/-- Decoder named in word 2 belongs to another function. -/
def denyDec (ci : CmdIn) (s : State) : Bool := (decAt s (fld ci.p 2 4 0)).elim false (fun d => d.owner.val != ci.f)

/-- DEC_POLICY (R219): it completes at the next Tide boundary, where `applyDecPolicy` acts. -/
def runDecPolicy (ci : CmdIn) (s : State) : CmdRes :=
  if (decAt s (fld ci.p 2 4 0)).isNone || fld ci.p 3 2 1 == 3 then refuse s stBadParam else pendTide ci s
def meanDecPolicy : Meaning := { deny := denyDec, run := runDecPolicy }
def applyDecPolicy (p : Packet) (s : State) : State := modDec s (fld p 2 4 0) (fun d => { d with errMode := fld p 3 0 0, hashAction := fld p 3 2 1 })

/-- A staged, waiting or applied layer uses decoder n (R219). -/
def decHeld (s : State) (n : Nat) : Bool :=
  decUsed s n || s.outs.any (fun e => (e.2.stage ++ e.2.commits.flatMap (fun c => c.changes)).any (fun c => match c with
    | .set _ l => l.srcKind == 3 && l.srcIndex == n | _ => false))

/-- DEC_CLOSE (R219). -/
def runDecClose (ci : CmdIn) (s : State) : CmdRes :=
  let n := fld ci.p 2 4 0
  match decAt s n with
  | none => refuse s stBadParam
  | some _ => if decHeld s n then refuse s stBadState else .done { freezeDecoder n s with decs := (freezeDecoder n s).decs.erase n } stOk 0 0 0
def meanDecClose : Meaning := { deny := denyDec, run := runDecClose }

/-- The 32-byte decoder status record (Table 7.5). -/
def decRecord (n : Nat) (d : Decoder) : List Byte :=
  le 1 n ++ le 1 d.engine ++ le 1 d.st ++ le 1 (d.lastConcealed.toNat + d.lastHashFailed.toNat * 2 + d.upstreamFlag.toNat * 4)
    ++ le 4 d.pictures ++ le 4 d.concealed ++ le 4 d.missingRefs ++ le 4 d.syntaxErrors ++ le 4 d.hashFail ++ le 4 d.lateArrivals ++ le 4 d.lateDecodes

/-- Its extension in the answer of DEC_STATUS (Table 7.6). -/
def decExtension (d : Decoder) : List Byte :=
  le 4 d.pktLost ++ le 4 d.hashOk ++ le 4 d.hashBadSei ++ le 4 d.reconMismatch ++ le 4 d.ctFallback ++ le 4 d.oversize ++ le 8 d.upstreamStale.toNat

/-- DEC_STATUS (R230). -/
def runDecStatus (ci : CmdIn) (s : State) : CmdRes :=
  let n := fld ci.p 5 4 0
  match decAt s n with
  | none => refuse s stBadParam
  | some d => .answer s (decRecord n d ++ decExtension d) 0 0
def meanDecStatus : Meaning := { deny := fun ci s => (decAt s (fld ci.p 5 4 0)).elim false (fun d => d.owner.val != ci.f), run := runDecStatus }

/-- A decoder that works: its clocks run (Table 16.2). -/
def decodeClocks (s : State) : Bool := !(clockLost s .fab || clockLost s .hbm || clockLost s .qdr)

/-- Presentation instant of the picture of a decoder's next access unit (R217): media time; or LAG after the last packet of the access unit that makes it due, `after` units later. None: that one has not come. -/
def headInstant (d : Decoder) (after : Nat) : Option Instant :=
  if d.presMode = 1 then d.aus.head?.map (fun u => u.present)
  else (d.aus[after]?).map (fun u => u.last + nsInstant (d.lag * 1000))

/-- An instant comes before another; one that is not known yet comes last. -/
def sooner (a b : Option Instant) : Bool := match a, b with | some x, some y => decide (x < y) | some _, none => true | none, _ => false

/-- The decoder whose access unit engine e decodes next: the earliest presentation instant, the lower number on a tie (R213). `dueAfter`: by decoder, how many access units later the one that makes its picture due comes. -/
def nextDecoder (s : State) (e : Nat) (dueAfter : List (Nat × Nat)) : Option Nat :=
  (onEngine s e).foldl (fun (b : Option (Nat × Option Instant)) x =>
    let t := headInstant x.2 ((dueAfter.find? (fun y => y.1 == x.1)).elim 0 (fun y => y.2))
    if x.2.aus.isEmpty then b else match b with
      | none => some (x.1, t)
      | some c => if sooner t c.2 then some (x.1, t) else b) none |>.map (fun c => c.1)

/-- Rows of a plane of one value. -/
def flatPlane (w h v : Nat) : List (List Nat) := List.replicate h (List.replicate w v)

/-- The black picture of R222. -/
def blackPicture (w h chroma : Nat) : Planes :=
  let cw := if chroma = 2 then w else w / 2
  let ch := if chroma = 0 then h / 2 else h
  { y := flatPlane w h 64, cb := flatPlane cw ch 512, cr := flatPlane cw ch 512 }

/-- Size of a decoded picture after cropping (R221). -/
def croppedSize (a : AuIn) : Nat × Nat := (a.width - a.crop.1 - a.crop.2.1, a.height - a.crop.2.2.1 - a.crop.2.2.2)

/-- The stored planes: cropped by the conformance window, 8-bit samples as v << 2 (R221). -/
def storedPlanes (a : AuIn) : Planes :=
  let chroma := if a.chromaIdc = 0 then 0 else a.chromaIdc - 1
  let (w, h) := croppedSize a
  let cut := fun (dx dy : Nat) (l : List (List Nat)) =>
    ((l.drop (a.crop.2.2.1 / dy)).take (ceilDiv h dy)).map (fun r => ((r.drop (a.crop.1 / dx)).take (ceilDiv w dx)).map (fun v => if a.eightBit then v * 4 else v))
  { y := cut 1 1 a.samples.y, cb := cut (subX chroma) (subY chroma) a.samples.cb, cr := cut (subX chroma) (subY chroma) a.samples.cr }

/-- One plane with areas of it (x, y, w, h in its own samples) taken from another, or of one value where there is none (R222). -/
def patchPlane (from' : Option (List (List Nat))) (v : Nat) (areas : List (Nat × Nat × Nat × Nat)) (p : List (List Nat)) : List (List Nat) :=
  p.zipIdx.map (fun r => r.1.zipIdx.map (fun c =>
    if areas.any (fun e => decide (e.1 ≤ c.2) && decide (c.2 < e.1 + e.2.2.1) && decide (e.2.1 ≤ r.2) && decide (r.2 < e.2.1 + e.2.2.2)) then
      from'.elim v (fun g => (g.getD r.2 []).getD c.2 v)
    else c.1))

/-- Concealed areas filled with the co-located samples of the last good picture, or with black (R222). -/
def concealAreas (chroma : Nat) (good : Option Planes) (areas : List (Nat × Nat × Nat × Nat)) (p : Planes) : Planes :=
  if areas.isEmpty then p
  else
    let half := fun (e : Nat × Nat × Nat × Nat) =>
      let x := if chroma = 2 then (e.1, e.2.2.1) else (e.1 / 2, (e.1 + e.2.2.1 + 1) / 2 - e.1 / 2)
      let y := if chroma = 0 then (e.2.1 / 2, (e.2.1 + e.2.2.2 + 1) / 2 - e.2.1 / 2) else (e.2.1, e.2.2.2)
      (x.1, y.1, x.2, y.2)
    { y := patchPlane (good.map (fun g => g.y)) 64 areas p.y, cb := patchPlane (good.map (fun g => g.cb)) 512 (areas.map half) p.cb,
      cr := patchPlane (good.map (fun g => g.cr)) 512 (areas.map half) p.cr }

/-- Samples [x, x + w) of row y of a plane. -/
def planeRun (p : List (List Nat)) (y x w : Nat) : List Byte := (((p.getD y []).drop x).take w).flatMap (le 2)

/-- The message M of a region-hash SEI message, rebuilt from decoded samples (R203, R226). -/
def hashMessage (chroma : Nat) (p : Planes) (h : HashSei) : List Byte :=
  let x := h.x.toNat
  let y := h.y.toNat
  let w := h.w.toNat
  hashPrefix h.output.toNat h.outPicture.toNat chroma x y w h.h.toNat ++ (List.range h.h.toNat).flatMap (fun i =>
    let row := y + i
    planeRun p.y row x w ++ (if chroma = 0 ∧ i % 2 = 1 then []
      else
        let cr := if chroma = 0 then row / 2 else row
        let cx := if chroma = 2 then x else x / 2
        let cw := if chroma = 2 then w else w / 2
        planeRun p.cb cr cx cw ++ planeRun p.cr cr cx cw))

/-- A region-hash message is not verified: its region leaves the picture, or the stream is 8-bit or 4:0:0 (R226). -/
def hashBad (a : AuIn) (p : Planes) (h : HashSei) : Bool :=
  a.eightBit || a.chromaIdc == 0 || decide (p.y.length < h.y.toNat + h.h.toNat) || decide ((p.y.getD 0 []).length < h.x.toNat + h.w.toNat)

/-- NAL units of an access unit that the decoder takes (R220); a confidence decoder takes its channel's NAL units as they are (R228). -/
def takenUnits (s : State) (d : Decoder) (u : AuWait) : List (List Byte) :=
  if d.srcKind = 1 then u.data.filterMap id
  else baseUnits d.codec ((flowInAt s d.srcIndex).elim false (fun f => f.cfg.kind == 2)) u.data

/-- What the NAL units of an ingested stream decode to is a function of them (R224): the first decoding fixes it; the operand gives it where there was none. What the hardware meets on the way is no part of it. -/
def factsOf (s : State) (d : Decoder) (units : List (List (List Byte))) (a : AuIn) : AuIn :=
  match s.decodes.find? (fun e => d.srcKind == 0 && e.codec == d.codec && e.units == units) with
  | some e => { e.facts with decoder := a.decoder, dueAfter := a.dueAfter, poisoned := a.poisoned, parityOk := a.parityOk }
  | none => a

/-- An ingested stream's decoding is kept (R224). -/
def noteDecoding (d : Decoder) (units : List (List (List Byte))) (a : AuIn) (s : State) : State :=
  if d.srcKind = 0 && !(s.decodes.any (fun e => e.codec == d.codec && e.units == units)) then { s with decodes := s.decodes ++ [{ codec := d.codec, units := units, facts := a }] } else s

/-- Errors of Table 7.4 in an access unit: a gap in its packets, units of bad syntax, parameter sets outside Table 7.3, and what the engine finds in the rest. -/
def auErrors (d : Decoder) (u : AuWait) (taken : List (List Byte)) (a : AuIn) : List DecError :=
  a.errors.filter (fun e => e != .packetLoss) ++ (if u.data.any (fun x => x.isNone) then [.packetLoss] else [])
    ++ (taken.filter badUnit).map (fun _ => .nalSyntax) ++ (if decodable d.codec a.profile a.level then [] else [.parameterSet])

/-- What an access unit does to a decoder: whether it is decoded at all, and what of it is concealed (R220, R222, R223). -/
structure AuPlan where
  oversize : Bool
  /-- the picture is in error itself -/
  own : Bool
  /-- whole picture concealed -/
  whole : Bool
  concealed : Bool
  /-- decoded without error at an IRAP or a completed recovery: concealment ends (R223) -/
  clean : Bool
  errors : Nat
  /-- a parameter set in error stays without effect, and what uses it is concealed whole, until an IRAP picture with valid ones -/
  badSets : Bool

/-- The plan of an access unit with these errors. A missing reference is replaced by the good picture, which then fills the whole picture (Table 7.4, R223). -/
def auPlan (d : Decoder) (errors : List DecError) (a : AuIn) : AuPlan :=
  let (w, h) := croppedSize a
  let oversize := decide (d.width < w) || decide (d.height < h) || errors.contains .oversize
  let badSets := errors.contains .parameterSet || (d.badSets && !a.irap)
  let own := oversize || !errors.isEmpty || badSets || decide (0 < a.missingRefs) || !a.parityOk || a.poisoned || !a.conceal.isEmpty
  let clean := !own && (a.irap || a.recoveryDone)
  let held := d.errMode == 1 && d.concealing && !clean
  { oversize := oversize, own := own, whole := oversize || badSets || decide (0 < a.missingRefs) || held, concealed := own || held || (a.usesConcealed && d.concealing && !clean),
    clean := clean, errors := (errors.filter (fun e => e != .packetLoss && e != .missingReference && e != .oversize)).length + oversize.toNat, badSets := badSets }

/-- The content time of a decoded picture (R218): an instant of the stream, the loss flag's, or that of the picture it was concealed from. The second part: CT_FALLBACK counts. -/
def contentTime (d : Decoder) (a : AuIn) (plan : AuPlan) (first : Instant) : Nat × Bool :=
  let fallback := d.ctMode == 1 && a.timingTref.isNone
  let own := if d.ctMode = 1 then (a.timingTref.elim (instantNs first) instantNs) else instantNs first
  if plan.concealed ∧ d.good.isSome then (d.good.elim own (fun g => g.contentNs), fallback)
  else if a.lossFlag then (d.heldContent.getD own, fallback)
  else (own, fallback)

/-- The access unit's stamps: on a standby in lockstep those of the holder (R391); none while they have not arrived. -/
def auStamps (s : State) (n : Nat) (u : AuWait) : Option (Instant × Instant) :=
  if isStandby s && inLockstep s then
    s.pair.inputs.findSome? (fun i => match i with | .decStamp d k x y => if d = n ∧ k = u.serial then some (x, y) else none | _ => none)
  else some (u.first, u.last)

/-- Hash messages of a picture: matches, mismatches, messages not verified (R226, R227). -/
def hashTally (a : AuIn) (chroma : Nat) (p : Planes) : Nat × Nat × Nat :=
  let bad := a.hashes.filter (hashBad a p)
  let good := a.hashes.filter (fun h => !hashBad a p h)
  let ok := good.filter (fun h => crc32c (hashMessage chroma p h) == h.hash.toNat)
  (ok.length, good.length - ok.length, bad.length)

/-- CRC-32C of a luma plane in raster order, two bytes a sample, least significant first (R228). -/
def lumaCrc (y : List (List Nat)) : Nat := crc32c (y.flatten.flatMap (le 2))

/-- Luma of the reconstruction that the channel's Isles wrote for picture m (R228). -/
def chanLuma (s : State) (c m : Nat) : List (List Nat) :=
  match chanAt s c with
  | none => []
  | some x => match ctlOf s x, x.run.pics.get? m with
    | some k, some q => (List.range k.cfg.height).map (fun r => (List.range k.cfg.width).map (fun col => reconSample k q 0 r col))
    | _, _ => []

/-- Luma decoded by a confidence decoder differs from the channel's reconstruction (R228). -/
def reconDiffers (s : State) (d : Decoder) (u : AuWait) (p : Planes) : Bool :=
  d.srcKind == 1 && lumaCrc p.y != lumaCrc (u.coded.elim [] (chanLuma s d.srcIndex))

/-- A picture that was decoded before an access unit made it due: its instant; decoded after that instant it is late and not presented (R217, R225). -/
def givenInstant (due : Instant) (k : DecPic) : DecPic := { k with present := some due, show' := k.show' && decide (k.decoded ≤ due) }

/-- The decoded picture of an access unit, with its counters (R217 to R228). -/
def decodeAu (n : Nat) (d : Decoder) (u : AuWait) (first last : Instant) (taken : List (List Byte)) (a : AuIn) (s : State) : State :=
  let errors := auErrors d u taken a
  let plan := auPlan d errors a
  let chroma := if a.chromaIdc = 0 then 0 else a.chromaIdc - 1
  let stored := storedPlanes a
  let (w, h) := croppedSize a
  let planes := if plan.whole then (d.good.elim (blackPicture (min w d.width) (min h d.height) chroma) (fun g => g.planes)) else concealAreas chroma (d.good.map (fun g => g.planes)) a.conceal stored
  let (content, fallback) := contentTime d a plan first
  let (ok, failed, bad) := hashTally a chroma planes
  -- the instant of the picture itself, and of the earlier pictures that this access unit makes due (R217)
  let due := last + nsInstant (d.lag * 1000)
  let present := if d.presMode = 1 then some u.present else if a.outputs.contains 0 then some due else none
  let nowDue := fun (k : DecPic) => k.present.isNone && a.outputs.contains (d.nextNumber - k.number)
  let lateEarly := (d.waiting.filter (fun k => nowDue k && decide (due < k.decoded))).length
  let tmin := nsInstant (tMin ((onEngine s d.engine).map (fun x => x.2)))
  let lateArrival := present.elim false (fun p => decide (p < last + tmin))
  let lateDecode := !lateArrival && present.elim false (fun p => decide (p < s.time.local'))
  let late := lateEarly + lateDecode.toNat
  let recovering := d.recovering && !a.recoveryDone && !a.irap
  let pic : DecPic := { present := present, contentNs := if 0 < failed ∧ d.hashAction = 1 then 0 else content, planes := planes, concealed := plan.concealed,
                        number := d.nextNumber, decoded := s.time.local',
                        show' := !recovering && !lateArrival && !lateDecode && !(decide (0 < failed) && d.hashAction == 2) }
  let recon := reconDiffers s d u planes
  let concealing := plan.concealed || (d.concealing && !plan.clean)
  let s := modDec s n (fun d => { d with
    aus := d.aus.drop 1, chroma := some chroma, startedAt := true, recovering := recovering, concealing := concealing, badSets := plan.badSets,
    heldContent := if a.lossFlag then d.heldContent else some pic.contentNs,
    good := if plan.concealed then d.good else some pic, waiting := d.waiting.map (fun k => if nowDue k then givenInstant due k else k) ++ [pic], nextNumber := d.nextNumber + 1,
    lastHashFailed := if a.hashes.isEmpty then d.lastHashFailed else if ok + failed = 0 then d.lastHashFailed else decide (0 < failed),
    hashFailSrc := d.hashFailSrc || decide (0 < failed),
    pictures := if plan.oversize then d.pictures else inc32 d.pictures, concealed := if plan.concealed then inc32 d.concealed else d.concealed,
    missingRefs := (d.missingRefs + a.missingRefs) % 2 ^ 32, syntaxErrors := (d.syntaxErrors + plan.errors) % 2 ^ 32,
    hashFail := (d.hashFail + failed) % 2 ^ 32, hashOk := (d.hashOk + ok) % 2 ^ 32, hashBadSei := (d.hashBadSei + bad) % 2 ^ 32,
    lateArrivals := if lateArrival then inc32 d.lateArrivals else d.lateArrivals, lateDecodes := (d.lateDecodes + late) % 2 ^ 32,
    reconMismatch := if recon then inc32 d.reconMismatch else d.reconMismatch,
    ctFallback := if fallback then inc32 d.ctFallback else d.ctFallback, oversize := if plan.oversize then inc32 d.oversize else d.oversize,
    upstreamStale := a.staleFlags.elim d.upstreamStale (fun f => f.2), upstreamFlag := a.staleFlags.elim d.upstreamFlag (fun f => f.1) })
  let s := { s with pair.inputs := s.pair.inputs.filter (fun i => match i with | .decStamp m k _ _ => !(m == n && k == u.serial) | _ => true) }
  let s := if d.srcKind = 1 ∧ (plan.own ∨ 0 < failed ∨ recon) then modChan s d.srcIndex (fun c => { c with confidence := true }) else s
  let s := if 0 < late then journalAdd s 8 8 d.owner.val 3 n d.nextNumber else s
  let s := if a.poisoned then poisonRead 8 d.owner.val 3 n d.nextNumber s else s
  let s := setDecState n (if d.srcKind = 1 then 3 else if concealing then 2 else 1) s
  let s := if a.irap then joined 3 n s else s
  if a.parityOk then s else engineFault 2 d.engine d.owner.val 3 n d.nextNumber s

/-- Decoder n takes the access unit at its front (R220): before a start point, and for a RASL picture of the starting CRA, it is discarded. -/
def takeAu (n : Nat) (d : Decoder) (u : AuWait) (first last : Instant) (a0 : AuIn) (s : State) : State :=
  let taken := takenUnits s d u
  let units := d.history ++ [taken]
  let a := factsOf s d units a0
  let s := modDec (noteDecoding d units a s) n (fun d => { d with history := if d.srcKind = 0 then units else [] })
  let skip := modDec s n (fun d => { d with aus := d.aus.drop 1 })
  if !d.startedAt && !a.startPoint then skip
  else if a.rasl then skip
  else decodeAu n (if d.startedAt then d else { d with recovering := !a.irap && !a.recoveryDone }) u first last taken a s

/-- ACCESS_UNIT_DECODE (R213, R220 to R228): engine e decodes its earliest pending access unit. -/
def accessUnitDecode (e : Nat) (a : AuIn) (s : State) : State :=
  let n := a.decoder.val
  if !decodeClocks s || !decEngineIn s e || nextDecoder s e a.dueAfter != some n then s
  else match decAt s n with
    | none => s
    | some d => match d.aus.head? with
      | none => s
      | some u => match auStamps s n u with
        | none => s
        | some (first, last) => if decStopped s n d then s else takeAu n d u first last a s

/-- Decoded pictures that an output picture in progress, or the last selection of an output, still reads (R221). -/
def decRead (s : State) (n k : Nat) : Bool :=
  s.outs.any (fun e =>
    let uses (layers : FMap Layer) (l : LayerSel) : Bool := l.pick == some k && (layers.get? l.layer).elim false (fun y => y.srcKind == 3 && y.srcIndex == n)
    e.2.pics.any (fun q => q.2.sels.any (uses q.2.layers)) || e.2.lastSels.any (uses e.2.layers))

/-- PRESENTATION_INSTANT (R217, R221, R225): decoded pictures whose instant has come become the presented ones; three presentation buffers, and the pictures outputs still read, stay. -/
def presentPictures (n : Nat) (s : State) : State :=
  match decAt s n with
  | none => s
  | some d =>
    let isDue := fun (p : DecPic) => p.present.elim false (fun t => decide (t ≤ s.time.local'))
    let due := sortOn (fun p => p.present.getD 0) (d.waiting.filter isDue)
    if due.isEmpty || !decodeClocks s then s
    else
      let shown := due.filter (fun p => p.show')
      let all := shown.reverse ++ d.presented
      modDec s n (fun d => { d with
        waiting := d.waiting.filter (fun p => !isDue p),
        presented := all.take 3 ++ (all.drop 3).filter (fun p => decRead s n p.number),
        lastConcealed := shown.getLast?.elim d.lastConcealed (fun p => p.concealed) })

/-- DEC_OPEN (R216). -/
def execDecOpen (q : FlowRef) (b : Bus) (s : State) : Host.Outcome State Fault Refusal := .next (startRow 0x0501 meanDecOpen q b s)
/-- DEC_CLOSE (R219). -/
def execDecClose (q : FlowRef) (b : Bus) (s : State) : Host.Outcome State Fault Refusal := .next (startRow 0x0502 meanDecClose q b s)
/-- DEC_POLICY (R219). -/
def execDecPolicy (q : FlowRef) (b : Bus) (s : State) : Host.Outcome State Fault Refusal := .next (startRow 0x0503 meanDecPolicy q b s)
/-- DEC_STATUS (R230). -/
def execDecStatus (q : FlowRef) (b : Bus) (s : State) : Host.Outcome State Fault Refusal := .next (startRow 0x0504 meanDecStatus q b s)
/-- ACCESS_UNIT_DECODE (R213). -/
def execAccessUnitDecode (dt : Nat) (e : Fin 4) (a : AuIn) (s : State) : Host.Outcome State Fault Refusal := .next (actAfter dt s (accessUnitDecode e.val a))
/-- PRESENTATION_INSTANT (R225). -/
def execPresentationInstant (dt : Nat) (d : Fin 32) (s : State) : Host.Outcome State Fault Refusal := .next (actAfter dt s (presentPictures d.val))

end Sys2Proof.Machine
end

