-- ==== Sys2Proof/Machine/Isles.lean ====
section
/-! DEFINITION. What an Isle may code: motion search, mode decision, gradual refresh, lossless CTUs, Lagoon records (R109 to R118, R123 to R125, R129, R132). -/

namespace Sys2Proof.Machine

/-- The Isle that codes CTU c of a row (R109). -/
def ctuIsle (r : Run) (c : Nat) : Nat := r.isles.getD (c % max r.isles.length 1) 0

/-- The left and upper neighbours of a CTU have their reconstruction (R109). -/
def neighboursReady (q : Pic) (r c : Nat) : Bool :=
  (c == 0 || q.recon.has (r * 65536 + c - 1)) && (r == 0 || q.recon.has ((r - 1) * 65536 + c))

/-- The samples of a grid within a window about a vector. -/
def within (v c : Mv) (a b : Nat) : Bool := decide ((v.x - c.x).natAbs ≤ a) && decide ((v.y - c.y).natAbs ≤ b)

/-- A vector in a grid twice as fine. -/
def finer (v : Mv) : Mv := { x := 2 * v.x, y := 2 * v.y }

/-- Level-1 window (Table 4.3). -/
def levelOneWindow (me : EncMe) : Nat × Nat := if me.l1Range = 0 then (32, 16) else if me.l1Range = 1 then (64, 32) else (128, 64)

/-- Level-3 window; ±4 under shedding step 3 (Tables 4.2 and 4.3). -/
def levelThreeWindow (me : EncMe) (narrow : Bool) : Nat := if narrow then 4 else if me.l3Range = 0 then 8 else if me.l3Range = 1 then 16 else 32

/-- Vectors of the previous picture over a 64×64 area, in the grid of level 2 (Table 4.2). -/
def colocated (r : Run) (n col row : Nat) : List Mv :=
  ((r.pics.get? (n - 1)).elim [] (fun q => q.vectors)).filterMap (fun u =>
    if 0 < n ∧ u.x < 64 * (col + 1) ∧ 64 * col < u.x + u.w ∧ u.y < 64 * (row + 1) ∧ 64 * row < u.y + u.h then some { x := u.quarter.x / 8, y := u.quarter.y / 8 } else none)

/-- Levels 1 and 2 of an area keep to Table 4.2: at most four candidates each, in the L1_RANGE window about zero, and within ±8 of a level-1 candidate, of a co-located vector of the previous picture or of zero. -/
def areaOk (me : EncMe) (near : List Mv) (a : AreaSearch) : Bool :=
  let w := levelOneWindow me
  decide (a.level1.length ≤ 4) && a.level1.all (fun e => within e.1 {} w.1 w.2) && decide (a.level2.length ≤ 4)
    && a.level2.all (fun e => ((a.level1.map (fun (e : Mv × Nat) => finer e.1)) ++ near ++ [({} : Mv)]).any (fun c => within e.1 c 8 8))

/-- The three best level-2 results for a place of picture n in a reference (Table 4.2). -/
def bestLevelTwo (r : Run) (n ref x y : Nat) : List Mv :=
  match (r.search.getD n []).find? (fun a => a.ref == ref && a.col == x / 64 && a.row == y / 64) with
  | some a => ((sortOn (fun e => e.2) a.level2).take 3).map (fun e => e.1)
  | none => []

/-- Levels 3 and 4 of a prediction unit keep to Table 4.2: full samples in the L3_RANGE window about one of the three best level-2 results, then the eight half-sample and the eight quarter-sample neighbours; under shedding step 3 the narrow window and no quarter samples. -/
def unitSearchOk (me : EncMe) (narrow : Bool) (best : List Mv) (u : PredUnit) : Bool :=
  let w := levelThreeWindow me narrow
  u.merged || (best.any (fun v => within u.full (finer v) w w) && within u.half (finer u.full) 1 1
    && (if narrow then decide (u.quarter = finer u.half) else within u.quarter (finer u.half) 1 1))

/-- Every 64×64 area of CTU row r has its level-1 and level-2 results in every reference of the picture (R117). -/
def searchReady (k : Ctl) (q : Pic) (r : Nat) : Bool :=
  q.intra || (q.refs.1 ++ q.refs.2).all (fun ref =>
    (List.range ((min ((r + 1) * k.g.ctu) k.cfg.height + 63) / 64 - r * k.g.ctu / 64)).all (fun i =>
      (List.range (ceilDiv k.cfg.width 64)).all (fun col =>
        (k.run.search.getD q.number []).any (fun a => a.ref == ref && a.col == col && a.row == r * k.g.ctu / 64 + i))))

/-- A 64×64 area of the channel's picture. -/
def areaInside (k : Ctl) (a : AreaSearch) : Bool := decide (64 * a.col < k.cfg.width) && decide (64 * a.row < k.cfg.height)

/-- A result of levels 1 and 2 for the picture whose rows are being coded: in one of its references (R112). -/
def ownSearchOk (k : Ctl) (q : Pic) (a : AreaSearch) : Bool :=
  areaInside k a && (q.refs.1 ++ q.refs.2).contains a.ref && areaOk q.coding.me (colocated k.run q.number a.col a.row) a

/-- A result run ahead for the next picture, in a picture since the last IRAP, while run-ahead is on (R116). -/
def aheadSearchOk (k : Ctl) (q : Pic) (a : AreaSearch) : Bool :=
  k.run.runAheadValid && areaInside k a && decide (k.run.lastIrap ≤ a.ref) && decide (a.ref ≤ q.number) && areaOk q.coding.me (colocated k.run (q.number + 1) a.col a.row) a

/-- Refreshed CTU columns of picture i of a gradual refresh: those refreshed before it, and with it (R129). -/
def refreshColumns (k : Ctl) (q : Pic) (i : Nat) : Nat × Nat :=
  let w := ceilDiv k.g.cRow (max q.refreshLen 1)
  (min k.g.cRow (i * w), min k.g.cRow ((i + 1) * w))

/-- A prediction unit in a refreshed column points into the refreshed area of its reference, 8 luma samples from its right edge unless that is the picture's (R129). -/
def refreshVectorOk (k : Ctl) (q : Pic) (i : Nat) (u : PredUnit) : Bool :=
  if q.number < u.ref + i + 1 then
    let edge := (refreshColumns k q (u.ref + i - q.number)).2
    edge == k.g.cRow || decide ((u.x : Int) + (u.w : Int) + (u.quarter.x + 3) / 4 + 8 ≤ ((edge * k.g.ctu : Nat) : Int))
  else false

/-- A coding unit keeps to R123: it lies in the CTU, is at least 8×8, and uses only tools that its stream and a lossless or other CTU may use. -/
def cuOk (k : Ctl) (lossless : Bool) (u : Cu) : Bool :=
  decide (8 ≤ u.w) && decide (8 ≤ u.h) && decide (u.x + u.w ≤ k.g.ctu) && decide (u.y + u.h ≤ k.g.ctu) && (!u.intra || u.units.isEmpty)
    && u.tools.all (fun t => match toolUse k.prof t with | .used => true | .losslessOnly => lossless | .notLossless => !lossless | .notUsed => false)
    && (!lossless || u.tools.contains (if k.prof.codec = 0 then .cuBypass else .transformSkip))

/-- The mode decision of CTU (r, c) is one the Isle can make (R112 to R114, R120, R123 to R125, R129). -/
def modeOk (k : Ctl) (q : Pic) (narrow : Bool) (r c : Nat) (cus : List Cu) : Bool :=
  let lossless := isLossless k.g.ctu q.lossless r c
  let fresh := q.refreshIdx.elim false (fun i => decide ((refreshColumns k q i).1 ≤ c) && decide (c < (refreshColumns k q i).2))
  let clean := q.refreshIdx.elim false (fun i => decide (c < (refreshColumns k q i).2))
  cus.all (fun u => cuOk k lossless u && (u.intra || !(q.intra || fresh)) && u.units.all (fun p =>
    (q.refs.1 ++ q.refs.2).contains p.ref && unitSearchOk q.coding.me narrow (bestLevelTwo k.run q.number p.ref p.x p.y) p
      && (!clean || refreshVectorOk k q (q.refreshIdx.getD 0) p)))

/-- Slice of a picture that holds CTU (r, c) (R122). -/
def sliceOfCtu (k : Ctl) (q : Pic) (r c : Nat) : Nat :=
  ((slicesOf k.prof k.g q.lossless).findIdx? (fun x => decide (x.rowA ≤ r) && decide (r < x.rowB) && decide (x.colA ≤ c) && decide (c < x.colB))).getD 0

/-- Payload of a record: one bit per bin in coding order, from the least significant bit of the first byte (log 166), zero bits up to a multiple of 32 (R132). -/
def recordPayload (x : CtuRec) : List Byte := le (4 * ceilDiv x.binCount 32) (x.payload % 2 ^ x.binCount)

/-- Bytes 0 to 23 of a record header (Table 4.10). -/
def recordHeader (x : CtuRec) : List Byte :=
  le 1 (x.channel + 64 * x.rowEnd.toNat + 128 * x.picEnd.toNat) ++ le 1 (x.variant.toNat + 2 * x.lossless.toNat + 4 * x.copy.toNat)
    ++ le 2 x.ctuX ++ le 2 x.ctuY ++ le 2 x.picture ++ le 1 x.qp ++ le 1 x.slice ++ le 4 x.binCount ++ le 4 x.estBits ++ zeros 6

/-- CHECK over the header's first 24 bytes and the payload (Table 4.10). -/
def recordCheck (x : CtuRec) : Word := BitVec.ofNat 32 (crc32c (recordHeader x ++ recordPayload x))

/-- The record matches its CHECK (R136). -/
def recordOk (x : CtuRec) : Bool := x.check == recordCheck x

/-- A record of CTU (r, c) as the Isle writes it: the fields of its place, the chosen coding, its CHECK, with the damage it takes. -/
def recordOf (chan : Nat) (k : Ctl) (q : Pic) (r : Nat) (e : CtuEst) (v : Variant) (x : CtuRec) : CtuRec :=
  let y := { x with channel := chan, rowEnd := x.ctuX + 1 == k.g.cRow, picEnd := x.ctuX + 1 == k.g.cRow && r + 1 == k.g.rows, ctuY := r, picture := q.number % 65536,
                    slice := sliceOfCtu k q r x.ctuX % 256, payload := v.string, poisoned := e.poisoned }
  { y with check := recordCheck y ^^^ e.damage }

/-- One pass of code_row over CTU `row.next` with the Isle's codings (R158): the row after it; whether two variants were coded, and the high one kept; the reconstruction kept. -/
def codeCtu (chan : Nat) (k : Ctl) (rc : RcCfg) (q : Pic) (r : Nat) (row : Row) (e : CtuEst) (source : Planes) : Row × Bool × Bool × Planes :=
  let c := row.next
  let row := { row with next := c + 1 }
  let put := fun (v : Variant) (x : CtuRec) => row.records ++ [recordOf chan k q r e v x]
  if isLossless k.g.ctu q.lossless r c then
    ({ row with records := put e.lossless { ctuX := c, lossless := true, qp := 0, binCount := e.lossless.bins, estBits := e.lossless.bits } }, false, false, source)
  else
    let m := k.g.cRow - losslessCount k.g q.lossless r
    let (cb, cn) := copyCost k.prof.codec q.intra
    let limit : Int := min row.a ((rc.rowCap : Int) - (row.llEst : Int))
    let blimit : Int := ((16 * rc.rowCap / 10 : Nat) : Int) - (row.llBinsEst : Int)
    let rest := m - row.k - 1
    let dual := q.dual && row.mode == .normal
    let hi : Int := ((if q.dual then rc.qpMax - q.coding.spec.deltaQp else rc.qpMax : Nat) : Int)
    let qp := clampInt (row.qRow + regionOffset q.coding k.g.ctu r c + row.drift) (rc.qpMin : Int) hi
    let target := divDown (row.bRow * ((row.k + 1 : Nat) : Int)) (max m 1)
    -- variants in order: quantiser, coding, high
    let low := (qp, e.low, false)
    let high := (qp + (q.coding.spec.deltaQp : Int), e.high, true)
    let order := if row.mode = .floor then [((rc.qpMax : Int), e.floor, false)]
      else if dual then (if ((row.e + e.low.bits : Nat) : Int) ≤ target then [low, high] else [high, low])
      else [low]
    let pick := if row.cut then none
      else order.find? (fun v => decide (((row.e + v.2.1.bits + rest * cb : Nat) : Int) ≤ limit) && decide (((row.bins + v.2.1.bins + rest * cn : Nat) : Int) ≤ blimit))
    match pick with
    | none =>
      ({ row with cut := true, e := row.e + cb, bins := row.bins + cn, k := row.k + 1, estNl := row.estNl + cb,
                  records := put e.copy { ctuX := c, copy := true, qp := 0, binCount := e.copy.bins, estBits := cb } }, dual && !row.cut, false, e.copy.recon)
    | some (v, x, isHigh) =>
      let e' := row.e + x.bits
      let step := divDown row.bRow (max m 1)
      let drift := if row.mode = .normal then
          (if target + step < (e' : Int) then min (row.drift + 1) 3 else if (e' : Int) < target - step then max (row.drift - 1) (-3) else row.drift)
        else row.drift
      ({ row with e := e', bins := row.bins + x.bins, k := row.k + 1, drift := drift, qpSum := row.qpSum + v.toNat, counted := row.counted + 1, estNl := row.estNl + x.bits,
                  records := put x { ctuX := c, variant := isHigh, qp := v.toNat, binCount := x.bins, estBits := x.bits } }, dual, isHigh, x.recon)

end Sys2Proof.Machine
end

