-- ==== Sys2Proof/Machine/Encoder.lean ====
section
/-! DEFINITION. Coding as it runs: picture start, row start, the choice of each CTU, entropy units, slice assembly and access units (R19, R84 to R90, R109 to R144, R151 to R168). -/

namespace Sys2Proof.Machine

/-- Clocks without which no channel codes (Table 16.2). -/
def codingClocks (s : State) : Bool :=
  !(clockLost s .isle || clockLost s .ent || clockLost s .fab || clockLost s .hbm || clockLost s .qdr || clockLost s .time)

/-- Channels may code now. -/
def mayEncode (s : State) : Bool := codingClocks s && mayCode s

/-- The stagger slot's offset F (R128). -/
def staggerF (c : Nat) (g : EncGop) : Nat := (if g.staggerAuto then c % 16 else g.staggerSlot) * g.keyInterval / 16

/-- A periodic key picture falls on n (R128). -/
def periodicKey (c : Nat) (g : EncGop) (n : Nat) : Option KeyKind :=
  if g.keyInterval ≠ 0 ∧ 0 < n ∧ (n + staggerF c g) % g.keyInterval = 0 then
    some (if g.keyKind = 0 then .idr else if g.keyKind = 1 then .cra else .refresh)
  else none

/-- IDR is stronger than CRA, CRA than gradual refresh (R127). -/
def keyRank : Option KeyKind → Nat
  | some .idr => 3 | some .cra => 2 | some .refresh => 1 | none => 0
def strongerKey (a b : Option KeyKind) : Option KeyKind := if keyRank a < keyRank b then b else a

/-- KIND of KEY_REQUEST (R127). -/
def requestKind (p : Packet) : KeyKind := if fld p 3 1 0 = 0 then .idr else if fld p 3 1 0 = 1 then .cra else .refresh

/-- Display order of a dyadic mini-GOP between coded positions lo and hi, hi being coded already: the middle first, then both halves (R125). -/
def dyadic : Nat → Nat → Nat → List Nat
  | 0, _, _ => []
  | fuel + 1, lo, hi => if hi ≤ lo + 1 then [] else
      let m := (lo + hi) / 2
      m :: (dyadic fuel lo m ++ dyadic fuel m hi)

/-- Display positions of a mini-GOP of length n that starts at picture a, in decoding order: the anchor first (R125, R126). -/
def gopOrder (a n : Nat) : List Nat := (n :: dyadic n 0 n).map (fun i => a + i - 1)

/-- Shedding step n is in force for picture m of channel c (R120): the step in force, or the one before the first agreed change that picture m comes before (R485). -/
def stepOn (s : State) (c n m : Nat) : Bool :=
  match s.power.changes.find? (fun e => e.2.any (fun x => x.1 == c && decide (m < x.2))) with
  | some e => decide (n ≤ e.1)
  | none => decide (n ≤ s.power.step)

/-- The T_ref of the next picture of a channel and its source picture in capture order, if it has come; in distribution mode A source pictures more must have come (R85, R126). -/
def nextTref (s : State) (x : Chan) : Option (Instant × Option Nat) :=
  let a := if x.coding.gop.structure' = 2 then x.coding.gop.lookahead else 0
  let ready := x.input.pending.filter (fun e => decide (e.1 ≤ s.time.local'))
  if a < ready.length then ready.head? else none

/-- The row controller is done with picture n − 1 and may read every count that picture n reads at its start (R20, R153). -/
def pictureReady (k : Ctl) : Bool × Bool :=
  let n := k.run.nextPic
  match k.run.pics.get? (n - 1) with
  | none => (true, true)
  | some q =>
    if n = 0 then (true, true)
    else
      let slices := slicesOf k.prof k.g q.lossless
      let lastGroup := (slices.getLast?.map (fun x => x.group)).getD 0
      let early := (slices.filter (fun (x : SliceGeom) => decide (x.group < lastGroup))).length
      (k.run.curRow.isNone && q.rows.length == k.g.rows,
       countsReady k n 0 && decide (n - 1 ≤ k.run.vPic) && decide (early ≤ q.slices))

/-- A rate-control stall is counted once while it lasts (R20); beyond one in a picture it is a performance fault (Table 16.1). -/
def noteStall (c : Nat) (x : Chan) (s : State) : State :=
  if x.run.stalled then s
  else
    let n := x.run.nextPic - 1
    let many := (x.run.pics.get? n).elim false (fun q => decide (1 ≤ q.stalls))
    let s := modChan s c (fun x => { x with run.stalled := true, counters.rcStalls := inc32 x.counters.rcStalls,
                                            run.pics := x.run.pics.modify n (fun q => { q with stalls := q.stalls + 1 }) })
    if many then journalAdd s 8 0 x.owner.val 1 c n else s

/-- Apply the waiting changes of picture n to a channel (R19, R89, R127, R166): its coding, delay request, requested key picture, and whether a rate change with HRD forces an IDR. -/
def applyChanges (s : State) (c n : Nat) (x : Chan) : Chan × Option KeyKind × Bool × List Cmd :=
  let now := (pictureWaiters s c x).filter (fun e => decide (e.1 ≤ n))
  let y := now.foldl (fun (y : Chan) e =>
    let p := e.2.packet
    let y := { y with coding := changeCoding p y.coding }
    if opcodeOf p = 0x0206 then { y with delayReq := fld p 3 15 0 } else y) x
  let key := now.foldl (fun k e => if opcodeOf e.2.packet = 0x0207 then strongerKey k (some (requestKind e.2.packet)) else k) none
  let rate := match x.coding.rc, y.coding.rc with
    | some a, some b => b.hrd && (a.rateMax != b.rateMax || a.rateTgt != b.rateTgt)
    | _, _ => false
  (y, key, rate && decide (0 < n), now.map (fun e => e.2))

/-- The Lighthouse layer that a picture of a composed channel carries: that of the output picture it codes (R124, R204, R205); without one, that of its output. -/
def pictureLh (s : State) (c : ChanCfg) (m : Option Nat) : Option (Nat × Nat × Nat) :=
  if c.srcKind = 2 then
    (outAt s c.srcIndex).bind (fun o => match m.bind o.pics.get?, m.bind o.done.get? with
      | some q, _ => q.lh
      | none, some q => q.lh
      | none, none => o.lh)
  else none

/-- Region hash and stale bitmap of the output picture that a composed channel's picture codes (R204, R209); the bitmap may still grow while its lines are composed. -/
def pictureFacts (s : State) (c : ChanCfg) (m : Option Nat) : Option (Word × DWord) :=
  if c.srcKind = 2 then
    (outAt s c.srcIndex).bind (fun o => match m.bind o.pics.get?, m.bind o.done.get? with
      | some q, _ => some (q.hash ^^^ 0xFFFFFFFF, q.stale)
      | none, some q => some (q.hash, q.stale)
      | none, none => none)
  else none

/-- Length of the mini-GOP that starts at picture n: G, cut short before the next known key picture (R125, R127). -/
def gopLength (s : State) (c n : Nat) (x : Chan) (g : EncGop) : Nat :=
  let full := if g.structure' = 2 then 2 ^ g.miniGop else 1
  let asked := ((pictureWaiters s c x).filter (fun e => opcodeOf e.2.packet == 0x0207)).map (fun e => e.1)
  ((List.range full).find? (fun i => decide (0 < i) && ((periodicKey c g (n + i)).isSome || asked.contains (n + i)))).getD full

/-- A pair makes channel c code an IDR at picture n: the first after MAX_WAIT of a forced resync (Table 15.7), the first of a keyed swap whose slice 0 leaves at X + 50 µs or later (R414). -/
def pairForces (s : State) (c n : Nat) (due : Rat) : Bool :=
  (s.pair.st == .resyncing && s.pair.forceKey && decide (0 < s.pair.maxWait) && s.pair.joinPending.contains (1, c)
      && (s.pair.joinStart.get? c).elim false (fun a => decide (a + s.pair.maxWait ≤ n)))
    || (s.pair.keyedLeft.contains c && s.pair.keyedAt.elim false (fun x => decide ((x : Rat) + nsQ 50000 ≤ due)))

/-- V, U and the row weights of R155 in the order of RC_CRC (Table 15.4a). -/
def rcState (k : Ctl) (rc : RcCfg) (rects : List Rect) (n : Nat) (v u : Int) : List Byte :=
  let w := fun (key : Bool) (i : Nat) =>
    let f := floorRow k.g rc rects i
    ((earlierPics k.run n).findSome? (fun p => if isKeyPic p == key then ((p.rows.get? i).bind (fun r => r.actual)).map (fun a => max a.1 f) else none)).getD f
  leInt 8 v ++ leInt 8 u ++ ((List.range k.g.rows).flatMap (fun i => le 4 (w true i))) ++ ((List.range k.g.rows).flatMap (fun i => le 4 (w false i)))

/-- Send data in BULK frames of up to 2,032 bytes (Table 15.4a). -/
def sendBulk (kind buffer object : Nat) (data : List Byte) (s : State) : State :=
  (List.range (ceilDiv data.length 2032)).foldl (fun s i =>
    cwSend 0x0B (le 1 kind ++ le 1 buffer ++ le 2 object ++ le 4 (2032 * i) ++ le 4 data.length ++ zeros 4 ++ (data.drop (2032 * i)).take 2032) s) s

/-- A COMMAND frame that replays a setting to a joiner (R412 step 1): function, boundary, RESULT words, packet. -/
def sendReplay (f kind boundary r0 r1 : Nat) (packet : List (Nat × Nat)) (s : State) : State :=
  let n := s.pair.nextMirror
  cwSend 4 (le 4 n ++ le 1 f ++ le 1 0 ++ le 1 kind ++ le 1 stOk ++ le 8 boundary ++ le 4 r0 ++ le 4 r1 ++ zeros 8
    ++ (List.range 16).flatMap (fun i => le 4 ((packet.find? (fun e => e.1 == i)).elim 0 (fun e => e.2)))) { s with pair.nextMirror := (n + 1) % 2 ^ 32 }

/-- Settings of a channel as the commands that give it them (R412 step 1): the packets' words. -/
def chanReplay (c : Nat) (x : Chan) : List (List (Nat × Nat)) :=
  let cfg := x.cfg.elim [] (fun g => [[(0, 0x0202), (2, c), (3, g.srcKind + 4 * g.refMode + 256 * g.srcIndex), (4, g.width + 65536 * g.height), (5, g.rateNum),
    (6, g.rateDen + 65536 * g.totalLines), (7, g.lossPolicy + 4 * g.shedClass)]])
  let prof := x.profile.elim [] (fun e => [[(0, 0x0301), (2, c), (3, e.codec + 4 * e.profile + 32 * e.chroma + 128 * e.tier + 256 * e.level),
    (4, e.ctuSmall.toNat + 2 * (e.sliceRows - 1) + 16 * e.parallel + 64 * e.tileCols)]])
  let g := x.coding.gop
  let gop := [[(0, 0x0302), (2, c), (3, g.structure' + 4 * g.nRef + 32 * g.miniGop + 256 * g.lookahead), (4, g.keyInterval + 65536 * g.keyKind + 2 ^ 24 * g.refreshPics),
    (5, g.staggerSlot + 16 * g.staggerAuto.toNat)]]
  let rc := x.coding.rc.elim [] (fun r => [[(0, 0x0303), (2, c), (3, r.mode + 4 * r.hrd.toNat + 256 * r.react + 4096 * r.keyBoost), (4, r.rateMax), (5, r.rateTgt), (6, r.rowCap),
    (7, r.cpbSize), (8, r.qpMin + 256 * r.qpMax + 65536 * r.qpInit + 2 ^ 24 * r.cqQp), (9, r.floorCtu + 65536 * r.vTarget), (10, r.llCtuBits)]])
  let sp := x.coding.spec
  let spec := [[(0, 0x0306), (2, c), (3, sp.dualQp.toNat + 2 * sp.runAhead.toNat + 16 * sp.deltaQp)]]
  let me := [[(0, 0x0307), (2, c), (3, x.coding.me.l1Range + 4 * x.coding.me.l3Range)]]
  let regs := x.coding.regions.map (fun e => [(0, 0x0305), (2, c + 256 * e.1), (3, e.2.kind + 256 * unsignedOf e.2.qpOffset 8), (4, e.2.x + 65536 * e.2.y), (5, e.2.w + 65536 * e.2.h)])
  cfg ++ prof ++ gop ++ rc ++ spec ++ me ++ regs ++ (if x.delayReq = 0 then [] else [[(0, 0x0206), (2, c), (3, x.delayReq)]])

/-- A channel joins at its IRAP picture n (R412): the holder sends its settings as they stand, its rate-control state, its start and the kind of the picture. -/
def joinChannel (c n : Nat) (idr : Bool) (owner : Nat) (state : List Byte) (s : State) : State :=
  if isHolder s && s.pair.st == .resyncing && s.pair.joinPending.contains (1, c) then
    let s := ((chanAt s c).elim [] (chanReplay c)).foldl (fun s p => sendReplay owner 3 0 0 0 p s) s
    let s := sendBulk 2 0 c state s
    let s := sendReplay owner 0 n 0 0 [(0, 0x0207), (2, c), (3, if idr then 0 else 1)] s
    joined 1 c (sendReplay owner 0 n 0 0 [(0, 0x0203), (2, c)] s)
  else s

/-- Reference pictures of picture n (R125): the previous N_REF coded since the last IRAP, the same in both lists of low-delay B; in distribution mode, of those the hierarchy's choice. -/
def pictureRefs (g : EncGop) (lastIrap n : Nat) (irap : Bool) (given : List Nat × List Nat) : List Nat × List Nat :=
  if irap then ([], [])
  else if g.structure' = 2 then
    let ok := fun (l : List Nat) => (l.filter (fun m => decide (lastIrap ≤ m) && decide (m < n))).take g.nRef
    (ok given.1, ok given.2)
  else
    let l := ((List.range (min g.nRef (n - lastIrap))).map (fun i => n - 1 - i))
    (l, if g.structure' = 1 then l else [])

/-- Motion-search results that remain when picture n starts (R118): those of earlier pictures are done with; those beyond it go as a whole when it is coded as a key picture, those of picture n too when run-ahead is turned off. -/
def searchLeft (m : FMap (List AreaSearch)) (n : Nat) (key off : Bool) : FMap (List AreaSearch) :=
  m.keep (fun i _ => decide (n ≤ i) && !(key && decide (n < i)) && !off)

/-- PICTURE_START (R19): coding of the next picture of channel c starts with T_ref t; m is the source picture that begins with t. -/
def startPicture (c : Nat) (x0 : Chan) (t : Instant) (m : Option Nat) (inp : PicIn) (s : State) : State :=
  let n := x0.run.nextPic
  let (x, asked, rateIdr, cmds) := applyChanges s c n x0
  match ctlOf s x, x.coding.rc with
  | some k, some rc =>
    let g := k.g
    let gop := x.coding.gop
    let first := n = 0
    -- delay (R88, R90, R126)
    let target := nsQ (delayOf g x.delayReq)
    let slew := nsQ 16000
    let cur := if first || x.run.delayCur == 0 then target else if x.run.delayCur < target then min target (x.run.delayCur + slew) else max target (x.run.delayCur - slew)
    let delay := cur + nsQ (((gop.lookahead : Nat) : Rat) * g.period)
    -- kind of picture (R84, R127, R128, R139, R166, R412, R414)
    let pairIdr := pairForces s c n ((t : Rat) + delay)
    let force := x.run.forceIdr || rateIdr || pairIdr
    let want := strongerKey (strongerKey asked x.run.forceKey) (periodicKey c gop n)
    let key := if force then some .idr else if first then strongerKey (some (if gop.keyKind = 1 then KeyKind.cra else .idr)) want else want
    let irap := key == some .idr || key == some .cra
    let refresh := if irap then none else if key == some .refresh then some (n, gop.refreshPics)
      else match x.run.refresh with | some (a, r) => if n < a + r then some (a, r) else none | none => none
    let refreshIdx := refresh.map (fun e => n - e.1)
    let lastIrap := if irap then n else x.run.lastIrap
    -- mini-GOP (R125 to R127)
    let newGop := first || key.isSome || decide (x.run.gopStart + x.run.gopLen ≤ n)
    let gopStart := if newGop then n else x.run.gopStart
    let gopLen := if newGop then gopLength s c n x gop else x.run.gopLen
    let display := if gop.structure' = 2 then (gopOrder gopStart gopLen).getD (n - gopStart) n else n
    -- the source picture at its display position (R84, R126)
    let source := if n ≤ display then (x.input.pending[display - n]?).bind (fun e => e.2) else x.run.sources.get? display
    -- speculation (R115 to R118, R120)
    let on := x.coding.spec.runAhead && !(stepOn s c 1 n)
    let isKey := irap || refreshIdx == some 0
    let discard := (x.run.runAheadValid && !on) || (on && isKey)
    let lh := pictureLh s k.cfg source
    let rects := regionRects x.coding ++ lhRect s lh
    let run := { x.run with gopStart := gopStart, gopLen := gopLen, gopCosts := if newGop then inp.costs else x.run.gopCosts }
    let k := { k with run := run }
    -- budget (R152 to R154, R164, R169, R170)
    let (v, u) := estimatedBucket k rc n inp.tailBits
    let reserve := llReserveOf k rc rects n
    let need := reserve + sumBy (floorRow g rc rects) (List.range g.rows)
    let w := pictureWeight rc irap refreshIdx.isSome (refresh.elim 1 (fun e => e.2))
    let lookahead := !(stepOn s c 1 n)
    let (b, low) := pictureBudget k rc gop n w v u (gopComplexity k n lookahead (n - gopStart)) (gopComplexitySum k n lookahead) need
    let lostLoss := if x.input.status ≠ 0 then [(x.input.lossSince, 0, 1, k.cfg.lossPolicy)] else []
    let substEnds := force && x.run.forceIdr
    let substLoss := match x.run.substSince with | some a => if substEnds then [] else [(a, 0, 2, 0xFF)] | none => []
    let q : Pic := { number := n, tref := t, delay := delay, coding := x.coding, key := key, refreshIdx := refreshIdx, refreshLen := refresh.elim 0 (fun e => e.2),
                     dual := x.coding.spec.dualQp && !(stepOn s c 2 n), intra := irap, display := display, lossless := rects,
                     refs := pictureRefs gop lastIrap n irap inp.refs, level := if gop.structure' = 2 then gopLevel gopLen (n - gopStart) else 0,
                     alf := if irap then [] else inp.alf, ahead := x.run.runAheadValid && on, source := source,
                     lighthouse := if lh.isSome then some k.cfg.srcIndex else none, outPicture := source.getD 0, bNl := b - (reserve : Int),
                     violated := low && rc.hrd, loss := lostLoss ++ substLoss, staleSrc := x.input.status != 0 && k.cfg.lossPolicy == 1 }
    let viol := if low && rc.hrd then 1 else 0
    let run' : Run := { run with delayCur := cur, delayTgt := target, nextPic := n + 1, lastTref := t, pics := run.pics.set n q, refresh := refresh, forceKey := none,
                                 forceIdr := false, substSince := if substEnds then none else run.substSince, runAheadValid := on, stalled := false, aheadWait := false,
                                 search := searchLeft run.search n isKey (run.runAheadValid && !on), sources := match m with | some i => run.sources.set n i | none => run.sources,
                                 lastIrap := lastIrap, v := if first then (vTargetBits rc : Int) else run.v }
    let x' : Chan := { x with st := if x.st == .armed then .running else x.st, run := run', input.pending := x.input.pending.drop 1,
                              counters := { x.counters with picture := n, budget := b, hrdViolations := (x.counters.hrdViolations + viol) % 2 ^ 32,
                                                            runaheadDiscards := if discard then inc32 x.counters.runaheadDiscards else x.counters.runaheadDiscards } }
    let s := setChan s c x'
    let s := if s.pair.keyedLeft.contains c && pairIdr then { s with pair.keyedLeft := s.pair.keyedLeft.filter (fun d => d != c), pair.keyedPics := s.pair.keyedPics.set c n } else s
    let s := if irap then joinChannel c n (key == some .idr) x.owner.val (rcState k rc rects n v u) s else s
    let s := replaceIsles s c
    let s := if (((chanAt s c).map (fun y => y.run.isles)).getD []).any (fun i => s.units.isleOut.getLsbD i) then chanStopFor c 3 s else s
    let s := if k.cfg.srcKind = 2 ∧ 0 < n then s else sendInput (.tref c false n t) s
    let s := postEvent x.owner.val 2 c n s
    let s := if first then ((allCmds s).filter (fun e => e.2.wait == .chanStart c)).foldl (fun s e => finishCmd e.2.serial 0 0 0 s) s else s
    cmds.foldl (fun s d => finishCmd d.serial 0 (n % 2 ^ 32) (n / 2 ^ 32) s) s
  | _, _ => s

/-- PICTURE_START (R19): the next picture of channel c starts, once its T_ref has come, its predecessor is coded and the counts it reads are there. -/
def pictureStart (c : Nat) (inp : PicIn) (s : State) : State :=
  if !mayEncode s then s
  else
    let s := settleSlices c (modChan (fillLost c s) c dropEarly)
    match chanAt s c with
    | none => s
    | some x =>
      if x.st == .idle || x.run.aborting then s
      else match ctlOf s x with
        | none => s
        | some k =>
          let beyond := match x.run.drainAfter with | some d => decide (d < x.run.nextPic) | none => false
          match nextTref s x with
          | none => s
          | some (t, m) =>
            if beyond || (x.run.nextPic == 0 && !(startsAt x t)) || mirrorAwaited s 0 c x.run.nextPic then s
            else
              let (coded, counts) := pictureReady k
              if !coded then s
              else if !counts then noteStall c x s
              else startPicture c x t m inp s

/-- The picture whose rows are being coded, if a row is left to start. -/
def rowPicture (k : Ctl) : Option Pic :=
  match k.run.pics.get? (k.run.nextPic - 1) with
  | some q => if q.rows.length < k.g.rows then some q else none
  | none => none

/-- The lines of row r of a picture are there (R85, R88, R126, R173): nominal completion, plus the compositor's latency for a composed channel; an anchor coded ahead of its display position has the lines of its own, later source picture. Each of them is decided (R104, R105). -/
def rowArrived (s : State) (x : Chan) (k : Ctl) (q : Pic) (r : Nat) : Bool :=
  let lines := min ((r + 1) * k.g.ctu) k.cfg.height
  let comp := match feedOutput s k.cfg with | some o => outLatency o | none => 0
  decide ((q.tref : Rat) + nsQ (((q.display - q.number : Nat) : Rat) * k.g.period + (lines : Rat) * k.g.tLine + comp) ≤ localQ s)
    && (List.range (lines - r * k.g.ctu)).all (fun i => lineSettled s x k q (r * k.g.ctu + i))

/-- Lagoon-high follows the occupied row slots (R133); its assertion is a performance fault (Table 16.1). -/
def settleLagoon (c : Nat) (s : State) : State :=
  match chanAt s c with
  | none => s
  | some x =>
    let used := x.run.rowsBegun - x.run.rowsFreed
    if !x.run.lagoonHigh && decide (x.run.lagoonSlots ≤ used + 1) then journalAdd (modChan s c (fun x => { x with run.lagoonHigh := true })) 8 0 x.owner.val 1 c (x.run.nextPic - 1)
    else if x.run.lagoonHigh && decide (used + 3 ≤ x.run.lagoonSlots) then modChan s c (fun x => { x with run.lagoonHigh := false })
    else s

/-- Results of motion-search levels 1 and 2 that have become complete join those of their pictures (R112, R116); what the levels cannot give is none of them. -/
def noteSearch (c : Nat) (x : SearchIn) (s : State) : State :=
  match chanAt s c with
  | none => s
  | some y => match ctlOf s y, y.run.pics.get? (y.run.nextPic - 1) with
    | some k, some q =>
      let own := x.own.filter (ownSearchOk k q)
      let ahead := x.ahead.filter (aheadSearchOk k q)
      let add := fun (n : Nat) (l : List AreaSearch) (m : FMap (List AreaSearch)) => if l.isEmpty then m else m.set n (m.getD n [] ++ l)
      modChan s c (fun y => { y with run.search := add (q.number + 1) ahead (add q.number own y.run.search) })
    | _, _ => s

/-- A row waits for its run-ahead results; the wait is counted once (R117). -/
def waitSearch (c : Nat) (q : Pic) (s : State) : State :=
  modChan s c (fun x => if q.ahead && !x.run.aheadWait then { x with run.aheadWait := true, counters.runaheadWaits := inc32 x.counters.runaheadWaits } else x)

/-- Lines of row r that a composed channel reads from the COMPOSE ring (R192, R248). -/
def ringRow (c : Nat) (k : Ctl) (q : Pic) (r : Nat) (poisoned : List Nat) (s : State) : State :=
  match q.source with
  | some m =>
    if k.cfg.srcKind = 2 then
      (List.range (min k.g.ctu (k.cfg.height - r * k.g.ctu))).foldl (fun s i => ringLine c q.number m k.g.ctu (r * k.g.ctu + i) (poisoned.contains (r * k.g.ctu + i)) s) s
    else s
  | none => s

/-- The row controller plans row r of its picture and an Isle takes its Lagoon slot (R130, R133, R155). -/
def planRow (c : Nat) (k : Ctl) (rc : RcCfg) (q : Pic) (r : Nat) (s : State) : State :=
  let plan := rowPlan k rc q r
  settleLagoon c (modChan s c (fun x => { x with
    run := { x.run with stalled := false, slotWait := false, aheadWait := false, rowsBegun := x.run.rowsBegun + 1, curRow := some (q.number, r),
                        pics := x.run.pics.modify q.number (fun q => { q with rows := q.rows.set r plan }) },
    counters := { x.counters with floorRows := if plan.mode = .floor then inc32 x.counters.floorRows else x.counters.floorRows,
                                  copyRows := if plan.mode = .copy then inc32 x.counters.copyRows else x.counters.copyRows } }))

/-- An Isle waits for a Lagoon row slot; the wait is counted once and is a performance fault (R133, Table 16.1). -/
def waitSlot (c n : Nat) (x : Chan) (s : State) : State :=
  if x.run.slotWait then s
  else journalAdd (modChan s c (fun x => { x with run.slotWait := true, counters.lagoonStalls := inc32 x.counters.lagoonStalls })) 8 0 x.owner.val 1 c n

/-- ROW_START (R155): the row controller plans its next CTU row, once row r − 2 is counted (R20), its lines are there, its search results are complete (R117) and its Lagoon slot is free (R130, R133). -/
def rowStart (c : Nat) (inp : SearchIn) (s : State) : State :=
  if !mayEncode s then s
  else
    let s := noteSearch c inp s
    match chanAt s c with
    | none => s
    | some x =>
      if !coding x || x.run.aborting || x.run.curRow.isSome then s
      else match ctlOf s x with
        | none => s
        | some k => match rowPicture k with
          | none => s
          | some q =>
            let r := q.rows.length
            match q.coding.rc with
            | none => s
            | some rc =>
              if !rowArrived s x k q r then s
              else if !countsReady k q.number r then noteStall c x s
              else if !searchReady k q r then waitSearch c q s
              else if decide (x.run.lagoonSlots ≤ x.run.rowsBegun - x.run.rowsFreed) then waitSlot c q.number x s
              else planRow c k rc q r (ringRow c k q r inp.poisoned s)

/-- Slice and unit of a picture that hold CTU (r, col) (R122, R134), and whether the unit has ended as failed (R136). -/
def unitFailed (k : Ctl) (q : Pic) (r col : Nat) : Bool :=
  let i := sliceOfCtu k q r col
  match (slicesOf k.prof k.g q.lossless)[i]? with
  | none => false
  | some sl => ((unitsOf k.prof k.g q.lossless sl).zipIdx.any (fun u =>
      decide (u.1.1 ≤ r) && decide (r < u.1.2.1) && decide (u.1.2.2.1 ≤ col) && decide (col < u.1.2.2.2) && ((q.units.get? (i * 256 + u.2)).elim false (fun o => o.failed))))

/-- Rows of picture n that are coded and wholly read get their actual counts, and their Lagoon slots are free (R133, R155, R160). -/
def settleRows (c n : Nat) (s : State) : State :=
  match chanAt s c with
  | none => s
  | some x => match ctlOf s x, x.run.pics.get? n with
    | some k, some q =>
      let whole := fun (w : Row) => decide (k.g.cRow ≤ w.next) && w.records.isEmpty && w.actual.isNone
      let new := q.rows.filter (fun e => whole e.2)
      let cap := q.coding.rc.elim 0 (fun r => r.rowCap)
      let beyond := (new.filter (fun e => decide (cap < e.2.count.1 + e.2.count.2))).length
      settleLagoon c (modChan s c (fun x => { x with
        run := { x.run with rowsFreed := x.run.rowsFreed + new.length,
                            pics := x.run.pics.set n { q with rows := q.rows.mapVals (fun _ w => if whole w then { w with actual := some w.count } else w) } },
        counters.rowCapOver := (x.counters.rowCapOver + beyond) % 2 ^ 32 }))
    | _, _ => s

/-- An armed KIND 7 injection corrupts the next record's CHECK; its count tells that it is spent (R440). -/
def spendCheckInjection (c : Nat) (s : State) : State × Bool :=
  match (injectionOf s 7 c).filter (fun i => i.2.1 == 0) with
  | some (_, _, serial) => ({ s with units.injections := s.units.injections.map (fun i => if i.2.2.2.2 = serial then (i.1, i.2.1, i.2.2.1, 1, serial) else i) }, true)
  | none => (s, false)

/-- The picture was coded from a wholly received source picture (R233). -/
def fromWhole (x : Chan) (q : Pic) : Bool := q.source.elim false (fun m => !(x.input.replaced.has m)) && (lossOf q).isNone

/-- CTU `row.next` of row r of picture n is coded (R158): its record, reconstruction and vectors; the unchosen variant is in none of them (R118). The last row of a picture from wholly received input makes it the hold picture (R233). -/
def chooseVariant (c : Nat) (k : Ctl) (rc : RcCfg) (q : Pic) (r : Nat) (row : Row) (e : CtuEst) (s : State) : State :=
  match chanAt s c with
  | none => s
  | some x =>
    let col := row.next
    let (row', dual, high, recon) := codeCtu c k rc q r row e (sourceCtu s x k q r col)
    let row' := if unitFailed k q r col then { row' with records := row'.records.dropLast } else row'
    let done := decide (k.g.cRow ≤ row'.next)
    let cut := done && row'.cut && row'.mode != .copy
    let q' := { q with rows := q.rows.set r row', recon := q.recon.set (r * 65536 + col) { isle := ctuIsle k.run col, samples := recon },
                       vectors := q.vectors ++ e.cus.flatMap (fun u => u.units), cost := q.cost + e.cost }
    modChan s c (fun x => { x with
      run := { x.run with curRow := if done then none else x.run.curRow, pics := x.run.pics.set q.number q',
                          hold := if done && decide (k.g.rows ≤ r + 1) && fromWhole x q' then some q.number else x.run.hold },
      counters := { x.counters with specDualCtus := if dual then inc32 x.counters.specDualCtus else x.counters.specDualCtus,
                                    specHighChosen := if high then inc32 x.counters.specHighChosen else x.counters.specHighChosen,
                                    guardCuts := if cut then inc32 x.counters.guardCuts else x.counters.guardCuts } })

/-- VARIANT_CHOICE (R158): the row controller treats its next CTU, once the Isles of its neighbours have their reconstruction (R109); a decision that no Isle can make is none (R114). A poisoned reference or lookahead read is counted, and poisons the record (R248). -/
def variantChoice (c : Nat) (e : CtuEst) (s : State) : State :=
  if !mayEncode s then s
  else match chanAt s c with
    | none => s
    | some x =>
      match x.run.curRow, ctlOf s x with
      | some (n, r), some k =>
        match x.run.pics.get? n with
        | none => s
        | some q => match q.rows.get? r, q.coding.rc with
          | some row, some rc =>
            if x.run.aborting || !(neighboursReady q r row.next) || !(modeOk k q (stepOn s c 3 n) r row.next e.cus) then s
            else
              let (s, hit) := spendCheckInjection c s
              let e := if hit then { e with damage := e.damage ^^^ 1 } else e
              let s := if e.poisoned then poisonRead 8 x.owner.val 1 c n s else s
              settleRows c n (chooseVariant c k rc q r row e s)
          | _, _ => s
      | _, _ => s

/-- Emission instant E of a slice in 2⁻³² ns (R86). -/
def emission (g : Geom) (q : Pic) (x : SliceGeom) : Rat := (q.tref : Rat) + q.delay + nsQ ((x.group : Rat) * g.tRow)

/-- An entropy unit: channel, picture, slice and unit numbers, its rows and columns, its slice's E. -/
structure UnitRef where
  chan : Nat
  pic : Nat
  slice : Nat
  idx : Nat
  rowA : Nat
  rowB : Nat
  colA : Nat
  colB : Nat
  due : Rat
  deriving DecidableEq, Repr

/-- Uncoded records of a unit in the Lagoon (R134). -/
def unitRecords (q : Pic) (u : UnitRef) : Nat :=
  sumBy (fun i => match q.rows.get? i with
    | some x => (x.records.filter (fun e => decide (u.colA ≤ e.ctuX) && decide (e.ctuX < u.colB))).length
    | none => 0) ((List.range (u.rowB - u.rowA)).map (u.rowA + ·))

/-- All records of the unit have been written. -/
def unitWritten (q : Pic) (u : UnitRef) : Bool :=
  (List.range (u.rowB - u.rowA)).all (fun i => (q.rows.get? (u.rowA + i)).elim false (fun x => decide (u.colB ≤ x.next)))

/-- A wavefront unit has the context state of the row above: after its second CTU in HEVC, its first in VVC (R135). -/
def wavefrontReady (p : EncProfile) (q : Pic) (u : UnitRef) : Bool :=
  p.parallel != 1 || u.idx == 0 || (match q.rows.get? (u.rowA - 1) with
    | some x => decide ((if p.codec = 0 then min 2 (u.colB - u.colA) else 1) + x.records.length ≤ x.next)
    | none => false)

/-- The units of a channel that are ready (R134, R135). -/
def readyUnits (s : State) (c : Nat) (x : Chan) : List UnitRef :=
  match ctlOf s x with
  | none => []
  | some k => (k.run.pics.map (fun e => e.2)).flatMap (fun q =>
      ((slicesOf k.prof k.g q.lossless).zipIdx.drop q.slices).flatMap (fun sl =>
        ((unitsOf k.prof k.g q.lossless sl.1).zipIdx.map (fun u =>
            ({ chan := c, pic := q.number, slice := sl.2, idx := u.2, rowA := u.1.1, rowB := u.1.2.1, colA := u.1.2.2.1, colB := u.1.2.2.2, due := emission k.g q sl.1 } : UnitRef))).filter
          (fun u => !((q.unitsDone.getD u.slice []).contains u.idx) && wavefrontReady k.prof q u
            && (decide (16 ≤ unitRecords q u) || unitWritten q u))))

/-- The earliest emission instant first; on a tie the lower channel, then the lower unit in its slice (R135); then the earlier picture and slice. -/
def unitBefore (u v : UnitRef) : Bool :=
  decide (u.due < v.due) || (decide (u.due = v.due) && (decide (u.chan < v.chan) || (u.chan == v.chan && (decide (u.idx < v.idx) || (u.idx == v.idx &&
    (decide (u.pic < v.pic) || (u.pic == v.pic && decide (u.slice < v.slice))))))))

/-- The unit an idle engine takes (R135). -/
def bestUnit (l : List UnitRef) : Option UnitRef :=
  l.foldl (fun b u => match b with
    | none => some u
    | some v => if unitBefore u v then some u else b) none

/-- Key of a unit in its picture. -/
def unitKey (u : UnitRef) : Nat := u.slice * 256 + u.idx

/-- An engine faults on a record CHECK; an injected one is told to its command (R136, R420, R440). -/
def checkFault (e : Nat) (u : UnitRef) (owner : Nat) (s : State) : State :=
  match s.units.injections.find? (fun i => i.1 == 7 && i.2.1 == u.chan && i.2.2.2.1 == 1) with
  | some (_, _, _, _, serial) =>
    let seq := s.journal.nextSeq
    let s := { s with units.injections := s.units.injections.map (fun i => if i.2.2.2.2 = serial then (7, u.chan, seq, 2, serial) else i) }
    engineFaultAs 9 1 e owner 1 u.chan u.pic s
  | none => engineFault 1 e owner 1 u.chan u.pic s

/-- An engine codes what is written of a unit: its records leave the Lagoon, its bytes join the unit's, coder and context state are kept where it stops (R133 to R136, R155). A record whose CHECK does not match ends the unit as failed. Poisoned records are counted and mark the unit (R248). -/
def codeUnit (e : Nat) (u : UnitRef) (o : EntropyOut) (s : State) : State :=
  match chanAt s u.chan with
  | none => s
  | some x => match x.run.pics.get? u.pic with
    | none => s
    | some q =>
      let mine := fun (r : CtuRec) => decide (u.colA ≤ r.ctuX) && decide (r.ctuX < u.colB)
      let inside := fun (i : Nat) => decide (u.rowA ≤ i) && decide (i < u.rowB)
      let read := (q.rows.filter (fun w => inside w.1)).flatMap (fun w => w.2.records.filter mine)
      let bad := read.any (fun r => !(recordOk r))
      let poisoned := o.poisoned || read.any (fun r => r.poisoned)
      let rows := q.rows.mapVals (fun i w =>
        if inside i then
          let cnt := (o.rows.find? (fun y => y.1 == i)).elim (0, 0) (fun y => y.2)
          { w with records := w.records.filter (fun r => !(mine r)), count := (w.count.1 + cnt.1, w.count.2 + cnt.2) }
        else w)
      let ll := o.llCtus.foldl (fun m y => if u.rowA ≤ y.1 ∧ y.1 < u.rowB ∧ u.colA ≤ y.2.1 ∧ y.2.1 < u.colB then m.set (y.1 * 65536 + y.2.1) y.2.2 else m) q.llActual
      let old := q.units.getD (unitKey u) {}
      let unit : UnitOut := { bytes := old.bytes ++ o.bytes, coder := o.coder, context := if o.context.isEmpty then old.context else o.context,
                              failed := old.failed || bad, poisoned := old.poisoned || poisoned }
      let q' := { q with rows := rows, llActual := ll, units := q.units.set (unitKey u) unit,
                         unitsDone := if bad || unitWritten q u then q.unitsDone.set u.slice (q.unitsDone.getD u.slice [] ++ [u.idx]) else q.unitsDone }
      let s := settleRows u.chan u.pic (modChan s u.chan (fun x => { x with run.pics := x.run.pics.set u.pic q' }))
      let s := if poisoned then poisonRead 8 x.owner.val 1 u.chan u.pic s else s
      if bad then checkFault e u x.owner.val s else s

/-- ENTROPY_UNIT_START (R135): the idle in-service engine e takes the ready unit with the earliest E. -/
def entropyStart (e : Nat) (o : EntropyOut) (s : State) : State :=
  if !mayEncode s || !(entropyIn s e) then s
  else match bestUnit ((s.chans.filter (fun x => coding x.2 && !x.2.run.aborting)).flatMap (fun x => readyUnits s x.1 x.2)) with
    | some u => codeUnit e u o s
    | none => s

/-- The slice check value (R138). -/
def sliceCheckValue (c n i : Nat) (nal : List Byte) : Word := BitVec.ofNat 32 (crc32c (le 8 n ++ le 2 i ++ le 1 c ++ zeros 5 ++ nal))

/-- UUID of the Yuxarad messages (Table 4.12); the last byte tells them apart. -/
def uuid (last : Nat) : List Byte := be 16 (0x9A3E61C47B204D85A1F62C09E5B7D300 + last)

/-- Payloads of Table 4.13. -/
def timingSei (c : Nat) (q : Pic) : List Byte :=
  uuid 0x18 ++ be 8 q.number ++ be 6 (instantNs q.tref / 1000000000) ++ be 4 (instantNs q.tref % 1000000000) ++ be 4 (delayNs q.delay) ++ be 1 c
    ++ be 1 ((isIrap q).toNat + (q.refreshIdx.isSome).toNat * 2)
def lossSei (q : Pic) (l : Nat × Nat × Nat × Nat) : List Byte := uuid 0x19 ++ be 8 q.number ++ be 8 l.1 ++ be 2 l.2.1 ++ be 1 l.2.2.1 ++ be 1 l.2.2.2
def staleSei (out : Option Nat) (q : Pic) : List Byte :=
  uuid 0x1A ++ be 8 (if out.isSome then q.outPicture else q.number) ++ be 1 (out.getD 0xFF) ++ be 1 (q.staleSrc || q.staleLayers != 0).toNat ++ be 8 q.staleLayers
def hashSei (o m : Nat) (x : Rect) (hash : Nat) : List Byte := uuid 0x1B ++ be 8 m ++ be 1 o ++ be 1 0 ++ be 2 x.1 ++ be 2 x.2.1 ++ be 2 x.2.2.1 ++ be 2 x.2.2.2 ++ be 4 hash

/-- NAL units whose syntax the codec's standard gives take their sizes in order, each at least a header's (R141). -/
def sizedNals (codec : Nat) : List (NalKind × NalBody) → List Nat → List Nal
  | [], _ => []
  | (k, b) :: r, sizes => fieldNal codec k (max 2 (sizes.headD 0)) b :: sizedNals codec r sizes.tail

/-- The picture's ALF coefficients differ from those of the last APS sent (R141). -/
def newAlf (p : EncProfile) (q : Pic) (lastAps : List Int) : Bool := p.codec == 1 && !q.alf.isEmpty && q.alf != lastAps

/-- NAL units before slice 0, in the order of Table 4.11: initial_cpb_removal_delay and offset, cpb_removal_delay and dpb_output_delay (R150, V(n) = v), recovery_poc_cnt (R129). -/
def prefixNals (c : Nat) (k : Ctl) (rc : RcCfg) (q : Pic) (v : Int) (lastBp : Nat) (lastAps : List Int) (sizes : List Nat) : List Nal :=
  let codec := k.prof.codec
  let irap := isIrap q
  let g := q.coding.gop
  let initial := (90000 * ((rc.cpbSize : Int) - v) / ((rc.rateMax * 1000 : Nat) : Int)).toNat
  let output : Int := if g.structure' = 2 then (q.display : Int) - (q.number : Int) + ((2 ^ g.miniGop : Nat) : Int) - 1 else 0
  let fields : List (NalKind × NalBody) := [(.aud, .none)]
    ++ (if isKeyPic q then (paramKinds codec).map (fun p => (p, .params (paramSetsOf k rc q))) else [])
    ++ (if newAlf k.prof q lastAps then [(.aps, .alf q.alf)] else [])
    ++ (if rc.hrd && irap then [(.bufferingPeriod, .buffering initial 0)] else [])
    ++ (if rc.hrd then [(.pictureTiming, .pictureTiming (q.number - (if irap then q.number else lastBp)) output.toNat)] else [])
    ++ (if codec = 0 && q.refreshIdx == some 0 then [(.recoveryPoint, .recovery (q.refreshLen - 1))] else [])
  sizedNals codec fields sizes ++ [seiNal codec .timing (timingSei c q)]

/-- Suffix NAL units after the last slice (Table 4.11). -/
def suffixNals (s : State) (k : Ctl) (q : Pic) : List Nal :=
  let codec := k.prof.codec
  let c := k.cfg
  let o := if c.srcKind = 2 then some c.srcIndex else none
  let facts := pictureFacts s c q.source
  let shown := { q with staleLayers := facts.elim 0 (fun f => f.2.toNat) }
  q.loss.map (fun l => seiNal codec .lossFlag (lossSei q l))
    ++ (if o.isSome || c.lossPolicy == 1 then [seiNal codec .staleBitmap (staleSei o shown)] else [])
    ++ (match q.lighthouse, o, facts with
        | some _, some n, some f => (lhRect s (pictureLh s c q.source)).map (fun r => seiNal codec .regionHash (hashSei n q.outPicture r f.1.toNat))
        | _, _, _ => [])

/-- Bytes of each entropy unit of a slice, in unit order. -/
def codedUnits (q : Pic) (i n : Nat) : List (List Byte) := (List.range n).map (fun u => (q.units.getD (i * 256 + u) {}).bytes)

/-- Entry-point offsets: the length of each unit but the last, emulation prevention counted (R136; how they are counted is PRESUMED, log 164). -/
def entryPoints (header : List Byte) (units : List (List Byte)) : List Nat :=
  let upTo := fun (j : Nat) => (emulate 0 (header ++ (units.take j).flatten)).length
  (List.range (units.length - 1)).map (fun j => upTo (j + 1) - upTo j)

/-- The slice NAL unit as the emitter assembles it (R136): header, slice header, units in order, cabac_zero_words, emulation prevention over its payload. -/
def sliceNalBytes (codec : Nat) (q : Pic) (units : List (List Byte)) (inp : SliceIn) : List Byte :=
  nalHeader codec (sliceNalType codec q) inp.tid ++ nalPayload (inp.header ++ units.flatten ++ zeros (2 * inp.zeroWords))

/-- The slice NAL unit of a picture: its bytes, or its substitute's extent and type (R136, R139); a VVC GDR picture's header holds ph_recovery_poc_cnt (R129). -/
def sliceNal (codec : Nat) (q : Pic) (i size : Nat) (entries : List Nat) (body : SliceBody) : Nal :=
  { kind := .slice, type := sliceNalType codec q, size := size,
    body := .slice q.number i q.intra entries (if codec = 1 && q.refreshIdx == some 0 then some (q.refreshLen - 1) else none) body }

/-- The bytes of a NAL unit whose content the spec gives as bytes. -/
def wholeBytes (n : Nal) : Option (List Byte) := match n.body with | .bytes b => some b | _ => none

/-- A slice of this size finds the channel's slice queue full: it is occupied, and the slice goes beyond what it was admitted with (R160, Table 3.6 check 7). -/
def queueFull (s : State) (c : Nat) (x : Chan) (size : Nat) : Bool :=
  !x.run.queue.isEmpty && (heldLoad s c x).elim false (fun l => decide (sliceqHeld l < 8 * (size + sumBy (fun (e : SliceQ) => e.nals.getD e.sliceAt 0) x.run.queue)))

/-- A slice waits for room in the slice queue; it is counted in LATE_SLICES (R160). -/
def waitQueue (c : Nat) (s : State) : State :=
  modChan s c (fun x => if x.run.queueWait then x else { x with run.queueWait := true, counters.lateSlices := inc32 x.counters.lateSlices })

/-- PCR, PAT and ST 302 that ride with a group (R144, R381), and the run after it. -/
def tsExtras (x : Chan) (slice0 : Bool) (due : Rat) (firstOfPic0 : Bool) : TsExtra × Run :=
  let late := fun (l : Option Rat) (ns : Rat) => match l with | some t => decide (t + nsQ ns ≤ due) | none => true
  let pcr := (slice0 && firstOfPic0) || late x.run.lastPcr 20000000
  let pat := (slice0 && firstOfPic0) || late x.run.lastPat 100000000
  let ms := nsQ 1000000
  -- PES packet k rides once due ≥ (k + 1) ms + 20 µs
  let last := (Rat.floor ((due - nsQ 20000) / ms)).toNat
  let start := x.run.st302Next.getD (last - 1)
  let n := if x.st302.isEmpty then 0 else last - start
  ({ pes := slice0, pcr := pcr, pat := pat, audio := n, buses := x.st302.length, firstMs := start },
   { x.run with lastPcr := if pcr then some due else x.run.lastPcr, lastPat := if pat then some due else x.run.lastPat,
                st302Next := if x.st302.isEmpty then none else some (max last start) })

/-- The last slice of a picture has been placed in the slice queue: the picture's size is known, and V, U, V_DEV, QP_AVG and HRD_VIOLATIONS follow (R151, R152, R161, R171). -/
def finishPicture (c n f : Nat) (short : Bool) (s : State) : State :=
  match chanAt s c with
  | none => s
  | some x => match x.cfg, x.run.pics.get? n with
    | some cfg, some q => match q.coding.rc with
      | none => s
      | some rc =>
        let (v, u) := bucketAfter cfg rc n x.run.v x.run.u q.bits f
        let beyond := rc.hrd && (decide ((rc.cpbSize : Int) < x.run.v + (q.bits : Int)) || short)
        let qp := meanUp (sumBy (fun e => e.2.qpSum) q.rows) (sumBy (fun e => e.2.counted) q.rows)
        modChan s c (fun x => { x with
          run := { x.run with vPrev := x.run.v, uPrev := x.run.u, v := v, u := u, vPic := n + 1,
                              pics := x.run.pics.set n { q with filler := some f, violated := q.violated || beyond } },
          counters := { x.counters with qpAvg := qp, vDev := v - (vTargetBits rc : Int),
                                        hrdViolations := if beyond && !q.violated then inc32 x.counters.hrdViolations else x.counters.hrdViolations } })
    | _, _ => s

/-- A slice that fails R137: its substitute, and what failed in the journal; an injected CHECK is told to its command (R139, R419, R440). -/
def sliceFails (c n first owner : Nat) (recordsOk poisonNow poisonRead' : Bool) (s : State) : State :=
  let s := substitute c n first s
  let s := if poisonNow then poisonRead 8 owner 1 c n s else if !recordsOk || poisonRead' then s else journalAdd s 7 8 owner 1 c n
  match (if recordsOk then none else s.units.injections.find? (fun i => i.1 == 7 && i.2.1 == c && i.2.2.2.1 == 2)) with
  | some (_, _, seq, _, serial) => injectionDone serial seq s
  | none => s

/-- The group of a slice on every flow of its channel (R140, R143, R144): the state after it, and the groups' serials by flow. -/
def sliceGroups (c : Nat) (x : Chan) (k : Ctl) (q : Pic) (i : Nat) (sizes : List Nat) (ex : TsExtra) (due : Rat) (last eob : Bool) (s : State) : State × List (Nat × Nat) :=
  (chanFlows s c).foldl (fun (a : State × List (Nat × Nat)) w =>
    match flowOutAt a.1 w with
    | none => a
    | some fo =>
      let (s', ser) := addGroup w due (groupFrames fo.cfg sizes ex) 0 q.number i eob (groupInfo a.1 x k q fo.cfg sizes ex due last) a.1
      (s', a.2 ++ [(w, ser)])) (s, [])

/-- SLICE_ASSEMBLY (R136 to R140): the emitter assembles the next slice in decoding order, once all its units have ended; a slice that finds its queue full waits (R160). -/
def assembleSlice (c : Nat) (inp : SliceIn) (s : State) : State :=
  if !mayEncode s then s
  else match chanAt s c with
    | none => s
    | some x => match ctlOf s x, x.run.pics.get? x.run.nextSlice.1 with
      | some k, some q =>
        let n := x.run.nextSlice.1
        let i := x.run.nextSlice.2
        let slices := slicesOf k.prof k.g q.lossless
        match slices[i]?, q.coding.rc with
        | some sl, some rc =>
          let units := unitsOf k.prof k.g q.lossless sl
          let codec := k.prof.codec
          let parts := codedUnits q i units.length
          let built := sliceNalBytes codec q parts inp
          let nal := inp.readBack.getD built
          let outs := (List.range units.length).map (fun u => q.units.getD (i * 256 + u) {})
          let recordsOk := !(outs.any (fun u => u.failed))
          let poisoned := outs.any (fun u => u.poisoned)
          let ok := recordsOk && nal.length == built.length && noEmulation (nal.drop 2) && !inp.poisoned && !poisoned
          let size := if ok then nal.length else inp.substBytes
          if !coding x || x.run.aborting || !((List.range units.length).all (fun u => (q.unitsDone.getD i []).contains u)) then s
          else if queueFull s c x size then waitQueue c s
          else
            let s := if ok then s else sliceFails c n sl.rowA x.owner.val recordsOk inp.poisoned poisoned s
            let q := ((chanAt s c).bind (fun y => y.run.pics.get? n)).getD q
            let check := if ok then sliceCheckValue c n i nal else 0
            let last := decide (slices.length ≤ i + 1)
            -- bits(n) and filler (R151, R152)
            let eob := last && x.run.drainAfter == some n
            let pre := if i = 0 then prefixNals c k rc q x.run.v x.run.lastBp x.run.lastAps inp.sizes else []
            let post := (if last then suffixNals s k q else []) ++ (if eob then [eobNal codec] else [])
            let lastGroup := (slices.getLast?.map (fun e => e.group)).getD 0
            let bits := q.bits + 8 * (sumBy (fun (e : Nal) => e.size) (pre ++ post) + size)
            let before := if sl.group = lastGroup then q.bitsBeforeLast else bits
            let (f, short) := if last then pictureFiller k.cfg rc n x.run.v bits else (0, false)
            let nals := pre ++ [sliceNal codec q i size (entryPoints inp.header parts) (if ok then .coded else .substitute)] ++ (if f = 0 then [] else [fillerNal codec f]) ++ post
            let sizes := nals.map (fun e => e.size)
            let due := emission k.g q sl
            let s := sendCheck { channel := c, failed := !ok, slice := i, check := check, picture := n } s
            let (ex, run) := tsExtras ((chanAt s c).getD x) (i == 0) due (n == 0)
            let s := modChan s c (fun y => { y with run := { y.run with lastPcr := run.lastPcr, lastPat := run.lastPat, st302Next := run.st302Next } })
            let (s, groups) := sliceGroups c x k q i sizes ex due last eob s
            let s := modChan s c (fun y => { y with
              run := { y.run with
                nextSlice := if last then (n + 1, 0) else (n, i + 1), queueWait := false,
                lastBp := if i = 0 && isIrap q then n else y.run.lastBp, lastAps := if i = 0 && newAlf k.prof q y.run.lastAps then q.alf else y.run.lastAps,
                pics := y.run.pics.modify n (fun q => { q with slices := i + 1, bits := bits, bitsBeforeLast := before }),
                queue := y.run.queue ++ [{ picture := n, slice := i, due := due, waited := x.run.queueWait, nals := sizes, sliceAt := pre.length, rowA := sl.rowA, extra := ex, check := check,
                                           substitute := !ok, firstOfRow := sl.first, eob := eob, groups := groups }] },
              counters.checks := if ok then (y.counters.checks ++ [(n, i, check)]).drop (y.counters.checks.length - 63) else y.counters.checks })
            let s := emit s (.nals c n nals)
            let s := if last then finishPicture c n f short s else s
            settleSlices c (feedConfidence c n (i == 0) last (pre.filterMap wholeBytes ++ (if ok then [nal] else []) ++ post.filterMap wholeBytes) s)
        | _, _ => s
      | _, _ => s

/-- PICTURE_START (R19). -/
def execPictureStart (dt : Nat) (c : Fin 64) (x : PicIn) (s : State) : Host.Outcome State Fault Refusal := .next (actAfter dt s (pictureStart c.val x))
/-- ROW_START (R155). -/
def execRowStart (dt : Nat) (x : RowIn) (s : State) : Host.Outcome State Fault Refusal := .next (actAfter dt s (rowStart x.chan.val x.search))
/-- VARIANT_CHOICE (R158). -/
def execVariantChoice (c : Fin 64) (e : CtuEst) (s : State) : Host.Outcome State Fault Refusal := .next (act s (variantChoice c.val e))
/-- ENTROPY_UNIT_START (R135). -/
def execEntropyUnitStart (dt : Nat) (e : Fin 12) (o : EntropyOut) (s : State) : Host.Outcome State Fault Refusal := .next (actAfter dt s (entropyStart e.val o))
/-- SLICE_ASSEMBLY (R136). -/
def execSliceAssembly (dt : Nat) (c : Fin 64) (x : SliceIn) (s : State) : Host.Outcome State Fault Refusal := .next (actAfter dt s (assembleSlice c.val x))

end Sys2Proof.Machine
end

