-- ==== Sys2Proof/Machine/Matrix.lean ====
section
/-! DEFINITION. Transactions of the fast matrix: address decode, IDs, issue, grants, service by the targets, responses and error responses (R237 to R240, R247, R253 to R260, R271). -/

namespace Sys2Proof.Machine

/-- First device address of QDR-IV (Table 9.2). -/
def qdrBase : Nat := 0x10000000000

/-- The address decodes to the default target T47 (R254, Table 9.2): the QDR-IV and HBM3E ranges end with the memory in service. -/
def unmapped (s : State) (addr : Nat) : Bool :=
  let hbmEnd := hbmMib s * 1048576
  let qdrEnd := 0x10000000000 + qdrMbit s * 131072
  !(decide (addr < hbmEnd)
    || (decide (0x10000000000 ≤ addr) && decide (addr < qdrEnd))
    || (decide (0x20000000000 ≤ addr) && decide (addr ≤ 0x20001FFFFFF))
    || (decide (0x30000000000 ≤ addr) && decide (addr ≤ 0x300007FFFFF))
    || (decide (0x30001000000 ≤ addr) && decide (addr ≤ 0x30001FFFFFF))
    || (decide (0x30002000000 ≤ addr) && decide (addr ≤ 0x300020FFFFF))
    || (decide (0x30003000000 ≤ addr) && decide (addr ≤ 0x3000300FFFF)))

/-- QPORT and bank of a QDR-IV byte offset (R237): 256-byte granules over the ports of the interleave in number order, rotating through eight banks on each. -/
def qdrPlace (s : State) (off : Nat) : Nat × Nat :=
  let ports := (List.range 8).filter (fun p => s.mem.qportLaid.getLsbD p)
  let g := off / 256
  (ports.getD (g % ports.length) 0, g / ports.length % 8)

/-- PC of an HBM3E address (Table 8.4, R246): among the PCs that remain, once some have been removed, the manual gives no order (log 170). -/
def hbmPc (s : State) (addr : Nat) : Nat :=
  if s.mem.pcRemoved = 0 then addr / 4096 % 64 ^^^ addr / 262144 % 64
  else
    let up := (List.range 64).filter (fun p => !(s.mem.pcRemoved.getLsbD p))
    up.getD (Config.reducedPc s.mem.pcRemoved.toNat (addr / 4096) % up.length) 0

/-- Target port of a request (R254, Table 9.2): T40 by its sideband, every other one by its address. -/
def targetOf (s : State) (r : FabReq) : Nat :=
  let a := r.addr.toNat
  if r.host.isSome then 40
  else if unmapped s a then 47
  else if a < qdrBase then 8 + hbmPc s a / 2
  else if a < 0x20000000000 then (qdrPlace s (a - qdrBase)).1
  else if a < 0x20001000000 then 41
  else if a < 0x30000000000 then 42
  else if a < 0x30001000000 then 43
  else if a < 0x30002000000 then 44
  else if a < 0x30003000000 then 45
  else 46

/-- A request lies within one aligned 512-byte block (R255), and a write brings the bytes it writes. -/
def legalReq (r : FabReq) : Bool :=
  decide (1 ≤ r.len) && decide (r.addr.toNat % 512 + r.len ≤ 512) && (!r.write || r.data.length == r.len)

/-- Beats of 1,024 bits that the 32-byte atoms of a request take (R255). -/
def beatsOf (r : FabReq) : Nat := (((r.addr.toNat + r.len + 31) / 32 - r.addr.toNat / 32) * 32 + 127) / 128

/-- Domain clock on the far side of the Strait of a master port and of a target port (Table 1.5a, Table 1.6); none: its block runs on CLK_FAB itself. -/
def masterDomain (m : Nat) : ClockDomain :=
  if m < 8 then .isle else if m < 10 then .ent else if m = 22 then .time else if m = 24 ∨ m = 25 then .pcie else if m = 26 then .ctl else if m = 28 then .ferry else .fab
def targetDomain (t : Nat) : ClockDomain := if t < 8 then .qdr else if t < 40 then .hbm else if t = 40 then .pcie else if t = 43 then .ctl else .fab

/-- Clock of an arbiter (R261, R267). -/
def arbDomain (a : Nat) : ClockDomain := if 48 ≤ a ∧ a < 56 then .qdr else if 56 ≤ a ∧ a < 120 then .hbm else .fab

/-- Requester of a transaction at its target's arbiter (R256). -/
def requesterOf (r : FabReq) : Nat := 2 * r.master.val + r.write.toNat

/-- Two requests touch the same 32-byte atom (R240, R256). -/
def sameAtom (a b : FabReq) : Bool :=
  decide (a.addr.toNat / 32 ≤ (b.addr.toNat + b.len - 1) / 32) && decide (b.addr.toNat / 32 ≤ (a.addr.toNat + a.len - 1) / 32)

/-- Transaction IDs of master port m in use (R255). -/
def idsInUse (s : State) (m : Fin 32) : List Nat :=
  (s.fab.txs.filter (fun x => x.req.master == m)).map FabTx.id ++ (s.fab.resps.filter (fun x => x.tx.req.master == m)).map (fun x => x.tx.id)

/-- The free ID that master port m takes next: the lowest (DESIGN CHOICE, log 173); none: it waits (R255). -/
def freeId (s : State) (m : Fin 32) : Option Nat := (List.range 512).find? (fun i => !((idsInUse s m).contains i))

/-- A master port issues a request (R255): it takes a free ID, and a read needs buffer space for its whole response. -/
def issueTx (scrub : Option ScrubFind) (r : FabReq) (s : State) : State :=
  if !(legalReq r) || (!r.write && !r.room) || clockLost s (masterDomain r.master.val) then s
  else match freeId s r.master with
    | none => s
    | some i => { s with fab.txs := s.fab.txs ++ [{ seq := s.fab.nextSeq, id := i, req := r, target := targetOf s r, scrub := scrub }], fab.nextSeq := s.fab.nextSeq + 1 }

/-- Its port holds a request back behind an earlier one of the other direction, to the same target and atom, that has not been granted (R256). -/
def heldBack (s : State) (x : FabTx) : Bool :=
  s.fab.txs.any (fun e => decide (e.seq < x.seq) && e.req.master == x.req.master && e.target == x.target && e.grantedAt.isNone && e.req.write != x.req.write && sameAtom e.req x.req)

/-- The transaction that requester i presents at target t: its oldest that no grant has taken, unless it is held back (R256). -/
def presented (s : State) (t i : Nat) : Option FabTx :=
  (s.fab.txs.find? (fun x => x.target == t && x.grantedAt.isNone && requesterOf x.req == i)).filter (fun x => !(heldBack s x))

/-- Targets with a response for master port m, in number order (R258). -/
def respTargets (s : State) (m : Nat) : List Nat := (List.range 48).filter (fun t => s.fab.resps.any (fun x => x.tx.req.master.val == m && x.tx.target == t))

/-- Requesters of arbiter a now (Table 9.4, R256, R258): the ports that present a transaction, M31 apart, the queue of a QPORT that is not replaying, the responses of a
master port; elsewhere, and for training, those listed. -/
def requesting (s : State) (a : Nat) (reqs : List Nat) : List Nat :=
  if a < 48 then (if clockLost s (targetDomain a) then [] else (List.range 62).filter (fun i => (presented s a i).isSome))
  else if a < 56 then (if (qportAt s (a - 48)).queue.isEmpty || decide (s.now < (qportAt s (a - 48)).busyUntil) then [] else [0]) ++ reqs.filter (· != 0)
  else if a < 131 then reqs
  else if clockLost s (masterDomain (a - 131)) then []
  else respTargets s (a - 131)

/-- The transaction leaves the matrix for its target's answer. -/
def dropTx (x : FabTx) (s : State) : State := { s with fab.txs := s.fab.txs.filter (fun e => e.seq != x.seq) }

/-- The block behind a request is in reset: a read response due to it is discarded at its port (R271). -/
def respGone (s : State) (r : FabReq) : Bool := !r.write && r.fn.elim false (fun f => (fnAt s f.val).busy)

/-- A target completes a request: its one response joins those of the target (R257). -/
def respond (x : FabTx) (err poisoned : Bool) (data : List Byte) (s : State) : State :=
  if respGone s x.req then dropTx x s
  else { dropTx x s with fab.resps := s.fab.resps ++ [{ tx := x, err := err, poisoned := poisoned, data := if x.req.write then [] else data }] }

/-- Bytes that carry the poison mark: no value is given for them (log 9). -/
def poisonedBytes (s : State) (n : Nat) : List Byte := (List.range n).map (fun i => BitVec.ofNat 8 (freshValue s >>> (8 * i)))

/-- A read of memory out of service answers poisoned data, and a write to it is discarded (R236, R238, R246). -/
def answerOut (x : FabTx) (s : State) : State := spendFree (respond x false (!x.req.write) (poisonedBytes s x.req.len) s)

/-- Atoms of a memory: 32 bytes of HBM3E, one 8-byte device access of QDR-IV (Table 8.6). -/
def atomBytes (hbm : Bool) : Nat := if hbm then 32 else 8

/-- Byte offset of a request in its memory. -/
def memOffset (hbm : Bool) (r : FabReq) : Nat := if hbm then r.addr.toNat else r.addr.toNat - qdrBase

/-- Atoms that a request touches, by first byte; and those that it covers whole (R247). -/
def atomsOf (hbm : Bool) (r : FabReq) : List Nat :=
  let u := atomBytes hbm
  let o := memOffset hbm r
  (List.range ((o + r.len - 1) / u - o / u + 1)).map (fun i => (o / u + i) * u)
def atomsWhole (hbm : Bool) (r : FabReq) : List Nat :=
  (atomsOf hbm r).filter (fun a => decide (memOffset hbm r ≤ a) && decide (a + atomBytes hbm ≤ memOffset hbm r + r.len))

/-- Mark an atom poisoned. -/
def markPoison (hbm : Bool) (atom : Nat) (s : State) : State := { s with mem.poison := s.mem.poison.filter (fun e => e != (hbm, atom)) ++ [(hbm, atom)] }

/-- A full write of an atom clears its poison (R247); an armed bit flip on it completes (R440 KIND 1). -/
def atomWritten (hbm : Bool) (atom : Nat) (s : State) : State :=
  let s := { s with mem.poison := s.mem.poison.filter (fun e => e != (hbm, atom)) }
  match s.units.injections.find? (fun e => e.1 == 1 && e.2.2.1 == (if hbm then atom else qdrBase + atom)) with
  | none => s
  | some e => injectionDone e.2.2.2.2 s.journal.nextSeq (journalAdd s 3 1 deviceFn 6 hbm.toNat atom)

/-- What the error code of a read says (R247): a corrected error is counted, and so is one beyond correction. -/
def readFound (hbm : Bool) (found : ScrubFind) (s : State) : State :=
  match found with
  | .clean => s
  | .correctable onDie => countFault (if !hbm then { s with mem.qdrCe := inc32 s.mem.qdrCe } else if onDie then { s with mem.hbmCeDie := inc32 s.mem.hbmCeDie } else { s with mem.hbmCeHost := inc32 s.mem.hbmCeHost }) 3
  | .uncorrectable => if hbm then { s with mem.hbmUe := inc32 s.mem.hbmUe } else { s with mem.qdrUe := inc32 s.mem.qdrUe }

/-- A write reaches its memory (R247): atoms it covers whole lose their poison, atoms it covers in part keep it, and marked data marks every atom. -/
def serveWrite (hbm : Bool) (x : FabTx) (s : State) : State :=
  let s := { s with mem.cells := Memory.writeAll s.mem.cells x.req.addr.toNat x.req.data }
  let s := (atomsWhole hbm x.req).foldl (fun s a => atomWritten hbm a s) s
  let s := if x.req.poisoned then (atomsOf hbm x.req).foldl (fun s a => markPoison hbm a s) s else s
  respond x false false [] s

/-- A read of its memory (R247): beyond correction, or on a marked atom, its data goes out poisoned. -/
def serveRead (hbm : Bool) (x : FabTx) (found : ScrubFind) (s : State) : State :=
  let s := readFound hbm found s
  if found == .uncorrectable || (atomsOf hbm x.req).any (fun a => s.mem.poison.contains (hbm, a)) then spendFree (respond x false true (poisonedBytes s x.req.len) s)
  else respond x false false (Memory.bytes s.mem.cells x.req.addr.toNat x.req.len) s

/-- The scrubbing of one memory. -/
def scrubOf (s : State) (hbm : Bool) : ScrubCfg := if hbm then s.mem.scrubHbm else s.mem.scrubQdr
def setScrub (hbm : Bool) (x : ScrubCfg) (s : State) : State := if hbm then { s with mem.scrubHbm := x } else { s with mem.scrubQdr := x }

/-- A corrected error of a scrub pass: counted, and the source asserted with one journal entry when the pass reaches its threshold (R249, R419). -/
def scrubCorrected (hbm onDie : Bool) (addr : Nat) (s : State) : State :=
  let x := scrubOf s hbm
  let s := if !hbm then { s with mem.qdrCe := inc32 s.mem.qdrCe } else if onDie then { s with mem.hbmCeDie := inc32 s.mem.hbmCeDie } else { s with mem.hbmCeHost := inc32 s.mem.hbmCeHost }
  let s := setScrub hbm { x with ceThisPass := x.ceThisPass + 1 } s
  if x.ceThreshold ≠ 0 ∧ x.ceThisPass + 1 = x.ceThreshold then journalAdd { s with mem.ceSrc := true } 3 0 deviceFn 6 hbm.toNat addr else countFault s 3

/-- An uncorrectable error found by scrubbing: the atom is rewritten poisoned and its address enters the UE log (R249, class 4). -/
def scrubPoison (hbm : Bool) (addr : Nat) (s : State) : State :=
  let s := if hbm then { s with mem.hbmUe := inc32 s.mem.hbmUe } else { s with mem.qdrUe := inc32 s.mem.qdrUe }
  let log := s.mem.ueLog ++ [(hbm, addr)]
  journalAdd { markPoison hbm addr s with mem.ueLog := log.drop (log.length - 32), mem.ueSrc := true } 4 0 deviceFn 6 hbm.toNat addr

/-- A scrub read and the rewrite it calls for, in its place among the requests of its memory (R240, R249). -/
def serveScrub (hbm : Bool) (x : FabTx) (r : ScrubFind) (s : State) : State :=
  let addr := memOffset hbm x.req
  let s := match r with
    | .clean => s
    | .correctable onDie => scrubCorrected hbm onDie addr s
    | .uncorrectable => scrubPoison hbm addr s
  respond x false false [] s

/-- A memory serves a request (R247, R249). -/
def serveAccess (hbm : Bool) (x : FabTx) (found : ScrubFind) (s : State) : State :=
  match x.scrub with
  | some r => serveScrub hbm x r s
  | none => if x.req.write then serveWrite hbm x s else serveRead hbm x found s

/-- Bank and row of a request in its PC. -/
def bankOf (x : FabTx) : Nat := Config.hbmBank (x.req.addr.toNat / 512)
def rowOf (x : FabTx) : Nat := Config.hbmRow (x.req.addr.toNat / 512)

/-- An arriving request is queued in the class of its master port (R239, R253); one that matches a queued request on the open row of its bank puts the bank in order until that request is served (R240). -/
def queueRequest (now : Nat) (x : PcCtl) (r : FabTx) : PcCtl :=
  let earlier := (x.queue.filter (fun q => sameAtom q.tx.req r.req)).getLast?
  let x := match earlier with
    | some q => if x.openRows.get? (bankOf r) = some (rowOf r) then { x with inOrder := x.inOrder ++ [(bankOf r, q.id)] } else x
    | none => x
  let cls := portClass r.req.master.val
  { x with queue := x.queue ++ [{ id := x.nextId, tx := r, cls := cls, arrived := now }], nextId := x.nextId + 1, lastRt := if cls = 0 then now else x.lastRt }

/-- The error response of a target is recorded (R259). -/
def errorCounted (r : FabReq) (s : State) : State := recordDecodeError r.master.val r.write r.addr.toNat s

/-- A command that a failed request served ends with ST_FAULT and PROGRESS (Table 9.3, Table 8.7). -/
def failServed (r : FabReq) (s : State) : State := match r.cmd with | some c => endCmd c stFault 0 0 s | none => s

/-- Firmware has read poisoned data or met an error response: its core is reset, its thread freed, its command ends with ST_FAULT (Table 8.7, Table 9.3, class 9). -/
def firmwareFault (r : FabReq) (s : State) : State :=
  let s := match r.core with
    | some c => match (coreAt s c.val).running with | some t => resetCore c.val t s | none => s
    | none => s
  failServed r s

/-- How the master acts on an error response (Table 9.3); M25's write is dropped and logged, its read is an Unsupported Request. -/
def errorEffect (r : FabReq) (s : State) : State :=
  let m := r.master.val
  if m = 25 then
    let f := (r.fn.getD 0).val
    if r.write then modFn s f (fun x => { x with aer := true }) else emit s (.unsupported f r.addr.toNat)
  else if m = 24 ∨ m = 27 ∨ m = 28 then failServed r s
  else if m = 26 then firmwareFault r s
  else if m < 19 then { s with mem.poisonReads := inc32 s.mem.poisonReads, mem.ueSrc := true }
  else s

/-- An error response (R259): recorded, a fault of class 6 for any master but M25 and M31, and acted on as Table 9.3 gives. -/
def answerError (r : FabReq) (s : State) : State :=
  let s := errorCounted r s
  let m := r.master.val
  let s :=
    if m = 25 ∨ m = 31 then s
    else match (if m = 30 then injectionOf s 6 0 else none) with
      | some (_, _, serial) => injectionDone serial s.journal.nextSeq (journalAdd s 6 1 deviceFn 5 m r.addr.toNat)
      | none => journalAdd s 6 8 deviceFn 5 m r.addr.toNat
  errorEffect r s

/-- The error response to a request in flight: zeros to a read, the data of a write discarded (R259). -/
def respondError (x : FabTx) (s : State) : State := answerError x.req (respond x true false (zeros x.req.len) s)

/-- Buffers of the matrix that hold bytes: T43, T44 and T45 (Table 9.2). -/
def serveBuffer (x : FabTx) (s : State) : State :=
  if x.req.write then respond x false false [] { s with mem.cells := Memory.writeAll s.mem.cells x.req.addr.toNat x.req.data }
  else respond x false false (Memory.bytes s.mem.cells x.req.addr.toNat x.req.len) s

/-- A target takes a granted request: a memory queues it, or answers for what is out of service (R236, R238, R246); a bridge takes only aligned 4-byte and 8-byte accesses
(R260); T47 answers by ERROR_RESPONSE. -/
def acceptTx (x : FabTx) (s : State) : State :=
  let t := x.target
  if t < 8 then (if s.mem.qportIn.getLsbD t then modQport s t (fun q => { q with queue := q.queue ++ [x] }) else answerOut x s)
  else if t < 40 then
    let p := hbmPc s x.req.addr.toNat
    if s.mem.pcOut.getLsbD p then answerOut x s else modPc s p (fun c => queueRequest s.now c x)
  else if t = 41 ∨ t = 42 then
    if (x.req.len = 4 ∨ x.req.len = 8) ∧ x.req.addr.toNat % x.req.len = 0 then respond x false false x.req.returned s else respondError x s
  else if 43 ≤ t ∧ t < 46 then serveBuffer x s
  else if t = 47 then s
  else respond x false false x.req.returned s

/-- The transaction under the grant of target arbiter a ends, and its target takes it. -/
def endGrantedTx (a : Nat) (s : State) : State :=
  match (arbAt s a).grant.bind Grant.tx with
  | none => s
  | some n =>
    let s := modArb s a (fun x => { x with grant := x.grant.map (fun g => { g with tx := none }) })
    match s.fab.txs.find? (fun x => x.seq == n) with | some x => acceptTx x s | none => s

/-- Mark a transaction granted. -/
def grantTx (x : FabTx) (s : State) : State :=
  { s with fab.txs := s.fab.txs.map (fun e => if e.seq = x.seq then { e with grantedAt := some s.now } else e) }

/-- The debug port's oldest transaction at target a runs as the emergency there (R268). -/
def takeDebug (a : Nat) (s : State) : State :=
  if 48 ≤ a then s
  else match s.fab.txs.find? (fun x => x.target == a && x.grantedAt.isNone && x.req.master.val == 31) with
    | some x => acceptTx x (grantTx x s)
    | none => s

/-- A QPORT issues its oldest access (R238, Table 8.3). -/
def serveQport (p : Nat) (found : ScrubFind) (s : State) : State :=
  match (qportAt s p).queue with
  | [] => s
  | x :: r => serveAccess false x found (modQport s p (fun q =>
      { q with queue := r, nextAccess := q.nextAccess + 1, recent := q.recent.filter (fun e => decide (s.now < e.2 + 8)) ++ [(q.nextAccess, s.now)] }))

/-- The region of QDR-IV KIND 0 or HBM3E KIND 8 holds this address: both lie at the base of their memory (R234, Table 8.7). -/
def firmwareStore (s : State) (addr : Nat) : Bool :=
  decide (addr < s.mem.regions.getD 8 0 * 1048576) || (decide (qdrBase ≤ addr) && decide (addr < qdrBase + s.mem.regions.getD 0 0 * 131072))

/-- Master port m takes the oldest response of target t, and its ID is free (R255, R257). A poisoned read is counted; the engines behind M0 to M18 count theirs where they act on it (R248, log 173). -/
def deliverResp (m t : Nat) (s : State) : State :=
  match s.fab.resps.find? (fun x => x.tx.req.master.val == m && x.tx.target == t) with
  | none => s
  | some x =>
    let s := emit { s with fab.resps := s.fab.resps.erase x } (.response m x.tx.id (beatsOf x.tx.req) x.err x.poisoned x.data)
    let s := if x.poisoned && decide (19 ≤ m) then poisonRead 0 deviceFn 6 m x.tx.req.addr.toNat s else s
    if x.poisoned && m == 26 && firmwareStore s x.tx.req.addr.toNat then firmwareFault x.tx.req (journalAdd s 9 0 deviceFn 5 26 x.tx.req.addr.toNat) else s

/-- Requester i of arbiter a begins its transaction: the port's request is granted, a QPORT issues an access, a response is delivered. -/
def beginTx (a i : Nat) (found : ScrubFind) (s : State) : State :=
  if a < 48 then match presented s a i with
    | some x => modArb (grantTx x s) a (fun y => { y with grant := y.grant.map (fun g => { g with tx := some x.seq }) })
    | none => s
  else if a < 56 then (if i = 0 then serveQport (a - 48) found s else s)
  else if 131 ≤ a then deliverResp (a - 131) i s
  else s

/-- ARBITER_ROUND (R255 to R263): ports issue, the transaction of arbiter a ends, and the next one begins, unless an emergency takes the arbiter or a broken tenure resumes. -/
def matrixRound (a : Nat) (reqs : List Nat) (issued : List FabReq) (found : ScrubFind) (s : State) : State :=
  if clockLost s (arbDomain a) then s
  else
  let s := endGrantedTx a (issued.foldl (fun s r => issueTx none r s) s)
  let x := arbAt s a
  let s := arbiterRound a (requesting s a reqs) s
  if !x.emergencyWait.isEmpty then (if (arbAt s a).emergency = some false then takeDebug a s else s)
  else if x.emergency.isSome && x.grant.isSome then s
  else match (arbAt s a).grant with
    | some g => beginTx a g.requester found s
    | none => s
def execArbiterRound (dt a : Nat) (x : RoundIn) (s : State) : Host.Outcome State Fault Refusal :=
  .next (actAfter dt s (matrixRound a x.requesters x.issued x.found))

/-- EMERGENCY_PREEMPTION (R268, R269): the holder's transaction completes, then the emergency runs. -/
def emergencyPreempts (a : Nat) (refresh : Bool) (s : State) : State :=
  let s := preempt a refresh (if a < 48 then endGrantedTx a s else s)
  if (arbAt s a).emergency = some false ∧ (arbAt s a).emergencyWait = [] ∧ !refresh then takeDebug a s else s
def execEmergencyPreemption (a : Nat) (refresh : Bool) (s : State) : Host.Outcome State Fault Refusal := .next (act s (emergencyPreempts a refresh))

/-- REQUEST_WITHDRAWAL (R271): the request of requester i at target a leaves the matrix and frees its ID; a transaction under way ends its tenure and is served. -/
def withdrawTx (a i : Nat) (s : State) : State :=
  if 48 ≤ a then s
  else
    let s := match (arbAt s a).grant with
      | some g =>
        if g.requester ≠ i then (match presented s a i with | some x => dropTx x s | none => s)
        else if g.remaining = g.run then { s with fab.txs := s.fab.txs.filter (fun e => some e.seq != g.tx) }
        else endGrantedTx a s
      | none => match presented s a i with | some x => dropTx x s | none => s
    withdraw a i s
def execRequestWithdrawal (a i : Nat) (s : State) : Host.Outcome State Fault Refusal := .next (act s (withdrawTx a i))

/-- A reset of function f cancels its requests that no target has granted, and its read responses are discarded (R271). -/
def cancelFnTx (f : Nat) (s : State) : State :=
  let mine := fun (r : FabReq) => r.fn.elim false (fun g => g.val == f)
  { s with fab.txs := s.fab.txs.filter (fun x => !(mine x.req && x.grantedAt.isNone)), fab.resps := s.fab.resps.filter (fun x => !(mine x.tx.req && !x.tx.req.write)) }

/-- The clock of d stops (R32): its Straits freeze, and words already written into them are discarded, not delivered: requests on their way from its masters or to its targets, and
responses on their way from its targets or to its masters. -/
def straitStops (d : ClockDomain) (s : State) : State :=
  let reqLost := fun (x : FabTx) => (masterDomain x.req.master.val == d && x.grantedAt.isNone) || (targetDomain x.target == d && x.grantedAt.isSome)
  let respLost := fun (x : FabResp) => masterDomain x.tx.req.master.val == d || targetDomain x.tx.target == d
  { s with fab.txs := s.fab.txs.filter (fun x => !(reqLost x)), fab.resps := s.fab.resps.filter (fun x => !(respLost x)) }

/-- ERROR_RESPONSE (R259): T47 answers a request. One that the matrix holds is answered 8 CLK_FAB cycles after its grant; one that it does not hold was issued and granted with this step. -/
def errorResponse (held : Bool) (r : FabReq) (s : State) : State :=
  if r.host.isSome || !(unmapped s r.addr.toNat) then s
  else if !held then answerError r s
  else match s.fab.txs.find? (fun x => x.target == 47 && x.req == r) with
    | none => s
    | some x => match x.grantedAt with
      | some t => if t + 4 ≤ s.now then respondError x s else s
      | none => s
def execErrorResponse (dt : Nat) (held : Bool) (r : FabReq) (s : State) : Host.Outcome State Fault Refusal := .next (actAfter dt s (errorResponse held r))

end Sys2Proof.Machine
end

