-- ==== Sys2Proof/Machine/Triggers.lean ====
section
/-! DEFINITION. Pulse outputs, triggers, captures, control cycles and TIME_STATUS (R355 to R361). -/

namespace Sys2Proof.Machine

/-- The pulse output or trigger of a packet is taken by another function (R360). -/
def denyPulse (ci : CmdIn) (s : State) : Bool := (s.time.pulses.get? (fld ci.p 2 1 0)).elim false (fun x => x.owner.val != ci.f)
def denyTrigger (ci : CmdIn) (s : State) : Bool := (s.time.triggers.get? (fld ci.p 2 1 0)).elim false (fun x => x.owner.val != ci.f)

/-- START, NUM, DEN and WIDTH are legal for a mode (Table 13.7). -/
def pulseOk (p : Packet) : Bool :=
  let mode := fld p 2 3 2
  mode == 0 || (mode != 3 && decide (word p 5 < 1000000000) && decide (10 ≤ word p 8)
    && (mode == 1 || (decide (1000 ≤ word p 6) && decide (1 ≤ fld p 7 15 0) && decide (word p 8 * fld p 7 15 0 < word p 6))))

/-- PULSE_SET (R355, R356). -/
def runPulseSet (ci : CmdIn) (s : State) : CmdRes :=
  let p := ci.p
  let o := fld p 2 1 0
  let mode := fld p 2 3 2
  let low := flag p 2 4
  if !pulseOk p then refuse s stBadParam
  else if mode = 0 then okDone (drivePulse o low { s with time.pulses := s.time.pulses.erase o }) 1
  else if nsInstant (timeNsOf p 3) ≤ s.time.local' then refuse s stBadState
  else
    let x : Pulse := { owner := Fin.ofNat 32 ci.f, mode := mode, activeLow := low, start := nsInstant (timeNsOf p 3), num := word p 6, den := fld p 7 15 0, width := word p 8 }
    okDone (drivePulse o low { s with time.pulses := s.time.pulses.set o x }) 1
def meanPulseSet : Meaning := { deny := denyPulse, run := runPulseSet }

/-- A pulse of output o is due (R355). -/
def pulseDue (s : State) (x : Pulse) : Bool :=
  if x.mode = 1 then x.k == 0 && decide (x.start ≤ s.time.local') else decide (seriesInstant x.start x.num x.den x.k ≤ s.time.local')

/-- PULSE_START (R355). -/
def pulseStart (o : Nat) (s : State) : State :=
  match s.time.pulses.get? o with
  | none => s
  | some x => if clockLost s .time || !pulseDue s x then s else pulseBegin o x s

/-- PULSE_END (R355, R356): WIDTH ns of elapsed time have passed. -/
def pulseEnd (o : Nat) (s : State) : State :=
  match s.time.pulses.get? o with
  | none => s
  | some x => match x.highUntil with
    | none => s
    | some t => if 2 * s.now < t ∨ clockLost s .time then s else drivePulse o x.activeLow { s with time.pulses := s.time.pulses.set o { x with highUntil := none } }

/-- Parameters of TRIGGER_SET are legal (Table 13.8). -/
def triggerOk (p : Packet) : Bool :=
  fld p 2 3 2 != 3 && fld p 2 5 4 != 3 && fld p 2 9 8 != 3
    && (fld p 2 3 2 != 2 || decide (word p 5 < 1000000000))
    && (fld p 2 3 2 == 0 || fld p 2 9 8 != 2 || (decide (1000 ≤ word p 6) && decide (1 ≤ fld p 7 15 0)))

/-- ARMED starts on trigger n are cancelled (R359). -/
def cancelTriggered (n : Nat) (s : State) : State :=
  s.chans.foldl (fun s e => if e.2.st == .armed && e.2.run.startMode == 2 && e.2.run.trigger == n then cancelArmed e.1 stCancelled s else s) s

/-- TRIGGER_SET (R358 to R360). -/
def runTriggerSet (ci : CmdIn) (s : State) : CmdRes :=
  let p := ci.p
  let n := fld p 2 1 0
  let source := fld p 2 3 2
  let action := fld p 2 9 8
  let at' := nsInstant (timeNsOf p 3)
  if !triggerOk p then refuse s stBadParam
  else if source = 2 ∧ at' ≤ s.time.local' then refuse s stBadState
  else
    let s := if source = 0 ∨ action ≠ 1 then cancelTriggered n s else s
    let s := { s with time.capt := s.time.capt.set n { s.time.capt.getD n {} with count := 0 } }
    let x : Trigger := { owner := Fin.ofNat 32 ci.f, source := source, edge := fld p 2 5 4, action := action, at' := at', num := word p 6, den := fld p 7 15 0 }
    okDone { s with time.triggers := if source = 0 then s.time.triggers.erase n else s.time.triggers.set n x } 1
def meanTriggerSet : Meaning := { deny := denyTrigger, run := runTriggerSet }

/-- TIME_CAPT[n] takes a capture (R357). -/
def capture (n : Nat) (t : Instant) (s : State) : State :=
  let c := s.time.capt.getD n {}
  let (sec, ns, _) := instantParts t
  { s with time.capt := s.time.capt.set n { sec := sec, ns := ns, valid := true, overrun := c.overrun || c.valid, count := inc32 c.count, src := true } }

/-- Channels armed on trigger n take the first fire time at or after the start of their CHAN_START (R96, R359): that is their start event (Table 3.3). -/
def fireStarts (n : Nat) (t : Instant) (s : State) : State :=
  { s with chans := s.chans.mapVals (fun _ x =>
      if x.st == .armed && x.run.startMode == 2 && x.run.trigger == n && x.run.captured.isNone && decide (x.run.startAt ≤ t) then { x with st := .running, run := { x.run with captured := some t } } else x) }

/-- Trigger n fires at t (R358, R359). -/
def fire (n : Nat) (x : Trigger) (t : Instant) (s : State) : State :=
  let s := capture n t s
  if x.action = 1 then fireStarts n t s
  else if x.action = 2 ∧ x.cycle.isNone then { s with time.triggers := s.time.triggers.set n { x with cycle := some (t, 0) } }
  else s

/-- TRIGGER_EDGE (R357): an edge of the configured kind, accepted once its level has held for 4 ticks. -/
def triggerEdge (n : Nat) (rising : Bool) (held : Nat) (t : Instant) (s : State) : State :=
  match s.time.triggers.get? n with
  | none => s
  | some x =>
    if clockLost s .time || x.source != 1 || decide (held < 4) || !(x.edge == 2 || (x.edge == 0) == rising) then s else fire n x t s

/-- TRIGGER_TIME (R358): SOURCE 2 fires once, at TIME. -/
def triggerTime (n : Nat) (s : State) : State :=
  match s.time.triggers.get? n with
  | none => s
  | some x =>
    if clockLost s .time || x.source != 2 || x.fired || decide (s.time.local' < x.at') then s
    else
      let x := { x with fired := true }
      fire n x x.at' { s with time.triggers := s.time.triggers.set n x }

/-- CONTROL_EVENT (R359): event k of the control cycle. -/
def controlEvent (n : Nat) (s : State) : State :=
  match s.time.triggers.get? n with
  | none => s
  | some x => match x.cycle with
    | none => s
    | some (c, k) =>
      if clockLost s .time || decide (s.time.local' < seriesInstant c x.num x.den k) then s
      else controlFire n k x { s with time.triggers := s.time.triggers.set n { x with cycle := some (c, k + 1) } }

/-- FREQ_PPB (Table 13.9). -/
def freqPpb (addend : Nat) : Int := (2 * ((addend : Int) - 0x200000000) * 1000000000 + 8589934592) / 17179869184

/-- The 64-byte time status record (Table 13.9). -/
def timeRecord (s : State) : List Byte :=
  let t := s.time.ptp
  let gm := t.master.map (fun m => m.data)
  le 1 (ptpCode t.st) ++ le 1 t.cfg.profile ++ le 1 (ptpDomain t.cfg) ++ le 1 (t.master.elim 0xFF (fun m => m.port))
    ++ le 1 ((guardArmed s).toNat + (t.st == .refused).toNat * 2 + (t.cfg.tcPorts != 0).toNat * 4) ++ zeros 3
    ++ le 8 (gm.elim 0 (fun d => d.gmIdentity)) ++ le 1 (gm.elim 0 (fun d => d.gmClass)) ++ le 1 (gm.elim 0 (fun d => d.gmAccuracy)) ++ le 2 (gm.elim 0 (fun d => d.stepsRemoved))
    ++ leInt 4 (sat32 t.offsetNs) ++ leInt 4 (sat32 t.pathNs) ++ leInt 4 (freqPpb s.time.addend) ++ leInt 4 (if t.st = .refused then sat32 t.pendingStep else 0)
    ++ le 4 t.steps ++ le 4 t.refusals ++ le 4 t.masterChanges ++ le 4 t.holdoverEntries ++ le 4 t.syncRx ++ le 4 t.tcForwarded ++ le 4 t.tcDiscards

/-- TIME_STATUS (R361): the record and the last metadata TLV, zero-filled to 64 bytes. -/
def meanTimeStatus : Meaning := { run := fun _ s => .answer s (timeRecord s ++ slice s.time.ptp.metadata 0 64) 0 0 }

/-- PULSE_SET (R355). -/
def execPulseSet (q : FlowRef) (b : Bus) (s : State) : Host.Outcome State Fault Refusal := .next (startRow 0x0703 meanPulseSet q b s)
/-- TRIGGER_SET (R358). -/
def execTriggerSet (q : FlowRef) (b : Bus) (s : State) : Host.Outcome State Fault Refusal := .next (startRow 0x0704 meanTriggerSet q b s)
/-- TIME_STATUS (R361). -/
def execTimeStatus (q : FlowRef) (b : Bus) (s : State) : Host.Outcome State Fault Refusal := .next (startRow 0x0705 meanTimeStatus q b s)
/-- PULSE_START (R355). -/
def execPulseStart (dt : Nat) (o : Fin 4) (s : State) : Host.Outcome State Fault Refusal := .next (actAfter dt s (pulseStart o.val))
/-- PULSE_END (R355). -/
def execPulseEnd (dt : Nat) (o : Fin 4) (s : State) : Host.Outcome State Fault Refusal := .next (actAfter dt s (pulseEnd o.val))
/-- TRIGGER_EDGE (R357). -/
def execTriggerEdge (dt : Nat) (n : Fin 4) (rising : Bool) (x : EdgeIn) (s : State) : Host.Outcome State Fault Refusal :=
  .next (actAfter dt s (triggerEdge n.val rising x.held x.capture))
/-- TRIGGER_TIME (R358). -/
def execTriggerTime (dt : Nat) (n : Fin 4) (s : State) : Host.Outcome State Fault Refusal := .next (actAfter dt s (triggerTime n.val))
/-- CONTROL_EVENT (R359). -/
def execControlEvent (dt : Nat) (n : Fin 4) (s : State) : Host.Outcome State Fault Refusal := .next (actAfter dt s (controlEvent n.val))

end Sys2Proof.Machine
end

