-- ==== Sys2Proof/Machine/FuncReset.lean ====
section
/-! DEFINITION. Per-function reset (R107, R176, R294, R308, R360, R382, R423 to R429, R436). -/

namespace Sys2Proof.Machine

/-- A channel of the function stops (R107): a run stops by R100, an armed start ends; it is destroyed with step 5. -/
def doomChannel (s : State) (c : Nat) : State :=
  match chanAt s c with
  | none => s
  | some x =>
    let s := modChan s c (fun x => { x with doomed := true, stopReason := 4 })
    if coding x then (if x.run.aborting then s else chanAbort c s) else chanDoomedEnd c s

/-- Function f has something that ends at a bus frame boundary (R382): buses, transmit-slot connections, ST 302 attachments. -/
def audioOwned (f : Nat) (s : State) : Bool :=
  s.audio.buses.any (fun e => e.2.owner.elim false (fun o => o.val == f)) || s.chans.any (fun e => e.2.owner.val == f && !e.2.st302.isEmpty)
    || (f == 0 && !s.audio.txSlots.isEmpty)

/-- Steps 1 and 2 of R424: BUSY sets, fetching stops, the function's objects stop. -/
def resetStop (f : Nat) (s : State) : State :=
  let mine := fun (o : Fn) => o.val == f
  let s := cancelFnTx f (modFn s f (fun x => { x with busy := true }))
  let s := { s with outs := s.outs.mapVals (fun _ (o : Output) => if mine o.owner then { o with dying := true } else o) }
  let s := (s.decs.filter (fun e => mine e.2.owner)).foldl (fun s e => freezeDecoder e.1 s) s
  let s := { s with decs := s.decs.keep (fun _ d => !(mine d.owner)) }
  let ins := (s.net.flowsIn.filter (fun e => mine e.2.owner)).map (fun e => (false, e.1))
  let outs := (s.net.flowsOut.filter (fun e => mine e.2.owner)).map (fun e => (true, e.1))
  let s := { s with net.removals := s.net.removals ++ ins ++ outs, audio.resets := if audioOwned f s then s.audio.resets ++ [f] else s.audio.resets }
  let s := (s.time.pulses.filter (fun e => mine e.2.owner)).foldl (fun s e => drivePulse e.1 e.2.activeLow { s with time.pulses := s.time.pulses.erase e.1 }) s
  let s := { s with time.triggers := s.time.triggers.keep (fun _ t => !(mine t.owner)) }
  (s.chans.filter (fun e => mine e.2.owner)).foldl (fun s e => doomChannel s e.1) s

/-- Flows whose removal a reset has asked for go at the Tide boundary (R308, R340). -/
def applyRemovals (s : State) : State :=
  s.net.removals.foldl (fun s e => if e.1 then removeFlowOut e.2 s else removeFlowIn e.2 s) { s with net.removals := [] }

/-- Without CLK_TIME no picture and no Tide comes: what waits for one ends at once (Table 16.2, R428). -/
def resetAtOnce (f : Nat) (s : State) : State :=
  let s := (s.outs.filter (fun e => e.2.owner.val == f)).foldl (fun s e => destroyOutput e.1 s) (applyRemovals s)
  { applyBusResets s with net.flowsOut := (applyBusResets s).net.flowsOut.keep (fun _ x => !(x.owner.val == f)) }

/-- A reset of function f begins, or is merged into the one that runs (R424, R427). It is journaled as an event; DETAIL is its cause: 1 FUNC_RESET, 2 FUNC_RESET_CTL, 3 FLR. -/
def resetBegin (f cause : Nat) (s : State) : State :=
  let s := if cause = 3 then modFn s f (fun x => { x with resetFlr := true }) else s
  if (fnAt s f).busy then settleReset s f
  else
    let s := resetStop f (journalAdd s 0 0 f 0 0 cause)
    settleResets (if clockLost s .time then resetAtOnce f s else s)

/-- In lockstep both members begin a reset at the next Tide boundary (R429); otherwise it begins now. -/
def resetAsk (f cause : Nat) (s : State) : State :=
  if inLockstep s && !clockLost s .time then { s with pair.resets := s.pair.resets ++ [(f, cause, s.time.tide + 1)] } else resetBegin f cause s

/-- The resets whose Tide boundary has come begin (R429). -/
def applyResets (s : State) : State :=
  let due := s.pair.resets.filter (fun e => decide (e.2.2 ≤ s.time.tide))
  due.foldl (fun s e => resetBegin e.1 e.2.1 s) { s with pair.resets := s.pair.resets.filter (fun e => decide (s.time.tide < e.2.2)) }

/-- FUNC_RESET (R423): PF0 is never its target. -/
def runFuncReset (ci : CmdIn) (s : State) : CmdRes :=
  let f := fld ci.p 2 4 0
  if f = 0 then refuse s stBadParam else .pend s (.funcReset f ((fnAt s f).busy || s.pair.resets.any (fun e => e.1 == f))) 0 0
def meanFuncReset : Meaning := { run := runFuncReset, after := fun ci s => resetAsk (fld ci.p 2 4 0) 1 s }

/-- A reset that did not come as a command is carried to the standby in a COMMAND frame that holds a FUNC_RESET of f, with FUNCTION f (R429). -/
def mirrorReset (f : Nat) (s : State) : State :=
  if isHolder s && inLockstep s then
    let n := s.pair.nextMirror
    cwSend 4 (le 4 n ++ le 1 f ++ le 1 0 ++ le 1 2 ++ le 1 stOk ++ le 8 (s.time.tide + 1) ++ zeros 16 ++ le 4 0x0105 ++ zeros 4 ++ le 4 f ++ zeros 52)
      { s with pair.nextMirror := (n + 1) % 2 ^ 32 }
  else s

/-- A reset by register or by FLR: a standby in lockstep ignores one that does not come from the holder, and counts it (R429). -/
def resetByHost (f cause : Nat) (s : State) : State :=
  if isStandby s then { s with pair.orphanRecords := inc32 s.pair.orphanRecords } else resetAsk f cause (mirrorReset f s)

/-- FUNC_RESET_CTL receives v from f (R423, Table 16.3): RESET of PF0 is ignored. -/
def writeResetCtl (f v : Nat) (s : State) : State := if hostUp s && f != 0 && bitOf v 0 then resetByHost f 2 s else s

/-- PCIe function-level reset (R425): bus mastering, MSI-X enable and mask, and the MSI-X table return to reset; records not yet written are suppressed. -/
def flr (f : Nat) (s : State) : State :=
  let s := modFn s f (fun x => { x with busMaster := false, msixEnable := false, functionMask := false, msix := [], d3hot := false, pmeEn := false })
  resetByHost f 3 s

/-- FUNC_RESET (R423). -/
def execFuncReset (q : FlowRef) (b : Bus) (s : State) : Host.Outcome State Fault Refusal := .next (startRow 0x0105 meanFuncReset q b s)
/-- FUNC_RESET_CTL (R423): f writes v. -/
def execFuncResetCtl (f : Fn) (v : Word) (s : State) : Host.Outcome State Fault Refusal := .next (writeResetCtl f.val v.toNat s)
/-- FLR (R425): VFs only; PF0 is reset only by the device resets. -/
def execFlr (f : Fn) (s : State) : Host.Outcome State Fault Refusal := .next (act s (fun s => if f.val = 0 then s else flr f.val s))

end Sys2Proof.Machine
end

