-- ==== Sys2Proof/Machine/PairMirror.lean ====
section
/-! DEFINITION. Mirrored commands of a pair: the standby's COMMAND, the holder's OUTCOME, commands at a takeover (R388 to R391, R409, R410, R429). -/

namespace Sys2Proof.Machine

/-- Meanings of the mirrored opcodes (R388). -/
def mirrorMeaning (op : Nat) : Option Meaning :=
  if op = 0x0105 then some meanFuncReset
  else if op = 0x0201 then some meanChanCreate
  else if op = 0x0202 then some meanChanConfig
  else if op = 0x0203 then some meanChanStart
  else if op = 0x0204 then some meanChanStop
  else if op = 0x0205 then some meanChanDestroy
  else if op = 0x0206 then some meanChanSetDelay
  else if op = 0x0207 then some meanKeyRequest
  else if op = 0x0301 then some meanEncProfile
  else if op = 0x0302 then some meanEncGop
  else if op = 0x0303 then some meanRcConfig
  else if op = 0x0304 then some meanRcUpdate
  else if op = 0x0305 then some meanEncRegion
  else if op = 0x0306 then some meanEncSpec
  else if op = 0x0307 then some meanEncMe
  else if op = 0x0401 then some meanOutCreate
  else if op = 0x0402 then some meanLayerSet
  else if op = 0x0403 then some meanLayerClear
  else if op = 0x0404 then some meanComposeCommit
  else if op = 0x0405 then some meanLighthouseLoad
  else if op = 0x0406 then some meanFreshnessSet
  else if op = 0x0407 then some meanSurfaceAlloc
  else if op = 0x0408 then some meanSurfaceFree
  else if op = 0x0409 then some meanSurfaceUpdate
  else if op = 0x0501 then some meanDecOpen
  else if op = 0x0502 then some meanDecClose
  else if op = 0x0503 then some meanDecPolicy
  else if op = 0x0803 then some meanAudRoute
  else if op = 0x0804 then some meanAudMute
  else none

/-- Key of the flow in which a standby keeps the mirrored commands of a function's flow. -/
def mirrorFlow (f flow : Nat) : Nat := 16384 + 256 * f + flow

/-- The waits of a mirrored command take the holder's effective boundary (R389). -/
def atBoundary (boundary serial : Nat) (r : CmdRes) : CmdRes :=
  match r with
  | .pend s (.picture c _) r0 r1 => .pend s (.picture c (some boundary)) r0 r1
  | .pend s (.outPicture o _) r0 r1 =>
    .pend (modOut s o (fun x => { x with commits := x.commits.map (fun (c : Commit) => if c.serial = serial then { c with number := some boundary } else c) })) (.outPicture o (some boundary)) r0 r1
  | r => r

/-- A function reset begins at the Tide boundary that its COMMAND names (R429). -/
def resetTide (op boundary : Nat) (s : State) : State :=
  if op = 0x0105 then applyResets { s with pair.resets := s.pair.resets.dropLast ++ (s.pair.resets.getLast?.map (fun e => (e.1, e.2.1, boundary))).toList } else s

/-- A channel that a standby starts takes the holder's picture 0 as its own (R391). -/
def followStart (p : Packet) (s : State) : State :=
  if opcodeOf p = 0x0203 then modChan s (chanOf p) (fun x => if x.run.nextPic = 0 ∧ x.st != .idle then { x with run.byHolder := some none } else x) else s

/-- Put a mirrored command in its flow, started. -/
def insertMirror (m : MirrorCmd) (s : State) : State × CmdIn :=
  let k := mirrorFlow m.function.val m.flow.val
  let c : Cmd := { serial := s.nextSerial, fn := m.function, packet := m.packet, started := true, startTick := s.now, mirrored := true, block := m.block }
  let s := setFlow { s with nextSerial := s.nextSerial + 1 } k (flowCmds s k ++ [c])
  (s, { key := k, cmd := c, f := m.function.val, p := m.packet, block := m.block })

/-- Outcome frame of the standby (Table 15.4a). -/
def sendOutcome (serial o r0 r1 : Nat) (s : State) : State := cwSend 5 (le 4 serial ++ le 1 o ++ zeros 3 ++ le 4 r0 ++ le 4 r1) s

/-- Run a mirrored command's checks and, if they end as the holder's did, its effect (R389). -/
def runMirror (m : MirrorCmd) (s0 : State) : State :=
  match opInfo (opcodeOf m.packet), mirrorMeaning (opcodeOf m.packet) with
  | some i, some mean =>
    let (s, ci) := insertMirror m (tagStarted m.function.val m.flow.val (tagOf m.packet) s0)
    let res := evalCmd i mean { ci with key := m.flow.val } s
    let (o, r0, r1) := resOutcome res
    let s' := if o = m.outcome.toNat ∧ r0 % 2 ^ 32 = m.result0.toNat ∧ r1 % 2 ^ 32 = m.result1.toNat then
        let s' := settleRes ci.cmd.serial {} m.block (mean.after ci) (atBoundary m.boundary ci.cmd.serial res)
        match res with
        | .pend _ _ _ _ => followStart m.packet (resetTide i.code m.boundary s')
        | _ => s'
      else completeCmd ci.cmd.serial stPair 0 o 0 [] true s
    sendOutcome m.serial o r0 r1 s'
  | _, _ => sendOutcome m.serial stBadOpcode 0 0 s0

/-- A newly replayed object takes the number it has on the holder (R390, R412): its number and the holder's, by opcode. -/
def renumber (op new holder offset : Nat) (s : State) : State :=
  if op = 0x0201 then match chanAt s new with | some x => { s with chans := (s.chans.erase new).set holder x } | none => s
  else if op = 0x0401 then match outAt s new with | some x => { s with outs := (s.outs.erase new).set holder x } | none => s
  else if op = 0x0407 then match surfAt s new with | some x => { s with surfs := (s.surfs.erase new).set holder { x with offset := 65536 * offset } } | none => s
  else if op = 0x0501 then match decAt s new with | some x => { s with decs := (s.decs.erase new).set holder x } | none => s
  else s

/-- A joiner applies a replayed command (R412 step 1). A CHAN_START starts the channel at the picture at which the holder lets it join. -/
def runReplay (m : MirrorCmd) (s0 : State) : State :=
  let op := opcodeOf m.packet
  match opInfo op, mirrorMeaning op with
  | some i, some mean =>
    let (s, ci) := insertMirror m s0
    match evalCmd i mean { ci with key := m.flow.val } s with
    | .done s' o n r0 r1 =>
      let s' := completeCmd ci.cmd.serial o n r0 r1 [] true s'
      let fresh := o == stOk && (op == 0x0201 || (op == 0x0401 && fld m.packet 2 1 0 == 0) || op == 0x0407 || op == 0x0501)
      let s' := if fresh then renumber op r0 m.result0.toNat m.result1.toNat s' else s'
      if fresh && op != 0x0407 then { s' with pair.joinPending := s'.pair.joinPending ++ [(if op = 0x0201 then 1 else if op = 0x0401 then 2 else 3, m.result0.toNat)] } else s'
    | .pend s' (.chanStart c) _ _ =>
      let s' := completeCmd ci.cmd.serial stOk 0 0 0 [] true s'
      let n := m.boundary
      let s' := modChan s' c (fun x =>
        let old := x.run.pics
        { x with st := .running, run := { x.run with nextPic := n, vPic := n, nextSlice := (n, 0), gopStart := n, startMode := 0, startAt := 0, pics := old } })
      { s' with pair.joinPending := s'.pair.joinPending.filter (fun e => e != (1, c)) }
    | r => settleRes ci.cmd.serial {} m.block (mean.after ci) (atBoundary m.boundary ci.cmd.serial r)
  | _, _ => s0

/-- The rate-control state that precedes a channel's start: V, U and the row weights, kept as two pictures before the one at which it joins (R412 step 3). -/
def takeRcState (c n : Nat) (data : List Byte) (s : State) : State :=
  modChan s c (fun x =>
    let rows := (data.length - 16) / 8
    let w := fun (i : Nat) => ofLe (slice data (16 + 4 * i) 4)
    let pic := fun (num a : Nat) (key : Option KeyKind) => ({ number := num, tref := 0, delay := 0, coding := x.coding, key := key, rows := (List.range rows).map (fun i => (i, ({ actual := some (w (a + i), 0) } : Row))) } : Pic)
    { x with run := { x.run with v := signedOf (ofLe (slice data 0 8)) 64, u := signedOf (ofLe (slice data 8 8)) 64,
                                 pics := if n < 3 then [] else [(n - 3, pic (n - 3) rows none), (n - 2, pic (n - 2) 0 (some .idr))] } })

/-- COMMAND (R389, R410, R412, R429): a standby in lockstep runs the command as the holder did; a joiner takes a replayed setting; a FUNC_RESET whose FUNCTION is its target is a reset by register or FLR. A keyed PAIR_SWAP names its Tide boundary (R414). -/
def takeCommand (m : MirrorCmd) (s : State) : State :=
  let op := opcodeOf m.packet
  if !(isStandby s) then s
  else
    let s := { s with pair.nextFromHolder := (m.serial + 1) % 2 ^ 32 }
    if s.pair.st = .resyncing then
      let s := if op = 0x0203 then (match s.pair.rcStates.get? (fld m.packet 2 5 0) with | some d => takeRcState (fld m.packet 2 5 0) m.boundary d s | none => s) else s
      if op = 0x0207 then
        modChan s (chanOf m.packet) (fun x => { x with run.forceKey := some (requestKind m.packet) })
      else
        -- the key kind of the joining picture outlives the start of the run
        let key := (chanAt s (chanOf m.packet)).bind (fun x => x.run.forceKey)
        let old := (chanAt s (chanOf m.packet)).elim [] (fun x => x.run.pics)
        let (v, u) := (chanAt s (chanOf m.packet)).elim (0, 0) (fun x => (x.run.v, x.run.u))
        let s := runReplay m s
        if op = 0x0203 then modChan s (chanOf m.packet) (fun x => { x with run := { x.run with forceKey := key, pics := old, v := v, u := u } }) else s
    else if !(inLockstep s) then s
    else if op = 0x0903 then
      { s with pair.keyedAt := some s.time.nextBoundary, pair.keyedLeft := (s.chans.filter (fun e => e.2.st == .running)).map (fun e => e.1), pair.keyedPics := [] }
    else if op = 0x0105 ∧ m.function.val ≠ 0 then resetTide op m.boundary (resetAsk m.function.val 2 s)
    else runMirror m s

/-- OUTCOME (R389): the standby's answer to a mirrored command. Both agree: it applies; they differ: it does not, and completes with ST_PAIR. -/
def takeOutcome (serial o r0 r1 : Nat) (b : Bus) (s : State) : State :=
  match s.pair.sent.find? (fun m => m.serial == serial) with
  | none => s
  | some m =>
    let s := { s with pair.sent := s.pair.sent.filter (fun x => x.serial != serial) }
    match (flowCmds s m.flow).find? (fun c => c.mirrorSerial == some serial && !c.mirrored) with
    | none => s
    | some c =>
      if m.outcome = o ∧ m.result0 % 2 ^ 32 = r0 ∧ m.result1 % 2 ^ 32 = r1 then
        match opInfo (opcodeOf c.packet), mirrorMeaning (opcodeOf c.packet) with
        | some i, some mean =>
          let ci : CmdIn := { key := m.flow, cmd := c, f := c.fn.val, p := c.packet, block := c.block }
          let res := evalCmd i mean ci s
          let s' := settleRes c.serial b c.block (mean.after ci) (if m.kind ≤ 1 then atBoundary m.boundary c.serial res else res)
          match res with
          | .pend _ _ _ _ => resetTide i.code m.boundary s'
          | _ => s'
        | _, _ => s
      else completeCmd c.serial stPair 0 o 0 [] b.recordOk s

/-- A holder that is no longer in lockstep runs the commands it has sent and not been answered alone (R389). -/
def runSentAlone (s : State) : State :=
  s.pair.sent.foldl (fun s m => takeOutcome m.serial m.outcome (m.result0 % 2 ^ 32) (m.result1 % 2 ^ 32) {} s) s

/-- The new holder will write the records of the mirrored commands in progress (R409). -/
def adoptMirrors (s : State) : State :=
  { s with flows := s.flows.mapVals (fun _ l => l.map (fun (c : Cmd) => if c.mirrored then { c with mirrorSerial := some 0 } else c)) }

/-- A former holder reports its mirrored commands in progress with ST_PAIR; they go on as the new holder's (R63, R409, R410). -/
def handOverMirrors (s : State) : State :=
  ((allCmds s).filter (fun e => e.2.mirrorSerial.isSome && !e.2.mirrored)).foldl (fun s e =>
    let c := e.2
    let f := c.fn.val
    let r : Rec := { tag := tagOf c.packet, opcode := opcodeOf c.packet, outcome := stPair, flow := flowOf c.packet, progress := progressOf s c % 2 ^ 32,
                     result0 := 0, result1 := 0, tide := s.time.tide, sqHead := c.sqHead, sq := c.sq }
    let s := setFlow s e.1 ((flowCmds s e.1).filter (fun x => x.serial != c.serial))
    let k := mirrorFlow f (flowOf c.packet)
    let s := setFlow s k (flowCmds s k ++ [{ c with mirrored := true, mirrorSerial := none, ferry := none }])
    match c.ferry with
    | some (cl, seq) => ferryFinish cl { seq := seq, opcode := r.opcode, outcome := stPair, flow := r.flow, tag := r.tag, progress := r.progress, result0 := 0, result1 := 0, tide := r.tide, answer := [] } s
    | none => settleSqs f (cqPut f c.cq r (!quietOf c.packet) none true s)) { s with pair.sent := [] }

/-- COMMAND (R389). -/
def execCommand (c : MirrorCmd) (s : State) : Host.Outcome State Fault Refusal := .next (act s (takeCommand c))
/-- OUTCOME (R389). -/
def execOutcome (serial : Nat) (o : Byte) (r0 r1 : Word) (b : Bus) (s : State) : Host.Outcome State Fault Refusal :=
  .next (act s (fun s => if isHolder s then takeOutcome serial o.toNat r0.toNat r1.toNat b s else s))

end Sys2Proof.Machine
end

