-- ==== Sys2Proof/Machine/PairJoin.lean ====
section
/-! DEFINITION. Forming, joining and leaving a pair: replay of the holder's objects, the joiner's start, dissolution, the loss of the partner (R385 to R387, R392, R396, R400, R412). -/

namespace Sys2Proof.Machine

/-- The member holds channels, outputs, decoders or surfaces (R386). -/
def hasObjects (s : State) : Bool := !(s.chans.isEmpty && s.outs.isEmpty && s.decs.isEmpty && s.surfs.isEmpty)

/-- Claim number X is newer than Y (R402). -/
def newerClaim (x y : Nat) : Bool :=
  let d := (x / 256 + 2 ^ 24 - y / 256) % 2 ^ 24
  (decide (1 ≤ d) && decide (d < 2 ^ 23)) || (d == 0 && bitOf x 7 && !(bitOf y 7))

/-- The newest claim number known, a received one included. -/
def learnClaim (x : Nat) (s : State) : State := if newerClaim x s.pair.claim.toNat then { s with pair.claim := BitVec.ofNat 32 x } else s

/-- The claim number a member takes (R402): epoch 0 is skipped. -/
def nextClaim (s : State) : Nat :=
  let e := (s.pair.claim.toNat / 256 + 1) % 2 ^ 24
  (if e = 0 then 1 else e) * 256 + 128 * s.pair.member.toNat

/-- A surface as SURFACE_ALLOC gives it. -/
def surfReplay (x : Surface) : List (Nat × Nat) := [(0, 0x0407), (2, x.format + 16 * x.colour + 256 * x.buffers), (3, x.width + 65536 * x.height)]

/-- An output as OUT_CREATE gives it. -/
def outReplay (c : OutCfg) : List (Nat × Nat) :=
  [(0, 0x0401), (3, c.width + 65536 * c.height), (4, c.rateNum), (5, c.rateDen + 65536 * c.totalLines), (6, c.chroma + 4 * c.colour + 65536 * c.toSurface.getD 0xFFFF),
   (7, c.offsetNs), (8, c.bgY + 2 ^ 10 * c.bgCb + 2 ^ 20 * c.bgCr)]

/-- Layers and limits of an output as LAYER_SET, FRESHNESS_SET and LIGHTHOUSE_LOAD give them, with the function that issues each, and the commits. -/
def layersReplay (o : Nat) (x : Output) : List (Nat × List (Nat × Nat)) :=
  let f := x.owner.val
  x.layers.map (fun e => (f, [(0, 0x0402), (2, o + 256 * e.1 + 65536 * e.2.srcKind), (3, e.2.srcIndex + 65536 * e.2.alphaMode + 2 ^ 18 * e.2.alpha), (4, e.2.sx + 65536 * e.2.sy),
      (5, e.2.sw + 65536 * e.2.sh), (6, e.2.dx + 65536 * e.2.dy), (7, e.2.dw + 65536 * e.2.dh), (8, e.2.lag)]))
    ++ x.maxAges.map (fun e => (if e.1 = 63 then 0 else f, [(0, 0x0406), (2, o + 256 * e.1), (3, e.2)]))
    ++ x.lh.elim [] (fun l => [(0, [(0, 0x0405), (2, o), (3, l.1), (4, l.2.1 + 65536 * l.2.2)])])
    ++ [(f, [(0, 0x0404), (2, o)])] ++ (if f ≠ 0 ∧ (x.lh.isSome ∨ x.maxAges.has 63) then [(0, [(0, 0x0404), (2, o)])] else [])

/-- A decoder as DEC_OPEN gives it; a confidence decoder takes its format from its channel. -/
def decReplay (d : Decoder) : List (Nat × Nat) :=
  if d.srcKind = 1 then [(0, 0x0501), (2, 1 + 8 * d.presMode + 16 * d.ctMode), (3, d.srcIndex)]
  else [(0, 0x0501), (2, 2 * d.codec + 8 * d.presMode + 16 * d.ctMode), (3, d.srcIndex), (4, d.width + 65536 * d.height), (5, d.rateNum), (6, d.rateDen), (7, d.lag)]

/-- The route of a bus as AUD_ROUTE gives it. -/
def busReplay (b : Nat) (x : BusSt) : List (List (Nat × Nat)) :=
  let route := match x.src with
    | .none => []
    | .slot p k => [[(0, 0x0803), (2, 256 * b), (3, 1 + 256 * k + 65536 * p)]]
    | .flow n k => [[(0, 0x0803), (2, 256 * b), (3, 2 + 256 * k + 65536 * n)]]
  route

/-- Everything the holder replays, in an order in which each object finds those it names (R412 step 1): function, RESULT0, RESULT1, packet. -/
def replayAll (s : State) : List (Nat × Nat × Nat × List (Nat × Nat)) :=
  s.surfs.map (fun e => (e.2.owner.val, e.1, e.2.offset / 65536, surfReplay e.2))
    ++ s.outs.map (fun e => (e.2.owner.val, e.1, 0, outReplay e.2.cfg))
    ++ s.chans.flatMap (fun e => (e.2.owner.val, e.1, 0, [(0, 0x0201)]) :: (chanReplay e.1 e.2).map (fun p => (e.2.owner.val, 0, 0, p)))
    ++ s.decs.flatMap (fun e => [(e.2.owner.val, e.1, e.2.engine, decReplay e.2), (e.2.owner.val, 0, 0, [(0, 0x0503), (2, e.1), (3, e.2.errMode + 2 * e.2.hashAction)])])
    ++ s.outs.flatMap (fun e => (layersReplay e.1 e.2).map (fun l => (l.1, 0, 0, l.2)))
    ++ s.audio.buses.flatMap (fun e => (busReplay e.1 e.2).map (fun p => (e.2.owner.elim 0 (fun f => f.val), 0, 0, p)))
    ++ s.audio.txSlots.map (fun e => ((busAt s e.2).owner.elim 0 (fun f => f.val), 0, 0, [(0, 0x0803), (2, 1 + 256 * e.2), (3, 256 * (e.1 % 32) + 65536 * (e.1 / 32)), (4, 1)]))
    ++ s.chans.flatMap (fun e => match e.2.st302 with
        | [] => []
        | b :: r => [(e.2.owner.val, 0, 0, [(0, 0x0803), (2, 2 + 256 * b), (3, 256 * (r.length + 1) + 65536 * e.1), (4, 1)])])

/-- Objects that join (R412): channels with a run, outputs and decoders. -/
def joinObjects (s : State) : List (Nat × Nat) :=
  (s.chans.filter (fun e => coding e.2)).map (fun e => (1, e.1)) ++ (s.outs.filter (fun e => !e.2.dying)).map (fun e => (2, e.1)) ++ s.decs.map (fun e => (3, e.1))

/-- The holder begins a resync (R412): its objects are replayed, then the published buffers of its surfaces follow. -/
def beginJoin (forceKey : Bool) (maxWait : Nat) (s : State) : State :=
  let s := runSentAlone s
  let starts := s.chans.mapVals (fun _ (x : Chan) => x.run.nextPic)
  let s := { s with pair.joinPending := joinObjects s, pair.forceKey := forceKey, pair.maxWait := maxWait, pair.joinStart := starts, pair.ownChecks := [], pair.partnerChecks := [],
                    pair.lateRun := 0, pair.lastPartnerTide := none, pair.ownRecords := [], pair.partnerRecords := [] }
  let s := setPairState .resyncing s
  let s := (replayAll s).foldl (fun s e => sendReplay e.1 3 0 e.2.1 e.2.2.1 e.2.2.2 s) s
  let s := s.surfs.foldl (fun s e => e.2.pubs.head?.elim s (fun p =>
    sendBulk 0 p.buffer e.1 (Memory.bytes (bufferMem e.2 p.buffer) 0 (bufferSize e.2.format e.2.width e.2.height)) s)) s
  settleJoin (alignFlows (fun c => c.kind == 4 || c.kind == 5) s)

/-- Every mirrored object and every group of a standby goes, without emitting anything (R387, R412). Commands of other members end without a record, its own that wait on an object with ST_PAIR. -/
def clearObjects (s : State) : State :=
  let s := { s with flows := s.flows.keep (fun k _ => decide (k < 16384)) }
  let own := (allCmds s).filter (fun e => e.2.started && mirroredOp (opcodeOf e.2.packet))
  let s := own.foldl (fun s e => endCmd e.2.serial stPair 0 0 s) s
  let bare := fun (_ : Nat) (x : FlowOut) => if x.cfg.kind ≤ 6 then { x with copyA := { x.copyA with groups := [], held := [], kept := [] }, copyB := { x.copyB with groups := [], held := [], kept := [] } } else x
  { s with chans := [], outs := [], surfs := [], decs := [], audio.buses := [], audio.txSlots := [], audio.nextRoutes := [], audio.cmds := [], net.flowsOut := s.net.flowsOut.mapVals bare,
           pair.inputs := [], pair.repairs := [], pair.repairParts := [], pair.ownChecks := [], pair.partnerChecks := [], pair.groupEnds := [], pair.rcStates := [], pair.joinPending := [] }

/-- A member joins a holder (R392, R412): it clears its objects, adopts the claim number, and its clock is to be stepped. -/
def beginJoining (claim : Nat) (s : State) : State :=
  let s := clearObjects s
  let s := { s with pair.claim := BitVec.ofNat 32 claim, pair.stepPending := true, pair.adoptTide := false, pair.claimWait := none, pair.partnerYield := none, pair.lateRun := 0,
                    pair.lastPartnerTide := none, pair.ownRecords := [], pair.partnerRecords := [], pair.tags := [] }
  setPairState .resyncing (setPairRole .standby s)

/-- What ends with a pair; counters, the claim number, the keeper and the pins stay. -/
def unpaired (s : State) : State :=
  let s := { s with pair.cfg := none, pair.partner := none, pair.lost := true, pair.misses := 0, pair.yielding := none, pair.claimWait := none, pair.partnerYield := none, pair.sent := [], pair.tags := [],
                    pair.ownRecords := [], pair.partnerRecords := [], pair.lastPartnerTide := none, pair.lateRun := 0, pair.ownChecks := [], pair.partnerChecks := [], pair.groupEnds := [],
                    pair.inputs := [], pair.repairs := [], pair.repairParts := [], pair.joinPending := [], pair.rcStates := [], pair.keyedAt := none, pair.keyedLeft := [], pair.keyedPics := [],
                    pair.shedWait := none, pair.stepPending := false, pair.adoptTide := false, power.pairWait := false, net.cw := { s.net.cw with unacked := [] } }
  setPairRole .none (setPairState .unpaired s)

/-- Commands that wait on the pair with this opcode. -/
def pairWaiters (s : State) (op : Nat) : List Cmd :=
  ((allCmds s).filter (fun e => opcodeOf e.2.packet == op && (e.2.wait == .pair || (match e.2.wait with | .forming _ => true | _ => false)))).map (fun e => e.2)

/-- PAIR_SWAP and PAIR_RESYNC in progress can no longer succeed. -/
def failPairCmds (s : State) : State := (pairWaiters s 0x0903 ++ pairWaiters s 0x0904).foldl (fun s c => endCmd c.serial stPair 0 0 s) s

/-- The pair becomes DEGRADED (Table 15.1): a holder runs the commands it has sent alone. -/
def degrade (s : State) : State :=
  let s := setPairState .degraded { s with pair.lateRun := 0, pair.joinPending := [], pair.keyedAt := none, pair.keyedLeft := [] }
  failPairCmds (if isHolder s then runSentAlone s else s)

/-- The partner is lost (R396, R406): a SYNCED standby waits for the claim; otherwise the pair is DEGRADED. -/
def partnerLost (s : State) : State :=
  let s := pairFault 1 { s with pair.lost := true }
  if isStandby s ∧ s.pair.st = .synced then { s with pair.claimWait := some s.now }
  else if s.pair.st = .forming then s
  else degrade s

/-- The formation is decided when the members hear each other (R386). -/
def formPair (h : HbPayload) (s : State) : State :=
  match s.pair.cfg with
  | none => s
  | some c =>
    let waiters := pairWaiters s 0x0901
    let fail := waiters.foldl (fun s d => completeCmd d.serial stBadState 0 0 0 [] true s) (unpaired s)
    let done := fun (s : State) => waiters.foldl (fun s d => finishCmd d.serial 0 0 0 s) s
    if h.member == s.pair.member || h.lanes != c.lanes || h.firstHolder != c.firstHolder || (h.hasObjects && hasObjects s) then fail
    else if h.state == .degraded || h.state == .diverged then
      -- the member returns to a pair that has a holder: it waits for a resync
      if hasObjects s then fail else done (setPairState .degraded (setPairRole .standby (learnClaim h.claim.toNat s)))
    else
      let first : Nat := 256 + 128 * c.firstHolder.toNat
      let holds := if hasObjects s then true else if h.hasObjects then false else c.firstHolder == s.pair.member
      let claim : Nat := if hasObjects s ∨ h.hasObjects then 256 + 128 * (if hasObjects s then s.pair.member else h.member).toNat else first
      if holds then done (beginJoin false 0 (setPairRole .holder { s with pair.claim := BitVec.ofNat 32 claim }))
      else done (beginJoining claim s)

end Sys2Proof.Machine
end

