-- ==== Sys2Proof/Machine/Causeway.lean ====
section
/-! DEFINITION. The Causeway link: acknowledgement, resending, frames that are discarded (R316, R394, R395, R402). -/

namespace Sys2Proof.Machine

/-- The frames not yet acknowledged are sent again, in order; each resend counts in CW_RESENDS, and the event as class 3 (R316, Table 16.1). An injection of bad frames completes once they have been resent (R440 KIND 5). -/
def cwResend (s : State) : State :=
  if s.net.cw.unacked.isEmpty || !(cwLive s) then s
  else
    let fs := s.net.cw.unacked
    let s := { s with net.cw := { s.net.cw with unacked := fs.map (fun f => { f with sent := s.now }), resends := (s.net.cw.resends + fs.length) % 2 ^ 32 } }
    let s := fs.foldl (fun s f => cwEmit f s) s
    match s.units.injections.find? (fun x => x.1 == 5 && x.2.2.2.1 == 0) with
    | some (_, _, _, _, serial) => injectionDone serial s.journal.nextSeq (journalAdd s 3 1 deviceFn 5 88 0)
    | none => countFault s 3

/-- Acknowledgement of the last frame received in order. -/
def cwAck (seq : Nat) (s : State) : State :=
  match s.net.cw.unacked.findIdx? (fun f => f.seq == seq) with
  | some i => { s with net.cw.unacked := s.net.cw.unacked.drop (i + 1) }
  | none => s

/-- Negative acknowledgement: the frames before the one named have arrived; the rest is sent again. -/
def cwNak (seq : Nat) (s : State) : State :=
  match s.net.cw.unacked.findIdx? (fun f => f.seq == seq) with
  | some i => cwResend { s with net.cw.unacked := s.net.cw.unacked.drop i }
  | none => s

/-- 2 µs without acknowledgement. -/
def cwTimeout (s : State) : State :=
  match s.net.cw.unacked with
  | f :: _ => if f.sent + ticksUs 2 ≤ s.now then cwResend s else s
  | [] => s

/-- A received frame is discarded: a bad CRC asks for it again; others are counted (R316, R394, R395, R402). -/
def badFrame (r : BadFrame) (s : State) : State :=
  if !(cwLive s) then s
  else match r with
    | .crc seq => emit s (.causewayNak (seq % 65536))
    | .unknownType => { s with net.cw.badFrames := inc32 s.net.cw.badFrames }
    | .badLength => { s with net.cw.badFrames := inc32 s.net.cw.badFrames }
    | .staleClaim c => if newerClaim s.pair.claim.toNat c.toNat then { s with net.cw.staleFrames := inc32 s.net.cw.staleFrames } else s
    | .nonzeroReserve => s

/-- ACKNOWLEDGEMENT (R316). -/
def execAcknowledgement (seq : BitVec 16) (s : State) : Host.Outcome State Fault Refusal := .next (act s (cwAck seq.toNat))
/-- NEGATIVE_ACKNOWLEDGEMENT (R316). -/
def execNegativeAcknowledgement (seq : BitVec 16) (s : State) : Host.Outcome State Fault Refusal := .next (act s (cwNak seq.toNat))
/-- RESEND_TIMEOUT (R316). -/
def execResendTimeout (dt : Nat) (s : State) : Host.Outcome State Fault Refusal := .next (actAfter dt s cwTimeout)
/-- CAUSEWAY_BAD_FRAME (R316). -/
def execCausewayBadFrame (r : BadFrame) (s : State) : Host.Outcome State Fault Refusal := .next (act s (badFrame r))

end Sys2Proof.Machine
end

