-- ==== Sys2Proof/Machine/MemCtl.lean ====
section
/-! DEFINITION. Memory controllers: HBM3E order, refresh, calibration, replay; QDR-IV parity; scrubbing; REGION_MAP, SCRUB_CONFIG, MEM_STATUS (R234, R238 to R246, R249 to R252). -/

namespace Sys2Proof.Machine

/-- CLK_HBM cycles in CLK_TIME ticks: the 24 cycles of the retry buffer, the 48 of a replay, the 64 of an idle PC, rounded up to whole ticks (R243, R245). -/
def retryTicks : Nat := 10
def replayTicks : Nat := 20
def idleTicks : Nat := 27

/-- A refresh of 350 ns and a calibration step of 800 ns in CLK_TIME ticks (Table 8.4, R250). -/
def refreshSpan : Nat := 175
def stepSpan : Nat := 400

/-- A PC works: CLK_HBM runs and it is in service (R246). -/
def pcUp (s : State) (p : Nat) : Bool := !clockLost s .hbm && !(s.mem.pcOut.getLsbD p)

/-- Commands still in the retry buffer (R245). -/
def buffered (now : Nat) (x : PcCtl) : List (Nat × Nat) := x.retry.filter (fun e => decide (now < e.2 + retryTicks))

/-- The first request of a list in class order, open rows first, oldest first (R239). -/
def pickOf (x : PcCtl) (l : List PcReq) : Option PcReq :=
  let least := l.foldl (fun m q => min m q.cls) 3
  let cls := l.filter (fun q => q.cls == least)
  match cls.find? (fun q => x.openRows.get? (bankOf q.tx) == some (rowOf q.tx)) with | some q => some q | none => cls.head?

/-- The request served next (R239, R240, R268): a debug access; the oldest of the banks in order; otherwise by class and row among requests that no earlier one to the same atom holds back. -/
def nextServed (x : PcCtl) : Option PcReq :=
  match x.queue.find? (fun q => q.cls == 3) with
  | some q => some q
  | none => match x.queue.find? (fun q => x.inOrder.any (fun e => e.1 == bankOf q.tx)) with
    | some q => some q
    | none => pickOf x (x.queue.filter (fun q => !(x.queue.any (fun e => decide (e.id < q.id) && sameAtom e.tx.req q.tx.req))))

/-- Serve one request: its row opens, it enters the retry buffer and is in service, the banks that waited for it leave the in-order state (R239, R240, R245). -/
def serveRequest (now : Nat) (x : PcCtl) (q : PcReq) : PcCtl :=
  { x with queue := x.queue.filter (fun e => e.id != q.id), openRows := x.openRows.set (bankOf q.tx) (rowOf q.tx),
           inOrder := x.inOrder.filter (fun e => e.2 != q.id), inService := some q.cls,
           lastRt := if q.cls = 0 then now else x.lastRt, retry := buffered now x ++ [(q.id, now)] }

/-- An RT request is queued or in service (R242). -/
def rtPresent (x : PcCtl) : Bool := x.inService == some 0 || x.queue.any (fun q => q.cls == 0)

/-- The request in service has been served; while RT requests remain, the idle time of R243 has not begun. -/
def settlePc (now : Nat) (x : PcCtl) : PcCtl := { x with inService := none, lastRt := if rtPresent x then now else x.lastRt }

/-- What the error codes of an HBM3E read find (R247): an uncorrectable error, or one corrected by the code on the die or by the controller's. -/
def codesFound (corrected : Option Bool) (uncorrectable : Bool) : ScrubFind :=
  if uncorrectable then .uncorrectable else match corrected with | some onDie => .correctable onDie | none => .clean

/-- NEXT_REQUEST (R239 to R241, R245, R247): the request in service is done and the next one is issued, unless a burst or a replay runs or the retry buffer is full; the memory serves it. -/
def nextRequest (p : Nat) (found : ScrubFind) (s : State) : State :=
  let x := pcAt s p
  if !pcUp s p || decide (s.now < x.busyUntil) then s
  else
    let x := settlePc s.now x
    if 64 ≤ (buffered s.now x).length then modPc s p (fun _ => x)
    else match nextServed x with
      | none => modPc s p (fun _ => x)
      | some q => serveAccess true q.tx found (modPc s p (fun _ => serveRequest s.now x q))

/-- Age in ticks at which a request is promoted next (R241): BE to RT after 4 µs; MGMT to BE after 50 µs and to RT 4 µs later. -/
def promotionAge (q : PcReq) : Option Nat :=
  if q.cls = 0 ∨ q.cls = 3 then none else if portClass q.tx.req.master.val = 2 then (if q.cls = 2 then some 25000 else some 27000) else some 2000

/-- AGE_PROMOTION (R241). -/
def agePromotion (p id : Nat) (s : State) : State :=
  let x := pcAt s p
  match x.queue.find? (fun q => q.id == id) with
  | none => s
  | some q => match promotionAge q with
    | none => s
    | some age =>
      if !pcUp s p || decide (s.now ≤ q.arrived + age) then s
      else
        let s := modPc s p (fun x => { x with queue := x.queue.map (fun e => if e.id = id then { e with cls := e.cls - 1 } else e) })
        { s with mem.agePromotions := inc32 s.mem.agePromotions }

/-- tREFI in ticks: 3.9 µs, or 1.95 µs above 85 °C (Table 8.4). -/
def refreshTicks (s : State) : Nat := if 85 < s.mem.hbmTemp then 975 else 1950

/-- A memory port or PC is taken out of service (R238, R246, class 5). -/
def memPortOut (object : Nat) (s : State) : State :=
  faultYield (journalAdd { s with mem.ueSrc := true } 5 8 deviceFn 6 object 0)
/-- PC p goes out of service (R246): what it had queued reads as poisoned, or is discarded. -/
def pcFails (p : Nat) (s : State) : State :=
  let queue := (pcAt s p).queue
  let s := modPc { s with mem.pcOut := s.mem.pcOut ||| BitVec.ofNat 64 (2 ^ p) } p (fun x => { x with
    queue := [], inOrder := [], inService := none, retry := [], alerts := none, calDue := none, deferred := false })
  memPortOut p (queue.foldl (fun s q => answerOut q.tx s) s)
/-- QPORT p goes out of service (R238): likewise. -/
def qportFails (p : Nat) (s : State) : State :=
  let queue := (qportAt s p).queue
  let s := modQport { s with mem.qportIn := s.mem.qportIn &&& ~~~(BitVec.ofNat 8 (2 ^ p)), mem.qFail := s.mem.qFail.erase p } p (fun x => { x with queue := [], recent := [] })
  memPortOut p (queue.foldl (fun s x => answerOut x s) s)

/-- CALIBRATE commands that wait for a step of PC p (R439). -/
def calibrateWaiters (s : State) (p : Nat) : List Nat := ((allCmds s).filter (fun e => e.2.wait == .calibrate p)).map (fun e => e.2.serial)

/-- A due calibration step of PC p runs at the end of a burst (R250, R439); one that fails takes the PC out of service. -/
def runStep (p : Nat) (ok : Bool) (s : State) : State :=
  let x := pcAt s p
  if x.calDue.isNone then s
  else if ok then
    let s := { s with mem.calSteps := inc32 s.mem.calSteps, mem.calTemp := s.mem.calTemp.set p (x.dueTemp.getD (s.mem.hbmTemp : Int)) }
    let s := modPc s p (fun x => { x with calDue := none, dueTemp := none, deferred := false, lastCal := s.now, busyUntil := x.busyUntil + stepSpan })
    (calibrateWaiters s p).foldl (fun s c => finishCmd c 1 0 0 s) s
  else pcFails p ((calibrateWaiters s p).foldl (fun s c => endCmd c stCheck 0 0 s) s)

/-- n refreshes are issued back to back (R242 to R245): they close every row, enter the retry buffer and occupy the PC. -/
def issueRefreshes (now n : Nat) (x : PcCtl) : PcCtl :=
  { x with openRows := [], retry := buffered now x ++ (List.range n).map (fun i => (x.nextId + i, now + i * refreshSpan)), nextId := x.nextId + n, busyUntil := now + n * refreshSpan }

/-- REFRESH_DUE (R242, R244, R250): issued at once by a PC with no RT request and no burst running, else postponed; the ninth pending refresh makes an emergency burst of nine,
with a deferred calibration step at its end. -/
def refreshDue (p : Nat) (calOk : Bool) (s : State) : State :=
  let x := pcAt s p
  if !pcUp s p || decide (s.now < x.nextRefresh) then s
  else
    let s := modPc s p (fun x => { x with nextRefresh := x.nextRefresh + refreshTicks s })
    if 8 ≤ x.pendRefresh then
      let s := preempt (56 + p) true { s with mem.emergencyRefresh := inc32 s.mem.emergencyRefresh }
      let s := journalAdd (modPc s p (fun x => { issueRefreshes s.now 9 x with pendRefresh := 0 })) 8 0 deviceFn 6 p 0
      if x.deferred then runStep p calOk { s with mem.calDeferred := inc32 s.mem.calDeferred } else s
    else if !(rtPresent x) && !decide (s.now < x.busyUntil) then modPc s p (issueRefreshes s.now 1)
    else { modPc s p (fun x => { x with pendRefresh := x.pendRefresh + 1 }) with mem.pendMax := max s.mem.pendMax (x.pendRefresh + 1) }

/-- MAKE_UP_BURST (R243): a PC with pending refreshes and no RT request for 64 cycles issues them all, then a due calibration step. -/
def makeUpBurst (p : Nat) (calOk : Bool) (s : State) : State :=
  let x := pcAt s p
  if !pcUp s p || x.pendRefresh == 0 || rtPresent x || decide (s.now < x.lastRt + idleTicks) || decide (s.now < x.busyUntil) then s
  else runStep p calOk (modPc s p (fun x => { issueRefreshes s.now x.pendRefresh x with pendRefresh := 0 }))

/-- CALIBRATION_STEP_DUE (R250): 250 ms after the last step, or a temperature 4 °C from that step's. -/
def calibrationStepDue (p : Nat) (temp : Option Int) (s : State) : State :=
  let x := pcAt s p
  let moved := match temp with | some t => decide (4 ≤ (t - s.mem.calTemp.getD p 0).natAbs) | none => false
  if !pcUp s p || x.calDue.isSome || !(moved || decide (x.lastCal + ticksMs 250 ≤ s.now)) then s
  else modPc s p (fun x => { x with calDue := some s.now, dueTemp := temp })

/-- CAL_DEFERRED (R250): no burst has run the due step within 25 ms. -/
def calDeferral (p : Nat) (s : State) : State :=
  match (pcAt s p).calDue with
  | some t => if pcUp s p && decide (t + ticksMs 25 ≤ s.now) then modPc s p (fun x => { x with deferred := true }) else s
  | none => s

/-- PARITY_ALERT (R245, R246, R440 KIND 3): the PC closes its rows and reissues its buffered commands in order after 48 cycles, and the queue waits behind them; the third alert in a row on one command takes the PC out of service. -/
def parityAlert (p cmd : Nat) (s : State) : State :=
  let x := pcAt s p
  let live := buffered s.now x
  if !pcUp s p || !(live.any (fun e => e.1 == cmd)) then s
  else
    let count := match x.alerts with | some a => if a.1 = cmd then a.2 + 1 else 1 | none => 1
    if 3 ≤ count then pcFails p s
    else
      let s := modPc s p (fun x => { x with openRows := [], alerts := some (cmd, count), retry := live.map (fun e => (e.1, s.now + replayTicks)), busyUntil := max x.busyUntil (s.now + replayTicks) })
      let s := { s with mem.parityReplays := inc32 s.mem.parityReplays }
      match injectionOf s 3 p with
      | some (_, _, serial) => injectionDone serial s.journal.nextSeq (journalAdd s 3 1 deviceFn 6 p 0)
      | none => countFault s 3

/-- QDR_PARITY_ERROR (R238, R440 KIND 4): the accesses of the last 16 cycles are reissued in their order, later ones wait for the 32 cycles this adds; the third failure in a row of one access takes the port out of service. -/
def qdrParityError (p access : Nat) (s : State) : State :=
  if clockLost s .qdr || !(s.mem.qportIn.getLsbD p) then s
  else
    let n := match s.mem.qFail.get? p with | some e => if e.1 = access then e.2 + 1 else 1 | none => 1
    if 3 ≤ n then qportFails p s
    else
      let s := modQport { s with mem.qdrReplays := inc32 s.mem.qdrReplays, mem.qFail := s.mem.qFail.set p (access, n) } p (fun x => { x with
        recent := (x.recent.filter (fun e => decide (s.now < e.2 + 8))).map (fun e => (e.1, s.now + 16)), busyUntil := s.now + 16 })
      match injectionOf s 4 p with
      | some (_, _, serial) => injectionDone serial s.journal.nextSeq (journalAdd s 3 1 deviceFn 6 p 0)
      | none => countFault s 3

/-- Atoms of a memory in service. -/
def atomCount (s : State) (hbm : Bool) : Nat := if hbm then hbmMib s * 32768 else qdrMbit s * 16384

/-- The scrubbers' request for an atom (M29, R249). -/
def scrubReq (hbm : Bool) (atom : Nat) : FabReq :=
  { master := 29, addr := BitVec.ofNat 44 ((if hbm then 0 else qdrBase) + atom * atomBytes hbm), len := atomBytes hbm }

/-- SCRUB (R249): at its even share of the period the scrubber asks for the next atom; the request takes its place among those of the memory, where `serveScrub` handles what it finds. -/
def scrub (hbm : Bool) (r : ScrubFind) (s : State) : State :=
  let x := scrubOf s hbm
  let n := atomCount s hbm
  if clockLost s (if hbm then .hbm else .qdr) || clockLost s .fab || x.period == 0 || n == 0 || decide (s.now < x.passStart + x.nextAtom * x.period * 500000000 / n) || (freeId s 29).isNone then s
  else
    let s := issueTx (some r) (scrubReq hbm x.nextAtom) s
    if n ≤ x.nextAtom + 1 then setScrub hbm { x with nextAtom := 0, ceThisPass := 0, passes := inc32 x.passes, passStart := s.now } s
    else setScrub hbm { x with nextAtom := x.nextAtom + 1 } s

/-- Region kinds of a memory (Table 8.1). -/
def kindsOf (kind : Nat) : List Nat := if kind < 8 then [0, 1, 2, 3, 4] else [8, 9, 10, 11, 12]

/-- Least size of a region in its unit (Table 8.1). -/
def regionMin (kind : Nat) : Nat := if kind = 0 then 64 else if kind = 1 then 64 else if kind = 3 ∨ kind = 4 then 16 else if kind = 8 ∨ kind = 9 then 1024 else 0

/-- Free space of a memory for a list of sizes (Table 8.1): Mbit or MiB. -/
def freeWith (s : State) (sizes : FMap Nat) (kind : Nat) : Nat :=
  (if kind < 8 then qdrMbit s else hbmMib s) - sumBy (fun k => sizes.getD k 0) (kindsOf kind)

/-- The region sizes once every REGION_MAP that waits has taken effect. -/
def regionsAhead (s : State) : FMap Nat :=
  (s.net.pendCfg.filter (fun c => c.opcode == 0x0C01)).foldl (fun m c => m.set (fld c.packet 2 3 0) (word c.packet 3)) s.mem.regions

/-- REGION_MAP (R234): it completes at the next Tide boundary, where `applyRegionMap` acts. RESULT0 of a refusal is the lowest occupied region that would move, which the changed
region itself does not; it stands in RESULT0 where only it is occupied (DESIGN CHOICE, log 174). -/
def runRegionMap (ci : CmdIn) (s : State) : CmdRes :=
  let kind := fld ci.p 2 3 0
  let size := word ci.p 3
  let sizes := regionsAhead s
  let room := freeWith s sizes kind + sizes.getD kind 0
  if kind == 0 || kind == 8 || !((kindsOf kind).contains kind) || decide (size < regionMin kind) || (kind == 3 && decide (256 < size)) || (decide (8 ≤ kind) && size % 256 != 0) || decide (room < size) then
    refuse s stBadParam
  else
    let used := (kindsOf kind).filter (fun k => decide (kind ≤ k) && decide (0 < regionUsed s (poolWith s none none) k))
    match (used.filter (fun k => decide (kind < k))).head? with
    | some k => .done s stBadState 0 k 0
    | none => if used.isEmpty then pendTide ci s else .done s stBadState 0 kind 0
def meanRegionMap : Meaning := { run := runRegionMap }
def applyRegionMap (p : Packet) (s : State) : State := { s with mem.regions := s.mem.regions.set (fld p 2 3 0) (word p 3) }

/-- SCRUB_CONFIG (R249): it completes at the next Tide boundary, where `applyScrubConfig` acts and a new pass begins. -/
def runScrubConfig (ci : CmdIn) (s : State) : CmdRes :=
  let n := word ci.p 3
  if n != 0 && (decide (n < 60) || decide (604800 < n)) then refuse s stBadParam else pendTide ci s
def meanScrubConfig : Meaning := { run := runScrubConfig }
def applyScrubConfig (p : Packet) (s : State) : State :=
  let hbm := flag p 2 0
  setScrub hbm { scrubOf s hbm with period := word p 3, ceThreshold := fld p 4 15 0, nextAtom := 0, ceThisPass := 0, passStart := s.now } s

/-- The 128-byte memory status record (Table 8.9). -/
def memRecord (s : State) : List Byte :=
  let m := s.mem
  le 1 m.qportIn.toNat ++ le 1 m.density288.toNat ++ zeros 2 ++ le 8 m.pcOut.toNat
    ++ le 4 m.qdrCe ++ le 4 m.qdrUe ++ le 4 m.qdrReplays ++ le 4 m.hbmCeHost ++ le 4 m.hbmCeDie ++ le 4 m.hbmUe ++ le 4 m.parityReplays
    ++ le 4 m.poisonReads ++ le 4 m.poisonLines ++ le 4 m.emergencyRefresh ++ le 1 m.pendMax ++ le 1 m.hbmTemp ++ zeros 2
    ++ le 4 m.agePromotions ++ le 4 m.calSteps ++ le 4 m.calDeferred ++ le 4 m.scrubQdr.passes ++ le 4 m.scrubHbm.passes
    ++ le 4 (freeWith s m.regions 0) ++ le 4 (freeWith s m.regions 8)
    ++ ((kindsOf 0 ++ kindsOf 8).flatMap (fun k => le 4 (m.regions.getD k 0))) ++ zeros 4

/-- MEM_STATUS (R252): the record and the UE log of 32 entries, oldest first. -/
def meanMemStatus : Meaning :=
  { run := fun _ s => .answer s (memRecord s ++ slice (s.mem.ueLog.flatMap (fun e => le 8 (e.2 % 2 ^ 48 + e.1.toNat * 2 ^ 63))) 0 256) 0 0 }

/-- REGION_MAP (R234). -/
def execRegionMap (q : FlowRef) (b : Bus) (s : State) : Host.Outcome State Fault Refusal := .next (startRow 0x0C01 meanRegionMap q b s)
/-- SCRUB_CONFIG (R249). -/
def execScrubConfig (q : FlowRef) (b : Bus) (s : State) : Host.Outcome State Fault Refusal := .next (startRow 0x0C02 meanScrubConfig q b s)
/-- MEM_STATUS (R252). -/
def execMemStatus (q : FlowRef) (b : Bus) (s : State) : Host.Outcome State Fault Refusal := .next (startRow 0x0C03 meanMemStatus q b s)
/-- REFRESH_DUE (R242). -/
def execRefreshDue (dt : Nat) (p : Pc) (calOk : Bool) (s : State) : Host.Outcome State Fault Refusal := .next (actAfter dt s (refreshDue p.val calOk))
/-- MAKE_UP_BURST (R243). -/
def execMakeUpBurst (dt : Nat) (p : Pc) (calOk : Bool) (s : State) : Host.Outcome State Fault Refusal := .next (actAfter dt s (makeUpBurst p.val calOk))
/-- CALIBRATION_STEP_DUE (R250). -/
def execCalibrationStepDue (dt : Nat) (p : Pc) (temp : Option Int) (s : State) : Host.Outcome State Fault Refusal := .next (actAfter dt s (calibrationStepDue p.val temp))
/-- CAL_DEFERRED (R250). -/
def execCalDeferred (dt : Nat) (p : Pc) (s : State) : Host.Outcome State Fault Refusal := .next (actAfter dt s (calDeferral p.val))
/-- AGE_PROMOTION (R241). -/
def execAgePromotion (dt : Nat) (p : Pc) (id : Nat) (s : State) : Host.Outcome State Fault Refusal := .next (actAfter dt s (agePromotion p.val id))
/-- NEXT_REQUEST (R239). -/
def execNextRequest (dt : Nat) (p : Pc) (corrected : Option Bool) (uncorrectable : Bool) (s : State) : Host.Outcome State Fault Refusal :=
  .next (actAfter dt s (nextRequest p.val (codesFound corrected uncorrectable)))
/-- PARITY_ALERT (R245). -/
def execParityAlert (dt : Nat) (x : AlertIn) (s : State) : Host.Outcome State Fault Refusal := .next (actAfter dt s (parityAlert x.pc.val x.cmd))
/-- QDR_PARITY_ERROR (R238). -/
def execQdrParityError (p : QPort) (access : Nat) (s : State) : Host.Outcome State Fault Refusal := .next (act s (qdrParityError p.val access))
/-- SCRUB (R249). -/
def execScrub (dt : Nat) (hbm : Bool) (r : ScrubFind) (s : State) : Host.Outcome State Fault Refusal := .next (actAfter dt s (scrub hbm r))

end Sys2Proof.Machine
end

