-- ==== Sys2Proof/Machine/Faults.lean ====
section
/-! DEFINITION. Self-test, calibration, fault injection, the fault journal and the counters (R437 to R445). -/

namespace Sys2Proof.Machine

/-- Units of a SELFTEST target (Table 16.7a). -/
def testUnits (target : Nat) : Nat := if target = 0 then 64 else if target = 1 then 12 else if target = 2 then 4 else if target = 3 then 4 else if target = 4 then 8 else 0

/-- A unit is in service and not under test. -/
def testUnitIn (s : State) (target index : Nat) : Bool :=
  if target = 0 then isleIn s index else if target = 1 then entropyIn s index else if target = 2 then decEngineIn s index
  else if target = 3 then compIn s index else (coreAt s index).st != .reset

/-- The condition of Table 16.7a; none: it holds, otherwise the refusal. -/
def testRefusal (s : State) (target index : Nat) : Option Nat :=
  if target = 0 then
    if s.chans.any (fun e => e.2.run.isles.contains index) && (spareIsles s index).isEmpty then some stCapacity else none
  else if target = 1 then
    let s' := { s with units.testing := s.units.testing ++ [(1, index)] }
    let ls := poolWith s' none none
    if binRate s' < sumRat (fun x => 16 / 10 * x.r) ls ∨ (check4 (loadL s' ls) ls).isSome then some stCapacity else none
  else if target = 2 then (if s.decs.any (fun e => e.2.engine == index) then some stCapacity else none)
  else if target = 3 then (if s.outs.any (fun e => e.2.compositor == index) then some stCapacity else none)
  else
    let others := ((List.range 8).filter (fun c => c != index && (coreAt s c).st != .reset)).length
    if s.irq.fallbackCore = index ∨ others < 6 then some stBadState else none

/-- A Skerry core goes under test: its threads are ready for other cores, its requester is masked (R270, R438). -/
def testCore (c : Nat) (s : State) : State :=
  let x := coreAt s c
  let back := fun (t : Option Nat) (s : State) => match t with | some u => makeReady u s | none => s
  modCore (maskRequester 130 c true (back x.slot (back x.running s))) c (fun _ => { st := .reset })

/-- SELFTEST (R437, R438). -/
def runSelftest (ci : CmdIn) (s : State) : CmdRes :=
  let t := fld ci.p 2 2 0
  let i := fld ci.p 2 15 8
  if testUnits t ≤ i then refuse s stBadParam
  else if !(testUnitIn s t i) then refuse s stBadState
  else match testRefusal s t i with
    | some o => refuse s o
    | none =>
      let s := { s with units.testing := s.units.testing ++ [(t, i)] }
      .pend (if t = 4 then testCore i s else s) (.selftest t i (s.now + testTicks t)) 0 0
def meanSelftest : Meaning := { run := runSelftest }

/-- SELFTEST_COMPLETE (R438): a unit that passes returns to service; one that fails stays out until warm reset, class 13. Both are journaled. -/
def selftestDone (q : FlowRef) (fail : Option Nat) (s : State) : State :=
  match flowCmds s (flowKey q) with
  | c :: _ => match c.wait with
    | .selftest t i deadline =>
      if s.now < deadline then s
      else
        let s := { s with units.testing := s.units.testing.filter (fun e => e != (t, i)) }
        match fail with
        | none =>
          let s := if t = 4 then maskRequester 130 i false (modCore s i (fun x => { x with st := .sleep })) else s
          completeCmd c.serial stOk (testSteps t) 0 0 [] true (journalAdd s 0 0 deviceFn 5 i 0)
        | some k =>
          let k := max 1 (min k (testSteps t))
          let s := completeCmd c.serial stCheck (k - 1) k 0 [] true (journalAdd s 13 0 deviceFn 5 i k)
          if t = 4 then s else unitOut t i s
    | _ => s
  | [] => s

/-- CALIBRATE (R251, R439). -/
def runCalibrate (ci : CmdIn) (s : State) : CmdRes :=
  let t := fld ci.p 2 1 0
  let i := fld ci.p 2 15 8
  if t = 0 then
    if 64 ≤ i then refuse s stBadParam
    else if s.mem.pcOut.getLsbD i then refuse s stBadState
    else .pend (modPc s i (fun x => { x with calDue := some (x.calDue.getD s.now) })) (.calibrate i) 0 0
  else if t = 1 then
    if 8 ≤ i then refuse s stBadParam
    else if !(s.mem.qportIn.getLsbD i) || s.chans.any (fun e => e.2.st == .armed || e.2.st == .running) || !s.outs.isEmpty || !s.decs.isEmpty then refuse s stBadState
    else .pend s (.retrain i (s.now + ticksMs 2)) 0 0
  else refuse s stBadParam
def meanCalibrate : Meaning := { run := runCalibrate }

/-- QDR_RETRAIN_COMPLETE (R439): address, read, write and verify, in at most 2 ms; a failed step takes the port out of service. -/
def retrainDone (q : FlowRef) (passed : Nat) (s : State) : State :=
  match flowCmds s (flowKey q) with
  | c :: _ => match c.wait with
    | .retrain p _ => if 4 ≤ passed then completeCmd c.serial stOk 4 0 0 [] true s else qportFails p (completeCmd c.serial stCheck passed 0 0 [] true s)
    | _ => s
  | [] => s

/-- The memory atom a device address names (R237, R254): HBM3E or QDR-IV, and its first byte address in that memory. -/
def atomOf (s : State) (addr : Nat) : Option (Bool × Nat) :=
  if unmapped s addr then none
  else if addr < qdrBase then some (true, addr / 32 * 32)
  else if addr < 0x20000000000 then some (false, (addr - qdrBase) / 8 * 8)
  else none

/-- The object an injection needs exists (R441). -/
def injectable (s : State) (kind index addr count : Nat) : Bool :=
  if kind = 1 ∨ kind = 2 then (atomOf s addr).isSome
  else if kind = 3 then decide (index < 64) && !(s.mem.pcOut.getLsbD index)
  else if kind = 4 then decide (index < 8) && s.mem.qportIn.getLsbD index
  else if kind = 5 then cwLive s && decide (0 < count)
  else if kind = 6 then true
  else if kind = 7 then (chanAt s index).isSome
  else if kind = 8 then pairOn s && decide (0 < count)
  else if kind = 9 then s.pair.keeper == .holding
  else decide (kind = 10) && decide (index < 8)

/-- FAULT_INJECT (R440, R441): KIND 2 acts at once, the others are armed. -/
def runFaultInject (ci : CmdIn) (s : State) : CmdRes :=
  let kind := fld ci.p 2 7 0
  let confirm := fld ci.p 2 15 8
  let index := word ci.p 3
  let addr := word ci.p 4 + fld ci.p 5 15 0 * 2 ^ 32
  let count := word ci.p 6
  let risky := kind = 2 ∨ (7 ≤ kind ∧ kind ≤ 10)
  if kind = 0 ∨ 10 < kind ∨ (risky ∧ confirm ≠ (kind ^^^ 0xFF)) ∨ (¬ risky ∧ confirm ≠ 0) ∨ !(injectable s kind index addr count) then refuse s stBadParam
  else if kind = 2 then
    let e := (atomOf s addr).getD (true, 0)
    let seq := s.journal.nextSeq
    .done (journalAdd (markPoison e.1 e.2 s) 4 9 deviceFn 6 e.1.toNat e.2) stOk 1 (seq % 2 ^ 32) (seq / 2 ^ 32)
  else
    let at' := if kind = 1 then (atomOf s addr).elim 0 (fun e => if e.1 then e.2 else 0x10000000000 + e.2) else 0
    let ix := if kind = 3 ∨ kind = 4 ∨ kind = 7 ∨ kind = 10 then index else 0
    let s := { s with units.injections := s.units.injections ++ [(kind, ix, at', if kind = 5 then count else 0, ci.cmd.serial)] }
    let s := if kind = 8 then { s with pair.hbSuppressUntil := s.now + ticksUs (8 * count) } else if kind = 9 then { s with pair.noRefresh := true } else s
    .pend s (.inject kind (s.now + ticksMs 1000)) 0 0
def meanFaultInject : Meaning := { run := runFaultInject }

/-- FAULT_INJECT_TIMEOUT (R440 KIND 1): no full write has reached the atom for 1 s. -/
def injectTimeout (q : FlowRef) (s : State) : State :=
  match flowCmds s (flowKey q) with
  | c :: _ => match c.wait with
    | .inject k deadline =>
      if k ≠ 1 ∨ s.now < deadline then s
      else completeCmd c.serial stTimeout 0 0 0 [] true { s with units.injections := s.units.injections.filter (fun x => x.2.2.2.2 != c.serial) }
    | _ => s
  | [] => s

/-- A journal entry's 32 bytes (Table 16.9). -/
def jBytes (e : JEntry) : List Byte :=
  let b := le 8 e.seq ++ le 8 e.tide ++ le 1 e.cls ++ le 1 e.flags ++ le 1 e.function ++ le 1 e.objKind ++ le 2 e.object ++ le 6 e.detail
  b ++ le 4 (crc32c b)

/-- Entries held, staged ones included, in SEQ order (R444). -/
def journalAll (s : State) : List JEntry := s.journal.flash ++ sortOn (fun e => e.seq) (s.journal.merged.map (fun e => e.2.1)) ++ s.journal.staged

/-- JOURNAL_READ (R444). -/
def runJournalRead (ci : CmdIn) (s : State) : CmdRes :=
  let mine := (journalAll s).filter (fun e => decide (dword ci.p 5 ≤ e.seq) && (ci.f == 0 || e.function == ci.f))
  let n := word ci.p 4 / 32
  let next := match mine.drop n with | e :: _ => e.seq | [] => max s.journal.nextSeq (dword ci.p 5)
  let bytes := (mine.take n).flatMap jBytes
  .units s bytes bytes.length (next % 2 ^ 32) (next / 2 ^ 32)
def meanJournalRead : Meaning := { run := runJournalRead }

/-- One entry goes to the ring: a full ring first loses its oldest sector of 128 entries (R442, R443). -/
def ringPut (ring : List JEntry) (e : JEntry) : List JEntry := (if 65536 ≤ ring.length then ring.drop 128 else ring) ++ [e]

/-- Staged entries beyond the rate are merged, one per class (R443). -/
def mergeEntry (m : FMap (JEntry × Nat)) (e : JEntry) : FMap (JEntry × Nat) :=
  match m.get? e.cls with
  | some (f, n) => m.set e.cls ({ f with detail := n + 1 }, n + 1)
  | none => m.set e.cls ({ e with detail := 1 }, 1)

/-- JOURNAL_WRITE (R443): staged entries go to flash in SEQ order, at most 1,000 in a second. -/
def journalWrite (s : State) : State :=
  let fresh := decide (s.journal.rateStart + ticksMs 1000 ≤ s.now)
  let first := if fresh then sortOn (fun e => e.seq) (s.journal.merged.map (fun e => e.2.1)) else []
  let used := if fresh then first.length else s.journal.rateCount
  let now := s.journal.staged.take (1000 - used)
  let rest := s.journal.staged.drop (1000 - used)
  { s with journal.flash := (first ++ now).foldl ringPut s.journal.flash, journal.staged := [], journal.stagedAt := [],
           journal.merged := rest.foldl mergeEntry (if fresh then [] else s.journal.merged),
           journal.rateCount := used + now.length, journal.rateStart := if fresh then s.now else s.journal.rateStart }

/-- What a record says of interrupted work (R430). -/
inductive Settled where
  | done | unitOutOfService | notDone | resubmitFrom (bytes : Nat) | streamEnded | resumeAtBlock (block : Nat)
  deriving DecidableEq, Repr

/-- Classify one record after a reset, fault, shed or takeover (R430), by the classes of Table 2.11. -/
def settleRecord (r : Rec) : Settled :=
  let cls := (opInfo r.opcode).map OpInfo.cls
  if r.outcome ≤ 0x02 then .done
  else if r.outcome = 0x19 ∧ cls = some .test then .unitOutOfService
  else if r.outcome ≤ 0x1B then .notDone
  else match cls with
    | some .commit => if r.progress = 0 then .notDone else .done
    | some .staging => if r.progress = 0 then .notDone else .done
    | some .config => if r.progress = 0 then .notDone else .done
    | some .surface => .resubmitFrom r.progress
    | some .channel => .streamEnded
    | some .update => .resumeAtBlock r.progress
    | _ => .notDone

/-- The rate-control status record (Table 5.6). -/
def rcRecord (n : Nat) (x : Chan) : List Byte :=
  let c := x.counters
  le 1 n ++ le 1 (x.coding.rc.elim 0 (fun r => r.mode)) ++ le 1 c.qpAvg ++ zeros 1 ++ leInt 4 c.vDev ++ leInt 4 c.budget ++ le 4 c.floorRows ++ le 4 c.copyRows
    ++ le 4 c.guardCuts ++ le 4 c.rowCapOver ++ le 4 c.hrdViolations

/-- COUNTERS_READ (R445, Table 16.10). -/
def countersChan (n : Nat) (x : Chan) : List Byte :=
  let c := x.counters
  let checks := (c.checks.map (fun e => le 8 e.1 ++ le 2 e.2.1 ++ zeros 2 ++ le 4 e.2.2.toNat)).flatten
  rcRecord n x ++ le 4 c.specDualCtus ++ le 4 c.specHighChosen ++ le 4 c.runaheadDiscards ++ le 4 c.runaheadWaits ++ le 4 c.lagoonStalls ++ le 4 c.substSlices ++ zeros 8
    ++ checks ++ zeros (1024 - checks.length)
def countersDevice (s : State) : List Byte :=
  let h := s.harbour
  le 4 h.dispatches ++ le 4 h.recalls ++ le 4 h.cancelRace ++ le 4 h.lostEvents ++ le 4 h.runLimit ++ le 4 h.readyMax ++ le 4 h.tevSkipped ++ zeros 4
    ++ (List.range 16).flatMap (fun k => le 4 (s.journal.faults.getD k 0))
def runCountersRead (ci : CmdIn) (s : State) : CmdRes :=
  if fld ci.p 5 1 0 = 0 then
    match chanAt s (fld ci.p 5 13 8) with
    | none => refuse s stBadParam
    | some x => .answer s (countersChan (fld ci.p 5 13 8) x) 0 0
  else if fld ci.p 5 1 0 = 1 then .answer s (countersDevice s) 0 0
  else refuse s stBadParam
def meanCountersRead : Meaning :=
  { deny := fun ci s => (fld ci.p 5 1 0 == 1 && ci.f != 0) || (fld ci.p 5 1 0 == 0 && (chanAt s (fld ci.p 5 13 8)).elim false (fun x => x.owner.val != ci.f)), run := runCountersRead }

/-- SELFTEST (R437). -/
def execSelftest (q : FlowRef) (b : Bus) (s : State) : Host.Outcome State Fault Refusal := .next (startRow 0x0B01 meanSelftest q b s)
/-- SELFTEST_COMPLETE (R438). -/
def execSelftestComplete (dt : Nat) (q : FlowRef) (fail : Option Nat) (s : State) : Host.Outcome State Fault Refusal := .next (actAfter dt s (selftestDone q fail))
/-- CALIBRATE (R439). -/
def execCalibrate (q : FlowRef) (b : Bus) (s : State) : Host.Outcome State Fault Refusal := .next (startRow 0x0B02 meanCalibrate q b s)
/-- COUNTERS_READ (R445). -/
def execCountersRead (q : FlowRef) (b : Bus) (s : State) : Host.Outcome State Fault Refusal := .next (startRow 0x0B03 meanCountersRead q b s)
/-- FAULT_INJECT (R440). -/
def execFaultInject (q : FlowRef) (b : Bus) (s : State) : Host.Outcome State Fault Refusal := .next (startRow 0x0B04 meanFaultInject q b s)
/-- JOURNAL_READ (R444). -/
def execJournalRead (q : FlowRef) (b : Bus) (s : State) : Host.Outcome State Fault Refusal := .next (startRow 0x0B05 meanJournalRead q b s)
/-- FAULT_INJECT_TIMEOUT (R440). -/
def execFaultInjectTimeout (dt : Nat) (q : FlowRef) (s : State) : Host.Outcome State Fault Refusal := .next (actAfter dt s (injectTimeout q))
/-- JOURNAL_WRITE (R443). -/
def execJournalWrite (dt : Nat) (s : State) : Host.Outcome State Fault Refusal := .next (actAfter dt s journalWrite)
/-- QDR_RETRAIN_COMPLETE (R439). -/
def execQdrRetrainComplete (dt : Nat) (q : FlowRef) (passed : Nat) (s : State) : Host.Outcome State Fault Refusal := .next (actAfter dt s (retrainDone q passed))

end Sys2Proof.Machine
end

