-- ==== Sys2Proof/Machine/Update.lean ====
section
/-! DEFINITION. Firmware images, boot slots, update sessions and parameter deltas (R451 to R466). -/

namespace Sys2Proof.Machine

/-- Slot A or B of the boot flash (R453). -/
def slotOf (s : State) (b : Bool) : FlashSlot := if b then s.upd.slotB else s.upd.slotA
def modSlot (b : Bool) (g : FlashSlot → FlashSlot) (s : State) : State :=
  if b then { s with upd.slotB := g s.upd.slotB } else { s with upd.slotA := g s.upd.slotA }

/-- The inactive slot: the one that ACTIVE of the boot record does not name (R454). -/
def inactive (s : State) : Bool := !s.upd.boot.activeB

/-- Size of an image block (R451). -/
def blockBytes : Nat := 65536

/-- The first n bytes of a slot's image; a block that is not programmed reads as erased flash. -/
def imageBytes (x : FlashSlot) (n : Nat) : List Byte :=
  ((List.range (ceilDiv n blockBytes)).flatMap (fun i => x.blocks.getD i (List.replicate blockBytes 0xFF))).take n

/-- Fields of the image header (Table 17.2). -/
def headerBytes (x : FlashSlot) (o n : Nat) : List Byte := slice (x.blocks.getD 0 []) o n
def headerNat (x : FlashSlot) (o n : Nat) : Nat := ofLe (headerBytes x o n)
def imageKey (x : FlashSlot) : Nat := if x.factory then Config.keyIndex.val else headerNat x 6 1
def imageRevokes (x : FlashSlot) : Nat := if x.factory then 0 else headerNat x 7 1
def imageVersion (x : FlashSlot) : Word := if x.factory then Config.fwVersion else BitVec.ofNat 32 (headerNat x 16 4)
def imageGen (x : FlashSlot) : Word := if x.factory then Config.codingGen else BitVec.ofNat 32 (headerNat x 20 4)
def imageSec (x : FlashSlot) : Nat := if x.factory then Config.secVersion.val else headerNat x 24 1

/-- The fused security version (R452). -/
def fusedSec (s : State) : Nat := s.upd.secFused.getD Config.secVersion.val

/-- The image is signed by its key, and the key is one of the fused ones (R452). -/
def imageSigned (x : FlashSlot) : Bool :=
  let n := headerNat x 12 4
  let img := imageBytes x n
  let digest := Config.sha384 (img.take 160 ++ (zeros 96).take (n - 160) ++ img.drop 256)
  Config.sha384 (headerBytes x 64 96) == Config.keyHash (imageKey x) && Config.ecdsaValid (headerBytes x 64 96) digest (headerBytes x 160 96)

/-- A valid image (R452). -/
def imageValid (s : State) (x : FlashSlot) : Bool :=
  let known := x.factory || (headerNat x 0 4 == 0x59464D57 && headerNat x 4 2 == 1 && headerNat x 28 4 == vendorId * 65536 + deviceId && decide (headerNat x 32 4 ≤ 0xB1)
      && decide (headerNat x 12 4 ≤ 255 * blockBytes) && imageSigned x)
  known && decide (imageKey x < 4) && !(s.upd.revoked.getLsbD (imageKey x)) && decide (imageSec x ≤ 63) && decide (fusedSec s ≤ imageSec x)

/-- Write a boot record: BR_SEQ + 1 into the other copy, one step (R454). -/
def writeBoot (g : BootRecord → BootRecord) (s : State) : State := { s with upd.boot := { g s.upd.boot with brSeq := s.upd.boot.brSeq + 1 } }

/-- The Ferry client of a command. -/
def clientOf (c : Cmd) : Option Client := c.ferry.map (fun x => x.1)

/-- An update command from another client than the one the session belongs to (ch 17, Loading an image). -/
def otherClient (ci : CmdIn) (s : State) : Bool :=
  match s.upd.owner, clientOf ci.cmd with
  | some o, some c => o != c
  | _, _ => false

/-- The commands of a session that wait for the flash. -/
def flashWaiters (s : State) : List Nat := ((allCmds s).filter (fun e => e.2.wait == .flash && opcodeOf e.2.packet != 0x0A05)).map (fun e => e.2.serial)

/-- A RECEIVING or VERIFIED session ends; its commands that wait for the flash end with this outcome (R456). -/
def endSession (outcome : Nat) (s : State) : State :=
  if s.upd.session = .receiving ∨ s.upd.session = .verified then
    (flashWaiters s).foldl (fun s n => endCmd n outcome 0 0 s) { s with upd.session := .idle, upd.owner := none }
  else s

/-- Fall back from a trial: the record keeps ACTIVE (R458). -/
def fallBack (s : State) : State := writeBoot (fun b => { b with trial := false, fallback := true }) s

/-- UPD_BEGIN (R456). -/
def runUpdBegin (ci : CmdIn) (s : State) : CmdRes :=
  let blocks := word ci.p 2
  let len := word ci.p 3
  if blocks < 2 ∨ 255 < blocks ∨ blocks * blockBytes < len then refuse s stBadParam
  else if s.upd.session ≠ .idle ∨ s.upd.owner.isSome then refuse s stBadState
  else
    let x := slotOf s (inactive s)
    let s := { s with upd.owner := clientOf ci.cmd }
    if flag ci.p 5 0 && x.descriptor && x.sessionId == word ci.p 4 && x.imageBlocks == blocks && x.imageBytes == len then
      .done { s with upd.session := .receiving } stOk 0 x.entries.length 0
    else .pend (modSlot (inactive s) (fun _ => {}) s) .flash 0 0
def meanUpdBegin : Meaning := { deny := otherClient, run := runUpdBegin }

/-- UPD_BLOCK (R455, R456). -/
def runUpdBlock (ci : CmdIn) (s : State) : CmdRes :=
  let i := word ci.p 5
  let crc := BitVec.ofNat 32 (word ci.p 6)
  let x := slotOf s (inactive s)
  if word ci.p 4 ≠ blockBytes then refuse s stBadParam
  else if s.upd.session ≠ .receiving then refuse s stBadState
  else if x.imageBlocks ≤ i then refuse s stBadParam
  else match x.entries.get? i with
    | some e => if e ≠ crc then refuse s stBadState else if crc32c ci.block ≠ crc.toNat then refuse s stCheck else okDone s x.entries.length
    | none => if crc32c ci.block ≠ crc.toNat then refuse s stCheck else .pend s .flash 0 0
def meanUpdBlock : Meaning := { deny := otherClient, run := runUpdBlock }

/-- UPD_VERIFY (R456): the read-back takes its time. -/
def runUpdVerify (_ : CmdIn) (s : State) : CmdRes :=
  let x := slotOf s (inactive s)
  if s.upd.session ≠ .receiving then refuse s stBadState
  else match (List.range x.imageBlocks).find? (fun i => !(x.entries.has i)) with
    | some i => .done s stBadState 0 i 0
    | none => .pend s .flash 0 0
def meanUpdVerify : Meaning := { deny := otherClient, run := runUpdVerify }

/-- UPD_CONFIRM step 1 (R459): the boot record makes the trial slot the active one; the fuses follow. -/
def runUpdConfirm (_ : CmdIn) (s : State) : CmdRes :=
  if s.upd.session ≠ .trial ∨ s.upd.fusePending.isSome then refuse s stBadState
  else
    let x := slotOf s s.upd.boot.trialSlotB
    let s := writeBoot (fun b => { b with activeB := b.trialSlotB, trial := false, attempts := 0 }) s
    .pend { s with upd.trialEnd := none, upd.fusePending := some (imageSec x, BitVec.ofNat 4 (imageRevokes x) &&& ~~~(BitVec.ofNat 4 (2 ^ imageKey x))) } .flash 0 0
def meanUpdConfirm : Meaning := { deny := otherClient, run := runUpdConfirm }

/-- UPD_CONFIRM steps 2 and 3 (R459). -/
def blowFuses (s : State) : State :=
  match s.upd.fusePending with
  | some (v, m) => { s with upd.secFused := some (max (fusedSec s) v), upd.revoked := s.upd.revoked ||| m, upd.fusePending := none }
  | none => s

/-- UPD_VERIFY with the whole slot read back and equal to its entries: the checks of R452. -/
def verifyImage (serial : Nat) (s : State) : State :=
  let x := slotOf s (inactive s)
  if imageValid s x then completeCmd serial stOk x.imageBlocks (imageVersion x).toNat (imageGen x).toNat [] true { s with upd.session := .verified }
  else completeCmd serial stSignature 0 0 0 [] true s

/-- FLASH_OPERATION_COMPLETE (R455, R456, R459): the erase, program, read-back or fuse operation of the command at the front of flow q ends. -/
def flashDone (q : FlowRef) (r : FlashResult) (s : State) : State :=
  match flowCmds s (flowKey q) with
  | c :: _ =>
    if c.wait != .flash then s
    else
      let p := c.packet
      let b := inactive s
      if opcodeOf p = 0x0A01 then
        completeCmd c.serial stOk 0 0 0 [] true
          { modSlot b (fun _ => { sessionId := word p 4, imageBlocks := word p 2, imageBytes := word p 3, descriptor := true }) s with upd.session := .receiving }
      else if opcodeOf p = 0x0A02 then
        match r with
        | .mismatch _ => completeCmd c.serial stFault (slotOf s b).entries.length 0 0 [] true s
        | .done =>
          let s := modSlot b (fun x => { x with blocks := x.blocks.set (word p 5) c.block, entries := x.entries.set (word p 5) (BitVec.ofNat 32 (word p 6)) }) s
          completeCmd c.serial stOk (slotOf s b).entries.length 0 0 [] true s
      else if opcodeOf p = 0x0A03 then
        match r with
        | .mismatch k => completeCmd c.serial stCheck 0 k 0 [] true s
        | .done => verifyImage c.serial s
      else completeCmd c.serial stOk 0 0 0 [] true { blowFuses s with upd.session := .idle, upd.owner := none }
  | [] => s

/-- Keys of the parameter store (Table 17.6). -/
def keyFerryIp : Nat := 0x0001
def keyFerryMask : Nat := 0x0002
def keyFerryUdp : Nat := 0x0004
def keyFerryAllow : Nat := 0x0005
def keyQdrPorts : Nat := 0x0010
def keyRegion : Nat := 0x0020
def keyTrial : Nat := 0x0030

/-- A number from the parameter store, or its default (R464). -/
def paramNat (s : State) (key dflt : Nat) : Nat := match s.upd.params.get? key with | some v => ofLe v | none => dflt

/-- A stored region size is within the limits of Table 8.1; the fixed regions keep their size. -/
def sizeOk (kind n : Nat) : Bool :=
  (kindsOf kind).contains kind && decide (regionMin kind ≤ n) && (kind != 0 || n == 64) && (kind != 8 || n == 1024) && (kind != 3 || decide (n ≤ 256)) && (decide (kind < 8) || n % 256 == 0)

/-- A value has a good LENGTH and is in range (R461, Table 17.6). -/
def paramOk (key : Nat) (v : List Byte) : Bool :=
  let n := ofLe v
  if key = 0x0005 then v.length % 8 == 0 && decide (v.length ≤ 32) && (List.range (v.length / 8)).all (fun i => decide (ofLe (slice v (8 * i + 4) 4) ≤ 32))
  else if v.isEmpty || 4 < v.length then false
  else if 1 ≤ key ∧ key ≤ 3 then v.length == 4
  else if key = 0x0004 then decide (1024 ≤ n) && decide (n ≤ 65535)
  else if key = 0x0010 then decide (n < 512)
  else if 0x0020 ≤ key ∧ key ≤ 0x002C then sizeOk (key - 0x20) n
  else key == 0x0030 && decide (30 ≤ n) && decide (n ≤ 3600)

/-- Parameter records of a block (R461); none where one is cut off or names a bad LENGTH. The fuel is the block's length. -/
def paramRecs : Nat → List Byte → Option (List ParamRec)
  | _, [] => some []
  | 0, _ => none
  | n + 1, b =>
    let key := ofLe (slice b 0 2)
    let len := ofLe (slice b 2 2)
    let padded := 4 * ceilDiv len 4
    if b.length < 4 + padded ∨ 256 < len then none
    else (paramRecs n (b.drop (4 + padded))).map (fun r => { key := key, value := (b.drop 4).take len } :: r)

/-- Bytes of a record in the delta journal: header, value, transaction number and CRC-32C (R461). -/
def recordBytes (x : ParamRec) : Nat := 12 + 4 * ceilDiv x.value.length 4

/-- Size of the delta journal (Table 17.3). -/
def journalBytes : Nat := 1048576

/-- PARAM_DELTA (R461, R463). -/
def runParamDelta (ci : CmdIn) (s : State) : CmdRes :=
  match paramRecs ci.block.length ci.block with
  | none => refuse s stBadParam
  | some rs =>
    let have' := match s.upd.txn with | some (_, l) => l | none => []
    if !(rs.all (fun r => paramOk r.key r.value)) then refuse s stBadParam
    else if 4096 < have'.length + rs.length then refuse s stNoResource
    else
      match (match s.upd.txn with | some (c, _) => some c | none => clientOf ci.cmd) with
      | none => refuse s stDenied
      | some owner =>
        .done { s with upd.txn := some (owner, have' ++ rs), upd.journalUsed := s.upd.journalUsed + sumBy recordBytes rs } stOk rs.length (have'.length + rs.length) 0
def meanParamDelta : Meaning :=
  { deny := fun ci s => match s.upd.txn with | some (o, _) => clientOf ci.cmd != some o | none => false, run := runParamDelta }

/-- PARAM_COMMIT (R462, R463): compaction writes the merged state into the other bank when the journal lacks room for the transaction plus 4 KiB. -/
def runParamCommit (ci : CmdIn) (s : State) : CmdRes :=
  match s.upd.txn with
  | none => refuse s stBadState
  | some (_, rs) =>
    if word ci.p 2 ≠ rs.length then refuse s stCheck
    else
      let n := s.upd.nextTxn
      let s := if journalBytes < s.upd.journalUsed + 4096 then { s with upd.baseSeq := s.upd.baseSeq + 1, upd.journalUsed := sumBy recordBytes rs } else s
      .done { s with upd.stored := rs.foldl (fun m r => m.set r.key r.value) s.upd.stored, upd.txn := none, upd.nextTxn := n + 1, upd.txnCommitted := n,
                     upd.journalUsed := s.upd.journalUsed + 16 } stOk 0 n 0
def meanParamCommit : Meaning := { run := runParamCommit }

/-- Update status record (Table 17.7). -/
def updRecord (s : State) : List Byte :=
  let u := s.upd
  let code := match u.session with | .idle => if u.loader then 4 else 0 | .receiving => 1 | .verified => 2 | .trial => 3
  let version := fun b => if imageValid s (slotOf s b) then (imageVersion (slotOf s b)).toNat else 0
  let x := slotOf s (inactive s)
  let loading := u.session == .receiving || u.session == .verified
  let left := match u.trialEnd with | some t => if u.session = .trial then (t - s.now) / 500000 else 0 | none => 0
  le 1 code ++ le 1 u.boot.activeB.toNat ++ le 1 (u.boot.fallback.toNat + u.txn.isSome.toNat * 2) ++ le 1 u.lastFail ++ le 4 (version false) ++ le 4 (version true)
    ++ le 4 (match u.running with | some (_, g) => g | none => Config.codingGen).toNat ++ le 1 (fusedSec s) ++ le 1 u.revoked.toNat
    ++ le 2 (if loading then x.entries.length else 0) ++ le 4 (if u.session = .idle then 0 else x.sessionId) ++ le 4 left ++ le 4 u.txnCommitted
    ++ le 4 (match u.txn with | some (_, l) => l.length | none => 0) ++ le 4 u.baseSeq ++ le 4 (journalBytes - u.journalUsed)
    ++ le 4 u.ferryDiscards ++ le 4 u.ferryBad ++ le 4 u.ferryRepeats ++ zeros 8

/-- UPD_STATUS (R456, R466): ACK clears FALLBACK and LAST_FAIL first. -/
def runUpdStatus (ci : CmdIn) (s : State) : CmdRes :=
  let s := if flag ci.p 5 0 then
      let s := { s with upd.lastFail := 0 }
      if s.upd.boot.fallback then writeBoot (fun b => { b with fallback := false }) s else s
    else s
  .answer s (updRecord s) 0 0
def meanUpdStatus : Meaning := { deny := fun ci _ => flag ci.p 5 0 && ci.f != 0, run := runUpdStatus }

/-- UPD_BEGIN (R456). -/
def execUpdBegin (q : FlowRef) (b : Bus) (s : State) : Host.Outcome State Fault Refusal := .next (startRow 0x0A01 meanUpdBegin q b s)
/-- UPD_BLOCK (R456). -/
def execUpdBlock (q : FlowRef) (b : Bus) (s : State) : Host.Outcome State Fault Refusal := .next (startRow 0x0A02 meanUpdBlock q b s)
/-- UPD_VERIFY (R456). -/
def execUpdVerify (q : FlowRef) (b : Bus) (s : State) : Host.Outcome State Fault Refusal := .next (startRow 0x0A03 meanUpdVerify q b s)
/-- UPD_CONFIRM (R459). -/
def execUpdConfirm (q : FlowRef) (b : Bus) (s : State) : Host.Outcome State Fault Refusal := .next (startRow 0x0A05 meanUpdConfirm q b s)
/-- PARAM_DELTA (R461). -/
def execParamDelta (q : FlowRef) (b : Bus) (s : State) : Host.Outcome State Fault Refusal := .next (startRow 0x0A07 meanParamDelta q b s)
/-- PARAM_COMMIT (R462). -/
def execParamCommit (q : FlowRef) (b : Bus) (s : State) : Host.Outcome State Fault Refusal := .next (startRow 0x0A08 meanParamCommit q b s)
/-- UPD_STATUS (R466). -/
def execUpdStatus (q : FlowRef) (b : Bus) (s : State) : Host.Outcome State Fault Refusal := .next (startRow 0x0A09 meanUpdStatus q b s)
/-- FLASH_OPERATION_COMPLETE (R456). -/
def execFlashOperationComplete (dt : Nat) (q : FlowRef) (r : FlashResult) (s : State) : Host.Outcome State Fault Refusal := .next (actAfter dt s (flashDone q r))

end Sys2Proof.Machine
end

