-- ==== Sys2Proof/Machine/Ferry.lean ====
section
/-! DEFINITION. The Ferry port: clients, commands, staging, discarded frames, loss of the link (R446 to R450, R456). -/

namespace Sys2Proof.Machine

/-- The Ferry port runs: its clock and the firmware do (Tables 10.1 and 16.2). -/
def ferryUp (s : State) : Bool := fwUp s && !clockLost s .ferry

/-- Address and mask of n leading ones. -/
def prefixMask (n : Nat) : Nat := 2 ^ 32 - 2 ^ (32 - min n 32)
def inPrefix (a b n : Nat) : Bool := (a &&& prefixMask n) == (b &&& prefixMask n)

/-- A source address is on the allow list; an empty list stands for the port's subnet (R446, Table 17.6). -/
def ferryAllowed (s : State) (src : Word) : Bool :=
  let v := s.upd.params.getD keyFerryAllow []
  let m := paramNat s keyFerryMask 0xFFFFFF00
  if v.isEmpty then (src.toNat &&& m) == (paramNat s keyFerryIp 0xC0A86010 &&& m)
  else (List.range (v.length / 8)).any (fun i => inPrefix src.toNat (ofLe (slice v (8 * i) 4)) (ofLe (slice v (8 * i + 4) 4)))

/-- A discarded frame, and a discarded datagram, are counted (R446, R447). -/
def ferryDiscard (s : State) : State := { s with upd.ferryDiscards := inc32 s.upd.ferryDiscards }
def ferryBad (s : State) : State := { s with upd.ferryBad := inc32 s.upd.ferryBad }

/-- A client is heard: a new one takes a free place, or that of the client that has been silent longest (R448). -/
def hearClient (c : Client) (s : State) : State :=
  let n := s.upd.heard + 1
  let s := { s with upd.heard := n }
  if s.upd.clients.any (fun x => x.client == c) then { s with upd.clients := s.upd.clients.map (fun x => if x.client = c then { x with lastHeard := n } else x) }
  else
    let l := sortOn (fun (x : FerryClient) => x.lastHeard) s.upd.clients
    { s with upd.clients := (if 8 ≤ l.length then l.drop 1 else l) ++ [{ client := c, lastHeard := n }] }

/-- SEQ x is lower than y, modulo 2³² (R448). -/
def seqLower (x y : Nat) : Bool := decide (0 < (y + 2 ^ 32 - x) % 2 ^ 32) && decide ((y + 2 ^ 32 - x) % 2 ^ 32 < 2 ^ 31)

/-- A command whose FLOW names no Ferry flow completes without a place in one (R449); an opcode it may not have comes first (R64). -/
def ferryNoFlow (c : Client) (seq : Nat) (p : Packet) (s : State) : State :=
  let o := if (opInfo (opcodeOf p)).isNone then stBadOpcode else if ferryDenied { packet := p, ferry := some (c, seq) } then stDenied else stBadParam
  ferryFinish c { seq := seq, opcode := opcodeOf p, outcome := o, flow := flowOf p, tag := tagOf p, progress := 0, result0 := 0, result1 := 0, tide := s.time.tide, answer := [] }
    (updateFailed (opcodeOf p) o s)

/-- A new command joins its Ferry flow in the order of arrival (R449). -/
def ferryAccept (c : Client) (seq : Nat) (p : Packet) (s : State) : State :=
  if 4 ≤ flowOf p then ferryNoFlow c seq p s
  else
    let k := 8192 + flowOf p
    let s := { s with upd.clients := s.upd.clients.map (fun x => if x.client = c then { x with running := x.running ++ [seq] } else x) }
    setFlow { s with nextSerial := s.nextSerial + 1 } k (flowCmds s k ++ [{ serial := s.nextSerial, packet := p, ferry := some (c, seq) }])

/-- FERRY_COMMAND (R448): a kept command is answered again, an old one discarded, a running one not repeated. -/
def ferryCommand (c : Client) (seq : Nat) (p : Packet) (s : State) : State :=
  if !ferryUp s then s
  else if !ferryAllowed s c.addr then ferryDiscard s
  else
    let s := hearClient c s
    match s.upd.clients.find? (fun x => x.client == c) with
    | none => s
    | some x =>
      match x.kept.find? (fun k => k.seq == seq) with
      | some k => ferrySendKept c k { s with upd.ferryRepeats := inc32 s.upd.ferryRepeats }
      | none =>
        if x.running.contains seq || (!x.kept.isEmpty && x.kept.all (fun k => seqLower seq k.seq)) then s
        else ferryAccept c seq p s

/-- FERRY_DATA (R447, R450). -/
def ferryData (c : Client) (offset : Nat) (bytes : List Byte) (s : State) : State :=
  if !ferryUp s then s
  else if !ferryAllowed s c.addr then ferryDiscard s
  else
    let s := if s.upd.clients.any (fun x => x.client == c) then hearClient c s else s
    if offset % 1024 ≠ 0 ∨ 1048576 ≤ offset ∨ bytes.length ≠ 1024 then ferryBad s
    else { s with upd.staging := s.upd.staging.set (offset / 1024) bytes }

/-- A datagram's header, CHECK and length are right (R447, Table 17.1). -/
def datagramOk (b : List Byte) : Bool :=
  let type := ofLe (slice b 3 1)
  decide (16 ≤ b.length) && ofLe (slice b 0 2) == 0x5946 && ofLe (slice b 2 1) == 1 && ofLe (slice b 12 4) == crc32c (b.take 12 ++ zeros 4 ++ b.drop 16)
    && (if type = 1 then b.length == 80 else if type = 2 then b.length == 48 else if type = 3 then b.length == 1040 else type == 4 && decide (b.length ≤ 1040))

/-- The command packet of a COMMAND datagram (Table 17.1). -/
def datagramPacket (b : List Byte) : Packet := Vector.ofFn (fun i => BitVec.ofNat 32 (ofLe (slice b (16 + 4 * i.val) 4)))

/-- A UDP datagram on the Ferry port (R446, R447): only those to the Ferry UDP port from an allowed source are looked at; a RECORD or an ANSWER asks nothing of the device. -/
def ferryUdp (c : Client) (dstPort : Nat) (b : List Byte) (s : State) : State :=
  if dstPort ≠ paramNat s keyFerryUdp 9616 ∨ !ferryAllowed s c.addr then ferryDiscard s
  else if !datagramOk b then ferryBad s
  else if ofLe (slice b 3 1) = 1 then ferryCommand c (ofLe (slice b 4 4)) (datagramPacket b) s
  else if ofLe (slice b 3 1) = 3 then ferryData c (ofLe (slice b 8 4)) (b.drop 16) s
  else s

/-- FERRY_FRAME_RX (R446, R447): ARP and ICMP echo for the port's address are answered, datagrams are taken, everything else is discarded. -/
def ferryFrame (fr : FerryFrame) (s : State) : State :=
  if !ferryUp s then s
  else
    let own := fun (a : Word) => a.toNat == paramNat s keyFerryIp 0xC0A86010
    match fr with
    | .arp a => if own a then emit s (.ferryFrame fr) else ferryDiscard s
    | .icmpEcho a => if own a then emit s (.ferryFrame fr) else ferryDiscard s
    | .datagram c p b => ferryUdp c p.toNat b s
    | .other => ferryDiscard s

/-- FERRY_COMMAND (R448). -/
def execFerryCommand (c : Client) (seq : Nat) (p : Packet) (s : State) : Host.Outcome State Fault Refusal := .next (ferryCommand c seq p s)
/-- FERRY_DATA (R450). -/
def execFerryData (c : Client) (offset : Nat) (bytes : List Byte) (s : State) : Host.Outcome State Fault Refusal := .next (ferryData c offset bytes s)
/-- FERRY_FRAME_RX (R446). -/
def execFerryFrameRx (fr : FerryFrame) (s : State) : Host.Outcome State Fault Refusal := .next (ferryFrame fr s)
/-- FERRY_LINK_LOSS (R456): the link has been lost for more than 10 s; the descriptor stays. -/
def execFerryLinkLoss (dt : Nat) (s : State) : Host.Outcome State Fault Refusal := .next (actAfter dt s (endSession stFault))

end Sys2Proof.Machine
end

