-- ==== Sys2Proof/Machine/PairOps.lean ====
section
/-! DEFINITION. The pair at work: PAIR commands, heartbeats, reconciliation, Causeway inputs, the claim keeper and the claim lines, takeover (R384 to R417). -/

namespace Sys2Proof.Machine

/-- Drive CLAIM_OUT (R403). -/
def driveClaim (low : Bool) (s : State) : State :=
  if s.pair.claimOutLow == low then s else emit { s with pair.claimOutLow := low } (.pin "CLAIM_OUT" (!low))

/-- The member is to take the claim: it is the holder of a pair and does not hold it yet, or it takes over (R386, R403, R406). -/
def wantsClaim (s : State) : Bool := (isHolder s && s.pair.yielding.isNone && s.pair.lapsing.isNone) || (isStandby s && s.pair.claimWait.isSome)

/-- The keeper enters ASSERTING if every condition of R403 holds. -/
def tryAssert (s : State) : State :=
  if s.pair.keeper == .released && wantsClaim s && s.pair.claimIn && decide (s.pair.claimInSince + ticksUs 2 ≤ s.now) && s.pair.holdN && decide (s.pair.backoffUntil ≤ s.now) then
    driveClaim true { s with pair.keeper := .asserting, pair.assertStart := s.now }
  else s

/-- CLAIM_IN is high (R403). -/
def claimHigh (s : State) : State := tryAssert (if s.pair.claimIn then s else { s with pair.claimIn := true, pair.claimInSince := s.now })

/-- CLAIM_IN goes low: an assertion in progress is withdrawn, with an unequal backoff (R403). -/
def claimLow (s : State) : State :=
  let s := { s with pair.claimIn := false }
  if s.pair.keeper == .asserting then
    driveClaim false { s with pair.keeper := .released, pair.backoffUntil := s.now + ticksUs (if s.pair.member then 10 else 4) }
  else s

/-- The first group that a new holder sends on a copy (R407, R414): after the last group reported, the oldest it holds where there is no report, the IDR's of a keyed swap. -/
def namedGroup (s : State) (w : Nat) (b : Bool) (x : FlowOut) (keyed : Bool) : Option Group :=
  let c := copyAt x b
  let all := c.kept ++ c.held ++ c.groups
  match (if keyed && decide (x.cfg.kind ≤ 2) then s.pair.keyedPics.get? x.cfg.srcIndex else none) with
  | some n => all.find? (fun g => decide (n ≤ g.picture))
  | none => match s.pair.groupEnds.get? (2 * w + b.toNat) with
    | some n => all.find? (fun g => decide (n < g.serial))
    | none => all.head?

/-- One copy's gate opens (R407): groups before the named one are discarded and counted, the named one is sent at once, later ones at their release instants. -/
def openCopy (keyed : Bool) (w : Nat) (b : Bool) (s : State) : State :=
  match flowOutAt s w with
  | none => s
  | some x =>
    let c := copyAt x b
    let all := c.kept ++ c.held ++ c.groups
    let keep := match namedGroup s w b x keyed with
      | none => all.filter (fun g => (s.pair.groupEnds.get? (2 * w + b.toNat)).elim true (fun n => decide (n < g.serial)))
      | some g => (all.filter (fun y => decide (g.serial ≤ y.serial))).map (fun y => if y.serial = g.serial ∨ y.release ≤ localQ s then { y with released := true } else y)
    let gone := (c.held.filter (fun g => !(keep.any (fun y => y.serial == g.serial)))).length
    modFlowOut (modCopy w b (fun c => { c with groups := keep, held := [], kept := [] }) s) w (fun x => { x with claimHeld := (x.claimHeld + gone) % 2 ^ 32 })

/-- The gates open (R407, R387). -/
def openGates (keyed : Bool) (s : State) : State :=
  settleAllSlices (reapFlows (s.net.flowsOut.foldl (fun s e => (copiesOf e.2.cfg).foldl (fun s b => openCopy keyed e.1 b s) s) s))

/-- Takeover (R402, R406, R407, R409): the standby becomes the holder. After a yield the pair stays SYNCED or MIXED with the roles exchanged. -/
def takeOver (s : State) : State :=
  let yielded := s.pair.partnerYield.isSome && !s.pair.lost
  let keyed := s.pair.partnerYield.elim false (fun y => y.keyed)
  let s := openGates keyed (adoptMirrors { s with chans := s.chans.mapVals (fun _ (x : Chan) => if x.run.byHolder = some none then { x with run.byHolder := none } else x) })
  let s := { s with pair.claim := BitVec.ofNat 32 (nextClaim s), pair.takeovers := inc32 s.pair.takeovers, pair.lastTakeoverTide := s.time.tide, pair.claimWait := none, pair.partnerYield := none,
                    pair.inputs := [], pair.keyedAt := none, pair.keyedLeft := [], pair.keyedPics := [], pair.groupEnds := [] }
  let s := setPairRole .holder s
  raisePair (if yielded then s else degrade s)

/-- The window of ASSERTING passes with CLAIM_IN high: HOLDING (R403). The formation's holder keeps its claim number. -/
def windowEnd (s : State) : State :=
  if s.pair.keeper == .asserting && decide (s.pair.assertStart + ticksUs 2 ≤ s.now) && s.pair.claimIn then
    let s := { s with pair.keeper := .holding, pair.lastRefresh := s.now, pair.txIdle := false }
    if isStandby s then takeOver s else if isHolder s then openGates false s else s
  else s

/-- The claim wait passes with CLAIM_IN low: the partner keeps the claim (R406). -/
def claimWaitOver (s : State) : State :=
  match s.pair.claimWait with
  | some t => if decide (t + ticksUs 40 ≤ s.now) && !s.pair.claimIn && s.pair.keeper == .released then degrade { s with pair.claimWait := none, pair.partnerYield := none } else s
  | none => s

/-- The health monitor refreshes the keeper (R404) while CLK_FAB, the slice emitter, the egress schedulers and a health thread run. -/
def keeperRefresh (s : State) : State :=
  if s.pair.noRefresh || clockLost s .fab || clockLost s .ctl || coresUp s = 0 || s.pair.lapsing.isSome then s else { s with pair.lastRefresh := s.now }

/-- No refresh for 24 µs: every claim gate closes (R404 step 1). -/
def keeperLapse (s : State) : State :=
  if s.pair.keeper == .holding && s.pair.lapsing.isNone && decide (s.pair.lastRefresh + ticksUs 24 ≤ s.now) then { s with pair.lapsing := some s.now } else s

/-- A group that the gate has passed is not finished (R405 step 3). -/
def passedPending (s : State) : Bool := s.net.flowsOut.any (fun e => (e.2.copyA.groups ++ e.2.copyB.groups).any (fun g => g.passed))

/-- A member gives up the holder's role. -/
def leaveHolder (role : PairRole) (s : State) : State := handOverMirrors (setPairRole role { s with pair.keeper := .released, pair.yielding := none, pair.lapsing := none })

/-- The keeper releases CLAIM_OUT: after a lapse once the frames in progress have ended or 8 µs have passed, with every transmitter idle (R404); after a yield once its groups have ended (R405). -/
def keeperRelease (s : State) : State :=
  match s.pair.lapsing with
  | some t =>
    if s.net.ports.any (fun e => e.2.sending.isSome && decide (s.now < e.2.busyUntil)) && decide (s.now < t + ticksUs 8) then s
    else
      let s := { s with pair.txIdle := true, net.ports := s.net.ports.mapVals (fun _ (p : PortSt) => { p with sending := none }) }
      let s := driveClaim false (degrade (leaveHolder .none s))
      match injectionOf s 9 0 with
      | some (_, _, serial) => injectionDone serial s.journal.nextSeq (journalAdd { s with pair.noRefresh := false } 11 1 deviceFn 0 0 9)
      | none => s
  | none => match s.pair.yielding with
    | none => s
    | some _ =>
      if passedPending s then s
      else
        -- only a partner in lockstep takes over (Table 15.1)
        let takes := s.pair.st == .synced || (s.pair.st == .mixed && s.pair.yielding.elim false (fun y => y.keyed))
        driveClaim false (leaveHolder (if takes then .standby else .none) { s with pair.keyedAt := none, pair.keyedLeft := [], pair.keyedPics := [] })

/-- HOLD_N goes low: a holder yields, even if its partner cannot take over (R405). -/
def holdLow (s : State) : State := pairYield 1 false 0 { s with pair.holdN := false }

/-- HEARTBEAT payload (Table 15.4a). -/
def heartbeatBytes (s : State) : List Byte :=
  let flags := s.pair.yielding.isSome.toNat + 2 * (s.upd.session == .trial).toNat + 4 * (decide (5 ≤ s.power.step)).toNat + 8 * (!s.pair.holdN).toNat
  le 4 s.pair.claim.toNat ++ le 8 s.time.tide ++ le 1 (pairStateCode s.pair.st) ++ le 1 (pairRoleCode s.pair.role) ++ le 1 (keeperCode s.pair.keeper) ++ le 1 flags
    ++ le 4 (runningGen s).toNat ++ le 1 s.power.step ++ zeros 3 ++ le 8 (s.pair.ownRecords.head?.elim 0 (fun r => r.tide.toNat))

/-- A member sends a HEARTBEAT every 8 µs (R396); an injection suppresses them for its span and completes at its end (R440 KIND 8). -/
def heartbeatSend (s : State) : State :=
  if !(pairOn s) || decide (s.now < s.pair.lastHbSent + ticksUs 8) then s
  else
    let s := { s with pair.lastHbSent := s.now }
    if s.now < s.pair.hbSuppressUntil then s
    else
      let s := match injectionOf s 8 0 with
        | some (_, _, serial) => injectionDone serial s.journal.nextSeq (journalAdd s 11 1 deviceFn 0 0 8)
        | none => s
      cwSend 1 (heartbeatBytes s) s

/-- The claim net contradicts the partner's heartbeats (R406). -/
def lineCheck (h : HbPayload) (s : State) : State :=
  if h.keeper == .holding && s.pair.claimIn && !s.pair.lineFault then pairFault 3 { s with pair.lineFault := true, pair.claimWait := none } else s

/-- What a member learns of the pair's state from its partner (R386, R400, R412, R414). -/
def followPartner (h : HbPayload) (s : State) : State :=
  let locked := s.pair.st == .synced || s.pair.st == .mixed
  if s.pair.st == .forming then formPair h s
  else if isStandby s then
    let s := if h.role == .holder && h.keeper == .holding then (pairWaiters s 0x0903).foldl (fun s c => finishCmd c.serial 0 h.claim.toNat 0 s) s else s
    if h.role == .holder && h.state == .resyncing && s.pair.st != .resyncing then beginJoining h.claim.toNat s
    else if s.pair.st == .resyncing && h.role == .holder && (h.state == .synced || h.state == .mixed) then setPairState h.state { s with pair.joinPending := [] }
    else if s.pair.st == .resyncing && h.state == .degraded then degrade s
    else if locked && h.state == .diverged then diverge s
    else if locked && h.state == .degraded then degrade { s with pair.claimWait := none }
    else s
  else if isHolder s then
    if locked && h.state == .diverged then diverge s
    else if locked && h.state == .degraded then degrade s
    else s
  else if h.role == .holder && s.pair.keeper == .released then degrade (setPairRole .standby s)
  else s

/-- A frame that carries this claim number is discarded: its reserve is nonzero (R402), or it comes from a former holder, and is counted as stale (R394). While the pair forms, no claim number is known of it yet. -/
def claimDiscarded (claim : Nat) (s : State) : Option State :=
  if claim % 128 ≠ 0 then some s
  else if s.pair.st != .forming && newerClaim s.pair.claim.toNat claim then some { s with net.cw.staleFrames := inc32 s.net.cw.staleFrames }
  else none

/-- HEARTBEAT (R394, R396, R402, R406): the partner is heard. -/
def takeHeartbeat (h : HbPayload) (s : State) : State :=
  if !(cwLive s) then s
  else match claimDiscarded h.claim.toNat s with
  | some s => s
  | none => followPartner h (lineCheck h (learnClaim h.claim.toNat { s with pair.partner := some h, pair.lastHb := s.now, pair.misses := 0, pair.lost := false }))

/-- A heartbeat is missed 9 µs after the last, or 8 µs after one already counted; the third loses the partner (R396). -/
def heartbeatMiss (s : State) : State :=
  if !(pairOn s) || s.pair.lost || s.pair.partner.isNone || decide (s.now < s.pair.lastHb + ticksUs (9 + 8 * s.pair.misses)) then s
  else
    let s := { s with pair.misses := s.pair.misses + 1, pair.hbMissed := inc32 s.pair.hbMissed }
    if 3 ≤ s.pair.misses then partnerLost s else s

/-- The last slice of a channel that has been coded: picture and index. -/
def lastCoded (x : Chan) : Nat × Nat :=
  if 0 < x.run.nextSlice.2 then (x.run.nextSlice.1, x.run.nextSlice.2 - 1)
  else (x.run.nextSlice.1 - 1, (x.run.pics.get? (x.run.nextSlice.1 - 1)).elim 0 (fun q => q.slices - 1))

/-- CRC-32C over a channel's rate-control state (R397, Table 15.4a). -/
def rcCrcOf (s : State) (x : Chan) : Nat :=
  match ctlOf s x, x.coding.rc with
  | some k, some rc => crc32c (rcState k rc (regionRects x.coding) x.run.nextPic x.run.v x.run.u)
  | _, _ => crc32c []

/-- The member's TIDE_RECORD of an ending Tide (R397). -/
def tideRecordOf (tide : Nat) (s : State) : TideRec :=
  { tide := BitVec.ofNat 64 tide, claim := s.pair.claim, shedStep := s.power.step,
    channels := (s.chans.filter (fun e => coding e.2)).map (fun e => { channel := e.1, lastSlice := (lastCoded e.2).2, rcCrc := BitVec.ofNat 32 (rcCrcOf s e.2), picture := (lastCoded e.2).1 }),
    outputs := s.outs.map (fun e => { output := e.1, serial := e.2.applied, picture := e.2.outPicture, stale := e.2.stale }),
    tags := s.pair.tags.map (fun e => { function := e.1 / 256, flow := e.1 % 256, tag := e.2.started }) }

/-- Its frames: 29 tag entries fit into the part that holds the channels and outputs, 253 into each further part (Table 15.4a). -/
def sendTideRecord (r : TideRec) (s : State) : State :=
  let parts := 1 + ceilDiv (r.tags.length - 29) 253
  (List.range parts).foldl (fun s i =>
    let ch := if i = 0 then r.channels else []
    let ou := if i = 0 then r.outputs else []
    let tg := if i = 0 then r.tags.take 29 else (r.tags.drop (29 + 253 * (i - 1))).take 253
    cwSend 2 (le 8 r.tide.toNat ++ le 4 r.claim.toNat ++ le 1 r.shedStep ++ le 1 i ++ le 1 parts ++ zeros 1 ++ le 2 ch.length ++ le 2 ou.length ++ le 2 tg.length ++ zeros 2
      ++ ch.flatMap (fun e => le 1 e.channel ++ zeros 1 ++ le 2 e.lastSlice ++ le 4 e.rcCrc.toNat ++ le 8 e.picture)
      ++ ou.flatMap (fun e => le 1 e.output ++ zeros 3 ++ le 4 e.serial ++ le 8 e.picture ++ le 8 e.stale.toNat)
      ++ tg.flatMap (fun e => le 1 e.function ++ le 1 e.flow ++ zeros 2 ++ le 4 e.tag.toNat)) s) s

/-- One Tide's records compared (R397): only Tides that lay wholly in lockstep, and not of a MIXED pair, whose members code differently (R415). -/
def compareRecord (own other : TideRec) (s : State) : State :=
  let s := { s with pair.reconciled := s.pair.reconciled + 1 }
  if s.pair.st == .synced && decide (s.pair.syncTide < own.tide.toNat) && own != other then diverge s else s

/-- TIDE_RECORD (R394, R397): compared with the member's own of the same Tide; a joiner takes the holder's TAGs from it. -/
def takeTideRecord (r : TideRec) (s : State) : State :=
  if !(cwLive s) then s
  else match claimDiscarded r.claim.toNat s with
  | some s => s
  | none =>
    let s := learnClaim r.claim.toNat { s with pair.lastPartnerTide := some r.tide.toNat, pair.lateRun := 0 }
    let s := if isStandby s && (!(inLockstep s) || decide (r.tide.toNat ≤ s.pair.syncTide)) then
        { s with pair.tags := r.tags.foldl (fun (m : FMap TagSt) e =>
            let k := 256 * e.function + e.flow
            m.set k { m.getD k {} with started := e.tag }) s.pair.tags }
      else s
    match s.pair.ownRecords.find? (fun o => o.tide == r.tide) with
    | some o => compareRecord o r s
    | none => { s with pair.partnerRecords := (s.pair.partnerRecords ++ [r]).drop (s.pair.partnerRecords.length - 3) }

/-- Step 3 of a Tide boundary (Table 1.4): the record of the ending Tide is sent and compared, a late one is counted, two in a row degrade the pair (R397). The standby starts its time exchange (R392). A resync begins by itself where AUTO_RESYNC asks for it (R400, R413). -/
def pairTide (ended : Nat) (s : State) : State :=
  if !(pairOn s) || s.pair.st == .forming || s.pair.role == .none then s
  else
    let gone := fun (e : Nat × Nat) => !(if e.1 = 1 then (chanAt s e.2).elim false coding else if e.1 = 2 then (outAt s e.2).isSome else (decAt s e.2).isSome)
    let s := settleJoin { s with pair.joinPending := s.pair.joinPending.filter (fun e => !(gone e)) }
    let r := tideRecordOf ended s
    let due := s.pair.ownRecords.any (fun o => o.tide.toNat + 1 == ended)
    let late := due && inLockstep s && !s.pair.lost && !(s.pair.lastPartnerTide.elim false (fun t => decide (ended ≤ t + 1)))
    let s := sendTideRecord r { s with pair.ownRecords := (r :: s.pair.ownRecords).take 4 }
    let s := match s.pair.partnerRecords.find? (fun o => o.tide == r.tide) with
      | some o => compareRecord r o { s with pair.partnerRecords := s.pair.partnerRecords.filter (fun o => o.tide != r.tide) }
      | none => s
    let s := if late then { s with pair.reconLate := inc32 s.pair.reconLate, pair.lateRun := s.pair.lateRun + 1 } else s
    let s := if late && decide (2 ≤ s.pair.lateRun) then degrade (pairFault 4 s) else s
    let s := if isStandby s then
        let x := (s.pair.exchange + 1) % 256
        cwSend 0x0C (le 1 0 ++ le 1 x ++ zeros 2 ++ stampBytes s.time.local') { s with pair.exchange := x, pair.exchangeT1 := some s.time.local' }
      else s
    let auto := s.pair.cfg.elim false (fun c => c.autoResync) && !s.pair.compat && isHolder s && (s.pair.st == .diverged || s.pair.st == .degraded) && !s.pair.lost
        && s.pair.partner.elim false (fun h => h.role == .standby)
    if auto then beginJoin false 0 s else s

/-- The Tide number at a boundary (R23): a member that has stepped its clock at a join adopts the holder's, and journals both: its own in TIDE, the adopted one in DETAIL. -/
def nextTide (s : State) : State :=
  let n := if s.time.tideStarted then s.time.tide + 1 else 0
  if s.pair.adoptTide then
    let h := s.pair.partner.elim n (fun h => h.tide.toNat + 1)
    { journalAdd { s with time.tide := n } 0 0 deviceFn 0 0 h with time.tide := h, time.tideStarted := true, pair.adoptTide := false, pair.syncTide := h }
  else { s with time.tide := n, time.tideStarted := true }

/-- SLICE_CHECK (R399 to R401). -/
def takeCheck (e : SliceCheckEntry) (s : State) : State :=
  if !(cwLive s) || s.pair.st != .synced then s else compareChecks { s with pair.partnerChecks := s.pair.partnerChecks ++ [e] }

/-- The source picture of a channel whose reference instant is nearest to t. -/
def nearestPic (s : State) (c : ChanCfg) (t : Instant) : Nat :=
  let l := (srcPics s (c.srcKind == 1) c.srcIndex).map (fun p => (p.number, ((chanTref c p : Int) - (t : Int)).natAbs))
  (l.foldl (fun (a : Nat × Nat) e => if e.2 < a.2 then e else a) (l.headD (0, 0))).1

/-- INPUT (R391): the standby uses the holder's values in place of its own. A joining decoder takes the holder's access-unit serials. -/
def takeInput (e : InputEntry) (s : State) : State :=
  if !(isStandby s) || !(cwLive s) then s
  else match e with
    | .tref c false n t =>
      (match chanAt s c with
        | some x => match x.cfg with
          | some g =>
            let x := if n = 0 ∧ x.run.byHolder = some none then { x with run.byHolder := some (some t) } else x
            let s := setChan s c x
            if g.srcKind ≠ 2 ∧ coding x ∧ x.run.nextPic + (dropEarly x).input.pending.length = n then
              modChan s c (fun x => { x with input := { x.input with pending := x.input.pending ++ [(t, if x.input.status = 0 then some (nearestPic s g t) else none)] } })
            else s
          | none => s
        | none => s)
    | .tref _ true _ _ => s
    | .decStamp d n x _ =>
      let s := { s with pair.inputs := s.pair.inputs ++ [e] }
      if s.pair.joinPending.contains (3, d) then
        modDec s d (fun y => match y.aus with
          | a :: r =>
            let best := r.foldl (fun (b : AuWait) (u : AuWait) => if ((u.first : Int) - (x : Int)).natAbs < ((b.first : Int) - (x : Int)).natAbs then u else b) a
            { y with aus := y.aus.map (fun u => { u with serial := u.serial + n - best.serial }), auSerial := y.auSerial + n - best.serial }
          | [] => { y with auSerial := if y.part.elim false (fun f => decide (((f.first : Int) - (x : Int)).natAbs < 1000000 * nsUnit)) then n else n + 1 })
      else s
    | e => { s with pair.inputs := s.pair.inputs ++ [e] }

/-- GROUP_END (R394): the slices and groups that the holder has sent go; a joiner numbers its groups on from there (log 34). -/
def takeGroupEnd (w : Nat) (b : Bool) (serial : Nat) (s : State) : State :=
  if !(isStandby s) || !(cwLive s) then s
  else
    let k := 2 * w + b.toNat
    let s := { s with pair.groupEnds := s.pair.groupEnds.set k (max serial (s.pair.groupEnds.getD k serial)) }
    let later := fun (l : List Group) => l.filter (fun g => decide (serial < g.serial))
    let s := modCopy w b (fun c => { c with groups := later c.groups, held := later c.held, kept := later c.kept }) s
    let s := if s.pair.st = .resyncing then modFlowOut s w (fun x => { x with nextSerial := max x.nextSerial (serial + 1) }) else s
    settleAllSlices (reapFlows s)

/-- Reports of ended groups arrive: the partner is heard and holds the claim or has just yielded it (R394). -/
def reportsArrive (s : State) : Bool := !s.pair.lost && s.pair.partner.elim false (fun h => h.keeper == .holding || s.pair.partnerYield.isSome)

/-- STANDBY_SLICE_FREE (R394): without reports the standby frees each slice at E(n, s) + 200 µs. -/
def standbyFree (c : Nat) (s : State) : State :=
  if !(isStandby s) || reportsArrive s then s
  else match chanAt s c with
    | none => s
    | some x =>
      let gone := x.run.queue.takeWhile (fun q => decide (q.due + nsQ 200000 ≤ localQ s))
      if gone.isEmpty then s
      else
        let s := modChan s c (fun y => { y with run := { y.run with queue := y.run.queue.drop gone.length, emitted := y.run.emitted + gone.length } })
        let s := (gone.flatMap (fun q => q.groups)).foldl (fun s e => [false, true].foldl (fun s b =>
          modCopy e.1 b (fun y => { y with groups := y.groups.filter (fun g => g.serial != e.2), held := y.held.filter (fun g => g.serial != e.2), kept := y.kept.filter (fun g => g.serial != e.2) }) s) s) s
        if gone.any (fun q => q.eob) then chanEnd c (reapFlows s) else reapFlows s

/-- YIELD (R394, R402, R406): a standby that can take over waits for CLAIM_IN. -/
def takeYield (claim reason : Nat) (keyed : Bool) (swapTide : Nat) (s : State) : State :=
  if !(isStandby s) || !(cwLive s) then s
  else match claimDiscarded claim s with
  | some s => s
  | none =>
    let s := { s with pair.partnerYield := some { reason := reason, keyed := keyed, swapTide := swapTide } }
    if s.pair.st == .synced || (s.pair.st == .mixed && keyed) then tryAssert { s with pair.claimWait := some s.now } else s

/-- BULK (R393, R412): surface data, or a channel's rate-control state; a command's block arrives with its COMMAND. A buffer that a joiner has received whole is published. -/
def takeBulk (p : BulkPart) (s : State) : State :=
  if !(isStandby s) || !(cwLive s) then s
  else if p.kind = 0 then
    let s := modSurf s p.object (fun x => if p.buffer < x.buffers then writeBuffer x p.buffer p.offset p.data else x)
    if s.pair.st = .resyncing then
      modSurf s p.object (fun x =>
        if p.offset + p.data.length = p.length ∧ p.length = bufferSize x.format x.width x.height then { x with pubs := [{ buffer := p.buffer, flip := s.time.local', contentNs := 0 }] } else x)
    else s
  else if p.kind = 2 then { s with pair.rcStates := s.pair.rcStates.set p.object ((s.pair.rcStates.getD p.object []).take p.offset ++ p.data) }
  else s

/-- TIME (R392, R395): the holder answers; the standby computes its offset, steps its clock when it joins and steers ADDEND otherwise (the loop's value is free, log 23). -/
def takeTime (t : TimeFrame) (s : State) : State :=
  if !(cwLive s) then s
  else match t with
    | .request x t1 t2 => if isHolder s then cwSend 0x0C (le 1 1 ++ le 1 x ++ zeros 2 ++ stampBytes t1 ++ stampBytes t2 ++ stampBytes s.time.local') s else s
    | .response x t1 t2 t3 t4 =>
      if !(isStandby s) || x != s.pair.exchange || s.pair.exchangeT1.isNone then s
      else
        let ahead := (((t2 : Int) - t1) - ((t4 : Int) - t3)) / 2
        let s := { s with pair.exchangeT1 := none, pair.clockOffsetNs := (-ahead).tdiv (nsUnit : Int) }
        if s.pair.stepPending then setClock (((s.time.local' : Int) + ahead) % (clockModulus : Int)).toNat { s with pair.stepPending := false, pair.adoptTide := true }
        else { spendFree s with time.addend := freeAddend s }

/-- A PAIR_CONFIG that has been accepted and waits for the boundary. -/
def configWaits (s : State) : Bool := s.net.pendCfg.any (fun c => c.opcode == 0x0901)

/-- PAIR_CONFIG (R386, R387): effective at the next Tide boundary. -/
def runPairConfig (ci : CmdIn) (s : State) : CmdRes :=
  if configWaits s || (pairOn s == flag ci.p 2 0) then refuse s stBadState else pendTide ci s
def meanPairConfig : Meaning := { run := runPairConfig }

/-- A pair takes shape or ends at the boundary (R386, R387). -/
def applyPairConfig (serial : Nat) (p : Packet) (s : State) : State :=
  if flag p 2 0 then
    let s := unpaired s
    let s := modCmd serial (fun c => { c with wait := .forming (s.now + ticksMs 1000) }) s
    setPairState .forming { s with pair.cfg := some (pairCfgOf p), pair.nextMirror := 0, pair.nextFromHolder := 0, pair.lastHb := s.now, pair.lastHbSent := 0 }
  else
    let s := failPairCmds s
    let s := (pairWaiters s 0x0901).foldl (fun s c => completeCmd c.serial stBadState 0 0 0 [] true s) s
    let s := if isStandby s then openGates false (unpaired (clearObjects s)) else openGates false (unpaired (runSentAlone s))
    finishCmd serial 0 0 0 s

/-- PAIR_FORM_TIMEOUT (R386): after 1 s in FORMING the command ends without effect (R63). -/
def pairFormTimeout (q : FlowRef) (s : State) : State :=
  match flowCmds s (flowKey q) with
  | c :: _ => match c.wait with
    | .forming t => if s.now < t then s else completeCmd c.serial stTimeout 0 0 0 [] true (openGates false (unpaired s))
    | _ => s
  | [] => s

/-- While member 1 of a compatibility pair holds the claim, HOME_AWAY is set (R413). -/
def homeAway (s : State) : Bool := s.pair.compat && ((isHolder s && s.pair.member) || (isStandby s && !s.pair.member))

/-- The pair record (Table 15.8). -/
def pairRecord (s : State) : List Byte :=
  let x := s.pair
  let flags := ((!x.lost && x.partner.isSome).toNat) + 2 * x.claimIn.toNat + 4 * (!x.holdN).toNat + 8 * x.lineFault.toNat + 16 * (genDiffers s).toNat + 32 * (homeAway s).toNat
  le 1 (pairStateCode x.st) ++ le 1 (pairRoleCode x.role) ++ le 1 x.member.toNat ++ le 1 x.compat.toNat ++ le 4 x.claim.toNat ++ le 4 (x.partner.elim 0 (fun h => h.claim.toNat))
    ++ le 4 x.takeovers ++ le 4 x.divergences ++ le 4 x.repairedLines ++ le 4 x.repairMisses ++ le 4 x.hbMissed ++ le 4 x.reconLate ++ le 4 x.orphanRecords
    ++ leInt 4 x.clockOffsetNs ++ le 4 x.joinPending.length ++ le 4 x.checksCompared ++ le 1 flags ++ zeros 3 ++ le 8 x.lastTakeoverTide

/-- PAIR_STATUS (R416): the record, then one entry for each function and flow with mirrored commands; a VF sees its own. -/
def meanPairStatus : Meaning :=
  { run := fun ci s => .answer s (pairRecord s ++ ((s.pair.tags.filter (fun e => ci.f == 0 || e.1 / 256 == ci.f)).flatMap (fun e =>
      le 1 (e.1 / 256) ++ le 1 (e.1 % 256) ++ zeros 2 ++ le 4 e.2.started.toNat ++ le 4 e.2.done.toNat ++ le 4 e.2.count))) 0 0 }

/-- A swap is keyed if it asks for it, or if it goes toward member 0 in compatibility mode (R413, R414). -/
def swapKeyed (p : Packet) (s : State) : Bool := flag p 2 0 || (s.pair.compat && s.pair.member)

/-- PAIR_SWAP (R414). -/
def runPairSwap (ci : CmdIn) (s : State) : CmdRes :=
  let ok := s.pair.st == .synced || (s.pair.st == .mixed && swapKeyed ci.p s)
  if !(isHolder s) || !ok || s.pair.yielding.isSome || s.net.pendCfg.any (fun c => c.opcode == 0x0903) then refuse s stBadState else pendTide ci s

/-- A keyed swap is made known to both members before its boundary (R414 step 1). -/
def afterPairSwap (ci : CmdIn) (s : State) : State :=
  if swapKeyed ci.p s then
    let s := sendReplay 0 2 (s.time.tide + 1) 0 0 [(0, 0x0903), (2, 1)] s
    { s with pair.keyedAt := some s.time.nextBoundary, pair.keyedLeft := (s.chans.filter (fun e => e.2.st == .running)).map (fun e => e.1), pair.keyedPics := [] }
  else s
def meanPairSwap : Meaning := { run := runPairSwap, after := afterPairSwap }

/-- The swap begins at the boundary: the holder yields. -/
def applyPairSwap (serial : Nat) (p : Packet) (s : State) : State :=
  if isHolder s && (s.pair.st == .synced || (s.pair.st == .mixed && swapKeyed p s)) then
    let keyed := swapKeyed p s
    pairYield 0 keyed (if keyed then s.time.tide else 0) (modCmd serial (fun c => { c with wait := .pair }) s)
  else endCmd serial stPair 0 0 s

/-- PAIR_RESYNC (R412). -/
def resyncOk (s : State) : Bool := isHolder s && (s.pair.st == .diverged || (s.pair.st == .degraded && !s.pair.lost))
def runPairResync (ci : CmdIn) (s : State) : CmdRes := if !(resyncOk s) || s.net.pendCfg.any (fun c => c.opcode == 0x0904) then refuse s stBadState else pendTide ci s
def meanPairResync : Meaning := { run := runPairResync }
def applyPairResync (serial : Nat) (p : Packet) (s : State) : State :=
  if resyncOk s then beginJoin (flag p 2 0) (word p 3) (modCmd serial (fun c => { c with wait := .pair }) s) else completeCmd serial stBadState 0 0 0 [] true s

/-- PAIR_MODE (R413). -/
def runPairMode (ci : CmdIn) (s : State) : CmdRes :=
  if s.pair.st != .unpaired || configWaits s then refuse s stBadState else okDone { s with pair.compat := flag ci.p 2 0 } 0
def meanPairMode : Meaning := { run := runPairMode }

/-- PAIR_CONFIG (R386). -/
def execPairConfig (q : FlowRef) (b : Bus) (s : State) : Host.Outcome State Fault Refusal := .next (startRow 0x0901 meanPairConfig q b s)
/-- PAIR_FORM_TIMEOUT (R386). -/
def execPairFormTimeout (dt : Nat) (q : FlowRef) (s : State) : Host.Outcome State Fault Refusal := .next (actAfter dt s (pairFormTimeout q))
/-- PAIR_STATUS (R416). -/
def execPairStatus (q : FlowRef) (b : Bus) (s : State) : Host.Outcome State Fault Refusal := .next (startRow 0x0902 meanPairStatus q b s)
/-- PAIR_SWAP (R414). -/
def execPairSwap (q : FlowRef) (b : Bus) (s : State) : Host.Outcome State Fault Refusal := .next (startRow 0x0903 meanPairSwap q b s)
/-- PAIR_RESYNC (R412). -/
def execPairResync (q : FlowRef) (b : Bus) (s : State) : Host.Outcome State Fault Refusal := .next (startRow 0x0904 meanPairResync q b s)
/-- PAIR_MODE (R413). -/
def execPairMode (q : FlowRef) (b : Bus) (s : State) : Host.Outcome State Fault Refusal := .next (startRow 0x0905 meanPairMode q b s)
/-- HEARTBEAT_SEND (R396). -/
def execHeartbeatSend (dt : Nat) (s : State) : Host.Outcome State Fault Refusal := .next (actAfter dt s heartbeatSend)
/-- HEARTBEAT (R396). -/
def execHeartbeat (dt : Nat) (h : HbPayload) (s : State) : Host.Outcome State Fault Refusal := .next (actAfter dt s (takeHeartbeat h))
/-- HEARTBEAT_MISS (R396). -/
def execHeartbeatMiss (dt : Nat) (s : State) : Host.Outcome State Fault Refusal := .next (actAfter dt s heartbeatMiss)
/-- TIDE_RECORD (R397). -/
def execTideRecord (r : TideRec) (s : State) : Host.Outcome State Fault Refusal := .next (act s (takeTideRecord r))
/-- SLICE_CHECK (R399). -/
def execSliceCheck (e : SliceCheckEntry) (s : State) : Host.Outcome State Fault Refusal := .next (act s (takeCheck e))
/-- INPUT (R391). -/
def execInput (e : InputEntry) (s : State) : Host.Outcome State Fault Refusal := .next (act s (takeInput e))
/-- GROUP_END (R394). -/
def execGroupEnd (flow : Fin 2048) (copyB : Bool) (serial : Nat) (s : State) : Host.Outcome State Fault Refusal := .next (act s (takeGroupEnd flow.val copyB serial))
/-- YIELD (R406). -/
def execYield (dt : Nat) (claim : Word) (reason : Nat) (keyed : Bool) (swapTide : Nat) (s : State) : Host.Outcome State Fault Refusal :=
  .next (actAfter dt s (takeYield claim.toNat reason keyed swapTide))
/-- BULK (R412). -/
def execBulk (p : BulkPart) (s : State) : Host.Outcome State Fault Refusal := .next (act s (takeBulk p))
/-- TIME (R392). -/
def execTime (t : TimeFrame) (s : State) : Host.Outcome State Fault Refusal := .next (act s (takeTime t))
/-- CLAIM_IN_HIGH (R403). -/
def execClaimInHigh (dt : Nat) (s : State) : Host.Outcome State Fault Refusal := .next (actAfter dt s claimHigh)
/-- ASSERTING_WINDOW_END (R403). -/
def execAssertingWindowEnd (dt : Nat) (s : State) : Host.Outcome State Fault Refusal := .next (actAfter dt s windowEnd)
/-- CLAIM_IN_LOW (R403). -/
def execClaimInLow (dt : Nat) (s : State) : Host.Outcome State Fault Refusal := .next (actAfter dt s claimLow)
/-- BACKOFF_EXPIRY (R403). -/
def execBackoffExpiry (dt : Nat) (s : State) : Host.Outcome State Fault Refusal := .next (actAfter dt s tryAssert)
/-- KEEPER_REFRESH (R404). -/
def execKeeperRefresh (dt : Nat) (s : State) : Host.Outcome State Fault Refusal := .next (actAfter dt s keeperRefresh)
/-- KEEPER_LAPSE (R404). -/
def execKeeperLapse (dt : Nat) (s : State) : Host.Outcome State Fault Refusal := .next (actAfter dt s keeperLapse)
/-- KEEPER_RELEASE (R404). -/
def execKeeperRelease (dt : Nat) (s : State) : Host.Outcome State Fault Refusal := .next (actAfter dt s keeperRelease)
/-- CLAIM_WAIT_EXPIRY (R406). -/
def execClaimWaitExpiry (dt : Nat) (s : State) : Host.Outcome State Fault Refusal := .next (actAfter dt s claimWaitOver)
/-- HOLD_N_LOW (R405). -/
def execHoldNLow (s : State) : Host.Outcome State Fault Refusal := .next (act s holdLow)
/-- HOLD_N_HIGH (R403). -/
def execHoldNHigh (s : State) : Host.Outcome State Fault Refusal := .next (act s (fun s => tryAssert { s with pair.holdN := true }))
/-- STANDBY_SLICE_FREE (R394). -/
def execStandbySliceFree (dt : Nat) (c : Fin 64) (s : State) : Host.Outcome State Fault Refusal := .next (actAfter dt s (standbyFree c.val))

end Sys2Proof.Machine
end

