-- ==== Sys2Proof/Machine/Query.lean ====
section
/-! DEFINITION. The queries that describe the device: DEV_QUERY and CAPACITY_QUERY (R61, R62, Tables 2.16 and 2.17). -/

namespace Sys2Proof.Machine

/-- FW_VERSION and CODING_GEN of the running image (Table 17.2). -/
def runningImage (s : State) : Word × Word := s.upd.running.getD (Config.fwVersion, Config.codingGen)

/-- The 128-byte answer of DEV_QUERY for function f (Table 2.16). -/
def devAnswer (f : Nat) (s : State) : List Byte :=
  let m := s.mem
  let u := s.units
  le 4 (vendorId * 65536 + deviceId) ++ le 4 0xB1 ++ le 4 (runningImage s).1.toNat ++ le 4 (runningImage s).2.toNat ++ le 1 f ++ le 1 s.pair.member.toNat ++ le 1 (periodCode s.time.period) ++ zeros 1
    ++ le 8 Config.serial.toNat ++ le 2 (sqQuota s f) ++ le 2 (cqQuota s f)
    ++ le 1 (islesInCount s) ++ le 1 (entropyInCount s) ++ le 1 (countIn (compIn s) 4) ++ le 1 (countIn (decEngineIn s) 4) ++ le 1 (coresUp s)
    ++ le 1 m.qportIn.toNat ++ le 1 m.density288.toNat ++ zeros 1 ++ le 8 m.pcOut.toNat ++ le 4 (qdrMbit s) ++ le 4 (hbmMib s)
    ++ le 2 64 ++ le 2 32 ++ le 2 32 ++ le 2 4096 ++ le 2 1024 ++ le 2 2048 ++ le 1 16 ++ le 1 96 ++ zeros 2
    ++ le 8 u.isleOut.toNat ++ le 2 u.entropyOut.toNat ++ le 1 (u.compOut.toNat + u.decOut.toNat * 16) ++ zeros 45

/-- DEV_QUERY (R61). -/
def meanDevQuery : Meaning := { run := fun ci s => .answer s (devAnswer ci.f s) 0 0 }

/-- A load in units per ns as whole millions per second, rounded up or down (R62). -/
def upMega (r : Rat) : Nat := ceilRat (r * 1000)
def downMega (r : Rat) : Nat := (Rat.floor (r * 1000)).toNat

/-- The 128-byte answer of CAPACITY_QUERY (Table 2.17): exact loads, rounded as R62 says. -/
def capacityAnswer (s : State) : List Byte :=
  let ls := poolWith s none none
  let l := loadL s ls
  (List.range 8).flatMap (fun a => le 1 (freeIsles s 64 a).length)
    ++ le 2 (sumBy (fun x => x.nIsle) ls) ++ le 2 (islesInCount s)
    ++ le 4 (upMega (sumRat (fun x => 16 / 10 * x.r) ls)) ++ le 4 (3200 * entropyInCount s) ++ le 4 (upMega (sumRat (fun x => x.q) ls)) ++ le 4 (ceilRat l)
    ++ le 4 (ceilRat (sumRat (lagoonBits l) ls)) ++ le 4 (regionBits s 3) ++ le 4 (sumBy sliceqBits ls) ++ le 4 (regionBits s 4)
    ++ le 4 (upMega (sumRat hbmLoad ls + otherHbm s)) ++ le 4 (downMega (hbmCeiling s)) ++ le 4 (upMega (sumRat qdrLoad ls + otherQdr s)) ++ le 4 (downMega (qdrCeiling s))
    ++ (List.range 4).flatMap (fun c => le 4 (upMega (compositorLoad s c)))
    ++ (List.range 4).flatMap (fun e => le 4 (upMega (sumRat (fun x => decLoad x.2) (onEngine s e))))
    ++ le 1 ls.length ++ le 1 s.outs.length ++ le 1 s.decs.length ++ zeros 33

/-- CAPACITY_QUERY (R62). -/
def meanCapacityQuery : Meaning := { run := fun _ s => .answer s (capacityAnswer s) 0 0 }

/-- DEV_QUERY (R61). -/
def execDevQuery (q : FlowRef) (b : Bus) (s : State) : Host.Outcome State Fault Refusal := .next (startRow 0x0101 meanDevQuery q b s)
/-- CAPACITY_QUERY (R62). -/
def execCapacityQuery (q : FlowRef) (b : Bus) (s : State) : Host.Outcome State Fault Refusal := .next (startRow 0x0107 meanCapacityQuery q b s)

end Sys2Proof.Machine
end

