-- ==== Sys2Proof/Machine/Restart.lean ====
section
/-! DEFINITION. Device-wide resets: activation and trial, warm, cold and host reset, boot, memory training and layout, loss of power (R235, R236, R457 to R459, R472 to R477, R502). -/

namespace Sys2Proof.Machine

/-- WARM_CAUSE (Table 19.5). -/
def warmCode : WarmCause → Nat
  | .glbReset => 1 | .activate => 2 | .trialExpiry => 3

/-- Every driven pin returns to the level its resistor gives (R476, R477): no claim, no alert, no pulse. -/
def releasePins (s : State) : State :=
  let s := driveClaim false { s with pair.keeper := .released }
  let s := s.time.pulses.foldl (fun s e => drivePulse e.1 e.2.activeLow s) s
  if s.power.alertLow then emit { s with power.alertLow := false } (.pin "ALERT_N" true) else s

/-- Every coding channel stops as an abort (R100): a slice in transmission finishes, its end-of-bitstream NAL unit follows. -/
def endChannels (s : State) : State :=
  s.chans.foldl (fun s e => if (chanAt s e.1).elim false (fun x => coding x && !x.run.aborting) then chanAbort e.1 s else s) s

/-- The streams that stopped for a warm reset have ended: none codes any more; a pair's partner carries them on, and without their clocks no frame leaves (R457, Table 16.2). -/
def streamsEnded (s : State) : Bool := pairOn s || !flowClocks s || clockLost s .time || s.chans.all (fun e => !coding e.2)

/-- Every uncompleted command ends with this outcome; a fence wait reports its fence (Table 2.11). -/
def endCommands (outcome : Nat) (s : State) : State :=
  (allCmds s).foldl (fun s e => let r := (match e.2.wait with | .fence n o _ _ => fenceResults s o.val n | _ => (0, 0)); endCmd e.2.serial outcome r.1 r.2 s) s

/-- A warm reset starts (R473): steps 3 to 6 of R457. It is journaled as an event of class 0 whose DETAIL is WARM_CAUSE. -/
def warmBegin (cause : WarmCause) (s : State) : State :=
  let s := pairYield 4 false 0 s
  let s := endChannels (endCommands stReset s)
  let s := journalWrite (journalAdd s 0 0 deviceFn 0 0 (warmCode cause))
  releasePins { s with power.warmPending := some cause, power.ready := false, upd.txn := none }

/-- UPD_ACTIVATE is refused (R457): a holder without a SYNCED partner, or objects at work on an unpaired device. -/
def activateRefused (s : State) : Bool :=
  (isHolder s && s.pair.st != .synced) || (!pairOn s && (!allIdle s || !s.outs.isEmpty))

/-- UPD_ACTIVATE (R457): its RECORD goes out before the device stops. -/
def runUpdActivate (ci : CmdIn) (s : State) : CmdRes :=
  let t := if fld ci.p 2 11 0 = 0 then paramNat s keyTrial 120 else fld ci.p 2 11 0
  if t < 30 ∨ 3600 < t then refuse s stBadParam
  else if s.upd.session ≠ .verified ∨ (activateRefused s && !(flag ci.p 2 16)) then refuse s stBadState
  else
    let s := { writeBoot (fun b => { b with trial := true, trialSlotB := !b.activeB, attempts := 0, trialS := t }) s with upd.txn := none }
    .done (warmBegin .activate (completeCmd ci.cmd.serial stOk 0 0 0 [] true s)) stOk 0 0 0
def meanUpdActivate : Meaning := { deny := otherClient, run := runUpdActivate }

/-- UPD_ABORT (R456, R462): it ends a session and erases its descriptor, falls back from a trial, or discards the open transaction. -/
def runUpdAbort (ci : CmdIn) (s : State) : CmdRes :=
  if flag ci.p 2 0 then okDone { s with upd.txn := none } 0
  else match s.upd.session with
    | .idle => okDone s 0
    | .trial =>
      if s.upd.fusePending.isSome then refuse s stBadState
      else .done (warmBegin .trialExpiry (completeCmd ci.cmd.serial stOk 0 0 0 [] true (fallBack s))) stOk 0 0 0
    | _ => okDone (modSlot (inactive s) (fun x => { x with descriptor := false, entries := [] }) (endSession stCancelled s)) 0
def meanUpdAbort : Meaning := { deny := otherClient, run := runUpdAbort }

/-- The trial timer expires (R458): the fallback record is written and a warm reset follows. -/
def trialOver (s : State) : State :=
  match s.upd.trialEnd with
  | some t => if s.upd.session = .trial ∧ t ≤ s.now ∧ fwUp s then warmBegin .trialExpiry (fallBack s) else s
  | none => s

/-- GLB_RESET receives v from f (R475). -/
def writeGlbReset (f v : Nat) (s : State) : State :=
  if hostUp s && f == 0 && bitOf v 0 && bitsOf v 31 16 == 0x5752 then warmBegin .glbReset s else s

/-- Stored size of a region, or its default (R236, R464). -/
def storedRegion (s : State) (kind : Nat) : Nat := paramNat s (keyRegion + kind) (Mem.regions {} |>.getD kind 0)

/-- QDR-IV regions that exceed the capacity are taken down in order, each to its minimum (R236): sizes, and the excess left. -/
def reduceRegions : List Nat → FMap Nat → Nat → FMap Nat × Nat
  | [], m, excess => (m, excess)
  | k :: r, m, excess =>
    let cut := min excess (m.getD k 0 - regionMin k)
    reduceRegions r (m.set k (m.getD k 0 - cut)) (excess - cut)

/-- Training and layout of the memories at a cold or warm reset (R235, R236, R246). HBM3E regions that the PCs left do not hold are cut from the free space, then from SURFACE; where SURFACE
does not suffice, nothing more is admitted (DESIGN CHOICE, log 150). -/
def trainMemory (qOk : BitVec 8) (pcOk : BitVec 64) (s : State) : State :=
  let ports := paramNat s keyQdrPorts 0x1FF
  let up := BitVec.ofNat 8 ports &&& qOk
  let s := { s with mem.qportIn := up, mem.qportLaid := up, mem.density288 := bitOf ports 8, mem.pcOut := ~~~pcOk, mem.pcRemoved := ~~~pcOk }
  let sizes := (Mem.regions {}).mapVals (fun k (_ : Nat) => storedRegion s k)
  let total := sumBy (fun k => sizes.getD k 0) (kindsOf 0)
  let (m, excess) := reduceRegions [2, 1, 4, 3] sizes (total - qdrMbit s)
  let excessHbm := sumBy (fun k => m.getD k 0) (kindsOf 8) - hbmMib s
  let surface := m.getD 12 0
  let s := { s with mem.regions := m.set 12 (surface - excessHbm), mem.noFit := decide (0 < excess) || decide (surface < excessHbm) }
  [2, 1, 4, 3].foldl (fun s k => if m.getD k 0 < sizes.getD k 0 then journalAdd s 0 0 deviceFn 6 k (m.getD k 0) else s) s

/-- The record and the slot that the boot loader chooses, and whether it writes the record (R458). -/
def bootChoice (b : BootRecord) : BootRecord × Bool × Bool :=
  if b.trial then
    if b.attempts = 0 then ({ b with attempts := 1 }, b.trialSlotB, true) else ({ b with trial := false, fallback := true }, b.activeB, true)
  else (b, b.activeB, false)

/-- The image of a slot runs; a trial starts its timer (R458). Fuses of a confirmed slot are completed (R459). -/
def runSlot (b : Bool) (s : State) : State :=
  let x := slotOf s b
  let s := if !s.upd.boot.trial && b == s.upd.boot.activeB then blowFuses s else s
  let trial := s.upd.boot.trial && b == s.upd.boot.trialSlotB
  { s with upd.running := if x.factory then none else some (imageVersion x, imageGen x), upd.session := if trial then .trial else .idle,
           upd.trialEnd := if trial then some (s.now + ticksMs (1000 * s.upd.boot.trialS)) else none }

/-- The boot loader selects and checks a slot (R458, R471); with neither valid, or strapped, it stays. -/
def bootLoader (s : State) : State :=
  if s.power.bootSrc0 && !s.power.bootSrc1 then { s with upd.loader := true }
  else
    let (b, slot, writes) := bootChoice s.upd.boot
    let s := if writes then writeBoot (fun _ => b) s else s
    if imageValid s (slotOf s slot) then runSlot slot s
    else
      let s := journalAdd s 13 0 deviceFn 5 slot.toNat 0
      if imageValid s (slotOf s (!slot)) then runSlot (!slot) s else { s with upd.loader := true }

/-- What the boot flash and the fuses hold of the update state (R453, R459, R461). -/
def flashUpd (u : Upd) : Upd :=
  { slotA := u.slotA, slotB := u.slotB, boot := u.boot, secFused := u.secFused, revoked := u.revoked, fusePending := u.fusePending, params := u.stored, stored := u.stored,
    nextTxn := u.nextTxn, txnCommitted := u.txnCommitted, baseSeq := u.baseSeq, journalUsed := u.journalUsed }

/-- What the flash holds of the journal: SEQ goes on after the last entry (R442, R443). -/
def flashJournal (j : Journal) : Journal := { flash := j.flash, nextSeq := (j.flash.getLast?.elim 0 (fun e => e.seq)) + 1 }

/-- The machine without power or in cold reset: the flash alone keeps its contents (R472, R476). -/
def unpowered (s : State) : State :=
  let s := releasePins s
  { pending := s.pending, freeCtr := s.freeCtr, outbox := s.outbox, readData := s.readData, upd := flashUpd s.upd, journal := flashJournal s.journal,
    pair := { claimIn := s.pair.claimIn, holdN := s.pair.holdN }, power := { on := false, ready := false } }

/-- COLD_RESET (R471, R472): everything restarts; straps are sampled, memories trained, firmware booted. -/
def coldBoot (st : Straps) (s : State) : State :=
  let s := unpowered s
  let s := { s with power := { bootSrc0 := st.bootSrc0, bootSrc1 := st.bootSrc1 }, pair := { member := st.pairMember, claimIn := st.claimIn, holdN := st.holdN } }
  bootLoader (trainMemory st.qportTrainOk st.pcTrainOk s)

/-- Counters from cold reset that a warm reset keeps (R472), unit by unit. -/
def keptMem (m : Mem) : Mem :=
  { qdrCe := m.qdrCe, qdrUe := m.qdrUe, qdrReplays := m.qdrReplays, hbmCeHost := m.hbmCeHost, hbmCeDie := m.hbmCeDie, hbmUe := m.hbmUe, parityReplays := m.parityReplays,
    poisonReads := m.poisonReads, poisonLines := m.poisonLines, emergencyRefresh := m.emergencyRefresh, agePromotions := m.agePromotions, calSteps := m.calSteps,
    calDeferred := m.calDeferred, hbmTemp := m.hbmTemp, scrubQdr := { period := 60, passes := m.scrubQdr.passes }, scrubHbm := { period := 3600, passes := m.scrubHbm.passes } }
def keptHarbour (h : Harbour) : Harbour :=
  { dispatches := h.dispatches, recalls := h.recalls, cancelRace := h.cancelRace, lostEvents := h.lostEvents, runLimit := h.runLimit, tevSkipped := h.tevSkipped }
def keptNet (n : Net) : Net :=
  { lanes := n.lanes.mapVals (fun _ (x : LaneSt) => ({ faults := x.faults, slips := x.slips } : LaneSt)),
    ports := n.ports.mapVals (fun _ (x : PortSt) => ({ rxFrames := x.rxFrames, rxBad := x.rxBad, rxDiscard := x.rxDiscard, fecCorr := x.fecCorr, fecUncorr := x.fecUncorr, linkDowns := x.linkDowns, arpDrops := x.arpDrops } : PortSt)),
    cw := { resends := n.cw.resends, staleFrames := n.cw.staleFrames, badFrames := n.cw.badFrames } }
def keptTime (t : TimeUnit) : TimeUnit :=
  { local' := t.local', tide := t.tide, tideStarted := t.tideStarted, lastBoundary := t.lastBoundary,
    ptp := { steps := t.ptp.steps, refusals := t.ptp.refusals, masterChanges := t.ptp.masterChanges, holdoverEntries := t.ptp.holdoverEntries, syncRx := t.ptp.syncRx,
             tcForwarded := t.ptp.tcForwarded, tcDiscards := t.ptp.tcDiscards } }
def keptAudio (a : Audio) : Audio :=
  { ports := a.ports.mapVals (fun _ (x : AudPort) => ({ inserted := x.inserted, dropped := x.dropped, losses := x.losses } : AudPort)), stepFrames := a.stepFrames }
def keptPair (p : Pair) : Pair :=
  { member := p.member, claimIn := p.claimIn, holdN := p.holdN, takeovers := p.takeovers, divergences := p.divergences, repairedLines := p.repairedLines, repairMisses := p.repairMisses,
    hbMissed := p.hbMissed, reconLate := p.reconLate, orphanRecords := p.orphanRecords, checksCompared := p.checksCompared }
def keptPower (cause : WarmCause) (p : Power) : Power :=
  { warmCause := warmCode cause, warmCount := satInc p.warmCount 255, bootSrc0 := p.bootSrc0, bootSrc1 := p.bootSrc1, vid := p.vid,
    coreCond := { present := p.coreCond.present }, bankCond := p.bankCond.mapVals (fun _ (x : CondSt) => ({ present := x.present } : CondSt)), pinCond := { present := p.pinCond.present },
    stepsTaken := p.stepsTaken, stepsUndone := p.stepsUndone, coreEvents := p.coreEvents, pinEvents := p.pinEvents, pairYields := p.pairYields,
    powerW := p.powerW, coreMv := p.coreMv, clocksLost := p.clocksLost.filter (fun d => !(p.clocksBack.contains d)) }
def keptFns (fs : FMap FnState) : FMap FnState := fs.mapVals (fun _ (x : FnState) => ({ surfDrops := x.surfDrops } : FnState))

/-- The warm reset ends (R457, R472, R473, R502), once every stream has reached its end: everything restarts but what Table 18.3 keeps, and dt ticks have passed. -/
def warmBoot (dt : Nat) (qOk : BitVec 8) (pcOk : BitVec 64) (s : State) : State :=
  match s.power.warmPending with
  | none => s
  | some cause =>
    if !streamsEnded s then s
    else
    let s : State :=
      { pending := s.pending, freeCtr := s.freeCtr, outbox := s.outbox, readData := s.readData, fns := keptFns s.fns, irq := { redirects := s.irq.redirects }, harbour := keptHarbour s.harbour,
        journal := { s.journal with stagedAt := s.journal.staged.map (fun _ => 0), rateStart := 0 }, mem := keptMem s.mem, net := keptNet s.net, time := keptTime s.time,
        audio := keptAudio s.audio, pair := keptPair s.pair,
        upd := { flashUpd s.upd with ferryDiscards := s.upd.ferryDiscards, ferryBad := s.upd.ferryBad, ferryRepeats := s.upd.ferryRepeats }, power := keptPower cause s.power }
    let s := if clockLost s .time then s else { s with time.local' := s.time.local' + dt * s.time.addend }
    let s := { s with time.nextBoundary := (s.time.local' / tideSpan s + 1) * tideSpan s }
    bootLoader (trainMemory qOk pcOk s)

/-- One command ends at a host reset (R474): as ST_RESET, with no record, journaled with TAG and PROGRESS. -/
def hostResetCommand (s : State) (e : Nat × Cmd) : State :=
  let c := e.2
  let s := journalAdd s 10 0 c.fn.val 7 (opcodeOf c.packet) ((tagOf c.packet).toNat + progressOf s c % 65536 * 2 ^ 32)
  setFlow s e.1 ((flowCmds s e.1).filter (fun x => x.serial != c.serial))

/-- HOST_RESET (R474, R502): the conversation with the host starts again; no object changes. -/
def hostResetAll (s : State) : State :=
  let s := ((allCmds s).filter (fun e => e.2.ferry.isNone && !e.2.mirrored)).foldl hostResetCommand s
  let s := (List.range 32).foldl (fun s f => irqResetFn f s) s
  let s := { s with irq.srcs := s.irq.srcs.mapVals (fun n (x : Src) => if n < 56 then { x with masked := true, target := 0 } else x), arrivals := [], vfEnable := false,
                    fns := s.fns.mapVals (fun _ (x : FnState) => ({ surfDrops := x.surfDrops, surfProtect := x.surfProtect, busy := x.busy, resetCount := x.resetCount } : FnState)) }
  settleResets s

/-- UPD_ACTIVATE (R457). -/
def execUpdActivate (q : FlowRef) (b : Bus) (s : State) : Host.Outcome State Fault Refusal := .next (startRow 0x0A04 meanUpdActivate q b s)
/-- UPD_ABORT (R456). -/
def execUpdAbort (q : FlowRef) (b : Bus) (s : State) : Host.Outcome State Fault Refusal := .next (startRow 0x0A06 meanUpdAbort q b s)
/-- TRIAL_EXPIRY (R458). -/
def execTrialExpiry (dt : Nat) (s : State) : Host.Outcome State Fault Refusal := .next (actAfter dt s trialOver)
/-- GLB_RESET (R475): f writes v. -/
def execGlbReset (f : Fn) (v : Word) (s : State) : Host.Outcome State Fault Refusal := .next (writeGlbReset f.val v.toNat s)
/-- HOST_RESET (R474). -/
def execHostReset (s : State) : Host.Outcome State Fault Refusal := .next (act s hostResetAll)
/-- COLD_RESET (R472). -/
def execColdReset (st : Straps) (s : State) : Host.Outcome State Fault Refusal := .next (coldBoot st s)
/-- WARM_RESET (R473). -/
def execWarmReset (dt : Nat) (qportTrainOk : BitVec 8) (pcTrainOk : BitVec 64) (s : State) : Host.Outcome State Fault Refusal := .next (warmBoot dt qportTrainOk pcTrainOk s)
/-- POWER_REMOVED (R476). -/
def execPowerRemoved (s : State) : Host.Outcome State Fault Refusal := .next (unpowered s)

end Sys2Proof.Machine
end

