-- ==== Sys2Proof/Machine/Shedding.lean ====
section
/-! DEFINITION. Clock loss, supply monitors, AVS and the shedding of functions (R32, R33, R411, R421, R468, R478 to R489). -/

namespace Sys2Proof.Machine

/-- ALERT_N is low while CLK_CTL is lost, the step is 5 or higher, or the device is in step 8 (R479). -/
def settleAlert (s : State) : State :=
  let low := clockLost s .ctl || decide (5 ≤ s.power.step) || s.power.quiesced
  if low == s.power.alertLow then s else emit { s with power.alertLow := low } (.pin "ALERT_N" (!low))

/-- Number of a domain as interrupt source (Table 10.4), and as DETAIL of its journal entry. -/
def domainIndex : ClockDomain → Nat
  | .isle => 0 | .ent => 1 | .fab => 2 | .hbm => 3 | .qdr => 4 | .pcie => 5 | .time => 6 | .ferry => 7 | .ctl => 8

/-- Every output stops on a hardware loss; the loss of a Lighthouse is reported (R176). -/
def stopOutputs (s : State) : State :=
  let s := if s.outs.any (fun e => e.2.lh.isSome) then { s with irq.lhLost := true } else s
  { s with outs := s.outs.mapVals (fun _ (o : Output) => { o with stopped := true }) }

/-- Every decoder stops (Table 16.2). -/
def stopDecoders (s : State) : State := settleDecoders { s with decs := s.decs.mapVals (fun _ (d : Decoder) => { d with stopped := true }) }

/-- What stops with a domain (Table 16.2). Flows, lanes, the Causeway, the keeper's refresh and host access follow the lost clock themselves. -/
def domainStops (d : ClockDomain) (s : State) : State :=
  let chans := fun (s : State) => s.chans.foldl (fun s e => chanStopFor e.1 3 s) s
  match d with
  | .isle => chans s
  | .ent => chans s
  | .fab => stopDecoders (stopOutputs (chans s))
  | .hbm => stopDecoders (stopOutputs (chans s))
  | .qdr => stopDecoders (stopOutputs (chans s))
  | .time =>
    let s := stopOutputs (chans s)
    settleResets (s.fns.foldl (fun s e => if e.2.busy then resetAtOnce e.1 s else s) s)
  | .ferry => endSession stFault s
  | .pcie => s
  | .ctl => s

/-- CLOCK_LOSS (R31, R32, R418, R421): the Straits of the domain freeze; CLK_CTL is reported on ALERT_N alone. -/
def clockLoss (d : ClockDomain) (edges : Nat) (s : State) : State :=
  if clockLost s d || !(windowLost (100 * edges) (nominalEdges d)) then s
  else
    let s := straitStops d s
    let s := { s with power.clocksLost := s.power.clocksLost ++ [d], power.clocksBack := s.power.clocksBack.filter (fun x => x != d) }
    if d = .ctl then settleAlert s
    else
      let s := journalAdd s 1 8 deviceFn 0 0 (domainIndex d)
      domainStops d (if d = .fab then s else faultYield s)

/-- CLOCK_RETURN (R33, R421): what the domain fed stays stopped until warm reset; its source is no longer asserted. -/
def clockReturn (d : ClockDomain) (s : State) : State :=
  if clockLost s d && !(s.power.clocksBack.contains d) then { s with power.clocksBack := s.power.clocksBack ++ [d] } else s

/-- The lowest code the device requests (R468). -/
def vidMin : Nat := max 10 Config.vidFloor.val

/-- AVS_VID_STEP (R468): one step, at most once per 10 µs. -/
def vidStep (up : Bool) (s : State) : State :=
  let v := if up then s.power.vid + 1 else s.power.vid - 1
  if s.power.vidTick + ticksUs 10 ≤ s.now ∧ vidMin ≤ v ∧ v ≤ 60 then { s with power.vid := v, power.vidTick := s.now } else s

/-- A monitor's condition as it is now (R478). -/
def bankCondAt (s : State) (b : Nat) : CondSt := s.power.bankCond.getD b {}
def crossed (now : Nat) (on : Bool) (x : CondSt) : CondSt := if x.present = on then x else { present := on, since := now }

/-- SUPPLY_MONITOR_CROSSING (R478): a threshold or a pin level is crossed. -/
def supplyCrossing (x : Supply) (s : State) : State :=
  match x with
  | .core b => { s with power.coreCond := crossed s.now b s.power.coreCond }
  | .bank n b => { s with power.bankCond := s.power.bankCond.set n.val (crossed s.now b (bankCondAt s n.val)) }
  | .shedReq l => { s with power.pinCond := crossed s.now l s.power.pinCond }

/-- Causes in force (R478, R486). -/
def causeHold (s : State) : Bool := s.power.policy.holdStep != 0
def causeVddio (s : State) : Bool := s.power.vddio && !s.power.policy.vddioDis
def causePin (s : State) : Bool := s.power.pin && !s.power.policy.pinDis
def anyCause (s : State) : Bool := s.power.core || causeVddio s || causePin s || causeHold s

/-- A condition has held for its time (R478). -/
def heldFor (now us : Nat) (on : Bool) (x : CondSt) : Bool := x.present == on && decide (x.since + ticksUs us ≤ now)

/-- CAUSE_ONSET (R478, R481): the condition has held for its time. A cause is a fault of class 12; DETAIL is 0 CORE, 1 VDDIO, 2 PIN. -/
def causeOnset (c : Cause) (s : State) : State :=
  match c with
  | .core => if !s.power.core && heldFor s.now 20 true s.power.coreCond then
      journalAdd { s with power.core := true, power.coreEvents := inc32 s.power.coreEvents } 12 0 deviceFn 0 0 0 else s
  | .vddio => if !s.power.vddio && [0, 1, 2].any (fun b => heldFor s.now 20 true (bankCondAt s b)) then journalAdd { s with power.vddio := true } 12 0 deviceFn 0 0 1 else s
  | .pin => if !s.power.pin && heldFor s.now 1 true s.power.pinCond then
      journalAdd { s with power.pin := true, power.pinEvents := inc32 s.power.pinEvents } 12 0 deviceFn 0 0 2 else s
  | .hold => s

/-- The tick from which no cause has been present (R482). -/
def settleQuiet (was : Bool) (s : State) : State := if was && !anyCause s then { s with power.quietSince := s.now } else s

/-- CAUSE_END (R478). HOLD ends with the policy that set it. -/
def causeEnd (c : Cause) (s : State) : State :=
  let was := anyCause s
  settleQuiet was (match c with
    | .core => if heldFor s.now 20 false s.power.coreCond then { s with power.core := false } else s
    | .vddio => if [0, 1, 2].all (fun b => heldFor s.now 20 false (bankCondAt s b)) then { s with power.vddio := false } else s
    | .pin => if heldFor s.now 1 false s.power.pinCond then { s with power.pin := false } else s
    | .hold => s)

/-- The highest step that the causes present take (R481). -/
def shedLimit (s : State) : Nat :=
  let p := s.power.policy
  if s.power.core then 8
  else if causeVddio s || causePin s then p.maxStep
  else if causeHold s then min p.holdStep p.maxStep else 0

/-- Objects of a shed class stop (R483): channels as an abort, what waits on their outputs with ST_SHED. -/
def shedObjects (cls : Nat) (s : State) : State :=
  let s := (s.chans.filter (fun e => chanShedClass s e.2 == cls)).foldl (fun s e => chanStopFor e.1 2 s) s
  let outs := (s.outs.filter (fun e => outShedClass e.2 == cls)).map (fun e => e.1)
  ((allCmds s).filter (fun e => match e.2.wait with | .outPicture o _ => outs.contains o | _ => false)).foldl (fun s e => endCmd e.2.serial stShed 0 0 s) s

/-- Step 8, the controlled quiesce (R484). The holder has yielded. -/
def quiesce (s : State) : State :=
  let s := s.chans.foldl (fun s e => chanStopFor e.1 2 s) s
  let s := endCommands stShed s
  let s := journalWrite (journalAdd s 12 0 deviceFn 0 0 8)
  let s := releasePins { s with power.quiesced := true }
  emit { s with power.alertLow := true } (.pin "ALERT_N" false)

/-- A step is in force from now on (Table 18.6): it is counted, PF0 hears of it (R60), and its actions apply. -/
def takeStep (k : Nat) (s : State) : State :=
  let s := { s with power.step := k, power.stepsTaken := inc32 s.power.stepsTaken, power.lastStep := some s.now, power.peakReg := max k s.power.peakReg, power.peakRec := max k s.power.peakRec }
  let s := settleAlert (postEvent 0 7 0 k s)
  if k = 4 then settleDecoders s else if 5 ≤ k ∧ k ≤ 7 then shedObjects (8 - k) s else if k = 8 then quiesce s else s

/-- The highest step is undone (R482). -/
def undoStep (s : State) : State :=
  let k := s.power.step - 1
  let s := { s with power.step := k, power.stepsUndone := inc32 s.power.stepsUndone, power.lastStep := some s.now }
  let s := settleAlert (postEvent 0 7 0 k s)
  if k = 3 then settleDecoders s else s

/-- Take or undo one step. -/
def moveStep (undo : Bool) (k : Nat) (s : State) : State := if undo then undoStep s else takeStep k s

/-- The holder yields for shedding (R411, R485). -/
def shedYield (s : State) : State :=
  if isHolder s && s.pair.yielding.isNone then pairYield 3 false 0 { s with power.pairYields := inc32 s.power.pairYields } else s

/-- The channels of a proposal and the picture from which each takes the change: the one after its next (R120, R411). -/
def shedEntries (s : State) : List (Nat × Nat) := (s.chans.filter (fun e => coding e.2)).map (fun e => (e.1, e.2.run.nextPic + 1))

/-- Bytes of a SHED frame (Table 15.4a). -/
def shedBytes (kind k : Nat) (undo : Bool) (serial : Nat) (es : List (Nat × Nat)) : List Byte :=
  le 1 kind ++ le 1 k ++ le 1 undo.toNat ++ zeros 1 ++ le 4 serial ++ le 2 es.length ++ zeros 2 ++ es.flatMap (fun e => le 1 e.1 ++ zeros 3 ++ le 8 e.2)

/-- A change of step that nobody has to agree to; a standby that codes differently from its holder leaves lockstep (R411). -/
def moveAlone (undo : Bool) (k : Nat) (s : State) : State :=
  moveStep undo k (if isStandby s && inLockstep s then diverge s else s)

/-- A coding step between SYNCED members is proposed; every other one is taken at once (R411, R485). -/
def requestStep (undo : Bool) (k : Nat) (s : State) : State :=
  if 5 ≤ k then (if undo then undoStep s else takeStep k (shedYield s))
  else if pairOn s && s.pair.st == .synced && s.pair.role != .none then
    let n := s.pair.nextShed
    let es := shedEntries s
    cwSend 0x0D (shedBytes 0 k undo n es)
      { s with pair.nextShed := (n + 1) % 2 ^ 32, pair.shedWait := some (k, undo, n, s.time.tide), pair.shedPlan := es, power.pairWait := true }
  else moveAlone undo k s

/-- SHED_STEP_TAKEN (R481): a cause asks for a further step, and STEP_INTERVAL has passed since the last change. -/
def stepTaken (s : State) : State :=
  let due := match s.power.lastStep with | some t => decide (t + ticksUs s.power.policy.interval ≤ s.now) | none => true
  if anyCause s && decide (s.power.step < shedLimit s) && s.pair.shedWait.isNone && due then requestStep false (s.power.step + 1) s else s

/-- SHED_STEP_UNDONE (R482): no cause for RECOVER_MS since the last cause or change. -/
def stepUndone (s : State) : State :=
  let base := max s.power.quietSince (s.power.lastStep.getD 0)
  if !(anyCause s) && decide (0 < s.power.step) && decide (s.power.step < 8) && s.pair.shedWait.isNone && decide (base + ticksMs s.power.policy.recover ≤ s.now) then
    requestStep true s.power.step s
  else s

/-- A proposal is settled. -/
def endProposal (s : State) : State := { s with pair.shedWait := none, pair.shedPlan := [], power.pairWait := false }

/-- A change that both members agree on: coding follows it from the agreed pictures (R120, R485). It still fits the step in force. -/
def agreeStep (undo : Bool) (k : Nat) (es : List (Nat × Nat)) (s : State) : State :=
  if (if undo then s.power.step == k && decide (0 < k) else s.power.step + 1 == k) then
    let live := fun (e : Nat × List (Nat × Nat)) => e.2.any (fun x => (chanAt s x.1).elim false (fun c => coding c && decide (c.run.nextPic < x.2)))
    moveStep undo k { s with power.changes := s.power.changes.filter live ++ [(s.power.step, es)] }
  else s

/-- No agreement (R411): the holder yields and its partner goes on without shedding; the standby leaves lockstep. Each then takes the step alone. -/
def stepAlone (undo : Bool) (k : Nat) (s : State) : State :=
  let s := endProposal s
  moveAlone undo k (if s.pair.st = .synced then shedYield s else s)

/-- SHED (R411): a proposal, or the answer to one. Of two that cross, the holder's stands. -/
def shedRx (f : ShedFrame) (s : State) : State :=
  if !pairOn s then s
  else if f.kind = 0 then
    let late := f.entries.any (fun e => (chanAt s e.1).elim false (fun c => coding c && decide (e.2 < c.run.nextPic)))
    if s.pair.st != .synced || late || (isHolder s && s.pair.shedWait.isSome) then cwSend 0x0D (shedBytes 2 f.step f.undo f.serial []) s
    else
      let s := endProposal s
      cwSend 0x0D (shedBytes 1 f.step f.undo f.serial []) (agreeStep f.undo f.step f.entries s)
  else match s.pair.shedWait with
    | some (k, undo, n, _) =>
      if n ≠ f.serial then s
      else if f.kind = 1 then agreeStep undo k s.pair.shedPlan (endProposal s)
      else stepAlone undo k s
    | none => s

/-- SHED_ACK_TIMEOUT (R411): 2 Tides without an answer. -/
def shedAckTimeout (s : State) : State :=
  match s.pair.shedWait with
  | some (k, undo, _, t) => if t + 2 ≤ s.time.tide then stepAlone undo k s else s
  | none => s

/-- SHED_POLICY (R486, Table 18.7): it completes at the next Tide boundary, where `applyShedPolicy` acts. -/
def shedPolicyOf (p : Packet) : ShedPolicy :=
  let or := fun (n d : Nat) => if n = 0 then d else n
  { maxStep := or (fld p 2 3 0) 8, holdStep := fld p 2 7 4, pinDis := flag p 2 8, vddioDis := flag p 2 9, interval := or (fld p 3 15 0) 100, recover := or (fld p 3 31 16) 10 }
def runShedPolicy (ci : CmdIn) (s : State) : CmdRes :=
  let x := shedPolicyOf ci.p
  if 8 < x.maxStep ∨ 7 < x.holdStep ∨ x.maxStep < x.holdStep ∨ x.interval < 100 ∨ 20000 < x.interval ∨ x.recover < 10 ∨ 10000 < x.recover then refuse s stBadParam else pendTide ci s
def meanShedPolicy : Meaning := { run := runShedPolicy }
def applyShedPolicy (p : Packet) (s : State) : State :=
  let was := anyCause s
  settleQuiet was { s with power.policy := shedPolicyOf p }

/-- SHED_CLASS (R487): it completes at the next Tide boundary, where `applyShedClass` acts. -/
def runShedClass (ci : CmdIn) (s : State) : CmdRes :=
  let i := fld ci.p 2 13 8
  if fld ci.p 3 1 0 = 0 ∨ (if flag ci.p 2 0 then (outAt s i).isNone else (chanAt s i).isNone) then refuse s stBadParam else pendTide ci s
def meanShedClass : Meaning := { run := runShedClass }
def applyShedClass (p : Packet) (s : State) : State :=
  let i := fld p 2 13 8
  let c := fld p 3 1 0
  if flag p 2 0 then modOut s i (fun o => { o with shedClass := c }) else modChan s i (fun x => { x with shedClass := c })

/-- Causes, and banks below their threshold, as bits (Tables 18.8 and 18.9). -/
def causeBits (s : State) : Nat := s.power.core.toNat + 2 * (causeVddio s).toNat + 4 * (causePin s).toNat + 8 * (causeHold s).toNat
def bankBits (s : State) : Nat := sumBy (fun b => if (bankCondAt s b).present then 2 ^ b else 0) [0, 1, 2]

/-- Shedding status record (Table 18.8). -/
def shedRecord (s : State) : List Byte :=
  let p := s.power
  le 1 p.step ++ le 1 p.peakRec ++ le 1 (causeBits s) ++ le 1 (bankBits s) ++ le 2 p.coreMv ++ le 2 (700 + 2 * p.vid) ++ le 4 p.stepsTaken ++ le 4 p.stepsUndone
    ++ le 4 p.coreEvents ++ le 4 p.pinEvents ++ le 2 p.powerW ++ zeros 2 ++ le 4 p.pairYields
def meanShedStatus : Meaning := { run := fun _ s => .answer s (shedRecord s) 0 0 }

/-- SHED_STATE as it reads (Table 18.9). -/
def shedStateValue (s : State) : Nat :=
  s.power.step + 16 * s.power.policy.holdStep + 2 ^ 8 * causeBits s + 2 ^ 16 * bankBits s + 2 ^ 24 * s.power.pairWait.toNat + 2 ^ 25 * s.power.quiesced.toNat + 2 ^ 28 * s.power.peakReg

/-- SHED_STATE_READ (R489): PF0's read clears PEAK; a VF reads zero (R492). -/
def readShedState (f : Nat) (s : State) : State :=
  if f = 0 then answerRead 0 0x090000 (shedStateValue s) { s with power.peakReg := 0 } else answerRead f 0x090000 0 s

/-- CLOCK_LOSS (R32). -/
def execClockLoss (x : ClockWindow) (s : State) : Host.Outcome State Fault Refusal := .next (act s (clockLoss x.domain x.edges))
/-- CLOCK_RETURN (R33). -/
def execClockReturn (d : ClockDomain) (s : State) : Host.Outcome State Fault Refusal := .next (act s (clockReturn d))
/-- AVS_VID_STEP (R468). -/
def execAvsVidStep (dt : Nat) (up : Bool) (s : State) : Host.Outcome State Fault Refusal := .next (actAfter dt s (vidStep up))
/-- SUPPLY_MONITOR_CROSSING (R478). -/
def execSupplyMonitorCrossing (dt : Nat) (x : Supply) (s : State) : Host.Outcome State Fault Refusal := .next (actAfter dt s (supplyCrossing x))
/-- CAUSE_ONSET (R478). -/
def execCauseOnset (dt : Nat) (c : Cause) (s : State) : Host.Outcome State Fault Refusal := .next (actAfter dt s (causeOnset c))
/-- CAUSE_END (R478). -/
def execCauseEnd (dt : Nat) (c : Cause) (s : State) : Host.Outcome State Fault Refusal := .next (actAfter dt s (causeEnd c))
/-- SHED_STEP_TAKEN (R481). -/
def execShedStepTaken (dt : Nat) (s : State) : Host.Outcome State Fault Refusal := .next (actAfter dt s stepTaken)
/-- SHED_STEP_UNDONE (R482). -/
def execShedStepUndone (dt : Nat) (s : State) : Host.Outcome State Fault Refusal := .next (actAfter dt s stepUndone)
/-- SHED (R411). -/
def execShed (f : ShedFrame) (s : State) : Host.Outcome State Fault Refusal := .next (act s (shedRx f))
/-- SHED_ACK_TIMEOUT (R411). -/
def execShedAckTimeout (dt : Nat) (s : State) : Host.Outcome State Fault Refusal := .next (actAfter dt s shedAckTimeout)
/-- SHED_POLICY (R486). -/
def execShedPolicy (q : FlowRef) (b : Bus) (s : State) : Host.Outcome State Fault Refusal := .next (startRow 0x0D01 meanShedPolicy q b s)
/-- SHED_STATUS (R488). -/
def execShedStatus (q : FlowRef) (b : Bus) (s : State) : Host.Outcome State Fault Refusal := .next (startRow 0x0D02 meanShedStatus q b s)
/-- SHED_CLASS (R487). -/
def execShedClass (q : FlowRef) (b : Bus) (s : State) : Host.Outcome State Fault Refusal := .next (startRow 0x0D03 meanShedClass q b s)
/-- SHED_STATE_READ (R489): f reads SHED_STATE. -/
def execShedStateRead (f : Fn) (s : State) : Host.Outcome State Fault Refusal := .next (hostRead f.val 0x090000 (readShedState f.val) s)

end Sys2Proof.Machine
end

