-- ==== Sys2Proof/Machine/Registers.lean ====
section
/-! DEFINITION. CTLWIN as a whole: the value of each register, and what a write of it does (R2, R4 to R6, R490 to R497, R501, Tables 19.2 to 19.5); PCIe configuration writes and link states (R40, R291). -/

namespace Sys2Proof.Machine

/-- CTLWIN takes aligned accesses of 4 and 8 bytes (R491). -/
def ctlwinOk (offset size : Nat) : Bool := (size == 4 || size == 8) && offset % size == 0

/-- GLB_STATUS as function f reads it (Table 19.5). -/
def globalStatus (f : Nat) (s : State) : Nat :=
  s.power.ready.toNat + s.upd.loader.toNat * 2 + (s.upd.session == .trial).toNat * 4 + s.upd.boot.activeB.toNat * 8 + s.pair.member.toNat * 16
    + s.power.bootSrc0.toNat * 32 + s.power.bootSrc1.toNat * 64 + f * 256 + s.power.warmCause * 65536 + s.power.warmCount * 16777216

/-- Function f sees source n in its interrupt registers: its own sources, and PF0 every source (R295). -/
def srcVisible (s : State) (f n : Nat) : Bool := f == 0 || srcOwner s n == some f

/-- Bits of word k of the interrupt controller: the sources that f sees and that satisfy p (R295). -/
def sourceWord (f k : Nat) (p : Src → Bool) (s : State) : Nat :=
  sumBy (fun j => if srcVisible s f (32 * k + j) && p (srcAt s (32 * k + j)) then 2 ^ j else 0) (List.range 32)

/-- The latched half of a 64-bit pair whose _LO register is at offset lo (R5): the reset value of every such half is 0. -/
def latched (f lo : Nat) (s : State) : Nat := ((fnAt s f).latches.getD lo 0).toNat

/-- Registers of the interrupt controller, from offset 0x04_0000 (Tables 10.7 to 10.11). -/
def irqValue (f off : Nat) (s : State) : Nat :=
  let k := off % 128 / 4
  if off < 0x80 then sourceWord f k (fun x => x.level) s
  else if off < 0x180 then sourceWord f k (fun x => x.masked) s
  else if off < 0x280 then sourceWord f k srcPending s
  else if off = 0x408 then s.irq.badCount.getD f 0 + s.irq.badLast.getD f 0 * 65536
  else if off = 0x40C then
    if f = 0 then s.irq.fallbackCore + min 255 ((s.irq.srcs.filter (fun e => e.2.fallen)).length) * 256 + s.irq.redirects * 65536 else 0
  else if 0x440 ≤ off ∧ off < 0x480 then
    let v := (off - 0x440) / 4
    let x := fnAt s f
    x.modDelay.getD v 0 + (x.notified.getLsbD v).toNat * 65536 + (x.timers.has v).toNat * 131072
  else if 0x1000 ≤ off ∧ off < 0x2000 then
    let n := (off - 0x1000) / 4
    if srcVisible s f n then routeValue s n else 0
  else 0

/-- Registers of the fast matrix, from offset 0x05_0000: PF0 only (Tables 9.5 to 9.8). -/
def arbValue (off : Nat) (s : State) : Nat :=
  if off < 0x3000 then
    let x := s.fab.shadow.getD (off / 4) (prioReset (off / 4 % 64))
    x.cls + x.level * 16 + x.runM1 * 256
  else if off = 0x3000 then (!s.fab.pendingArbs.isEmpty).toNat * 2 + s.fab.commitLost.toNat * 4
  else if off = 0x3004 then s.fab.starved.toNat + s.fab.multi.toNat * 2 + s.fab.starveArb * 256 + s.fab.starveReq * 65536 + s.fab.starveCount * 16777216
  else if 0x3400 ≤ off ∧ off < 0x3400 + 4 * 131 then (arbAt s ((off - 0x3400) / 4)).limit
  else 0

/-- Registers of the time unit, from offset 0x06_0000 (Table 13.10). -/
def timeValue (f off : Nat) (s : State) : Nat :=
  let (sec, ns, frac) := (fnAt s f).timeLatch
  if off = 0 then (instantParts s.time.local').1 % 2 ^ 32
  else if off = 4 then sec / 2 ^ 32
  else if off = 8 then ns
  else if off = 0xC then frac
  else if off = 0x10 then s.time.addend % 2 ^ 32
  else if off = 0x14 then s.time.addend / 2 ^ 32
  else if off = 0x18 then s.time.jumpLimit + (guardArmed s).toNat * 2 ^ 30 + s.time.refused.toNat * 2 ^ 31
  else if 0x40 ≤ off ∧ off < 0x80 then
    let n := (off - 0x40) / 16
    let c := s.time.capt.getD n {}
    let (w1, w2, w3) := (fnAt s f).captLatch.getD n (0, 0, 0)
    let w := off / 4 % 4
    if w = 0 then c.ns + c.overrun.toNat * 2 ^ 30 + c.valid.toNat * 2 ^ 31 else if w = 1 then w1 else if w = 2 then w2 else w3
  else 0

/-- Registers of a check-value unit, from its base (Table 16.6): zero for a function that does not own it; FOLD and DATA are write-only. -/
def crcValue (f u off base : Nat) (s : State) : Nat :=
  let x := crcAt s u
  if x.owner ≠ f then 0
  else if off = 0 then x.alg + x.dataBytes * 16 + x.foldBytes * 256 + x.owner * 65536
  else if off = 8 then x.value.toNat % 2 ^ 32
  else if off = 0xC then latched f (base + 8) s
  else 0

/-- An MSI-X table entry as four words (R501). -/
def msixWord (e : MsixEntry) (w : Nat) : Nat := if w = 0 then e.addr % 2 ^ 32 else if w = 1 then e.addr / 2 ^ 32 else if w = 2 then e.data else e.control

/-- Queue registers of function f (Tables 2.2 to 2.5): zero from its quota on (R492). -/
def queueValue (f off : Nat) (s : State) : Nat :=
  let n := off % 0x8000 / 32
  let w := off % 32
  if off < 0x28000 then
    let q := sqAt (fnAt s f) n
    if !(sqIn s f n) then 0
    else if w = 0 then q.base % 2 ^ 32 else if w = 4 then latched f (off - 4) s else if w = 8 then sqCtlValue q
    else if w = 12 then q.bindCq + q.bindFlow * 65536 else 0
  else
    let q := cqAt (fnAt s f) n
    if !(cqIn s f n) then 0
    else if w = 0 then q.base % 2 ^ 32 else if w = 4 then latched f (off - 4) s else if w = 8 then cqCtlValue q else 0

/-- What the register at an aligned offset of f's CTLWIN holds for a 4-byte read (Table 19.2); what a read changes is in the rows of the registers with such reads. -/
def regValue (f off : Nat) (s : State) : Nat :=
  if off = 0 then vendorId * 65536 + deviceId
  else if off = 4 then 0xB1
  else if off = 8 then globalStatus f s
  else if off = 0x10 then (fnAt s f).busy.toNat * 2
  else if off = 0x20 then (if f = 0 then s.fab.decValid.toNat + s.fab.decMaster * 2 + s.fab.decWrite.toNat * 64 + s.fab.decCount * 65536 else 0)
  else if off = 0x28 then (if f = 0 then s.fab.decAddr % 2 ^ 32 else 0)
  else if off = 0x2C then (if f = 0 then latched f 0x28 s else 0)
  else if 0x1004 ≤ off ∧ off < 0x1080 then (if f = 0 then (s.quotas.getD ((off - 0x1000) / 4) (0, 0)).1 + (s.quotas.getD ((off - 0x1000) / 4) (0, 0)).2 * 65536 else 0)
  else if 0x20000 ≤ off ∧ off < 0x30000 then queueValue f off s
  else if 0x40000 ≤ off ∧ off < 0x50000 then irqValue f (off - 0x40000) s
  else if 0x50000 ≤ off ∧ off < 0x60000 then (if f = 0 then arbValue (off - 0x50000) s else 0)
  else if 0x60000 ≤ off ∧ off < 0x70000 then timeValue f (off - 0x60000) s
  else if 0x70000 ≤ off ∧ off < 0x70300 then crcValue f ((off - 0x70000) / 64) (off % 64) (off - off % 64) s
  else if off = 0x90000 then (if f = 0 then shedStateValue s else 0)
  else if off = 0x90010 then (if f = 0 then s.pair.claim.toNat else 0)
  else if off = 0x90014 then
    (if f = 0 then s.pair.claimOutLow.toNat + s.pair.claimIn.toNat * 2 + s.pair.holdN.toNat * 4 + keeperCode s.pair.keeper * 16 + s.pair.lineFault.toNat * 256 else 0)
  else if 0xA0000 ≤ off ∧ off < 0xA0100 then msixWord (msixAt (fnAt s f) ((off - 0xA0000) / 16)) (off / 4 % 4)
  else if off = 0xA1000 then pendingBits s f
  else 0

/-- Whether offset is the _LO register of a 64-bit pair in two 32-bit registers (R5, Table 19.2). -/
def isLo (off : Nat) : Bool :=
  off == 0x28 || (decide (0x20000 ≤ off) && decide (off < 0x30000) && off % 32 == 0) || (decide (0x70000 ≤ off) && decide (off < 0x70300) && off % 64 == 8)

/-- The upper half that a read of the _LO register at offset latches for function f. -/
def upperHalf (f off : Nat) (s : State) : Nat :=
  if off = 0x28 then (if f = 0 then s.fab.decAddr / 2 ^ 32 else 0)
  else if off < 0x28000 then (if sqIn s f (off % 0x8000 / 32) then (sqAt (fnAt s f) (off % 0x8000 / 32)).base / 2 ^ 32 else 0)
  else if off < 0x30000 then (if cqIn s f (off % 0x8000 / 32) then (cqAt (fnAt s f) (off % 0x8000 / 32)).base / 2 ^ 32 else 0)
  else
    let x := crcAt s ((off - 0x70000) / 64)
    if x.owner = f then x.value.toNat / 2 ^ 32 else 0

/-- A 4-byte read of CTLWIN: of a _LO register it latches the whole value for the function (R5); of the registers whose reads act, it does what their own rows do (R285, R289, R344, R362, R489). -/
def readCtl (f off : Nat) (s : State) : State :=
  if off = 0x40400 then (if targetUp s f then claim f s else s)
  else if off = 0x40408 then readBadCount f s
  else if off = 0x60000 then readSecLo f s
  else if 0x60040 ≤ off ∧ off < 0x60080 ∧ off % 16 = 0 then readCapt f ((off - 0x60040) / 16) s
  else if off = 0x90000 then readShedState f s
  else answerRead f off (regValue f off s) (if isLo off then modFn s f (fun x => { x with latches := x.latches.set off (BitVec.ofNat 32 (upperHalf f off s)) }) else s)

/-- An aligned 8-byte read of CTLWIN (R491): the lower address, then the upper. The first latches a _LO and _HI pair, so that the two halves are one value. -/
def readCtl8 (f off : Nat) (s : State) : State :=
  let a := readCtl f off s
  let b := readCtl f (off + 4) a
  { b with readData := some (a.readData.getD 0 + b.readData.getD 0 * 2 ^ 32) }

/-- A read of another window completes with bytes; readData holds them as one number (log 4). -/
def answerBytes (f : Nat) (w : ReadWindow) (off : Nat) (bytes : List Byte) (poisoned : Bool) (s : State) : State :=
  { emit s (.data f w off bytes poisoned) with readData := some (ofLe bytes) }

/-- The byte of SNAPWIN at an offset (Tables 2.13 and 19.7). -/
def snapByte (x : FnState) (o : Nat) : Byte :=
  if o < 4 then (le 4 x.snapHead).getD o 0
  else if 8 ≤ o ∧ o < 16 then (le 8 x.snapTide).getD (o - 8) 0
  else if 16 ≤ o ∧ o < 20 then (le 4 x.snapTail).getD (o - 16) 0
  else if 0x100000 ≤ o ∧ o < 0x200000 then x.page0.getD (o - 0x100000) 0
  else if 0x200000 ≤ o ∧ o < 0x300000 then x.page1.getD (o - 0x200000) 0
  else 0

/-- SNAPWIN serves 4-byte aligned reads of 4 to 4,096 bytes that do not cross a 4 KiB boundary (R499). -/
def snapOk (off size : Nat) : Bool := off % 4 == 0 && size % 4 == 0 && decide (4 ≤ size) && decide (off % 4096 + size ≤ 4096) && decide (off < 0x400000)

/-- A read of SNAPWIN (R76, R499): served in its place, in one access, without a latch. -/
def readSnap (f off size : Nat) (s : State) : State :=
  if snapOk off size then answerBytes f .snap off ((List.range size).map (fun i => snapByte (fnAt s f) (off + i))) false s
  else emit s (.unsupported f off)

/-- The byte of f's SURFWIN at an offset, and whether the memory atom that holds it is poisoned (R500); zero where no surface of f lies. -/
def surfByte (s : State) (f off : Nat) : Byte × Bool :=
  match s.surfs.find? (fun e => e.2.owner.val == f && decide (e.2.offset ≤ off) && decide (off < e.2.offset + surfaceBytes e.2)) with
  | none => (0, false)
  | some (_, x) =>
    let o := off - x.offset
    let size := bufferSize x.format x.width x.height
    (Memory.read (bufferMem x (o / size)) (o % size), x.poison.contains (o / 32))

/-- A read of SURFWIN (R500): the current content, published or not; poison sets the completion's EP bit. -/
def readSurf (f off size : Nat) (s : State) : State :=
  let bs := (List.range size).map (fun i => surfByte s f (off + i))
  answerBytes f .surf off (bs.map Prod.fst) (bs.any Prod.snd) s

/-- A read of the configuration space of f: vendor and device ID in the first four bytes (R2); the manual does not place what else PCIe puts there, so those bytes are a free value (log 155). -/
def readConfig (f off size : Nat) (s : State) : State :=
  let id := le 2 vendorId ++ le 2 deviceId
  answerBytes f .config off ((List.range size).map (fun i => if off + i < 4 then id.getD (off + i) 0 else BitVec.ofNat 8 (freshValue s >>> (8 * i)))) false (spendFree s)

/-- A read of a window, or of configuration space, that the device serves. -/
def readWindow (f : Nat) (w : ReadWindow) (off size : Nat) (s : State) : State :=
  match w with
  | .ctl => if !(ctlwinOk off size) then s else if size = 4 then readCtl f off s else readCtl8 f off s
  | .snap => readSnap f off size s
  | .surf => readSurf f off size s
  | .config => readConfig f off size s

/-- LO_READ_LATCH (R5, R76, R491, R499, R500): f reads a window. -/
def execLoReadLatch (f : Fn) (x : ReadIn) (s : State) : Host.Outcome State Fault Refusal :=
  .next (hostRead f.val x.offset (readWindow f.val x.window x.offset x.size) s)

/-- An access that CTLWIN does not take (R260, R491): its bridge answers with an error response, which is recorded; a read completes with Unsupported Request, a write is dropped and logged as an advisory non-fatal error (Table 9.3). -/
def badAccess (f offset : Nat) (write : Bool) (s : State) : State :=
  let s := recordDecodeError 25 write (Config.ctlwinBus f offset).toNat s
  if write then modFn s f (fun x => { x with aer := true }) else emit s (.unsupported f offset)

/-- CTLWIN_BAD_ACCESS (R491). -/
def execCtlwinBadAccess (f : Fn) (offset : Nat) (size : Nat) (write : Bool) (s : State) : Host.Outcome State Fault Refusal :=
  .next (if ctlwinOk offset size then s
    else if hostUp s then badAccess f.val offset write s
    else if write then s else unserved f.val offset s)

/-- A write of an MSI-X table word (R501). -/
def writeMsix (f off v : Nat) (s : State) : State :=
  let n := (off - 0xA0000) / 16
  let w := off / 4 % 4
  modFn s f (fun x =>
    let e := msixAt x n
    { x with msix := x.msix.set n (if w = 0 then { e with addr := e.addr / 2 ^ 32 * 2 ^ 32 + v } else if w = 1 then { e with addr := e.addr % 2 ^ 32 + v * 2 ^ 32 }
      else if w = 2 then { e with data := v } else { e with control := v }) })

/-- Writes to the interrupt controller, from offset 0x04_0000 (Tables 10.7 to 10.11, R285, R295). -/
def writeIrq (f off v : Nat) (s : State) : State :=
  let k := off % 128 / 4
  if !(irqWritable s f) then s
  else if off < 0x80 then s
  else if off < 0x100 then irqBits f k v (fun x => { x with masked := true }) s
  else if off < 0x180 then irqBits f k v (fun x => { x with masked := false }) s
  else if off < 0x200 then irqBits f k v (fun x => if x.claimer.isSome then { x with repend := true } else { x with pendSw := true }) s
  else if off < 0x280 then irqBits f k v (fun x => { x with pendSw := false, repend := false }) s
  else if off = 0x404 then irqDo (irqDoneBy f (bitsOf v 9 0)) s
  else if off = 0x40C then (if f = 0 then { s with irq.fallbackCore := v % 8 } else s)
  else if 0x440 ≤ off ∧ off < 0x480 then modFn s f (fun x => { x with modDelay := x.modDelay.set ((off - 0x440) / 4) (v % 1024) })
  else if 0x1000 ≤ off ∧ off < 0x2000 then irqDo (writeRoute f ((off - 0x1000) / 4) v) s
  else s

/-- Writes to the fast matrix, from offset 0x05_0000, by PF0 (Tables 9.5 to 9.8). -/
def writeFab (off v : Nat) (s : State) : State :=
  if off < 0x3000 then writeShadow (off / 256) (off / 4 % 64) v s
  else if off = 0x3000 then writeArbCommit v s
  else if off = 0x3004 then (if bitOf v 0 then { s with fab := { s.fab with starved := false, multi := false, starveCount := 0 } } else s)
  else if 0x3400 ≤ off ∧ off < 0x3400 + 4 * 131 then writeStarveLimit ((off - 0x3400) / 4) v s
  else s

/-- TIME_JUMP_LIMIT receives v from PF0 (Table 13.10). -/
def writeJumpLimit (v : Nat) (s : State) : State := { s with time.jumpLimit := v % 2 ^ 30, time.refused := s.time.refused && !(bitOf v 31) }

/-- Writes to the queue registers (Tables 2.2 to 2.5). -/
def writeQueueReg (f off v : Nat) (s : State) : State :=
  let n := off % 0x8000 / 32
  let w := off % 32
  if off < 0x28000 then
    if w = 0 then writeSqBase f n false v s else if w = 4 then writeSqBase f n true v s else if w = 8 then writeSqCtl f n v s else if w = 12 then writeSqBind f n v s else s
  else if w = 0 then writeCqBase f n false v s else if w = 4 then writeCqBase f n true v s else if w = 8 then writeCqCtl f n v none s else s

/-- A 4-byte write at offset of f's CTLWIN (R6, R492, Table 19.2). -/
def write32 (f off v : Nat) (s : State) : State :=
  if off = 0xC then writeGlbReset f v s
  else if off = 0x10 then writeResetCtl f v s
  else if off = 0x20 then (if f = 0 ∧ bitOf v 0 then { s with fab := { s.fab with decValid := false, decCount := 0 } } else s)
  else if 0x1004 ≤ off ∧ off < 0x1080 then writeQuota f ((off - 0x1000) / 4) v s
  else if 0x10000 ≤ off ∧ off < 0x11000 then writeDbSq f ((off - 0x10000) / 4) v s
  else if 0x11000 ≤ off ∧ off < 0x12000 then writeDbCq f ((off - 0x11000) / 4) v s
  else if 0x20000 ≤ off ∧ off < 0x30000 then writeQueueReg f off v s
  else if 0x40000 ≤ off ∧ off < 0x50000 then writeIrq f (off - 0x40000) v s
  else if 0x50000 ≤ off ∧ off < 0x60000 then (if f = 0 then writeFab (off - 0x50000) v s else s)
  else if off = 0x60018 then (if f = 0 then writeJumpLimit v s else s)
  else if 0x70000 ≤ off ∧ off < 0x70300 then
    let u := (off - 0x70000) / 64
    if off % 64 = 0 then writeCrcCtl f u v s else if off % 64 = 8 then writeCrcRunning f u false 4 v s else if off % 64 = 12 then writeCrcRunning f u true 4 v s else s
  else if off = 0x90014 then (if f = 0 ∧ bitOf v 8 then { s with pair.lineFault := false } else s)
  else if 0xA0000 ≤ off ∧ off < 0xA0100 then irqDo (writeMsix f off v) s
  else s

/-- An 8-byte write (R491): a 64-bit register takes it whole, a _LO and _HI pair in one step, two other registers one after the other. -/
def write64 (f off v : Nat) (s : State) : State :=
  let u := (off - 0x70000) / 64
  let unit := decide (0x70000 ≤ off) && decide (off < 0x70300)
  if off = 0x60010 then writeAddend f 8 v s
  else if unit && off % 64 == 8 then writeCrcRunning f u false 8 v s
  else if unit && off % 64 == 0x10 then writeCrcBytes f u 8 v (crcAt s u).foldBytes s
  else if unit && off % 64 == 0x18 then writeCrcBytes f u 8 v (crcAt s u).dataBytes s
  else write32 f (off + 4) (v / 2 ^ 32) (write32 f off (v % 2 ^ 32) s)

/-- REGISTER_WRITE (R6, R491, R494): a write of CTLWIN by f. -/
def registerWrite (f off size v : Nat) (s : State) : State :=
  if !(hostUp s) then s
  else if !(ctlwinOk off size) then badAccess f off true s
  else if size = 4 then write32 f off (v % 2 ^ 32) s
  else write64 f off v s
def execRegisterWrite (f : Fn) (offset : Nat) (size : Nat) (v : DWord) (s : State) : Host.Outcome State Fault Refusal :=
  .next (registerWrite f.val offset size v.toNat s)

/-- A configuration write changes what decides whether a function is deliverable (R291), or VF Enable of PF0 (R40). -/
def configWrite (f : Nat) (w : CfgWrite) (s : State) : State :=
  match w with
  | .powerState d p => irqDo (fun s => modFn s f (fun x => { x with d3hot := d, pmeEn := p })) s
  | .busMaster b => irqDo (fun s => modFn s f (fun x => { x with busMaster := b })) s
  | .msixEnable b => irqDo (fun s => modFn s f (fun x => { x with msixEnable := b })) s
  | .functionMask b => irqDo (fun s => modFn s f (fun x => { x with functionMask := b })) s
  | .vfEnable b => if f = 0 then { s with vfEnable := b } else s
  | .ringWrites n fail => modFn s f (fun x => { x with unwritable := if fail then (if x.unwritable.contains n then x.unwritable else x.unwritable ++ [n]) else x.unwritable.filter (· != n) })

/-- PCIE_CONFIGURATION_WRITE (R40, R291). -/
def execPcieConfigurationWrite (f : Fn) (w : CfgWrite) (s : State) : Host.Outcome State Fault Refusal :=
  .next (if hostUp s then configWrite f.val w s else s)

/-- Records that waited for the link are written, in their order in each CQ; a CQ that a PCIe error holds keeps its own (R46, R291). -/
def writeHeld (s : State) : State :=
  s.fns.foldl (fun s e => settleSqs e.1 (e.2.cqs.foldl (fun s q => if q.2.holding then s else cqDrain e.1 q.1 none s) s)) s

/-- The link changes its state; when it reaches L0, the record writes held behind the exit are made, then the messages that are due go out, function by function and vector by vector (R291). -/
def linkChange (l : LinkState) (s : State) : State :=
  let s := { s with power.link := l }
  if l = .l0 then (List.range 32).foldl (fun s f => (List.range 16).foldl (fun s v => sendMsix f v s) s) (settleResets (writeHeld s)) else s

/-- LINK_POWER_STATE_CHANGE (R291). -/
def execLinkPowerStateChange (dt : Nat) (l : LinkState) (s : State) : Host.Outcome State Fault Refusal := .next (actAfter dt s (linkChange l))

end Sys2Proof.Machine
end

