-- ==== Sys2Proof/Machine/Snapshot.lean ====
section
/-! DEFINITION. Snapshot pages: the status records of a function and their publication (R74, R75, R78, R108, R171, R211, R230, R252, R321, R341, R361, R383, R416, R488). -/

namespace Sys2Proof.Machine

/-- Output status record (Table 6.7). SURF_WRITE_DROPS counts for the whole function. -/
def outRecord (s : State) (n : Nat) (o : Output) : List Byte :=
  le 1 n ++ le 1 o.compositor ++ le 1 (o.lh.isSome.toNat + (o.stale != 0).toNat * 2) ++ zeros 1 ++ le 8 o.outPicture ++ le 8 o.stale.toNat
    ++ le 4 (if o.lh.isSome then o.regionHash.toNat else 0) ++ le 4 o.lateSrcLines ++ le 4 (fnAt s o.owner.val).surfDrops

/-- A packet of a path has been stamped within the last 1 ms (Table 11.10). -/
def pathLive (s : State) (t : Option Instant) : Bool := t.elim false (fun t => decide (s.time.local' ≤ t + nsInstant 1000000))

/-- Input flow status record (Table 11.10). -/
def flowInRecord (s : State) (n : Nat) (x : FlowIn) : List Byte :=
  le 2 n ++ le 1 x.cfg.kind ++ le 1 ((pathLive s x.lastA).toNat + (pathLive s x.lastB).toNat * 2 + x.formatMismatch.toNat * 4)
    ++ le 4 x.pkts ++ le 4 x.pktLost ++ le 4 x.lostA ++ le 4 x.lostB ++ leInt 4 x.skewNs ++ le 4 x.latePkts ++ le 4 x.formatErrors

/-- Port status record (Table 11.11). -/
def portRecord (s : State) (n : Nat) : List Byte :=
  let x := portAt s n
  let high := (portLanes s x.cfg).any (fun l => (laneAt s l).highBer)
  le 1 n ++ le 1 x.cfg.speed ++ le 1 (if x.cfg.speed = 0 then 0 else if x.down then 1 else 2)
    ++ le 1 ((x.cfg.speed != 0 && x.down).toNat + (x.cfg.speed != 0 && x.remoteFault).toNat * 2 + high.toNat * 4)
    ++ le 4 x.rxFrames ++ le 4 x.rxBad ++ le 4 x.rxDiscard ++ le 4 x.fecCorr ++ le 4 x.fecUncorr ++ le 4 x.linkDowns ++ le 4 x.arpDrops

/-- Lane status record (Table 11.12). -/
def laneRecord (s : State) (n : Nat) : List Byte :=
  let x := laneAt s n
  let sdi := x.cfg.mode == 2
  le 1 n ++ le 1 (x.cfg.mode + (if sdi then x.detRate else 0) * 16) ++ le 1 (if x.cfg.mode = 0 then 0 else if x.fault then 1 else 2)
    ++ le 1 ((sdi && x.family1001).toNat + x.refLost.toNat * 2) ++ le 2 x.faults
    ++ le 2 (if x.cfg.mode = 3 then x.slips % 65536 else if x.cfg.mode = 4 then s.net.cw.resends % 65536 else 0)

/-- Output flow status record (Table 12.4). -/
def flowOutRecord (s : State) (n : Nat) (x : FlowOut) : List Byte :=
  let ports := outPorts x.cfg
  let open' := (copiesOf x.cfg).all (fun b => resolved s x.cfg b)
  le 2 n ++ le 1 x.cfg.kind
    ++ le 1 ((!(holdsClaim s)).toNat + (ports.any (fun p => (portAt s p).down)).toNat * 2 + (ports.any (fun p => (portAt s p).cfg.speed == 0)).toNat * 4 + (x.cfg.kind != 6 && !open').toNat * 8)
    ++ le 4 x.framesSent ++ le 4 x.lateGroups ++ le 4 x.guardDefers ++ le 4 x.claimHeld ++ le 4 x.downDrops ++ le 4 x.disableDrops
    ++ le 4 (creditNow s x.copyA.bucket / 4000000)

/-- The objects of a table that belong to function f, each as its record. -/
def recordsOf {α : Type} (m : FMap α) (p : α → Bool) (r : Nat → α → List Byte) : List Byte := (m.filter (fun e => p e.2)).flatMap (fun e => r e.1 e.2)

/-- The status that function f publishes, in the order of the chapters (R108, R171, R211, R230, R252, R321, R341, R361, R383, R416, R488). -/
def statusBytes (f : Nat) (s : State) : List Byte :=
  let pf0 := f == 0
  recordsOf s.chans (fun x => x.owner.val == f) (chanRecord s)
    ++ recordsOf s.chans (fun x => x.owner.val == f) rcRecord
    ++ recordsOf s.outs (fun o => o.owner.val == f) (outRecord s)
    ++ (if pf0 then recordsOf s.outs (fun o => o.owner.val != f && o.lh.isSome) (outRecord s) else [])
    ++ recordsOf s.decs (fun d => d.owner.val == f) decRecord
    ++ (if pf0 then memRecord s else [])
    ++ recordsOf s.net.flowsIn (fun x => x.owner.val == f) (flowInRecord s)
    ++ (if pf0 then (List.range 16).flatMap (portRecord s) ++ (List.range 96).flatMap (laneRecord s) else [])
    ++ recordsOf s.net.flowsOut (fun x => x.owner.val == f && !x.removed) (flowOutRecord s)
    ++ timeRecord s
    ++ (if pf0 then (List.range 8).flatMap (audPortRecord s) ++ pairRecord s ++ shedRecord s else [])

/-- A page without its trailing zeros. -/
def trimZeros (b : List Byte) : List Byte := (b.reverse.dropWhile (fun x => x == 0)).reverse

/-- A status page: the header of R75, then the status. -/
def pageBytes (k tide : Nat) (status : List Byte) : List Byte :=
  le 4 k ++ zeros 4 ++ le 8 tide ++ le 4 (64 + status.length) ++ zeros 44 ++ status

/-- Publication k of function f, for the Tide that has ended (R74): head, page k mod 2, Tide, tail; then the event of KIND 1. The page is replaced whole, so bytes beyond the valid length read zero (DESIGN CHOICE, log 184). -/
def publishFn (ended f : Nat) (s : State) : State :=
  let k := ((fnAt s f).snapK + 1) % 2 ^ 32
  let page := trimZeros (pageBytes k ended (statusBytes f s))
  let s := modFn s f (fun x => { x with snapK := k, snapHead := k, snapTide := ended, snapTail := k,
                                        page0 := if k % 2 = 0 then page else x.page0, page1 := if k % 2 = 1 then page else x.page1 })
  postEvent f 1 0 k s

/-- Values that are a maximum since the last publication start again (Tables 8.9, 10.3, 18.8). -/
def restartPeaks (s : State) : State :=
  { s with mem.pendMax := s.mem.pcs.foldl (fun m e => max m e.2.pendRefresh) 0, harbour.readyMax := readyCount s, power.peakRec := s.power.step }

/-- Every function publishes at a Tide boundary, whether or not its host reads (R78). -/
def publishAll (ended : Nat) (s : State) : State := restartPeaks ((List.range 32).foldl (fun s f => publishFn ended f s) s)

end Sys2Proof.Machine
end

