-- ==== Sys2Proof/Machine/Tide.lean ====
section
/-! DEFINITION. The Tide boundary: its instants, its five actions in order (R22 to R27, R298, R308, R424), and the end of SNAPSHOT_CONFIG (R25, R59). -/

namespace Sys2Proof.Machine

/-- One and a half periods have passed since the previous boundary after a step of the clock (R24). -/
def overdueTide (s : State) : Bool := s.time.stepped && decide (s.time.lastBoundaryTick + 3 * halfTideTicks s ≤ s.now)

/-- A Tide boundary is due: CLK_TIME runs and the next multiple has come, or the Tide has lasted one and a half periods (R22, R24, Table 16.2). -/
def tideDue (s : State) : Bool := !clockLost s .time && (decide (s.time.nextBoundary ≤ s.time.local') || overdueTide s)

/-- Local time of the boundary that is due: the planned multiple, or now. -/
def boundaryInstant (s : State) : Instant := if s.time.nextBoundary ≤ s.time.local' then s.time.nextBoundary else s.time.local'

/-- RESULT words of SNAPSHOT_CONFIG of function f: the period in force in ns, the bytes of the status that its next page holds (R59, R75). -/
def snapResults (f : Nat) (s : State) : Nat × Nat := (s.time.period * 62500, 64 + (statusBytes f s).length)

/-- A SNAPSHOT_CONFIG completes (R59). -/
def finishSnap (serial f : Nat) (s : State) : State := finishCmd serial 1 (snapResults f s).1 (snapResults f s).2 s

/-- A period change applies at a boundary that is a multiple of both periods (R25). -/
def changePeriod (at' : Instant) (s : State) : State :=
  match s.time.periodChange with
  | none => s
  | some c =>
    if at' % nsInstant (max s.time.period c.period * 62500) ≠ 0 then s
    else finishSnap c.serial 0 { s with time.period := c.period, time.periodChange := none }

/-- The boundary is passed: the one after it lies at the next multiple of the period (R22), after a boundary placed by R24 with its first correction. -/
def planNext (at' : Instant) (planned : Bool) (s : State) : State :=
  let s := { s with time.lastBoundary := at', time.lastBoundaryTick := s.now, time.stepped := false }
  { s with time.nextBoundary := if planned then (at' / tideSpan s + 1) * tideSpan s else planBoundary s }

/-- Ports on which an input flow joins a multicast group (R301). -/
def joinPorts (c : FlowInCfg) : List Nat :=
  ((inPaths c).filter (fun e => decide (224 * 2 ^ 24 ≤ e.2.1) && decide (e.2.1 < 240 * 2 ^ 24))).map (fun e => e.1)

/-- One command that waited for the boundary applies and completes (R27, R298). -/
def applyCfg (c : PendCfg) (s : State) : State :=
  match findCmd s c.serial with
  | none => s
  | some (_, cmd) =>
    let p := c.packet
    let done := fun (s : State) => finishCmd c.serial 1 0 0 s
    if c.opcode = 0x0503 then done (applyDecPolicy p s)
    else if c.opcode = 0x0601 then finishCmd c.serial (fld p 2 14 8) 0 0 (applyLaneConfig p s)
    else if c.opcode = 0x0602 then done (applyPortConfig p s)
    else if c.opcode = 0x0603 then
      let (s', n) := addFlowIn c.fn p s
      finishCmd c.serial 1 n 0 ((joinPorts (flowInCfgOf p)).foldl (fun s p => igmpReport p s) s')
    else if c.opcode = 0x0604 then
      let (s', n) := addFlowOut c.fn p s
      finishCmd c.serial 1 n 0 s'
    else if c.opcode = 0x0605 then done (applyFlowRemove p s)
    else if c.opcode = 0x0606 then done (applyShaper p s)
    else if c.opcode = 0x0607 then
      let (s', r0, r1) := applyGate p cmd.block s
      finishCmd c.serial 1 r0 r1 s'
    else if c.opcode = 0x0701 then done (applyPtpConfig p s)
    else if c.opcode = 0x0801 then done (applyAudPort p s)
    else if c.opcode = 0x0901 then applyPairConfig c.serial p s
    else if c.opcode = 0x0903 then applyPairSwap c.serial p s
    else if c.opcode = 0x0904 then applyPairResync c.serial p s
    else if c.opcode = 0x0C01 then done (applyRegionMap p s)
    else if c.opcode = 0x0C02 then done (applyScrubConfig p s)
    else if c.opcode = 0x0D01 then done (applyShedPolicy p s)
    else if c.opcode = 0x0D03 then done (applyShedClass p s)
    else s

/-- SNAPSHOT_CONFIGs that change nothing complete at the boundary (R25, R59). -/
def endUnchanged (s : State) : State :=
  ((allCmds s).filter (fun e => e.2.wait == .tide && opcodeOf e.2.packet == 0x0102)).foldl (fun s e => finishSnap e.2.serial e.2.fn.val s) s

/-- Channels armed for a start time that has come have started (R96, Table 3.3). -/
def startArmed (s : State) : State := { s with chans := s.chans.mapVals (fun _ x => startedChan s x) }

/-- Order 2 of Table 1.4: what takes effect at the Tide boundary. -/
def applyBoundary (at' : Instant) (s : State) : State :=
  let l := s.net.pendCfg
  let s := settleResets (applyRemovals (settleDecoders (l.foldl (fun s c => applyCfg c s) { s with net.pendCfg := [] })))
  startArmed (applyResets (endUnchanged (changePeriod at' s)))

/-- Order 5 of Table 1.4: pulses, triggers, control cycles and time events that are due fire. -/
def fireDue (s : State) : State :=
  let s := (List.range 4).foldl (fun s o => pulseStart o s) s
  let s := (List.range 4).foldl (fun s n => triggerTime n s) s
  let s := (List.range 4).foldl (fun s n => controlEvent n s) s
  (List.range 64).foldl (fun s i => timeEventFire i s) s

/-- The measured values that status reports (Tables 8.9, 18.8). -/
def takeMeasures (m : Measures) (s : State) : State := { s with power.powerW := m.powerW % 65536, power.coreMv := m.coreMv % 65536, mem.hbmTemp := m.hbmTemp % 256 }

/-- TIDE_BOUNDARY (R26): the five actions of Table 1.4, in order. -/
def tideBoundary (m : Measures) (s : State) : State :=
  if !tideDue s then s
  else
    let at' := boundaryInstant s
    let planned := decide (s.time.nextBoundary ≤ s.time.local')
    let ended := s.time.tide
    let s := nextTide s
    let s := planNext at' planned (applyBoundary at' s)
    let s := pairTide ended s
    fireDue (publishAll ended (takeMeasures m s))

/-- TIDE_BOUNDARY (R26): dt ticks pass, and a boundary that is due takes place. -/
def execTideBoundary (dt : Nat) (m : Measures) (s : State) : Host.Outcome State Fault Refusal := .next (actAfter dt s (tideBoundary m))

end Sys2Proof.Machine
end

