-- ==== Sys2Proof/Machine/Dispatch.lean ====
section
/-! DEFINITION. The meaning of every step: one arm per row of spec/opcode_table.json. -/

namespace Sys2Proof.Machine

/-- The meaning of a step, on everything but the queue. -/
def exec (i : Instr) (s : State) : Host.Outcome State Fault Refusal :=
  match i with
  | .dbSq f n v => Sys2Proof.Machine.execDbSq f n v s
  | .dbCq f n v => Sys2Proof.Machine.execDbCq f n v s
  | .sqEnable f n v => Sys2Proof.Machine.execSqEnable f n v s
  | .sqDisable f n v => Sys2Proof.Machine.execSqDisable f n v s
  | .cqEnable f n v => Sys2Proof.Machine.execCqEnable f n v s
  | .cqDisable f n v => Sys2Proof.Machine.execCqDisable f n v s
  | .sqErrorClear f n v => Sys2Proof.Machine.execSqErrorClear f n v s
  | .cqErrorClear f n v failAt => Sys2Proof.Machine.execCqErrorClear f n v failAt s
  | .funcQuota f vf v => Sys2Proof.Machine.execFuncQuota f vf v s
  | .commandFetch f n slot => Sys2Proof.Machine.execCommandFetch f n slot s
  | .unknownOpcode q b => Sys2Proof.Machine.execUnknownOpcode q b s
  | .nop q b => Sys2Proof.Machine.execNop q b s
  | .devQuery q b => Sys2Proof.Machine.execDevQuery q b s
  | .snapshotConfig q b => Sys2Proof.Machine.execSnapshotConfig q b s
  | .fenceSignal q b => Sys2Proof.Machine.execFenceSignal q b s
  | .fenceWait q b => Sys2Proof.Machine.execFenceWait q b s
  | .fenceWaitTimeout dt q => Sys2Proof.Machine.execFenceWaitTimeout dt q s
  | .funcReset q b => Sys2Proof.Machine.execFuncReset q b s
  | .eventSubscribe q b => Sys2Proof.Machine.execEventSubscribe q b s
  | .capacityQuery q b => Sys2Proof.Machine.execCapacityQuery q b s
  | .chanCreate q b => Sys2Proof.Machine.execChanCreate q b s
  | .chanConfig q b => Sys2Proof.Machine.execChanConfig q b s
  | .chanStart q b => Sys2Proof.Machine.execChanStart q b s
  | .chanStop q b => Sys2Proof.Machine.execChanStop q b s
  | .chanDestroy q b => Sys2Proof.Machine.execChanDestroy q b s
  | .chanSetDelay q b => Sys2Proof.Machine.execChanSetDelay q b s
  | .keyRequest q b => Sys2Proof.Machine.execKeyRequest q b s
  | .chanStatus q b => Sys2Proof.Machine.execChanStatus q b s
  | .encProfile q b => Sys2Proof.Machine.execEncProfile q b s
  | .encGop q b => Sys2Proof.Machine.execEncGop q b s
  | .rcConfig q b => Sys2Proof.Machine.execRcConfig q b s
  | .rcUpdate q b => Sys2Proof.Machine.execRcUpdate q b s
  | .encRegion q b => Sys2Proof.Machine.execEncRegion q b s
  | .encSpec q b => Sys2Proof.Machine.execEncSpec q b s
  | .encMe q b => Sys2Proof.Machine.execEncMe q b s
  | .outCreate q b => Sys2Proof.Machine.execOutCreate q b s
  | .layerSet q b => Sys2Proof.Machine.execLayerSet q b s
  | .layerClear q b => Sys2Proof.Machine.execLayerClear q b s
  | .composeCommit q b => Sys2Proof.Machine.execComposeCommit q b s
  | .lighthouseLoad q b => Sys2Proof.Machine.execLighthouseLoad q b s
  | .freshnessSet q b => Sys2Proof.Machine.execFreshnessSet q b s
  | .surfaceAlloc q b => Sys2Proof.Machine.execSurfaceAlloc q b s
  | .surfaceFree q b => Sys2Proof.Machine.execSurfaceFree q b s
  | .surfaceUpdate q b => Sys2Proof.Machine.execSurfaceUpdate q b s
  | .flipTime dt q => Sys2Proof.Machine.execFlipTime dt q s
  | .outputPictureComplete dt o m => Sys2Proof.Machine.execOutputPictureComplete dt o m s
  | .decOpen q b => Sys2Proof.Machine.execDecOpen q b s
  | .decClose q b => Sys2Proof.Machine.execDecClose q b s
  | .decPolicy q b => Sys2Proof.Machine.execDecPolicy q b s
  | .decStatus q b => Sys2Proof.Machine.execDecStatus q b s
  | .laneConfig q b => Sys2Proof.Machine.execLaneConfig q b s
  | .portConfig q b => Sys2Proof.Machine.execPortConfig q b s
  | .flowInAdd q b => Sys2Proof.Machine.execFlowInAdd q b s
  | .flowOutAdd q b => Sys2Proof.Machine.execFlowOutAdd q b s
  | .flowRemove q b => Sys2Proof.Machine.execFlowRemove q b s
  | .shaperSet q b => Sys2Proof.Machine.execShaperSet q b s
  | .gateSchedule q b => Sys2Proof.Machine.execGateSchedule q b s
  | .gateListApply dt p => Sys2Proof.Machine.execGateListApply dt p s
  | .laneTest q b => Sys2Proof.Machine.execLaneTest q b s
  | .laneTestDone dt q low high => Sys2Proof.Machine.execLaneTestDone dt q low high s
  | .eyeScan q b => Sys2Proof.Machine.execEyeScan q b s
  | .eyeScanDone dt q counts b => Sys2Proof.Machine.execEyeScanDone dt q counts b s
  | .ptpConfig q b => Sys2Proof.Machine.execPtpConfig q b s
  | .timeSet q b => Sys2Proof.Machine.execTimeSet q b s
  | .pulseSet q b => Sys2Proof.Machine.execPulseSet q b s
  | .triggerSet q b => Sys2Proof.Machine.execTriggerSet q b s
  | .timeStatus q b => Sys2Proof.Machine.execTimeStatus q b s
  | .audPortConfig q b => Sys2Proof.Machine.execAudPortConfig q b s
  | .audSlotmask q b => Sys2Proof.Machine.execAudSlotmask q b s
  | .audRoute q b => Sys2Proof.Machine.execAudRoute q b s
  | .audMute q b => Sys2Proof.Machine.execAudMute q b s
  | .pairConfig q b => Sys2Proof.Machine.execPairConfig q b s
  | .pairFormTimeout dt q => Sys2Proof.Machine.execPairFormTimeout dt q s
  | .pairStatus q b => Sys2Proof.Machine.execPairStatus q b s
  | .pairSwap q b => Sys2Proof.Machine.execPairSwap q b s
  | .pairResync q b => Sys2Proof.Machine.execPairResync q b s
  | .pairMode q b => Sys2Proof.Machine.execPairMode q b s
  | .updBegin q b => Sys2Proof.Machine.execUpdBegin q b s
  | .updBlock q b => Sys2Proof.Machine.execUpdBlock q b s
  | .updVerify q b => Sys2Proof.Machine.execUpdVerify q b s
  | .updActivate q b => Sys2Proof.Machine.execUpdActivate q b s
  | .updConfirm q b => Sys2Proof.Machine.execUpdConfirm q b s
  | .updAbort q b => Sys2Proof.Machine.execUpdAbort q b s
  | .paramDelta q b => Sys2Proof.Machine.execParamDelta q b s
  | .paramCommit q b => Sys2Proof.Machine.execParamCommit q b s
  | .updStatus q b => Sys2Proof.Machine.execUpdStatus q b s
  | .flashOperationComplete dt q r => Sys2Proof.Machine.execFlashOperationComplete dt q r s
  | .selftest q b => Sys2Proof.Machine.execSelftest q b s
  | .selftestComplete dt q fail => Sys2Proof.Machine.execSelftestComplete dt q fail s
  | .calibrate q b => Sys2Proof.Machine.execCalibrate q b s
  | .countersRead q b => Sys2Proof.Machine.execCountersRead q b s
  | .faultInject q b => Sys2Proof.Machine.execFaultInject q b s
  | .journalRead q b => Sys2Proof.Machine.execJournalRead q b s
  | .regionMap q b => Sys2Proof.Machine.execRegionMap q b s
  | .scrubConfig q b => Sys2Proof.Machine.execScrubConfig q b s
  | .memStatus q b => Sys2Proof.Machine.execMemStatus q b s
  | .shedPolicy q b => Sys2Proof.Machine.execShedPolicy q b s
  | .shedStatus q b => Sys2Proof.Machine.execShedStatus q b s
  | .shedClass q b => Sys2Proof.Machine.execShedClass q b s
  | .tideBoundary dt m => Sys2Proof.Machine.execTideBoundary dt m s
  | .pictureStart dt c x => Sys2Proof.Machine.execPictureStart dt c x s
  | .rowStart dt x => Sys2Proof.Machine.execRowStart dt x s
  | .variantChoice c e => Sys2Proof.Machine.execVariantChoice c e s
  | .entropyUnitStart dt e o => Sys2Proof.Machine.execEntropyUnitStart dt e o s
  | .sliceAssembly dt c x => Sys2Proof.Machine.execSliceAssembly dt c x s
  | .egressRelease dt w copyB poison => Sys2Proof.Machine.execEgressRelease dt w copyB poison s
  | .macFrameSelect dt p => Sys2Proof.Machine.execMacFrameSelect dt p s
  | .outputPictureStart dt o => Sys2Proof.Machine.execOutputPictureStart dt o s
  | .outputLineCompose dt o poisoned => Sys2Proof.Machine.execOutputLineCompose dt o poisoned s
  | .accessUnitDecode dt e a => Sys2Proof.Machine.execAccessUnitDecode dt e a s
  | .presentationInstant dt d => Sys2Proof.Machine.execPresentationInstant dt d s
  | .ethernetFrameRx dt p fr => Sys2Proof.Machine.execEthernetFrameRx dt p fr s
  | .sdiLineRx dt l x => Sys2Proof.Machine.execSdiLineRx dt l x s
  | .lineDeadline dt c poisoned => Sys2Proof.Machine.execLineDeadline dt c poisoned s
  | .repairDeadline dt c line => Sys2Proof.Machine.execRepairDeadline dt c line s
  | .announce dt p a => Sys2Proof.Machine.execAnnounce dt p a s
  | .sync dt p m t1 t2 correction intervalNs => Sys2Proof.Machine.execSync dt p m t1 t2 correction intervalNs s
  | .followUp dt p m t1 correction => Sys2Proof.Machine.execFollowUp dt p m t1 correction s
  | .delayResp dt p m t4 correction intervalNs => Sys2Proof.Machine.execDelayResp dt p m t4 correction intervalNs s
  | .delayReq dt t3 => Sys2Proof.Machine.execDelayReq dt t3 s
  | .masterLost dt => Sys2Proof.Machine.execMasterLost dt s
  | .timeEvent dt e => Sys2Proof.Machine.execTimeEvent dt e s
  | .pulseStart dt o => Sys2Proof.Machine.execPulseStart dt o s
  | .pulseEnd dt o => Sys2Proof.Machine.execPulseEnd dt o s
  | .triggerEdge dt n rising x => Sys2Proof.Machine.execTriggerEdge dt n rising x s
  | .triggerTime dt n => Sys2Proof.Machine.execTriggerTime dt n s
  | .controlEvent dt n => Sys2Proof.Machine.execControlEvent dt n s
  | .clockLoss x => Sys2Proof.Machine.execClockLoss x s
  | .clockReturn d => Sys2Proof.Machine.execClockReturn d s
  | .laneFault l x => Sys2Proof.Machine.execLaneFault l x s
  | .laneRelock x => Sys2Proof.Machine.execLaneRelock x s
  | .portDown p x => Sys2Proof.Machine.execPortDown p x s
  | .portUp x => Sys2Proof.Machine.execPortUp x s
  | .heartbeatSend dt => Sys2Proof.Machine.execHeartbeatSend dt s
  | .heartbeat dt h => Sys2Proof.Machine.execHeartbeat dt h s
  | .heartbeatMiss dt => Sys2Proof.Machine.execHeartbeatMiss dt s
  | .tideRecord r => Sys2Proof.Machine.execTideRecord r s
  | .sliceCheck e => Sys2Proof.Machine.execSliceCheck e s
  | .command c => Sys2Proof.Machine.execCommand c s
  | .outcome serial o r0 r1 b => Sys2Proof.Machine.execOutcome serial o r0 r1 b s
  | .input e => Sys2Proof.Machine.execInput e s
  | .repairReq r => Sys2Proof.Machine.execRepairReq r s
  | .repairData dt r held offset total data => Sys2Proof.Machine.execRepairData dt r held offset total data s
  | .groupEnd flow copyB serial => Sys2Proof.Machine.execGroupEnd flow copyB serial s
  | .yield dt claim reason keyed swapTide => Sys2Proof.Machine.execYield dt claim reason keyed swapTide s
  | .bulk p => Sys2Proof.Machine.execBulk p s
  | .time t => Sys2Proof.Machine.execTime t s
  | .shed f => Sys2Proof.Machine.execShed f s
  | .shedAckTimeout dt => Sys2Proof.Machine.execShedAckTimeout dt s
  | .acknowledgement seq => Sys2Proof.Machine.execAcknowledgement seq s
  | .negativeAcknowledgement seq => Sys2Proof.Machine.execNegativeAcknowledgement seq s
  | .resendTimeout dt => Sys2Proof.Machine.execResendTimeout dt s
  | .causewayBadFrame r => Sys2Proof.Machine.execCausewayBadFrame r s
  | .claimInHigh dt => Sys2Proof.Machine.execClaimInHigh dt s
  | .assertingWindowEnd dt => Sys2Proof.Machine.execAssertingWindowEnd dt s
  | .claimInLow dt => Sys2Proof.Machine.execClaimInLow dt s
  | .backoffExpiry dt => Sys2Proof.Machine.execBackoffExpiry dt s
  | .keeperRefresh dt => Sys2Proof.Machine.execKeeperRefresh dt s
  | .keeperLapse dt => Sys2Proof.Machine.execKeeperLapse dt s
  | .keeperRelease dt => Sys2Proof.Machine.execKeeperRelease dt s
  | .claimWaitExpiry dt => Sys2Proof.Machine.execClaimWaitExpiry dt s
  | .holdNLow => Sys2Proof.Machine.execHoldNLow s
  | .standbySliceFree dt c => Sys2Proof.Machine.execStandbySliceFree dt c s
  | .refreshDue dt p calOk => Sys2Proof.Machine.execRefreshDue dt p calOk s
  | .makeUpBurst dt p calOk => Sys2Proof.Machine.execMakeUpBurst dt p calOk s
  | .calibrationStepDue dt p temp => Sys2Proof.Machine.execCalibrationStepDue dt p temp s
  | .calDeferred dt p => Sys2Proof.Machine.execCalDeferred dt p s
  | .agePromotion dt p id => Sys2Proof.Machine.execAgePromotion dt p id s
  | .nextRequest dt p corrected uncorrectable => Sys2Proof.Machine.execNextRequest dt p corrected uncorrectable s
  | .parityAlert dt x => Sys2Proof.Machine.execParityAlert dt x s
  | .qdrParityError p access => Sys2Proof.Machine.execQdrParityError p access s
  | .scrub dt hbm r => Sys2Proof.Machine.execScrub dt hbm r s
  | .arbiterRound dt a x => Sys2Proof.Machine.execArbiterRound dt a x s
  | .stagedSetApply a => Sys2Proof.Machine.execStagedSetApply a s
  | .starvation a e => Sys2Proof.Machine.execStarvation a e s
  | .emergencyPreemption a refresh => Sys2Proof.Machine.execEmergencyPreemption a refresh s
  | .requestWithdrawal a e => Sys2Proof.Machine.execRequestWithdrawal a e s
  | .requesterMask a e on => Sys2Proof.Machine.execRequesterMask a e on s
  | .errorResponse dt held r => Sys2Proof.Machine.execErrorResponse dt held r s
  | .threadEvent dt x => Sys2Proof.Machine.execThreadEvent dt x s
  | .prefetchFill => Sys2Proof.Machine.execPrefetchFill s
  | .threadYield dt c y => Sys2Proof.Machine.execThreadYield dt c y s
  | .runLimit dt c q => Sys2Proof.Machine.execRunLimit dt c q s
  | .sourceLevelChange n => Sys2Proof.Machine.execSourceLevelChange n s
  | .msiXMessage f v => Sys2Proof.Machine.execMsiXMessage f v s
  | .moderationTimerExpiry dt f v => Sys2Proof.Machine.execModerationTimerExpiry dt f v s
  | .redirection dt n => Sys2Proof.Machine.execRedirection dt n s
  | .fallbackCompletion n => Sys2Proof.Machine.execFallbackCompletion n s
  | .irqClaim t => Sys2Proof.Machine.execIrqClaim t s
  | .irqDone t v => Sys2Proof.Machine.execIrqDone t v s
  | .irqBaddoneCnt f => Sys2Proof.Machine.execIrqBaddoneCnt f s
  | .irqMaskSet f k v => Sys2Proof.Machine.execIrqMaskSet f k v s
  | .irqMaskClr f k v => Sys2Proof.Machine.execIrqMaskClr f k v s
  | .irqPendSet f k v => Sys2Proof.Machine.execIrqPendSet f k v s
  | .irqPendClr f k v => Sys2Proof.Machine.execIrqPendClr f k v s
  | .irqRoute f n v => Sys2Proof.Machine.execIrqRoute f n v s
  | .arbCommit f v => Sys2Proof.Machine.execArbCommit f v s
  | .starvedClear f v => Sys2Proof.Machine.execStarvedClear f v s
  | .fabDecerrClear f v => Sys2Proof.Machine.execFabDecerrClear f v s
  | .loReadLatch f x => Sys2Proof.Machine.execLoReadLatch f x s
  | .timeSecLo f => Sys2Proof.Machine.execTimeSecLo f s
  | .timeAddend f size v => Sys2Proof.Machine.execTimeAddend f size v s
  | .timeCaptRead f n => Sys2Proof.Machine.execTimeCaptRead f n s
  | .crcInit f u v => Sys2Proof.Machine.execCrcInit f u v s
  | .crcOwnerChange f u v => Sys2Proof.Machine.execCrcOwnerChange f u v s
  | .crcRunningWrite f u hi size v => Sys2Proof.Machine.execCrcRunningWrite f u hi size v s
  | .crcFold f u size v => Sys2Proof.Machine.execCrcFold f u size v s
  | .crcData f u size v => Sys2Proof.Machine.execCrcData f u size v s
  | .crcDataPort f u bytes => Sys2Proof.Machine.execCrcDataPort f u bytes s
  | .funcResetCtl f v => Sys2Proof.Machine.execFuncResetCtl f v s
  | .glbReset f v => Sys2Proof.Machine.execGlbReset f v s
  | .shedStateRead f => Sys2Proof.Machine.execShedStateRead f s
  | .surfwinWrite f offset bytes => Sys2Proof.Machine.execSurfwinWrite f offset bytes s
  | .ctlwinBadAccess f offset size write => Sys2Proof.Machine.execCtlwinBadAccess f offset size write s
  | .registerWrite f offset size v => Sys2Proof.Machine.execRegisterWrite f offset size v s
  | .flr f => Sys2Proof.Machine.execFlr f s
  | .hostReset => Sys2Proof.Machine.execHostReset s
  | .coldReset st => Sys2Proof.Machine.execColdReset st s
  | .warmReset dt qportTrainOk pcTrainOk => Sys2Proof.Machine.execWarmReset dt qportTrainOk pcTrainOk s
  | .avsVidStep dt up => Sys2Proof.Machine.execAvsVidStep dt up s
  | .causeOnset dt c => Sys2Proof.Machine.execCauseOnset dt c s
  | .causeEnd dt c => Sys2Proof.Machine.execCauseEnd dt c s
  | .shedStepTaken dt => Sys2Proof.Machine.execShedStepTaken dt s
  | .shedStepUndone dt => Sys2Proof.Machine.execShedStepUndone dt s
  | .trialExpiry dt => Sys2Proof.Machine.execTrialExpiry dt s
  | .ferryCommand c seq p => Sys2Proof.Machine.execFerryCommand c seq p s
  | .ferryData c offset bytes => Sys2Proof.Machine.execFerryData c offset bytes s
  | .ferryFrameRx fr => Sys2Proof.Machine.execFerryFrameRx fr s
  | .ferryLinkLoss dt => Sys2Proof.Machine.execFerryLinkLoss dt s
  | .journalWrite dt => Sys2Proof.Machine.execJournalWrite dt s
  | .faultInjectTimeout dt q => Sys2Proof.Machine.execFaultInjectTimeout dt q s
  | .portFrame dt p stamp samples => Sys2Proof.Machine.execPortFrame dt p stamp samples s
  | .busFrame dt => Sys2Proof.Machine.execBusFrame dt s
  | .muteTimeout dt n => Sys2Proof.Machine.execMuteTimeout dt n s
  | .audioClockLoss x => Sys2Proof.Machine.execAudioClockLoss x s
  | .audioClockReturn p => Sys2Proof.Machine.execAudioClockReturn p s
  | .acquiringDone p => Sys2Proof.Machine.execAcquiringDone p s
  | .pcieConfigurationWrite f w => Sys2Proof.Machine.execPcieConfigurationWrite f w s
  | .linkPowerStateChange dt l => Sys2Proof.Machine.execLinkPowerStateChange dt l s
  | .holdNHigh => Sys2Proof.Machine.execHoldNHigh s
  | .supplyMonitorCrossing dt x => Sys2Proof.Machine.execSupplyMonitorCrossing dt x s
  | .powerRemoved => Sys2Proof.Machine.execPowerRemoved s
  | .qdrRetrainComplete dt q passed => Sys2Proof.Machine.execQdrRetrainComplete dt q passed s

end Sys2Proof.Machine
end

