-- ==== Sys2Proof/Machine/Step.lean ====
section
/-! DEFINITION. One step of the machine: the step at the front of the queue, or a tick of CLK_TIME. -/

namespace Sys2Proof.Machine

/-- The state after a step on an empty queue: one CLK_TIME tick passes (R342, log 2), and nothing happens while the device does not act. -/
def State.tick (s : State) : State := if acting s then advance 1 s else s

/-- Run the command at the front of the queue; on an empty queue a tick passes. -/
def step (s : State) : Host.Outcome State Fault Refusal :=
  match s.pending with
  | [] => .next s.tick
  | c :: r => exec c { s with pending := r }

/-- The state with the command a table word spells put at the front of its queue. -/
def State.withFetchWord (s : State) (nbits w : Nat) : State :=
  match decodeTableWord nbits w with
  | some c => { s with pending := c :: s.pending }
  | none => s

end Sys2Proof.Machine
end

