-- ==== Sys2Proof/Safety.lean ====
section
/-! DEFINITION. The terms that statements use: safe runs, and when a command stands ready to take effect. -/

namespace Sys2Proof

/-- The step from s answers a next state. -/
def Machine.State.Goes (s : Machine.State) : Prop := ∃ t, Machine.step s = .next t

/-- Every one of the next k steps answers a next state. -/
def Machine.State.Safe : Nat → Machine.State → Prop
  | 0, _ => True
  | k + 1, s => ∃ t, Machine.step s = .next t ∧ Machine.State.Safe k t

namespace Machine

/-- What the meaning of command c at the front of flow q is given; bs is its parameter block. -/
def cmdIn (q : FlowRef) (c : Cmd) (bs : List Byte) : CmdIn := { key := flowKey q, cmd := c, f := c.fn.val, p := c.packet, block := bs }

/-- Command c stands at the front of flow q, has not started, and passes the checks that come before its own, but for the cycle check (R4, R7, R48 to R50, R64, R73, R424, R458). -/
def takesTurn (code : Nat) (q : FlowRef) (c : Cmd) (s : State) : Bool :=
  (flowCmds s (flowKey q)).head? == some c && findCmd s c.serial == some (flowKey q, c) && !c.started && fwUp s && opcodeOf c.packet == code
    && !(c.ferry.isNone && (fnAt s c.fn.val).busy) && !loaderRefuses s c && !ferryDenied c
    && (match opInfo code with | some i => allowed i c && packetOk i c (flowKey q) | none => false)

/-- The same, and its device is in no pair that mirrors it (R388). -/
def inFront (code : Nat) (q : FlowRef) (c : Cmd) (s : State) : Bool := takesTurn code q c s && !(mirroredOp code && pairOn s)

/-- The same, and it closes no cycle (R70). -/
def atFront (code : Nat) (q : FlowRef) (c : Cmd) (s : State) : Bool := inFront code q c s && !c.cyclic

/-- The same, and the command reads no parameter block (R49). -/
def ready (code : Nat) (q : FlowRef) (c : Cmd) (s : State) : Bool :=
  atFront code q c s && (match opInfo code with | some i => !(indirectOf c.packet) || i.block == .answer | none => false)

/-- The same, and the command reads the parameter block bs: from host memory with CLK_PCIE running, or from the staging area of the Ferry port, which holds it whole (R49, R450). -/
def readyBlock (code : Nat) (q : FlowRef) (c : Cmd) (b : Bus) (bs : List Byte) (s : State) : Bool :=
  atFront code q c s && indirectOf c.packet && (match opInfo code with | some i => i.block != .answer | none => false)
    && (if c.ferry.isSome then (unstaged s (word c.packet 2) (word c.packet 4)).isNone && bs == stagedBytes s (word c.packet 2) (word c.packet 4)
        else !clockLost s .pcie && (match b.block with | .bytes xs => bs == Machine.slice xs 0 (word c.packet 4) | .error => false))

/-- The state in which a command that has read its block runs: a staging range is consumed (R450). -/
def blockTaken (c : Cmd) (s : State) : State := if c.ferry.isSome then unstage (word c.packet 2) (word c.packet 4) s else s

/-- The command reads a parameter block (R49). -/
def hasBlock (code : Nat) (c : Cmd) : Bool := indirectOf c.packet && (match opInfo code with | some i => i.block != .answer | none => false)

/-- Command c stands at the front as `takesTurn` says, its device is in a pair, its opcode is mirrored (R388), and bs is its parameter block, empty where it has none. -/
def pairReady (code : Nat) (q : FlowRef) (c : Cmd) (b : Bus) (bs : List Byte) (s : State) : Bool :=
  takesTurn code q c s && !c.cyclic && mirroredOp code && pairOn s
    && (if hasBlock code c then
          (if c.ferry.isSome then (unstaged s (word c.packet 2) (word c.packet 4)).isNone && bs == stagedBytes s (word c.packet 2) (word c.packet 4)
           else !clockLost s .pcie && (match b.block with | .bytes xs => bs == Machine.slice xs 0 (word c.packet 4) | .error => false))
        else bs == [])

/-- The state in which a mirrored command runs: its staging range, if it has one, is consumed (R450). -/
def pairTurn (code : Nat) (c : Cmd) (s : State) : State := if hasBlock code c then blockTaken c s else s

/-- The row of a mirrored opcode (Table 15.3). -/
def mirroredRow (code : Nat) (q : FlowRef) (b : Bus) : Option Instr :=
  [(0x0105, Instr.funcReset q b), (0x0201, .chanCreate q b), (0x0202, .chanConfig q b), (0x0203, .chanStart q b), (0x0204, .chanStop q b), (0x0205, .chanDestroy q b),
   (0x0206, .chanSetDelay q b), (0x0207, .keyRequest q b), (0x0301, .encProfile q b), (0x0302, .encGop q b), (0x0303, .rcConfig q b), (0x0304, .rcUpdate q b),
   (0x0305, .encRegion q b), (0x0306, .encSpec q b), (0x0307, .encMe q b), (0x0401, .outCreate q b), (0x0402, .layerSet q b), (0x0403, .layerClear q b),
   (0x0404, .composeCommit q b), (0x0405, .lighthouseLoad q b), (0x0406, .freshnessSet q b), (0x0407, .surfaceAlloc q b), (0x0408, .surfaceFree q b),
   (0x0409, .surfaceUpdate q b), (0x0501, .decOpen q b), (0x0502, .decClose q b), (0x0503, .decPolicy q b), (0x0803, .audRoute q b), (0x0804, .audMute q b)].lookup code

/-- Command c completes with ST_OK, progress n and result words r0 and r1 (R63). -/
def completes (c : Cmd) (b : Bus) (n r0 r1 : Nat) (s : State) : State := completeCmd c.serial stOk n r0 r1 [] b.recordOk s

/-- Command c has started and waits (R63): progress counts from its class's base, its result words are r0 and r1. -/
def waits (c : Cmd) (bs : List Byte) (w : Wait) (r0 r1 : Nat) (s : State) : State :=
  modCmd c.serial (fun x => { x with started := true, startTick := s.now, wait := w, base := progressBase s x.packet, result0 := r0, result1 := r1, block := bs }) s

/-- The answer block of c takes all of the bytes, by the host's memory or by the Ferry port (R58, R450). -/
def blockTakes (c : Cmd) (b : Bus) (bytes : List Byte) (s : State) : Bool :=
  decide (bytes.length ≤ word c.packet 4) && (c.ferry.isSome || (b.answerOk && !clockLost s .pcie))

/-- Command c answers its query with these bytes, whole (R58). -/
def answers (c : Cmd) (b : Bus) (bytes : List Byte) (r0 r1 : Nat) (s : State) : State :=
  completeCmd c.serial stOk bytes.length r0 r1 bytes b.recordOk (if c.ferry.isSome then s else emit s (.answer c.fn.val (dword c.packet 2) bytes))

/-- The answer block of c can be written: by the host's memory or by the Ferry port (R58, R450). -/
def blockOpen (c : Cmd) (b : Bus) (s : State) : Bool := c.ferry.isSome || (b.answerOk && !clockLost s .pcie)

/-- Command c answers with the first bytes that its block holds: ST_OK_PARTIAL, progress their number, RESULT0 the whole length (R58). -/
def answersPart (c : Cmd) (b : Bus) (bytes : List Byte) (s : State) : State :=
  completeCmd c.serial stOkPartial (word c.packet 4) bytes.length 0 (bytes.take (word c.packet 4)) b.recordOk
    (if c.ferry.isSome then s else emit s (.answer c.fn.val (dword c.packet 2) (bytes.take (word c.packet 4))))

/-- Command c answers its query: whole, or the part that its block holds (R58). -/
def replies (c : Cmd) (b : Bus) (bytes : List Byte) (s : State) : State :=
  if bytes.length ≤ word c.packet 4 then answers c b bytes 0 0 s else answersPart c b bytes s

/-- Command c ends with ST_FAULT because its answer block cannot be written (R58). -/
def answerFails (c : Cmd) (b : Bus) (s : State) : State :=
  completeCmd c.serial stFault 0 0 0 [] b.recordOk (journalAdd s 10 0 c.fn.val 7 (opcodeOf c.packet) ((tagOf c.packet).toNat))

/-- Command c is refused with status st, progress 0 and result words r0 and r1 (R64, R65). -/
def refuses (c : Cmd) (b : Bus) (st r0 r1 : Nat) (s : State) : State := completeCmd c.serial st 0 r0 r1 [] b.recordOk s

/-- The command names a channel of its own function, x as it stands: an ARMED channel whose start time has come counts as RUNNING (R72, R82). -/
def ownChan (c : Cmd) (x : Chan) (s : State) : Prop := ∃ y, chanAt s (chanOf c.packet) = some y ∧ x = startedChan s y ∧ y.owner.val = c.fn.val

/-- The command has no AT_PICTURE, or names a picture of channel x that has not started and is at most 65,536 after the latest (R50). -/
def picturesAhead (c : Cmd) (x : Chan) : Prop := atPictureOf c.packet = false ∨ (x.run.nextPic ≤ pictureOf c.packet ∧ pictureOf c.packet ≤ x.run.nextPic - 1 + 65536)

/-- The picture it waits for (R19). -/
def pictureAsked (c : Cmd) : Option Nat := if atPictureOf c.packet then some (pictureOf c.packet) else none

/-- A configuration command of opcode op that has passed its checks waits for the next Tide boundary, with its change listed behind those that wait (Table 1.5). -/
def heldForTide (op : Nat) (c : Cmd) (bs : List Byte) (s : State) : State :=
  waits c bs .tide 0 0 { s with net.pendCfg := s.net.pendCfg ++ [{ serial := c.serial, opcode := op, packet := c.packet, fn := c.fn }] }

/-- The queue quotas fit the device (R34): VFs 1 to 31 alone are listed, each once, and their totals stay within 1,024 SQs and 1,024 CQs. -/
def quotasFit (s : State) : Prop :=
  s.quotas.wf = true ∧ (∀ e ∈ s.quotas, 1 ≤ e.1 ∧ e.1 ≤ 31) ∧ sumBy (fun e => e.2.1) s.quotas ≤ 1024 ∧ sumBy (fun e => e.2.2) s.quotas ≤ 1024

/-- The commands fetched and not completed have serial numbers of their own, below the next one; the table of flows is sorted. -/
def serialsApart (s : State) : Prop :=
  s.flows.wf = true ∧ ((allCmds s).map (fun e => e.2.serial)).Nodup ∧ ∀ e ∈ allCmds s, e.2.serial < s.nextSerial

/-- The memory of every surface buffer has its canonical form. -/
def surfaceMemoryOk (s : State) : Prop := ∀ e ∈ s.surfs, ∀ m ∈ e.2.mem, Memory.wf m.2 = true

end Machine
end Sys2Proof
end

