-- ==== Sys2Proof/Certificates/Slice0/Obligations.lean ====
section
/-! DEFINITION. The statements for the provers: what the commands of the device do, what they leave unchanged, and what every step keeps. -/

open Sys2Proof Sys2Proof.Machine

/-- A step takes the command at the front of the queue and runs it on the rest (the model's queue, log 1). -/
def Obligations.StepRunsTheFront : Prop :=
  ∀ (c : Instr) (r : List Instr) (s : State), step { s with pending := c :: r } = exec c { s with pending := r }

/-- With nothing queued a tick of CLK_TIME passes (R342); that the idle step is a tick is the model's choice (log 2). -/
def Obligations.EmptyQueueTicks : Prop :=
  ∀ s : State, s.pending = [] →
    (acting s = false → step s = .next s) ∧
    (acting s = true → clockLost s .time = false → step s = .next { s with now := s.now + 1, time.local' := s.time.local' + s.time.addend }) ∧
    (acting s = true → clockLost s .time = true → step s = .next { s with now := s.now + 1 })

/-- Doorbells (R42, R44, R45, R498). -/
def Obligations.DoorbellsMoveTheRing : Prop :=
  (∀ (f : Fn) (n : Nat) (v : Word) (s : State), queueWritable s f.val = true →
    (∀ q, sqIn s f.val n = true → sqAt (fnAt s f.val) n = q → q.enable = true → v.toNat % 4096 < q.slots → v.toNat % 4096 ≠ q.tail →
      (q.active = false → exec (.dbSq f n v) s = .next (modSq f.val n (fun q => { q with tail := v.toNat % 4096 }) s)) ∧
      (q.active = true → ringCount q.slots q.head q.tail ≤ ringCount q.slots q.head (v.toNat % 4096) →
        exec (.dbSq f n v) s = .next (setArrivals (modSq f.val n (fun q => { q with tail := v.toNat % 4096 }) s) (sqFlowKey f.val q)
          (arrivalsOf s (sqFlowKey f.val q) ++ List.replicate (ringCount q.slots q.head (v.toNat % 4096) - ringCount q.slots q.head q.tail) n))) ∧
      (q.active = true → ringCount q.slots q.head (v.toNat % 4096) < ringCount q.slots q.head q.tail →
        exec (.dbSq f n v) s = .next (setArrivals (modSq f.val n (fun q => { q with tail := v.toNat % 4096 }) s) (sqFlowKey f.val q)
          (dropLastN n (ringCount q.slots q.head q.tail - ringCount q.slots q.head (v.toNat % 4096)) (arrivalsOf s (sqFlowKey f.val q)))))) ∧
    (∀ q, sqIn s f.val n = true → sqAt (fnAt s f.val) n = q → q.enable = true → q.slots ≤ v.toNat % 4096 →
      exec (.dbSq f n v) s = .next (modSq f.val n (fun q => { q with error := true }) s)) ∧
    (∀ q, sqAt (fnAt s f.val) n = q → (q.enable = false ∨ (v.toNat % 4096 = q.tail ∧ q.tail < q.slots)) → exec (.dbSq f n v) s = .next s) ∧
    (∀ q, cqIn s f.val n = true → cqAt (fnAt s f.val) n = q → q.enable = true → v.toNat % 4096 < q.slots → v.toNat % 4096 ≠ q.head →
      ringCount q.slots q.head (v.toNat % 4096) ≤ q.occ.length →
      exec (.dbCq f n v) s = .next (cqRelease f.val n (ringCount q.slots q.head (v.toNat % 4096)) s)) ∧
    (∀ q, cqIn s f.val n = true → cqAt (fnAt s f.val) n = q → q.enable = true →
      (q.slots ≤ v.toNat % 4096 ∨ (v.toNat % 4096 ≠ q.head ∧ q.occ.length < ringCount q.slots q.head (v.toNat % 4096))) →
      exec (.dbCq f n v) s = .next (modCq f.val n (fun q => { q with error := true }) s)) ∧
    (∀ q, cqAt (fnAt s f.val) n = q → (q.enable = false ∨ (v.toNat % 4096 = q.head ∧ q.head < q.slots)) → exec (.dbCq f n v) s = .next s)) ∧
  (∀ (f : Fn) (n : Nat) (v : Word) (s : State),
    ((queueWritable s f.val = false ∨ sqIn s f.val n = false) → exec (.dbSq f n v) s = .next s) ∧
    ((queueWritable s f.val = false ∨ cqIn s f.val n = false) → exec (.dbCq f n v) s = .next s))

/-- ENABLE of SQ_CTL and CQ_CTL (R35 to R39, R283; what re-enabling a CQ does to subscriptions is the model's choice, log 37). -/
def Obligations.QueuesAreEnabledAndDisabled : Prop :=
  ∀ (f : Fn) (n : Nat) (v : Word) (s : State), queueWritable s f.val = true →
    (sqIn s f.val n = true → ∀ q, sqAt (fnAt s f.val) n = q →
      (q.enable = false →
        (∀ good, (cqIn s f.val q.bindCq && (cqAt (fnAt s f.val) q.bindCq).active) = good →
          exec (.sqEnable f n v) s = .next (modSq f.val n (fun _ =>
            { q with enable := true, sizeM1 := v.toNat / 256 % 4096, lBase := q.base, slots := max (v.toNat / 256 % 4096 + 1) 2, cq := q.bindCq, flow := q.bindFlow,
                     head := 0, tail := 0, active := good, error := (q.error && !v.getLsbD 2) || !good }) s)) ∧
        exec (.sqDisable f n v) s = .next (modSq f.val n (fun _ => { q with sizeM1 := v.toNat / 256 % 4096, error := q.error && !v.getLsbD 2 }) s)) ∧
      (q.enable = true →
        exec (.sqEnable f n v) s = .next (if v.getLsbD 2 then modSq f.val n (fun q => { q with error := false }) s else s) ∧
        exec (.sqDisable f n v) s = .next (settleSqs f.val (modSq f.val n (fun _ => { q with enable := false, error := q.error && !v.getLsbD 2 })
          (setArrivals s (sqFlowKey f.val q) ((arrivalsOf s (sqFlowKey f.val q)).filter (fun m => m != n))))))) ∧
    (cqIn s f.val n = true → ∀ q, cqAt (fnAt s f.val) n = q → (v.getLsbD 2 = false ∨ q.holding = false) →
      (q.enable = false →
        exec (.cqEnable f n v) s = .next (cqSubsResume f.val n (modCq f.val n (fun _ =>
          { q with enable := true, sizeM1 := v.toNat / 256 % 4096, vecReg := v.toNat / 1048576 % 2048, lBase := q.base, slots := max (v.toNat / 256 % 4096 + 1) 2,
                   vector := v.toNat / 1048576 % 2048, head := 0, tail := 0, phase := true, occ := [], reserved := 0, held := [], holding := false,
                   active := decide (v.toNat / 1048576 % 2048 ≤ 15), error := (q.error && !v.getLsbD 2) || decide (15 < v.toNat / 1048576 % 2048) }) s)) ∧
        exec (.cqDisable f n v) s = .next (modCq f.val n (fun _ =>
          { q with sizeM1 := v.toNat / 256 % 4096, vecReg := v.toNat / 1048576 % 2048, error := q.error && !v.getLsbD 2 }) s)) ∧
      (q.enable = true →
        exec (.cqEnable f n v) s = .next (if v.getLsbD 2 then modCq f.val n (fun q => { q with error := false }) s else s) ∧
        exec (.cqDisable f n v) s = .next
          (if (fnAt s f.val).sqs.any (fun e => e.2.active && e.2.cq == n) then modCq f.val n (fun _ => { q with error := true }) s
           else cqSubsRelease f.val n (modCq f.val n (fun _ => { q with enable := false, active := false, error := q.error && !v.getLsbD 2 }) s))))

/-- ERROR clears, held records, FUNC_QUOTA (R34, R40, R46). -/
def Obligations.ErrorsClearAndQuotasSet : Prop :=
  (∀ (f : Fn) (n : Nat) (v : Word) (s : State),
    (v.getLsbD 0 = true → exec (.sqErrorClear f n v) s = exec (.sqEnable f n (v ||| 4)) s) ∧
    (v.getLsbD 0 = false → exec (.sqErrorClear f n v) s = exec (.sqDisable f n (v ||| 4)) s) ∧
    (queueWritable s f.val = true → sqIn s f.val n = true → (sqAt (fnAt s f.val) n).enable = true → v.getLsbD 0 = true →
      exec (.sqErrorClear f n v) s = .next (modSq f.val n (fun q => { q with error := false }) s))) ∧
  (∀ (f : Fn) (n : Nat) (v : Word) (failAt : Option Nat) (s : State), queueWritable s f.val = true → cqIn s f.val n = true → (cqAt (fnAt s f.val) n).enable = true → v.getLsbD 0 = true →
    ((cqAt (fnAt s f.val) n).holding = false → exec (.cqErrorClear f n v failAt) s = .next (modCq f.val n (fun q => { q with error := false }) s)) ∧
    ((cqAt (fnAt s f.val) n).holding = true → cqWritable (fnAt s f.val) n = true → (∀ k, failAt = some k → (cqAt (fnAt s f.val) n).held.length ≤ k) →
      ∃ t, exec (.cqErrorClear f n v failAt) s = .next t ∧ (cqAt (fnAt t f.val) n).error = false ∧ (cqAt (fnAt t f.val) n).holding = false ∧ (cqAt (fnAt t f.val) n).held = [] ∧
        (cqAt (fnAt t f.val) n).occ = (cqAt (fnAt s f.val) n).occ ++ (cqAt (fnAt s f.val) n).held.map (fun h => { announces := h.announces, sub := h.sub })) ∧
    (∀ k, (cqAt (fnAt s f.val) n).holding = true → cqWritable (fnAt s f.val) n = true → failAt = some k → k < (cqAt (fnAt s f.val) n).held.length →
      ∃ t, exec (.cqErrorClear f n v failAt) s = .next t ∧ (cqAt (fnAt t f.val) n).error = true ∧ (cqAt (fnAt t f.val) n).holding = true ∧
        (cqAt (fnAt t f.val) n).held = (cqAt (fnAt s f.val) n).held.drop k ∧
        (cqAt (fnAt t f.val) n).occ = (cqAt (fnAt s f.val) n).occ ++ ((cqAt (fnAt s f.val) n).held.take k).map (fun h => { announces := h.announces, sub := h.sub }))) ∧
  (∀ (f : Fn) (vf sq cq : Nat) (v : Word) (s : State),
    (hostUp s = true → f = 0 → s.vfEnable = false → 1 ≤ vf → vf ≤ 31 → sq = v.toNat % 2048 → cq = v.toNat / 65536 % 2048 →
      sumBy (fun e => e.2.1) (s.quotas.erase vf) + sq ≤ 1024 → sumBy (fun e => e.2.2) (s.quotas.erase vf) + cq ≤ 1024 →
      exec (.funcQuota f vf v) s = .next { s with quotas := if sq = 0 ∧ cq = 0 then s.quotas.erase vf else (s.quotas.erase vf).set vf (sq, cq) }) ∧
    (s.vfEnable = true ∨ f ≠ 0 → exec (.funcQuota f vf v) s = .next s))

/-- COMMAND_FETCH (R43, R45, R46, R70). -/
def Obligations.FetchAppendsTheCommand : Prop :=
  ∀ (f : Fn) (n : Nat) (s : State),
    (∀ (q : Sq) (p : Packet) (t : State), fetchable s f.val n = true → sqAt (fnAt s f.val) n = q →
      t = setFlow
        { modCq f.val q.cq (fun y => { y with reserved := y.reserved + 1 }) (modSq f.val n (fun q => { q with head := (q.head + 1) % q.slots })
            (setArrivals s (sqFlowKey f.val q) ((arrivalsOf s (sqFlowKey f.val q)).drop 1))) with nextSerial := s.nextSerial + 1 }
        (sqFlowKey f.val q)
        (flowCmds s (sqFlowKey f.val q) ++ [{ serial := s.nextSerial, fn := f, sq := n, sqHead := (q.head + 1) % q.slots, cq := q.cq, packet := p }]) →
      ((opcodeOf p ≠ 0x0104 ∨ closesCycle t s.nextSerial = false) → exec (.commandFetch f n (.packet p)) s = .next t) ∧
      (opcodeOf p = 0x0104 → closesCycle t s.nextSerial = true → exec (.commandFetch f n (.packet p)) s = .next (modCmd s.nextSerial (fun c => { c with cyclic := true }) t))) ∧
    (∀ q, fetchable s f.val n = true → sqAt (fnAt s f.val) n = q →
      exec (.commandFetch f n .error) s = .next (journalAdd (modSq f.val n (fun q => { q with error := true }) s) 10 0 f.val 0 n (q.lBase + 64 * q.head))) ∧
    (∀ slot, fetchable s f.val n = false → exec (.commandFetch f n slot) s = .next s)

/-- System commands (R25, R56, R57, R59, R60, R423, R427, R458; the refusal of a second cancellation is the model's choice, log 154). -/
def Obligations.SystemCommandsTakeEffect : Prop :=
  (∀ q b s c r, flowCmds s (flowKey q) = c :: r → fwUp s = true → c.started = false → opInfo (opcodeOf c.packet) = none →
    (c.ferry.isNone && (fnAt s c.fn.val).busy) = false →
    exec (.unknownOpcode q b) s = .next (completeCmd c.serial (if loaderRefuses s c then stBadState else stBadOpcode) 0 0 0 [] b.recordOk s)) ∧
  (∀ q b s c, ready 0x0100 q c s = true → exec (.nop q b) s = .next (completes c b 0 0 0 s)) ∧
  (∀ q b s c, ready 0x0102 q c s = true →
    (fld c.packet 2 2 0 = 0 → exec (.snapshotConfig q b) s = .next (waits c [] .tide 0 0 s)) ∧
    (4 < fld c.packet 2 2 0 → c.fn = 0 → exec (.snapshotConfig q b) s = .next (completeCmd c.serial stBadParam 0 0 0 [] b.recordOk s)) ∧
    (∀ t, 1 ≤ fld c.packet 2 2 0 → fld c.packet 2 2 0 ≤ 4 → c.fn = 0 →
      (s.time.periodChange = none → t = s) → (∀ x, s.time.periodChange = some x → t = endCmd x.serial stCancelled 0 0 { s with time.periodChange := none }) →
      (periodOfCode (fld c.packet 2 2 0) = s.time.period → exec (.snapshotConfig q b) s = .next (waits c [] .tide 0 0 t)) ∧
      (periodOfCode (fld c.packet 2 2 0) ≠ s.time.period → allIdle s = true → pairOn s = false →
        exec (.snapshotConfig q b) s = .next (waits c [] .period 0 0 { t with time.periodChange := some { period := periodOfCode (fld c.packet 2 2 0), serial := c.serial } })) ∧
      (periodOfCode (fld c.packet 2 2 0) ≠ s.time.period → allIdle s = false ∨ pairOn s = true →
        exec (.snapshotConfig q b) s = .next (completeCmd c.serial stBadState 0 0 0 [] b.recordOk s)))) ∧
  (∀ q b s c, ready 0x0106 q c s = true →
    (∀ i, flag c.packet 2 0 = false → fld c.packet 2 15 8 ≤ 7 → (eventPf0 (fld c.packet 2 15 8) = true → c.fn = 0) →
      (eventHasObject (fld c.packet 2 15 8) = true → eventOwner s (fld c.packet 2 15 8) (fld c.packet 3 15 0) = some c.fn.val) →
      (eventHasObject (fld c.packet 2 15 8) = false → fld c.packet 3 15 0 = 0) →
      cqIn s c.fn.val (fld c.packet 2 25 16) = true → (cqAt (fnAt s c.fn.val) (fld c.packet 2 25 16)).active = true →
      (fnAt s c.fn.val).subs.lowestFree 64 = some i → cqFree (fnAt s c.fn.val) (fld c.packet 2 25 16) ≠ 0 →
      exec (.eventSubscribe q b) s = .next (completes c b 1 i 0 (modFn s c.fn.val (fun x => { x with subs := x.subs.set i { kind := fld c.packet 2 15 8, object := fld c.packet 3 15 0, cq := fld c.packet 2 25 16, flow := flowOf c.packet, sq := c.sq, quiet := quietOf c.packet } })))) ∧
    (∀ u, flag c.packet 2 0 = true → (fnAt s c.fn.val).subs.get? (fld c.packet 4 5 0) = some u → u.cancelling = false → u.occupied = false →
      ∃ t, exec (.eventSubscribe q b) s = .next (completes c b 1 0 0 t) ∧ (fnAt t c.fn.val).subs.get? (fld c.packet 4 5 0) = none ∧
        (∀ j, j ≠ fld c.packet 4 5 0 → (fnAt t c.fn.val).subs.get? j = (fnAt s c.fn.val).subs.get? j) ∧
        t.chans = s.chans ∧ t.outs = s.outs ∧ t.surfs = s.surfs ∧ t.decs = s.decs ∧ t.flows = s.flows) ∧
    (∀ u, flag c.packet 2 0 = true → (fnAt s c.fn.val).subs.get? (fld c.packet 4 5 0) = some u → u.cancelling = false → u.occupied = true →
      exec (.eventSubscribe q b) s = .next (waits c [] (.slotRelease (fld c.packet 4 5 0)) 0 0
        (modFn s c.fn.val (fun x => { x with subs := x.subs.modify (fld c.packet 4 5 0) (fun u => { u with cancelling := true }) })))) ∧
    (flag c.packet 2 0 = true → (fnAt s c.fn.val).subs.get? (fld c.packet 4 5 0) = none →
      exec (.eventSubscribe q b) s = .next (completeCmd c.serial stBadParam 0 0 0 [] b.recordOk s)) ∧
    (∀ u, flag c.packet 2 0 = true → (fnAt s c.fn.val).subs.get? (fld c.packet 4 5 0) = some u → u.cancelling = true →
      exec (.eventSubscribe q b) s = .next (completeCmd c.serial stBadState 0 0 0 [] b.recordOk s))) ∧
  (∀ q b s c, ready 0x0105 q c s = true →
    (fld c.packet 2 4 0 ≠ 0 →
      exec (.funcReset q b) s = .next (resetAsk (fld c.packet 2 4 0) 1
        (waits c [] (.funcReset (fld c.packet 2 4 0) ((fnAt s (fld c.packet 2 4 0)).busy || s.pair.resets.any (fun e => e.1 == fld c.packet 2 4 0))) 0 0 s))) ∧
    (fld c.packet 2 4 0 = 0 → exec (.funcReset q b) s = .next (completeCmd c.serial stBadParam 0 0 0 [] b.recordOk s)))

/-- FENCE_SIGNAL, FENCE_WAIT and its timeout (R66 to R70). -/
def Obligations.FencesRiseBindAndRelease : Prop :=
  (∀ q b s c, ready 0x0103 q c s = true →
    (fenceAt s c.fn.val (fld c.packet 2 9 0)).value < dword c.packet 3 →
    ((fenceAt s c.fn.val (fld c.packet 2 9 0)).flow = none ∨ (fenceAt s c.fn.val (fld c.packet 2 9 0)).flow = some (flowKey q % 256)) →
    exec (.fenceSignal q b) s = .next (completes c b 0 (dword c.packet 3 % 2 ^ 32) (dword c.packet 3 / 2 ^ 32)
      (resolveFences c.fn.val (fld c.packet 2 9 0)
        (modFn s c.fn.val (fun x => { x with fences := x.fences.set (fld c.packet 2 9 0) { value := dword c.packet 3, flow := some (flowKey q % 256) } }))))) ∧
  (∀ q b s c, ready 0x0103 q c s = true →
    (dword c.packet 3 ≤ (fenceAt s c.fn.val (fld c.packet 2 9 0)).value ∨
      ((fenceAt s c.fn.val (fld c.packet 2 9 0)).flow.isSome = true ∧ (fenceAt s c.fn.val (fld c.packet 2 9 0)).flow ≠ some (flowKey q % 256))) →
    exec (.fenceSignal q b) s = .next (completeCmd c.serial stFence 0 ((fenceAt s c.fn.val (fld c.packet 2 9 0)).value % 2 ^ 32)
      ((fenceAt s c.fn.val (fld c.packet 2 9 0)).value / 2 ^ 32) [] b.recordOk s)) ∧
  (∀ q b s c, ready 0x0104 q c s = true → (c.fn = 0 ∨ fld c.packet 2 20 16 = c.fn.val) →
    (word c.packet 5 ≤ 60000 → dword c.packet 3 ≤ (fenceAt s (fld c.packet 2 20 16) (fld c.packet 2 9 0)).value →
      exec (.fenceWait q b) s = .next (completes c b 0 ((fenceAt s (fld c.packet 2 20 16) (fld c.packet 2 9 0)).value % 2 ^ 32)
        ((fenceAt s (fld c.packet 2 20 16) (fld c.packet 2 9 0)).value / 2 ^ 32) s)) ∧
    (word c.packet 5 ≤ 60000 → (fenceAt s (fld c.packet 2 20 16) (fld c.packet 2 9 0)).value < dword c.packet 3 →
      exec (.fenceWait q b) s = .next (waits c [] (.fence (fld c.packet 2 9 0) (Fin.ofNat 32 (fld c.packet 2 20 16)) (dword c.packet 3)
        (s.now + 500000 * (if word c.packet 5 = 0 then 1000 else word c.packet 5))) 0 0 s)) ∧
    (60000 < word c.packet 5 → exec (.fenceWait q b) s = .next (completeCmd c.serial stBadParam 0 0 0 [] b.recordOk s))) ∧
  (∀ q b s c, inFront 0x0104 q c s = true → indirectOf c.packet = false → (c.fn = 0 ∨ fld c.packet 2 20 16 = c.fn.val) → c.cyclic = true →
    exec (.fenceWait q b) s = .next (completeCmd c.serial stCycle 0 ((fenceAt s (fld c.packet 2 20 16) (fld c.packet 2 9 0)).value % 2 ^ 32)
      ((fenceAt s (fld c.packet 2 20 16) (fld c.packet 2 9 0)).value / 2 ^ 32) [] b.recordOk s)) ∧
  (∀ dt q s c r n o want deadline, flowCmds s (flowKey q) = c :: r → c.wait = .fence n o want deadline → fwUp s = true →
    (deadline < s.now + dt →
      exec (.fenceWaitTimeout dt q) s = .next (completeCmd c.serial stTimeout 0 ((fenceAt s o.val n).value % 2 ^ 32) ((fenceAt s o.val n).value / 2 ^ 32) [] true (advance dt s))) ∧
    (s.now + dt ≤ deadline → exec (.fenceWaitTimeout dt q) s = .next (advance dt s)))

/-- The check-value units (R431 to R436). -/
def Obligations.CheckValueUnitsFollowTheirOwner : Prop :=
  (∀ (f : Fn) (u : Fin 12) (v : Word) (s : State) (x : CrcUnit), hostUp s = true → crcAt s u.val = x → x.owner = f.val → (f ≠ 0 ∨ bitsOf v.toNat 20 16 = x.owner) →
    exec (.crcInit f u v) s = .next (setCrc u.val { x with
      alg := if bitsOf v.toNat 1 0 = 3 then x.alg else bitsOf v.toNat 1 0, dataBytes := bitsOf v.toNat 7 4, foldBytes := bitsOf v.toNat 11 8,
      value := BitVec.ofNat 64 (crcInitial (if bitsOf v.toNat 1 0 = 3 then x.alg else bitsOf v.toNat 1 0)), heldHi := none } s)) ∧
  (∀ (u : Fin 12) (v : Word) (s : State), exec (.crcInit 0 u v) s = exec (.crcOwnerChange 0 u (v ||| 0x1000)) s) ∧
  (∀ (f : Fn) (u : Fin 12) (v : Word) (s : State) (x : CrcUnit), hostUp s = true → crcAt s u.val = x → x.owner = f.val → (f ≠ 0 ∨ bitsOf v.toNat 20 16 = x.owner) → v.getLsbD 12 = false →
    exec (.crcOwnerChange f u v) s = .next (setCrc u.val { x with
      alg := if bitsOf v.toNat 1 0 = 3 then x.alg else bitsOf v.toNat 1 0, dataBytes := bitsOf v.toNat 7 4, foldBytes := bitsOf v.toNat 11 8 } s)) ∧
  (∀ (u : Fin 12) (v : Word) (s : State) (x : CrcUnit), hostUp s = true → crcAt s u.val = x → bitsOf v.toNat 20 16 ≠ x.owner → x.owner ≠ 0 →
    exec (.crcOwnerChange 0 u v) s = .next (setCrc u.val { x with
      owner := bitsOf v.toNat 20 16, dataBytes := 4, foldBytes := 8,
      value := BitVec.ofNat 64 (crcInitial x.alg), heldHi := none } s)) ∧
  (∀ (u : Fin 12) (v : Word) (s : State) (x : CrcUnit), hostUp s = true → crcAt s u.val = x → bitsOf v.toNat 20 16 ≠ x.owner → x.owner = 0 →
    exec (.crcOwnerChange 0 u v) s = .next (setCrc u.val { x with
      owner := bitsOf v.toNat 20 16, dataBytes := 4, foldBytes := 8,
      alg := if bitsOf v.toNat 1 0 = 3 then x.alg else bitsOf v.toNat 1 0,
      value := BitVec.ofNat 64 (crcInitial (if bitsOf v.toNat 1 0 = 3 then x.alg else bitsOf v.toNat 1 0)), heldHi := none } s)) ∧
  (∀ (f : Fn) (u : Fin 12) (v : DWord) (s : State) (x : CrcUnit), hostUp s = true → crcAt s u.val = x → x.owner = f.val →
    exec (.crcRunningWrite f u false 8 v) s = .next (setCrc u.val { x with value := crcWidth x.alg v.toNat, heldHi := none } s) ∧
    (x.alg ≠ 0 → exec (.crcRunningWrite f u true 4 v) s = .next (setCrc u.val { x with heldHi := some (BitVec.ofNat 32 v.toNat) } s)) ∧
    (x.alg = 0 → exec (.crcRunningWrite f u true 4 v) s = .next s) ∧
    (x.heldHi = none →
      exec (.crcRunningWrite f u false 4 v) s = .next (setCrc u.val { x with value := crcWidth x.alg (v.toNat % 2 ^ 32 + x.value.toNat / 2 ^ 32 * 2 ^ 32), heldHi := none } s)) ∧
    (∀ h, x.heldHi = some h →
      exec (.crcRunningWrite f u false 4 v) s = .next (setCrc u.val { x with value := crcWidth x.alg (v.toNat % 2 ^ 32 + h.toNat * 2 ^ 32), heldHi := none } s)) ∧
    exec (.crcFold f u 8 v) s = .next (setCrc u.val { x with value := BitVec.ofNat 64 (crcRun x.alg x.value.toNat (le (if x.foldBytes = 0 then 8 else min x.foldBytes 8) v.toNat)) } s) ∧
    exec (.crcData f u 8 v) s = .next (setCrc u.val { x with value := BitVec.ofNat 64 (crcRun x.alg x.value.toNat (le (if x.dataBytes = 0 then 8 else min x.dataBytes 8) v.toNat)) } s) ∧
    (∀ bytes, exec (.crcDataPort f u bytes) s = .next (setCrc u.val { x with value := BitVec.ofNat 64 (crcRun x.alg x.value.toNat bytes) } s)))

/-- What a check-value unit ignores (R431, R435, R491, R492). -/
def Obligations.CheckValueUnitsIgnoreStrangers : Prop :=
  ∀ (f : Fn) (u : Fin 12) (v : DWord) (size : Nat) (hi : Bool) (bytes : List Byte) (s : State),
    ((crcAt s u.val).owner ≠ f.val →
      exec (.crcRunningWrite f u hi size v) s = .next s ∧ exec (.crcFold f u size v) s = .next s ∧ exec (.crcData f u size v) s = .next s ∧
      exec (.crcDataPort f u bytes) s = .next s ∧
      (f ≠ 0 → ∀ w : Word, exec (.crcInit f u w) s = .next s ∧ exec (.crcOwnerChange f u w) s = .next s)) ∧
    (size ≠ 8 → exec (.crcFold f u size v) s = .next s ∧ exec (.crcData f u size v) s = .next s)

/-- Latching reads (R5, R344, R362, R491), reads of the other windows (R2, R76, R499, R500) and TIME_ADDEND (R343). -/
def Obligations.TimeRegistersLatchAndClamp : Prop :=
  ∀ (f : Fn) (s : State), hostUp s = true →
    exec (.timeSecLo f) s = .next { modFn s f.val (fun x => { x with timeLatch := (instantNs s.time.local' / 1000000000, instantNs s.time.local' % 1000000000, s.time.local' % 2 ^ 32) }) with
        outbox := .read f.val 0x060000 (instantNs s.time.local' / 1000000000 % 2 ^ 32) :: s.outbox,
        readData := some (instantNs s.time.local' / 1000000000 % 2 ^ 32) } ∧
    (∀ (n : Fin 4), ∃ t, exec (.timeCaptRead f n) s = .next t ∧
      t.readData = some ((s.time.capt.getD n.val {}).ns + (s.time.capt.getD n.val {}).overrun.toNat * 2 ^ 30 + (s.time.capt.getD n.val {}).valid.toNat * 2 ^ 31) ∧
      (fnAt t f.val).captLatch.get? n.val = some ((s.time.capt.getD n.val {}).sec % 2 ^ 32, (s.time.capt.getD n.val {}).sec / 2 ^ 32 % 65536, (s.time.capt.getD n.val {}).count) ∧
      t.time.capt.get? n.val = some { s.time.capt.getD n.val {} with overrun := false, valid := false, src := false } ∧
      (∀ m, m ≠ n.val → t.time.capt.get? m = s.time.capt.get? m ∧ (fnAt t f.val).captLatch.get? m = (fnAt s f.val).captLatch.get? m) ∧
      t.time.local' = s.time.local' ∧ t.chans = s.chans ∧ t.outs = s.outs ∧ t.flows = s.flows ∧ t.irq = s.irq) ∧
    (∀ offset, isLo offset = true →
      (∃ t, exec (.loReadLatch f ⟨.ctl, offset, 4⟩) s = .next t ∧ t.readData = some (regValue f.val offset s) ∧
        (fnAt t f.val).latches.get? offset = some (BitVec.ofNat 32 (upperHalf f.val offset s)) ∧
        (∀ j, j ≠ offset → (fnAt t f.val).latches.get? j = (fnAt s f.val).latches.get? j) ∧ t.time = s.time ∧ t.chans = s.chans ∧ t.flows = s.flows ∧ t.crc = s.crc) ∧
      (offset % 8 = 0 → ∃ t, exec (.loReadLatch f ⟨.ctl, offset, 8⟩) s = .next t ∧
        t.readData = some (regValue f.val offset s + upperHalf f.val offset s % 2 ^ 32 * 2 ^ 32) ∧ t.time = s.time ∧ t.chans = s.chans ∧ t.flows = s.flows ∧ t.crc = s.crc)) ∧
    (∃ o, exec (.loReadLatch f ⟨.snap, 8, 8⟩) s = .next { s with outbox := o :: s.outbox, readData := some ((fnAt s f.val).snapTide % 2 ^ 64) }) ∧
    (∀ offset size, ∃ o, exec (.loReadLatch f ⟨.surf, offset, size⟩) s =
      .next { s with outbox := o :: s.outbox, readData := some (ofLe ((List.range size).map (fun i => (surfByte s f.val (offset + i)).1))) }) ∧
    (∃ o, exec (.loReadLatch f ⟨.config, 0, 4⟩) s = .next { s with outbox := o :: s.outbox, readData := some 0x96161FA3, freeCtr := s.freeCtr + 1 }) ∧
    (∀ (size : Nat) (v : DWord),
      (f = 0 → size = 8 → s.time.ptp.cfg.role = false → (fnAt s 0).busy = false →
        exec (.timeAddend f size v) s = .next { s with time.addend := min (max (v.toNat % 2 ^ 36) 0x1FFBE76C9) 0x200418937 }) ∧
      ((f ≠ 0 ∨ size ≠ 8 ∨ s.time.ptp.cfg.role = true) → exec (.timeAddend f size v) s = .next s))

/-- Registers of PF0, and FUNC_RESET_CTL (R259, R264, R265, R267, R423, R475, R489). -/
def Obligations.PrivilegedRegistersTakeEffect : Prop :=
  ∀ (s : State), hostUp s = true →
    (∀ v : Word, v.getLsbD 0 = true → v.getLsbD 2 = false → s.fab.pendingArbs = [] →
      exec (.arbCommit 0 v) s = .next { s with fab := { s.fab with staged := s.fab.shadow, pendingArbs := List.range 48 } }) ∧
    (∀ v : Word, v.getLsbD 0 = true → v.getLsbD 2 = false → s.fab.pendingArbs ≠ [] → exec (.arbCommit 0 v) s = .next { s with fab.commitLost := true }) ∧
    (∀ v : Word, v.getLsbD 0 = false → v.getLsbD 2 = true → exec (.arbCommit 0 v) s = .next { s with fab.commitLost := false }) ∧
    (∀ v : Word, v.getLsbD 0 = false → exec (.starvedClear 0 v) s = .next s ∧ exec (.fabDecerrClear 0 v) s = .next s ∧ exec (.glbReset 0 v) s = .next s) ∧
    (∀ (f : Fn) (v : Word), f ≠ 0 → exec (.arbCommit f v) s = .next s ∧ exec (.starvedClear f v) s = .next s ∧ exec (.fabDecerrClear f v) s = .next s ∧ exec (.glbReset f v) s = .next s) ∧
    (∀ v : Word, v.getLsbD 0 = true → exec (.starvedClear 0 v) s = .next { s with fab := { s.fab with starved := false, multi := false, starveCount := 0 } }) ∧
    (∀ v : Word, v.getLsbD 0 = true → exec (.fabDecerrClear 0 v) s = .next { s with fab := { s.fab with decValid := false, decCount := 0 } }) ∧
    (∀ v : Word, v.getLsbD 0 = true → v.toNat / 65536 = 0x5752 →
      ∃ t, exec (.glbReset 0 v) s = .next t ∧ t.power.warmPending = some .glbReset ∧ t.power.ready = false ∧ acting t = false) ∧
    (∀ v : Word, v.toNat / 65536 ≠ 0x5752 → exec (.glbReset 0 v) s = .next s) ∧
    exec (.shedStateRead 0) s = .next { s with power.peakReg := 0, outbox := .read 0 0x090000 (shedStateValue s) :: s.outbox, readData := some (shedStateValue s) } ∧
    (∀ f : Fn, f ≠ 0 → exec (.shedStateRead f) s = .next { s with outbox := .read f.val 0x090000 0 :: s.outbox, readData := some 0 }) ∧
    (∀ (f : Fn) (v : Word), f ≠ 0 → v.getLsbD 0 = true → pairOn s = false → exec (.funcResetCtl f v) s = .next (resetBegin f.val 2 s)) ∧
    (∀ (f : Fn) (v : Word), f ≠ 0 → v.getLsbD 0 = true → isStandby s = true → exec (.funcResetCtl f v) s = .next { s with pair.orphanRecords := inc32 s.pair.orphanRecords }) ∧
    (∀ (f : Fn) (v : Word), v.getLsbD 0 = false → exec (.funcResetCtl f v) s = .next s) ∧
    (∀ v : Word, exec (.funcResetCtl 0 v) s = .next s)

/-- REGISTER_WRITE, CTLWIN_BAD_ACCESS, PCIe configuration writes, link states (R6, R40, R46, R260, R291, R491, R492, R501). -/
def Obligations.RegisterAndConfigurationWrites : Prop :=
  ∀ (s : State), hostUp s = true →
    (∀ (a : Nat) (v : DWord), a ≤ 130 → exec (.registerWrite 0 (0x53400 + 4 * a) 4 v) s = .next (modArb s a (fun x => { x with limit := v.toNat % 65536 }))) ∧
    (∀ (v : DWord), exec (.registerWrite 0 0x60018 4 v) s =
      .next { s with time.jumpLimit := v.toNat % 2 ^ 30, time.refused := s.time.refused && !(v.getLsbD 31) }) ∧
    (∀ (f : Fn) (n : Nat) (v : DWord), n < 1024 → sqIn s f.val n = true → (fnAt s f.val).busy = false → (sqAt (fnAt s f.val) n).enable = false →
      exec (.registerWrite f (0x2000C + 32 * n) 4 v) s = .next (modSq f.val n (fun q => { q with bindCq := v.toNat % 1024, bindFlow := v.toNat / 65536 % 256 }) s) ∧
      ∃ t, exec (.registerWrite f (0x20000 + 32 * n) 8 v) s = .next t ∧ sqAt (fnAt t f.val) n = { sqAt (fnAt s f.val) n with base := v.toNat / 4096 * 4096 } ∧
        (∀ m, m ≠ n → sqAt (fnAt t f.val) m = sqAt (fnAt s f.val) m) ∧ t.chans = s.chans ∧ t.flows = s.flows) ∧
    (∀ (f : Fn) (n : Nat) (v : DWord), n < 16 →
      ∃ t, exec (.registerWrite f (0xA0008 + 16 * n) 4 v) s = .next t ∧ (msixAt (fnAt t f.val) n).data = v.toNat % 2 ^ 32 ∧ t.chans = s.chans ∧ t.flows = s.flows) ∧
    (∀ (f : Fn) (offset : Nat) (v : DWord), 0xA1008 ≤ offset → offset % 4 = 0 → exec (.registerWrite f offset 4 v) s = .next s) ∧
    (∀ (f : Fn) (offset size : Nat), ctlwinOk offset size = false →
      exec (.ctlwinBadAccess f offset size true) s = .next (modFn (recordDecodeError 25 true (Config.ctlwinBus f.val offset).toNat s) f.val (fun x => { x with aer := true })) ∧
      exec (.ctlwinBadAccess f offset size false) s = .next (emit (recordDecodeError 25 false (Config.ctlwinBus f.val offset).toNat s) (.unsupported f.val offset)) ∧
      (∀ v, exec (.registerWrite f offset size v) s = exec (.ctlwinBadAccess f offset size true) s)) ∧
    (∀ (f : Fn) (b : Bool), (∃ t, exec (.pcieConfigurationWrite f (.busMaster b)) s = .next t ∧ (fnAt t f.val).busMaster = b ∧ t.chans = s.chans ∧ t.flows = s.flows) ∧
      (∃ t, exec (.pcieConfigurationWrite f (.msixEnable b)) s = .next t ∧ (fnAt t f.val).msixEnable = b ∧ t.chans = s.chans ∧ t.flows = s.flows) ∧
      (∃ t, exec (.pcieConfigurationWrite f (.functionMask b)) s = .next t ∧ (fnAt t f.val).functionMask = b ∧ t.chans = s.chans ∧ t.flows = s.flows) ∧
      (∀ p, ∃ t, exec (.pcieConfigurationWrite f (.powerState b p)) s = .next t ∧ (fnAt t f.val).d3hot = b ∧ (fnAt t f.val).pmeEn = p ∧ t.chans = s.chans ∧ t.flows = s.flows) ∧
      (∀ n, ∃ t, exec (.pcieConfigurationWrite f (.ringWrites n b)) s = .next t ∧ cqWritable (fnAt t f.val) n = !b ∧ (∀ m, m ≠ n → cqWritable (fnAt t f.val) m = cqWritable (fnAt s f.val) m) ∧
        t.chans = s.chans ∧ t.flows = s.flows) ∧
      exec (.pcieConfigurationWrite f (.vfEnable b)) s = .next (if f = 0 then { s with vfEnable := b } else s)) ∧
    (∀ (dt : Nat) (l : LinkState), l ≠ .l0 → exec (.linkPowerStateChange dt l) s = .next { advance dt s with power.link := l }) ∧
    (∀ dt : Nat, (∀ e ∈ s.fns, (fnAt s e.1).busy = false) → ∃ t, exec (.linkPowerStateChange dt .l0) s = .next t ∧ t.power.link = .l0 ∧ t.now = s.now + dt ∧
      t.chans = s.chans ∧ t.outs = s.outs ∧ t.surfs = s.surfs ∧ t.decs = s.decs ∧ t.flows = s.flows ∧
      (∀ f n, (cqAt (fnAt s f) n).holding = false → cqWritable (fnAt s f) n = true → (cqAt (fnAt t f) n).held = []))

/-- SOURCE_LEVEL_CHANGE, IRQ_CLAIM, IRQ_DONE, IRQ_BADDONE_CNT (R284, R285, R289). -/
def Obligations.SourcesAreSampledClaimedAndCompleted : Prop :=
  (∀ (n : Source) (s : State), acting s = true → clockLost s .ctl = false →
    ∃ u, ((endOpen n.val && blockLevel s n.val && (srcAt s n.val).level) = false → u = s) ∧
      ((endOpen n.val && blockLevel s n.val && (srcAt s n.val).level) = true → u = spendFree s ∨ u = endCondition n.val (spendFree s)) ∧
      exec (.sourceLevelChange n) s = .next (irqSettle s (modSrc n.val (fun x => { x with
        level := blockLevel u n.val, repend := x.repend || (blockLevel u n.val && !x.level && x.claimer.isSome) }) u))) ∧
  (∀ (t : Fin 40) (n : Nat) (s : State), targetUp s t.val = true → claimChoice s t.val = some n →
    ∃ u, exec (.irqClaim t) s = .next u ∧ u.readData = some (n + 2 ^ 31) ∧ (srcAt u n).claimer = some t.val ∧ (srcAt u n).pendSw = false ∧ (srcAt u n).repend = false ∧
      (∀ m, m ≠ n → (srcAt u m).claimer = (srcAt s m).claimer) ∧ u.chans = s.chans ∧ u.flows = s.flows) ∧
  (∀ (t : Fin 40) (s : State), targetUp s t.val = true → claimChoice s t.val = none →
    exec (.irqClaim t) s = .next { s with outbox := .read t.val 0x040400 0 :: s.outbox, readData := some 0 }) ∧
  (∀ (t : Fin 40) (v : Word) (s : State), targetUp s t.val = true → (t.val < 32 → (fnAt s t.val).busy = false) → (srcAt s (v.toNat % 1024)).claimer = some t.val →
    ∃ u, exec (.irqDone t v) s = .next u ∧ (srcAt u (v.toNat % 1024)).claimer = none ∧ (srcAt u (v.toNat % 1024)).pendSw = (srcAt s (v.toNat % 1024)).repend ∧
      (srcAt u (v.toNat % 1024)).repend = false ∧ (∀ m, m ≠ v.toNat % 1024 → (srcAt u m).claimer = (srcAt s m).claimer) ∧ u.irq.badCount = s.irq.badCount ∧ u.chans = s.chans ∧ u.flows = s.flows) ∧
  (∀ (t : Fin 40) (v : Word) (s : State), targetUp s t.val = true → (t.val < 32 → (fnAt s t.val).busy = false) → (srcAt s (v.toNat % 1024)).claimer ≠ some t.val →
    ∃ u, exec (.irqDone t v) s = .next u ∧ u.irq.badCount.getD t.val 0 = min (s.irq.badCount.getD t.val 0 + 1) 65535 ∧ u.irq.badLast.getD t.val 0 = v.toNat % 1024 ∧
      (∀ m, (srcAt u m).claimer = (srcAt s m).claimer) ∧ u.chans = s.chans ∧ u.flows = s.flows) ∧
  (∀ (f : Fn) (s : State), hostUp s = true →
    exec (.irqBaddoneCnt f) s = .next { s with
      irq.badCount := s.irq.badCount.set f.val 0,
      outbox := .read f.val 0x040408 (s.irq.badCount.getD f.val 0 + s.irq.badLast.getD f.val 0 * 65536) :: s.outbox,
      readData := some (s.irq.badCount.getD f.val 0 + s.irq.badLast.getD f.val 0 * 65536) })

/-- The choice of a claim (R289). -/
def Obligations.ClaimChoosesHighestPriority : Prop :=
  ∀ (s : State) (t : Nat),
    (∀ n, claimChoice s t = some n → n ∈ readyFor s t ∧ ∀ m ∈ readyFor s t, (srcAt s m).prio ≤ (srcAt s n).prio ∧
      (s.irq.srcs.wf = true → (srcAt s m).prio = (srcAt s n).prio → n ≤ m)) ∧
    (claimChoice s t = none → readyFor s t = [])

/-- IRQ_MASK_SET, IRQ_MASK_CLR, IRQ_PEND_SET, IRQ_PEND_CLR, IRQ_ROUTE (R284, R287, R295). -/
def Obligations.MasksPendsAndRoutesChangeOwnedSources : Prop :=
  ∀ (f : Fn) (s : State), irqWritable s f.val = true →
    (∀ (k : Fin 32) (v : Word),
      (∃ t, exec (.irqMaskSet f k v) s = .next t ∧ t.chans = s.chans ∧ t.flows = s.flows ∧
        ∀ n, (srcAt t n).masked = ((ownedBits s f.val k.val v.toNat).contains n || (srcAt s n).masked) ∧ (srcAt t n).claimer = (srcAt s n).claimer ∧ (srcAt t n).level = (srcAt s n).level) ∧
      (∃ t, exec (.irqMaskClr f k v) s = .next t ∧ t.chans = s.chans ∧ t.flows = s.flows ∧
        ∀ n, (srcAt t n).masked = (!((ownedBits s f.val k.val v.toNat).contains n) && (srcAt s n).masked) ∧ (srcAt t n).claimer = (srcAt s n).claimer ∧ (srcAt t n).level = (srcAt s n).level) ∧
      (∃ t, exec (.irqPendSet f k v) s = .next t ∧ t.chans = s.chans ∧ t.flows = s.flows ∧
        ∀ n, (srcAt t n).pendSw = (((ownedBits s f.val k.val v.toNat).contains n && (srcAt s n).claimer.isNone) || (srcAt s n).pendSw) ∧
          (srcAt t n).repend = (((ownedBits s f.val k.val v.toNat).contains n && (srcAt s n).claimer.isSome) || (srcAt s n).repend) ∧ (srcAt t n).claimer = (srcAt s n).claimer) ∧
      (∃ t, exec (.irqPendClr f k v) s = .next t ∧ t.chans = s.chans ∧ t.flows = s.flows ∧
        ∀ n, (srcAt t n).pendSw = (!((ownedBits s f.val k.val v.toNat).contains n) && (srcAt s n).pendSw) ∧
          (srcAt t n).repend = (!((ownedBits s f.val k.val v.toNat).contains n) && (srcAt s n).repend) ∧ (srcAt t n).claimer = (srcAt s n).claimer)) ∧
    (∀ (n : Source) (v : Word), srcOwner s n.val = some f.val →
      ∃ t, exec (.irqRoute f n v) s = .next t ∧ (srcAt t n.val).prio = v.toNat / 256 % 8 ∧
        (srcAt t n.val).vector = (if n.val < 512 then v.toNat / 65536 % 16 else (srcAt s n.val).vector) ∧
        (srcAt t n.val).target = (if n.val < 56 ∧ (v.toNat % 64 = 0 ∨ (32 ≤ v.toNat % 64 ∧ v.toNat % 64 ≤ 39)) then v.toNat % 64 else (srcAt s n.val).target) ∧
        (∀ m, m ≠ n.val → (srcAt t m).prio = (srcAt s m).prio) ∧ t.chans = s.chans ∧ t.flows = s.flows)

/-- MSI_X_MESSAGE, MODERATION_TIMER_EXPIRY, REDIRECTION, FALLBACK_COMPLETION (R290 to R293). -/
def Obligations.MessagesModerationAndRedirection : Prop :=
  (∀ (f : Fn) (v : Fin 16) (s : State), hostUp s = true → clockLost s .ctl = false → s.power.link = .l0 → (fnAt s f.val).notified.getLsbD v.val = false →
    vectorReady s f.val v.val = true → (fnAt s f.val).timers.has v.val = false → deliverable s f.val v.val = true →
    ∃ t, exec (.msiXMessage f v) s = .next t ∧
      t.outbox = .msix f.val v.val (msixAt (fnAt s f.val) v.val).addr (msixAt (fnAt s f.val) v.val).data :: s.outbox ∧
      (fnAt t f.val).notified = (fnAt s f.val).notified ||| BitVec.ofNat 16 (2 ^ v.val) ∧
      (fnAt t f.val).timers = (if (fnAt s f.val).modDelay.getD v.val 0 = 0 then (fnAt s f.val).timers
        else (fnAt s f.val).timers.set v.val (s.now + 500 * (fnAt s f.val).modDelay.getD v.val 0)) ∧
      (∀ g, g ≠ f.val → fnAt t g = fnAt s g) ∧ t = { s with fns := t.fns, outbox := t.outbox }) ∧
  (∀ (dt : Nat) (f : Fn) (v : Fin 16) (s : State) (d : Nat), acting s = true → (fnAt s f.val).timers.get? v.val = some d →
    exec (.moderationTimerExpiry dt f v) s = .next (if d ≤ s.now + dt then modFn (advance dt s) f.val (fun x => { x with timers := x.timers.erase v.val }) else advance dt s)) ∧
  (∀ (dt : Nat) (n : Source) (f k : Nat) (s : State), acting s = true → clockLost s .ctl = false → srcTarget s n.val = some f → stuck s n.val (srcAt s n.val) = true →
    (srcAt s n.val).stuckSince = some k → k + 500000 ≤ s.now + dt →
    ∃ t, exec (.redirection dt n) s = .next t ∧ (srcAt t n.val).claimer = some (32 + fallbackTarget s) ∧ (srcAt t n.val).fallen = true ∧
      t.irq.redirects = min (s.irq.redirects + 1) 65535 ∧ (∃ e, t.journal.staged = s.journal.staged ++ [e] ∧ e.cls = 0 ∧ e.function = f ∧ e.object = n.val) ∧ t.chans = s.chans ∧ t.flows = s.flows) ∧
  (∀ (dt : Nat) (n : Source) (k : Nat) (s : State), acting s = true → clockLost s .ctl = false → srcTarget s n.val = some (32 + k) → srcReady (srcAt s n.val) = true → (coreAt s k).st = .reset →
    ∃ t, exec (.redirection dt n) s = .next t ∧ (srcAt t n.val).claimer = some (32 + fallbackTarget s) ∧ (srcAt t n.val).fallen = false ∧
      t.irq.redirects = min (s.irq.redirects + 1) 65535 ∧ t.journal = s.journal ∧ t.chans = s.chans ∧ t.flows = s.flows) ∧
  (∀ (n : Source) (f : Nat) (s : State), acting s = true → clockLost s .ctl = false → srcTarget s n.val = some f → (srcAt s n.val).fallen = true →
    deliverable s f (srcVector s n.val) = true →
    ∃ t, exec (.fallbackCompletion n) s = .next t ∧ (srcAt t n.val).claimer = none ∧ (srcAt t n.val).fallen = false ∧ (srcAt t n.val).pendSw = (srcAt s n.val).repend ∧
      t.chans = s.chans ∧ t.flows = s.flows)

/-- Harbour and the cores (R274 to R281, R359). -/
def Obligations.HarbourSchedulesThreads : Prop :=
  ∀ (dt : Nat) (s : State), acting s = true → clockLost s .ctl = false →
    (∀ t : Fin 1024,
      ((threadAt s t.val).st = .blocked →
        ∃ u, exec (.threadEvent dt ⟨some t, []⟩) s = .next u ∧ (threadAt u t.val).st = .ready ∧ (threadAt u t.val).readyAt = s.harbour.clock ∧
          u.chans = s.chans ∧ u.flows = s.flows) ∧
      (∀ c, (threadAt s t.val).st = .running c → exec (.threadEvent dt ⟨some t, []⟩) s = .next (modThread (advance dt s) t.val (fun x => { x with reReady := true }))) ∧
      ((threadAt s t.val).st = .free → exec (.threadEvent dt ⟨some t, []⟩) s = .next { advance dt s with harbour.lostEvents := inc32 s.harbour.lostEvents }) ∧
      (((threadAt s t.val).st = .ready ∨ ∃ c, (threadAt s t.val).st = .prefetched c) → exec (.threadEvent dt ⟨some t, []⟩) s = .next (advance dt s))) ∧
    (∀ (t : Fin 1024) (p : Fin 32) (k : Option (Fin 256)),
      (((threadAt s t.val).st = .free ∨ (threadAt s t.val).st = .blocked) →
        exec (.threadEvent dt ⟨none, [.set t p k]⟩) s = .next (modThread (advance dt s) t.val (fun x => { x with st := .blocked, prio := p.val, flow := k.map (fun k => k.val) }))) ∧
      ((threadAt s t.val).st ≠ .free → (threadAt s t.val).st ≠ .blocked → exec (.threadEvent dt ⟨none, [.set t p k]⟩) s = .next (advance dt s)) ∧
      ((threadAt s t.val).st = .blocked → exec (.threadEvent dt ⟨none, [.cancel t]⟩) s = .next (modThread (advance dt s) t.val (fun _ => {}))) ∧
      (∀ c, (threadAt s t.val).st = .running c →
        exec (.threadEvent dt ⟨none, [.cancel t]⟩) s = .next (modThread (advance dt s) t.val (fun x => { x with cancelled := true, reReady := false }))) ∧
      exec (.threadEvent dt ⟨none, [.post t]⟩) s = exec (.threadEvent dt ⟨some t, []⟩) s ∧
      (∀ (i : Fin 64) (at' : Instant) (period : Option Nat), exec (.threadEvent dt ⟨none, [.slot i at' period t]⟩) s =
        .next { advance dt s with harbour.slots := s.harbour.slots.set i.val { at' := at', period := period, thread := t.val } }) ∧
      (∀ i : Fin 64, exec (.threadEvent dt ⟨none, [.clearSlot i]⟩) s = .next { advance dt s with harbour.slots := s.harbour.slots.erase i.val }) ∧
      (∀ n : Fin 4, exec (.threadEvent dt ⟨none, [.control n (some t)]⟩) s = .next { advance dt s with harbour.trigThreads := s.harbour.trigThreads.set n.val t.val })) ∧
    (∀ (i : Fin 64) (e : TimeSlot), s.harbour.slots.get? i.val = some e → clockLost s .time = false → e.at' ≤ s.time.local' + dt * s.time.addend →
      (e.period = none → exec (.timeEvent dt i) s = .next { threadPost e.thread (advance dt s) with harbour.slots := (threadPost e.thread (advance dt s)).harbour.slots.erase i.val }) ∧
      (∀ p, e.period = some p → exec (.timeEvent dt i) s =
        .next { threadPost e.thread (advance dt s) with harbour.slots := (threadPost e.thread (advance dt s)).harbour.slots.set i.val { e with at' := e.at' + p } })) ∧
    (∀ (c : Core) (t : Nat), bestEligible s = none → (∀ d, (coreAt s d).back = none) → (coreAt s c.val).st ≠ .reset → (coreAt s c.val).running = none →
      (coreAt s c.val).slot = some t → (∀ d, d ≠ c.val → (coreAt s d).slot = none) →
      ∃ u, exec .prefetchFill s = .next u ∧ (coreAt u c.val).running = some t ∧ (coreAt u c.val).slot = none ∧ (threadAt u t).st = .running c.val ∧
        u.harbour.dispatches = inc32 s.harbour.dispatches ∧ u.harbour.clock = s.harbour.clock + 1 ∧ u.chans = s.chans ∧ u.flows = s.flows) ∧
    (∀ (c : Core) (t r : Nat), bestEligible s = some t → (∀ d, (coreAt s d).back = none) → (coreAt s c.val).st ≠ .reset → (coreAt s c.val).running = some r →
      (coreAt s c.val).slot = none → (∀ d, d ≠ c.val → (coreAt s d).slot = none ∧ (coreAt s d).st = .reset) →
      ∃ u, exec .prefetchFill s = .next u ∧ (coreAt u c.val).slot = some t ∧ (coreAt u c.val).running = some r ∧ (threadAt u t).st = .prefetched c.val ∧
        u.harbour.clock = s.harbour.clock + 1 ∧ u.chans = s.chans ∧ u.flows = s.flows) ∧
    (∀ (c : Core) (t : Nat), (coreAt s c.val).running = some t →
      ((coreAt s c.val).slot = none →
        (∃ u, exec (.threadYield dt c .finish) s = .next u ∧ (threadAt u t).st = .free ∧ (coreAt u c.val).running = none ∧ u.chans = s.chans ∧ u.flows = s.flows) ∧
        (∃ u, exec (.threadYield dt c .block) s = .next u ∧ (coreAt u c.val).running = none ∧ u.chans = s.chans ∧ u.flows = s.flows ∧
          (threadAt u t).st = (if (threadAt s t).cancelled then .free else if (threadAt s t).reReady then .ready else .blocked))) ∧
      (∀ v, (coreAt s c.val).slot = some v → v ≠ t → (coreAt s c.val).st ≠ .reset →
        ∃ u, exec (.threadYield dt c .finish) s = .next u ∧ (threadAt u t).st = .free ∧ (coreAt u c.val).running = some v ∧ (coreAt u c.val).slot = none ∧ (threadAt u v).st = .running c.val ∧
          u.harbour.dispatches = inc32 s.harbour.dispatches ∧ u.chans = s.chans ∧ u.flows = s.flows)) ∧
    (∀ (c : Core) (t : Nat), (coreAt s c.val).running = some t → (∀ v, (coreAt s c.val).slot = some v → v ≠ t) → (coreAt s c.val).since + 25000 ≤ s.now + dt → injectionOf s 10 c.val = none →
      ∃ u, exec (.runLimit dt c none) s = .next u ∧ (threadAt u t).st = .free ∧ (coreAt u c.val).st = .reset ∧ (coreAt u c.val).running = none ∧
        (∀ v, (coreAt s c.val).slot = some v → (threadAt u v).st = .ready) ∧
        u.harbour.fault = true ∧ u.harbour.runLimit = inc32 s.harbour.runLimit ∧ (∃ e, u.journal.staged = s.journal.staged ++ [e] ∧ e.cls = 9) ∧ (arbAt u 130).masked.contains c.val = true ∧
        u.flows = s.flows ∧
        ∀ q d l, flowCmds s (flowKey q) = d :: l → d.started = true → exec (.runLimit dt c (some q)) s = .next (endCmd d.serial stFault d.result0 d.result1 u))

/-- Arbiters (R238, R256 to R258, R262 to R264, R268 to R271). -/
def Obligations.ArbitersGrantStageAndPreempt : Prop :=
  ∀ (s : State), acting s = true →
    (∀ (dt a w : Nat) (reqs : List Nat) (found : ScrubFind) (x : FabTx), a < 48 → clockLost s .fab = false → clockLost s (targetDomain a) = false →
      (arbAt s a).grant = none → (arbAt s a).emergency = none → (arbAt s a).emergencyWait = [] → s.fab.pendingArbs.contains a = false →
      roundWinner s (arbAt s a) a (requesting s a []) = some w → presented s a w = some x →
      ∃ t, exec (.arbiterRound dt a ⟨reqs, [], found⟩) s = .next t ∧
        (arbAt t a).grant = some { requester := w, remaining := (prioOf (arbAt s a) a w).runM1 + 1, run := (prioOf (arbAt s a) a w).runM1 + 1, wonBefore := (arbAt s a).won, tx := some x.seq } ∧
        (arbAt t a).won = (arbAt s a).won.filter (· != w) ++ [w] ∧ t.fab.txs = s.fab.txs.map (fun e => if e.seq = x.seq then { e with grantedAt := some (s.now + dt) } else e) ∧
        t.fab.resps = s.fab.resps ∧ t.chans = s.chans ∧ t.mem = s.mem ∧ t.flows = s.flows) ∧
    (∀ (dt a : Nat) (reqs : List Nat) (found : ScrubFind) (x : FabTx) (g : Grant), a < 48 → clockLost s .fab = false → clockLost s (targetDomain a) = false →
      (arbAt s a).grant = some g → g.tx = none → 1 < g.remaining → g.requester < 62 → (arbAt s a).emergency = none → (arbAt s a).emergencyWait = [] → presented s a g.requester = some x →
      ∃ t, exec (.arbiterRound dt a ⟨reqs, [], found⟩) s = .next t ∧ (arbAt t a).grant = some { g with remaining := g.remaining - 1, tx := some x.seq } ∧ (arbAt t a).won = (arbAt s a).won ∧
        t.fab.txs = s.fab.txs.map (fun e => if e.seq = x.seq then { e with grantedAt := some (s.now + dt) } else e) ∧ t.chans = s.chans ∧ t.mem = s.mem ∧ t.flows = s.flows) ∧
    (∀ (dt m w : Nat) (reqs : List Nat) (found : ScrubFind) (x : FabResp), m < 32 → clockLost s .fab = false → clockLost s (masterDomain m) = false →
      (arbAt s (131 + m)).grant = none → (arbAt s (131 + m)).emergency = none → (arbAt s (131 + m)).emergencyWait = [] → s.fab.pendingArbs.contains (131 + m) = false →
      roundWinner s (arbAt s (131 + m)) (131 + m) (respTargets s m) = some w → s.fab.resps.find? (fun x => x.tx.req.master.val == m && x.tx.target == w) = some x → x.poisoned = false →
      ∃ t, exec (.arbiterRound dt (131 + m) ⟨reqs, [], found⟩) s = .next t ∧ t.outbox = .response m x.tx.id (beatsOf x.tx.req) x.err false x.data :: s.outbox ∧
        t.fab.resps = s.fab.resps.erase x ∧ t.fab.txs = s.fab.txs ∧ t.chans = s.chans ∧ t.mem = s.mem ∧ t.flows = s.flows) ∧
    (∀ (dt p : Nat) (found : ScrubFind) (x : FabTx) (l : List FabTx), p < 8 → clockLost s .qdr = false → s.mem.qportIn.getLsbD p = true → (qportAt s p).queue = x :: l → (qportAt s p).busyUntil ≤ s.now + dt →
      (arbAt s (48 + p)).grant = none → (arbAt s (48 + p)).emergency = none → (arbAt s (48 + p)).emergencyWait = [] → (arbAt s (48 + p)).masked = [] → s.fab.pendingArbs.contains (48 + p) = false →
      ∃ t, exec (.arbiterRound dt (48 + p) ⟨[], [], found⟩) s = .next t ∧ (qportAt t p).queue = l ∧
        (x.scrub = none → x.req.write = true → t.mem.cells = Memory.writeAll s.mem.cells x.req.addr.toNat x.req.data) ∧ (x.req.write = false → t.mem.cells = s.mem.cells) ∧ t.chans = s.chans) ∧
    (∀ a : Nat, (arbAt s a).grant = none → s.fab.pendingArbs.contains a = true →
      ∃ t, exec (.stagedSetApply a) s = .next t ∧ (arbAt t a).prio = (s.fab.staged.keep (fun k _ => k / 64 == a)).map (fun e => (e.1 % 64, e.2)) ∧
        t.fab.pendingArbs = s.fab.pendingArbs.filter (· != a) ∧ (arbAt t a).won = (arbAt s a).won ∧ (∀ b, b ≠ a → arbAt t b = arbAt s b) ∧ t.chans = s.chans ∧ t.mem = s.mem) ∧
    (∀ (a : Nat) (refresh : Bool), 48 ≤ a → a < 120 → (refresh = true → 56 ≤ a) →
      exec (.emergencyPreemption a refresh) s = .next (modArb s a (fun x => match (arbAt s a).emergency with
        | none => { x with emergency := some refresh }
        | some _ => { x with emergencyWait := x.emergencyWait ++ [refresh] }))) ∧
    (∀ a : Nat, a < 48 → (arbAt s a).grant = none → (arbAt s a).emergency = none → (arbAt s a).emergencyWait = [] →
      (s.fab.txs.find? (fun x => x.target == a && x.grantedAt.isNone && x.req.master.val == 31) = none →
        exec (.emergencyPreemption a false) s = .next (modArb s a (fun x => { x with emergency := some false }))) ∧
      (∀ x, s.fab.txs.find? (fun x => x.target == a && x.grantedAt.isNone && x.req.master.val == 31) = some x →
        exec (.emergencyPreemption a false) s = .next (acceptTx x (grantTx x (modArb s a (fun x => { x with emergency := some false })))))) ∧
    (∀ (a i : Nat) (g : Grant), a < 48 → (arbAt s a).grant = some g → g.requester = i →
      (g.remaining = g.run → exec (.requestWithdrawal a i) s =
        .next (modArb { s with fab.txs := s.fab.txs.filter (fun e => some e.seq != g.tx) } a (fun x => { x with waiting := x.waiting.erase i, grant := none, won := g.wonBefore }))) ∧
      (g.remaining ≠ g.run → g.tx = none → exec (.requestWithdrawal a i) s = .next (modArb s a (fun x => { x with waiting := x.waiting.erase i, grant := none })))) ∧
    (∀ a i : Nat, a < 48 → (arbAt s a).grant = none →
      (presented s a i = none → exec (.requestWithdrawal a i) s = .next (modArb s a (fun x => { x with waiting := x.waiting.erase i }))) ∧
      (∀ x, presented s a i = some x →
        exec (.requestWithdrawal a i) s = .next (modArb { s with fab.txs := s.fab.txs.filter (fun e => e.seq != x.seq) } a (fun x => { x with waiting := x.waiting.erase i })))) ∧
    (∀ a i : Nat, 48 ≤ a → a ≤ 130 →
      (∃ t, exec (.requesterMask a i true) s = .next t ∧ (arbAt t a).masked = (if (arbAt s a).masked.contains i then (arbAt s a).masked else (arbAt s a).masked ++ [i]) ∧
        (arbAt t a).grant = (arbAt s a).grant ∧ (∀ b, b ≠ a → arbAt t b = arbAt s b) ∧ t.chans = s.chans) ∧
      (∃ t, exec (.requesterMask a i false) s = .next t ∧ (arbAt t a).masked = (arbAt s a).masked.filter (· != i) ∧ (arbAt t a).grant = (arbAt s a).grant ∧
        (∀ b, b ≠ a → arbAt t b = arbAt s b) ∧ t.chans = s.chans))

/-- The winner of a round (R262). -/
def Obligations.RoundWinnerIsUnbeaten : Prop :=
  ∀ (s : State) (x : Arb) (a : Nat) (reqs : List Nat), a < 48 →
    (∀ w, roundWinner s x a reqs = some w → w ∈ reqs ∧ ∀ i ∈ reqs, beats x a i w = false) ∧
    (roundWinner s x a reqs = none → reqs = [])

/-- STARVATION and ERROR_RESPONSE (R254, R257, R259, R267). -/
def Obligations.StarvationAndDecodeErrorsAreRecorded : Prop :=
  (∀ (a i : Nat) (w : Waiter) (s : State), acting s = true → a ≤ 130 → (arbAt s a).waiting.get? i = some w → w.reported = false → (arbAt s a).limit ≠ 0 →
    (arbAt s a).limit * 16 ≤ waited a s.now w →
    ∃ t, exec (.starvation a i) s = .next t ∧ t.fab.starved = true ∧ t.fab.multi = (s.fab.multi || s.fab.starved) ∧ t.fab.starveCount = min (s.fab.starveCount + 1) 255 ∧
      t.fab.starveArb = (if s.fab.starved then s.fab.starveArb else a) ∧ t.fab.starveReq = (if s.fab.starved then s.fab.starveReq else i) ∧
      (arbAt t a).waiting.get? i = some { w with reported := true } ∧ t = { s with fab := t.fab }) ∧
  (∀ (dt : Nat) (r : FabReq) (s : State), acting s = true → r.host = none → unmapped s r.addr.toNat = true → r.cmd = none → injectionOf s 6 0 = none →
    ∃ t, exec (.errorResponse dt false r) s = .next t ∧ t.fab.decValid = true ∧ t.fab.decCount = min (s.fab.decCount + 1) 65535 ∧
      t.fab.decMaster = (if s.fab.decValid then s.fab.decMaster else r.master.val) ∧ t.fab.decWrite = (if s.fab.decValid then s.fab.decWrite else r.write) ∧
      t.fab.decAddr = (if s.fab.decValid then s.fab.decAddr else r.addr.toNat) ∧
      t.journal.staged.length = s.journal.staged.length + (if r.master.val = 25 ∨ r.master.val = 31 then 0 else 1) ∧
      (r.master.val = 25 → r.write = false → t.outbox = .unsupported (r.fn.getD 0).val r.addr.toNat :: s.outbox) ∧
      (r.master.val = 25 → r.write = true → (fnAt t (r.fn.getD 0).val).aer = true) ∧
      (r.master.val < 19 → t.mem.poisonReads = inc32 s.mem.poisonReads ∧ t.mem.ueSrc = true) ∧ t.chans = s.chans ∧ t.flows = s.flows) ∧
  (∀ (dt : Nat) (r : FabReq) (x : FabTx) (k : Nat) (s : State), acting s = true → r.host = none → unmapped s r.addr.toNat = true →
    s.fab.txs.find? (fun x => x.target == 47 && x.req == r) = some x → x.grantedAt = some k → k + 4 ≤ s.now + dt → r.cmd = none → respGone s r = false →
    ∃ t, exec (.errorResponse dt true r) s = .next t ∧ t.fab.decValid = true ∧ t.fab.decCount = min (s.fab.decCount + 1) 65535 ∧
      t.fab.txs = s.fab.txs.filter (fun e => e.seq != x.seq) ∧
      t.fab.resps = s.fab.resps ++ [{ tx := x, err := true, poisoned := false, data := if r.write then [] else zeros r.len }])

/-- The queries (R58, R61, R62, R108, R230, R252, R361, R416, R444, R445, R464, R488). -/
def Obligations.QueriesAnswerTheirRecords : Prop :=
  ∀ (q : FlowRef) (b : Bus) (s : State) (c : Cmd),
    (ready 0x0101 q c s = true → blockOpen c b s = true → exec (.devQuery q b) s = .next (replies c b (devAnswer c.fn.val s) s)) ∧
    (ready 0x0107 q c s = true → blockOpen c b s = true → exec (.capacityQuery q b) s = .next (replies c b (capacityAnswer s) s)) ∧
    (ready 0x0208 q c s = true →
      (∀ x, chanAt s (fld c.packet 5 5 0) = some x → x.owner = c.fn → blockOpen c b s = true →
        exec (.chanStatus q b) s = .next (replies c b (chanRecord s (fld c.packet 5 5 0) (startedChan s x)) s)) ∧
      (chanAt s (fld c.packet 5 5 0) = none → exec (.chanStatus q b) s = .next (refuses c b stBadParam 0 0 s))) ∧
    (ready 0x0504 q c s = true →
      (∀ d, decAt s (fld c.packet 5 4 0) = some d → d.owner = c.fn → blockOpen c b s = true →
        exec (.decStatus q b) s = .next (replies c b (decRecord (fld c.packet 5 4 0) d ++ decExtension d) s)) ∧
      (decAt s (fld c.packet 5 4 0) = none → exec (.decStatus q b) s = .next (refuses c b stBadParam 0 0 s))) ∧
    (ready 0x0705 q c s = true → blockOpen c b s = true → exec (.timeStatus q b) s = .next (replies c b (timeRecord s ++ Machine.slice s.time.ptp.metadata 0 64) s)) ∧
    (ready 0x0902 q c s = true → blockOpen c b s = true →
      exec (.pairStatus q b) s = .next (replies c b (pairRecord s ++ ((s.pair.tags.filter (fun e => c.fn.val == 0 || e.1 / 256 == c.fn.val)).flatMap (fun e =>
        le 1 (e.1 / 256) ++ le 1 (e.1 % 256) ++ zeros 2 ++ le 4 e.2.started.toNat ++ le 4 e.2.done.toNat ++ le 4 e.2.count))) s)) ∧
    (ready 0x0A09 q c s = true → blockOpen c b s = true →
      (flag c.packet 5 0 = false → exec (.updStatus q b) s = .next (replies c b (updRecord s) s)) ∧
      (∀ t, flag c.packet 5 0 = true → c.fn = 0 →
        t = (if s.upd.boot.fallback then writeBoot (fun r => { r with fallback := false }) { s with upd.lastFail := 0 } else { s with upd.lastFail := 0 }) →
        exec (.updStatus q b) s = .next (replies c b (updRecord t) t))) ∧
    (ready 0x0B03 q c s = true →
      (∀ x, fld c.packet 5 1 0 = 0 → chanAt s (fld c.packet 5 13 8) = some x → x.owner = c.fn → blockOpen c b s = true →
        exec (.countersRead q b) s = .next (replies c b (countersChan (fld c.packet 5 13 8) x) s)) ∧
      (fld c.packet 5 1 0 = 1 → c.fn = 0 → blockOpen c b s = true → exec (.countersRead q b) s = .next (replies c b (countersDevice s) s)) ∧
      ((fld c.packet 5 1 0 = 0 ∧ chanAt s (fld c.packet 5 13 8) = none) ∨ 2 ≤ fld c.packet 5 1 0 → exec (.countersRead q b) s = .next (refuses c b stBadParam 0 0 s))) ∧
    (∀ mine n bytes, ready 0x0B05 q c s = true → mine = (journalAll s).filter (fun e => decide (dword c.packet 5 ≤ e.seq) && (c.fn.val == 0 || e.function == c.fn.val)) →
      n = word c.packet 4 / 32 → bytes = (mine.take n).flatMap jBytes → blockOpen c b s = true →
      exec (.journalRead q b) s = .next (answers c b bytes
        ((match mine.drop n with | e :: _ => e.seq | [] => max s.journal.nextSeq (dword c.packet 5)) % 2 ^ 32)
        ((match mine.drop n with | e :: _ => e.seq | [] => max s.journal.nextSeq (dword c.packet 5)) / 2 ^ 32) s)) ∧
    (ready 0x0C03 q c s = true → blockOpen c b s = true →
      exec (.memStatus q b) s = .next (replies c b (memRecord s ++ Machine.slice (s.mem.ueLog.flatMap (fun e => le 8 (e.2 % 2 ^ 48 + e.1.toNat * 2 ^ 63))) 0 256) s)) ∧
    (ready 0x0D02 q c s = true → blockOpen c b s = true → exec (.shedStatus q b) s = .next (replies c b (shedRecord s) s)) ∧
    (blockOpen c b s = false →
      (ready 0x0101 q c s = true → exec (.devQuery q b) s = .next (answerFails c b s)) ∧ (ready 0x0107 q c s = true → exec (.capacityQuery q b) s = .next (answerFails c b s)) ∧
      (∀ x, ready 0x0208 q c s = true → chanAt s (fld c.packet 5 5 0) = some x → x.owner = c.fn → exec (.chanStatus q b) s = .next (answerFails c b s)) ∧
      (∀ d, ready 0x0504 q c s = true → decAt s (fld c.packet 5 4 0) = some d → d.owner = c.fn → exec (.decStatus q b) s = .next (answerFails c b s)) ∧
      (ready 0x0705 q c s = true → exec (.timeStatus q b) s = .next (answerFails c b s)) ∧ (ready 0x0902 q c s = true → exec (.pairStatus q b) s = .next (answerFails c b s)) ∧
      (ready 0x0A09 q c s = true → flag c.packet 5 0 = false → exec (.updStatus q b) s = .next (answerFails c b s)) ∧
      (ready 0x0B03 q c s = true → fld c.packet 5 1 0 = 1 → c.fn = 0 → exec (.countersRead q b) s = .next (answerFails c b s)) ∧
      (ready 0x0B05 q c s = true → exec (.journalRead q b) s = .next (answerFails c b s)) ∧
      (ready 0x0C03 q c s = true → exec (.memStatus q b) s = .next (answerFails c b s)) ∧ (ready 0x0D02 q c s = true → exec (.shedStatus q b) s = .next (answerFails c b s)))

/-- The life of a channel (R72, R79 to R103, R127); what waits for pictures of an IDLE channel is the model's choice (log 158). -/
def Obligations.ChannelsLiveAndEnd : Prop :=
  (∀ q b s c, ready 0x0201 q c s = true →
    (∀ n, s.chans.lowestFree 64 = some n → exec (.chanCreate q b) s = .next (completes c b 0 n 0 (setChan s n { owner := Fin.ofNat 32 c.fn.val }))) ∧
    (s.chans.lowestFree 64 = none → exec (.chanCreate q b) s = .next (refuses c b stNoResource 0 0 s))) ∧
  (∀ q b s c x, ready 0x0202 q c s = true → ownChan c x s → sourceForeign s (fld c.packet 3 1 0) (fld c.packet 3 23 8) c.fn.val = false →
    (∀ k, chanCfgOf c.packet = some k → sourceExists s k = true → x.st = .idle →
      exec (.chanConfig q b) s = .next (completes c b 0 0 0 (modChan s (chanOf c.packet) (fun x => { x with cfg := some k, shedClass := k.shedClass })))) ∧
    (∀ k, chanCfgOf c.packet = some k → sourceExists s k = true → x.st ≠ .idle → exec (.chanConfig q b) s = .next (refuses c b stBadState 0 0 s)) ∧
    (chanCfgOf c.packet = none ∨ (∃ k, chanCfgOf c.packet = some k ∧ sourceExists s k = false) → exec (.chanConfig q b) s = .next (refuses c b stBadParam 0 0 s))) ∧
  (∀ q b s c x, ready 0x0203 q c s = true → ownChan c x s → startFieldsBad c.packet = false →
    ((x.cfg = none ∨ x.profile = none ∨ x.coding.rc = none) → exec (.chanStart q b) s = .next (refuses c b stBadState 0 0 s)) ∧
    (∀ k p rc, x.cfg = some k → x.profile = some p → x.coding.rc = some rc →
      (startParamBad s x k p rc = true → exec (.chanStart q b) s = .next (refuses c b stBadParam 0 0 s)) ∧
      (startParamBad s x k p rc = false → x.st ≠ .idle → exec (.chanStart q b) s = .next (refuses c b stBadState 0 0 s)) ∧
      (∀ rate refs la l isles, startParamBad s x k p rc = false → x.st = .idle →
        (fld c.packet 3 1 0 = 1 → s.time.local' < nsInstant (startNs c.packet)) → (fld c.packet 3 1 0 = 2 → triggerStarts s (fld c.packet 3 9 8) = true) →
        sourceExists s k = true → (k.srcKind = 1 → (laneAt s k.srcIndex).cfg.mode = 2) → (k.refMode = 1 → s.time.ptp.st = .locked) →
        (geomOf s k p).dMin ≤ delayOf (geomOf s k p) x.delayReq →
        rate = mostOf (fun z => (z.rc.map (fun r => r.rateMax)).getD 0) rc.rateMax (codingsAhead s (chanOf c.packet) x) →
        refs = mostOf (fun z => z.gop.nRef) 0 (codingsAhead s (chanOf c.packet) x) →
        la = ((codingsAhead s (chanOf c.packet) x).any (fun z => z.spec.runAhead) || x.coding.gop.lookahead != 0) →
        l = loadOf s (chanOf c.packet) k p rc.rowCap rate refs x.coding.gop.lookahead la (delayOf (geomOf s k p) x.delayReq) (delayOf (geomOf s k p) x.delayReq) →
        s.mem.noFit = false → spaceFits s (poolWith s (some l) (some (chanOf c.packet))) = true → admitLoad s l true = none →
        placeIsles s (chanOf c.packet) l.nIsle = some isles → shedStops s (chanShedClass s x) = false →
        ∃ t y, exec (.chanStart q b) s = .next (waits c [] (.chanStart (chanOf c.packet)) 0 0 t) ∧ chanAt t (chanOf c.packet) = some y ∧
          y.st = (if fld c.packet 3 1 0 = 0 then .running else .armed) ∧ y.owner = x.owner ∧ y.cfg = x.cfg ∧ y.profile = x.profile ∧ y.coding = x.coding ∧
          y.counters = {} ∧ y.stopReason = 0 ∧ y.lossFlag = false ∧ y.run.isles = isles ∧ y.run.admRate = rate ∧ y.run.admRef = refs ∧ y.run.v = (vTargetBits rc : Int) ∧ y.run.nextPic = 0 ∧
          (∀ j, j ≠ chanOf c.packet → chanAt t j = chanAt s j) ∧ t.flows = s.flows ∧ t.outs = s.outs ∧ t.surfs = s.surfs ∧ t.decs = s.decs ∧ t.net = s.net))) ∧
  (∀ q b s c x, ready 0x0204 q c s = true → ownChan c x s →
    (x.st = .armed → exec (.chanStop q b) s = .next (completes c b 0 0 0 (modChan (cancelArmed (chanOf c.packet) stCancelled s) (chanOf c.packet) (fun x => { x with stopReason := 1 })))) ∧
    (coding x = true → exec (.chanStop q b) s = .next (stopNow (chanOf c.packet) (flag c.packet 3 0) (waits c [] (.chanStop (chanOf c.packet)) 0 0 s))) ∧
    (x.st = .idle → exec (.chanStop q b) s = .next (refuses c b stBadState 0 0 s))) ∧
  (∀ q b s c x, ready 0x0205 q c s = true → ownChan c x s →
    (coding x = false → exec (.chanDestroy q b) s = .next (completes c b 0 0 0 (chanRemove (chanOf c.packet) (cancelWaiters (chanOf c.packet) stCancelled (cancelArmed (chanOf c.packet) stCancelled s))))) ∧
    (coding x = true → exec (.chanDestroy q b) s = .next (refuses c b stBadState 0 0 s))) ∧
  (∀ q b s c x, ready 0x0206 q c s = true → ownChan c x s →
    ((fld c.packet 3 15 0 ≠ 0 ∧ (fld c.packet 3 15 0 < 500 ∨ 40000 < fld c.packet 3 15 0)) → exec (.chanSetDelay q b) s = .next (refuses c b stBadParam 0 0 s)) ∧
    (x.st = .idle → x.st302 = [] → atPictureOf c.packet = false → (fld c.packet 3 15 0 = 0 ∨ (500 ≤ fld c.packet 3 15 0 ∧ fld c.packet 3 15 0 ≤ 40000)) →
      exec (.chanSetDelay q b) s = .next (completes c b 0 0 0 (modChan s (chanOf c.packet) (fun x => { x with delayReq := fld c.packet 3 15 0 })))) ∧
    (∀ g, x.st = .armed → x.st302 = [] → atPictureOf c.packet = false → chanGeom s x = some g → 500 ≤ fld c.packet 3 15 0 → fld c.packet 3 15 0 ≤ 40000 →
      ((fld c.packet 3 15 0 * 1000 : Nat) : Rat) < g.dMin →
      exec (.chanSetDelay q b) s = .next (completes c b 0 0 0 (modChan s (chanOf c.packet) (fun x => { x with delayReq := fld c.packet 3 15 0 })))) ∧
    (∀ g t, (fld c.packet 3 15 0 = 0 ∨ (500 ≤ fld c.packet 3 15 0 ∧ fld c.packet 3 15 0 ≤ 40000)) → x.st302 = [] → picturesAhead c x →
      chanGeom s x = some g → (fld c.packet 3 15 0 ≠ 0 → g.dMin ≤ ((fld c.packet 3 15 0 * 1000 : Nat) : Rat)) →
      raiseLoad s (chanOf c.packet) x x.run.admRate x.run.admRef (delayOf g (fld c.packet 3 15 0)) false x.coding.gop = (t, none) →
      exec (.chanSetDelay q b) s = .next (if coding x || atPictureOf c.packet then waits c [] (.picture (chanOf c.packet) (pictureAsked c)) 0 0 t
        else completes c b 0 0 0 (modChan t (chanOf c.packet) (fun x => { x with delayReq := fld c.packet 3 15 0 }))))) ∧
  (∀ q b s c x, ready 0x0207 q c s = true → ownChan c x s → fld c.packet 3 1 0 ≤ 2 → picturesAhead c x →
    (x.st = .running → exec (.keyRequest q b) s = .next (waits c [] (.picture (chanOf c.packet) (pictureAsked c)) 0 0 s)) ∧
    (x.st ≠ .running → exec (.keyRequest q b) s = .next (refuses c b stBadState 0 0 s))) ∧
  (∀ q b s c, chanAt s (chanOf c.packet) = none →
    (ready 0x0203 q c s = true → exec (.chanStart q b) s = .next (refuses c b stBadParam 0 0 s)) ∧ (ready 0x0204 q c s = true → exec (.chanStop q b) s = .next (refuses c b stBadParam 0 0 s)) ∧
    (ready 0x0205 q c s = true → exec (.chanDestroy q b) s = .next (refuses c b stBadParam 0 0 s)) ∧ (ready 0x0206 q c s = true → exec (.chanSetDelay q b) s = .next (refuses c b stBadParam 0 0 s)) ∧
    (ready 0x0207 q c s = true → exec (.keyRequest q b) s = .next (refuses c b stBadParam 0 0 s)))

/-- Coding parameters (R19, R50, R83, R91, R113, R116, R121, R125, R145, R162 to R167); AT_PICTURE outside a run and ENC_GOP fields of equal value are the model's choice (logs 157 to 159). -/
def Obligations.CodingParametersWaitForTheirPicture : Prop :=
  (∀ q b s c x, ready 0x0301 q c s = true → ownChan c x s →
    (∀ e, encProfileOf c.packet = some e →
      exec (.encProfile q b) s = .next (if x.st = .idle then completes c b 0 0 0 (modChan s (chanOf c.packet) (fun x => { x with profile := some e })) else refuses c b stBadState 0 0 s)) ∧
    (encProfileOf c.packet = none → exec (.encProfile q b) s = .next (refuses c b stBadParam 0 0 s))) ∧
  (∀ q b s c x, ready 0x0302 q c s = true → ownChan c x s → encGopOk (encGopOf c.packet) = true → picturesAhead c x →
    (∀ t, (fixedNow (cmdIn q c []) x = false ∨ ((encGopOf c.packet).structure' = x.coding.gop.structure' ∧ (encGopOf c.packet).miniGop = x.coding.gop.miniGop ∧ (encGopOf c.packet).lookahead = x.coding.gop.lookahead)) →
      raiseLoad s (chanOf c.packet) x x.run.admRate (encGopOf c.packet).nRef x.run.admDelay false x.coding.gop = (t, none) →
      exec (.encGop q b) s = .next (if coding x || atPictureOf c.packet then waits c [] (.picture (chanOf c.packet) (pictureAsked c)) 0 0 t else completes c b 0 0 0 (storeChange (chanOf c.packet) c.packet t))) ∧
    (fixedNow (cmdIn q c []) x = true → ((encGopOf c.packet).structure' ≠ x.coding.gop.structure' ∨ (encGopOf c.packet).miniGop ≠ x.coding.gop.miniGop ∨ (encGopOf c.packet).lookahead ≠ x.coding.gop.lookahead) →
      exec (.encGop q b) s = .next (refuses c b stBadState 0 0 s))) ∧
  (∀ q b s c x t, ready 0x0303 q c s = true → ownChan c x s → rcCfgOk (qpLimit x) (rcCfgOf c.packet) = true → picturesAhead c x →
    (∀ o, x.coding.rc = some o → fixedNow (cmdIn q c []) x = true → (rcCfgOf c.packet).mode = o.mode ∧ (rcCfgOf c.packet).hrd = o.hrd ∧ (rcCfgOf c.packet).rowCap = o.rowCap ∧ (rcCfgOf c.packet).cpbSize = o.cpbSize) →
    (x.st = .idle ∨ losslessWith s (chanOf c.packet) x (targetPicture (cmdIn q c []) x) c.packet = true) →
    raiseLoad s (chanOf c.packet) x (rcCfgOf c.packet).rateMax x.run.admRef x.run.admDelay false x.coding.gop = (t, none) →
    exec (.rcConfig q b) s = .next (if coding x || atPictureOf c.packet then waits c [] (.picture (chanOf c.packet) (pictureAsked c)) 0 0 t else completes c b 0 0 0 (storeChange (chanOf c.packet) c.packet t))) ∧
  (∀ q b s c x r t, ready 0x0304 q c s = true → ownChan c x s → rcBefore s (cmdIn q c []) x = some r → rcUpdateOk (qpLimit x) c.packet r = true → picturesAhead c x →
    (x.st = .idle ∨ losslessWith s (chanOf c.packet) x (targetPicture (cmdIn q c []) x) c.packet = true) →
    raiseLoad s (chanOf c.packet) x (rcUpdated c.packet r).rateMax x.run.admRef x.run.admDelay false x.coding.gop = (t, none) →
    exec (.rcUpdate q b) s = .next (if coding x || atPictureOf c.packet then waits c [] (.picture (chanOf c.packet) (pictureAsked c)) 0 0 t else completes c b 0 0 0 (storeChange (chanOf c.packet) c.packet t))) ∧
  (∀ q b s c x, ready 0x0305 q c s = true → ownChan c x s → regionOk (regionOf c.packet) = true → picturesAhead c x →
    ((regionOf c.packet).kind = 0 ∨ (∀ k, x.cfg = some k → (regionOf c.packet).x + (regionOf c.packet).w ≤ k.width ∧ (regionOf c.packet).y + (regionOf c.packet).h ≤ k.height)) →
    (x.st = .idle ∨ losslessWith s (chanOf c.packet) x (targetPicture (cmdIn q c []) x) c.packet = true →
      exec (.encRegion q b) s = .next (if coding x || atPictureOf c.packet then waits c [] (.picture (chanOf c.packet) (pictureAsked c)) 0 0 s else completes c b 0 0 0 (storeChange (chanOf c.packet) c.packet s))) ∧
    (x.st ≠ .idle → losslessWith s (chanOf c.packet) x (targetPicture (cmdIn q c []) x) c.packet = false → exec (.encRegion q b) s = .next (refuses c b stBadState 0 0 s))) ∧
  (∀ q b s c x t, ready 0x0306 q c s = true → ownChan c x s → 1 ≤ fld c.packet 3 6 4 → fld c.packet 3 6 4 ≤ 6 → picturesAhead c x →
    raiseLoad s (chanOf c.packet) x x.run.admRate x.run.admRef x.run.admDelay (flag c.packet 3 1) x.coding.gop = (t, none) →
    exec (.encSpec q b) s = .next (if coding x || atPictureOf c.packet then waits c [] (.picture (chanOf c.packet) (pictureAsked c)) 0 0 t else completes c b 0 0 0 (storeChange (chanOf c.packet) c.packet t))) ∧
  (∀ q b s c x, ready 0x0307 q c s = true → ownChan c x s → fld c.packet 3 1 0 ≠ 3 → fld c.packet 3 3 2 ≠ 3 → picturesAhead c x →
    exec (.encMe q b) s = .next (if coding x || atPictureOf c.packet then waits c [] (.picture (chanOf c.packet) (pictureAsked c)) 0 0 s else completes c b 0 0 0 (storeChange (chanOf c.packet) c.packet s))) ∧
  (∀ q b s c x, ownChan c x s → coding x = true → atPictureOf c.packet = true → pictureOf c.packet < x.run.nextPic →
    (ready 0x0302 q c s = true → encGopOk (encGopOf c.packet) = true → exec (.encGop q b) s = .next (refuses c b stBadState ((x.run.nextPic - 1) % 2 ^ 32) ((x.run.nextPic - 1) / 2 ^ 32) s)) ∧
    (ready 0x0303 q c s = true → rcCfgOk (qpLimit x) (rcCfgOf c.packet) = true → exec (.rcConfig q b) s = .next (refuses c b stBadState ((x.run.nextPic - 1) % 2 ^ 32) ((x.run.nextPic - 1) / 2 ^ 32) s)) ∧
    (∀ r, ready 0x0304 q c s = true → rcBefore s (cmdIn q c []) x = some r → rcUpdateOk (qpLimit x) c.packet r = true → exec (.rcUpdate q b) s = .next (refuses c b stBadState ((x.run.nextPic - 1) % 2 ^ 32) ((x.run.nextPic - 1) / 2 ^ 32) s)) ∧
    (ready 0x0306 q c s = true → 1 ≤ fld c.packet 3 6 4 → fld c.packet 3 6 4 ≤ 6 → exec (.encSpec q b) s = .next (refuses c b stBadState ((x.run.nextPic - 1) % 2 ^ 32) ((x.run.nextPic - 1) / 2 ^ 32) s)) ∧
    (ready 0x0307 q c s = true → fld c.packet 3 1 0 ≠ 3 → fld c.packet 3 3 2 ≠ 3 → exec (.encMe q b) s = .next (refuses c b stBadState ((x.run.nextPic - 1) % 2 ^ 32) ((x.run.nextPic - 1) / 2 ^ 32) s)) ∧
    (ready 0x0207 q c s = true → fld c.packet 3 1 0 ≤ 2 → exec (.keyRequest q b) s = .next (refuses c b stBadState ((x.run.nextPic - 1) % 2 ^ 32) ((x.run.nextPic - 1) / 2 ^ 32) s))) ∧
  (∀ p c, (opcodeOf p = 0x0302 → changeCoding p c = { c with gop := encGopOf p }) ∧ (opcodeOf p = 0x0303 → changeCoding p c = { c with rc := some (rcCfgOf p) }) ∧
    (opcodeOf p = 0x0304 → changeCoding p c = { c with rc := c.rc.map (rcUpdated p) }) ∧
    (opcodeOf p = 0x0305 → changeCoding p c = { c with regions := c.regions.set (fld p 2 10 8) (regionOf p) }) ∧
    (opcodeOf p = 0x0306 → changeCoding p c = { c with spec := { dualQp := flag p 3 0, runAhead := flag p 3 1, deltaQp := fld p 3 6 4 } }) ∧
    (opcodeOf p = 0x0307 → changeCoding p c = { c with me := { l1Range := fld p 3 1 0, l3Range := fld p 3 3 2 } }))

/-- Composition commands (R72, R172 to R177, R194 to R201, R207); that waiting commits count is the model's reading (log 83). -/
def Obligations.CompositionIsStagedAndCommitted : Prop :=
  (∀ q b s c, ready 0x0401 q c s = true → fld c.packet 2 1 0 = 0 → (∀ x, surfAt s (fld c.packet 6 31 16) = some x → x.owner.val = c.fn.val) →
    (∀ o, fld c.packet 2 12 8 = 0 → outCfgOf c.packet = some o → toSurfaceOk s c.fn.val o = true →
      (∀ n k, s.outs.lowestFree 32 = some n → placeOutput s o = some k → s.mem.noFit = false → memoryCheck s (poolWith s none none) (outHbm s o) (outQdr o) = none → shedStops s 2 = false →
        exec (.outCreate q b) s = .next (completes c b 1 n 0 (setOut s n { owner := Fin.ofNat 32 c.fn.val, cfg := o, compositor := k, next := firstPicture o s.time.local' }))) ∧
      (s.outs.lowestFree 32 = none → exec (.outCreate q b) s = .next (refuses c b stNoResource 0 0 s)) ∧
      (∀ n, s.outs.lowestFree 32 = some n → placeOutput s o = none → exec (.outCreate q b) s = .next (refuses c b stCapacity 0x300 0xFFFFFFFF s))) ∧
    (fld c.packet 2 12 8 ≠ 0 ∨ outCfgOf c.packet = none ∨ (∃ o, outCfgOf c.packet = some o ∧ toSurfaceOk s c.fn.val o = false) → exec (.outCreate q b) s = .next (refuses c b stBadParam 0 0 s))) ∧
  (∀ q b s c, ready 0x0401 q c s = true → 2 ≤ fld c.packet 2 1 0 → exec (.outCreate q b) s = .next (refuses c b stBadParam 0 0 s)) ∧
  (∀ q b s c o, ready 0x0401 q c s = true → fld c.packet 2 1 0 = 1 → outAt s (fld c.packet 2 12 8) = some o → o.owner.val = c.fn.val →
    (o.dying = false → outUsed s (fld c.packet 2 12 8) o = false →
      exec (.outCreate q b) s = .next (waits c [] (.release 1 (fld c.packet 2 12 8)) 0 0 (modOut s (fld c.packet 2 12 8) (fun o => { o with dying := true })))) ∧
    (o.dying = true ∨ outUsed s (fld c.packet 2 12 8) o = true → exec (.outCreate q b) s = .next (refuses c b stBadState 0 0 s))) ∧
  (∀ q b s c o, outAt s (outOf c.packet) = some o → o.owner.val = c.fn.val →
    (ready 0x0402 q c s = true → exec (.layerSet q b) s = .next (if fld c.packet 2 13 8 = 63 then refuses c b stBadParam 0 0 s
      else completes c b 1 0 0 (modOut s (outOf c.packet) (fun o => { o with stage := restage (.set (fld c.packet 2 13 8) (layerOf c.packet)) o.stage })))) ∧
    (ready 0x0403 q c s = true → exec (.layerClear q b) s = .next (if fld c.packet 2 13 8 = 63 then refuses c b stBadParam 0 0 s
      else completes c b 1 0 0 (modOut s (outOf c.packet) (fun o => { o with stage := restage (.clear (fld c.packet 2 13 8)) o.stage })))) ∧
    (ready 0x0406 q c s = true → fld c.packet 2 13 8 ≠ 63 →
      exec (.freshnessSet q b) s = .next (completes c b 1 0 0 (modOut s (outOf c.packet) (fun o => { o with stage := restage (.fresh (fld c.packet 2 13 8) (word c.packet 3)) o.stage }))))) ∧
  (∀ q b s c o, ready 0x0406 q c s = true → outAt s (outOf c.packet) = some o → c.fn = 0 → fld c.packet 2 13 8 = 63 →
    exec (.freshnessSet q b) s = .next (completes c b 1 0 0 (modOut s (outOf c.packet) (fun o => { o with lhStage := restage (.fresh 63 (word c.packet 3)) o.lhStage })))) ∧
  (∀ q b s c, outAt s (outOf c.packet) = none →
    (ready 0x0402 q c s = true → exec (.layerSet q b) s = .next (refuses c b stBadParam 0 0 s)) ∧ (ready 0x0403 q c s = true → exec (.layerClear q b) s = .next (refuses c b stBadParam 0 0 s)) ∧
    (ready 0x0404 q c s = true → exec (.composeCommit q b) s = .next (refuses c b stBadParam 0 0 s)) ∧
    (ready 0x0406 q c s = true → (fld c.packet 2 13 8 = 63 → c.fn = 0) → exec (.freshnessSet q b) s = .next (refuses c b stBadParam 0 0 s))) ∧
  (∀ q b s c o, ready 0x0405 q c s = true → outAt s (outOf c.packet) = some o → c.fn = 0 →
    (flag c.packet 2 8 = true → exec (.lighthouseLoad q b) s = .next (completes c b 1 0 0 (modOut s (outOf c.packet) (fun o => { o with lhStage := restage .lhUnload o.lhStage })))) ∧
    (∀ x, flag c.packet 2 8 = false → surfAt s (fld c.packet 3 11 0) = some x → x.owner = 0 →
      exec (.lighthouseLoad q b) s = .next (
        if regionLegal o.cfg x (fld c.packet 4 15 0) (fld c.packet 4 31 16) = false then refuses c b stBadParam 0 0 s
        else if s.chans.any (fun e => (e.2.st == .armed || e.2.st == .running) && e.2.cfg.elim false (fun k => k.srcKind == 2 && k.srcIndex == outOf c.packet)
          && !(chanTakesRegion s e.1 e.2 (fld c.packet 4 15 0, fld c.packet 4 31 16, x.width, x.height))) = true then refuses c b stBadState 0 0 s
        else completes c b 1 0 0 (modOut s (outOf c.packet) (fun o => { o with lhStage := restage (.lhLoad (fld c.packet 3 11 0) (fld c.packet 4 15 0) (fld c.packet 4 31 16)) o.lhStage }))))) ∧
  (∀ q b s c o new states, ready 0x0404 q c s = true → outAt s (outOf c.packet) = some o → (o.owner.val = c.fn.val ∨ c.fn = 0) → commitDenied (cmdIn q c []) s = none →
    new = newLayers s c.fn.val o → states = commitStates s c.fn.val o → (atPictureOf c.packet = true → pictureOf c.packet ≤ o.next - 1 + 65536) →
    (∀ e, new.find? (fun e => !(layerParamsOk s o.cfg e)) = some e → exec (.composeCommit q b) s = .next (refuses c b stBadParam e.1 0 s)) ∧
    (new.all (fun e => layerParamsOk s o.cfg e) = true →
      ((sourceReach s 32 (states.flatMap outputSources)).contains (outOf c.packet) = true → exec (.composeCommit q b) s = .next (refuses c b stCycle 0 0 s)) ∧
      ((sourceReach s 32 (states.flatMap outputSources)).contains (outOf c.packet) = false →
        (o.dying = true → exec (.composeCommit q b) s = .next (refuses c b stBadState 0 0 s)) ∧
        (o.dying = false → atPictureOf c.packet = true → pictureOf c.packet < o.next →
          exec (.composeCommit q b) s = .next (refuses c b stBadState ((o.next - 1) % 2 ^ 32) ((o.next - 1) / 2 ^ 32) s)) ∧
        (∀ t, o.dying = false → (atPictureOf c.packet = true → o.next ≤ pictureOf c.packet) →
          new.all (fun e => layerSourceExists s e.2 && decide (srcRate o.cfg e.2 ≤ 84 / 10)) = true →
          (∀ l ∈ states, onCompositor s (outOf c.packet) o.compositor (heldPipes s true) + (l.filter (fun e => isScaled e.2)).length ≤ 16) →
          (∀ l ∈ states, onCompositor s (outOf c.packet) o.compositor (heldPipes s false) + (l.filter (fun e => !(isScaled e.2))).length ≤ 48) →
          states.findSome? (poolOverrun s (onCompositor s (outOf c.packet) o.compositor (heldNeed s))) = none →
          t = modOut s (outOf c.packet) (fun o => { o with commits := o.commits ++ [{ serial := c.serial, fn := Fin.ofNat 32 c.fn.val, number := pictureAsked c, changes := stageOf c.fn.val o }], stage := if o.owner.val = c.fn.val then [] else o.stage, lhStage := if c.fn.val = 0 then [] else o.lhStage }) →
          regionFits t (poolWith s none none) 1 = true →
          memoryCheckBut s (some (outOf c.packet)) (poolWith s none none) (maxRat (layersHbm s o.cfg) states) (maxRat (layersQdr s o.cfg) states) = none →
          exec (.composeCommit q b) s = .next (waits c [] (.outPicture (outOf c.packet) (pictureAsked c)) 0 0 t)))))

/-- Surfaces (R72, R182 to R184, R393, R500). -/
def Obligations.SurfacesHoldAndPublish : Prop :=
  (∀ q b s c, ready 0x0407 q c s = true →
    (∀ k bytes off t, formatOk (fld c.packet 2 3 0) = true → 2 ≤ fld c.packet 2 9 8 → fld c.packet 3 15 0 % 16 = 0 → 16 ≤ fld c.packet 3 15 0 →
      fld c.packet 3 15 0 ≤ 8192 → fld c.packet 3 31 16 % 8 = 0 → 8 ≤ fld c.packet 3 31 16 → fld c.packet 3 31 16 ≤ 4320 → s.surfs.lowestFree 4096 = some k →
      bytes = fld c.packet 2 9 8 * bufferSize (fld c.packet 2 3 0) (fld c.packet 3 15 0) (fld c.packet 3 31 16) → off = findGap bytes 0 (surfRanges s c.fn.val) →
      off + bytes ≤ surfwinBytes →
      t = setSurf s k { owner := Fin.ofNat 32 c.fn.val, format := fld c.packet 2 3 0, colour := fld c.packet 2 5 4, buffers := fld c.packet 2 9 8, width := fld c.packet 3 15 0, height := fld c.packet 3 31 16, offset := off } →
      regionFits t [] 12 = true → exec (.surfaceAlloc q b) s = .next (completes c b bytes k (off / 65536) t)) ∧
    (formatOk (fld c.packet 2 3 0) = false ∨ fld c.packet 2 9 8 < 2 ∨ fld c.packet 3 15 0 % 16 ≠ 0 ∨ fld c.packet 3 15 0 < 16 ∨ 8192 < fld c.packet 3 15 0 ∨ fld c.packet 3 31 16 % 8 ≠ 0 ∨
      fld c.packet 3 31 16 < 8 ∨ 4320 < fld c.packet 3 31 16 → exec (.surfaceAlloc q b) s = .next (refuses c b stBadParam 0 0 s)) ∧
    (formatOk (fld c.packet 2 3 0) = true → 2 ≤ fld c.packet 2 9 8 → fld c.packet 3 15 0 % 16 = 0 → 16 ≤ fld c.packet 3 15 0 →
      fld c.packet 3 15 0 ≤ 8192 → fld c.packet 3 31 16 % 8 = 0 → 8 ≤ fld c.packet 3 31 16 → fld c.packet 3 31 16 ≤ 4320 → s.surfs.lowestFree 4096 = none →
      exec (.surfaceAlloc q b) s = .next (refuses c b stNoResource 0 0 s))) ∧
  (∀ q b s c x, ready 0x0408 q c s = true → surfAt s (fld c.packet 2 11 0) = some x → x.owner.val = c.fn.val →
    (surfaceUsed s (fld c.packet 2 11 0) = true → exec (.surfaceFree q b) s = .next (refuses c b stBadState 0 0 s)) ∧
    (surfaceUsed s (fld c.packet 2 11 0) = false → x.pending = [] →
      exec (.surfaceFree q b) s = .next (completes c b (surfaceBytes x) 0 0 { s with surfs := s.surfs.erase (fld c.packet 2 11 0) })) ∧
    (surfaceUsed s (fld c.packet 2 11 0) = false →
      ∃ t, exec (.surfaceFree q b) s = .next (completes c b (surfaceBytes x) 0 0 t) ∧ t.surfs = s.surfs.erase (fld c.packet 2 11 0) ∧ t.outs = s.outs ∧ t.chans = s.chans)) ∧
  (∀ q b s c bs x, readyBlock 0x0409 q c b bs s = true → surfAt (blockTaken c s) (fld c.packet 5 11 0) = some x → x.owner.val = c.fn.val →
    (x.buffers ≤ fld c.packet 5 17 16 ∨ bufferBytes x.format x.width x.height < bs.length → exec (.surfaceUpdate q b) s = .next (refuses c b stBadParam 0 0 (blockTaken c s))) ∧
    (fld c.packet 5 17 16 < x.buffers → bs.length ≤ bufferBytes x.format x.width x.height →
      (x.pubs.any (fun p => p.buffer == fld c.packet 5 17 16) = true ∨ x.pending.any (fun u => u.pub.buffer == fld c.packet 5 17 16) = true →
        exec (.surfaceUpdate q b) s = .next (refuses c b stBadState 0 0 (blockTaken c s))) ∧
      (x.pubs.any (fun p => p.buffer == fld c.packet 5 17 16) = false → x.pending.any (fun u => u.pub.buffer == fld c.packet 5 17 16) = false →
        exec (.surfaceUpdate q b) s = .next (settleSurface (fld c.packet 5 11 0) (waits c bs (.flip (flipTimeOf c.packet s.time.local')) 0 0
          (modSurf (blockTaken c s) (fld c.packet 5 11 0) (fun x => { writeBuffer x (fld c.packet 5 17 16) 0 bs with pending := (writeBuffer x (fld c.packet 5 17 16) 0 bs).pending ++ [{ serial := c.serial, pub := { buffer := fld c.packet 5 17 16, flip := flipTimeOf c.packet s.time.local', contentNs := timeNsOf c.packet 6 }, bytes := bs.length }] }))))))) ∧
  (∀ dt q s c r f, acting s = true → flowCmds s (flowKey q) = c :: r → c.wait = .flip f →
    exec (.flipTime dt q) s = .next (settleSurface (fld c.packet 5 11 0) (advance dt s))) ∧
  (∀ n s x u, surfAt s n = some x → x.pending = [u] → u.flipped = false →
    (s.time.local' < u.pub.flip → surfAt (settleSurface n s) n = some x) ∧
    (u.pub.flip ≤ s.time.local' → (∀ p ∈ x.pubs, p.flip ≤ u.pub.flip ∧ p.buffer ≠ u.pub.buffer) →
      (x.pubs.all (fun p => !(bufferRead s n p.buffer)) = true →
        settleSurface n s = finishCmd u.serial u.bytes (firstUseWords u.pub).1 (firstUseWords u.pub).2 (modSurf s n (fun x => { x with pubs := [u.pub], pending := [] }))) ∧
      (x.pubs.any (fun p => bufferRead s n p.buffer) = true → settleSurface n s = modSurf s n (fun x => { x with pubs := u.pub :: x.pubs, pending := [{ u with flipped := true }] })))) ∧
  (∀ (f : Fn) offset bytes s n x, hostUp s = true → bytes ≠ [] → offset % 65536 + bytes.length ≤ 65536 →
    s.surfs.find? (fun e => e.2.owner.val == f.val && decide (e.2.offset ≤ offset) && decide (offset < e.2.offset + surfaceBytes e.2)) = some (n, x) →
    let k := (offset - x.offset) / bufferSize x.format x.width x.height
    let off := (offset - x.offset) % bufferSize x.format x.width x.height
    (isStandby s = false → x.pubs.any (fun p => p.buffer == k) = false → x.pending.any (fun u => u.pub.buffer == k) = false →
      exec (.surfwinWrite f offset bytes) s = .next (if isHolder s && s.pair.st != .unpaired then bulkSurface n k off bytes (modSurf s n (fun x => writeBuffer x k off bytes)) else modSurf s n (fun x => writeBuffer x k off bytes))) ∧
    (isStandby s = true ∨ x.pubs.any (fun p => p.buffer == k) = true ∨ x.pending.any (fun u => u.pub.buffer == k) = true → exec (.surfwinWrite f offset bytes) s = .next (surfDrop f.val s))) ∧
  (∀ (f : Fn) offset bytes s, hostUp s = true → bytes ≠ [] → offset % 65536 + bytes.length ≤ 65536 →
    s.surfs.find? (fun e => e.2.owner.val == f.val && decide (e.2.offset ≤ offset) && decide (offset < e.2.offset + surfaceBytes e.2)) = none →
    exec (.surfwinWrite f offset bytes) s = .next (surfDrop f.val s)) ∧
  (∀ (f : Fn) offset bytes s r1 r2, hostUp s = true → 65536 < offset % 65536 + bytes.length → offset % 65536 + bytes.length ≤ 131072 →
    r1 = surfwinRun f.val offset (bytes.take (65536 - offset % 65536)) s → r2 = surfwinRun f.val (offset + (65536 - offset % 65536)) (bytes.drop (65536 - offset % 65536)) r1.1 →
    exec (.surfwinWrite f offset bytes) s = .next (if r1.2 && r2.2 then r2.1 else surfDrop f.val r2.1)) ∧
  (∀ (f : Fn) offset bytes s, hostUp s = false ∨ bytes = [] → exec (.surfwinWrite f offset bytes) s = .next s)

/-- Output pictures and decoders (R72, R173 to R183, R209 to R230). -/
def Obligations.OutputPicturesAndDecodersProceed : Prop :=
  (∀ dt (n : Fin 32) s x, acting s = true → outAt s n.val = some x →
    ((advance dt s).time.local' < nsInstant (tOutNs x.cfg x.next) → exec (.outputPictureStart dt n) s = .next (advance dt s)) ∧
    (nsInstant (tOutNs x.cfg x.next) ≤ (advance dt s).time.local' →
      (x.dying = true → exec (.outputPictureStart dt n) s = .next (destroyOutput n.val (advance dt s))) ∧
      (x.dying = false → composeClocks s = true → mayCode s = true → contentReady s n.val x.next x = true → mirrorAwaited s 1 n.val x.next = false →
        (outRuns s x = false → exec (.outputPictureStart dt n) s = .next (feedChannels n.val x.next (nsInstant (tOutNs x.cfg x.next)) true (modOut (advance dt s) n.val (fun o => { o with next := x.next + 1 })))) ∧
        (outRuns s x = true → ∃ t y, exec (.outputPictureStart dt n) s = .next t ∧ outAt t n.val = some y ∧ y.next = x.next + 1 ∧ y.outPicture = x.next ∧ y.cfg = x.cfg ∧ y.owner = x.owner ∧
          y.stale = staleBits y.lastSels ∧ (∃ p, y.pics.get? x.next = some p ∧ p.sels = y.lastSels ∧ p.nextLine = 0 ∧ p.tOut = nsInstant (tOutNs x.cfg x.next)))))) ∧
  (∀ dt (n : Fin 32) bad s x m p, acting s = true → (isStandby s && inLockstep s) = false → composeClocks s = true → outAt s n.val = some x → compIn s x.compositor = true →
    x.pics.find? (fun e => decide (e.2.nextLine < x.cfg.height)) = some (m, p) →
    lineInstant x.cfg p (min (x.cfg.height - 1) (p.nextLine - p.nextLine % subY x.cfg.chroma + subY x.cfg.chroma - 1)) ≤ localQ (advance dt s) →
    ∃ t y q, exec (.outputLineCompose dt n bad) s = .next t ∧ outAt t n.val = some y ∧ y.pics.get? m = some q ∧ q.nextLine = p.nextLine + 1 ∧ q.tOut = p.tOut ∧ (q.lines.get? p.nextLine).isSome = true ∧
      y.next = x.next ∧ y.layers = x.layers ∧ y.commits = x.commits ∧ t.chans = s.chans ∧ t.surfs = s.surfs ∧ t.decs = s.decs ∧ t.flows = s.flows) ∧
  (∀ dt (n : Fin 32) m s x p, acting s = true → outAt s n.val = some x → x.pics.get? m = some p → x.cfg.height ≤ p.nextLine →
    (p.tOut : Rat) + nsQ ((x.cfg.height : Rat) * outLineNs x.cfg + outLatency x.cfg) ≤ localQ (advance dt s) →
    ∃ t y, exec (.outputPictureComplete dt n m) s = .next t ∧ outAt t n.val = some y ∧ y.pics = x.pics.erase m ∧
      y.regionHash = (if p.lh.isSome then p.hash ^^^ 0xFFFFFFFF else 0) ∧ y.layers = x.layers ∧ y.next = x.next ∧ t.chans = s.chans ∧ t.decs = s.decs) ∧
  (∀ q b s c, ready 0x0501 q c s = true → decForeign (cmdIn q c []) s = false →
    (decOf (cmdIn q c []) s = none → exec (.decOpen q b) s = .next (refuses c b stBadParam 0 0 s)) ∧
    (∀ d n e t, decOf (cmdIn q c []) s = some d → s.decs.lowestFree 32 = some n →
      leastLoaded s (((List.range 4).filter (engineTakes s d)).filter (fun e => d.lag == 0 || lagCovers d.lag (newTMin s d e))) = some e →
      (d.srcKind = 1 → d.width ≠ 0 ∧ ∃ k, chanAt s d.srcIndex = some k ∧ k.st ≠ .draining) →
      t = setDec s n { d with engine := e, lag := if d.lag = 0 then ceilDiv (newTMin s d e) 1000 else d.lag } →
      s.mem.noFit = false → regionFits t (poolWith s none none) 11 = true → memoryCheck t (poolWith s none none) 0 0 = none →
      exec (.decOpen q b) s = .next (completes c b 0 n e t))) ∧
  (∀ q b s c d, ready 0x0503 q c s = true → decAt s (fld c.packet 2 4 0) = some d → d.owner.val = c.fn.val →
    exec (.decPolicy q b) s = .next (if fld c.packet 3 2 1 = 3 then refuses c b stBadParam 0 0 s else heldForTide 0x0503 c [] s)) ∧
  (∀ q b s c d, ready 0x0502 q c s = true → decAt s (fld c.packet 2 4 0) = some d → d.owner.val = c.fn.val →
    exec (.decClose q b) s = .next (if decHeld s (fld c.packet 2 4 0) then refuses c b stBadState 0 0 s
      else completes c b 0 0 0 { freezeDecoder (fld c.packet 2 4 0) s with decs := s.decs.erase (fld c.packet 2 4 0) })) ∧
  (∀ q b s c, decAt s (fld c.packet 2 4 0) = none →
    (ready 0x0502 q c s = true → exec (.decClose q b) s = .next (refuses c b stBadParam 0 0 s)) ∧ (ready 0x0503 q c s = true → exec (.decPolicy q b) s = .next (refuses c b stBadParam 0 0 s))) ∧
  (∀ dt (e : Fin 4) a s d u r units f, acting s = true → decodeClocks s = true → decEngineIn s e.val = true → nextDecoder s e.val a.dueAfter = some a.decoder.val → decAt s a.decoder.val = some d →
    d.aus = u :: r → (isStandby s && inLockstep s) = false → decStopped s a.decoder.val d = false → units = d.history ++ [takenUnits s d u] → f = factsOf s d units a →
    ((d.startedAt = false ∧ f.startPoint = false) ∨ f.rasl = true →
      ∃ t, exec (.accessUnitDecode dt e a) s = .next t ∧ decAt t a.decoder.val = some { d with aus := r, history := if d.srcKind = 0 then units else [] } ∧ t.surfs = s.surfs ∧ t.chans = s.chans) ∧
    ((d.startedAt = true ∨ f.startPoint = true) → f.rasl = false → ∃ t y plan, plan = auPlan d (auErrors d u (takenUnits s d u) f) f ∧ exec (.accessUnitDecode dt e a) s = .next t ∧ decAt t a.decoder.val = some y ∧
      (a.parityOk = true → y.aus = r ∧ y.startedAt = true) ∧ y.nextNumber = d.nextNumber + 1 ∧
      y.pictures = (if plan.oversize then d.pictures else inc32 d.pictures) ∧ y.concealed = (if plan.concealed then inc32 d.concealed else d.concealed) ∧
      y.missingRefs = (d.missingRefs + f.missingRefs) % 2 ^ 32 ∧ y.syntaxErrors = (d.syntaxErrors + plan.errors) % 2 ^ 32 ∧ t.surfs = s.surfs)) ∧
  (∀ dt (n : Fin 32) s d due, acting s = true → decAt s n.val = some d →
    due = sortOn (fun p => p.present.getD 0) (d.waiting.filter (fun p => p.present.elim false (fun t => decide (t ≤ (advance dt s).time.local')))) →
    (due = [] ∨ decodeClocks s = false → exec (.presentationInstant dt n) s = .next (advance dt s)) ∧
    (due ≠ [] → decodeClocks s = true → exec (.presentationInstant dt n) s = .next (modDec (advance dt s) n.val (fun d => { d with
      waiting := d.waiting.filter (fun p => !(p.present.elim false (fun t => decide (t ≤ (advance dt s).time.local')))),
      presented := ((due.filter (fun p => p.show')).reverse ++ d.presented).take 3 ++ (((due.filter (fun p => p.show')).reverse ++ d.presented).drop 3).filter (fun k => decRead s n.val k.number),
      lastConcealed := (due.filter (fun p => p.show')).getLast?.elim d.lastConcealed (fun p => p.concealed) }))))

/-- Network configuration (R298, R299, R302, R308, R309, R326 to R333, R340). -/
def Obligations.NetworkConfigurationWaitsForTheTide : Prop :=
  (∀ q b s c, ready 0x0601 q c s = true → laneCfgBad c.packet = false →
    (∀ l ∈ laneRange c.packet, quadOneRate (setLanes c.packet (configAhead s)) (l / 4) = true) →
    (∀ l ∈ laneRange c.packet, l ∈ (configAhead s).net.ports.flatMap (fun e => portLanes (configAhead s) e.2.cfg) ++ flowLanes (configAhead s) ++ causewayLanes (configAhead s) →
      (laneAt (configAhead s) l).cfg.mode = fld c.packet 3 2 0) →
    exec (.laneConfig q b) s = .next (heldForTide 0x0601 c [] s)) ∧
  (∀ q b s c, ready 0x0601 q c s = true → laneCfgBad c.packet = true → exec (.laneConfig q b) s = .next (refuses c b stBadParam 0 0 s)) ∧
  (∀ q b s c, ready 0x0602 q c s = true → (portCfgOf c.packet).speed = 7 ∨ ((portCfgOf c.packet).speed = 0 ∧ (portCfgOf c.packet).fec = true) →
    exec (.portConfig q b) s = .next (refuses c b stBadParam 0 0 s)) ∧
  (∀ q b s c, ready 0x0602 q c s = true → (portCfgOf c.packet).speed = 0 → (portCfgOf c.packet).fec = false →
    exec (.portConfig q b) s = .next (heldForTide 0x0602 c [] s)) ∧
  (∀ q b s c a k rate x, ready 0x0602 q c s = true → portCfgOf c.packet = x → configAhead s = a → 1 ≤ x.speed → x.speed ≤ 6 → portRow a x.speed x.firstLane = (k, rate) →
    x.firstLane % k = 0 → x.firstLane + k ≤ 96 → (x.fec = true → x.speed = 2 ∨ (x.speed = 4 ∧ rate = 1)) → 1518 ≤ x.maxFrame → x.maxFrame ≤ 9216 →
    (∀ i, i < k → (laneAt a (x.firstLane + i)).cfg.mode = 1 ∧ (laneAt a (x.firstLane + i)).cfg.rate = rate ∧ x.firstLane + i ∉ otherPortLanes a (fld c.packet 2 3 0)) →
    ((portAt a (fld c.packet 2 3 0)).cfg = x ∨ (boundCopies a (fld c.packet 2 3 0) = [] ∧ boundInputs a (fld c.packet 2 3 0) = []) ∨
      ((portAt a (fld c.packet 2 3 0)).cfg.speed = 0 ∧ ∀ e ∈ boundCopies a (fld c.packet 2 3 0), ∀ w, flowOutAt a e.1 = some w → flowFrame a w.cfg + 4 ≤ x.maxFrame)) →
    totalSpeed (setPortCfg c.packet a) ≤ 3200000 →
    exec (.portConfig q b) s = .next (heldForTide 0x0602 c [] s)) ∧
  (∀ q b s c, ready 0x0603 q c s = true → flowInBad (configAhead s) c.packet = false →
    (∀ n ∈ inPorts (flowInCfgOf c.packet), (portAt (configAhead s) n).cfg.speed ≠ 0) →
    (configAhead s).net.flowsIn.find? (fun e => (inPaths e.2.cfg).any (fun x => (inPaths (flowInCfgOf c.packet)).contains x)) = none →
    ((configAhead s).net.flowsIn.lowestFree 1024).isSome = true →
    exec (.flowInAdd q b) s = .next (heldForTide 0x0603 c [] s)) ∧
  (∀ q b s c, ready 0x0603 q c s = true →
    (flowInBad (configAhead s) c.packet = true → exec (.flowInAdd q b) s = .next (refuses c b stBadParam 0 0 s)) ∧
    (flowInBad (configAhead s) c.packet = false → (∃ n ∈ inPorts (flowInCfgOf c.packet), (portAt (configAhead s) n).cfg.speed = 0) → exec (.flowInAdd q b) s = .next (refuses c b stBadState 0 0 s))) ∧
  (∀ q b s c x a, ready 0x0604 q c s = true → flowOutCfgOf c.packet = x → configAhead s = a → denyFlowOutAdd (cmdIn q c []) s = false → flowOutBad a x = false →
    (∀ n ∈ outPorts x, ∀ g ∈ gateLists (portAt a n), closedIn g x.queue = false) →
    (x.kind = 6 → ∀ l ∈ sdiLanes a x, (laneAt a l).cfg.mode = 3 ∧ l ∉ flowLanes a) → (x.kind = 4 → ∀ i, i < x.audio.1 → (busAt s (x.srcIndex + i)).owner ≠ none) →
    (a.net.flowsOut.lowestFree 2048).isSome = true → bucketsUsed a + (outPorts x).length ≤ 2048 → stagingUsed a + stagingOf a x ≤ 16777216 →
    (flowLoad a x = 0 ∨ sumRat qdrLoad (poolWith s none none) + otherQdr s + flowLoad a x ≤ qdrCeiling s) →
    exec (.flowOutAdd q b) s = .next (heldForTide 0x0604 c [] s)) ∧
  (∀ q b s c, ready 0x0604 q c s = true → denyFlowOutAdd (cmdIn q c []) s = false → flowOutBad (configAhead s) (flowOutCfgOf c.packet) = true →
    exec (.flowOutAdd q b) s = .next (refuses c b stBadParam 0 0 s)) ∧
  (∀ q b s c, ready 0x0605 q c s = true →
    (∀ x, flag c.packet 2 16 = true → flowOutAt s (fld c.packet 2 10 0) = some x → x.owner.val = c.fn.val → x.removed = false →
      exec (.flowRemove q b) s = .next (heldForTide 0x0605 c [] s)) ∧
    (∀ x, flag c.packet 2 16 = false → flowInAt s (fld c.packet 2 10 0) = some x → x.owner.val = c.fn.val → flowInUsed s (fld c.packet 2 10 0) = false →
      exec (.flowRemove q b) s = .next (heldForTide 0x0605 c [] s)) ∧
    (∀ x, flag c.packet 2 16 = false → flowInAt s (fld c.packet 2 10 0) = some x → x.owner.val = c.fn.val → flowInUsed s (fld c.packet 2 10 0) = true →
      exec (.flowRemove q b) s = .next (refuses c b stBadState 0 0 s)) ∧
    ((if flag c.packet 2 16 then (flowOutAt s (fld c.packet 2 10 0)).isNone else (flowInAt s (fld c.packet 2 10 0)).isNone) = true → exec (.flowRemove q b) s = .next (refuses c b stBadParam 0 0 s))) ∧
  (∀ q b s c, ready 0x0606 q c s = true →
    (∀ x, fld c.packet 2 1 0 = 0 → flowOutAt s (fld c.packet 2 26 16) = some x → x.owner.val = c.fn.val → x.removed = false → word c.packet 5 = 0 → word c.packet 6 = 0 →
      (word c.packet 3 = 0 ∨ (1000 ≤ word c.packet 3 ∧ word c.packet 3 ≤ 400000000)) → word c.packet 4 ≤ 4194304 →
      (∀ m ∈ outPorts x.cfg, (portAt s m).cfg.maxFrame + (portAt s m).overhead ≤ word c.packet 4) →
      exec (.shaperSet q b) s = .next (heldForTide 0x0606 c [] s)) ∧
    (fld c.packet 2 1 0 = 1 → c.fn = 0 → fld c.packet 2 26 16 ≤ 15 → fld c.packet 3 31 6 = 0 →
      (∀ v ∈ [fld c.packet 4 15 0, fld c.packet 4 31 16, fld c.packet 5 15 0, fld c.packet 5 31 16, fld c.packet 6 15 0], v = 0 ∨ 1536 ≤ v) →
      exec (.shaperSet q b) s = .next (heldForTide 0x0606 c [] s)) ∧
    (2 ≤ fld c.packet 2 1 0 → exec (.shaperSet q b) s = .next (refuses c b stBadParam 0 0 s))) ∧
  (∀ q b s c, ready 0x0607 q c s = true → flag c.packet 5 8 = false → indirectOf c.packet = false → fld c.packet 5 24 16 = 0 →
    exec (.gateSchedule q b) s = .next (heldForTide 0x0607 c [] s)) ∧
  (∀ q b s c bs g, readyBlock 0x0607 q c b bs s = true → flag c.packet 5 8 = true → g = gateListOf c.packet bs → 1 ≤ fld c.packet 5 24 16 → fld c.packet 5 24 16 ≤ 256 →
    word c.packet 4 = 8 * fld c.packet 5 24 16 → word c.packet 8 < 1000000000 → 1000 ≤ g.cycle → g.cycle ≤ 1000000000 → (∀ e ∈ g.entries, 100 ≤ e.2 ∧ e.2 ≤ 1000000000) →
    (∀ i, i < fld c.packet 5 24 16 → ofLe (slice bs (8 * i + 1) 3) = 0) → sumBy (fun e => e.2) g.entries = g.cycle →
    ((portAt (configAhead (blockTaken c s)) (fld c.packet 5 3 0)).cfg.speed = 0 ∨ windowTooShort (configAhead (blockTaken c s)) (fld c.packet 5 3 0) g = false) →
    (∀ e ∈ boundCopies (configAhead (blockTaken c s)) (fld c.packet 5 3 0), ∀ x, flowOutAt (configAhead (blockTaken c s)) e.1 = some x → closedIn g x.cfg.queue = false) →
    exec (.gateSchedule q b) s = .next (heldForTide 0x0607 c bs (blockTaken c s))) ∧
  (∀ q b s c, ready 0x0607 q c s = true → flag c.packet 5 8 = true → indirectOf c.packet = false → exec (.gateSchedule q b) s = .next (refuses c b stBadParam 0 0 s)) ∧
  (∀ dt (n : Port) s, acting s = true →
    (∀ g t, (portAt s n.val).nextGates = some (g, t) → t ≤ (advance dt s).time.local' →
      exec (.gateListApply dt n) s = .next (modPort (advance dt s) n.val (fun x => { x with gates := g, nextGates := none }))) ∧
    ((∀ g t, (portAt s n.val).nextGates = some (g, t) → (advance dt s).time.local' < t) → exec (.gateListApply dt n) s = .next (advance dt s))) ∧
  (∀ p s l, (l ∈ laneRange p → (laneAt (setLanes p s) l).cfg = laneCfgOf p) ∧ (l ∉ laneRange p → (laneAt (setLanes p s) l).cfg.mode = (laneAt s l).cfg.mode ∧ (laneAt (setLanes p s) l).cfg.rate = (laneAt s l).cfg.rate)) ∧
  (∀ p s j, ((portCfgOf p).speed ≠ 0 → (portAt (setPortCfg p s) (fld p 2 3 0)).cfg = portCfgOf p) ∧ ((portCfgOf p).speed = 0 → (portAt (setPortCfg p s) (fld p 2 3 0)).cfg.speed = 0) ∧
    (j ≠ fld p 2 3 0 → portAt (setPortCfg p s) j = portAt s j)) ∧
  (∀ fn p s n, s.net.flowsIn.lowestFree 1024 = some n → flowInAt (addFlowIn fn p s).1 n = some { owner := fn, cfg := flowInCfgOf p } ∧ (addFlowIn fn p s).2 = n ∧
    (∀ j, j ≠ n → flowInAt (addFlowIn fn p s).1 j = flowInAt s j) ∧ (addFlowIn fn p s).1.net.flowsOut = s.net.flowsOut ∧ (addFlowIn fn p s).1.net.ports = s.net.ports) ∧
  (∀ fn p s n, s.net.flowsOut.lowestFree 2048 = some n → (∃ x, flowOutAt (addFlowOut fn p s).1 n = some x ∧ x.owner = fn ∧ x.cfg = flowOutCfgOf p ∧ x.removed = false) ∧
    (addFlowOut fn p s).2 = n ∧ (∀ j, j ≠ n → flowOutAt (addFlowOut fn p s).1 j = flowOutAt s j) ∧ (addFlowOut fn p s).1.net.flowsIn = s.net.flowsIn) ∧
  (∀ p s x, fld p 2 1 0 = 0 → flowOutAt s (fld p 2 26 16) = some x → ∃ y, flowOutAt (applyShaper p s) (fld p 2 26 16) = some y ∧ y.cfg = x.cfg ∧
    y.copyA.bucket = { rate := word p 3, burst := word p 4, credit := min (creditNow s x.copyA.bucket) (word p 4 * 4000000), asOf := s.now } ∧
    y.copyB.bucket = { rate := word p 3, burst := word p 4, credit := min (creditNow s x.copyB.bucket) (word p 4 * 4000000), asOf := s.now } ∧ y.copyA.groups = x.copyA.groups ∧ y.copyB.groups = x.copyB.groups) ∧
  (∀ p bs s, (flag p 5 8 = false → (applyGate p bs s).1 = modPort s (fld p 5 3 0) (fun x => { x with gates := none, nextGates := none }) ∧ (applyGate p bs s).2 = (0, 0)) ∧
    (flag p 5 8 = true → (applyGate p bs s).1 = modPort s (fld p 5 3 0) (fun x => { x with nextGates := some (some (gateListOf p bs), gateStart (gateListOf p bs) s.time.local') })))

/-- Lane tests, lane faults and ports (R31, R315, R317 to R320, R338, R339); where the generator's errors fall is the model's choice (log 175). -/
def Obligations.LanesAndPortsFailAndReturn : Prop :=
  (∀ q b s c l, ready 0x0608 q c s = true → fld c.packet 2 6 0 = l → l ≤ 95 → fld c.packet 3 3 0 ≤ 7 → 1 ≤ word c.packet 4 → word c.packet 4 ≤ 2 ^ 31 → fld c.packet 5 1 0 ≠ 3 →
    (fld c.packet 5 1 0 = 2 → word c.packet 6 ≠ 0) →
    ((laneAt s l).cfg.mode = 5 → (isPam4 (laneAt s l).cfg = true → 5 ≤ fld c.packet 3 3 0) → (isPam4 (laneAt s l).cfg = false → fld c.packet 3 3 0 ≤ 4 ∨ fld c.packet 3 3 0 = 7) →
      exec (.laneTest q b) s = .next (if laneWaiters s 0x0608 l = [] then waits c [] (.laneTest l (s.now + ceilDiv (word c.packet 4 * 2 ^ 20 * 500000) (laneKbps s l))) 0 0 s else refuses c b stBadState 0 0 s)) ∧
    ((laneAt s l).cfg.mode ≠ 5 → exec (.laneTest q b) s = .next (refuses c b stBadState 0 0 s))) ∧
  (∀ dt q low high s c r l t k, acting s = true → flowCmds s (flowKey q) = c :: r → c.wait = .laneTest l t → opcodeOf c.packet = 0x0608 →
    k = (if flag c.packet 2 8 then (wrongBits ((receivedFlips (laneAt s (fld c.packet 2 6 0)).cfg low high).filter (fun x => decide (x < word c.packet 4 * 2 ^ 20))).dedup
      (injectedBits (laneAt s (fld c.packet 2 6 0)).cfg c.packet (word c.packet 4 * 2 ^ 20))).foldl (fun k e => k.wrong (patternBits (fld c.packet 3 3 0)) e) {} else ({} : LaneChecker)) →
    exec (.laneTestDone dt q low high) s = .next (if t ≤ s.now + dt then finishCmd c.serial (word c.packet 4) (k.errors % 2 ^ 32) (k.relocks % 2 ^ 32) (advance dt s) else advance dt s)) ∧
  (∀ q b s c l, ready 0x0609 q c s = true → indirectOf c.packet = true → flag c.packet 6 7 = false → fld c.packet 6 6 0 = l → l ≤ 95 → 1 ≤ fld c.packet 5 5 0 → fld c.packet 5 5 0 ≤ 32 →
    fld c.packet 5 13 8 ≠ 0 → 20 ≤ fld c.packet 5 21 16 → fld c.packet 5 21 16 ≤ 40 → fld c.packet 6 9 8 ≤ 2 → 4 * (laneUnits c.packet).2.2 ≤ word c.packet 4 →
    (fld c.packet 6 9 8 = 0 ∨ (isPam4 (laneAt s l).cfg = true ∧ (laneAt s l).cfg.mode ≠ 2)) →
    ((laneAt s l).cfg.mode ≠ 0 → (laneAt s l).cfg.mode ≠ 3 → (laneAt s l).fault = false →
      ((allCmds s).filter (fun e => opcodeOf e.2.packet == 0x0609 && (match e.2.wait with | .laneTest _ _ => true | _ => false))).length < 4 →
      exec (.eyeScan q b) s = .next (waits c [] (.laneTest l (s.now + ceilDiv ((laneUnits c.packet).2.2 * (laneUnits c.packet).2.1 * 500000) (laneKbps s l))) 0 0 s)) ∧
    ((laneAt s l).cfg.mode = 0 ∨ (laneAt s l).cfg.mode = 3 ∨ (laneAt s l).fault = true → exec (.eyeScan q b) s = .next (refuses c b stBadState 0 0 s))) ∧
  (∀ dt q counts b s c r l t, acting s = true → flowCmds s (flowKey q) = c :: r → findCmd s c.serial = some (flowKey q, c) → c.wait = .laneTest l t → opcodeOf c.packet = 0x0609 →
    (s.now + dt < t → exec (.eyeScanDone dt q counts b) s = .next (advance dt s)) ∧
    (t ≤ s.now + dt → blockOpen c b s = true → exec (.eyeScanDone dt q counts b) s = .next (completeCmd c.serial stOk (laneUnits c.packet).2.2 0 0
      ((List.range (laneUnits c.packet).2.2).flatMap (fun i => le 4 ((counts.getD i 0).toNat))) b.recordOk
      (if c.ferry.isSome then advance dt s else emit (advance dt s) (.answer c.fn.val (dword c.packet 2) ((List.range (laneUnits c.packet).2.2).flatMap (fun i => le 4 ((counts.getD i 0).toNat))))))) ∧
    (t ≤ s.now + dt → blockOpen c b s = false → exec (.eyeScanDone dt q counts b) s = .next (answerFails c b (advance dt s)))) ∧
  (∀ (l : Lane) k p s, acting s = true →
    (causeFits (laneAt s l.val).cfg.mode k = false ∨ causeMet k = false → exec (.laneFault l ⟨k, p⟩) s = .next s) ∧
    (causeFits (laneAt s l.val).cfg.mode k = true → causeMet k = true →
      ∃ t, exec (.laneFault l ⟨k, p⟩) s = .next t ∧ (laneAt t l.val).fault = true ∧
        (laneAt t l.val).faults = (if (laneAt s l.val).fault then (laneAt s l.val).faults else satInc (laneAt s l.val).faults 65535) ∧
        (laneAt t l.val).highBer = ((laneAt s l.val).highBer || k == .highBer) ∧ (laneAt t l.val).cfg = (laneAt s l.val).cfg ∧
        (∀ j, j ≠ l.val → laneAt t j = laneAt s j) ∧ t.net.flowsIn = s.net.flowsIn ∧ t.outs = s.outs ∧ t.decs = s.decs)) ∧
  (∀ (l : Lane) n s, acting s = true → exec (.laneRelock ⟨l, n⟩) s = .next (if (laneAt s l.val).cfg.mode = 4 ∧ n < 4 then s else modLane s l.val (fun x => { x with fault := false, refLost := false, highBer := false }))) ∧
  (∀ (n : Port) u r s, acting s = true → (portAt s n.val).cfg.speed ≠ 0 → (portAt s n.val).down = false →
    (portLaneFault s n.val = true ∨ (portFec s (portAt s n.val).cfg = true ∧ 10 < u) →
      ∃ t, exec (.portDown n ⟨u, r⟩) s = .next t ∧ (portAt t n.val).down = true ∧ (portAt t n.val).linkDowns = inc32 (portAt s n.val).linkDowns ∧ (portAt t n.val).sending = none ∧
        (portAt t n.val).busyUntil = s.now ∧ (portAt t n.val).cfg = (portAt s n.val).cfg ∧ (portAt t n.val).remoteFault = r ∧
        (∀ j, j ≠ n.val → (portAt t j).cfg = (portAt s j).cfg ∧ (portAt t j).down = (portAt s j).down) ∧ t.net.flowsIn = s.net.flowsIn) ∧
    (portLaneFault s n.val = false → portFec s (portAt s n.val).cfg = false → exec (.portDown n ⟨u, r⟩) s = .next (modPort s n.val (fun x => { x with remoteFault := r }))) ∧
    (portLaneFault s n.val = false → portFec s (portAt s n.val).cfg = true → u ≤ 10 →
      ∃ t, exec (.portDown n ⟨u, r⟩) s = .next t ∧ (portAt t n.val).down = false ∧ (portAt t n.val).fecUncorr = ((portAt s n.val).fecUncorr + u) % 2 ^ 32 ∧ (portAt t n.val).remoteFault = r)) ∧
  (∀ (n : Port) u r s, acting s = true → (portAt s n.val).cfg.speed = 0 → exec (.portDown n ⟨u, r⟩) s = .next s) ∧
  (∀ (n : Port) r s, acting s = true →
    (portLaneFault s n.val = true → exec (.portUp ⟨n, r⟩) s = .next (modPort s n.val (fun x => { x with remoteFault := r }))) ∧
    (portLaneFault s n.val = false → ∃ t, exec (.portUp ⟨n, r⟩) s = .next t ∧ (portAt t n.val).down = false ∧ (portAt t n.val).fecDown = false ∧ (portAt t n.val).cfg = (portAt s n.val).cfg ∧
      (∀ j, j ≠ n.val → portAt t j = portAt s j) ∧ t.net.flowsOut = s.net.flowsOut ∧ t.net.flowsIn = s.net.flowsIn))

/-- The PTP instance (R346 to R353). -/
def Obligations.PtpFollowsItsMaster : Prop :=
  (∀ q b s c x, ready 0x0701 q c s = true → ptpCfgOf c.packet = x → x.profile ≤ 2 → x.announceTimeout ≠ 1 → x.announceTimeout ≤ 10 → (x.domain ≤ 127 ∨ x.domain = 0xFF) →
    (∀ p, p < 16 → x.ports.getLsbD p = true ∨ x.tcPorts.getLsbD p = true → (portAt s p).cfg.speed ≠ 0) →
    exec (.ptpConfig q b) s = .next (heldForTide 0x0701 c [] s)) ∧
  (∀ q b s c x p, ready 0x0701 q c s = true → ptpCfgOf c.packet = x → x.profile ≤ 2 → x.announceTimeout ≠ 1 → x.announceTimeout ≤ 10 → (x.domain ≤ 127 ∨ x.domain = 0xFF) →
    p < 16 → (x.ports.getLsbD p = true ∨ x.tcPorts.getLsbD p = true) → (portAt s p).cfg.speed = 0 → exec (.ptpConfig q b) s = .next (refuses c b stBadState 0 0 s)) ∧
  (∀ q b s c (d : Int), ready 0x0702 q c s = true →
    ((fld c.packet 2 1 0 = 0 ∧ fld c.packet 4 31 16 = 0 ∧ word c.packet 5 < 1000000000 ∧ d = (nsInstant (timeNsOf c.packet 3) : Int) - (s.time.local' : Int)) ∨
      (fld c.packet 2 1 0 = 1 ∧ d = signedOf (dword c.packet 3) 64 * (nsUnit : Int))) →
    (s.time.ptp.cfg.role = false → (guardArmed s = false ∨ flag c.packet 2 2 = true ∨ d.natAbs ≤ s.time.jumpLimit * nsUnit) →
      exec (.timeSet q b) s = .next (completes c b 1 (resultPair (wholeNs d)).1 (resultPair (wholeNs d)).2 (stepClock d s))) ∧
    (s.time.ptp.cfg.role = true ∨ (guardArmed s = true ∧ flag c.packet 2 2 = false ∧ s.time.jumpLimit * nsUnit < d.natAbs) → exec (.timeSet q b) s = .next (refuses c b stBadState 0 0 s))) ∧
  (∀ q b s c, ready 0x0702 q c s = true →
    (fld c.packet 2 1 0 = 2 → exec (.timeSet q b) s = .next (if s.time.ptp.st = .refused then waits c [] .sync 0 0 s else refuses c b stBadState 0 0 s)) ∧
    (fld c.packet 2 1 0 = 3 → exec (.timeSet q b) s = .next (refuses c b stBadParam 0 0 s))) ∧
  (∀ (d : Int) s, (stepClock d s).time.local' = (((s.time.local' : Int) + d) % (clockModulus : Int)).toNat ∧ (stepClock d s).time.stepped = true ∧
    (stepClock d s).time.ptp.steps = inc32 s.time.ptp.steps ∧ (stepClock d s).chans = s.chans ∧ (stepClock d s).net = s.net) ∧
  (∀ dt (p : Port) a s, acting s = true → clockLost s .time = false → s.time.ptp.cfg.role = true → ptpPort s p.val = true → a.domain = ptpDomain s.time.ptp.cfg → a.stepsRemoved < 255 →
    ∃ t, exec (.announce dt p a) s = .next t ∧
      (∃ x ∈ t.time.ptp.foreign, x.port = p.val ∧ x.data = a ∧ x.times.head? = some (s.now + dt)) ∧
      (∀ y ∈ s.time.ptp.foreign, (y.port ≠ p.val ∨ y.data.source ≠ a.source) → y ∈ t.time.ptp.foreign) ∧
      (∀ x, s.time.ptp.master = none → bestMaster t = some x → t.time.ptp.master = some x ∧ t.time.ptp.st = .acquiring ∧ t.time.ptp.offsets = []) ∧
      t.time.addend = s.time.addend ∧ t.chans = s.chans ∧ t.net = s.net) ∧
  (∀ dt (p : Port) a s, acting s = true → s.time.ptp.cfg.role = false ∨ ptpPort s p.val = false ∨ a.domain ≠ ptpDomain s.time.ptp.cfg ∨ 255 ≤ a.stepsRemoved → exec (.announce dt p a) s = .next (advance dt s)) ∧
  (∀ dt (p : Port) a m t1 t2 cor iv s, acting s = true → clockLost s .time = true → exec (.announce dt p a) s = .next (advance dt s) ∧ exec (.sync dt p m t1 t2 cor iv) s = .next (advance dt s) ∧
    exec (.followUp dt p m t1 cor) s = .next (advance dt s) ∧ exec (.delayResp dt p m t2 cor iv) s = .next (advance dt s) ∧ exec (.delayReq dt t1) s = .next (advance dt s) ∧ exec (.masterLost dt) s = .next (advance dt s)) ∧
  (∀ dt (p : Port) m t1 t2 cor iv s, acting s = true → fromMaster s p.val m = false → exec (.sync dt p m t1 t2 cor iv) s = .next (advance dt s) ∧
    exec (.followUp dt p m t1 cor) s = .next (advance dt s) ∧ exec (.delayResp dt p m t2 cor iv) s = .next (advance dt s)) ∧
  (∀ dt (p : Port) m t1 t2 cor iv s, acting s = true → clockLost s .time = false → fromMaster s p.val m = true → syncIntervalOk iv = true →
    (m.twoStep = true → exec (.sync dt p m t1 t2 cor iv) s = .next { advance dt s with
      time.ptp.lastSync := s.now + dt, time.ptp.syncInterval := iv, time.ptp.pendingSync := some (m.sequence, t2, cor) }) ∧
    (m.twoStep = false → ∃ t, exec (.sync dt p m t1 t2 cor iv) s = .next t ∧ t.time.ptp.lastSync = s.now + dt ∧ t.time.ptp.syncInterval = iv ∧
      t.time.ptp.syncRx = inc32 s.time.ptp.syncRx ∧ t.time.ptp.msDelay = t2 - t1 - cor ∧ t.time.ptp.cfg = s.time.ptp.cfg)) ∧
  (∀ dt (p : Port) m t1 t2 cor cor0 s, acting s = true → clockLost s .time = false → fromMaster s p.val m = true → s.time.ptp.pendingSync = some (m.sequence, t2, cor0) →
    ∃ t, exec (.followUp dt p m t1 cor) s = .next t ∧ t.time.ptp.syncRx = inc32 s.time.ptp.syncRx ∧ t.time.ptp.msDelay = t2 - t1 - cor ∧ t.time.ptp.pendingSync = none) ∧
  (∀ dt (p : Port) m t3 t4 cor iv s, acting s = true → clockLost s .time = false → fromMaster s p.val m = true → s.time.ptp.pendingReq = some (m.sequence, t3) →
    ∃ t, exec (.delayResp dt p m t4 cor iv) s = .next t ∧ t.time.ptp.paths = (((s.time.ptp.msDelay + (t4 - t3 - cor)) / 2) :: s.time.ptp.paths).take 16 ∧
      t.time.ptp.pendingReq = none ∧ t.time.ptp.reqInterval = iv ∧ t.time.ptp.offsets = s.time.ptp.offsets ∧ t.time.addend = s.time.addend ∧ t.time.ptp.st = s.time.ptp.st) ∧
  (∀ dt t3 m s, acting s = true → clockLost s .time = false → s.time.ptp.master = some m → s.time.ptp.cfg.role = true → (portAt s m.port).down = false →
    s.time.ptp.lastReq + ticksNs s.time.ptp.reqInterval ≤ s.now + dt →
    exec (.delayReq dt t3) s = .next (emit { advance dt s with
      time.ptp := { s.time.ptp with pendingReq := some (s.time.ptp.nextReqSeq, t3), nextReqSeq := (s.time.ptp.nextReqSeq + 1) % 65536, lastReq := s.now + dt } } (.fwFrame m.port 0 86))) ∧
  (∀ dt t3 m s, acting s = true → s.time.ptp.master = some m → s.now + dt < s.time.ptp.lastReq + ticksNs s.time.ptp.reqInterval → exec (.delayReq dt t3) s = .next (advance dt s)) ∧
  (∀ dt m s, acting s = true → s.time.ptp.master = some m → s.now + dt < s.time.ptp.lastAnnounce + ticksNs (announceLimit s.time.ptp.cfg * m.data.intervalNs) →
    s.now + dt < s.time.ptp.lastSync + ticksNs (8 * s.time.ptp.syncInterval) → exec (.masterLost dt) s = .next (advance dt s)) ∧
  (∀ dt m s, acting s = true → clockLost s .time = false → s.time.ptp.master = some m →
    (s.time.ptp.lastAnnounce + ticksNs (announceLimit s.time.ptp.cfg * m.data.intervalNs) ≤ s.now + dt ∨ s.time.ptp.lastSync + ticksNs (8 * s.time.ptp.syncInterval) ≤ s.now + dt) →
    ∃ t, exec (.masterLost dt) s = .next t ∧ t.time.ptp.master = none ∧ t.time.ptp.st = (if s.time.ptp.st = .locked then .holdover else .listening) ∧
      (s.time.ptp.st ≠ .locked ∨ followsHolder s = true → t.time.addend = s.time.addend) ∧
      (∀ l, s.time.ptp.st = .locked → followsHolder s = false → l = trimLog holdSpan (closeLog (s.now + dt) s.time.ptp.addendLog) → (logSum holdSpan l).2 ≠ 0 →
        t.time.addend = clampAddend ((logSum holdSpan l).1 / (logSum holdSpan l).2)) ∧ t.chans = s.chans ∧ t.net = s.net)

/-- Pulses, triggers and control cycles (R355 to R360). -/
def Obligations.PulsesAndTriggersAct : Prop :=
  (∀ q b s c o, ready 0x0703 q c s = true → fld c.packet 2 1 0 = o → (∀ x, s.time.pulses.get? o = some x → x.owner.val = c.fn.val) →
    (pulseOk c.packet = false → exec (.pulseSet q b) s = .next (refuses c b stBadParam 0 0 s)) ∧
    (pulseOk c.packet = true → fld c.packet 2 3 2 ≠ 0 → nsInstant (timeNsOf c.packet 3) ≤ s.time.local' → exec (.pulseSet q b) s = .next (refuses c b stBadState 0 0 s)) ∧
    (pulseOk c.packet = true → fld c.packet 2 3 2 = 0 → exec (.pulseSet q b) s = .next (completes c b 1 0 0 (drivePulse o (flag c.packet 2 4) { s with time.pulses := s.time.pulses.erase o }))) ∧
    (pulseOk c.packet = true → fld c.packet 2 3 2 ≠ 0 → s.time.local' < nsInstant (timeNsOf c.packet 3) →
      exec (.pulseSet q b) s = .next (completes c b 1 0 0 (drivePulse o (flag c.packet 2 4) { s with time.pulses := s.time.pulses.set o { owner := Fin.ofNat 32 c.fn.val, mode := fld c.packet 2 3 2, activeLow := flag c.packet 2 4, start := nsInstant (timeNsOf c.packet 3), num := word c.packet 6, den := fld c.packet 7 15 0, width := word c.packet 8 } })))) ∧
  (∀ q b s c n, ready 0x0704 q c s = true → fld c.packet 2 1 0 = n → (∀ x, s.time.triggers.get? n = some x → x.owner.val = c.fn.val) → triggerOk c.packet = true →
    (fld c.packet 2 3 2 = 2 → s.time.local' < nsInstant (timeNsOf c.packet 3)) →
    ∃ t, exec (.triggerSet q b) s = .next (completes c b 1 0 0 t) ∧ (t.time.capt.getD n {}).count = 0 ∧
      t.time.triggers = (if fld c.packet 2 3 2 = 0 then s.time.triggers.erase n else s.time.triggers.set n { owner := Fin.ofNat 32 c.fn.val, source := fld c.packet 2 3 2, edge := fld c.packet 2 5 4, action := fld c.packet 2 9 8, at' := nsInstant (timeNsOf c.packet 3), num := word c.packet 6, den := fld c.packet 7 15 0 }) ∧
      t.outs = s.outs ∧ t.surfs = s.surfs ∧ t.net = s.net) ∧
  (∀ q b s c, ready 0x0704 q c s = true → (∀ x, s.time.triggers.get? (fld c.packet 2 1 0) = some x → x.owner.val = c.fn.val) →
    (triggerOk c.packet = false → exec (.triggerSet q b) s = .next (refuses c b stBadParam 0 0 s)) ∧
    (triggerOk c.packet = true → fld c.packet 2 3 2 = 2 → nsInstant (timeNsOf c.packet 3) ≤ s.time.local' → exec (.triggerSet q b) s = .next (refuses c b stBadState 0 0 s))) ∧
  (∀ dt (o : Fin 4) s x, acting s = true → s.time.pulses.get? o.val = some x →
    (pulseDue (advance dt s) x = false ∨ clockLost s .time = true → exec (.pulseStart dt o) s = .next (advance dt s)) ∧
    ((∀ u, x.highUntil = some u → 2 * (s.now + dt) < u) ∨ clockLost s .time = true → exec (.pulseEnd dt o) s = .next (advance dt s))) ∧
  (∀ dt (o : Fin 4) s x, acting s = true → clockLost s .time = false → s.time.pulses.get? o.val = some x →
    (pulseDue (advance dt s) x = true → exec (.pulseStart dt o) s = .next (drivePulse o.val (!x.activeLow)
      { advance dt s with time.pulses := s.time.pulses.set o.val { x with k := x.k + 1, highUntil := some (2 * (s.now + dt) + x.width) } })) ∧
    (∀ u, x.highUntil = some u → u ≤ 2 * (s.now + dt) →
      exec (.pulseEnd dt o) s = .next (drivePulse o.val x.activeLow { advance dt s with time.pulses := s.time.pulses.set o.val { x with highUntil := none } }))) ∧
  (∀ (o : Fin 4) h s, (drivePulse o.val h s).time.pulseOut.getLsbD o.val = h ∧ (∀ j, j ≠ o.val → (drivePulse o.val h s).time.pulseOut.getLsbD j = s.time.pulseOut.getLsbD j)) ∧
  (∀ dt (n : Fin 4) r h u s x, acting s = true → s.time.triggers.get? n.val = some x →
    (clockLost s .time = false → x.source = 1 → 4 ≤ h → (x.edge = 2 ∨ (x.edge = 0 ∧ r = true) ∨ (x.edge ≠ 0 ∧ r = false)) → exec (.triggerEdge dt n r ⟨h, u⟩) s = .next (fire n.val x u (advance dt s))) ∧
    (clockLost s .time = true ∨ x.source ≠ 1 ∨ h < 4 ∨ (x.edge = 0 ∧ r = false) ∨ (x.edge = 1 ∧ r = true) → exec (.triggerEdge dt n r ⟨h, u⟩) s = .next (advance dt s))) ∧
  (∀ dt (n : Fin 4) s x, acting s = true → clockLost s .time = false → s.time.triggers.get? n.val = some x → x.source = 2 → x.fired = false → x.at' ≤ (advance dt s).time.local' →
    exec (.triggerTime dt n) s = .next (fire n.val { x with fired := true } x.at' { advance dt s with time.triggers := s.time.triggers.set n.val { x with fired := true } })) ∧
  (∀ n x u s, (fire n x u s).time.capt.getD n {} = { sec := instantNs u / 1000000000, ns := instantNs u % 1000000000, valid := true, overrun := (s.time.capt.getD n {}).overrun || (s.time.capt.getD n {}).valid, count := inc32 (s.time.capt.getD n {}).count, src := true } ∧
    (∀ j, j ≠ n → (fire n x u s).time.capt.getD j {} = s.time.capt.getD j {}) ∧
    (x.action = 2 → x.cycle = none → (fire n x u s).time.triggers.get? n = some { x with cycle := some (u, 0) } ∧ (fire n x u s).chans = s.chans) ∧
    (∀ c y, x.action = 1 → chanAt s c = some y → y.st = .armed → y.run.startMode = 2 → y.run.trigger = n → y.run.captured = none → y.run.startAt ≤ u →
      chanAt (fire n x u s) c = some { y with st := .running, run := { y.run with captured := some u } })) ∧
  (∀ dt (n : Fin 4) s x c k, acting s = true → clockLost s .time = false → s.time.triggers.get? n.val = some x → x.cycle = some (c, k) →
    (seriesInstant c x.num x.den k ≤ (advance dt s).time.local' →
      exec (.controlEvent dt n) s = .next (controlFire n.val k x { advance dt s with time.triggers := s.time.triggers.set n.val { x with cycle := some (c, k + 1) } })) ∧
    ((advance dt s).time.local' < seriesInstant c x.num x.den k → exec (.controlEvent dt n) s = .next (advance dt s))) ∧
  (∀ n k x s, (s.harbour.trigThreads.get? n = none → controlFire n k x s = postEvent x.owner.val 0 n (k % 2 ^ 32) s) ∧
    (∀ u, s.harbour.trigThreads.get? n = some u → controlFire n k x s = threadPost u (postEvent x.owner.val 0 n (k % 2 ^ 32) s)))

/-- Audio (R363 to R376). -/
def Obligations.AudioPortsAndBusesRun : Prop :=
  (∀ q b s c, ready 0x0801 q c s = true →
    (fld c.packet 2 3 0 = 15 → 1000 ≤ fld c.packet 4 15 0 → fld c.packet 4 15 0 ≤ 20000 →
      exec (.audPortConfig q b) s = .next (if ((audPortCfgOf c.packet).fs96 = s.audio.fs96 ∧ fld c.packet 4 15 0 = s.audio.busLat) ∨ routeUses s 15 = false then heldForTide 0x0801 c [] s else refuses c b stBadState 0 0 s)) ∧
    (∀ x, fld c.packet 2 3 0 ≤ 7 → audPortCfgOf c.packet = x → x.format ≠ 3 → (x.format ≠ 0 → 1 ≤ x.slots ∧ x.slots ≤ 32 ∧ x.slots * 32 * portRate x ≤ 49152000) → (x.format = 2 → x.slots = 2) →
      exec (.audPortConfig q b) s = .next (if x = (audPortAt s (fld c.packet 2 3 0)).cfg ∨ routeUses s (fld c.packet 2 3 0) = false then heldForTide 0x0801 c [] s else refuses c b stBadState 0 0 s)) ∧
    ((8 ≤ fld c.packet 2 3 0 ∧ fld c.packet 2 3 0 ≠ 15) ∨ (fld c.packet 2 3 0 = 15 ∧ (fld c.packet 4 15 0 < 1000 ∨ 20000 < fld c.packet 4 15 0)) ∨ (fld c.packet 2 3 0 ≤ 7 ∧ (audPortCfgOf c.packet).format = 3) →
      exec (.audPortConfig q b) s = .next (refuses c b stBadParam 0 0 s))) ∧
  (∀ q b s c n t, ready 0x0802 q c s = true → c.fn = 0 → fld c.packet 2 3 0 = n → n ≤ 7 →
    t = waits c [] .audio 0 0 (modAudPort s n (fun x => { x with nextMasks := x.nextMasks ++ [(c.serial, word c.packet 3, word c.packet 4)] })) →
    exec (.audSlotmask q b) s = .next (if (audPortAt s n).st < 2 then applyMasks n t else t)) ∧
  (∀ q b s c, ready 0x0803 q c s = true → denyAudRoute (cmdIn q c []) s = false → fld c.packet 2 1 0 = 0 →
    (fld c.packet 3 1 0 = 0 → exec (.audRoute q b) s = .next (waits c [] .audio 0 0 (askSource (cmdIn q c []) (fld c.packet 2 14 8) .none s))) ∧
    (fld c.packet 3 1 0 = 1 → fld c.packet 3 31 16 ≤ 7 → fld c.packet 3 15 8 ≤ 31 →
      (portOnBus s (fld c.packet 3 31 16) = true ∨ asrcNeed s (((busTargets s).erase (fld c.packet 2 14 8)).map (fun e => e.2)) (txAhead s) < 128) →
      exec (.audRoute q b) s = .next (waits c [] .audio 0 0 (askSource (cmdIn q c []) (fld c.packet 2 14 8) (.slot (fld c.packet 3 31 16) (fld c.packet 3 15 8)) s))) ∧
    (∀ x, fld c.packet 3 1 0 = 2 → flowInAt s (fld c.packet 3 31 16) = some x → x.cfg.kind = 3 → fld c.packet 3 15 8 < x.cfg.audio.1 →
      exec (.audRoute q b) s = .next (waits c [] .audio 0 0 (askSource (cmdIn q c []) (fld c.packet 2 14 8) (.flow (fld c.packet 3 31 16) (fld c.packet 3 15 8)) s)))) ∧
  (∀ q b s c, ready 0x0803 q c s = true → denyAudRoute (cmdIn q c []) s = false → fld c.packet 3 1 0 = 0 →
    (fld c.packet 2 1 0 = 1 → fld c.packet 3 31 16 ≤ 7 → fld c.packet 3 15 8 ≤ 31 →
      (flag c.packet 4 0 = false ∨ asrcNeed s ((busTargets s).map (fun e => e.2)) (txConnect c.packet (txAhead s)) ≤ 128) →
      exec (.audRoute q b) s = .next (waits c [] .audio 0 0 { s with audio.nextRoutes := s.audio.nextRoutes ++ [c.serial] })) ∧
    (∀ x, fld c.packet 2 1 0 = 2 → (fld c.packet 3 15 8 = 2 ∨ fld c.packet 3 15 8 = 4 ∨ fld c.packet 3 15 8 = 6 ∨ fld c.packet 3 15 8 = 8) → fld c.packet 2 14 8 + fld c.packet 3 15 8 ≤ 128 →
      fld c.packet 3 31 16 ≤ 63 → (∃ y, chanAt s (fld c.packet 3 31 16) = some y ∧ x = startedChan s y) →
      (flag c.packet 4 0 = false ∨ (s.audio.fs96 = false ∧
        (chanFlows s (fld c.packet 3 31 16)).any (fun w => (flowOutAt s w).elim false (fun y => y.cfg.kind == 1 || y.cfg.kind == 2)) = true ∧
        ∃ g, chanGeom s x = some g ∧ st302Room s x (delayOf g x.delayReq) = true)) →
      exec (.audRoute q b) s = .next (waits c [] .audio 0 0 { s with audio.nextRoutes := s.audio.nextRoutes ++ [c.serial] }))) ∧
  (∀ q b s c, ready 0x0804 q c s = true → (muteBuses c.packet).any (busForeign s c.fn.val) = false → (∃ n ∈ muteBuses c.packet, 127 < n) → exec (.audMute q b) s = .next (refuses c b stBadParam 0 0 s)) ∧
  (∀ q b s c, ready 0x0804 q c s = true → (∀ n ∈ muteBuses c.packet, n ≤ 127 ∧ busForeign s c.fn.val n = false) →
    ∃ t, exec (.audMute q b) s = .next (waits c [] .audio 0 0 t) ∧ t.audio.cmds = s.audio.cmds.set c.serial (muteBuses c.packet, 0, false) ∧
      (∀ n ∈ muteBuses c.packet, (busAt t n).next = (busAt s n).next ++ [(if flag c.packet 3 0 then .mute c.serial else .unmute c.serial, flag c.packet 3 1)] ∧
        (busAt t n).muted = (busAt s n).muted ∧ (busAt t n).src = (busAt s n).src) ∧ (∀ n, n ∉ muteBuses c.packet → busAt t n = busAt s n) ∧ t.chans = s.chans ∧ t.net = s.net) ∧
  (∀ dt (n : Fin 8) stamp xs s x j, acting s = true → audPortAt s n.val = x → x.st ≠ 0 → x.cfg.master = true → j = (advance dt s).time.local' * portRate x.cfg / (1000000000 * nsUnit) →
    (x.nextFrame = j + 1 → exec (.portFrame dt n stamp xs) s = .next (advance dt s)) ∧
    (x.nextFrame ≠ j + 1 → ∃ t, exec (.portFrame dt n stamp xs) s = .next t ∧ (audPortAt t n.val).nextFrame = j + 1 ∧ (audPortAt t n.val).frames = x.frames + 1 ∧ (audPortAt t n.val).nextMasks = [] ∧
      ((audPortAt t n.val).recent.head?.map (fun e => e.1)) = some ((j * 1000000000 * 65536 / portRate x.cfg : Nat) : Int) ∧ (audPortAt t n.val).cfg = x.cfg ∧
      (∀ k, k ≠ n.val → audPortAt t k = audPortAt s k) ∧ t.audio.buses = s.audio.buses)) ∧
  (∀ dt (n : Fin 8) stamp xs s x, acting s = true → audPortAt s n.val = x → (x.st = 0 ∨ (x.st = 1 ∧ x.cfg.master = false)) → exec (.portFrame dt n stamp xs) s = .next (advance dt s)) ∧
  (∀ dt (n : Fin 8) stamp xs s x, acting s = true → audPortAt s n.val = x → 2 ≤ x.st → x.cfg.master = false → x.u = none →
    ∃ t, exec (.portFrame dt n stamp xs) s = .next t ∧ (audPortAt t n.val).frames = x.frames + 1 ∧ (audPortAt t n.val).stamps = (stamp :: x.stamps).take 1025 ∧
      (audPortAt t n.val).u = some ((stamp / 65536 : Nat) : Int) ∧ (audPortAt t n.val).cfg = x.cfg ∧ (∀ k, k ≠ n.val → audPortAt t k = audPortAt s k)) ∧
  (∀ dt (n : Fin 8) stamp xs s x u e, acting s = true → audPortAt s n.val = x → 2 ≤ x.st → x.cfg.master = false → x.u = some u → e = ((stamp / 65536 : Nat) : Int) - (u + periodEstimate x ((stamp / 65536 : Nat) : Int)) →
    ∃ t, exec (.portFrame dt n stamp xs) s = .next t ∧ (audPortAt t n.val).cfg = x.cfg ∧ (∀ k, k ≠ n.val → audPortAt t k = audPortAt s k) ∧
      (-(nominalPeriod x.cfg / 2) ≤ e → e ≤ nominalPeriod x.cfg / 2 → (audPortAt t n.val).frames = x.frames + 1 ∧ (audPortAt t n.val).u = some (u + periodEstimate x ((stamp / 65536 : Nat) : Int) + e / 4096) ∧
        (audPortAt t n.val).inserted = x.inserted ∧ (audPortAt t n.val).dropped = x.dropped) ∧
      (e < -(nominalPeriod x.cfg / 2) → (audPortAt t n.val).frames = x.frames ∧ (audPortAt t n.val).dropped = inc32 x.dropped ∧ (audPortAt t n.val).u = x.u ∧ (audPortAt t n.val).inserted = x.inserted) ∧
      (nominalPeriod x.cfg / 2 < e → (audPortAt t n.val).frames = x.frames + 2 ∧ (audPortAt t n.val).inserted = inc32 x.inserted ∧ (audPortAt t n.val).dropped = x.dropped)) ∧
  (∀ dt s, acting s = true → clockLost s .fab = false → busDue (advance dt s) s.audio.nextSample (advance dt s).time.local' = true → busInputsReady s s.audio.nextSample = true →
    ∃ t, exec (.busFrame dt) s = .next t ∧ t.audio.nextSample = s.audio.nextSample + 1 ∧ t.audio.nextRoutes = [] ∧ t.audio.resets = [] ∧ t.outs = s.outs ∧ t.decs = s.decs ∧ t.net.ports = s.net.ports) ∧
  (∀ dt s, acting s = true → clockLost s .fab = true ∨ busDue (advance dt s) s.audio.nextSample (advance dt s).time.local' = false ∨ busInputsReady s s.audio.nextSample = false →
    exec (.busFrame dt) s = .next (advance dt s)) ∧
  (∀ i s b, (busAt s b).next = [] → (busAt s b).armed = none → (busAt s b).muted = true →
    (busStep i s b).audio.samples.getD b [] = ((i, 0) :: s.audio.samples.getD b []).take 4096 ∧ (∀ k, k ≠ b → busAt (busStep i s b) k = busAt s k)) ∧
  (∀ dt (n : Fin 128) s, acting s = true →
    exec (.muteTimeout dt n) s = .next (if armLate s s.audio.nextSample (busAt s n.val) && busDue s s.audio.nextSample (advance dt s).time.local' then busSwitch n.val s.audio.nextSample true (advance dt s) else advance dt s)) ∧
  (∀ dt (n : Fin 8) k s, acting s = true →
    (audioCauseMet (advance dt s) n.val k = true → 2 ≤ (audPortAt s n.val).st →
      ∃ t, exec (.audioClockLoss ⟨dt, n, k⟩) s = .next t ∧ (audPortAt t n.val).st = 1 ∧ (audPortAt t n.val).losses = inc32 (audPortAt s n.val).losses ∧ (audPortAt t n.val).nextMasks = [] ∧
        (∀ k, k ≠ n.val → audPortAt t k = audPortAt s k) ∧ t.audio.buses = s.audio.buses) ∧
    (audioCauseMet (advance dt s) n.val k = false ∨ (audPortAt s n.val).st < 2 → exec (.audioClockLoss ⟨dt, n, k⟩) s = .next (advance dt s))) ∧
  (∀ (n : Fin 8) s, acting s = true →
    ((audPortAt s n.val).st = 1 → ∃ t, exec (.audioClockReturn n) s = .next t ∧ (audPortAt t n.val).st = 2 ∧ (audPortAt t n.val).frames = 0 ∧ (audPortAt t n.val).stamps = [] ∧
      (∀ k x, s.audio.buses.get? k = some x → t.audio.buses.get? k = some (if busOnPort n.val x then { x with clockMuted := true } else x))) ∧
    ((audPortAt s n.val).st ≠ 1 → exec (.audioClockReturn n) s = .next s)) ∧
  (∀ (n : Fin 8) s, acting s = true →
    ((audPortAt s n.val).st = 2 → 1024 ≤ (audPortAt s n.val).frames → ∃ t, exec (.acquiringDone n) s = .next t ∧ (audPortAt t n.val).st = 3 ∧
      (∀ k x, s.audio.buses.get? k = some x → t.audio.buses.get? k = some (if busOnPort n.val x && x.clockMuted then { x with next := x.next ++ [(.clock, false)] } else x))) ∧
    ((audPortAt s n.val).st ≠ 2 ∨ (audPortAt s n.val).frames < 1024 → exec (.acquiringDone n) s = .next s))

/-- The pair and its agreement (R386 to R390, R394 to R400, R402, R412 to R414). -/
def Obligations.PairMembersFormAndAgree : Prop :=
  (∀ q b s c, ready 0x0901 q c s = true →
    (configWaits s = false → pairOn s ≠ flag c.packet 2 0 → exec (.pairConfig q b) s = .next (heldForTide 0x0901 c [] s)) ∧
    (configWaits s = true ∨ pairOn s = flag c.packet 2 0 → exec (.pairConfig q b) s = .next (refuses c b stBadState 0 0 s))) ∧
  (∀ s, (unpaired s).pair.st = .unpaired ∧ (unpaired s).pair.cfg = none ∧ (unpaired s).pair.role = .none ∧ (unpaired s).outs = s.outs ∧ (unpaired s).decs = s.decs ∧ (unpaired s).chans = s.chans) ∧
  (∀ dt q s c r, acting s = true → flowCmds s (flowKey q) = c :: r →
    (∀ t, c.wait = .forming t →
      (t ≤ s.now + dt → exec (.pairFormTimeout dt q) s = .next (completeCmd c.serial stTimeout 0 0 0 [] true (openGates false (unpaired (advance dt s))))) ∧
      (s.now + dt < t → exec (.pairFormTimeout dt q) s = .next (advance dt s))) ∧
    ((∀ t, c.wait ≠ .forming t) → exec (.pairFormTimeout dt q) s = .next (advance dt s))) ∧
  (∀ q b s c, ready 0x0903 q c s = true →
    (isHolder s = true → s.pair.yielding = none → s.net.pendCfg.any (fun x => x.opcode == 0x0903) = false → (s.pair.st = .synced ∨ (s.pair.st = .mixed ∧ swapKeyed c.packet s = true)) →
      (swapKeyed c.packet s = false → exec (.pairSwap q b) s = .next (heldForTide 0x0903 c [] s)) ∧
      (swapKeyed c.packet s = true → exec (.pairSwap q b) s = .next { sendReplay 0 2 (s.time.tide + 1) 0 0 [(0, 0x0903), (2, 1)] (heldForTide 0x0903 c [] s) with
        pair.keyedAt := some s.time.nextBoundary, pair.keyedLeft := (s.chans.filter (fun e => e.2.st == .running)).map (fun e => e.1), pair.keyedPics := [] })) ∧
    ((isHolder s = false ∨ s.pair.yielding ≠ none ∨ s.net.pendCfg.any (fun x => x.opcode == 0x0903) = true ∨ ¬(s.pair.st = .synced ∨ (s.pair.st = .mixed ∧ swapKeyed c.packet s = true))) →
      exec (.pairSwap q b) s = .next (refuses c b stBadState 0 0 s))) ∧
  (∀ q b s c, ready 0x0904 q c s = true →
    (resyncOk s = true → s.net.pendCfg.any (fun x => x.opcode == 0x0904) = false → exec (.pairResync q b) s = .next (heldForTide 0x0904 c [] s)) ∧
    (resyncOk s = false ∨ s.net.pendCfg.any (fun x => x.opcode == 0x0904) = true → exec (.pairResync q b) s = .next (refuses c b stBadState 0 0 s))) ∧
  (∀ q b s c, ready 0x0905 q c s = true →
    (s.pair.st = .unpaired → configWaits s = false → exec (.pairMode q b) s = .next (completes c b 0 0 0 { s with pair.compat := flag c.packet 2 0 })) ∧
    (s.pair.st ≠ .unpaired ∨ configWaits s = true → exec (.pairMode q b) s = .next (refuses c b stBadState 0 0 s))) ∧
  (∀ dt s, acting s = true →
    (pairOn s = true → s.pair.lastHbSent + ticksUs 8 ≤ s.now + dt →
      (s.now + dt < s.pair.hbSuppressUntil → exec (.heartbeatSend dt) s = .next { advance dt s with pair.lastHbSent := s.now + dt }) ∧
      (s.pair.hbSuppressUntil ≤ s.now + dt → injectionOf s 8 0 = none →
        exec (.heartbeatSend dt) s = .next (cwSend 1 (heartbeatBytes { advance dt s with pair.lastHbSent := s.now + dt }) { advance dt s with pair.lastHbSent := s.now + dt })) ∧
      (∀ a n serial u, s.pair.hbSuppressUntil ≤ s.now + dt → injectionOf s 8 0 = some (a, n, serial) →
        u = injectionDone serial s.journal.nextSeq (journalAdd { advance dt s with pair.lastHbSent := s.now + dt } 11 1 deviceFn 0 0 8) → exec (.heartbeatSend dt) s = .next (cwSend 1 (heartbeatBytes u) u))) ∧
    ((pairOn s = false ∨ s.now + dt < s.pair.lastHbSent + ticksUs 8) → exec (.heartbeatSend dt) s = .next (advance dt s))) ∧
  (∀ dt h s, acting s = true →
    (cwLive s = false → exec (.heartbeat dt h) s = .next (advance dt s)) ∧
    (cwLive s = true → h.claim.toNat % 128 ≠ 0 → exec (.heartbeat dt h) s = .next (advance dt s)) ∧
    (cwLive s = true → h.claim.toNat % 128 = 0 → s.pair.st ≠ .forming → newerClaim s.pair.claim.toNat h.claim.toNat = true →
      exec (.heartbeat dt h) s = .next { advance dt s with net.cw.staleFrames := inc32 s.net.cw.staleFrames }) ∧
    (cwLive s = true → h.claim.toNat % 128 = 0 → (s.pair.st = .forming ∨ newerClaim s.pair.claim.toNat h.claim.toNat = false) →
      exec (.heartbeat dt h) s = .next (followPartner h (lineCheck h (learnClaim h.claim.toNat { advance dt s with pair.partner := some h, pair.lastHb := s.now + dt, pair.misses := 0, pair.lost := false }))) ∧
      (s.pair.st ≠ .forming → s.pair.sent = [] → ∃ t, exec (.heartbeat dt h) s = .next t ∧ t.pair.partner = some h ∧ t.pair.lastHb = s.now + dt ∧ t.pair.misses = 0 ∧ t.pair.lost = false ∧ t.pair.cfg = s.pair.cfg))) ∧
  (∀ dt s, acting s = true →
    (pairOn s = true → s.pair.lost = false → s.pair.partner.isSome = true → s.pair.lastHb + ticksUs (9 + 8 * s.pair.misses) ≤ s.now + dt →
      (s.pair.misses < 2 → exec (.heartbeatMiss dt) s = .next { advance dt s with pair.misses := s.pair.misses + 1, pair.hbMissed := inc32 s.pair.hbMissed }) ∧
      (2 ≤ s.pair.misses → exec (.heartbeatMiss dt) s = .next (partnerLost { advance dt s with pair.misses := s.pair.misses + 1, pair.hbMissed := inc32 s.pair.hbMissed }))) ∧
    (pairOn s = false ∨ s.pair.lost = true ∨ s.pair.partner = none ∨ s.now + dt < s.pair.lastHb + ticksUs (9 + 8 * s.pair.misses) → exec (.heartbeatMiss dt) s = .next (advance dt s)) ∧
    (s.pair.sent = [] → (partnerLost s).pair.lost = true ∧ (partnerLost s).pair.src = true ∧ (isStandby s = true → s.pair.st = .synced → (partnerLost s).pair.claimWait = some s.now ∧ (partnerLost s).pair.st = .synced) ∧
      (isStandby s = false → s.pair.st ≠ .forming → (partnerLost s).pair.st = .degraded))) ∧
  (∀ code q b i k c bs s n, mirroredRow code q b = some n → opInfo code = some i → mirrorMeaning code = some k → pairReady code q c b bs s = true →
    (isStandby s = true →
      (∀ t o m r0 r1, evalCmd i k (cmdIn q c bs) (pairTurn code c s) = .done t o m r0 r1 → beforePair o = true → exec n s = .next (completeCmd c.serial o m r0 r1 [] b.recordOk (pairTurn code c s))) ∧
      ((∀ t o m r0 r1, evalCmd i k (cmdIn q c bs) (pairTurn code c s) = .done t o m r0 r1 → beforePair o = false) → exec n s = .next (refuses c b stPair 0 0 (pairTurn code c s)))) ∧
    (isHolder s = true → inLockstep s = true → ∃ t, exec n s = .next t ∧ t.chans = s.chans ∧ t.outs = s.outs ∧ t.decs = s.decs ∧ t.surfs = s.surfs ∧ t.audio = s.audio ∧
      t.pair.nextMirror = (s.pair.nextMirror + 1) % 2 ^ 32 ∧ (∃ y, findCmd t c.serial = some (flowKey q, y) ∧ y.started = true ∧ y.mirrorSerial = some s.pair.nextMirror ∧ y.wait = c.wait ∧ y.packet = c.packet) ∧
      (∃ m, t.pair.sent = s.pair.sent ++ [m] ∧ m.serial = s.pair.nextMirror ∧ m.flow = flowKey q ∧
        (m.outcome, m.result0, m.result1) = resOutcome (evalCmd i k (cmdIn q c bs) (tagStarted c.fn.val (flowOf c.packet) (tagOf c.packet) (pairTurn code c s))))) ∧
    (isHolder s = true → inLockstep s = false → exec n s = .next (settleRes c.serial b bs (k.after (cmdIn q c bs)) (evalCmd i k (cmdIn q c bs) (tagStarted c.fn.val (flowOf c.packet) (tagOf c.packet) (pairTurn code c s))))) ∧
    (isHolder s = false → isStandby s = false → exec n s = .next (settleRes c.serial b bs (k.after (cmdIn q c bs)) (evalCmd i k (cmdIn q c bs) (pairTurn code c s))))) ∧
  (∀ m s u, acting s = true → u = { s with pair.nextFromHolder := (m.serial + 1) % 2 ^ 32 } →
    (isStandby s = false → exec (.command m) s = .next s) ∧
    (isStandby s = true → s.pair.st ≠ .resyncing → inLockstep s = false → exec (.command m) s = .next u) ∧
    (isStandby s = true → s.pair.st = .resyncing → opcodeOf m.packet ≠ 0x0203 → opcodeOf m.packet ≠ 0x0207 → exec (.command m) s = .next (runReplay m u)) ∧
    (isStandby s = true → s.pair.st = .resyncing → opcodeOf m.packet = 0x0207 → exec (.command m) s = .next (modChan u (chanOf m.packet) (fun x => { x with run.forceKey := some (requestKind m.packet) }))) ∧
    (∀ w, isStandby s = true → s.pair.st = .resyncing → opcodeOf m.packet = 0x0203 →
      w = (match s.pair.rcStates.get? (fld m.packet 2 5 0) with | some d => takeRcState (fld m.packet 2 5 0) m.boundary d u | none => u) →
      exec (.command m) s = .next (modChan (runReplay m w) (chanOf m.packet) (fun x => { x with run := { x.run with forceKey := (chanAt w (chanOf m.packet)).bind (fun y => y.run.forceKey), pics := (chanAt w (chanOf m.packet)).elim [] (fun y => y.run.pics), v := (chanAt w (chanOf m.packet)).elim 0 (fun y => y.run.v), u := (chanAt w (chanOf m.packet)).elim 0 (fun y => y.run.u) } }))) ∧
    (isStandby s = true → inLockstep s = true → opcodeOf m.packet = 0x0903 → exec (.command m) s = .next { u with
      pair.keyedAt := some s.time.nextBoundary, pair.keyedLeft := (s.chans.filter (fun e => e.2.st == .running)).map (fun e => e.1), pair.keyedPics := [] }) ∧
    (isStandby s = true → inLockstep s = true → opcodeOf m.packet = 0x0105 → m.function.val ≠ 0 → exec (.command m) s = .next (resetTide 0x0105 m.boundary (resetAsk m.function.val 2 u))) ∧
    (isStandby s = true → inLockstep s = true → opcodeOf m.packet ≠ 0x0903 → (opcodeOf m.packet = 0x0105 → m.function.val = 0) → exec (.command m) s = .next (runMirror m u))) ∧
  (∀ m s i k v ci, opInfo (opcodeOf m.packet) = some i → mirrorMeaning (opcodeOf m.packet) = some k → insertMirror m (tagStarted m.function.val m.flow.val (tagOf m.packet) s) = (v, ci) →
    (∀ o r0 r1, resOutcome (evalCmd i k { ci with key := m.flow.val } v) = (o, r0, r1) →
      (¬(o = m.outcome.toNat ∧ r0 % 2 ^ 32 = m.result0.toNat ∧ r1 % 2 ^ 32 = m.result1.toNat) → runMirror m s = sendOutcome m.serial o r0 r1 (completeCmd ci.cmd.serial stPair 0 o 0 [] true v))) ∧
    (∀ t o n r0 r1, evalCmd i k { ci with key := m.flow.val } v = .done t o n r0 r1 → o = m.outcome.toNat → r0 % 2 ^ 32 = m.result0.toNat → r1 % 2 ^ 32 = m.result1.toNat →
      runMirror m s = sendOutcome m.serial o r0 r1 (completeCmd ci.cmd.serial o n r0 r1 [] true t))) ∧
  (∀ serial o r0 r1 b s, acting s = true →
    (isHolder s = false → exec (.outcome serial o r0 r1 b) s = .next s) ∧
    (isHolder s = true → s.pair.sent.find? (fun m => m.serial == serial) = none → exec (.outcome serial o r0 r1 b) s = .next s) ∧
    (∀ m u, isHolder s = true → s.pair.sent.find? (fun m => m.serial == serial) = some m → u = { s with pair.sent := s.pair.sent.filter (fun x => x.serial != serial) } →
      ((flowCmds s m.flow).find? (fun c => c.mirrorSerial == some serial && !c.mirrored) = none → exec (.outcome serial o r0 r1 b) s = .next u) ∧
      (∀ c, (flowCmds s m.flow).find? (fun c => c.mirrorSerial == some serial && !c.mirrored) = some c →
        (¬(m.outcome = o.toNat ∧ m.result0 % 2 ^ 32 = r0.toNat ∧ m.result1 % 2 ^ 32 = r1.toNat) →
          exec (.outcome serial o r0 r1 b) s = .next (completeCmd c.serial stPair 0 o.toNat 0 [] b.recordOk u)) ∧
        (∀ i k ci, m.outcome = o.toNat → m.result0 % 2 ^ 32 = r0.toNat → m.result1 % 2 ^ 32 = r1.toNat → opInfo (opcodeOf c.packet) = some i → mirrorMeaning (opcodeOf c.packet) = some k →
          ci = { key := m.flow, cmd := c, f := c.fn.val, p := c.packet, block := c.block } →
          (∀ t x n a d, evalCmd i k ci u = .done t x n a d → exec (.outcome serial o r0 r1 b) s = .next (completeCmd c.serial x n a d [] b.recordOk t)) ∧
          (∀ t w a d, evalCmd i k ci u = .pend t w a d → exec (.outcome serial o r0 r1 b) s = .next (resetTide (opcodeOf c.packet) m.boundary (settleRes c.serial b c.block (k.after ci)
            (if m.kind ≤ 1 then atBoundary m.boundary c.serial (.pend t w a d) else .pend t w a d)))))))) ∧
  (∀ r s, acting s = true →
    (cwLive s = false → exec (.tideRecord r) s = .next s) ∧
    (cwLive s = true → r.claim.toNat % 128 ≠ 0 → exec (.tideRecord r) s = .next s) ∧
    (cwLive s = true → r.claim.toNat % 128 = 0 → s.pair.st ≠ .forming → newerClaim s.pair.claim.toNat r.claim.toNat = true → exec (.tideRecord r) s = .next { s with net.cw.staleFrames := inc32 s.net.cw.staleFrames }) ∧
    (cwLive s = true → r.claim.toNat % 128 = 0 → (s.pair.st = .forming ∨ newerClaim s.pair.claim.toNat r.claim.toNat = false) →
      ∃ t, exec (.tideRecord r) s = .next t ∧ t.pair.lastPartnerTide = some r.tide.toNat ∧ t.pair.lateRun = 0 ∧ t.chans = s.chans ∧ t.pair.role = s.pair.role ∧
        t.pair.claim = (if newerClaim r.claim.toNat s.pair.claim.toNat then r.claim else s.pair.claim) ∧
        ((isStandby s = false ∨ (inLockstep s = true ∧ s.pair.syncTide < r.tide.toNat)) → t.pair.tags = s.pair.tags) ∧
        (isStandby s = true → (inLockstep s = false ∨ r.tide.toNat ≤ s.pair.syncTide) →
          t.pair.tags = r.tags.foldl (fun (m : FMap TagSt) e => m.set (256 * e.function + e.flow) { m.getD (256 * e.function + e.flow) {} with started := e.tag }) s.pair.tags) ∧
        (∀ o, s.pair.ownRecords.find? (fun o => o.tide == r.tide) = some o → t.pair.reconciled = s.pair.reconciled + 1 ∧ t.pair.partnerRecords = s.pair.partnerRecords ∧
          t.pair.st = (if s.pair.st = .synced ∧ s.pair.syncTide < o.tide.toNat ∧ o ≠ r ∧ pairOn s = true then .diverged else s.pair.st)) ∧
        (s.pair.ownRecords.find? (fun o => o.tide == r.tide) = none → t.pair.reconciled = s.pair.reconciled ∧ t.pair.st = s.pair.st ∧
          t.pair.partnerRecords = (s.pair.partnerRecords ++ [r]).drop (s.pair.partnerRecords.length - 3)))) ∧
  (∀ e s, acting s = true →
    (cwLive s = false ∨ s.pair.st ≠ .synced → exec (.sliceCheck e) s = .next s) ∧
    (cwLive s = true → s.pair.st = .synced → s.pair.ownChecks = [] → exec (.sliceCheck e) s = .next { s with pair.partnerChecks := s.pair.partnerChecks ++ [e] }) ∧
    (∀ a l r, cwLive s = true → s.pair.st = .synced → s.pair.partnerChecks = [] → s.pair.ownChecks = l ++ a :: r → sameSlice a e = true → (∀ x ∈ l ++ r, sameSlice x e = false) →
      exec (.sliceCheck e) s = .next (compareSlice a e { s with pair.ownChecks := l ++ r, pair.partnerChecks := [] }))) ∧
  (∀ a e s u, u = { s with pair.checksCompared := inc32 s.pair.checksCompared } →
    (a.failed = true → e.failed = true → compareSlice a e s = u) ∧
    (a.failed = true → e.failed = false → compareSlice a e s = (if isHolder s then faultYield u else diverge u)) ∧
    (a.failed = false → e.failed = true → compareSlice a e s = (if isHolder s then diverge u else u)) ∧
    (a.failed = false → e.failed = false → compareSlice a e s = (if a.check = e.check then u else diverge u)) ∧
    (pairOn s = true → s.pair.st = .synced → (diverge u).pair.st = .diverged ∧ (diverge u).pair.divergences = inc32 s.pair.divergences ∧ (diverge u).chans = s.chans))

/-- Causeway frames (R316, R391 to R398, R402, R406, R411, R412). -/
def Obligations.CausewayFramesAreTaken : Prop :=
  (∀ e s, acting s = true →
    (isStandby s = false ∨ cwLive s = false → exec (.input e) s = .next s) ∧
    (isStandby s = true → cwLive s = true →
      ((∀ c o n t, e ≠ .tref c o n t) → (∀ d n x y, e ≠ .decStamp d n x y) → exec (.input e) s = .next { s with pair.inputs := s.pair.inputs ++ [e] }) ∧
      (∀ c n t, e = .tref c true n t → exec (.input e) s = .next s) ∧
      (∀ d n x y, e = .decStamp d n x y → s.pair.joinPending.contains (3, d) = false → exec (.input e) s = .next { s with pair.inputs := s.pair.inputs ++ [e] }) ∧
      (∀ d n x y, e = .decStamp d n x y → ∃ t, exec (.input e) s = .next t ∧ t.pair.inputs = s.pair.inputs ++ [e] ∧ t.chans = s.chans ∧ t.outs = s.outs ∧ (∀ k, k ≠ d → decAt t k = decAt s k)) ∧
      (∀ d n x y z, e = .decStamp d n x y → s.pair.joinPending.contains (3, d) = true → decAt s d = some z → z.aus = [] → z.part = none →
        ∃ t, exec (.input e) s = .next t ∧ decAt t d = some { z with auSerial := n + 1 }))) ∧
  (∀ c n t s, acting s = true → isStandby s = true → cwLive s = true →
    ((∀ x, chanAt s c = some x → x.cfg = none) → exec (.input (.tref c false n t)) s = .next s) ∧
    (∀ x g z, chanAt s c = some x → x.cfg = some g → z = (if n = 0 ∧ x.run.byHolder = some none then { x with run.byHolder := some (some t) } else x) →
      (g.srcKind ≠ 2 → coding z = true → z.run.nextPic + (dropEarly z).input.pending.length = n →
        exec (.input (.tref c false n t)) s = .next (modChan (setChan s c z) c (fun x => { x with input := { x.input with
          pending := x.input.pending ++ [(t, if x.input.status = 0 then some (nearestPic (setChan s c z) g t) else none)] } }))) ∧
      (¬(g.srcKind ≠ 2 ∧ coding z = true ∧ z.run.nextPic + (dropEarly z).input.pending.length = n) → exec (.input (.tref c false n t)) s = .next (setChan s c z)))) ∧
  (∀ r s, acting s = true →
    (pairOn s = false → exec (.repairReq r) s = .next s) ∧
    (pairOn s = true → (repairPic s r).filter (fun p => !p.formatError && !(p.bad.contains r.line) && p.done.has r.line) = none →
      exec (.repairReq r) s = .next (cwSend 8 (le 1 r.sdi.toNat ++ le 1 1 ++ le 2 r.source ++ le 2 r.line ++ zeros 2 ++ le 8 r.picture ++ zeros 8) s)) ∧
    (∀ p, pairOn s = true → repairPic s r = some p → p.formatError = false → r.line ∉ p.bad → p.done.has r.line = true → (lineBytes s r p).length ≤ 2024 →
      exec (.repairReq r) s = .next (cwSend 8 (le 1 r.sdi.toNat ++ le 1 0 ++ le 2 r.source ++ le 2 r.line ++ zeros 2 ++ le 8 r.picture ++ (le 4 0 ++ le 4 (lineBytes s r p).length ++ lineBytes s r p)) s)) ∧
    (pairOn s = true → ∃ t, exec (.repairReq r) s = .next t ∧ t.pair = s.pair ∧ t.chans = s.chans ∧ t.net.flowsIn = s.net.flowsIn)) ∧
  (∀ dt r held offset total data s got, acting s = true → got = ((s.pair.repairParts.find? (fun x => x.1 == r)).elim [] (fun x => x.2)).take offset ++ data →
    (s.pair.repairs.contains r = false → exec (.repairData dt r held offset total data) s = .next (advance dt s)) ∧
    (s.pair.repairs.contains r = true →
      (held = false → exec (.repairData dt r held offset total data) s = .next { advance dt s with
        pair.repairMisses := inc32 s.pair.repairMisses, pair.repairs := s.pair.repairs.filter (fun x => x != r), pair.repairParts := s.pair.repairParts.filter (fun x => x.1 != r) }) ∧
      (held = true → got.length < total → exec (.repairData dt r held offset total data) s = .next { advance dt s with
        pair.repairParts := s.pair.repairParts.filter (fun x => x.1 != r) ++ [(r, got)] }) ∧
      (held = true → total ≤ got.length → repairPic (advance dt s) r = none → exec (.repairData dt r held offset total data) s = .next { advance dt s with
        pair.repairs := s.pair.repairs.filter (fun x => x != r), pair.repairParts := s.pair.repairParts.filter (fun x => x.1 != r) }) ∧
      (∀ p, held = true → total ≤ got.length → repairPic (advance dt s) r = some p → ∃ t, exec (.repairData dt r held offset total data) s = .next t ∧ t.pair.repairedLines = inc32 s.pair.repairedLines ∧
        t.pair.repairs = s.pair.repairs.filter (fun x => x != r) ∧ t.pair.repairParts = s.pair.repairParts.filter (fun x => x.1 != r) ∧
        (∀ y ∈ srcPics t r.sdi r.source, y.number = p.number → y.done.get? r.line = some (advance dt s).time.local' ∧ r.line ∉ y.bad)))) ∧
  (∀ (w : Fin 2048) b n s, acting s = true →
    (isStandby s = false ∨ cwLive s = false → exec (.groupEnd w b n) s = .next s) ∧
    (isStandby s = true → cwLive s = true → ∃ t, exec (.groupEnd w b n) s = .next t ∧ t.pair.groupEnds = s.pair.groupEnds.set (2 * w.val + b.toNat) (max n (s.pair.groupEnds.getD (2 * w.val + b.toNat) n)) ∧
      (∀ x, flowOutAt s w.val = some x → x.removed = false → ∃ y, flowOutAt t w.val = some y ∧ y.cfg = x.cfg ∧ copyAt y (!b) = copyAt x (!b) ∧
        (copyAt y b).groups = (copyAt x b).groups.filter (fun g => decide (n < g.serial)) ∧ (copyAt y b).held = (copyAt x b).held.filter (fun g => decide (n < g.serial)) ∧
        y.nextSerial = (if s.pair.st = .resyncing then max x.nextSerial (n + 1) else x.nextSerial)))) ∧
  (∀ dt (claim : Word) reason keyed k s, acting s = true →
    (isStandby s = false ∨ cwLive s = false ∨ claim.toNat % 128 ≠ 0 → exec (.yield dt claim reason keyed k) s = .next (advance dt s)) ∧
    (isStandby s = true → cwLive s = true → claim.toNat % 128 = 0 → s.pair.st ≠ .forming → newerClaim s.pair.claim.toNat claim.toNat = true →
      exec (.yield dt claim reason keyed k) s = .next { advance dt s with net.cw.staleFrames := inc32 s.net.cw.staleFrames }) ∧
    (isStandby s = true → cwLive s = true → claim.toNat % 128 = 0 → (s.pair.st = .forming ∨ newerClaim s.pair.claim.toNat claim.toNat = false) →
      ∃ t, exec (.yield dt claim reason keyed k) s = .next t ∧ t.pair.partnerYield = some { reason := reason, keyed := keyed, swapTide := k } ∧
        t.pair.claimWait = (if s.pair.st = .synced ∨ (s.pair.st = .mixed ∧ keyed = true) then some (s.now + dt) else s.pair.claimWait) ∧ t.pair.role = s.pair.role ∧ t.chans = s.chans ∧ t.net = s.net)) ∧
  (∀ p s, acting s = true →
    (isStandby s = false ∨ cwLive s = false ∨ (p.kind ≠ 0 ∧ p.kind ≠ 2) → exec (.bulk p) s = .next s) ∧
    (isStandby s = true → cwLive s = true → p.kind = 0 →
      (s.pair.st ≠ .resyncing → exec (.bulk p) s = .next (modSurf s p.object (fun x => if p.buffer < x.buffers then writeBuffer x p.buffer p.offset p.data else x))) ∧
      (s.pair.st = .resyncing → exec (.bulk p) s = .next (modSurf (modSurf s p.object (fun x => if p.buffer < x.buffers then writeBuffer x p.buffer p.offset p.data else x)) p.object (fun x =>
        if p.offset + p.data.length = p.length ∧ p.length = bufferSize x.format x.width x.height then { x with pubs := [{ buffer := p.buffer, flip := s.time.local', contentNs := 0 }] } else x)))) ∧
    (isStandby s = true → cwLive s = true → p.kind = 2 → exec (.bulk p) s = .next { s with pair.rcStates := s.pair.rcStates.set p.object ((s.pair.rcStates.getD p.object []).take p.offset ++ p.data) })) ∧
  (∀ x t1 t2 s, acting s = true →
    (cwLive s = true → isHolder s = true → exec (.time (.request x t1 t2)) s = .next (cwSend 0x0C (le 1 1 ++ le 1 x ++ zeros 2 ++ stampBytes t1 ++ stampBytes t2 ++ stampBytes s.time.local') s)) ∧
    (cwLive s = false ∨ isHolder s = false → exec (.time (.request x t1 t2)) s = .next s)) ∧
  (∀ x (t1 t2 t3 t4 : Instant) s (d : Int), acting s = true → d = (((t2 : Int) - t1) - ((t4 : Int) - t3)) / 2 →
    (cwLive s = false ∨ isStandby s = false ∨ x ≠ s.pair.exchange ∨ s.pair.exchangeT1 = none → exec (.time (.response x t1 t2 t3 t4)) s = .next s) ∧
    (cwLive s = true → isStandby s = true → x = s.pair.exchange → s.pair.exchangeT1.isSome = true →
      (s.pair.stepPending = false → ∃ t, exec (.time (.response x t1 t2 t3 t4)) s = .next t ∧ t.pair = { s.pair with exchangeT1 := none, clockOffsetNs := (-d).tdiv (nsUnit : Int) } ∧
        t.freeCtr = s.freeCtr + 1 ∧ t.time = { s.time with addend := freeAddend s }) ∧
      (s.pair.stepPending = true → exec (.time (.response x t1 t2 t3 t4)) s = .next (setClock (((s.time.local' : Int) + d) % (clockModulus : Int)).toNat
        { s with pair.exchangeT1 := none, pair.clockOffsetNs := (-d).tdiv (nsUnit : Int), pair.stepPending := false, pair.adoptTide := true })))) ∧
  (∀ f s, acting s = true →
    (pairOn s = false → exec (.shed f) s = .next s) ∧
    (pairOn s = true → f.kind = 0 →
      (s.pair.st ≠ .synced ∨ f.entries.any (fun e => (chanAt s e.1).elim false (fun c => coding c && decide (e.2 < c.run.nextPic))) = true ∨ (isHolder s = true ∧ s.pair.shedWait.isSome = true) →
        exec (.shed f) s = .next (cwSend 0x0D (shedBytes 2 f.step f.undo f.serial []) s)) ∧
      (s.pair.st = .synced → f.entries.any (fun e => (chanAt s e.1).elim false (fun c => coding c && decide (e.2 < c.run.nextPic))) = false → (isHolder s = false ∨ s.pair.shedWait = none) →
        exec (.shed f) s = .next (cwSend 0x0D (shedBytes 1 f.step f.undo f.serial []) (agreeStep f.undo f.step f.entries (endProposal s))))) ∧
    (pairOn s = true → f.kind ≠ 0 →
      (s.pair.shedWait = none → exec (.shed f) s = .next s) ∧
      (∀ k u n j, s.pair.shedWait = some (k, u, n, j) →
        (n ≠ f.serial → exec (.shed f) s = .next s) ∧
        (n = f.serial → f.kind = 1 → exec (.shed f) s = .next (agreeStep u k s.pair.shedPlan (endProposal s))) ∧
        (n = f.serial → f.kind ≠ 1 → exec (.shed f) s = .next (stepAlone u k s))))) ∧
  (∀ dt s, acting s = true →
    (s.pair.shedWait = none → exec (.shedAckTimeout dt) s = .next (advance dt s)) ∧
    (∀ k u n j, s.pair.shedWait = some (k, u, n, j) →
      (j + 2 ≤ (advance dt s).time.tide → exec (.shedAckTimeout dt) s = .next (stepAlone u k (advance dt s))) ∧
      ((advance dt s).time.tide < j + 2 → exec (.shedAckTimeout dt) s = .next (advance dt s)))) ∧
  (∀ (q : BitVec 16) s, acting s = true →
    (s.net.cw.unacked.findIdx? (fun f => f.seq == q.toNat) = none → exec (.acknowledgement q) s = .next s ∧ exec (.negativeAcknowledgement q) s = .next s) ∧
    (∀ i, s.net.cw.unacked.findIdx? (fun f => f.seq == q.toNat) = some i →
      exec (.acknowledgement q) s = .next { s with net.cw.unacked := s.net.cw.unacked.drop (i + 1) } ∧
      (cwLive s = false → exec (.negativeAcknowledgement q) s = .next { s with net.cw.unacked := s.net.cw.unacked.drop i }) ∧
      (cwLive s = true → ∃ t, exec (.negativeAcknowledgement q) s = .next t ∧ t.net.cw.unacked = (s.net.cw.unacked.drop i).map (fun f => { f with sent := s.now }) ∧
        t.net.cw.resends = (s.net.cw.resends + (s.net.cw.unacked.length - i)) % 2 ^ 32 ∧ t.net.cw.txSeq = s.net.cw.txSeq))) ∧
  (∀ dt s, acting s = true →
    (cwLive s = false ∨ s.net.cw.unacked = [] → exec (.resendTimeout dt) s = .next (advance dt s)) ∧
    (∀ f r, s.net.cw.unacked = f :: r → s.now + dt < f.sent + ticksUs 2 → exec (.resendTimeout dt) s = .next (advance dt s)) ∧
    (∀ f r, cwLive s = true → s.net.cw.unacked = f :: r → f.sent + ticksUs 2 ≤ s.now + dt →
      ∃ t, exec (.resendTimeout dt) s = .next t ∧ t.net.cw.unacked = s.net.cw.unacked.map (fun f => { f with sent := s.now + dt }) ∧
        t.net.cw.resends = (s.net.cw.resends + s.net.cw.unacked.length) % 2 ^ 32 ∧ t.net.cw.txSeq = s.net.cw.txSeq ∧ t.chans = s.chans)) ∧
  (∀ s r, acting s = true →
    (cwLive s = false → exec (.causewayBadFrame r) s = .next s) ∧
    (cwLive s = true →
      (∀ q, r = .crc q → exec (.causewayBadFrame r) s = .next (emit s (.causewayNak (q % 65536)))) ∧
      (r = .unknownType ∨ r = .badLength → exec (.causewayBadFrame r) s = .next { s with net.cw.badFrames := inc32 s.net.cw.badFrames }) ∧
      (∀ c : Word, r = .staleClaim c → newerClaim s.pair.claim.toNat c.toNat = true → exec (.causewayBadFrame r) s = .next { s with net.cw.staleFrames := inc32 s.net.cw.staleFrames }) ∧
      (∀ c : Word, r = .staleClaim c → newerClaim s.pair.claim.toNat c.toNat = false → exec (.causewayBadFrame r) s = .next s) ∧
      (r = .nonzeroReserve → exec (.causewayBadFrame r) s = .next s)))

/-- The claim keeper (R402 to R407). -/
def Obligations.ClaimKeeperAssertsAndReleases : Prop :=
  (∀ dt s, acting s = true →
    (s.pair.claimIn = false → exec (.claimInHigh dt) s = .next { advance dt s with pair.claimIn := true, pair.claimInSince := s.now + dt }) ∧
    (s.pair.keeper = .released → wantsClaim s = true → s.pair.claimIn = true → s.pair.claimInSince + ticksUs 2 ≤ s.now + dt → s.pair.holdN = true → s.pair.backoffUntil ≤ s.now + dt →
      exec (.claimInHigh dt) s = .next (driveClaim true { advance dt s with pair.keeper := .asserting, pair.assertStart := s.now + dt }) ∧
      exec (.backoffExpiry dt) s = .next (driveClaim true { advance dt s with pair.keeper := .asserting, pair.assertStart := s.now + dt })) ∧
    (¬(s.pair.keeper = .released ∧ wantsClaim s = true ∧ s.pair.claimIn = true ∧ s.pair.claimInSince + ticksUs 2 ≤ s.now + dt ∧ s.pair.holdN = true ∧ s.pair.backoffUntil ≤ s.now + dt) →
      exec (.backoffExpiry dt) s = .next (advance dt s) ∧ (s.pair.claimIn = true → exec (.claimInHigh dt) s = .next (advance dt s)))) ∧
  (∀ s, acting s = true →
    (s.pair.keeper = .released → wantsClaim s = true → s.pair.claimIn = true → s.pair.claimInSince + ticksUs 2 ≤ s.now → s.pair.backoffUntil ≤ s.now →
      exec .holdNHigh s = .next (driveClaim true { s with pair.holdN := true, pair.keeper := .asserting, pair.assertStart := s.now })) ∧
    (¬(s.pair.keeper = .released ∧ wantsClaim s = true ∧ s.pair.claimIn = true ∧ s.pair.claimInSince + ticksUs 2 ≤ s.now ∧ s.pair.backoffUntil ≤ s.now) → exec .holdNHigh s = .next { s with pair.holdN := true })) ∧
  (∀ low s, (driveClaim low s).pair = { s.pair with claimOutLow := low } ∧ (driveClaim low s).net = s.net ∧ (driveClaim low s).chans = s.chans) ∧
  (∀ dt s, acting s = true →
    (s.pair.keeper = .asserting → exec (.claimInLow dt) s = .next (driveClaim false
      { advance dt s with pair.claimIn := false, pair.keeper := .released, pair.backoffUntil := s.now + dt + ticksUs (if s.pair.member then 10 else 4) })) ∧
    (s.pair.keeper ≠ .asserting → exec (.claimInLow dt) s = .next { advance dt s with pair.claimIn := false })) ∧
  (∀ dt s, acting s = true →
    (s.pair.keeper ≠ .asserting ∨ s.now + dt < s.pair.assertStart + ticksUs 2 ∨ s.pair.claimIn = false → exec (.assertingWindowEnd dt) s = .next (advance dt s)) ∧
    (∀ u, s.pair.keeper = .asserting → s.pair.assertStart + ticksUs 2 ≤ s.now + dt → s.pair.claimIn = true → u = { advance dt s with pair.keeper := .holding, pair.lastRefresh := s.now + dt, pair.txIdle := false } →
      (isStandby s = false → isHolder s = false → exec (.assertingWindowEnd dt) s = .next u) ∧
      (isStandby s = true → exec (.assertingWindowEnd dt) s = .next (takeOver u)) ∧
      (isStandby s = false → isHolder s = true → exec (.assertingWindowEnd dt) s = .next (openGates false u) ∧ (openGates false u).pair.keeper = .holding ∧ (openGates false u).pair.role = s.pair.role ∧
        (openGates false u).pair.claim = s.pair.claim))) ∧
  (∀ s, isStandby s = true → s.pair.sent = [] → (takeOver s).pair.keeper = s.pair.keeper ∧ (takeOver s).pair.role = .holder ∧ (takeOver s).pair.claim = BitVec.ofNat 32 (nextClaim s) ∧
    (takeOver s).pair.takeovers = inc32 s.pair.takeovers ∧ (takeOver s).pair.lastTakeoverTide = s.time.tide ∧ (takeOver s).pair.claimWait = none ∧ (takeOver s).pair.partnerYield = none ∧ (takeOver s).pair.src = true ∧
    (takeOver s).pair.inputs = [] ∧ (takeOver s).pair.st = (if s.pair.partnerYield.isSome && !s.pair.lost then s.pair.st else .degraded)) ∧
  (∀ dt s, acting s = true →
    (s.pair.noRefresh = false → clockLost s .fab = false → clockLost s .ctl = false → coresUp s ≠ 0 → s.pair.lapsing = none →
      exec (.keeperRefresh dt) s = .next { advance dt s with pair.lastRefresh := s.now + dt }) ∧
    (s.pair.noRefresh = true ∨ clockLost s .fab = true ∨ clockLost s .ctl = true ∨ coresUp s = 0 ∨ s.pair.lapsing.isSome = true → exec (.keeperRefresh dt) s = .next (advance dt s)) ∧
    (s.pair.keeper = .holding → s.pair.lapsing = none → s.pair.lastRefresh + ticksUs 24 ≤ s.now + dt → exec (.keeperLapse dt) s = .next { advance dt s with pair.lapsing := some (s.now + dt) }) ∧
    (s.pair.keeper ≠ .holding ∨ s.pair.lapsing.isSome = true ∨ s.now + dt < s.pair.lastRefresh + ticksUs 24 → exec (.keeperLapse dt) s = .next (advance dt s))) ∧
  (∀ dt s, acting s = true →
    (s.pair.lapsing = none → s.pair.yielding = none → exec (.keeperRelease dt) s = .next (advance dt s)) ∧
    (∀ t0, s.pair.lapsing = some t0 →
      (s.net.ports.any (fun e => e.2.sending.isSome && decide (s.now + dt < e.2.busyUntil)) = true → s.now + dt < t0 + ticksUs 8 → exec (.keeperRelease dt) s = .next (advance dt s)) ∧
      (s.net.ports.any (fun e => e.2.sending.isSome && decide (s.now + dt < e.2.busyUntil)) = false ∨ t0 + ticksUs 8 ≤ s.now + dt →
        ∃ t, exec (.keeperRelease dt) s = .next t ∧ t.pair.keeper = .released ∧ t.pair.role = .none ∧ t.pair.txIdle = true ∧ t.pair.claimOutLow = false ∧ t.pair.lapsing = none ∧ t.pair.yielding = none ∧
          t.pair.st = .degraded ∧ (∀ n x, t.net.ports.get? n = some x → x.sending = none) ∧ ((injectionOf s 9 0).isSome = true → t.pair.noRefresh = false) ∧ (injectionOf s 9 0 = none → t.pair.noRefresh = s.pair.noRefresh))) ∧
    (∀ y, s.pair.lapsing = none → s.pair.yielding = some y →
      (passedPending s = true → exec (.keeperRelease dt) s = .next (advance dt s)) ∧
      (passedPending s = false → ∃ t, exec (.keeperRelease dt) s = .next t ∧ t.pair.keeper = .released ∧ t.pair.claimOutLow = false ∧ t.pair.yielding = none ∧ t.pair.keyedAt = none ∧ t.pair.txIdle = s.pair.txIdle ∧
        t.pair.role = (if s.pair.st = .synced ∨ (s.pair.st = .mixed ∧ y.keyed = true) then .standby else .none)))) ∧
  (∀ dt s, acting s = true →
    (s.pair.claimWait = none → exec (.claimWaitExpiry dt) s = .next (advance dt s)) ∧
    (∀ t0, s.pair.claimWait = some t0 →
      (s.now + dt < t0 + ticksUs 40 ∨ s.pair.claimIn = true ∨ s.pair.keeper ≠ .released → exec (.claimWaitExpiry dt) s = .next (advance dt s)) ∧
      (t0 + ticksUs 40 ≤ s.now + dt → s.pair.claimIn = false → s.pair.keeper = .released → exec (.claimWaitExpiry dt) s = .next (degrade { advance dt s with pair.claimWait := none, pair.partnerYield := none })))) ∧
  (∀ s, isHolder s = false → (degrade s).pair.st = .degraded ∧ (degrade s).pair.role = s.pair.role ∧ (degrade s).pair.claimWait = s.pair.claimWait ∧ (degrade s).pair.keyedAt = none ∧ (degrade s).chans = s.chans) ∧
  (∀ s, acting s = true →
    (isHolder s = true → s.pair.yielding = none → ∃ t, exec .holdNLow s = .next t ∧ t.pair.holdN = false ∧ t.pair.yielding = some { reason := 1, keyed := false, swapTide := 0 } ∧ t.pair.role = s.pair.role) ∧
    ((isHolder s = false ∨ s.pair.yielding ≠ none) → exec .holdNLow s = .next { s with pair.holdN := false })) ∧
  (∀ dt (c : Fin 64) s, acting s = true →
    (isStandby s = false ∨ reportsArrive s = true ∨ chanAt s c.val = none → exec (.standbySliceFree dt c) s = .next (advance dt s)) ∧
    (∀ x gone, isStandby s = true → reportsArrive s = false → chanAt s c.val = some x → gone = x.run.queue.takeWhile (fun q => decide (q.due + nsQ 200000 ≤ localQ (advance dt s))) →
      (gone = [] → exec (.standbySliceFree dt c) s = .next (advance dt s)) ∧
      (gone ≠ [] → gone.any (fun q => q.eob) = false → ∃ t y, exec (.standbySliceFree dt c) s = .next t ∧ chanAt t c.val = some y ∧ y.run.queue = x.run.queue.drop gone.length ∧
        y.run.emitted = x.run.emitted + gone.length ∧ y.st = x.st ∧ t.pair = s.pair ∧ t.outs = s.outs ∧
        (∀ e ∈ gone.flatMap (fun q => q.groups), ∀ z, flowOutAt t e.1 = some z → ∀ g ∈ z.copyA.groups ++ z.copyB.groups, g.serial ≠ e.2)) ∧
      (gone.any (fun q => q.eob) = true → x.doomed = false → ∃ t y, exec (.standbySliceFree dt c) s = .next t ∧ chanAt t c.val = some y ∧ y.st = .idle)))

/-- Sessions, trials and the fuses (R454 to R459). -/
def Obligations.UpdateSessionsRunTheirCourse : Prop :=
  (∀ q b s c,
    (ready 0x0A01 q c s = true → otherClient (cmdIn q c []) s = true → exec (.updBegin q b) s = .next (refuses c b stDenied 0 0 s)) ∧
    (ready 0x0A03 q c s = true → otherClient (cmdIn q c []) s = true → exec (.updVerify q b) s = .next (refuses c b stDenied 0 0 s)) ∧
    (ready 0x0A04 q c s = true → otherClient (cmdIn q c []) s = true → exec (.updActivate q b) s = .next (refuses c b stDenied 0 0 s)) ∧
    (ready 0x0A05 q c s = true → otherClient (cmdIn q c []) s = true → exec (.updConfirm q b) s = .next (refuses c b stDenied 0 0 s)) ∧
    (ready 0x0A06 q c s = true → otherClient (cmdIn q c []) s = true → exec (.updAbort q b) s = .next (refuses c b stDenied 0 0 s)) ∧
    (∀ bs, readyBlock 0x0A02 q c b bs s = true → otherClient (cmdIn q c bs) s = true → exec (.updBlock q b) s = .next (refuses c b stDenied 0 0 (blockTaken c s)))) ∧
  (∀ q b s c x, ready 0x0A01 q c s = true → otherClient (cmdIn q c []) s = false → slotOf s (inactive s) = x →
    (word c.packet 2 < 2 ∨ 255 < word c.packet 2 ∨ word c.packet 2 * 65536 < word c.packet 3 → exec (.updBegin q b) s = .next (refuses c b stBadParam 0 0 s)) ∧
    (2 ≤ word c.packet 2 → word c.packet 2 ≤ 255 → word c.packet 3 ≤ word c.packet 2 * 65536 →
      (s.upd.session ≠ .idle ∨ s.upd.owner.isSome = true → exec (.updBegin q b) s = .next (refuses c b stBadState 0 0 s)) ∧
      (s.upd.session = .idle → s.upd.owner = none →
        exec (.updBegin q b) s = .next (if flag c.packet 5 0 ∧ x.descriptor ∧ x.sessionId = word c.packet 4 ∧ x.imageBlocks = word c.packet 2 ∧ x.imageBytes = word c.packet 3
          then completes c b 0 x.entries.length 0 { s with upd.owner := clientOf c, upd.session := .receiving }
          else waits c [] .flash 0 0 (modSlot (inactive s) (fun _ => {}) { s with upd.owner := clientOf c }))))) ∧
  (∀ q b bs s c x u, readyBlock 0x0A02 q c b bs s = true → otherClient (cmdIn q c bs) s = false → slotOf s (inactive s) = x → u = blockTaken c s →
    (word c.packet 4 ≠ 65536 → exec (.updBlock q b) s = .next (refuses c b stBadParam 0 0 u)) ∧
    (word c.packet 4 = 65536 → s.upd.session ≠ .receiving → exec (.updBlock q b) s = .next (refuses c b stBadState 0 0 u)) ∧
    (word c.packet 4 = 65536 → s.upd.session = .receiving →
      (x.imageBlocks ≤ word c.packet 5 → exec (.updBlock q b) s = .next (refuses c b stBadParam 0 0 u)) ∧
      (word c.packet 5 < x.imageBlocks →
        (∀ e, x.entries.get? (word c.packet 5) = some e → e ≠ BitVec.ofNat 32 (word c.packet 6) → exec (.updBlock q b) s = .next (refuses c b stBadState 0 0 u)) ∧
        ((x.entries.get? (word c.packet 5) = none ∨ x.entries.get? (word c.packet 5) = some (BitVec.ofNat 32 (word c.packet 6))) → crc32c bs ≠ word c.packet 6 →
          exec (.updBlock q b) s = .next (refuses c b stCheck 0 0 u)) ∧
        (x.entries.get? (word c.packet 5) = none → crc32c bs = word c.packet 6 → exec (.updBlock q b) s = .next (waits c bs .flash 0 0 u)) ∧
        (x.entries.get? (word c.packet 5) = some (BitVec.ofNat 32 (word c.packet 6)) → crc32c bs = word c.packet 6 → exec (.updBlock q b) s = .next (completes c b x.entries.length 0 0 u))))) ∧
  (∀ q b s c, ready 0x0A03 q c s = true → otherClient (cmdIn q c []) s = false →
    (s.upd.session ≠ .receiving → exec (.updVerify q b) s = .next (refuses c b stBadState 0 0 s)) ∧
    (∀ i, s.upd.session = .receiving → i < (slotOf s (inactive s)).imageBlocks → (slotOf s (inactive s)).entries.has i = false → (∀ j, j < i → (slotOf s (inactive s)).entries.has j = true) →
      exec (.updVerify q b) s = .next (refuses c b stBadState i 0 s)) ∧
    (s.upd.session = .receiving → (∀ i, i < (slotOf s (inactive s)).imageBlocks → (slotOf s (inactive s)).entries.has i = true) → exec (.updVerify q b) s = .next (waits c [] .flash 0 0 s))) ∧
  (∀ dt q z s, acting s = true → (∀ c, (flowCmds s (flowKey q)).head? = some c → c.wait ≠ .flash) → exec (.flashOperationComplete dt q z) s = .next (advance dt s)) ∧
  (∀ dt q s c r, acting s = true → flowCmds s (flowKey q) = c :: r → c.wait = .flash →
    (∀ z, opcodeOf c.packet = 0x0A01 → exec (.flashOperationComplete dt q z) s = .next (completeCmd c.serial stOk 0 0 0 [] true
      { modSlot (inactive s) (fun _ => { sessionId := word c.packet 4, imageBlocks := word c.packet 2, imageBytes := word c.packet 3, descriptor := true }) (advance dt s) with upd.session := .receiving })) ∧
    (opcodeOf c.packet = 0x0A02 → ∃ t n, exec (.flashOperationComplete dt q .done) s = .next (completeCmd c.serial stOk n 0 0 [] true t) ∧ n = (slotOf t (inactive s)).entries.length ∧
      slotOf t (inactive s) = { slotOf s (inactive s) with blocks := (slotOf s (inactive s)).blocks.set (word c.packet 5) c.block, entries := (slotOf s (inactive s)).entries.set (word c.packet 5) (BitVec.ofNat 32 (word c.packet 6)) } ∧
      slotOf t (!inactive s) = slotOf s (!inactive s) ∧ t.upd.session = s.upd.session ∧ t.upd.boot = s.upd.boot ∧ t.flows = s.flows) ∧
    (∀ k, opcodeOf c.packet = 0x0A02 → exec (.flashOperationComplete dt q (.mismatch k)) s = .next (completeCmd c.serial stFault (slotOf s (inactive s)).entries.length 0 0 [] true (advance dt s))) ∧
    (∀ k, opcodeOf c.packet = 0x0A03 → exec (.flashOperationComplete dt q (.mismatch k)) s = .next (completeCmd c.serial stCheck 0 k 0 [] true (advance dt s))) ∧
    (opcodeOf c.packet = 0x0A03 → exec (.flashOperationComplete dt q .done) s = .next (if imageValid s (slotOf s (inactive s))
      then completeCmd c.serial stOk (slotOf s (inactive s)).imageBlocks (imageVersion (slotOf s (inactive s))).toNat (imageGen (slotOf s (inactive s))).toNat [] true { advance dt s with upd.session := .verified }
      else completeCmd c.serial stSignature 0 0 0 [] true (advance dt s))) ∧
    (∀ z, opcodeOf c.packet ≠ 0x0A01 → opcodeOf c.packet ≠ 0x0A02 → opcodeOf c.packet ≠ 0x0A03 →
      (s.upd.fusePending = none → exec (.flashOperationComplete dt q z) s = .next (completeCmd c.serial stOk 0 0 0 [] true { advance dt s with upd.session := .idle, upd.owner := none })) ∧
      (∀ v m, s.upd.fusePending = some (v, m) → exec (.flashOperationComplete dt q z) s = .next (completeCmd c.serial stOk 0 0 0 [] true
        { advance dt s with upd.secFused := some (max (fusedSec s) v), upd.revoked := s.upd.revoked ||| m, upd.fusePending := none, upd.session := .idle, upd.owner := none })))) ∧
  (∀ q b s c n, ready 0x0A04 q c s = true → otherClient (cmdIn q c []) s = false → n = (if fld c.packet 2 11 0 = 0 then paramNat s keyTrial 120 else fld c.packet 2 11 0) →
    (n < 30 ∨ 3600 < n → exec (.updActivate q b) s = .next (refuses c b stBadParam 0 0 s)) ∧
    (30 ≤ n → n ≤ 3600 →
      (s.upd.session ≠ .verified ∨ (activateRefused s = true ∧ flag c.packet 2 16 = false) → exec (.updActivate q b) s = .next (refuses c b stBadState 0 0 s)) ∧
      (s.upd.session = .verified → (activateRefused s = false ∨ flag c.packet 2 16 = true) →
        ∃ t, exec (.updActivate q b) s = .next t ∧ t.power.warmPending = some .activate ∧ t.power.ready = false ∧ t.upd.txn = none ∧ t.upd.slotA = s.upd.slotA ∧ t.upd.slotB = s.upd.slotB ∧
          t.upd.boot = { s.upd.boot with brSeq := s.upd.boot.brSeq + 1, trial := true, trialSlotB := !s.upd.boot.activeB, attempts := 0, trialS := n }))) ∧
  (∀ dt s, acting s = true →
    (∀ n, clockLost s .ctl = false → s.upd.session = .trial → s.upd.trialEnd = some n → n ≤ s.now + dt →
      ∃ t, exec (.trialExpiry dt) s = .next t ∧ t.power.warmPending = some .trialExpiry ∧ t.power.ready = false ∧ t.upd.boot = { s.upd.boot with brSeq := s.upd.boot.brSeq + 1, trial := false, fallback := true }) ∧
    ((clockLost s .ctl = true ∨ s.upd.session ≠ .trial ∨ (∀ n, s.upd.trialEnd = some n → s.now + dt < n)) → exec (.trialExpiry dt) s = .next (advance dt s))) ∧
  (∀ q b s c x, ready 0x0A05 q c s = true → otherClient (cmdIn q c []) s = false → slotOf s s.upd.boot.trialSlotB = x →
    (s.upd.session ≠ .trial ∨ s.upd.fusePending.isSome = true → exec (.updConfirm q b) s = .next (refuses c b stBadState 0 0 s)) ∧
    (s.upd.session = .trial → s.upd.fusePending = none → exec (.updConfirm q b) s = .next (waits c [] .flash 0 0 { s with
      upd.boot := { s.upd.boot with brSeq := s.upd.boot.brSeq + 1, activeB := s.upd.boot.trialSlotB, trial := false, attempts := 0 }, upd.trialEnd := none,
      upd.fusePending := some (imageSec x, BitVec.ofNat 4 (imageRevokes x) &&& ~~~(BitVec.ofNat 4 (2 ^ imageKey x))) }))) ∧
  (∀ q b s c, ready 0x0A06 q c s = true → otherClient (cmdIn q c []) s = false →
    (flag c.packet 2 0 = true → exec (.updAbort q b) s = .next (completes c b 0 0 0 { s with upd.txn := none })) ∧
    (flag c.packet 2 0 = false → s.upd.session = .idle → exec (.updAbort q b) s = .next (completes c b 0 0 0 s)) ∧
    (flag c.packet 2 0 = false → (s.upd.session = .receiving ∨ s.upd.session = .verified) → ∃ t, exec (.updAbort q b) s = .next (completes c b 0 0 0 t) ∧ t.upd.session = .idle ∧ t.upd.owner = none ∧
      slotOf t (inactive s) = { slotOf s (inactive s) with descriptor := false, entries := [] } ∧ slotOf t (!inactive s) = slotOf s (!inactive s) ∧ t.upd.boot = s.upd.boot ∧ t.upd.txn = s.upd.txn) ∧
    (flag c.packet 2 0 = false → s.upd.session = .trial → s.upd.fusePending.isSome = true → exec (.updAbort q b) s = .next (refuses c b stBadState 0 0 s)) ∧
    (flag c.packet 2 0 = false → s.upd.session = .trial → s.upd.fusePending = none → ∃ t, exec (.updAbort q b) s = .next t ∧ t.power.warmPending = some .trialExpiry ∧ t.power.ready = false ∧
      t.upd.boot = { s.upd.boot with brSeq := s.upd.boot.brSeq + 1, trial := false, fallback := true }))

/-- Parameters and the Ferry port (R446 to R450, R456, R461 to R463). -/
def Obligations.ParametersAndFerryDatagrams : Prop :=
  (∀ q b bs s c o l u, readyBlock 0x0A07 q c b bs s = true → clientOf c = some o → u = blockTaken c s →
    (∀ o', s.upd.txn = some (o', l) → o' ≠ o → exec (.paramDelta q b) s = .next (refuses c b stDenied 0 0 u)) ∧
    ((s.upd.txn = none ∧ l = []) ∨ s.upd.txn = some (o, l) →
      (paramRecs bs.length bs = none → exec (.paramDelta q b) s = .next (refuses c b stBadParam 0 0 u)) ∧
      (∀ rs, paramRecs bs.length bs = some rs →
        ((∃ r ∈ rs, paramOk r.key r.value = false) → exec (.paramDelta q b) s = .next (refuses c b stBadParam 0 0 u)) ∧
        ((∀ r ∈ rs, paramOk r.key r.value = true) → 4096 < l.length + rs.length → exec (.paramDelta q b) s = .next (refuses c b stNoResource 0 0 u)) ∧
        ((∀ r ∈ rs, paramOk r.key r.value = true) → l.length + rs.length ≤ 4096 → exec (.paramDelta q b) s = .next (completes c b rs.length (l.length + rs.length) 0 { u with
          upd.txn := some (o, l ++ rs), upd.journalUsed := s.upd.journalUsed + sumBy recordBytes rs }))))) ∧
  (∀ q b s c, ready 0x0A08 q c s = true →
    (s.upd.txn = none → exec (.paramCommit q b) s = .next (refuses c b stBadState 0 0 s)) ∧
    (∀ o rs, s.upd.txn = some (o, rs) →
      (word c.packet 2 ≠ rs.length → exec (.paramCommit q b) s = .next (refuses c b stCheck 0 0 s)) ∧
      (word c.packet 2 = rs.length → exec (.paramCommit q b) s = .next (completes c b 0 s.upd.nextTxn 0 { s with
        upd.stored := rs.foldl (fun m r => m.set r.key r.value) s.upd.stored, upd.txn := none, upd.nextTxn := s.upd.nextTxn + 1, upd.txnCommitted := s.upd.nextTxn,
        upd.baseSeq := (if journalBytes < s.upd.journalUsed + 4096 then s.upd.baseSeq + 1 else s.upd.baseSeq),
        upd.journalUsed := (if journalBytes < s.upd.journalUsed + 4096 then sumBy recordBytes rs else s.upd.journalUsed) + 16 })))) ∧
  (∀ c seq p offset bytes fr s, ferryUp s = false → exec (.ferryCommand c seq p) s = .next s ∧ exec (.ferryData c offset bytes) s = .next s ∧ exec (.ferryFrameRx fr) s = .next s) ∧
  (∀ c seq p offset bytes s, ferryUp s = true → ferryAllowed s c.addr = false →
    exec (.ferryCommand c seq p) s = .next { s with upd.ferryDiscards := inc32 s.upd.ferryDiscards } ∧ exec (.ferryData c offset bytes) s = .next { s with upd.ferryDiscards := inc32 s.upd.ferryDiscards }) ∧
  (∀ c seq p s, ferryUp s = true → ferryAllowed s c.addr = true → ∃ x, (hearClient c s).upd.clients.find? (fun y => y.client == c) = some x ∧
    (∀ k, x.kept.find? (fun y => y.seq == seq) = some k → exec (.ferryCommand c seq p) s = .next (ferrySendKept c k { hearClient c s with upd.ferryRepeats := inc32 s.upd.ferryRepeats })) ∧
    (x.kept.find? (fun y => y.seq == seq) = none → (seq ∈ x.running ∨ (x.kept ≠ [] ∧ ∀ k ∈ x.kept, seqLower seq k.seq = true)) → exec (.ferryCommand c seq p) s = .next (hearClient c s)) ∧
    (x.kept.find? (fun y => y.seq == seq) = none → seq ∉ x.running → (x.kept = [] ∨ ∃ k ∈ x.kept, seqLower seq k.seq = false) →
      (4 ≤ flowOf p → exec (.ferryCommand c seq p) s = .next (ferryNoFlow c seq p (hearClient c s))) ∧
      (flowOf p < 4 → ∃ t, exec (.ferryCommand c seq p) s = .next t ∧ flowCmds t (8192 + flowOf p) = flowCmds s (8192 + flowOf p) ++ [{ serial := s.nextSerial, packet := p, ferry := some (c, seq) }] ∧
        (∀ k, k ≠ 8192 + flowOf p → flowCmds t k = flowCmds s k) ∧ t.nextSerial = s.nextSerial + 1 ∧ (∀ y ∈ t.upd.clients, y.client = c → seq ∈ y.running) ∧
        t.upd.ferryRepeats = s.upd.ferryRepeats ∧ t.upd.staging = s.upd.staging ∧ t.outbox = s.outbox))) ∧
  (∀ (c : Client) s, (hearClient c s).upd.heard = s.upd.heard + 1 ∧ (∃ x ∈ (hearClient c s).upd.clients, x.client = c ∧ x.lastHeard = s.upd.heard + 1) ∧
    (s.upd.clients.length ≤ 8 → (hearClient c s).upd.clients.length ≤ 8) ∧ (hearClient c s).flows = s.flows ∧ (hearClient c s).upd.staging = s.upd.staging) ∧
  (∀ c offset bytes s t, ferryUp s = true → ferryAllowed s c.addr = true → t = (if s.upd.clients.any (fun x => x.client == c) then hearClient c s else s) →
    (offset % 1024 = 0 → offset < 1048576 → bytes.length = 1024 → exec (.ferryData c offset bytes) s = .next { t with upd.staging := s.upd.staging.set (offset / 1024) bytes }) ∧
    ((offset % 1024 ≠ 0 ∨ 1048576 ≤ offset ∨ bytes.length ≠ 1024) → exec (.ferryData c offset bytes) s = .next { t with upd.ferryBad := inc32 s.upd.ferryBad })) ∧
  (∀ s u, ferryUp s = true → u = { s with upd.ferryDiscards := inc32 s.upd.ferryDiscards } →
    (∀ a : Word, a.toNat = paramNat s keyFerryIp 0xC0A86010 → exec (.ferryFrameRx (.arp a)) s = .next (emit s (.ferryFrame (.arp a))) ∧
      exec (.ferryFrameRx (.icmpEcho a)) s = .next (emit s (.ferryFrame (.icmpEcho a)))) ∧
    (∀ a : Word, a.toNat ≠ paramNat s keyFerryIp 0xC0A86010 → exec (.ferryFrameRx (.arp a)) s = .next u ∧ exec (.ferryFrameRx (.icmpEcho a)) s = .next u) ∧
    exec (.ferryFrameRx .other) s = .next u ∧
    (∀ c (p : BitVec 16) b,
      (p.toNat ≠ paramNat s keyFerryUdp 9616 ∨ ferryAllowed s c.addr = false → exec (.ferryFrameRx (.datagram c p b)) s = .next u) ∧
      (p.toNat = paramNat s keyFerryUdp 9616 → ferryAllowed s c.addr = true →
        (datagramOk b = false → exec (.ferryFrameRx (.datagram c p b)) s = .next { s with upd.ferryBad := inc32 s.upd.ferryBad }) ∧
        (datagramOk b = true → ofLe (slice b 3 1) = 1 → exec (.ferryFrameRx (.datagram c p b)) s = exec (.ferryCommand c (ofLe (slice b 4 4)) (datagramPacket b)) s) ∧
        (datagramOk b = true → ofLe (slice b 3 1) = 3 → exec (.ferryFrameRx (.datagram c p b)) s = exec (.ferryData c (ofLe (slice b 8 4)) (b.drop 16)) s) ∧
        (datagramOk b = true → ofLe (slice b 3 1) ≠ 1 → ofLe (slice b 3 1) ≠ 3 → exec (.ferryFrameRx (.datagram c p b)) s = .next s)))) ∧
  (∀ dt s, acting s = true →
    ((s.upd.session = .receiving ∨ s.upd.session = .verified) → ∃ t, exec (.ferryLinkLoss dt) s = .next t ∧ t.upd.session = .idle ∧ t.upd.owner = none ∧ t.upd.slotA = s.upd.slotA ∧ t.upd.slotB = s.upd.slotB ∧
      t.upd.boot = s.upd.boot ∧ t.upd.txn = s.upd.txn ∧ t.chans = s.chans) ∧
    (s.upd.session = .idle ∨ s.upd.session = .trial → exec (.ferryLinkLoss dt) s = .next (advance dt s)))

/-- Diagnostics (R422, R437 to R443). -/
def Obligations.DiagnosticsRunTheirSteps : Prop :=
  (∀ q b s c t i, ready 0x0B01 q c s = true → fld c.packet 2 2 0 = t → fld c.packet 2 15 8 = i →
    (testUnits t ≤ i → exec (.selftest q b) s = .next (refuses c b stBadParam 0 0 s)) ∧
    (i < testUnits t → testUnitIn s t i = false → exec (.selftest q b) s = .next (refuses c b stBadState 0 0 s)) ∧
    (∀ o, i < testUnits t → testUnitIn s t i = true → testRefusal s t i = some o → exec (.selftest q b) s = .next (refuses c b o 0 0 s)) ∧
    (i < testUnits t → testUnitIn s t i = true → testRefusal s t i = none → exec (.selftest q b) s = .next (waits c [] (.selftest t i (s.now + testTicks t)) 0 0
      (if t = 4 then testCore i { s with units.testing := s.units.testing ++ [(t, i)] } else { s with units.testing := s.units.testing ++ [(t, i)] })))) ∧
  (∀ dt q f s, acting s = true → (∀ c t i n, (flowCmds s (flowKey q)).head? = some c → c.wait = .selftest t i n → s.now + dt < n) → exec (.selftestComplete dt q f) s = .next (advance dt s)) ∧
  (∀ dt q s c r t i n u, acting s = true → flowCmds s (flowKey q) = c :: r → c.wait = .selftest t i n → n ≤ s.now + dt → u = { advance dt s with units.testing := s.units.testing.filter (fun e => e != (t, i)) } →
    (t ≠ 4 → exec (.selftestComplete dt q none) s = .next (completeCmd c.serial stOk (testSteps t) 0 0 [] true (journalAdd u 0 0 deviceFn 5 i 0))) ∧
    (t = 4 → exec (.selftestComplete dt q none) s = .next (completeCmd c.serial stOk 4 0 0 [] true (journalAdd (maskRequester 130 i false (modCore u i (fun x => { x with st := .sleep }))) 0 0 deviceFn 5 i 0))) ∧
    (∀ j k, k = max 1 (min j (testSteps t)) → t ≠ 4 → exec (.selftestComplete dt q (some j)) s = .next (unitOut t i (completeCmd c.serial stCheck (k - 1) k 0 [] true (journalAdd u 13 0 deviceFn 5 i k)))) ∧
    (∀ j k, k = max 1 (min j 4) → t = 4 → exec (.selftestComplete dt q (some j)) s = .next (completeCmd c.serial stCheck (k - 1) k 0 [] true (journalAdd u 13 0 deviceFn 5 i k)))) ∧
  (∀ i s, (i < 64 → isleIn (unitOut 0 i s) i = false) ∧ (i < 12 → entropyIn (unitOut 1 i s) i = false) ∧ (i < 4 → decEngineIn (unitOut 2 i s) i = false) ∧ (i < 4 → compIn (unitOut 3 i s) i = false) ∧
    (∀ j, j ≠ i → isleIn (unitOut 0 i s) j = isleIn s j ∧ entropyIn (unitOut 1 i s) j = entropyIn s j ∧ decEngineIn (unitOut 2 i s) j = decEngineIn s j ∧ compIn (unitOut 3 i s) j = compIn s j) ∧
    (unitOut 1 i s).chans = s.chans ∧ (unitOut 3 i s).chans = s.chans) ∧
  (∀ q b s c i, ready 0x0B02 q c s = true → fld c.packet 2 15 8 = i →
    (1 < fld c.packet 2 1 0 ∨ (fld c.packet 2 1 0 = 0 ∧ 64 ≤ i) ∨ (fld c.packet 2 1 0 = 1 ∧ 8 ≤ i) → exec (.calibrate q b) s = .next (refuses c b stBadParam 0 0 s)) ∧
    (fld c.packet 2 1 0 = 0 → i < 64 →
      (s.mem.pcOut.getLsbD i = true → exec (.calibrate q b) s = .next (refuses c b stBadState 0 0 s)) ∧
      (s.mem.pcOut.getLsbD i = false → exec (.calibrate q b) s = .next (waits c [] (.calibrate i) 0 0 (modPc s i (fun x => { x with calDue := some (x.calDue.getD s.now) }))))) ∧
    (fld c.packet 2 1 0 = 1 → i < 8 →
      (s.mem.qportIn.getLsbD i = false ∨ (∃ e ∈ s.chans, e.2.st = .armed ∨ e.2.st = .running) ∨ s.outs ≠ [] ∨ s.decs ≠ [] → exec (.calibrate q b) s = .next (refuses c b stBadState 0 0 s)) ∧
      (s.mem.qportIn.getLsbD i = true → (∀ e ∈ s.chans, e.2.st ≠ .armed ∧ e.2.st ≠ .running) → s.outs = [] → s.decs = [] →
        exec (.calibrate q b) s = .next (waits c [] (.retrain i (s.now + 1000000)) 0 0 s)))) ∧
  (∀ dt q k s, acting s = true → (∀ c p n, (flowCmds s (flowKey q)).head? = some c → c.wait ≠ .retrain p n) → exec (.qdrRetrainComplete dt q k) s = .next (advance dt s)) ∧
  (∀ dt q s c r p n k, acting s = true → flowCmds s (flowKey q) = c :: r → c.wait = .retrain p n →
    (4 ≤ k → exec (.qdrRetrainComplete dt q k) s = .next (completeCmd c.serial stOk 4 0 0 [] true (advance dt s))) ∧
    (k < 4 → exec (.qdrRetrainComplete dt q k) s = .next (qportFails p (completeCmd c.serial stCheck k 0 0 [] true (advance dt s))))) ∧
  (∀ p s, p < 8 → (qportFails p s).mem.qportIn.getLsbD p = false ∧ (∀ j, j ≠ p → (qportFails p s).mem.qportIn.getLsbD j = s.mem.qportIn.getLsbD j) ∧ (qportFails p s).mem.ueSrc = true ∧
    (qportAt (qportFails p s) p).queue = [] ∧ (∃ e ∈ (qportFails p s).journal.staged, e.cls = 5 ∧ e.object = p) ∧ (qportFails p s).mem.qportLaid = s.mem.qportLaid) ∧
  (∀ q b s c k a, ready 0x0B04 q c s = true → fld c.packet 2 7 0 = k → word c.packet 4 + fld c.packet 5 15 0 * 2 ^ 32 = a →
    (k = 0 ∨ 10 < k ∨ fld c.packet 2 15 8 ≠ (if k = 2 ∨ 7 ≤ k then k ^^^ 0xFF else 0) ∨ injectable s k (word c.packet 3) a (word c.packet 6) = false →
      exec (.faultInject q b) s = .next (refuses c b stBadParam 0 0 s)) ∧
    (injectable s k (word c.packet 3) a (word c.packet 6) = true →
      (k = 2 → fld c.packet 2 15 8 = 0xFD → ∀ e, atomOf s a = some e →
        exec (.faultInject q b) s = .next (completes c b 1 (s.journal.nextSeq % 2 ^ 32) (s.journal.nextSeq / 2 ^ 32) (journalAdd (markPoison e.1 e.2 s) 4 9 deviceFn 6 e.1.toNat e.2))) ∧
      (k ≠ 0 → k ≠ 2 → k ≤ 10 → fld c.packet 2 15 8 = (if 7 ≤ k then k ^^^ 0xFF else 0) →
        ∃ t ix at' n, exec (.faultInject q b) s = .next (waits c [] (.inject k (s.now + 500000000)) 0 0 t) ∧ t.units.injections = s.units.injections ++ [(k, ix, at', n, c.serial)] ∧
          ix = (if k = 3 ∨ k = 4 ∨ k = 7 ∨ k = 10 then word c.packet 3 else 0) ∧ n = (if k = 5 then word c.packet 6 else 0) ∧
          (k = 1 → ∀ e, atomOf s a = some e → at' = (if e.1 then e.2 else 0x10000000000 + e.2)) ∧ (k = 8 → t.pair = { s.pair with hbSuppressUntil := s.now + ticksUs (8 * word c.packet 6) }) ∧
          (k = 9 → t.pair = { s.pair with noRefresh := true }) ∧ (k ≠ 8 → k ≠ 9 → t.pair = s.pair) ∧ t.chans = s.chans ∧ t.mem = s.mem ∧ t.net = s.net ∧ t.journal = s.journal))) ∧
  (∀ dt q s, acting s = true → (∀ c n, (flowCmds s (flowKey q)).head? = some c → c.wait = .inject 1 n → s.now + dt < n) → exec (.faultInjectTimeout dt q) s = .next (advance dt s)) ∧
  (∀ dt q s c r n, acting s = true → flowCmds s (flowKey q) = c :: r → c.wait = .inject 1 n → n ≤ s.now + dt →
    exec (.faultInjectTimeout dt q) s = .next (completeCmd c.serial stTimeout 0 0 0 [] true { advance dt s with units.injections := s.units.injections.filter (fun x => x.2.2.2.2 != c.serial) })) ∧
  (∀ ring e, (ring.length < 65536 → ringPut ring e = ring ++ [e]) ∧ (65536 ≤ ring.length → ringPut ring e = ring.drop 128 ++ [e])) ∧
  (∀ dt s, acting s = true →
    ∃ t, exec (.journalWrite dt) s = .next t ∧ t.journal.staged = [] ∧ t.journal.stagedAt = [] ∧ t.journal.nextSeq = s.journal.nextSeq ∧ t.journal.faults = s.journal.faults ∧
      (s.journal.rateStart + 500000000 ≤ s.now + dt → ∀ m, m = sortOn (fun (e : JEntry) => e.seq) (s.journal.merged.map (fun e => e.2.1)) →
        t.journal.flash = (m ++ s.journal.staged.take (1000 - m.length)).foldl ringPut s.journal.flash ∧ t.journal.merged = (s.journal.staged.drop (1000 - m.length)).foldl mergeEntry [] ∧
        t.journal.rateCount = m.length + min s.journal.staged.length (1000 - m.length) ∧ t.journal.rateStart = s.now + dt) ∧
      (s.now + dt < s.journal.rateStart + 500000000 →
        t.journal.flash = (s.journal.staged.take (1000 - s.journal.rateCount)).foldl ringPut s.journal.flash ∧ t.journal.merged = (s.journal.staged.drop (1000 - s.journal.rateCount)).foldl mergeEntry s.journal.merged ∧
        t.journal.rateCount = s.journal.rateCount + min s.journal.staged.length (1000 - s.journal.rateCount) ∧ t.journal.rateStart = s.journal.rateStart))

/-- Memory control (R234 to R250). -/
def Obligations.MemoryControllersKeepTheirOrder : Prop :=
  (∀ q b s c k n, ready 0x0C01 q c s = true → fld c.packet 2 3 0 = k → word c.packet 3 = n →
    (k = 0 ∨ k = 8 ∨ k ∉ kindsOf k ∨ n < regionMin k ∨ (k = 3 ∧ 256 < n) ∨ (8 ≤ k ∧ n % 256 ≠ 0) ∨ freeWith s (regionsAhead s) k + (regionsAhead s).getD k 0 < n →
      exec (.regionMap q b) s = .next (refuses c b stBadParam 0 0 s)) ∧
    (k ≠ 0 → k ≠ 8 → k ∈ kindsOf k → regionMin k ≤ n → (k = 3 → n ≤ 256) → (8 ≤ k → n % 256 = 0) → n ≤ freeWith s (regionsAhead s) k + (regionsAhead s).getD k 0 →
      (∀ j, j ∈ kindsOf k → k < j → 0 < regionUsed s (poolWith s none none) j → (∀ i ∈ kindsOf k, k < i → i < j → regionUsed s (poolWith s none none) i = 0) →
        exec (.regionMap q b) s = .next (refuses c b stBadState j 0 s)) ∧
      ((∀ j ∈ kindsOf k, k < j → regionUsed s (poolWith s none none) j = 0) → 0 < regionUsed s (poolWith s none none) k → exec (.regionMap q b) s = .next (refuses c b stBadState k 0 s)) ∧
      ((∀ j ∈ kindsOf k, k ≤ j → regionUsed s (poolWith s none none) j = 0) → exec (.regionMap q b) s = .next (heldForTide 0x0C01 c [] s)))) ∧
  (∀ q b s c, ready 0x0C02 q c s = true →
    ((word c.packet 3 = 0 ∨ (60 ≤ word c.packet 3 ∧ word c.packet 3 ≤ 604800)) → exec (.scrubConfig q b) s = .next (heldForTide 0x0C02 c [] s)) ∧
    (word c.packet 3 ≠ 0 → (word c.packet 3 < 60 ∨ 604800 < word c.packet 3) → exec (.scrubConfig q b) s = .next (refuses c b stBadParam 0 0 s))) ∧
  (∀ dt (p : Pc) ok s x y, acting s = true → pcAt s p.val = x → y = { x with nextRefresh := x.nextRefresh + refreshTicks s } →
    (pcUp s p.val = false ∨ s.now + dt < x.nextRefresh → exec (.refreshDue dt p ok) s = .next (advance dt s)) ∧
    (pcUp s p.val = true → x.nextRefresh ≤ s.now + dt → ∃ t, exec (.refreshDue dt p ok) s = .next t ∧ (∀ j, j ≠ p.val → pcAt t j = pcAt s j) ∧
      (x.pendRefresh < 8 → rtPresent x = false → x.busyUntil ≤ s.now + dt → pcAt t p.val = issueRefreshes (s.now + dt) 1 y ∧ t.mem.pendMax = s.mem.pendMax ∧ t.fab = s.fab) ∧
      (x.pendRefresh < 8 → (rtPresent x = true ∨ s.now + dt < x.busyUntil) → pcAt t p.val = { y with pendRefresh := x.pendRefresh + 1 } ∧ t.mem.pendMax = max s.mem.pendMax (x.pendRefresh + 1) ∧ t.fab = s.fab) ∧
      (8 ≤ x.pendRefresh → t.mem.emergencyRefresh = inc32 s.mem.emergencyRefresh ∧ ((arbAt s (56 + p.val)).emergency = none → (arbAt t (56 + p.val)).emergency = some true) ∧
        (∃ e ∈ t.journal.staged, e.cls = 8 ∧ e.object = p.val) ∧
        ((x.deferred = false ∨ x.calDue = none) → pcAt t p.val = { issueRefreshes (s.now + dt) 9 y with pendRefresh := 0 } ∧ t.mem.calSteps = s.mem.calSteps ∧ (∀ a, a ≠ 56 + p.val → arbAt t a = arbAt s a)) ∧
        (x.deferred = true → t.mem.calDeferred = inc32 s.mem.calDeferred) ∧
        (x.deferred = true → x.calDue ≠ none → ok = true → t.mem.calSteps = inc32 s.mem.calSteps ∧ (pcAt t p.val).pendRefresh = 0 ∧ (pcAt t p.val).calDue = none ∧ (pcAt t p.val).lastCal = s.now + dt) ∧
        (x.deferred = true → x.calDue ≠ none → ok = false → t.mem.pcOut.getLsbD p.val = true)))) ∧
  (∀ dt (p : Pc) ok s x y, acting s = true → pcAt s p.val = x → y = { issueRefreshes (s.now + dt) x.pendRefresh x with pendRefresh := 0 } →
    (pcUp s p.val = false ∨ x.pendRefresh = 0 ∨ rtPresent x = true ∨ s.now + dt < x.lastRt + 27 ∨ s.now + dt < x.busyUntil → exec (.makeUpBurst dt p ok) s = .next (advance dt s)) ∧
    (pcUp s p.val = true → x.pendRefresh ≠ 0 → rtPresent x = false → x.lastRt + 27 ≤ s.now + dt → x.busyUntil ≤ s.now + dt → ∃ t, exec (.makeUpBurst dt p ok) s = .next t ∧ (∀ j, j ≠ p.val → pcAt t j = pcAt s j) ∧
      (x.calDue = none → pcAt t p.val = y ∧ t.mem.calSteps = s.mem.calSteps ∧ t.flows = s.flows) ∧
      (x.calDue ≠ none → ok = true → pcAt t p.val = { y with calDue := none, dueTemp := none, deferred := false, lastCal := s.now + dt, busyUntil := y.busyUntil + 400 } ∧
        t.mem.calSteps = inc32 s.mem.calSteps ∧ t.mem.calTemp.get? p.val = some (x.dueTemp.getD (s.mem.hbmTemp : Int)) ∧ t.mem.pcOut = s.mem.pcOut) ∧
      (x.calDue ≠ none → ok = false → t.mem.pcOut.getLsbD p.val = true ∧ (∀ j, j < 64 → j ≠ p.val → t.mem.pcOut.getLsbD j = s.mem.pcOut.getLsbD j) ∧ t.mem.pcRemoved = s.mem.pcRemoved ∧
        (pcAt t p.val).queue = [] ∧ t.mem.ueSrc = true))) ∧
  (∀ dt (p : Pc) temp s x, acting s = true → pcAt s p.val = x →
    (pcUp s p.val = true → x.calDue = none → (x.lastCal + 125000000 ≤ s.now + dt ∨ ∃ d, temp = some d ∧ 4 ≤ (d - s.mem.calTemp.getD p.val 0).natAbs) →
      exec (.calibrationStepDue dt p temp) s = .next (modPc (advance dt s) p.val (fun x => { x with calDue := some (s.now + dt), dueTemp := temp }))) ∧
    (pcUp s p.val = false ∨ x.calDue ≠ none ∨ (s.now + dt < x.lastCal + 125000000 ∧ ∀ d, temp = some d → (d - s.mem.calTemp.getD p.val 0).natAbs < 4) →
      exec (.calibrationStepDue dt p temp) s = .next (advance dt s))) ∧
  (∀ dt (p : Pc) s, acting s = true →
    (∀ n, pcUp s p.val = true → (pcAt s p.val).calDue = some n → n + 12500000 ≤ s.now + dt → exec (.calDeferred dt p) s = .next (modPc (advance dt s) p.val (fun x => { x with deferred := true }))) ∧
    (pcUp s p.val = false ∨ (∀ n, (pcAt s p.val).calDue = some n → s.now + dt < n + 12500000) → exec (.calDeferred dt p) s = .next (advance dt s))) ∧
  (∀ dt (p : Pc) id s, acting s = true →
    (∀ q a, pcUp s p.val = true → (pcAt s p.val).queue.find? (fun q => q.id == id) = some q → promotionAge q = some a → q.arrived + a < s.now + dt →
      ∃ t, exec (.agePromotion dt p id) s = .next t ∧ pcAt t p.val = { pcAt s p.val with queue := (pcAt s p.val).queue.map (fun e => if e.id = id then { e with cls := e.cls - 1 } else e) } ∧
        (∀ j, j ≠ p.val → pcAt t j = pcAt s j) ∧ t.mem.agePromotions = inc32 s.mem.agePromotions) ∧
    (pcUp s p.val = false ∨ (∀ q a, (pcAt s p.val).queue.find? (fun q => q.id == id) = some q → promotionAge q = some a → s.now + dt ≤ q.arrived + a) → exec (.agePromotion dt p id) s = .next (advance dt s))) ∧
  (∀ dt (p : Pc) k u s x, acting s = true → x = settlePc (s.now + dt) (pcAt s p.val) →
    (pcUp s p.val = false ∨ s.now + dt < (pcAt s p.val).busyUntil → exec (.nextRequest dt p k u) s = .next (advance dt s)) ∧
    (pcUp s p.val = true → (pcAt s p.val).busyUntil ≤ s.now + dt →
      (64 ≤ (buffered (s.now + dt) x).length ∨ nextServed x = none → exec (.nextRequest dt p k u) s = .next (modPc (advance dt s) p.val (fun _ => x))) ∧
      (∀ q, (buffered (s.now + dt) x).length < 64 → nextServed x = some q → exec (.nextRequest dt p k u) s = .next (serveAccess true q.tx (codesFound k u) (modPc (advance dt s) p.val (fun _ => serveRequest (s.now + dt) x q)))))) ∧
  (∀ x q, nextServed x = some q → q ∈ x.queue ∧ (x.inOrder = [] → (∀ e ∈ x.queue, e.cls ≠ 3) → (∀ e ∈ x.queue, e.id < q.id → sameAtom e.tx.req q.tx.req = false) ∧
    (∀ e ∈ x.queue, (∀ d ∈ x.queue, d.id < e.id → sameAtom d.tx.req e.tx.req = false) → q.cls ≤ e.cls ∧
      (e.cls = q.cls → x.openRows.get? (bankOf e.tx) = some (rowOf e.tx) → x.openRows.get? (bankOf q.tx) = some (rowOf q.tx))))) ∧
  (∀ hbm x f s, x.scrub = none →
    (x.req.write = true → (serveAccess hbm x f s).mem.cells = Memory.writeAll s.mem.cells x.req.addr.toNat x.req.data ∧
      (x.req.poisoned = false → ∀ e, e ∈ (serveAccess hbm x f s).mem.poison ↔ e ∈ s.mem.poison ∧ ¬(e.1 = hbm ∧ e.2 ∈ atomsWhole hbm x.req))) ∧
    (x.req.write = false → f = .clean → (∀ a ∈ atomsOf hbm x.req, (hbm, a) ∉ s.mem.poison) →
      serveAccess hbm x f s = respond x false false (Memory.bytes s.mem.cells x.req.addr.toNat x.req.len) s) ∧
    (x.req.write = false → (f = .uncorrectable ∨ ∃ a ∈ atomsOf hbm x.req, (hbm, a) ∈ s.mem.poison) → ∃ t, serveAccess hbm x f s = spendFree (respond x false true (poisonedBytes t x.req.len) t) ∧
      t.mem.cells = s.mem.cells ∧ (f = .uncorrectable → (if hbm then t.mem.hbmUe = inc32 s.mem.hbmUe else t.mem.qdrUe = inc32 s.mem.qdrUe)))) ∧
  (∀ dt (p : Pc) cmd s x live n, acting s = true → pcAt s p.val = x → live = buffered (s.now + dt) x → n = (match x.alerts with | some a => if a.1 = cmd then a.2 + 1 else 1 | none => 1) →
    (pcUp s p.val = false ∨ (∀ e ∈ live, e.1 ≠ cmd) → exec (.parityAlert dt ⟨p, cmd⟩) s = .next (advance dt s)) ∧
    (pcUp s p.val = true → (∃ e ∈ live, e.1 = cmd) →
      (n < 3 → ∃ t, exec (.parityAlert dt ⟨p, cmd⟩) s = .next t ∧ pcAt t p.val = { x with openRows := [], alerts := some (cmd, n), retry := live.map (fun d => (d.1, s.now + dt + 20)), busyUntil := max x.busyUntil (s.now + dt + 20) } ∧
        t.mem.parityReplays = inc32 s.mem.parityReplays ∧ t.mem.pcOut = s.mem.pcOut ∧ t.journal.faults.get? 3 = some (inc32 (s.journal.faults.getD 3 0)) ∧
        (injectionOf s 3 p.val = none → t.journal.staged = s.journal.staged)) ∧
      (3 ≤ n → exec (.parityAlert dt ⟨p, cmd⟩) s = .next (pcFails p.val (advance dt s))))) ∧
  (∀ p s, p < 64 → (pcFails p s).mem.pcOut.getLsbD p = true ∧ (∀ j, j < 64 → j ≠ p → (pcFails p s).mem.pcOut.getLsbD j = s.mem.pcOut.getLsbD j) ∧ (pcAt (pcFails p s) p).queue = [] ∧ (pcFails p s).mem.ueSrc = true ∧
    (pcFails p s).mem.parityReplays = s.mem.parityReplays ∧ (∃ e ∈ (pcFails p s).journal.staged, e.cls = 5 ∧ e.object = p)) ∧
  (∀ (p : QPort) a s n, acting s = true → n = (match s.mem.qFail.get? p.val with | some e => if e.1 = a then e.2 + 1 else 1 | none => 1) →
    (clockLost s .qdr = true ∨ s.mem.qportIn.getLsbD p.val = false → exec (.qdrParityError p a) s = .next s) ∧
    (clockLost s .qdr = false → s.mem.qportIn.getLsbD p.val = true →
      (3 ≤ n → exec (.qdrParityError p a) s = .next (qportFails p.val s)) ∧
      (n < 3 → ∃ t, exec (.qdrParityError p a) s = .next t ∧ t.mem.qdrReplays = inc32 s.mem.qdrReplays ∧ t.mem.qFail = s.mem.qFail.set p.val (a, n) ∧ t.mem.qportIn = s.mem.qportIn ∧
        qportAt t p.val = { qportAt s p.val with recent := ((qportAt s p.val).recent.filter (fun e => decide (s.now < e.2 + 8))).map (fun e => (e.1, s.now + 16)), busyUntil := s.now + 16 } ∧
        t.journal.faults.get? 3 = some (inc32 (s.journal.faults.getD 3 0)) ∧ (injectionOf s 4 p.val = none → t.journal.staged = s.journal.staged)))) ∧
  (∀ dt hbm r s x n, acting s = true → scrubOf s hbm = x → atomCount s hbm = n →
    (clockLost s (if hbm then .hbm else .qdr) = true ∨ clockLost s .fab = true ∨ x.period = 0 ∨ n = 0 ∨ s.now + dt < x.passStart + x.nextAtom * x.period * 500000000 / n ∨ freeId s 29 = none →
      exec (.scrub dt hbm r) s = .next (advance dt s)) ∧
    (∀ i, clockLost s (if hbm then .hbm else .qdr) = false → clockLost s .fab = false → x.period ≠ 0 → n ≠ 0 → x.passStart + x.nextAtom * x.period * 500000000 / n ≤ s.now + dt → freeId s 29 = some i →
      ∃ t, exec (.scrub dt hbm r) s = .next t ∧ (scrubOf t hbm).nextAtom = (if n ≤ x.nextAtom + 1 then 0 else x.nextAtom + 1) ∧
        (scrubOf t hbm).passes = (if n ≤ x.nextAtom + 1 then inc32 x.passes else x.passes) ∧ scrubOf t (!hbm) = scrubOf s (!hbm) ∧ (scrubOf t hbm).period = x.period ∧
        t.fab.txs = (issueTx (some r) (scrubReq hbm x.nextAtom) (advance dt s)).fab.txs ∧ t.mem.poison = s.mem.poison ∧ t.journal = s.journal)) ∧
  (∀ hbm x f r s t y, x.scrub = some r → t = serveAccess hbm x f s → scrubOf s hbm = y →
    (r = .clean → t = respond x false false [] s) ∧
    (∀ d, r = .correctable d → (if hbm then (if d then t.mem.hbmCeDie = inc32 s.mem.hbmCeDie else t.mem.hbmCeHost = inc32 s.mem.hbmCeHost) else t.mem.qdrCe = inc32 s.mem.qdrCe) ∧
      (scrubOf t hbm).ceThisPass = y.ceThisPass + 1 ∧ (y.ceThreshold ≠ 0 → y.ceThisPass + 1 = y.ceThreshold → t.mem.ceSrc = true) ∧ t.mem.poison = s.mem.poison) ∧
    (r = .uncorrectable → (hbm, memOffset hbm x.req) ∈ t.mem.poison ∧ t.mem.ueLog.getLast? = some (hbm, memOffset hbm x.req) ∧ (s.mem.ueLog.length ≤ 32 → t.mem.ueLog.length ≤ 32) ∧ t.mem.ueSrc = true))

/-- Shedding (R411, R468, R478 to R487). -/
def Obligations.SheddingFollowsItsCauses : Prop :=
  (∀ q b s c x, ready 0x0D01 q c s = true → shedPolicyOf c.packet = x →
    (x.maxStep ≤ 8 → x.holdStep ≤ 7 → x.holdStep ≤ x.maxStep → 100 ≤ x.interval → x.interval ≤ 20000 → 10 ≤ x.recover → x.recover ≤ 10000 → exec (.shedPolicy q b) s = .next (heldForTide 0x0D01 c [] s)) ∧
    (8 < x.maxStep ∨ 7 < x.holdStep ∨ x.maxStep < x.holdStep ∨ x.interval < 100 ∨ 20000 < x.interval ∨ x.recover < 10 ∨ 10000 < x.recover → exec (.shedPolicy q b) s = .next (refuses c b stBadParam 0 0 s))) ∧
  (∀ q b s c, ready 0x0D03 q c s = true →
    (fld c.packet 3 1 0 ≠ 0 → (flag c.packet 2 0 = true → (outAt s (fld c.packet 2 13 8)).isSome = true) → (flag c.packet 2 0 = false → (chanAt s (fld c.packet 2 13 8)).isSome = true) →
      exec (.shedClass q b) s = .next (heldForTide 0x0D03 c [] s)) ∧
    (fld c.packet 3 1 0 = 0 ∨ (flag c.packet 2 0 = true ∧ outAt s (fld c.packet 2 13 8) = none) ∨ (flag c.packet 2 0 = false ∧ chanAt s (fld c.packet 2 13 8) = none) →
      exec (.shedClass q b) s = .next (refuses c b stBadParam 0 0 s))) ∧
  (∀ dt up s v, acting s = true → v = (if up then s.power.vid + 1 else s.power.vid - 1) →
    (s.power.vidTick + 5000 ≤ s.now + dt → vidMin ≤ v → v ≤ 60 → exec (.avsVidStep dt up) s = .next { advance dt s with power.vid := v, power.vidTick := s.now + dt }) ∧
    (s.now + dt < s.power.vidTick + 5000 ∨ v < vidMin ∨ 60 < v → exec (.avsVidStep dt up) s = .next (advance dt s))) ∧
  (∀ dt s, acting s = true →
    (∀ b, exec (.supplyMonitorCrossing dt (.core b)) s = .next { advance dt s with power.coreCond := (if s.power.coreCond.present = b then s.power.coreCond else { present := b, since := s.now + dt }) }) ∧
    (∀ b, exec (.supplyMonitorCrossing dt (.shedReq b)) s = .next { advance dt s with power.pinCond := (if s.power.pinCond.present = b then s.power.pinCond else { present := b, since := s.now + dt }) }) ∧
    (∀ n b, ∃ t, exec (.supplyMonitorCrossing dt (.bank n b)) s = .next t ∧ bankCondAt t n.val = (if (bankCondAt s n.val).present = b then bankCondAt s n.val else { present := b, since := s.now + dt }) ∧
      (∀ m, m ≠ n.val → bankCondAt t m = bankCondAt s m) ∧ t.power.vddio = s.power.vddio)) ∧
  (∀ dt s, acting s = true →
    (s.power.core = false → s.power.coreCond.present = true → s.power.coreCond.since + 10000 ≤ s.now + dt →
      exec (.causeOnset dt .core) s = .next (journalAdd { advance dt s with power.core := true, power.coreEvents := inc32 s.power.coreEvents } 12 0 deviceFn 0 0 0)) ∧
    (s.power.core = true ∨ s.power.coreCond.present = false ∨ s.now + dt < s.power.coreCond.since + 10000 → exec (.causeOnset dt .core) s = .next (advance dt s)) ∧
    (∀ b, s.power.vddio = false → b < 3 → (bankCondAt s b).present = true → (bankCondAt s b).since + 10000 ≤ s.now + dt →
      exec (.causeOnset dt .vddio) s = .next (journalAdd { advance dt s with power.vddio := true } 12 0 deviceFn 0 0 1)) ∧
    (s.power.vddio = true ∨ (∀ b, b < 3 → (bankCondAt s b).present = false ∨ s.now + dt < (bankCondAt s b).since + 10000) → exec (.causeOnset dt .vddio) s = .next (advance dt s)) ∧
    (s.power.pin = false → s.power.pinCond.present = true → s.power.pinCond.since + 500 ≤ s.now + dt →
      exec (.causeOnset dt .pin) s = .next (journalAdd { advance dt s with power.pin := true, power.pinEvents := inc32 s.power.pinEvents } 12 0 deviceFn 0 0 2)) ∧
    (s.power.pin = true ∨ s.power.pinCond.present = false ∨ s.now + dt < s.power.pinCond.since + 500 → exec (.causeOnset dt .pin) s = .next (advance dt s)) ∧
    exec (.causeOnset dt .hold) s = .next (advance dt s)) ∧
  (∀ dt s, acting s = true →
    (s.power.coreCond.present = false → s.power.coreCond.since + 10000 ≤ s.now + dt → ∃ t, exec (.causeEnd dt .core) s = .next t ∧ t.power.core = false ∧ t.power.vddio = s.power.vddio ∧ t.power.pin = s.power.pin ∧ t.power.step = s.power.step ∧
      t.power.quietSince = (if s.power.core ∧ anyCause t = false then s.now + dt else s.power.quietSince)) ∧
    (s.power.coreCond.present = true ∨ s.now + dt < s.power.coreCond.since + 10000 → exec (.causeEnd dt .core) s = .next (advance dt s)) ∧
    ((∀ b, b < 3 → (bankCondAt s b).present = false ∧ (bankCondAt s b).since + 10000 ≤ s.now + dt) → ∃ t, exec (.causeEnd dt .vddio) s = .next t ∧ t.power.vddio = false ∧ t.power.core = s.power.core ∧ t.power.pin = s.power.pin ∧
      t.power.quietSince = (if anyCause s ∧ anyCause t = false then s.now + dt else s.power.quietSince)) ∧
    ((∃ b, b < 3 ∧ ((bankCondAt s b).present = true ∨ s.now + dt < (bankCondAt s b).since + 10000)) → exec (.causeEnd dt .vddio) s = .next (advance dt s)) ∧
    (s.power.pinCond.present = false → s.power.pinCond.since + 500 ≤ s.now + dt → ∃ t, exec (.causeEnd dt .pin) s = .next t ∧ t.power.pin = false ∧ t.power.core = s.power.core ∧ t.power.vddio = s.power.vddio ∧
      t.power.quietSince = (if anyCause s ∧ anyCause t = false then s.now + dt else s.power.quietSince)) ∧
    (s.power.pinCond.present = true ∨ s.now + dt < s.power.pinCond.since + 500 → exec (.causeEnd dt .pin) s = .next (advance dt s)) ∧
    exec (.causeEnd dt .hold) s = .next (advance dt s)) ∧
  (∀ dt s, acting s = true →
    (anyCause s = false ∨ shedLimit s ≤ s.power.step ∨ s.pair.shedWait.isSome = true ∨ (∃ n, s.power.lastStep = some n ∧ s.now + dt < n + ticksUs s.power.policy.interval) → exec (.shedStepTaken dt) s = .next (advance dt s)) ∧
    (anyCause s = true → s.power.step < shedLimit s → s.pair.shedWait = none → (∀ n, s.power.lastStep = some n → n + ticksUs s.power.policy.interval ≤ s.now + dt) →
      (4 ≤ s.power.step → exec (.shedStepTaken dt) s = .next (takeStep (s.power.step + 1) (shedYield (advance dt s)))) ∧
      (s.power.step < 4 → pairOn s = true → s.pair.st = .synced → s.pair.role ≠ .none → ∃ t, exec (.shedStepTaken dt) s = .next t ∧ t.power.step = s.power.step ∧ t.power.pairWait = true ∧
        t.pair.shedWait = some (s.power.step + 1, false, s.pair.nextShed, s.time.tide) ∧ t.pair.shedPlan = shedEntries s ∧ t.chans = s.chans) ∧
      (s.power.step < 4 → (pairOn s = false ∨ s.pair.st ≠ .synced ∨ s.pair.role = .none) →
        exec (.shedStepTaken dt) s = .next (takeStep (s.power.step + 1) (if isStandby s && inLockstep s then diverge (advance dt s) else advance dt s))))) ∧
  (∀ k s t, k = s.power.step + 1 → k ≤ 8 → s.power.quiesced = false → t = takeStep k s →
    t.power.step = k ∧ t.power.stepsTaken = inc32 s.power.stepsTaken ∧ t.power.lastStep = some s.now ∧ t.power.peakReg = max k s.power.peakReg ∧ t.power.peakRec = max k s.power.peakRec ∧
      t.power.alertLow = (clockLost s .ctl || decide (5 ≤ k)) ∧ t.power.quiesced = decide (k = 8) ∧ (k < 5 → t.chans = s.chans) ∧
      ((∀ e ∈ s.fns, e.2.busy = false) → 5 ≤ k → ∀ c x, chanAt s c = some x → x.st ≠ .idle → (k = 8 ∨ chanShedClass s x = 8 - k) →
        ∃ y, chanAt t c = some y ∧ y.stopReason = 2 ∧ y.lossFlag = true ∧ (y.st = .idle ∨ y.run.aborting = true))) ∧
  (∀ dt s, acting s = true →
    (anyCause s = true ∨ s.power.step = 0 ∨ 8 ≤ s.power.step ∨ s.pair.shedWait.isSome = true ∨ s.now + dt < max s.power.quietSince (s.power.lastStep.getD 0) + ticksMs s.power.policy.recover →
      exec (.shedStepUndone dt) s = .next (advance dt s)) ∧
    (anyCause s = false → 0 < s.power.step → s.power.step < 8 → s.pair.shedWait = none → max s.power.quietSince (s.power.lastStep.getD 0) + ticksMs s.power.policy.recover ≤ s.now + dt →
      ((5 ≤ s.power.step ∨ pairOn s = false) → ∃ t, exec (.shedStepUndone dt) s = .next t ∧ t.power.step = s.power.step - 1 ∧ t.power.stepsUndone = inc32 s.power.stepsUndone ∧ t.power.lastStep = some (s.now + dt) ∧
        t.power.alertLow = (clockLost s .ctl || decide (6 ≤ s.power.step)) ∧ t.power.peakReg = s.power.peakReg ∧ t.chans = s.chans ∧ t.outs = s.outs) ∧
      (s.power.step < 5 → pairOn s = true → s.pair.st = .synced → s.pair.role ≠ .none → ∃ t, exec (.shedStepUndone dt) s = .next t ∧ t.power.step = s.power.step ∧ t.power.pairWait = true ∧
        t.pair.shedWait = some (s.power.step, true, s.pair.nextShed, s.time.tide) ∧ t.chans = s.chans) ∧
      (s.power.step < 5 → pairOn s = true → (s.pair.st ≠ .synced ∨ s.pair.role = .none) →
        exec (.shedStepUndone dt) s = .next (undoStep (if isStandby s && inLockstep s then diverge (advance dt s) else advance dt s)))))

/-- Clock loss, function-level reset and host reset (R32, R33, R421 to R425, R474). -/
def Obligations.ClocksStopAndFunctionsReset : Prop :=
  (∀ d n s, acting s = true → (clockLost s d = true ∨ windowLost (100 * n) (nominalEdges d) = false) → exec (.clockLoss ⟨d, n⟩) s = .next s) ∧
  (∀ n m, windowLost n m = true ↔ n = 0 ∨ m < 8 * ((n : Int) - m).natAbs) ∧
  (∀ d n s, acting s = true → clockLost s d = false → windowLost (100 * n) (nominalEdges d) = true →
    ∃ t, exec (.clockLoss ⟨d, n⟩) s = .next t ∧ t.fab.txs = (straitStops d s).fab.txs ∧ t.fab.resps = (straitStops d s).fab.resps ∧ t.power.clocksLost = s.power.clocksLost ++ [d] ∧ (∀ e, e ∈ t.power.clocksBack ↔ e ∈ s.power.clocksBack ∧ e ≠ d) ∧ t.now = s.now ∧
      (d = .ctl → t.power.alertLow = true ∧ t.journal = s.journal ∧ t.chans = s.chans ∧ t.outs = s.outs) ∧
      (d ≠ .ctl → ∃ e ∈ t.journal.staged, e.cls = 1 ∧ e.detail = domainIndex d) ∧
      ((d = .isle ∨ d = .ent ∨ d = .fab ∨ d = .hbm ∨ d = .qdr ∨ d = .time) → (∀ e ∈ s.fns, e.2.busy = false) → ∀ c x, chanAt s c = some x → x.st ≠ .idle →
        ∃ y, chanAt t c = some y ∧ y.stopReason = 3 ∧ y.lossFlag = true ∧ (y.st = .idle ∨ y.run.aborting = true)) ∧
      ((d = .fab ∨ d = .hbm ∨ d = .qdr) → (∀ e ∈ t.outs, e.2.stopped = true) ∧ (∀ e ∈ t.decs, e.2.stopped = true)) ∧ (d = .time → ∀ e ∈ t.outs, e.2.stopped = true) ∧
      (d = .pcie → t.chans = s.chans ∧ t.outs = s.outs ∧ t.flows = s.flows) ∧
      (d = .ferry → t.chans = s.chans ∧ ((s.upd.session = .receiving ∨ s.upd.session = .verified) → t.upd.session = .idle))) ∧
  (∀ d s, acting s = true →
    (clockLost s d = true → d ∉ s.power.clocksBack → exec (.clockReturn d) s = .next { s with power.clocksBack := s.power.clocksBack ++ [d] }) ∧
    (clockLost s d = false ∨ d ∈ s.power.clocksBack → exec (.clockReturn d) s = .next s)) ∧
  (∀ s, acting s = true → exec (.flr 0) s = .next s) ∧
  (∀ (f : Fn) s u, acting s = true → f ≠ 0 → u = modFn s f.val (fun x => { x with busMaster := false, msixEnable := false, functionMask := false, msix := [], d3hot := false, pmeEn := false }) →
    (isStandby s = true → exec (.flr f) s = .next { u with pair.orphanRecords := inc32 s.pair.orphanRecords }) ∧
    (isStandby s = false → exec (.flr f) s = .next (resetAsk f.val 3 (mirrorReset f.val u))) ∧
    (pairOn s = false → exec (.flr f) s = .next (resetBegin f.val 3 u)) ∧
    (pairOn s = false → (fnAt s f.val).busy = false →
      (fnAt (resetBegin f.val 3 u) f.val).busMaster = false ∧ (fnAt (resetBegin f.val 3 u) f.val).msixEnable = false ∧ (fnAt (resetBegin f.val 3 u) f.val).msix = [])) ∧
  (∀ (f k : Nat) s, k ≠ 3 → (fnAt s f).busy = true → resetBegin f k s = settleReset s f) ∧
  (∀ (f k : Nat) s, (fnAt s f).busy = false → clockLost s .time = false →
    (∀ e ∈ (resetBegin f k s).decs, e.2.owner.val ≠ f) ∧ (∀ e ∈ (resetBegin f k s).outs, e.2.owner.val = f → e.2.dying = true) ∧
    (∀ e ∈ (resetBegin f k s).time.triggers, e.2.owner.val ≠ f) ∧
    (∀ c x, chanAt s c = some x → x.owner.val ≠ f → s.chans.wf = true → (∀ e ∈ s.fns, e.2.busy = false) → chanAt (resetBegin f k s) c = some x) ∧
    (∀ n w, flowOutAt s n = some w → w.owner.val = f → (true, n) ∈ (resetBegin f k s).net.removals) ∧ (∃ e ∈ (resetBegin f k s).journal.staged, e.cls = 0 ∧ e.function = f ∧ e.detail = k % 2 ^ 48)) ∧
  (∀ s, acting s = true → s.flows.wf = true → (∀ e ∈ s.fns, e.2.busy = false) →
    ∃ t, exec .hostReset s = .next t ∧ t.vfEnable = false ∧ t.arrivals = [] ∧ (∀ e ∈ allCmds t, e.2.ferry.isSome = true ∨ e.2.mirrored = true) ∧
      (∀ f, (fnAt t f).sqs = [] ∧ (fnAt t f).cqs = [] ∧ (fnAt t f).fences = [] ∧ (fnAt t f).subs = [] ∧ (fnAt t f).msix = [] ∧ (fnAt t f).notified = 0 ∧ (fnAt t f).surfDrops = (fnAt s f).surfDrops) ∧
      t.chans = s.chans ∧ t.outs = s.outs ∧ t.surfs = s.surfs ∧ t.decs = s.decs ∧ t.mem = s.mem ∧ t.net = s.net ∧ t.time = s.time ∧ t.audio = s.audio ∧ t.pair = s.pair ∧ t.upd = s.upd ∧ t.power = s.power) ∧
  (∀ s, acting s = true → ∃ t, exec .hostReset s = .next t ∧ t.vfEnable = false ∧ t.outs = s.outs ∧ t.decs = s.decs ∧ t.mem = s.mem ∧ t.net = s.net ∧ t.time = s.time ∧ t.audio = s.audio ∧ t.power = s.power ∧
    (∀ n x, t.irq.srcs.get? n = some x → n < 56 → x.masked = true ∧ x.target = 0))

/-- The device resets and boot (R235, R246, R452, R458, R471 to R476). -/
def Obligations.PowerAndResetsRestartTheDevice : Prop :=
  (∀ s, ∃ t, exec .powerRemoved s = .next t ∧ t.power.on = false ∧ acting t = false ∧ t.upd.slotA = s.upd.slotA ∧ t.upd.slotB = s.upd.slotB ∧ t.upd.boot = s.upd.boot ∧ t.upd.secFused = s.upd.secFused ∧ t.upd.revoked = s.upd.revoked ∧
    t.upd.stored = s.upd.stored ∧ t.upd.params = s.upd.stored ∧ t.upd.txn = none ∧ t.journal.flash = s.journal.flash ∧ t.journal.staged = [] ∧ t.chans = [] ∧ t.outs = [] ∧ t.surfs = [] ∧ t.flows = [] ∧ t.fns = [] ∧ t.now = 0 ∧ t.pending = s.pending) ∧
  (∀ st s, ∃ t, exec (.coldReset st) s = .next t ∧ acting t = true ∧ t.power.ready = true ∧ t.power.step = 0 ∧ t.power.warmCause = 0 ∧ t.power.clocksLost = [] ∧ t.power.bootSrc0 = st.bootSrc0 ∧ t.power.bootSrc1 = st.bootSrc1 ∧
    t.pair = { member := st.pairMember, claimIn := st.claimIn, holdN := st.holdN } ∧ t.chans = [] ∧ t.outs = [] ∧ t.surfs = [] ∧ t.decs = [] ∧ t.flows = [] ∧ t.fns = [] ∧ t.quotas = [] ∧ t.vfEnable = false ∧
    t.net = {} ∧ t.audio = {} ∧ t.time = {} ∧ t.irq = {} ∧ t.harbour = {} ∧ t.fab = {} ∧ t.units = {} ∧ t.crc = [] ∧ t.now = 0 ∧ t.pending = s.pending ∧ t.journal.flash = s.journal.flash ∧
    t.mem.pcOut = ~~~st.pcTrainOk ∧ t.mem.qportIn = BitVec.ofNat 8 (match s.upd.stored.get? keyQdrPorts with | some v => ofLe v | none => 0x1FF) &&& st.qportTrainOk ∧ t.mem.qportLaid = t.mem.qportIn ∧ t.mem.qdrCe = 0 ∧
    t.upd.params = s.upd.stored ∧ t.upd.slotA = s.upd.slotA ∧ t.upd.slotB = s.upd.slotB ∧ t.upd.revoked &&& s.upd.revoked = s.upd.revoked ∧
    ((st.bootSrc0 = true ∧ st.bootSrc1 = false) → t.upd.loader = true ∧ t.upd.session = .idle ∧ t.upd.boot = s.upd.boot) ∧
    ((st.bootSrc0 = false ∨ st.bootSrc1 = true) →
      (s.upd.boot.trial = true → s.upd.boot.attempts = 0 → imageValid s (slotOf s s.upd.boot.trialSlotB) = true → t.upd.loader = false ∧ t.upd.session = .trial ∧
        t.upd.trialEnd = some (ticksMs (1000 * s.upd.boot.trialS)) ∧ t.upd.boot = { s.upd.boot with brSeq := s.upd.boot.brSeq + 1, attempts := 1 }) ∧
      (s.upd.boot.trial = true → s.upd.boot.attempts ≠ 0 → t.upd.boot = { s.upd.boot with brSeq := s.upd.boot.brSeq + 1, trial := false, fallback := true }) ∧
      (s.upd.boot.trial = false → t.upd.boot = s.upd.boot ∧ (imageValid s (slotOf s s.upd.boot.activeB) = true → t.upd.loader = false ∧ t.upd.session = .idle ∧ t.upd.trialEnd = none)) ∧
      (imageValid s s.upd.slotA = false → imageValid s s.upd.slotB = false → t.upd.loader = true ∧ t.upd.session = .idle))) ∧
  (∀ dt q p s c, s.power.warmPending = some c → streamsEnded s = false → exec (.warmReset dt q p) s = .next s) ∧
  (∀ dt q p s c, s.power.warmPending = some c → streamsEnded s = true →
    ∃ t, exec (.warmReset dt q p) s = .next t ∧ t.power.warmPending = none ∧ t.power.warmCause = warmCode c ∧ t.power.warmCount = min (s.power.warmCount + 1) 255 ∧ t.power.ready = true ∧ t.power.step = 0 ∧
      t.chans = [] ∧ t.outs = [] ∧ t.surfs = [] ∧ t.decs = [] ∧ t.flows = [] ∧ t.quotas = [] ∧ t.vfEnable = false ∧ t.fab = {} ∧ t.units = {} ∧ t.crc = [] ∧ t.irq.redirects = s.irq.redirects ∧ t.journal.flash = s.journal.flash ∧
      t.time.tide = s.time.tide ∧ (clockLost t .time = false → t.time.local' = s.time.local' + dt * t.time.addend) ∧ t.time.ptp.steps = s.time.ptp.steps ∧ t.mem.pcOut = ~~~p ∧
      t.mem.qdrCe = s.mem.qdrCe ∧ t.mem.hbmUe = s.mem.hbmUe ∧ t.harbour.dispatches = s.harbour.dispatches ∧ t.pair.takeovers = s.pair.takeovers ∧ t.pair.cfg = none ∧ t.pair.member = s.pair.member ∧
      t.power.stepsTaken = s.power.stepsTaken ∧ t.power.vid = s.power.vid ∧ t.upd.ferryDiscards = s.upd.ferryDiscards ∧ t.upd.clients = [] ∧ t.upd.staging = [] ∧ t.upd.slotA = s.upd.slotA ∧ t.upd.slotB = s.upd.slotB ∧
      (∀ d, clockLost t d = true ↔ clockLost s d = true ∧ d ∉ s.power.clocksBack) ∧
      (¬ (s.power.bootSrc0 = true ∧ s.power.bootSrc1 = false) → s.upd.boot.trial = true → s.upd.boot.attempts = 0 → imageValid s (slotOf s s.upd.boot.trialSlotB) = true → t.upd.session = .trial ∧
        t.upd.trialEnd = some (ticksMs (1000 * s.upd.boot.trialS)) ∧ t.upd.boot = { s.upd.boot with brSeq := s.upd.boot.brSeq + 1, attempts := 1 })) ∧
  (∀ dt q p s, s.power.warmPending = none → exec (.warmReset dt q p) s = .next s)

/-- Reception (R299 to R304, R307, R311, R312, R354). -/
def Obligations.FramesAndLinesAreReceived : Prop :=
  (∀ dt (p : Port) fr s, acting s = true → ((portAt s p.val).cfg.speed = 0 ∨ (portAt s p.val).down = true ∨ flowClocks s = false) → exec (.ethernetFrameRx dt p fr) s = .next (advance dt s)) ∧
  (∀ dt (p : Port) fr s x y, acting s = true → portAt s p.val = x → x.cfg.speed ≠ 0 → x.down = false → flowClocks s = true →
    y = { x with fecCorr := (x.fecCorr + fr.fecCorr) % 2 ^ 32, fecUncorr := (x.fecUncorr + fr.fecUncorr) % 2 ^ 32, rxFrames := if fr.fcsOk then inc32 x.rxFrames else x.rxFrames } →
    ((fr.fcsOk = false ∨ fr.bytes < 64 ∨ x.cfg.maxFrame < fr.bytes) → ∃ t, exec (.ethernetFrameRx dt p fr) s = .next t ∧ portAt t p.val = { y with rxBad := inc32 x.rxBad } ∧
      (∀ j, j ≠ p.val → portAt t j = portAt s j) ∧ t = { advance dt s with net.ports := t.net.ports }) ∧
    (fr.fcsOk = true → 64 ≤ fr.bytes → fr.bytes ≤ x.cfg.maxFrame →
      ((fr.pause = true ∨ fr.fragment = true ∨ fr.ipOptions = true ∨ 1 < fr.vlanTags) → ∃ t, exec (.ethernetFrameRx dt p fr) s = .next t ∧ portAt t p.val = { y with rxDiscard := inc32 x.rxDiscard } ∧
        (∀ j, j ≠ p.val → portAt t j = portAt s j) ∧ t = { advance dt s with net.ports := t.net.ports }) ∧
      (fr.pause = false → fr.fragment = false → fr.ipOptions = false → fr.vlanTags ≤ 1 →
        ((∀ m, fr.payload ≠ .ptp m) → (∀ r, fr.payload ≠ .arp r) → fr.payload ≠ .icmpEcho → fr.payload ≠ .igmp → (fr.ipv4Udp = false ∨ matchFlow s p.val fr = none) →
          ∃ t, exec (.ethernetFrameRx dt p fr) s = .next t ∧ portAt t p.val = { y with rxDiscard := inc32 x.rxDiscard } ∧ (∀ j, j ≠ p.val → portAt t j = portAt s j) ∧ t = { advance dt s with net.ports := t.net.ports }) ∧
        (∀ r, fr.payload = .arp r → fr.dst.toNat = x.cfg.ip → ∃ t, exec (.ethernetFrameRx dt p fr) s = .next t ∧ (p.val * 2 ^ 32 + fr.src.toNat) ∈ t.net.resolved ∧ (∀ a ∈ s.net.resolved, a ∈ t.net.resolved) ∧
          portAt t p.val = (if r then { y with fwQueue := x.fwQueue ++ [{ queue := 2, len := 60 }] } else y) ∧ t = { advance dt s with net.ports := t.net.ports, net.resolved := t.net.resolved }) ∧
        (∀ r, fr.payload = .arp r → fr.dst.toNat ≠ x.cfg.ip → ∃ t, exec (.ethernetFrameRx dt p fr) s = .next t ∧ portAt t p.val = y ∧ t = { advance dt s with net.ports := t.net.ports }) ∧
        (fr.payload = .icmpEcho → ∃ t, exec (.ethernetFrameRx dt p fr) s = .next t ∧ t = { advance dt s with net.ports := t.net.ports } ∧
          portAt t p.val = (if fr.dst.toNat = x.cfg.ip then { y with fwQueue := x.fwQueue ++ [{ queue := 2, len := fr.bytes - 4 }] } else y)) ∧
        (fr.payload = .igmp → ∃ t, exec (.ethernetFrameRx dt p fr) s = .next t ∧ t = { advance dt s with net.ports := t.net.ports } ∧
          portAt t p.val = (if joinedGroups s p.val = [] then y else { y with fwQueue := x.fwQueue ++ [{ queue := 2, len := max 60 (46 + 8 * (joinedGroups s p.val).length) }] })) ∧
        (∀ m, fr.payload = .ptp m → ∃ t, exec (.ethernetFrameRx dt p fr) s = .next t ∧ t = { advance dt s with net.ports := t.net.ports } ∧ portAt t p.val = (if fr.ipv4Udp then y else { y with rxDiscard := inc32 x.rxDiscard }) ∧
          (∀ q, q < 16 → q ≠ p.val → portAt t q = (if fr.ipv4Udp && s.time.ptp.cfg.tcPorts.getLsbD p.val && s.time.ptp.cfg.tcPorts.getLsbD q && m.multicast && m.msgType != 2 && m.msgType != 3 && m.msgType != 10 && (portAt s q).cfg.speed != 0 then
            { portAt s q with fwQueue := (portAt s q).fwQueue ++ [{ queue := 0, len := fr.bytes - 4, ingress := some fr.stamp, ptp := some m }] } else portAt s q))) ∧
        ((∀ m, fr.payload ≠ .ptp m) → (∀ r, fr.payload ≠ .arp r) → fr.payload ≠ .icmpEcho → fr.payload ≠ .igmp → ∀ n b f h, matchFlow s p.val fr = some (n, b) → fr.ipv4Udp = true → flowInAt s n = some f →
          h = (if b then { f with lastB := some fr.stamp } else { f with lastA := some fr.stamp }) →
          ∃ t g, exec (.ethernetFrameRx dt p fr) s = .next t ∧ flowInAt t n = some g ∧ (∀ m, m ≠ n → flowInAt t m = flowInAt s m) ∧ portAt t p.val = y ∧ (∀ j, j ≠ p.val → portAt t j = portAt s j) ∧ t.time = (advance dt s).time ∧
            (kindFits f.cfg.kind fr.payload = false → g = (if f.cfg.kind = 0 then { h with formatErrors := inc32 f.formatErrors, formatRun := f.formatRun + 1, formatMismatch := f.formatMismatch || decide (64 ≤ f.formatRun + 1) } else h)) ∧
            (kindFits f.cfg.kind fr.payload = true → seqOf fr.payload = none → g.pkts = inc32 f.pkts ∧ g.lastA = h.lastA ∧ g.lastB = h.lastB) ∧
            (∀ q short k, kindFits f.cfg.kind fr.payload = true → seqOf fr.payload = some (q, short) → k = (mergePacket b q short fr.stamp h).2 →
              g.seen = k.seen ∧ g.newest = k.newest ∧ g.pkts = k.pkts ∧ g.latePkts = k.latePkts ∧ g.lostA = k.lostA ∧ g.lostB = k.lostB ∧ g.skewNs = k.skewNs ∧ g.lastA = h.lastA ∧ g.lastB = h.lastB))))) ∧
  (∀ (b : Bool) q (short : Bool) (t : Instant) f e, e = extendSeq (settleSeq t f).newest q short →
    ((∀ x ∈ (settleSeq t f).seen, x.seq ≠ e) → (∀ m, (settleSeq t f).settled = some m → m ≤ e) → (mergePacket b q short t f).1 = true ∧ (mergePacket b q short t f).2.pkts = inc32 f.pkts ∧
      (mergePacket b q short t f).2.newest = some (max (f.newest.getD 0) e) ∧ ∃ x ∈ (mergePacket b q short t f).2.seen, x.seq = e ∧ x.stamp = t ∧ x.pathB = b) ∧
    ((∃ x ∈ (settleSeq t f).seen, x.seq = e) → (mergePacket b q short t f).1 = false ∧ (mergePacket b q short t f).2.pkts = f.pkts ∧ (mergePacket b q short t f).2.latePkts = f.latePkts ∧
      (mergePacket b q short t f).2.seen.map (fun x => x.seq) = (settleSeq t f).seen.map (fun x => x.seq) ∧ (∀ x ∈ (mergePacket b q short t f).2.seen, x.seq = e → x.pathB ≠ b → x.both = true)) ∧
    ((∀ x ∈ (settleSeq t f).seen, x.seq ≠ e) → (∃ m, (settleSeq t f).settled = some m ∧ e < m) → (mergePacket b q short t f).1 = false ∧ (mergePacket b q short t f).2.latePkts = inc32 f.latePkts ∧
      (mergePacket b q short t f).2.pkts = f.pkts)) ∧
  (∀ dt (l : Lane) x s, acting s = true → ((laneAt s l.val).cfg.mode ≠ 2 ∨ (laneAt s l.val).fault = true ∨ flowClocks s = false) → exec (.sdiLineRx dt l x) s = .next (advance dt s)) ∧
  (∀ dt (l : Lane) x s, acting s = true → (laneAt s l.val).cfg.mode = 2 → (laneAt s l.val).fault = false → flowClocks s = true →
    ∃ t p r, exec (.sdiLineRx dt l x) s = .next t ∧ (laneAt t l.val).pics = p :: r ∧ (laneAt t l.val).detRate = x.rate ∧ (laneAt t l.val).family1001 = x.family1001 ∧ (laneAt t l.val).cfg = (laneAt s l.val).cfg ∧
      (∃ g ∈ p.segs, g.row = x.line ∧ g.offset = 0 ∧ g.y = x.seg.y ∧ g.cb = x.seg.cb ∧ g.cr = x.seg.cr) ∧ ((x.crcOk = false ∨ 2000 < x.skewNs) → x.line ∈ p.bad) ∧ (x.payloadIdOk = false → p.formatError = true) ∧
      (x.line = 0 → p.number = (laneAt s l.val).nextPic ∧ p.tref = x.stamp ∧ p.trefSet = true ∧ (laneAt t l.val).nextPic = (laneAt s l.val).nextPic + 1) ∧
      (∀ p0 r0, (laneAt s l.val).pics = p0 :: r0 → x.line ≠ 0 → (∀ e, p0.done.getLast? = some e → e.1 < x.line) → p.number = p0.number ∧ p.tref = p0.tref ∧ r = r0 ∧ (laneAt t l.val).nextPic = (laneAt s l.val).nextPic) ∧
      (∀ p0 r0 e, (laneAt s l.val).pics = p0 :: r0 → p0.done.getLast? = some e → x.line ≤ e.1 → p.number = (laneAt s l.val).nextPic ∧ (laneAt t l.val).nextPic = (laneAt s l.val).nextPic + 1) ∧
      (x.line = 0 → s.chans.wf = true → (isStandby s && inLockstep s) = false → ∀ c ch g, chanAt s c = some ch → ch.cfg = some g → ch.st ≠ .idle → g.srcKind = 1 → g.srcIndex = l.val → ch.input.status = 0 →
        ∃ y, chanAt t c = some y ∧ y.st = ch.st ∧ y.input.pending = ch.input.pending ++ [(chanTref g p, some p.number)]) ∧
      (∀ m, m ≠ l.val → laneAt t m = laneAt s m) ∧ t.net.flowsIn = s.net.flowsIn ∧ t.outs = s.outs ∧ t.time = (advance dt s).time)

/-- Line verdicts and repair requests (R104 to R106, R248, R391, R398). -/
def Obligations.LinesAreJudgedAndRepaired : Prop :=
  (∀ dt (c : Fin 64) poisoned s, acting s = true → (∀ x g geo k t0 l r, chanAt s c.val = some x → x.cfg = some g → chanGeom s x = some geo → x.input.judging = some (k, t0, l, r) →
      x.st = .idle ∨ g.srcKind = 2 ∨ ((advance dt s).time.local' : Rat) < (t0 : Rat) + nsQ (((l + 4 : Nat) : Rat) * geo.tLine)) → exec (.lineDeadline dt c poisoned) s = .next (advance dt s)) ∧
  (∀ dt (c : Fin 64) poisoned s x g geo k t0 l whole lost, acting s = true → (isStandby s && inLockstep s) = false → chanAt s c.val = some x → x.cfg = some g → g.srcKind ≠ 2 → x.st ≠ .idle → chanGeom s x = some geo →
    x.input.judging = some (k, t0, l, true) → (t0 : Rat) + nsQ (((l + 4 : Nat) : Rat) * geo.tLine) ≤ ((advance dt s).time.local' : Rat) →
    whole = (judgedPic s g k).elim false (fun p => lineWhole p l ((t0 : Rat) + nsQ (((l + 4 : Nat) : Rat) * geo.tLine))) → lost = (poisoned || !whole) →
    ∃ t y, exec (.lineDeadline dt c poisoned) s = .next t ∧ chanAt t c.val = some y ∧ y.st = x.st ∧ y.cfg = x.cfg ∧ (∀ d, d ≠ c.val → chanAt t d = chanAt s d) ∧
      t.outs = s.outs ∧ t.net.flowsIn = s.net.flowsIn ∧ t.time = (advance dt s).time ∧ (poisoned = false → t.mem = s.mem ∧ t.journal = s.journal) ∧
      (poisoned = true → t.mem.poisonReads = inc32 s.mem.poisonReads ∧ t.mem.ueSrc = true ∧ ∃ e ∈ t.journal.staged, e.cls = 4 ∧ e.object = c.val ∧ e.detail = l % 2 ^ 48) ∧
      (l + 1 < g.height → y.input.judging = some (k, t0, l + 1, true) ∧ y.input.broken = (x.input.broken || lost) ∧ y.input.lostRun = (if lost then x.input.lostRun + 1 else 0) ∧
        (lost = false → y.input.status = x.input.status) ∧ (lost = true → x.input.lostRun ≠ 2 → y.input.status = x.input.status) ∧
        (lost = true → x.input.lostRun = 2 → y.input.status = 1 ∧ (x.input.status ≠ 1 → y.input.lossSince = picOfTref x t0))) ∧
      (g.height ≤ l + 1 →
        (y.input.judging = match judgedPic s g (k + 1) with
          | some p => if p.trefSet then some (k + 1, chanTref g p, 0, true) else some (k + 1, t0 + (Rat.floor (nsQ geo.period)).toNat, 0, false)
          | none => some (k + 1, t0 + (Rat.floor (nsQ geo.period)).toNat, 0, false)) ∧ y.input.broken = false ∧
        ((x.input.broken || lost) = true → (x.input.status ≠ 0 ∨ (lost = true ∧ x.input.lostRun = 2)) → y.input.status = 1) ∧
        ((x.input.broken || lost) = false → x.input.status ≠ 0 → y.input.status = (if 1 ≤ x.input.whole then 0 else 2)) ∧
        (x.input.status = 0 → (lost = false ∨ x.input.lostRun ≠ 2) → y.input.status = 0)) ∧
      (lost = true → x.input.lostRun ≤ 1 → x.input.status = 0 → y.counters.missingLines = inc32 x.counters.missingLines ∧ l ∈ y.input.replaced.getD k []) ∧
      ((lost = false ∨ 2 ≤ x.input.lostRun ∨ x.input.status ≠ 0) → y.counters.missingLines = x.counters.missingLines)) ∧
  (∀ dt (c : Fin 64) s x g geo k t0 l, acting s = true → isStandby s = true → inLockstep s = true → chanAt s c.val = some x → x.cfg = some g → g.srcKind ≠ 2 → x.st ≠ .idle → chanGeom s x = some geo →
    x.input.judging = some (k, t0, l, true) → (t0 : Rat) + nsQ (((l + 4 : Nat) : Rat) * geo.tLine) ≤ ((advance dt s).time.local' : Rat) →
    (sentVerdict s c.val l = none → exec (.lineDeadline dt c false) s = .next (advance dt s)) ∧
    (∀ v, sentVerdict s c.val l = some v → l + 1 < g.height → ∃ t y, exec (.lineDeadline dt c false) s = .next t ∧ chanAt t c.val = some y ∧ y.input.judging = some (k, t0, l + 1, true) ∧
      y.input.lostRun = (if v = 0 then 0 else x.input.lostRun + 1) ∧ y.input.broken = (x.input.broken || v != 0) ∧ (∀ d, d ≠ c.val → chanAt t d = chanAt s d))) ∧
  (∀ dt (c : Fin 64) l s x g geo k t0 n p, acting s = true → chanAt s c.val = some x → x.cfg = some g → chanGeom s x = some geo → x.input.judging = some (k, t0, n, true) → judgedPic s g k = some p →
    (pairOn s = true → g.srcKind ≠ 2 → l < g.height → lineWhole p l ((t0 : Rat) + nsQ (((l + 2 : Nat) : Rat) * geo.tLine)) = false →
      (t0 : Rat) + nsQ (((l + 2 : Nat) : Rat) * geo.tLine) ≤ ((advance dt s).time.local' : Rat) → (repairLineOf g p l) ∉ s.pair.repairs →
      ∃ t, exec (.repairDeadline dt c l) s = .next t ∧ t.pair.repairs = s.pair.repairs ++ [repairLineOf g p l] ∧ t.chans = s.chans ∧ t.net.flowsIn = s.net.flowsIn ∧ t.net.ports = s.net.ports ∧
        (cwLive s = true → ∃ f ∈ t.net.cw.unacked, f.type = 7 ∧ f.seq = s.net.cw.txSeq)) ∧
    ((pairOn s = false ∨ g.srcKind = 2 ∨ g.height ≤ l ∨ lineWhole p l ((t0 : Rat) + nsQ (((l + 2 : Nat) : Rat) * geo.tLine)) = true ∨
      ((advance dt s).time.local' : Rat) < (t0 : Rat) + nsQ (((l + 2 : Nat) : Rat) * geo.tLine) ∨ (repairLineOf g p l) ∈ s.pair.repairs) → exec (.repairDeadline dt c l) s = .next (advance dt s)))

/-- Pictures, rows and CTUs (R19, R20, R84, R85, R90, R109, R117, R124, R126, R127, R155, R158). -/
def Obligations.PicturesRowsAndVariants : Prop :=
  (∀ dt (c : Fin 64) i s, acting s = true → mayEncode s = false → exec (.pictureStart dt c i) s = .next (advance dt s)) ∧
  (∀ dt (c : Fin 64) i s u x, acting s = true → mayEncode s = true → u = settleSlices c.val (modChan (fillLost c.val (advance dt s)) c.val dropEarly) → chanAt u c.val = some x →
    ((x.st = .idle ∨ x.run.aborting = true ∨ nextTref u x = none ∨ (∃ d, x.run.drainAfter = some d ∧ d < x.run.nextPic) ∨ (x.run.nextPic = 0 ∧ ∀ t m, nextTref u x = some (t, m) → startsAt x t = false) ∨
        mirrorAwaited u 0 c.val x.run.nextPic = true) → exec (.pictureStart dt c i) s = .next u) ∧
    (∀ k t0 m, x.st ≠ .idle → x.run.aborting = false → ctlOf u x = some k → nextTref u x = some (t0, m) → (∀ d, x.run.drainAfter = some d → x.run.nextPic ≤ d) → (x.run.nextPic = 0 → startsAt x t0 = true) →
      mirrorAwaited u 0 c.val x.run.nextPic = false → exec (.pictureStart dt c i) s = .next (if pictureReady k = (true, true) then startPicture c.val x t0 m i u else if (pictureReady k).1 then noteStall c.val x u else u))) ∧
  (∀ (c : Nat) x t0 m i u z key rate l kz rc n, u.units.isleOut = 0 → n = x.run.nextPic → applyChanges u c n x = (z, key, rate, l) → ctlOf u z = some kz → z.coding.rc = some rc →
    ∃ y q, chanAt (startPicture c x t0 m i u) c = some y ∧ y.run.nextPic = n + 1 ∧ y.run.lastTref = t0 ∧ y.coding = z.coding ∧ y.delayReq = z.delayReq ∧ y.cfg = x.cfg ∧ y.profile = x.profile ∧ y.input.pending = x.input.pending.drop 1 ∧
      y.st = (if x.st = .armed then .running else x.st) ∧ y.counters.picture = n ∧ y.run.pics.get? n = some q ∧ q.number = n ∧ q.tref = t0 ∧ q.coding = z.coding ∧ q.rows = [] ∧ q.slices = 0 ∧
      (n = 0 → q.key = some .idr ∨ q.key = some .cra) ∧ (x.run.forceIdr = true → q.key = some .idr) ∧ y.run.forceIdr = false ∧ (key = some .idr → q.key = some .idr) ∧ (periodicKey c z.coding.gop n = some .idr → q.key = some .idr) ∧
      q.intra = (q.key == some .idr || q.key == some .cra) ∧ (q.intra = true → y.run.lastIrap = n ∧ q.refs = ([], [])) ∧
      y.run.delayTgt = nsQ (delayOf kz.g z.delayReq) ∧ q.delay = y.run.delayCur + nsQ (((z.coding.gop.lookahead : Nat) : Rat) * kz.g.period) ∧
      ((n = 0 ∨ x.run.delayCur = 0) → y.run.delayCur = y.run.delayTgt) ∧
      (n ≠ 0 → x.run.delayCur ≠ 0 → y.run.delayCur = (if x.run.delayCur < y.run.delayTgt then min y.run.delayTgt (x.run.delayCur + nsQ 16000) else max y.run.delayTgt (x.run.delayCur - nsQ 16000))) ∧
      (z.coding.gop.structure' ≠ 2 → x.input.pending.head? = some (t0, m) → q.source = m ∧ q.display = n) ∧ (∀ j, j ≠ n → y.run.pics.get? j = x.run.pics.get? j) ∧
      (∀ d, d ≠ c → chanAt (startPicture c x t0 m i u) d = chanAt u d) ∧ (startPicture c x t0 m i u).outs = u.outs ∧ (startPicture c x t0 m i u).surfs = u.surfs) ∧
  (∀ (c : Nat) x s, chanAt s c = some x →
    (x.run.stalled = true → noteStall c x s = s) ∧
    (x.run.stalled = false → ∃ y, chanAt (noteStall c x s) c = some y ∧ y.run.stalled = true ∧ y.counters.rcStalls = inc32 x.counters.rcStalls ∧ y.run.nextPic = x.run.nextPic ∧ y.st = x.st ∧ ∀ d, d ≠ c → chanAt (noteStall c x s) d = chanAt s d)) ∧
  (∀ dt (c : Fin 64) i s, acting s = true → (mayEncode s = true → ∀ x, chanAt (noteSearch c.val i (advance dt s)) c.val = some x → coding x = false ∨ x.run.aborting = true ∨ x.run.curRow ≠ none) →
    exec (.rowStart dt ⟨c, i⟩) s = .next (if mayEncode s then noteSearch c.val i (advance dt s) else advance dt s)) ∧
  (∀ dt (c : Fin 64) i s w x k q rc r, acting s = true → mayEncode s = true → w = noteSearch c.val i (advance dt s) → chanAt w c.val = some x → coding x = true → x.run.aborting = false → x.run.curRow = none → ctlOf w x = some k →
    rowPicture k = some q → q.coding.rc = some rc → r = q.rows.length →
    (rowArrived w x k q r = false → exec (.rowStart dt ⟨c, i⟩) s = .next w) ∧
    (rowArrived w x k q r = true → countsReady k q.number r = false → exec (.rowStart dt ⟨c, i⟩) s = .next (noteStall c.val x w)) ∧
    (rowArrived w x k q r = true → countsReady k q.number r = true →
      (searchReady k q r = false → ∃ t y, exec (.rowStart dt ⟨c, i⟩) s = .next t ∧ chanAt t c.val = some y ∧ y.run.curRow = none ∧ (q.ahead = true → x.run.aheadWait = false → y.run.aheadWait = true ∧ y.counters.runaheadWaits = inc32 x.counters.runaheadWaits) ∧
        ((q.ahead = false ∨ x.run.aheadWait = true) → y.counters.runaheadWaits = x.counters.runaheadWaits) ∧ ∀ d, d ≠ c.val → chanAt t d = chanAt w d) ∧
      (searchReady k q r = true → x.run.lagoonSlots ≤ x.run.rowsBegun - x.run.rowsFreed → ∃ t y, exec (.rowStart dt ⟨c, i⟩) s = .next t ∧ chanAt t c.val = some y ∧ y.run.curRow = none ∧ y.run.slotWait = true ∧
        y.counters.lagoonStalls = (if x.run.slotWait then x.counters.lagoonStalls else inc32 x.counters.lagoonStalls) ∧ ∀ d, d ≠ c.val → chanAt t d = chanAt w d) ∧
      (searchReady k q r = true → x.run.rowsBegun - x.run.rowsFreed < x.run.lagoonSlots → exec (.rowStart dt ⟨c, i⟩) s = .next (planRow c.val k rc q r (ringRow c.val k q r i.poisoned w))))) ∧
  (∀ (c : Nat) i s x, chanAt s c = some x → ∃ y, chanAt (noteSearch c i s) c = some y ∧ y = { x with run.search := y.run.search } ∧ (∀ d, d ≠ c → chanAt (noteSearch c i s) d = chanAt s d) ∧ (noteSearch c i s).outs = s.outs) ∧
  (∀ (c : Nat) k q r l s, k.cfg.srcKind ≠ 2 → ringRow c k q r l s = s) ∧
  (∀ (c : Nat) k rc q r s x, chanAt s c = some x → ∃ y, chanAt (planRow c k rc q r s) c = some y ∧ y.run.curRow = some (q.number, r) ∧ y.run.rowsBegun = x.run.rowsBegun + 1 ∧ y.run.rowsFreed = x.run.rowsFreed ∧ y.run.stalled = false ∧
    y.run.pics.get? q.number = (x.run.pics.get? q.number).map (fun p => { p with rows := p.rows.set r (rowPlan k rc q r) }) ∧ (∀ n, n ≠ q.number → y.run.pics.get? n = x.run.pics.get? n) ∧ y.st = x.st ∧ y.coding = x.coding ∧
    y.counters.floorRows = (if (rowPlan k rc q r).mode = .floor then inc32 x.counters.floorRows else x.counters.floorRows) ∧
    y.counters.copyRows = (if (rowPlan k rc q r).mode = .copy then inc32 x.counters.copyRows else x.counters.copyRows) ∧ (∀ d, d ≠ c → chanAt (planRow c k rc q r s) d = chanAt s d) ∧ (planRow c k rc q r s).outs = s.outs) ∧
  (∀ (c : Fin 64) e s x k n r q row rc, acting s = true → chanAt s c.val = some x → x.run.curRow = some (n, r) → ctlOf s x = some k → x.run.pics.get? n = some q → q.rows.get? r = some row → q.coding.rc = some rc →
    ((mayEncode s = false ∨ x.run.aborting = true ∨ neighboursReady q r row.next = false ∨ modeOk k q (stepOn s c.val 3 n) r row.next e.cus = false) → exec (.variantChoice c e) s = .next s) ∧
    (∀ f v, mayEncode s = true → x.run.aborting = false → neighboursReady q r row.next = true → modeOk k q (stepOn s c.val 3 n) r row.next e.cus = true →
      f = (if (spendCheckInjection c.val s).2 then { e with damage := e.damage ^^^ 1 } else e) → v = (if f.poisoned then poisonRead 8 x.owner.val 1 c.val n (spendCheckInjection c.val s).1 else (spendCheckInjection c.val s).1) →
      exec (.variantChoice c e) s = .next (settleRows c.val n (chooseVariant c.val k rc q r row f v)))) ∧
  (∀ (c : Fin 64) e s, acting s = true → (∀ x, chanAt s c.val = some x → x.run.curRow = none) → exec (.variantChoice c e) s = .next s) ∧
  (∀ (c : Nat) k rc q r row e s x z, chanAt s c = some x → z = codeCtu c k rc q r row e (sourceCtu s x k q r row.next) →
    ∃ y p, chanAt (chooseVariant c k rc q r row e s) c = some y ∧ y.run.pics.get? q.number = some p ∧ (∀ d, d ≠ c → chanAt (chooseVariant c k rc q r row e s) d = chanAt s d) ∧ (chooseVariant c k rc q r row e s).outs = s.outs ∧
      p.rows.get? r = some (if unitFailed k q r row.next then { z.1 with records := z.1.records.dropLast } else z.1) ∧ (∀ i, i ≠ r → p.rows.get? i = q.rows.get? i) ∧ (p.recon.get? (r * 65536 + row.next)).map (fun b => b.samples) = some z.2.2.2 ∧
      y.run.curRow = (if k.g.cRow ≤ row.next + 1 then none else x.run.curRow) ∧ (∀ m, m ≠ q.number → y.run.pics.get? m = x.run.pics.get? m) ∧ y.st = x.st ∧ y.coding = x.coding ∧
      y.counters.specDualCtus = (if z.2.1 then inc32 x.counters.specDualCtus else x.counters.specDualCtus) ∧ y.counters.specHighChosen = (if z.2.2.1 then inc32 x.counters.specHighChosen else x.counters.specHighChosen)) ∧
  (∀ (c n : Nat) s x k q, chanAt s c = some x → ctlOf s x = some k → x.run.pics.get? n = some q → ∃ y p, chanAt (settleRows c n s) c = some y ∧ y.run.pics.get? n = some p ∧ y.st = x.st ∧ y.run.curRow = x.run.curRow ∧ x.run.rowsFreed ≤ y.run.rowsFreed ∧
    (∀ i w, q.rows.get? i = some w → p.rows.get? i = some (if k.g.cRow ≤ w.next ∧ w.records = [] ∧ w.actual = none then { w with actual := some w.count } else w)) ∧ (∀ d, d ≠ c → chanAt (settleRows c n s) d = chanAt s d)) ∧
  (∀ (c : Nat) k rc q r row e src z, z = codeCtu c k rc q r row e src → z.1.next = row.next + 1 ∧ z.1.a = row.a ∧ z.1.llEst = row.llEst ∧ z.1.mode = row.mode ∧
    (∃ d, z.1.records = row.records ++ [d] ∧ d.ctuX = row.next ∧ d.ctuY = r ∧ d.channel = c ∧ d.lossless = isLossless k.g.ctu q.lossless r row.next) ∧ (isLossless k.g.ctu q.lossless r row.next = true → z.2.2.2 = src) ∧
    (z.2.1 = true → q.dual = true ∧ row.mode = .normal) ∧ (z.2.2.1 = true → z.2.1 = true) ∧
    (∀ m, m = k.g.cRow - losslessCount k.g q.lossless r → row.k < m →
      ((row.e + (m - row.k) * (copyCost k.prof.codec q.intra).1 : Nat) : Int) ≤ min row.a ((rc.rowCap : Int) - (row.llEst : Int)) →
      ((z.1.e + (m - z.1.k) * (copyCost k.prof.codec q.intra).1 : Nat) : Int) ≤ min row.a ((rc.rowCap : Int) - (row.llEst : Int))))

/-- Entropy coding and slices (R133 to R141, R151, R152, R160). -/
def Obligations.UnitsAndSlicesInOrder : Prop :=
  (∀ dt (e : Fin 12) o s l, acting s = true → l = ((advance dt s).chans.filter (fun x => coding x.2 && !x.2.run.aborting)).flatMap (fun x => readyUnits (advance dt s) x.1 x.2) →
    ((mayEncode s = false ∨ entropyIn s e.val = false ∨ l = []) → exec (.entropyUnitStart dt e o) s = .next (advance dt s)) ∧
    (∀ u, mayEncode s = true → entropyIn s e.val = true → bestUnit l = some u → exec (.entropyUnitStart dt e o) s = .next (codeUnit e.val u o (advance dt s)) ∧ u ∈ l ∧ (∀ v ∈ l, u.due ≤ v.due) ∧ (∀ v ∈ l, v.due = u.due → u.chan ≤ v.chan) ∧
      (∀ v ∈ l, v.due = u.due → v.chan = u.chan → u.idx ≤ v.idx))) ∧
  (∀ (e : Nat) u o s x q read bad old, chanAt s u.chan = some x → x.run.pics.get? u.pic = some q → old = q.units.getD (unitKey u) {} →
    read = (q.rows.filter (fun w => decide (u.rowA ≤ w.1) && decide (w.1 < u.rowB))).flatMap (fun w => w.2.records.filter (fun r => decide (u.colA ≤ r.ctuX) && decide (r.ctuX < u.colB))) → bad = read.any (fun r => !(recordOk r)) →
    ∃ y p unit, chanAt (codeUnit e u o s) u.chan = some y ∧ y.run.pics.get? u.pic = some p ∧ y.st = x.st ∧ y.run.queue = x.run.queue ∧
      p.units.get? (unitKey u) = some unit ∧ unit.bytes = old.bytes ++ o.bytes ∧ unit.failed = (old.failed || bad) ∧
      (∀ i w, q.rows.get? i = some w → ∃ v, p.rows.get? i = some v ∧ v.next = w.next ∧ v.mode = w.mode ∧
        v.records = (if u.rowA ≤ i ∧ i < u.rowB then w.records.filter (fun r => !(decide (u.colA ≤ r.ctuX) && decide (r.ctuX < u.colB))) else w.records)) ∧
      (bad = true ∨ unitWritten q u = true → p.unitsDone.getD u.slice [] = q.unitsDone.getD u.slice [] ++ [u.idx]) ∧ (bad = false → unitWritten q u = false → p.unitsDone = q.unitsDone) ∧
      x.run.rowsFreed ≤ y.run.rowsFreed ∧ (∀ d, d ≠ u.chan → chanAt (codeUnit e u o s) d = chanAt s d)) ∧
  (∀ dt (c : Fin 64) i s, acting s = true → (mayEncode s = false ∨ ∀ x, chanAt s c.val = some x → coding x = false ∨ x.run.aborting = true ∨ x.run.pics.get? x.run.nextSlice.1 = none) → exec (.sliceAssembly dt c i) s = .next (advance dt s)) ∧
  (∀ dt (c : Fin 64) i s x k q sl rc n j slices len nal built ok size last f, acting s = true → mayEncode s = true → chanAt s c.val = some x → coding x = true → x.run.aborting = false → ctlOf s x = some k → x.run.nextSlice = (n, j) →
    x.run.pics.get? n = some q → slices = slicesOf k.prof k.g q.lossless → slices[j]? = some sl → q.coding.rc = some rc → len = (unitsOf k.prof k.g q.lossless sl).length → built = sliceNalBytes k.prof.codec q (codedUnits q j len) i →
    nal = i.readBack.getD built → ok = (!((List.range len).any (fun a => (q.units.getD (j * 256 + a) {}).failed || (q.units.getD (j * 256 + a) {}).poisoned)) && nal.length == built.length && noEmulation (nal.drop 2) && !i.poisoned) →
    size = (if ok then nal.length else i.substBytes) → last = decide (slices.length ≤ j + 1) →
    ((∃ a, a < len ∧ a ∉ q.unitsDone.getD j []) → exec (.sliceAssembly dt c i) s = .next (advance dt s)) ∧
    ((∀ a, a < len → a ∈ q.unitsDone.getD j []) → queueFull (advance dt s) c.val x size = true → ∃ t y, exec (.sliceAssembly dt c i) s = .next t ∧ chanAt t c.val = some y ∧ y.run.queue = x.run.queue ∧ y.run.nextSlice = x.run.nextSlice ∧
      y.counters.lateSlices = (if x.run.queueWait then x.counters.lateSlices else inc32 x.counters.lateSlices) ∧ ∀ d, d ≠ c.val → chanAt t d = chanAt s d) ∧
    ((∀ a, a < len → a ∈ q.unitsDone.getD j []) → queueFull (advance dt s) c.val x size = false →
      ∃ w y p e nals, exec (.sliceAssembly dt c i) s = .next (settleSlices c.val w) ∧ chanAt w c.val = some y ∧ y.st = x.st ∧ y.run.nextSlice = (if last then (n + 1, 0) else (n, j + 1)) ∧ y.run.pics.get? n = some p ∧ p.slices = j + 1 ∧
        y.run.queue = x.run.queue ++ [e] ∧ e.picture = n ∧ e.slice = j ∧ e.due = emission k.g q sl ∧ e.substitute = !ok ∧ e.check = (if ok then sliceCheckValue c.val n j nal else 0) ∧ e.nals = nals.map (fun a => a.size) ∧ e.eob = (last && x.run.drainAfter == some n) ∧
        Out.nals c.val n nals ∈ w.outbox ∧ (f = (if last then (pictureFiller k.cfg rc n x.run.v p.bits).1 else 0) → p.bits = q.bits + 8 * (sumBy (fun (a : Nal) => a.size) nals - (if f = 0 then 0 else (fillerNal k.prof.codec f).size)) ∧
          (ok = true → nals = (if j = 0 then prefixNals c.val k rc q x.run.v x.run.lastBp x.run.lastAps i.sizes else []) ++ [sliceNal k.prof.codec q j size (entryPoints i.header (codedUnits q j len)) .coded] ++
            (if f = 0 then [] else [fillerNal k.prof.codec f]) ++ (if last then suffixNals (advance dt s) k q else []) ++ (if e.eob then [eobNal k.prof.codec] else []))) ∧
        (ok = false → ∃ a ∈ nals, a.kind = .slice ∧ a.size = i.substBytes) ∧
        (last = true → p.filler = some (pictureFiller k.cfg rc n x.run.v p.bits).1 ∧ y.run.vPic = n + 1 ∧ (y.run.v, y.run.u) = bucketAfter k.cfg rc n x.run.v x.run.u p.bits (pictureFiller k.cfg rc n x.run.v p.bits).1) ∧
        (last = false → y.run.v = x.run.v ∧ y.run.u = x.run.u ∧ y.run.vPic = x.run.vPic) ∧
        (ok = true → y.counters.checks.getLast? = some (n, j, sliceCheckValue c.val n j nal) ∧ y.counters.substSlices = x.counters.substSlices ∧ y.run.forceIdr = x.run.forceIdr) ∧
        (ok = false → y.counters.substSlices = inc32 x.counters.substSlices ∧ y.run.forceIdr = true ∧ y.sliceFault = true ∧ y.counters.checks = x.counters.checks) ∧ y.counters.checks.length ≤ max 64 x.counters.checks.length ∧
        (∀ d, d ≠ c.val → chanAt w d = chanAt s d) ∧ w.outs = s.outs)) ∧
  (∀ (c : Nat) s x, chanAt s c = some x →
    ((∀ e, x.run.queue.head? = some e → sliceEnded s e = false) → settleSlices c s = s) ∧
    ((∀ e ∈ x.run.queue, e.eob = false) → ∃ y, chanAt (settleSlices c s) c = some y ∧ y.run.queue = x.run.queue.dropWhile (sliceEnded s) ∧ y.run.emitted = x.run.emitted + ((x.run.queue.takeWhile (sliceEnded s)).filter (fun e => !e.marker)).length ∧
      y.st = x.st ∧ y.run.pics = x.run.pics ∧ (∀ d, d ≠ c → chanAt (settleSlices c s) d = chanAt s d) ∧ (settleSlices c s).outs = s.outs))

/-- Egress (R309, R322 to R326, R332, R335 to R339, R354). -/
def Obligations.GroupsAreReleasedAndFramesStart : Prop :=
  (∀ dt (w : Fin 2048) b n s, egressing s = true → (∀ x, flowOutAt s w.val = some x → x.cfg.kind = 6 ∨ (b = true ∧ x.cfg.dual = false) ∨ flowClocks s = false ∨ (copyAt x b).groups.find? (fun g => !g.released) = none ∨
      ∃ g, (copyAt x b).groups.find? (fun g => !g.released) = some g ∧ localQ (advance dt s) < g.release) → exec (.egressRelease dt w b n) s = .next (advance dt s)) ∧
  (∀ dt (w : Fin 2048) b s x g, egressing s = true → flowClocks s = true → flowOutAt s w.val = some x → x.cfg.kind ≠ 6 → (b = true → x.cfg.dual = true) →
    (copyAt x b).groups.find? (fun g => !g.released) = some g → (∀ h ∈ (copyAt x b).groups, h.serial = g.serial → h = g) → g.release ≤ localQ (advance dt s) →
    ∃ v y, exec (.egressRelease dt w b none) s = .next (settleAllSlices (reapFlows v)) ∧ flowOutAt v w.val = some y ∧ y.cfg = x.cfg ∧ copyAt y (!b) = copyAt x (!b) ∧ (∀ u, u ≠ w.val → flowOutAt v u = flowOutAt s u) ∧ v.chans = s.chans ∧ v.outs = s.outs ∧
      (x.cfg.kind ≠ 1 → (copyAt y b).nextSeq = ((copyAt x b).nextSeq + g.frames.length) % 65536) ∧
      ((portAt s (copyPort x.cfg b)).cfg.speed ≠ 0 → (portAt s (copyPort x.cfg b)).down = false → resolved s x.cfg b = true → (pairOn s = false ∨ holdsClaim s = true) →
        v.net.ports = s.net.ports ∧ y.disableDrops = x.disableDrops ∧ y.downDrops = x.downDrops ∧ (copyAt y b).groups.length = (copyAt x b).groups.length ∧
        ∃ h ∈ (copyAt y b).groups, h.serial = g.serial ∧ h.released = true ∧ h.frames = g.frames ∧ h.seq = (copyAt x b).nextSeq) ∧
      ((portAt s (copyPort x.cfg b)).cfg.speed ≠ 0 → (portAt s (copyPort x.cfg b)).down = false → resolved s x.cfg b = true → pairOn s = true → holdsClaim s = false →
        v.net.ports = s.net.ports ∧ (∀ k ∈ (copyAt y b).groups, k.serial ≠ g.serial) ∧ ∃ h, h.serial = g.serial ∧ h.released = true ∧ h.frames = g.frames ∧
          ((copyAt x b).held.length ≤ 1 → (copyAt y b).held = (copyAt x b).held ++ [h] ∧ y.claimHeld = x.claimHeld) ∧ (2 ≤ (copyAt x b).held.length → (copyAt y b).held = ((copyAt x b).held ++ [h]).drop 1 ∧ y.claimHeld = inc32 x.claimHeld)) ∧
      ((portAt s (copyPort x.cfg b)).cfg.speed = 0 → y.disableDrops = (x.disableDrops + g.frames.length) % 2 ^ 32 ∧ (∀ k ∈ (copyAt y b).groups, k.serial ≠ g.serial)) ∧
      ((portAt s (copyPort x.cfg b)).cfg.speed ≠ 0 → (portAt s (copyPort x.cfg b)).down = true → y.downDrops = (x.downDrops + g.frames.length) % 2 ^ 32 ∧ (∀ k ∈ (copyAt y b).groups, k.serial ≠ g.serial)) ∧
      ((portAt s (copyPort x.cfg b)).cfg.speed ≠ 0 → (portAt s (copyPort x.cfg b)).down = false → resolved s x.cfg b = false → (∀ k ∈ (copyAt y b).groups, k.serial ≠ g.serial) ∧
        (portAt v (copyPort x.cfg b)).arpDrops = ((portAt s (copyPort x.cfg b)).arpDrops + g.frames.length) % 2 ^ 32 ∧ ∃ f ∈ (portAt v (copyPort x.cfg b)).fwQueue, f.queue = 2 ∧ f.len = 60)) ∧
  (∀ dt (w : Fin 2048) b n s x g, egressing s = true → flowClocks s = true → flowOutAt s w.val = some x → x.cfg.kind ≠ 6 → (b = true → x.cfg.dual = true) → (copyAt x b).groups.find? (fun g => !g.released) = some g → g.release ≤ localQ (advance dt s) →
    ((∀ c q, groupSlice (advance dt s) x w.val g.serial = some (c, q) → q.substitute = true ∨ q.marker = true) → exec (.egressRelease dt w b (some n)) s = exec (.egressRelease dt w b none) s) ∧
    (∀ c q, groupSlice (advance dt s) x w.val g.serial = some (c, q) → q.substitute = false → q.marker = false → exec (.egressRelease dt w b (some n)) s = exec (.egressRelease 0 w b none) (poisonSlice c q n (advance dt s)))) ∧
  (∀ (c : Nat) q n s x, chanAt s c = some x → ∃ y, chanAt (poisonSlice c q n s) c = some y ∧ y.counters.substSlices = inc32 x.counters.substSlices ∧ y.run.forceIdr = true ∧ (poisonSlice c q n s).mem.poisonReads = inc32 s.mem.poisonReads ∧ ∀ d, d ≠ c → chanAt (poisonSlice c q n s) d = chanAt s d) ∧
  (∀ dt (p : Port) s, egressing s = true → (s.now + dt < (portAt s p.val).busyUntil ∨ (portAt s p.val).down = true ∨ s.pair.txIdle = true ∨ flowClocks s = false) → exec (.macFrameSelect dt p) s = .next (advance dt s)) ∧
  (∀ (p : Nat) s, (portAt s p).sending = none → (pairOn s = false ∨ holdsClaim s = true) → holdUnpassed p (endFrame p s) = s) ∧
  (∀ dt (p : Port) s u x l (adm : Head → Bool) best, egressing s = true → flowClocks s = true → (portAt s p.val).busyUntil ≤ s.now + dt → (portAt s p.val).down = false → s.pair.txIdle = false → u = holdUnpassed p.val (endFrame p.val (advance dt s)) → x = portAt u p.val →
    l = fwHeads u p.val ++ flowHeads u p.val → (∀ h, adm h = gateAdmits u x h.queue (nsQ (txNs u p.val (h.len + 4)))) → (∀ q, best q = bestHead (l.filter (fun h => h.queue == q && adm h))) →
    ((∀ q, q < 8 → best q = none) → exec (.macFrameSelect dt p) s = .next (countDefers (l.filter (fun k => !(adm k))) u)) ∧
    (∀ h v, [0, 1, 2].findSome? best = some h → v = countDefers (l.filter (fun k => decide (k.queue ≤ h.queue) && !(adm k))) u →
      exec (.macFrameSelect dt p) s = .next (match h.flow with | some (w, b) => startFrame p.val w b v | none => startFw p.val h.queue v) ∧
      h ∈ l ∧ adm h = true ∧ (∀ k ∈ l, adm k = true → h.queue ≤ k.queue) ∧ (∀ k ∈ l, adm k = true → k.queue = h.queue → h.release ≤ k.release)) ∧
    (∀ h q a d v, [0, 1, 2].findSome? best = none → (∃ k, 3 ≤ k ∧ k ≤ 7 ∧ best k ≠ none) → dwrr x best 64 x.pointer x.arrivedAt x.deficits = some (h, q, a, d) →
      v = modPort (countDefers (l.filter (fun k => !(adm k))) u) p.val (fun x => { x with pointer := q, arrivedAt := a, deficits := d }) →
      exec (.macFrameSelect dt p) s = .next (match h.flow with | some (w, b) => startFrame p.val w b v | none => startFw p.val h.queue v))) ∧
  (∀ (p w : Nat) b s x g, flowOutAt s w = some x → headGroup (copyAt x b) = some g → (∀ h ∈ (copyAt x b).groups, h.serial = g.serial → h = g) →
    ∃ y h k, flowOutAt (startFrame p w b s) w = some y ∧ h ∈ (copyAt y b).groups ∧ h.serial = g.serial ∧ h.sent = g.sent + 1 ∧ h.passed = true ∧ h.frames = g.frames ∧ y.framesSent = inc32 x.framesSent ∧
      (portAt (startFrame p w b s) p).sending = some (w, b, g.serial) ∧ (portAt (startFrame p w b s) p).busyUntil = s.now + wireTicks s p (g.frames.getD g.sent 0) ∧
      (∀ q, q ≠ p → portAt (startFrame p w b s) q = portAt s q) ∧ (startFrame p w b s).outbox = .frame p w b g.serial (g.frames.getD g.sent 0) k :: s.outbox ∧
      ((copyAt x b).bucket.rate ≠ 0 → (copyAt y b).bucket.credit = creditNow s (copyAt x b).bucket - (g.frames.getD g.sent 0 + (portAt s p).overhead) * 4000000) ∧
      (∀ v, v ≠ w → flowOutAt (startFrame p w b s) v = flowOutAt s v)) ∧
  (∀ (p q : Nat) s f, (portAt s p).fwQueue.find? (fun f => f.queue == q) = some f →
    (portAt (startFw p q s) p).fwQueue = (portAt s p).fwQueue.erase f ∧ (startFw p q s).net.flowsOut = s.net.flowsOut ∧ (∀ j, j ≠ p → portAt (startFw p q s) j = portAt s j) ∧
    ((f.ingress = none ∨ ∃ t, f.ingress = some t ∧ s.time.local' ≤ t + nsInstant 1000000) → (portAt (startFw p q s) p).busyUntil = s.now + wireTicks s p f.len ∧ .fwFrame p q f.len ∈ (startFw p q s).outbox) ∧
    (∀ t, f.ingress = some t → s.time.local' ≤ t + nsInstant 1000000 → (startFw p q s).time.ptp.tcForwarded = inc32 s.time.ptp.tcForwarded ∧ (∀ m, f.ptp = some m → forwarded p ((s.time.local' : Int) - (t : Int)) m ∈ (startFw p q s).outbox)) ∧
    (∀ t, f.ingress = some t → t + nsInstant 1000000 < s.time.local' → (startFw p q s).time.ptp.tcDiscards = inc32 s.time.ptp.tcDiscards ∧ (startFw p q s).outbox = s.outbox ∧ (portAt (startFw p q s) p).busyUntil = (portAt s p).busyUntil))

/-- The Tide boundary (R22 to R27, R74, R78, R96, R298, R327, R331). -/
def Obligations.TideBoundaryAppliesAndPublishes : Prop :=
  (∀ dt m s, acting s = true → tideDue (advance dt s) = false → exec (.tideBoundary dt m) s = .next (advance dt s)) ∧
  (∀ dt m s, acting s = true → tideDue (advance dt s) = true →
    ∃ t, exec (.tideBoundary dt m) s = .next t ∧ t.now = s.now + dt ∧ t.time.tideStarted = true ∧ (s.pair.adoptTide = false → t.time.tide = (if s.time.tideStarted then s.time.tide + 1 else 0)) ∧ (∀ h, s.pair.adoptTide = true → s.pair.partner = some h → t.time.tide = h.tide.toNat + 1) ∧
      t.time.lastBoundary = boundaryInstant (advance dt s) ∧ t.time.lastBoundaryTick = s.now + dt ∧ t.time.stepped = false ∧ t.time.local' = (advance dt s).time.local' ∧
      (s.time.nextBoundary ≤ (advance dt s).time.local' → t.time.nextBoundary = (s.time.nextBoundary / tideSpan t + 1) * tideSpan t) ∧ (s.time.periodChange = none → t.time.period = s.time.period) ∧
      (∀ c, s.time.periodChange = some c → if boundaryInstant (advance dt s) % nsInstant (max s.time.period c.period * 62500) = 0 then t.time.period = c.period ∧ t.time.periodChange = none else t.time.period = s.time.period ∧ t.time.periodChange = some c) ∧
      t.net.pendCfg = [] ∧ t.power.powerW = m.powerW % 65536 ∧ t.power.coreMv = m.coreMv % 65536 ∧ t.mem.hbmTemp = m.hbmTemp % 256 ∧ t.power.peakRec = t.power.step ∧
      (∀ f : Fn, (fnAt t f.val).snapTide = s.time.tide ∧ (fnAt t f.val).snapHead = (fnAt t f.val).snapK ∧ (fnAt t f.val).snapTail = (fnAt t f.val).snapK ∧
        ∃ st, (if (fnAt t f.val).snapK % 2 = 0 then (fnAt t f.val).page0 else (fnAt t f.val).page1) = trimZeros (pageBytes (fnAt t f.val).snapK s.time.tide st)) ∧
      (s.net.pendCfg = [] → s.net.removals = [] → s.pair.resets = [] → pairOn s = false → (∀ e ∈ s.fns, e.2.busy = false) → ∀ c x, chanAt s c = some x → x.st = .armed → x.run.startMode = 1 →
        x.run.startAt ≤ (advance dt s).time.local' → chanAt t c = some { x with st := .running })) ∧
  (∀ c k d s, findCmd s c.serial = some (k, d) →
    (c.opcode = 0x0503 → ∀ x, decAt s (fld c.packet 2 4 0) = some x → decAt (applyCfg c s) (fld c.packet 2 4 0) = some { x with errMode := fld c.packet 3 0 0, hashAction := fld c.packet 3 2 1 }) ∧
    (c.opcode = 0x0601 → ∀ l ∈ laneRange c.packet, (laneAt (applyCfg c s) l).cfg = laneCfgOf c.packet) ∧
    (c.opcode = 0x0602 → (portCfgOf c.packet).speed ≠ 0 → (portAt (applyCfg c s) (fld c.packet 2 3 0)).cfg = portCfgOf c.packet) ∧
    (c.opcode = 0x0602 → (portCfgOf c.packet).speed = 0 → (portAt (applyCfg c s) (fld c.packet 2 3 0)).cfg = { (portAt s (fld c.packet 2 3 0)).cfg with speed := 0 }) ∧
    (c.opcode = 0x0603 → ∀ n, s.net.flowsIn.lowestFree 1024 = some n → flowInAt (applyCfg c s) n = some { owner := c.fn, cfg := flowInCfgOf c.packet }) ∧
    (c.opcode = 0x0604 → ∀ n, s.net.flowsOut.lowestFree 2048 = some n → ∃ x, flowOutAt (applyCfg c s) n = some x ∧ x.owner = c.fn ∧ x.cfg = flowOutCfgOf c.packet) ∧
    (c.opcode = 0x0605 → flag c.packet 2 16 = false → flowInAt (applyCfg c s) (fld c.packet 2 10 0) = none) ∧
    (c.opcode = 0x0605 → flag c.packet 2 16 = true → ∀ x, flowOutAt s (fld c.packet 2 10 0) = some x → x.copyA.groups = [] → x.copyB.groups = [] → flowOutAt (applyCfg c s) (fld c.packet 2 10 0) = none) ∧
    (c.opcode = 0x0606 → fld c.packet 2 1 0 = 0 → ∀ x, flowOutAt s (fld c.packet 2 26 16) = some x → ∃ y, flowOutAt (applyCfg c s) (fld c.packet 2 26 16) = some y ∧ y.copyA.bucket.rate = word c.packet 3 ∧
      y.copyA.bucket.burst = word c.packet 4 ∧ y.copyB.bucket.rate = word c.packet 3 ∧ y.copyA.bucket.credit = min (creditNow s x.copyA.bucket) (word c.packet 4 * 4000000) ∧ y.copyA.groups = x.copyA.groups) ∧
    (c.opcode = 0x0606 → fld c.packet 2 1 0 = 1 → (portAt (applyCfg c s) (fld c.packet 2 26 16)).overhead = fld c.packet 3 5 0 ∧ (portAt (applyCfg c s) (fld c.packet 2 26 16)).quantum.get? 3 = some (quantumOf (fld c.packet 4 15 0))) ∧
    (c.opcode = 0x0607 → flag c.packet 5 8 = true → (portAt (applyCfg c s) (fld c.packet 5 3 0)).nextGates = some (some (gateListOf c.packet d.block), gateStart (gateListOf c.packet d.block) s.time.local')) ∧
    (c.opcode = 0x0607 → flag c.packet 5 8 = false → (portAt (applyCfg c s) (fld c.packet 5 3 0)).gates = none ∧ (portAt (applyCfg c s) (fld c.packet 5 3 0)).nextGates = none) ∧
    (c.opcode = 0x0701 → (applyCfg c s).time.ptp.cfg = ptpCfgOf c.packet) ∧
    (c.opcode = 0x0801 → fld c.packet 2 3 0 ≠ 15 → (audPortAt (applyCfg c s) (fld c.packet 2 3 0)).cfg = audPortCfgOf c.packet) ∧
    (c.opcode = 0x0C01 → (applyCfg c s).mem.regions.get? (fld c.packet 2 3 0) = some (word c.packet 3)) ∧
    (c.opcode = 0x0C02 → (scrubOf (applyCfg c s) (flag c.packet 2 0)).period = word c.packet 3 ∧ (scrubOf (applyCfg c s) (flag c.packet 2 0)).nextAtom = 0 ∧ (scrubOf (applyCfg c s) (flag c.packet 2 0)).ceThreshold = fld c.packet 4 15 0 ∧ scrubOf (applyCfg c s) (!flag c.packet 2 0) = scrubOf s (!flag c.packet 2 0)) ∧
    (c.opcode = 0x0D01 → (applyCfg c s).power.policy = shedPolicyOf c.packet) ∧
    (c.opcode = 0x0D03 → flag c.packet 2 0 = false → ∀ x, chanAt s (fld c.packet 2 13 8) = some x → chanAt (applyCfg c s) (fld c.packet 2 13 8) = some { x with shedClass := fld c.packet 3 1 0 }) ∧
    (c.opcode = 0x0D03 → flag c.packet 2 0 = true → ∀ x, outAt s (fld c.packet 2 13 8) = some x → outAt (applyCfg c s) (fld c.packet 2 13 8) = some { x with shedClass := fld c.packet 3 1 0 }) ∧
    (c.opcode ∈ [0x0503, 0x0601, 0x0602, 0x0603, 0x0604, 0x0605, 0x0606, 0x0607, 0x0701, 0x0801, 0x0C01, 0x0C02, 0x0D01, 0x0D03] → ∀ e ∈ flowCmds (applyCfg c s) k, e.serial ≠ c.serial))

/-- The model neither refuses nor faults; a step that cannot happen changes nothing (log 3, the model's choice). -/
def Obligations.EveryStepAnswers : Prop := ∀ s : State, s.Goes

/-- Reset values that the spec states (R472, Table 19.8). -/
def Obligations.ResetLeavesTheStatedValues : Prop :=
  State.reset.pending = [] ∧ State.reset.chans = [] ∧ State.reset.outs = [] ∧ State.reset.surfs = [] ∧ State.reset.decs = [] ∧ allCmds State.reset = [] ∧
  (∀ f, sqQuota State.reset f = (if f = 0 then 1024 else 0) ∧ cqQuota State.reset f = (if f = 0 then 1024 else 0)) ∧
  (∀ f n, (fenceAt State.reset f n).value = 0 ∧ (fenceAt State.reset f n).flow = none) ∧
  (∀ n, (State.reset.irq.srcs.getD n {}).masked = true ∧ (State.reset.irq.srcs.getD n {}).pendSw = false ∧ (State.reset.irq.srcs.getD n {}).claimer = none) ∧
  (∀ f, (fnAt State.reset f).snapHead = 0 ∧ (fnAt State.reset f).snapTail = 0 ∧ (fnAt State.reset f).busy = false) ∧
  State.reset.time.addend = 0x200000000 ∧ State.reset.time.jumpLimit = 0x3E8 ∧ State.reset.time.period = 2 ∧ State.reset.time.tideStarted = false ∧
  State.reset.pair.st = .unpaired ∧ State.reset.pair.claimOutLow = false ∧ State.reset.pair.claim = 0 ∧
  State.reset.power.step = 0 ∧ State.reset.power.policy.maxStep = 8 ∧ State.reset.power.policy.interval = 100 ∧ State.reset.power.policy.recover = 10 ∧ State.reset.power.vid = 25 ∧
  (∀ u, (crcAt State.reset u).dataBytes = 4 ∧ (crcAt State.reset u).foldBytes = 8 ∧ (crcAt State.reset u).owner = 0 ∧ (crcAt State.reset u).value = 0xFFFFFFFF) ∧
  (∀ a, (arbAt State.reset a).limit = 0x100 ∧ (arbAt State.reset a).grant = none)

/-- Absent or quiesced, the device leaves that state by a cold reset alone (R472, R476, R482, R484). -/
def Obligations.AbsentDeviceStaysSilent : Prop :=
  ∀ s : State, acting s = false → s.power.warmPending = none → (∀ st r, s.pending ≠ .coldReset st :: r) →
    ∃ t, step s = .next t ∧ acting t = false ∧ t.power.warmPending = none ∧
      ((∀ r, s.pending ≠ .powerRemoved :: r) →
        t = { s with pending := s.pending.tail } ∨ ∃ f off, t = { s with pending := s.pending.tail, outbox := .unsupported f off :: s.outbox })

/-- Quotas (R34). -/
def Obligations.QuotasStayWithinTotals : Prop :=
  quotasFit State.reset ∧
  (∀ s, quotasFit s → ((List.range 32).map (sqQuota s)).sum = 1024 ∧ ((List.range 32).map (cqQuota s)).sum = 1024) ∧
  (∀ s f n, (sqIn s f n = true ↔ n < sqQuota s f) ∧ (cqIn s f n = true ↔ n < cqQuota s f)) ∧
  (∀ f vf v s t, quotasFit s → exec (.funcQuota f vf v) s = .next t → quotasFit t) ∧
  (∀ (vf sq cq : Nat) (v : Word) (s : State), hostUp s = true → s.vfEnable = false → 1 ≤ vf → vf ≤ 31 → sq = v.toNat % 2048 → cq = v.toNat / 65536 % 2048 →
    (sumBy (fun e => e.2.1) (s.quotas.erase vf) + sq ≤ 1024 → sumBy (fun e => e.2.2) (s.quotas.erase vf) + cq ≤ 1024 →
      ∃ t, exec (.funcQuota 0 vf v) s = .next t ∧ sqQuota t vf = sq ∧ cqQuota t vf = cq ∧ ∀ w, w ≠ 0 → w ≠ vf → sqQuota t w = sqQuota s w ∧ cqQuota t w = cqQuota s w) ∧
    (1024 < sumBy (fun e => e.2.1) (s.quotas.erase vf) + sq ∨ 1024 < sumBy (fun e => e.2.2) (s.quotas.erase vf) + cq → exec (.funcQuota 0 vf v) s = .next s))

/-- VF Enable locks the quotas (R40). -/
def Obligations.QuotasChangeOnlyWithoutVfEnable : Prop :=
  (∀ f vf v s, s.vfEnable = true → exec (.funcQuota f vf v) s = .next s) ∧
  (∀ f off size v s, s.vfEnable = true → 0x1004 ≤ off → off + size ≤ 0x1080 → size = 4 ∨ size = 8 → ctlwinOk off size = true → exec (.registerWrite f off size v) s = .next s) ∧
  (∀ (vf : Nat) (v : Word) (s : State), hostUp s = true → s.vfEnable = false → 1 ≤ vf → vf ≤ 31 → 1 ≤ v.toNat % 2048 →
    sumBy (fun e => e.2.1) (s.quotas.erase vf) + v.toNat % 2048 ≤ 1024 → sumBy (fun e => e.2.2) (s.quotas.erase vf) + v.toNat / 65536 % 2048 ≤ 1024 →
    ∃ t, exec (.funcQuota 0 vf v) s = .next t ∧ sqQuota t vf = v.toNat % 2048)

/-- NOP (R57). -/
def Obligations.NopCompletesInItsPlace : Prop :=
  (∀ q b s c l r, ready 0x0100 q c s = true → flowCmds s (flowKey q) = c :: l → (∀ x ∈ l, x.serial ≠ c.serial) → c.ferry = none → c.mirrored = false → c.mirrorSerial = none → clockLost s .pcie = false →
    r = ({ tag := tagOf c.packet, opcode := 0x0100, outcome := 0, flow := recordFlow (flowKey q) c, progress := 0, result0 := 0, result1 := 0, tide := s.time.tide, sqHead := c.sqHead, sq := c.sq } : Rec) →
    ∃ t, exec (.nop q b) s = .next t ∧ flowCmds t (flowKey q) = l ∧ (∀ k, k ≠ flowKey q → flowCmds t k = flowCmds s k) ∧
      (∀ f, f ≠ c.fn.val → fnAt t f = fnAt s f) ∧ (∀ n, n ≠ c.cq → cqAt (fnAt t c.fn.val) n = cqAt (fnAt s c.fn.val) n) ∧
      ((cqAt (fnAt s c.fn.val) c.cq).holding = false → s.power.link = .l0 → b.recordOk = true → cqWritable (fnAt s c.fn.val) c.cq = true →
        t.outbox = .record c.fn.val ((cqAt (fnAt s c.fn.val) c.cq).lBase + 32 * (cqAt (fnAt s c.fn.val) c.cq).tail) r (cqAt (fnAt s c.fn.val) c.cq).phase :: s.outbox ∧
        t.chans = s.chans ∧ t.outs = s.outs ∧ t.surfs = s.surfs ∧ t.decs = s.decs ∧ t.mem = s.mem ∧ t.fab = s.fab ∧ t.net = s.net ∧ t.time = s.time ∧ t.audio = s.audio ∧
        t.pair = s.pair ∧ t.upd = s.upd ∧ t.power = s.power ∧ t.irq = s.irq ∧ t.harbour = s.harbour ∧ t.journal = s.journal ∧ t.crc = s.crc ∧ t.units = s.units ∧ t.quotas = s.quotas) ∧
      (((cqAt (fnAt s c.fn.val) c.cq).holding = true ∨ s.power.link ≠ .l0) → t.outbox = s.outbox ∧ ∃ h, h.record = r ∧ (cqAt (fnAt t c.fn.val) c.cq).held = (cqAt (fnAt s c.fn.val) c.cq).held ++ [h]) ∧
      ((cqAt (fnAt s c.fn.val) c.cq).holding = false → s.power.link = .l0 → (b.recordOk = false ∨ cqWritable (fnAt s c.fn.val) c.cq = false) → t.outbox = s.outbox ∧ (cqAt (fnAt t c.fn.val) c.cq).error = true ∧ (cqAt (fnAt t c.fn.val) c.cq).holding = true ∧
        (∃ h, h.record = r ∧ (cqAt (fnAt t c.fn.val) c.cq).held = [h]) ∧ ∃ e ∈ t.journal.staged, e.cls = 10 ∧ e.function = c.fn.val)) ∧
  (∀ q b s c l, flowCmds s (flowKey q) = c :: l → opcodeOf c.packet ≠ 0x0100 ∨ c.started = true → exec (.nop q b) s = .next s)

/-- DB_SQ and DB_CQ (R42). -/
def Obligations.DoorbellsCarryTailAndHead : Prop :=
  (∀ (f : Fn) (n : Nat) (v w : Word) (s : State), v.toNat % 4096 = w.toNat % 4096 → exec (.dbSq f n v) s = exec (.dbSq f n w) s ∧ exec (.dbCq f n v) s = exec (.dbCq f n w) s) ∧
  (∀ (f : Fn) (n : Nat) (v : Word) (s : State), queueWritable s f.val = true → sqIn s f.val n = true → (sqAt (fnAt s f.val) n).enable = true →
    (v.toNat % 4096 < (sqAt (fnAt s f.val) n).slots → ∃ t, exec (.dbSq f n v) s = .next t ∧ (sqAt (fnAt t f.val) n).tail = v.toNat % 4096) ∧
    ((sqAt (fnAt s f.val) n).slots ≤ v.toNat % 4096 → exec (.dbSq f n v) s = .next (modSq f.val n (fun q => { q with error := true }) s))) ∧
  (∀ (f : Fn) (n : Nat) (v : Word) (s : State), queueWritable s f.val = true → cqIn s f.val n = true → (cqAt (fnAt s f.val) n).enable = true →
    (v.toNat % 4096 < (cqAt (fnAt s f.val) n).slots → (cqAt (fnAt s f.val) n).head < (cqAt (fnAt s f.val) n).slots →
      ringCount (cqAt (fnAt s f.val) n).slots (cqAt (fnAt s f.val) n).head (v.toNat % 4096) ≤ (cqAt (fnAt s f.val) n).occ.length →
      ∃ t, exec (.dbCq f n v) s = .next t ∧ (cqAt (fnAt t f.val) n).head = v.toNat % 4096) ∧
    ((cqAt (fnAt s f.val) n).slots ≤ v.toNat % 4096 → exec (.dbCq f n v) s = .next (modCq f.val n (fun q => { q with error := true }) s))) ∧
  (∀ f off s, 0x10000 ≤ off → off < 0x12000 → regValue f off s = 0)

/-- Record slots (R45). -/
def Obligations.RecordSlotsAreNeverOverrun : Prop :=
  (∀ (f : Fn) (n : Nat) (slot : SlotRead) (s : State), cqFree (fnAt s f.val) (sqAt (fnAt s f.val) n).cq = 0 → exec (.commandFetch f n slot) s = .next s) ∧
  (∀ (f : Fn) (n k : Nat) (p : Packet) (s : State), fetchable s f.val n = true → k = (sqAt (fnAt s f.val) n).cq →
    ∃ t, exec (.commandFetch f n (.packet p)) s = .next t ∧ 0 < cqFree (fnAt s f.val) k ∧ cqFree (fnAt t f.val) k + 1 = cqFree (fnAt s f.val) k ∧
      cqAt (fnAt t f.val) k = { cqAt (fnAt s f.val) k with reserved := (cqAt (fnAt s f.val) k).reserved + 1 } ∧
      (cqAt (fnAt t f.val) k).occ.length + (cqAt (fnAt t f.val) k).reserved ≤ (cqAt (fnAt t f.val) k).slots - 1 ∧
      (∀ g m, (g ≠ f.val ∨ m ≠ k) → cqAt (fnAt t g) m = cqAt (fnAt s g) m)) ∧
  (∀ q b s c, ready 0x0100 q c s = true → c.ferry = none → c.mirrored = false → 0 < (cqAt (fnAt s c.fn.val) c.cq).reserved →
    ∃ t, exec (.nop q b) s = .next t ∧
      (cqAt (fnAt t c.fn.val) c.cq).occ.length + (cqAt (fnAt t c.fn.val) c.cq).reserved ≤ (cqAt (fnAt s c.fn.val) c.cq).occ.length + (cqAt (fnAt s c.fn.val) c.cq).reserved) ∧
  (∀ (f : Fn) (n k : Nat) (v : Word) (s : State), queueWritable s f.val = true → cqIn s f.val n = true → (cqAt (fnAt s f.val) n).enable = true →
    v.toNat % 4096 < (cqAt (fnAt s f.val) n).slots → (cqAt (fnAt s f.val) n).head < (cqAt (fnAt s f.val) n).slots →
    k = ringCount (cqAt (fnAt s f.val) n).slots (cqAt (fnAt s f.val) n).head (v.toNat % 4096) → k ≤ (cqAt (fnAt s f.val) n).occ.length →
    ∃ t l, exec (.dbCq f n v) s = .next t ∧ (cqAt (fnAt t f.val) n).occ = (cqAt (fnAt s f.val) n).occ.drop k ++ l)

/-- CHAN_CREATE (R79). -/
def Obligations.ChannelsTakeTheLowestFreeNumber : Prop :=
  (∀ q b s c k, ready 0x0201 q c s = true → k < 64 → chanAt s k = none → (∀ j, j < k → (chanAt s j).isSome = true) →
    ∃ x, exec (.chanCreate q b) s = .next (completes c b 0 k 0 (setChan s k x)) ∧ x.owner = c.fn ∧ x.st = .idle ∧ x.cfg = none ∧ ∀ j, j ≠ k → chanAt (setChan s k x) j = chanAt s j) ∧
  (∀ q b s c, ready 0x0201 q c s = true → (∀ j, j < 64 → (chanAt s j).isSome = true) →
    exec (.chanCreate q b) s = .next (completeCmd c.serial stNoResource 0 0 0 [] b.recordOk s))

/-- Serial numbers of commands, the model's own, stay apart (R43, R45, R63). -/
def Obligations.SerialNumbersStayApart : Prop :=
  serialsApart State.reset ∧
  (∀ f n slot s t, serialsApart s → exec (.commandFetch f n slot) s = .next t → serialsApart t) ∧
  (∀ c seq p s t, serialsApart s → exec (.ferryCommand c seq p) s = .next t → serialsApart t) ∧
  (∀ q b s t, serialsApart s → exec (.nop q b) s = .next t → serialsApart t) ∧
  (∀ s k c l, serialsApart s → flowCmds s k = c :: l → findCmd s c.serial = some (k, c))

/-- SURFWIN writes and the form of surface memory (R182, R500; log 6, the model's choice of what an unwritten byte reads as). -/
def Obligations.SurfaceMemoryReadsBack : Prop :=
  surfaceMemoryOk State.reset ∧
  (∀ f off bs s t, surfaceMemoryOk s → exec (.surfwinWrite f off bs) s = .next t → surfaceMemoryOk t) ∧
  (∀ (f : Fn) (offset n k off : Nat) (bs : List Byte) (s : State) (x : Surface), hostUp s = true → isStandby s = false →
    s.surfs.find? (fun e => e.2.owner.val == f.val && decide (e.2.offset ≤ offset) && decide (offset < e.2.offset + surfaceBytes e.2)) = some (n, x) →
    surfAt s n = some x → surfaceMemoryOk s → bs ≠ [] → offset % 65536 + bs.length ≤ 65536 → k = (offset - x.offset) / bufferSize x.format x.width x.height →
    off = (offset - x.offset) % bufferSize x.format x.width x.height → x.pubs.any (fun q => q.buffer == k) = false → x.pending.any (fun u => u.pub.buffer == k) = false →
    ∃ t y, exec (.surfwinWrite f offset bs) s = .next t ∧ surfAt t n = some y ∧
      (∀ a, Memory.read (bufferMem y k) a = if off ≤ a ∧ a < off + bs.length then bs.getD (a - off) 0 else Memory.read (bufferMem x k) a) ∧
      (∀ j, j ≠ k → bufferMem y j = bufferMem x j) ∧ (∀ m, m ≠ n → surfAt t m = surfAt s m))

/-- DEV_QUERY (R61). -/
def Obligations.DevQueryAnswersAllFunctionsAlike : Prop :=
  (∀ f s, (devAnswer f s).length = 128) ∧
  (∀ f g s i, i ≠ 16 → (i < 28 ∨ 32 ≤ i) → (devAnswer f s)[i]? = (devAnswer g s)[i]?) ∧
  (∀ (f : Fn) s, (devAnswer f.val s)[16]? = some (BitVec.ofNat 8 f.val) ∧ Machine.slice (devAnswer f.val s) 28 4 = le 2 (sqQuota s f.val) ++ le 2 (cqQuota s f.val)) ∧
  (∀ q b s c, ready 0x0101 q c s = true → blockTakes c b (devAnswer c.fn.val s) s = true → exec (.devQuery q b) s = .next (answers c b (devAnswer c.fn.val s) 0 0 s))
end

