-- ==== Sys2Proof/Laws/Commands.lean ====
section
/-! SUPPORT. What the start of a command can do: one lemma per way in which the checks pass (R7, R49, R63, R64). -/

namespace Sys2Proof.Laws

open Sys2Proof.Machine

/-- What `atFront` says, taken apart. -/
theorem atFront_cases {code : Nat} {q : FlowRef} {c : Cmd} {s : State} (h : atFront code q c s = true) :
    ∃ i r, opInfo code = some i ∧ flowCmds s (flowKey q) = c :: r ∧ findCmd s c.serial = some (flowKey q, c) ∧ c.started = false ∧ fwUp s = true
      ∧ opcodeOf c.packet = code ∧ (c.ferry.isNone && (fnAt s c.fn.val).busy) = false ∧ loaderRefuses s c = false ∧ ferryDenied c = false
      ∧ c.cyclic = false ∧ (mirroredOp code && pairOn s) = false ∧ allowed i c = true ∧ packetOk i c (flowKey q) = true := by
  unfold atFront inFront takesTurn at h
  cases hi : opInfo code with
  | none => simp [hi] at h
  | some i =>
    simp only [hi, Bool.and_eq_true, Bool.not_eq_true', beq_iff_eq] at h
    obtain ⟨⟨⟨⟨⟨⟨⟨⟨⟨⟨hf, hfind⟩, hst⟩, hfw⟩, hop⟩, hb⟩, hl⟩, hfd⟩, ha, hp⟩, hm⟩, hcy⟩ := h
    obtain ⟨r, hq⟩ := List.head?_eq_some_iff.mp hf
    exact ⟨i, r, rfl, hq, hfind, hst, hfw, hop, hb, hl, hfd, hcy, hm, ha, hp⟩

/-- The row of an opcode has that code. -/
theorem opInfo_code {code : Nat} {i : OpInfo} (h : opInfo code = some i) : i.code = code := by
  simpa using List.find?_some h

/-- A ready command runs its meaning, unless that denies it (R64). -/
theorem startRow_ready {code : Nat} {m : Meaning} {q : FlowRef} {c : Cmd} {b : Bus} {s : State} (h : ready code q c s = true)
    (hd : m.deny (cmdIn q c []) s = false) :
    startRow code m q b s = settleRes c.serial b [] (m.after (cmdIn q c [])) (m.run (cmdIn q c []) s) := by
  unfold ready at h
  rw [Bool.and_eq_true] at h
  obtain ⟨hc, hb⟩ := h
  obtain ⟨i, r, hi, hq, -, hst, hfw, hop, hbusy, hl, hfd, hcy, hm, ha, hp⟩ := atFront_cases hc
  have hnb : readsBlock i c (flowKey q) s = false := by
    simp only [hi] at hb
    unfold readsBlock
    cases hx : indirectOf c.packet <;> cases hy : (i.block == BlockUse.answer) <;> simp_all
  have hind : (indirectOf c.packet && i.block != BlockUse.answer) = false := by
    simp only [hi] at hb
    cases hx : indirectOf c.packet <;> cases hy : (i.block == BlockUse.answer) <;> simp_all [bne]
  have hcode := opInfo_code hi
  unfold startRow
  simp only [hq, hi, hfw, hst, hop, hbusy, hnb]
  simp only [startWith, hcode, hm, evalCmd, hl, ha, hfd, hp, hcy]
  unfold cmdIn at hd ⊢
  simp [hd, hind]

/-- A command that has read its block runs its meaning on it, unless that denies it (R49, R64). -/
theorem startRow_readyBlock {code : Nat} {m : Meaning} {q : FlowRef} {c : Cmd} {b : Bus} {bs : List Byte} {s : State} (h : readyBlock code q c b bs s = true)
    (hf : mirroredOp code = false)
    (hd : m.deny (cmdIn q c bs) (blockTaken c s) = false) :
    startRow code m q b s = settleRes c.serial b bs (m.after (cmdIn q c bs)) (m.run (cmdIn q c bs) (blockTaken c s)) := by
  unfold readyBlock at h
  rw [Bool.and_eq_true, Bool.and_eq_true, Bool.and_eq_true] at h
  obtain ⟨⟨⟨hc, hin⟩, hb⟩, hread⟩ := h
  obtain ⟨i, r, hi, hq, -, hst, hfw, hop, hbusy, hl, hfd, hcy, hm, ha, hp⟩ := atFront_cases hc
  simp only [hi] at hb
  have hnb : readsBlock i c (flowKey q) s = true := by
    unfold readsBlock
    simp [hin, hb, hl, ha, hfd, hp]
  have hl' : loaderRefuses (blockTaken c s) c = false := by
    rw [← hl]; unfold blockTaken loaderRefuses; split <;> rfl
  have hcode := opInfo_code hi
  have main : startWith i m (cmdIn q c bs) b (blockTaken c s) = settleRes c.serial b bs (m.after (cmdIn q c bs)) (m.run (cmdIn q c bs) (blockTaken c s)) := by
    unfold startWith evalCmd
    rw [hcode, hf]
    simp only [Bool.false_and, Bool.false_eq_true, if_false]
    rw [if_neg (by simp [cmdIn, hl']), if_neg (by simp [cmdIn, ha, hfd]), if_neg (by simp [cmdIn, hp]), if_neg (by simp [hd]), if_neg (by simp [cmdIn, hp]),
      if_neg (by simp [cmdIn, hcy])]
    rfl
  rw [← main]
  unfold startRow
  simp only [hq, hi, hfw, hst, hop, hbusy, hnb]
  by_cases hfer : c.ferry.isSome = true
  · simp only [hfer, if_true, Bool.and_eq_true, Option.isNone_iff_eq_none, beq_iff_eq] at hread
    simp [hfer, hread.1, blockTaken, ← hread.2, cmdIn]
  · simp only [hfer] at hread
    cases hbb : b.block with
    | error => simp [hbb] at hread
    | bytes xs =>
      simp only [hbb, Bool.false_eq_true, if_false, Bool.and_eq_true, Bool.not_eq_true', beq_iff_eq] at hread
      simp [hfer, hread.1, ← hread.2, blockTaken, cmdIn]

/-- A query answered whole (R58). -/
theorem settleRes_answer {c : Cmd} {k : Nat} {b : Bus} {bs bytes : List Byte} {f : State → State} {r0 r1 : Nat} {s : State}
    (h : findCmd s c.serial = some (k, c)) (ht : blockTakes c b bytes s = true) :
    settleRes c.serial b bs f (.answer s bytes r0 r1) = answers c b bytes r0 r1 s := by
  unfold blockTakes at ht
  simp only [Bool.and_eq_true, decide_eq_true_eq] at ht
  obtain ⟨hl, hb⟩ := ht
  unfold settleRes answers
  simp only [h]
  rw [if_neg (by cases hf : c.ferry <;> simp_all), Nat.min_eq_left hl, List.take_length, if_neg (Nat.lt_irrefl _)]

/-- A query answered in whole units (R318, R444). -/
theorem settleRes_units {c : Cmd} {k n : Nat} {b : Bus} {bs bytes : List Byte} {f : State → State} {r0 r1 : Nat} {s : State}
    (h : findCmd s c.serial = some (k, c)) (ht : blockTakes c b bytes s = true) :
    settleRes c.serial b bs f (.units s bytes n r0 r1)
      = completeCmd c.serial stOk n r0 r1 bytes b.recordOk (if c.ferry.isSome then s else emit s (.answer c.fn.val (dword c.packet 2) bytes)) := by
  unfold blockTakes at ht
  simp only [Bool.and_eq_true, decide_eq_true_eq] at ht
  obtain ⟨-, hb⟩ := ht
  unfold settleRes
  simp only [h]
  rw [if_neg (by cases hf : c.ferry <;> simp_all)]

/-- The command itself is found by its serial number. -/
theorem ready_find {code : Nat} {q : FlowRef} {c : Cmd} {s : State} (h : ready code q c s = true) : findCmd s c.serial = some (flowKey q, c) := by
  unfold ready at h
  rw [Bool.and_eq_true] at h
  obtain ⟨_, _, _, _, hf, _⟩ := atFront_cases h.1
  exact hf

/-- A ready command whose meaning completes it. -/
theorem startRow_done {code : Nat} {m : Meaning} {q : FlowRef} {c : Cmd} {b : Bus} {s t : State} {o n r0 r1 : Nat} (h : ready code q c s = true)
    (hd : m.deny (cmdIn q c []) s = false) (hr : m.run (cmdIn q c []) s = .done t o n r0 r1) :
    startRow code m q b s = completeCmd c.serial o n r0 r1 [] b.recordOk t := by
  rw [startRow_ready h hd, hr]; rfl

/-- A ready command whose meaning lets it wait. -/
theorem startRow_pend {code : Nat} {m : Meaning} {q : FlowRef} {c : Cmd} {b : Bus} {s t : State} {w : Wait} {r0 r1 : Nat} (h : ready code q c s = true)
    (hd : m.deny (cmdIn q c []) s = false) (hr : m.run (cmdIn q c []) s = .pend t w r0 r1) :
    startRow code m q b s = m.after (cmdIn q c []) (waits c [] w r0 r1 t) := by
  rw [startRow_ready h hd, hr]; rfl

/-- A ready query whose answer block takes the whole answer (R58). -/
theorem startRow_answer {code : Nat} {m : Meaning} {q : FlowRef} {c : Cmd} {b : Bus} {s : State} {bytes : List Byte} {r0 r1 : Nat} (h : ready code q c s = true)
    (hd : m.deny (cmdIn q c []) s = false) (hr : m.run (cmdIn q c []) s = .answer s bytes r0 r1) (ht : blockTakes c b bytes s = true) :
    startRow code m q b s = answers c b bytes r0 r1 s := by
  rw [startRow_ready h hd, hr, settleRes_answer (ready_find h) ht]

end Sys2Proof.Laws
end

