-- ==== Sys2Proof/Laws/FMap.lean ====
section
/-! SUPPORT. Laws of sparse tables: a read after a write, and that every operation keeps the keys sorted. -/

namespace Sys2Proof.Laws

open Sys2Proof.Machine

variable {α β : Type}

theorem fmap_get?_set (m : FMap α) (k j : Nat) (v : α) : FMap.get? (FMap.set m k v) j = if k = j then some v else FMap.get? m j := by
  induction m with
  | nil => simp [FMap.set, FMap.get?]
  | cons e r ih =>
    obtain ⟨i, w⟩ := e
    simp only [FMap.set]
    split
    · simp [FMap.get?]
    · split
      · next hi => subst hi; by_cases h : i = j <;> simp [FMap.get?, h]
      · by_cases h : i = j
        · subst h; simp_all [FMap.get?]; omega
        · simp [FMap.get?, h, ih]

@[simp] theorem fmap_get?_set_self (m : FMap α) (k : Nat) (v : α) : FMap.get? (FMap.set m k v) k = some v := by simp [fmap_get?_set]

theorem fmap_get?_set_ne {m : FMap α} {k j : Nat} {v : α} (h : k ≠ j) : FMap.get? (FMap.set m k v) j = FMap.get? m j := by simp [fmap_get?_set, h]

@[simp] theorem fmap_getD_set_self (m : FMap α) (k : Nat) (v d : α) : FMap.getD (FMap.set m k v) k d = v := by simp [FMap.getD]

theorem fmap_getD_set_ne {m : FMap α} {k j : Nat} {v d : α} (h : k ≠ j) : FMap.getD (FMap.set m k v) j d = FMap.getD m j d := by
  simp [FMap.getD, fmap_get?_set_ne h]

@[simp] theorem fmap_get?_nil (k : Nat) : FMap.get? ([] : FMap α) k = none := rfl

@[simp] theorem fmap_getD_nil (k : Nat) (d : α) : FMap.getD ([] : FMap α) k d = d := rfl

theorem fmap_get?_erase (m : FMap α) (k j : Nat) : FMap.get? (FMap.erase m k) j = if k = j then none else FMap.get? m j := by
  induction m with
  | nil => simp [FMap.erase]
  | cons e r ih =>
    obtain ⟨i, w⟩ := e
    simp only [FMap.erase]
    split
    · subst_vars; rw [ih]; split <;> simp_all [FMap.get?]
    · simp only [FMap.get?]; rw [ih]; split <;> split <;> simp_all

theorem fmap_get?_modify (m : FMap α) (k j : Nat) (f : α → α) :
    FMap.get? (FMap.modify m k f) j = if k = j then (FMap.get? m j).map f else FMap.get? m j := by
  induction m with
  | nil => simp [FMap.modify]
  | cons e r ih =>
    obtain ⟨i, w⟩ := e
    simp only [FMap.modify]
    split
    · next hi => subst hi; by_cases h : i = j <;> simp [FMap.get?, h]
    · simp only [FMap.get?]; rw [ih]; split <;> split <;> simp_all

@[simp] theorem fmap_get?_modify_self (m : FMap α) (k : Nat) (f : α → α) : FMap.get? (FMap.modify m k f) k = (FMap.get? m k).map f := by
  simp [fmap_get?_modify]

theorem fmap_get?_modify_ne {m : FMap α} {k j : Nat} {f : α → α} (h : k ≠ j) : FMap.get? (FMap.modify m k f) j = FMap.get? m j := by
  simp [fmap_get?_modify, h]

@[simp] theorem fmap_get?_mapVals (f : Nat → α → β) (m : FMap α) (k : Nat) : FMap.get? (FMap.mapVals f m) k = (FMap.get? m k).map (f k) := by
  induction m with
  | nil => rfl
  | cons e r ih =>
    obtain ⟨j, w⟩ := e
    simp only [FMap.mapVals, List.map_cons, FMap.get?] at ih ⊢
    split
    · next h => subst h; rfl
    · exact ih

/-- A table is sorted when its first key lies below every later one, and so on. -/
theorem fmap_wf_cons {e : Nat × α} {r : FMap α} : FMap.wf (e :: r) = true ↔ (∀ x ∈ r, e.1 < x.1) ∧ FMap.wf r = true := by
  obtain ⟨j, v⟩ := e
  induction r generalizing j v with
  | nil => simp [FMap.wf]
  | cons d r ih =>
    obtain ⟨k, w⟩ := d
    simp only [FMap.wf, Bool.and_eq_true, decide_eq_true_eq, ih, List.mem_cons, forall_eq_or_imp]
    constructor
    · rintro ⟨h, hr, hw⟩; exact ⟨⟨h, fun x hx => Nat.lt_trans h (hr x hx)⟩, hr, hw⟩
    · rintro ⟨⟨h, _⟩, hr, hw⟩; exact ⟨h, hr, hw⟩

theorem fmap_mem_set {m : FMap α} {k : Nat} {v : α} {x : Nat × α} (h : x ∈ FMap.set m k v) : x = (k, v) ∨ x ∈ m := by
  induction m with
  | nil => simpa [FMap.set] using h
  | cons e r ih =>
    obtain ⟨j, w⟩ := e
    simp only [FMap.set] at h
    split at h
    · simpa using h
    · split at h
      · simp only [List.mem_cons] at h ⊢; tauto
      · simp only [List.mem_cons] at h ⊢
        rcases h with h | h
        · tauto
        · rcases ih h with h | h <;> tauto

theorem fmap_wf_set {m : FMap α} (k : Nat) (v : α) (h : FMap.wf m = true) : FMap.wf (FMap.set m k v) = true := by
  induction m with
  | nil => rfl
  | cons e r ih =>
    obtain ⟨j, w⟩ := e
    have hc := fmap_wf_cons.mp h
    simp only [FMap.set]
    split
    · refine fmap_wf_cons.mpr ⟨?_, h⟩
      intro x hx
      rcases List.mem_cons.mp hx with rfl | hx
      · assumption
      · exact Nat.lt_trans (by assumption) (hc.1 x hx)
    · split
      · subst_vars; exact fmap_wf_cons.mpr ⟨hc.1, hc.2⟩
      · refine fmap_wf_cons.mpr ⟨?_, ih hc.2⟩
        intro x hx
        rcases fmap_mem_set hx with rfl | hx
        · simp only; omega
        · exact hc.1 x hx

theorem fmap_wf_filter {m : FMap α} (p : Nat × α → Bool) (h : FMap.wf m = true) : FMap.wf (List.filter p m : FMap α) = true := by
  induction m with
  | nil => rfl
  | cons e r ih =>
    have hc := fmap_wf_cons.mp h
    rw [List.filter_cons]
    split
    · exact fmap_wf_cons.mpr ⟨fun x hx => hc.1 x (List.mem_filter.mp hx).1, ih hc.2⟩
    · exact ih hc.2

theorem fmap_wf_keep {m : FMap α} (p : Nat → α → Bool) (h : FMap.wf m = true) : FMap.wf (FMap.keep p m) = true := fmap_wf_filter _ h

theorem fmap_mem_erase {m : FMap α} {k : Nat} {x : Nat × α} (h : x ∈ FMap.erase m k) : x ∈ m := by
  induction m with
  | nil => simp [FMap.erase] at h
  | cons e r ih =>
    obtain ⟨j, w⟩ := e
    simp only [FMap.erase] at h
    split at h
    · exact List.mem_cons_of_mem _ (ih h)
    · rcases List.mem_cons.mp h with rfl | h
      · simp
      · exact List.mem_cons_of_mem _ (ih h)

theorem fmap_wf_erase {m : FMap α} (k : Nat) (h : FMap.wf m = true) : FMap.wf (FMap.erase m k) = true := by
  induction m with
  | nil => rfl
  | cons e r ih =>
    obtain ⟨j, w⟩ := e
    have hc := fmap_wf_cons.mp h
    simp only [FMap.erase]
    split
    · exact ih hc.2
    · exact fmap_wf_cons.mpr ⟨fun x hx => hc.1 x (fmap_mem_erase hx), ih hc.2⟩

theorem fmap_wf_map {m : FMap α} (f : Nat × α → Nat × β) (hf : ∀ e, (f e).1 = e.1) (h : FMap.wf m = true) : FMap.wf (List.map f m : FMap β) = true := by
  induction m with
  | nil => rfl
  | cons e r ih =>
    have hc := fmap_wf_cons.mp h
    refine fmap_wf_cons.mpr ⟨?_, ih hc.2⟩
    intro x hx
    obtain ⟨y, hy, rfl⟩ := List.mem_map.mp hx
    simpa [hf] using hc.1 y hy

theorem fmap_wf_mapVals {m : FMap α} (f : Nat → α → β) (h : FMap.wf m = true) : FMap.wf (FMap.mapVals f m) = true := fmap_wf_map _ (fun _ => rfl) h

theorem fmap_modify_keys (m : FMap α) (k : Nat) (f : α → α) : (FMap.modify m k f).map Prod.fst = m.map Prod.fst := by
  induction m with
  | nil => rfl
  | cons e r ih => obtain ⟨j, w⟩ := e; simp only [FMap.modify]; split <;> simp [ih]

theorem fmap_wf_modify {m : FMap α} (k : Nat) (f : α → α) (h : FMap.wf m = true) : FMap.wf (FMap.modify m k f) = true := by
  induction m with
  | nil => rfl
  | cons e r ih =>
    obtain ⟨j, w⟩ := e
    have hc := fmap_wf_cons.mp h
    simp only [FMap.modify]
    split
    · exact fmap_wf_cons.mpr ⟨hc.1, hc.2⟩
    · refine fmap_wf_cons.mpr ⟨?_, ih hc.2⟩
      intro x hx
      have : x.1 ∈ (FMap.modify r k f).map Prod.fst := List.mem_map_of_mem hx
      rw [fmap_modify_keys] at this
      obtain ⟨y, hy, hxy⟩ := List.mem_map.mp this
      simpa [hxy] using hc.1 y hy

end Sys2Proof.Laws
end

