-- ==== Sys2Proof/Laws/State.lean ====
section
/-! SUPPORT. Every named update of the state, field by field: what it leaves as it was, and what a read gives after it. -/

namespace Sys2Proof.Laws

open Sys2Proof.Machine

@[simp] theorem emit_pending (s : State) (o : Out) : (emit s o).pending = s.pending := rfl
@[simp] theorem emit_now (s : State) (o : Out) : (emit s o).now = s.now := rfl
@[simp] theorem emit_freeCtr (s : State) (o : Out) : (emit s o).freeCtr = s.freeCtr := rfl
@[simp] theorem emit_readData (s : State) (o : Out) : (emit s o).readData = s.readData := rfl
@[simp] theorem emit_fns (s : State) (o : Out) : (emit s o).fns = s.fns := rfl
@[simp] theorem emit_quotas (s : State) (o : Out) : (emit s o).quotas = s.quotas := rfl
@[simp] theorem emit_vfEnable (s : State) (o : Out) : (emit s o).vfEnable = s.vfEnable := rfl
@[simp] theorem emit_flows (s : State) (o : Out) : (emit s o).flows = s.flows := rfl
@[simp] theorem emit_arrivals (s : State) (o : Out) : (emit s o).arrivals = s.arrivals := rfl
@[simp] theorem emit_nextSerial (s : State) (o : Out) : (emit s o).nextSerial = s.nextSerial := rfl
@[simp] theorem emit_irq (s : State) (o : Out) : (emit s o).irq = s.irq := rfl
@[simp] theorem emit_harbour (s : State) (o : Out) : (emit s o).harbour = s.harbour := rfl
@[simp] theorem emit_journal (s : State) (o : Out) : (emit s o).journal = s.journal := rfl
@[simp] theorem emit_crc (s : State) (o : Out) : (emit s o).crc = s.crc := rfl
@[simp] theorem emit_units (s : State) (o : Out) : (emit s o).units = s.units := rfl
@[simp] theorem emit_chans (s : State) (o : Out) : (emit s o).chans = s.chans := rfl
@[simp] theorem emit_outs (s : State) (o : Out) : (emit s o).outs = s.outs := rfl
@[simp] theorem emit_surfs (s : State) (o : Out) : (emit s o).surfs = s.surfs := rfl
@[simp] theorem emit_decs (s : State) (o : Out) : (emit s o).decs = s.decs := rfl
@[simp] theorem emit_decodes (s : State) (o : Out) : (emit s o).decodes = s.decodes := rfl
@[simp] theorem emit_mem (s : State) (o : Out) : (emit s o).mem = s.mem := rfl
@[simp] theorem emit_fab (s : State) (o : Out) : (emit s o).fab = s.fab := rfl
@[simp] theorem emit_net (s : State) (o : Out) : (emit s o).net = s.net := rfl
@[simp] theorem emit_time (s : State) (o : Out) : (emit s o).time = s.time := rfl
@[simp] theorem emit_audio (s : State) (o : Out) : (emit s o).audio = s.audio := rfl
@[simp] theorem emit_pair (s : State) (o : Out) : (emit s o).pair = s.pair := rfl
@[simp] theorem emit_upd (s : State) (o : Out) : (emit s o).upd = s.upd := rfl
@[simp] theorem emit_power (s : State) (o : Out) : (emit s o).power = s.power := rfl

@[simp] theorem spendFree_pending (s : State) : (spendFree s).pending = s.pending := rfl
@[simp] theorem spendFree_now (s : State) : (spendFree s).now = s.now := rfl
@[simp] theorem spendFree_outbox (s : State) : (spendFree s).outbox = s.outbox := rfl
@[simp] theorem spendFree_readData (s : State) : (spendFree s).readData = s.readData := rfl
@[simp] theorem spendFree_fns (s : State) : (spendFree s).fns = s.fns := rfl
@[simp] theorem spendFree_quotas (s : State) : (spendFree s).quotas = s.quotas := rfl
@[simp] theorem spendFree_vfEnable (s : State) : (spendFree s).vfEnable = s.vfEnable := rfl
@[simp] theorem spendFree_flows (s : State) : (spendFree s).flows = s.flows := rfl
@[simp] theorem spendFree_arrivals (s : State) : (spendFree s).arrivals = s.arrivals := rfl
@[simp] theorem spendFree_nextSerial (s : State) : (spendFree s).nextSerial = s.nextSerial := rfl
@[simp] theorem spendFree_irq (s : State) : (spendFree s).irq = s.irq := rfl
@[simp] theorem spendFree_harbour (s : State) : (spendFree s).harbour = s.harbour := rfl
@[simp] theorem spendFree_journal (s : State) : (spendFree s).journal = s.journal := rfl
@[simp] theorem spendFree_crc (s : State) : (spendFree s).crc = s.crc := rfl
@[simp] theorem spendFree_units (s : State) : (spendFree s).units = s.units := rfl
@[simp] theorem spendFree_chans (s : State) : (spendFree s).chans = s.chans := rfl
@[simp] theorem spendFree_outs (s : State) : (spendFree s).outs = s.outs := rfl
@[simp] theorem spendFree_surfs (s : State) : (spendFree s).surfs = s.surfs := rfl
@[simp] theorem spendFree_decs (s : State) : (spendFree s).decs = s.decs := rfl
@[simp] theorem spendFree_decodes (s : State) : (spendFree s).decodes = s.decodes := rfl
@[simp] theorem spendFree_mem (s : State) : (spendFree s).mem = s.mem := rfl
@[simp] theorem spendFree_fab (s : State) : (spendFree s).fab = s.fab := rfl
@[simp] theorem spendFree_net (s : State) : (spendFree s).net = s.net := rfl
@[simp] theorem spendFree_time (s : State) : (spendFree s).time = s.time := rfl
@[simp] theorem spendFree_audio (s : State) : (spendFree s).audio = s.audio := rfl
@[simp] theorem spendFree_pair (s : State) : (spendFree s).pair = s.pair := rfl
@[simp] theorem spendFree_upd (s : State) : (spendFree s).upd = s.upd := rfl
@[simp] theorem spendFree_power (s : State) : (spendFree s).power = s.power := rfl

@[simp] theorem advance_pending (dt : Nat) (s : State) : (advance dt s).pending = s.pending := rfl
@[simp] theorem advance_freeCtr (dt : Nat) (s : State) : (advance dt s).freeCtr = s.freeCtr := rfl
@[simp] theorem advance_outbox (dt : Nat) (s : State) : (advance dt s).outbox = s.outbox := rfl
@[simp] theorem advance_readData (dt : Nat) (s : State) : (advance dt s).readData = s.readData := rfl
@[simp] theorem advance_fns (dt : Nat) (s : State) : (advance dt s).fns = s.fns := rfl
@[simp] theorem advance_quotas (dt : Nat) (s : State) : (advance dt s).quotas = s.quotas := rfl
@[simp] theorem advance_vfEnable (dt : Nat) (s : State) : (advance dt s).vfEnable = s.vfEnable := rfl
@[simp] theorem advance_flows (dt : Nat) (s : State) : (advance dt s).flows = s.flows := rfl
@[simp] theorem advance_arrivals (dt : Nat) (s : State) : (advance dt s).arrivals = s.arrivals := rfl
@[simp] theorem advance_nextSerial (dt : Nat) (s : State) : (advance dt s).nextSerial = s.nextSerial := rfl
@[simp] theorem advance_irq (dt : Nat) (s : State) : (advance dt s).irq = s.irq := rfl
@[simp] theorem advance_harbour (dt : Nat) (s : State) : (advance dt s).harbour = s.harbour := rfl
@[simp] theorem advance_journal (dt : Nat) (s : State) : (advance dt s).journal = s.journal := rfl
@[simp] theorem advance_crc (dt : Nat) (s : State) : (advance dt s).crc = s.crc := rfl
@[simp] theorem advance_units (dt : Nat) (s : State) : (advance dt s).units = s.units := rfl
@[simp] theorem advance_chans (dt : Nat) (s : State) : (advance dt s).chans = s.chans := rfl
@[simp] theorem advance_outs (dt : Nat) (s : State) : (advance dt s).outs = s.outs := rfl
@[simp] theorem advance_surfs (dt : Nat) (s : State) : (advance dt s).surfs = s.surfs := rfl
@[simp] theorem advance_decs (dt : Nat) (s : State) : (advance dt s).decs = s.decs := rfl
@[simp] theorem advance_decodes (dt : Nat) (s : State) : (advance dt s).decodes = s.decodes := rfl
@[simp] theorem advance_mem (dt : Nat) (s : State) : (advance dt s).mem = s.mem := rfl
@[simp] theorem advance_fab (dt : Nat) (s : State) : (advance dt s).fab = s.fab := rfl
@[simp] theorem advance_net (dt : Nat) (s : State) : (advance dt s).net = s.net := rfl
@[simp] theorem advance_audio (dt : Nat) (s : State) : (advance dt s).audio = s.audio := rfl
@[simp] theorem advance_pair (dt : Nat) (s : State) : (advance dt s).pair = s.pair := rfl
@[simp] theorem advance_upd (dt : Nat) (s : State) : (advance dt s).upd = s.upd := rfl
@[simp] theorem advance_power (dt : Nat) (s : State) : (advance dt s).power = s.power := rfl

@[simp] theorem setFn_pending (s : State) (f : Nat) (x : FnState) : (setFn s f x).pending = s.pending := rfl
@[simp] theorem setFn_now (s : State) (f : Nat) (x : FnState) : (setFn s f x).now = s.now := rfl
@[simp] theorem setFn_freeCtr (s : State) (f : Nat) (x : FnState) : (setFn s f x).freeCtr = s.freeCtr := rfl
@[simp] theorem setFn_outbox (s : State) (f : Nat) (x : FnState) : (setFn s f x).outbox = s.outbox := rfl
@[simp] theorem setFn_readData (s : State) (f : Nat) (x : FnState) : (setFn s f x).readData = s.readData := rfl
@[simp] theorem setFn_quotas (s : State) (f : Nat) (x : FnState) : (setFn s f x).quotas = s.quotas := rfl
@[simp] theorem setFn_vfEnable (s : State) (f : Nat) (x : FnState) : (setFn s f x).vfEnable = s.vfEnable := rfl
@[simp] theorem setFn_flows (s : State) (f : Nat) (x : FnState) : (setFn s f x).flows = s.flows := rfl
@[simp] theorem setFn_arrivals (s : State) (f : Nat) (x : FnState) : (setFn s f x).arrivals = s.arrivals := rfl
@[simp] theorem setFn_nextSerial (s : State) (f : Nat) (x : FnState) : (setFn s f x).nextSerial = s.nextSerial := rfl
@[simp] theorem setFn_irq (s : State) (f : Nat) (x : FnState) : (setFn s f x).irq = s.irq := rfl
@[simp] theorem setFn_harbour (s : State) (f : Nat) (x : FnState) : (setFn s f x).harbour = s.harbour := rfl
@[simp] theorem setFn_journal (s : State) (f : Nat) (x : FnState) : (setFn s f x).journal = s.journal := rfl
@[simp] theorem setFn_crc (s : State) (f : Nat) (x : FnState) : (setFn s f x).crc = s.crc := rfl
@[simp] theorem setFn_units (s : State) (f : Nat) (x : FnState) : (setFn s f x).units = s.units := rfl
@[simp] theorem setFn_chans (s : State) (f : Nat) (x : FnState) : (setFn s f x).chans = s.chans := rfl
@[simp] theorem setFn_outs (s : State) (f : Nat) (x : FnState) : (setFn s f x).outs = s.outs := rfl
@[simp] theorem setFn_surfs (s : State) (f : Nat) (x : FnState) : (setFn s f x).surfs = s.surfs := rfl
@[simp] theorem setFn_decs (s : State) (f : Nat) (x : FnState) : (setFn s f x).decs = s.decs := rfl
@[simp] theorem setFn_decodes (s : State) (f : Nat) (x : FnState) : (setFn s f x).decodes = s.decodes := rfl
@[simp] theorem setFn_mem (s : State) (f : Nat) (x : FnState) : (setFn s f x).mem = s.mem := rfl
@[simp] theorem setFn_fab (s : State) (f : Nat) (x : FnState) : (setFn s f x).fab = s.fab := rfl
@[simp] theorem setFn_net (s : State) (f : Nat) (x : FnState) : (setFn s f x).net = s.net := rfl
@[simp] theorem setFn_time (s : State) (f : Nat) (x : FnState) : (setFn s f x).time = s.time := rfl
@[simp] theorem setFn_audio (s : State) (f : Nat) (x : FnState) : (setFn s f x).audio = s.audio := rfl
@[simp] theorem setFn_pair (s : State) (f : Nat) (x : FnState) : (setFn s f x).pair = s.pair := rfl
@[simp] theorem setFn_upd (s : State) (f : Nat) (x : FnState) : (setFn s f x).upd = s.upd := rfl
@[simp] theorem setFn_power (s : State) (f : Nat) (x : FnState) : (setFn s f x).power = s.power := rfl

@[simp] theorem modFn_pending (s : State) (f : Nat) (g : FnState → FnState) : (modFn s f g).pending = s.pending := rfl
@[simp] theorem modFn_now (s : State) (f : Nat) (g : FnState → FnState) : (modFn s f g).now = s.now := rfl
@[simp] theorem modFn_freeCtr (s : State) (f : Nat) (g : FnState → FnState) : (modFn s f g).freeCtr = s.freeCtr := rfl
@[simp] theorem modFn_outbox (s : State) (f : Nat) (g : FnState → FnState) : (modFn s f g).outbox = s.outbox := rfl
@[simp] theorem modFn_readData (s : State) (f : Nat) (g : FnState → FnState) : (modFn s f g).readData = s.readData := rfl
@[simp] theorem modFn_quotas (s : State) (f : Nat) (g : FnState → FnState) : (modFn s f g).quotas = s.quotas := rfl
@[simp] theorem modFn_vfEnable (s : State) (f : Nat) (g : FnState → FnState) : (modFn s f g).vfEnable = s.vfEnable := rfl
@[simp] theorem modFn_flows (s : State) (f : Nat) (g : FnState → FnState) : (modFn s f g).flows = s.flows := rfl
@[simp] theorem modFn_arrivals (s : State) (f : Nat) (g : FnState → FnState) : (modFn s f g).arrivals = s.arrivals := rfl
@[simp] theorem modFn_nextSerial (s : State) (f : Nat) (g : FnState → FnState) : (modFn s f g).nextSerial = s.nextSerial := rfl
@[simp] theorem modFn_irq (s : State) (f : Nat) (g : FnState → FnState) : (modFn s f g).irq = s.irq := rfl
@[simp] theorem modFn_harbour (s : State) (f : Nat) (g : FnState → FnState) : (modFn s f g).harbour = s.harbour := rfl
@[simp] theorem modFn_journal (s : State) (f : Nat) (g : FnState → FnState) : (modFn s f g).journal = s.journal := rfl
@[simp] theorem modFn_crc (s : State) (f : Nat) (g : FnState → FnState) : (modFn s f g).crc = s.crc := rfl
@[simp] theorem modFn_units (s : State) (f : Nat) (g : FnState → FnState) : (modFn s f g).units = s.units := rfl
@[simp] theorem modFn_chans (s : State) (f : Nat) (g : FnState → FnState) : (modFn s f g).chans = s.chans := rfl
@[simp] theorem modFn_outs (s : State) (f : Nat) (g : FnState → FnState) : (modFn s f g).outs = s.outs := rfl
@[simp] theorem modFn_surfs (s : State) (f : Nat) (g : FnState → FnState) : (modFn s f g).surfs = s.surfs := rfl
@[simp] theorem modFn_decs (s : State) (f : Nat) (g : FnState → FnState) : (modFn s f g).decs = s.decs := rfl
@[simp] theorem modFn_decodes (s : State) (f : Nat) (g : FnState → FnState) : (modFn s f g).decodes = s.decodes := rfl
@[simp] theorem modFn_mem (s : State) (f : Nat) (g : FnState → FnState) : (modFn s f g).mem = s.mem := rfl
@[simp] theorem modFn_fab (s : State) (f : Nat) (g : FnState → FnState) : (modFn s f g).fab = s.fab := rfl
@[simp] theorem modFn_net (s : State) (f : Nat) (g : FnState → FnState) : (modFn s f g).net = s.net := rfl
@[simp] theorem modFn_time (s : State) (f : Nat) (g : FnState → FnState) : (modFn s f g).time = s.time := rfl
@[simp] theorem modFn_audio (s : State) (f : Nat) (g : FnState → FnState) : (modFn s f g).audio = s.audio := rfl
@[simp] theorem modFn_pair (s : State) (f : Nat) (g : FnState → FnState) : (modFn s f g).pair = s.pair := rfl
@[simp] theorem modFn_upd (s : State) (f : Nat) (g : FnState → FnState) : (modFn s f g).upd = s.upd := rfl
@[simp] theorem modFn_power (s : State) (f : Nat) (g : FnState → FnState) : (modFn s f g).power = s.power := rfl

@[simp] theorem setFlow_pending (s : State) (k : Nat) (l : List Cmd) : (setFlow s k l).pending = s.pending := rfl
@[simp] theorem setFlow_now (s : State) (k : Nat) (l : List Cmd) : (setFlow s k l).now = s.now := rfl
@[simp] theorem setFlow_freeCtr (s : State) (k : Nat) (l : List Cmd) : (setFlow s k l).freeCtr = s.freeCtr := rfl
@[simp] theorem setFlow_outbox (s : State) (k : Nat) (l : List Cmd) : (setFlow s k l).outbox = s.outbox := rfl
@[simp] theorem setFlow_readData (s : State) (k : Nat) (l : List Cmd) : (setFlow s k l).readData = s.readData := rfl
@[simp] theorem setFlow_fns (s : State) (k : Nat) (l : List Cmd) : (setFlow s k l).fns = s.fns := rfl
@[simp] theorem setFlow_quotas (s : State) (k : Nat) (l : List Cmd) : (setFlow s k l).quotas = s.quotas := rfl
@[simp] theorem setFlow_vfEnable (s : State) (k : Nat) (l : List Cmd) : (setFlow s k l).vfEnable = s.vfEnable := rfl
@[simp] theorem setFlow_arrivals (s : State) (k : Nat) (l : List Cmd) : (setFlow s k l).arrivals = s.arrivals := rfl
@[simp] theorem setFlow_nextSerial (s : State) (k : Nat) (l : List Cmd) : (setFlow s k l).nextSerial = s.nextSerial := rfl
@[simp] theorem setFlow_irq (s : State) (k : Nat) (l : List Cmd) : (setFlow s k l).irq = s.irq := rfl
@[simp] theorem setFlow_harbour (s : State) (k : Nat) (l : List Cmd) : (setFlow s k l).harbour = s.harbour := rfl
@[simp] theorem setFlow_journal (s : State) (k : Nat) (l : List Cmd) : (setFlow s k l).journal = s.journal := rfl
@[simp] theorem setFlow_crc (s : State) (k : Nat) (l : List Cmd) : (setFlow s k l).crc = s.crc := rfl
@[simp] theorem setFlow_units (s : State) (k : Nat) (l : List Cmd) : (setFlow s k l).units = s.units := rfl
@[simp] theorem setFlow_chans (s : State) (k : Nat) (l : List Cmd) : (setFlow s k l).chans = s.chans := rfl
@[simp] theorem setFlow_outs (s : State) (k : Nat) (l : List Cmd) : (setFlow s k l).outs = s.outs := rfl
@[simp] theorem setFlow_surfs (s : State) (k : Nat) (l : List Cmd) : (setFlow s k l).surfs = s.surfs := rfl
@[simp] theorem setFlow_decs (s : State) (k : Nat) (l : List Cmd) : (setFlow s k l).decs = s.decs := rfl
@[simp] theorem setFlow_decodes (s : State) (k : Nat) (l : List Cmd) : (setFlow s k l).decodes = s.decodes := rfl
@[simp] theorem setFlow_mem (s : State) (k : Nat) (l : List Cmd) : (setFlow s k l).mem = s.mem := rfl
@[simp] theorem setFlow_fab (s : State) (k : Nat) (l : List Cmd) : (setFlow s k l).fab = s.fab := rfl
@[simp] theorem setFlow_net (s : State) (k : Nat) (l : List Cmd) : (setFlow s k l).net = s.net := rfl
@[simp] theorem setFlow_time (s : State) (k : Nat) (l : List Cmd) : (setFlow s k l).time = s.time := rfl
@[simp] theorem setFlow_audio (s : State) (k : Nat) (l : List Cmd) : (setFlow s k l).audio = s.audio := rfl
@[simp] theorem setFlow_pair (s : State) (k : Nat) (l : List Cmd) : (setFlow s k l).pair = s.pair := rfl
@[simp] theorem setFlow_upd (s : State) (k : Nat) (l : List Cmd) : (setFlow s k l).upd = s.upd := rfl
@[simp] theorem setFlow_power (s : State) (k : Nat) (l : List Cmd) : (setFlow s k l).power = s.power := rfl

@[simp] theorem journalAdd_pending (s : State) (a b c d e g : Nat) : (journalAdd s a b c d e g).pending = s.pending := rfl
@[simp] theorem journalAdd_now (s : State) (a b c d e g : Nat) : (journalAdd s a b c d e g).now = s.now := rfl
@[simp] theorem journalAdd_freeCtr (s : State) (a b c d e g : Nat) : (journalAdd s a b c d e g).freeCtr = s.freeCtr := rfl
@[simp] theorem journalAdd_outbox (s : State) (a b c d e g : Nat) : (journalAdd s a b c d e g).outbox = s.outbox := rfl
@[simp] theorem journalAdd_readData (s : State) (a b c d e g : Nat) : (journalAdd s a b c d e g).readData = s.readData := rfl
@[simp] theorem journalAdd_fns (s : State) (a b c d e g : Nat) : (journalAdd s a b c d e g).fns = s.fns := rfl
@[simp] theorem journalAdd_quotas (s : State) (a b c d e g : Nat) : (journalAdd s a b c d e g).quotas = s.quotas := rfl
@[simp] theorem journalAdd_vfEnable (s : State) (a b c d e g : Nat) : (journalAdd s a b c d e g).vfEnable = s.vfEnable := rfl
@[simp] theorem journalAdd_flows (s : State) (a b c d e g : Nat) : (journalAdd s a b c d e g).flows = s.flows := rfl
@[simp] theorem journalAdd_arrivals (s : State) (a b c d e g : Nat) : (journalAdd s a b c d e g).arrivals = s.arrivals := rfl
@[simp] theorem journalAdd_nextSerial (s : State) (a b c d e g : Nat) : (journalAdd s a b c d e g).nextSerial = s.nextSerial := rfl
@[simp] theorem journalAdd_irq (s : State) (a b c d e g : Nat) : (journalAdd s a b c d e g).irq = s.irq := rfl
@[simp] theorem journalAdd_harbour (s : State) (a b c d e g : Nat) : (journalAdd s a b c d e g).harbour = s.harbour := rfl
@[simp] theorem journalAdd_crc (s : State) (a b c d e g : Nat) : (journalAdd s a b c d e g).crc = s.crc := rfl
@[simp] theorem journalAdd_units (s : State) (a b c d e g : Nat) : (journalAdd s a b c d e g).units = s.units := rfl
@[simp] theorem journalAdd_chans (s : State) (a b c d e g : Nat) : (journalAdd s a b c d e g).chans = s.chans := rfl
@[simp] theorem journalAdd_outs (s : State) (a b c d e g : Nat) : (journalAdd s a b c d e g).outs = s.outs := rfl
@[simp] theorem journalAdd_surfs (s : State) (a b c d e g : Nat) : (journalAdd s a b c d e g).surfs = s.surfs := rfl
@[simp] theorem journalAdd_decs (s : State) (a b c d e g : Nat) : (journalAdd s a b c d e g).decs = s.decs := rfl
@[simp] theorem journalAdd_decodes (s : State) (a b c d e g : Nat) : (journalAdd s a b c d e g).decodes = s.decodes := rfl
@[simp] theorem journalAdd_mem (s : State) (a b c d e g : Nat) : (journalAdd s a b c d e g).mem = s.mem := rfl
@[simp] theorem journalAdd_fab (s : State) (a b c d e g : Nat) : (journalAdd s a b c d e g).fab = s.fab := rfl
@[simp] theorem journalAdd_net (s : State) (a b c d e g : Nat) : (journalAdd s a b c d e g).net = s.net := rfl
@[simp] theorem journalAdd_time (s : State) (a b c d e g : Nat) : (journalAdd s a b c d e g).time = s.time := rfl
@[simp] theorem journalAdd_audio (s : State) (a b c d e g : Nat) : (journalAdd s a b c d e g).audio = s.audio := rfl
@[simp] theorem journalAdd_pair (s : State) (a b c d e g : Nat) : (journalAdd s a b c d e g).pair = s.pair := rfl
@[simp] theorem journalAdd_upd (s : State) (a b c d e g : Nat) : (journalAdd s a b c d e g).upd = s.upd := rfl
@[simp] theorem journalAdd_power (s : State) (a b c d e g : Nat) : (journalAdd s a b c d e g).power = s.power := rfl

@[simp] theorem countFault_pending (s : State) (a : Nat) : (countFault s a).pending = s.pending := rfl
@[simp] theorem countFault_now (s : State) (a : Nat) : (countFault s a).now = s.now := rfl
@[simp] theorem countFault_freeCtr (s : State) (a : Nat) : (countFault s a).freeCtr = s.freeCtr := rfl
@[simp] theorem countFault_outbox (s : State) (a : Nat) : (countFault s a).outbox = s.outbox := rfl
@[simp] theorem countFault_readData (s : State) (a : Nat) : (countFault s a).readData = s.readData := rfl
@[simp] theorem countFault_fns (s : State) (a : Nat) : (countFault s a).fns = s.fns := rfl
@[simp] theorem countFault_quotas (s : State) (a : Nat) : (countFault s a).quotas = s.quotas := rfl
@[simp] theorem countFault_vfEnable (s : State) (a : Nat) : (countFault s a).vfEnable = s.vfEnable := rfl
@[simp] theorem countFault_flows (s : State) (a : Nat) : (countFault s a).flows = s.flows := rfl
@[simp] theorem countFault_arrivals (s : State) (a : Nat) : (countFault s a).arrivals = s.arrivals := rfl
@[simp] theorem countFault_nextSerial (s : State) (a : Nat) : (countFault s a).nextSerial = s.nextSerial := rfl
@[simp] theorem countFault_irq (s : State) (a : Nat) : (countFault s a).irq = s.irq := rfl
@[simp] theorem countFault_harbour (s : State) (a : Nat) : (countFault s a).harbour = s.harbour := rfl
@[simp] theorem countFault_crc (s : State) (a : Nat) : (countFault s a).crc = s.crc := rfl
@[simp] theorem countFault_units (s : State) (a : Nat) : (countFault s a).units = s.units := rfl
@[simp] theorem countFault_chans (s : State) (a : Nat) : (countFault s a).chans = s.chans := rfl
@[simp] theorem countFault_outs (s : State) (a : Nat) : (countFault s a).outs = s.outs := rfl
@[simp] theorem countFault_surfs (s : State) (a : Nat) : (countFault s a).surfs = s.surfs := rfl
@[simp] theorem countFault_decs (s : State) (a : Nat) : (countFault s a).decs = s.decs := rfl
@[simp] theorem countFault_decodes (s : State) (a : Nat) : (countFault s a).decodes = s.decodes := rfl
@[simp] theorem countFault_mem (s : State) (a : Nat) : (countFault s a).mem = s.mem := rfl
@[simp] theorem countFault_fab (s : State) (a : Nat) : (countFault s a).fab = s.fab := rfl
@[simp] theorem countFault_net (s : State) (a : Nat) : (countFault s a).net = s.net := rfl
@[simp] theorem countFault_time (s : State) (a : Nat) : (countFault s a).time = s.time := rfl
@[simp] theorem countFault_audio (s : State) (a : Nat) : (countFault s a).audio = s.audio := rfl
@[simp] theorem countFault_pair (s : State) (a : Nat) : (countFault s a).pair = s.pair := rfl
@[simp] theorem countFault_upd (s : State) (a : Nat) : (countFault s a).upd = s.upd := rfl
@[simp] theorem countFault_power (s : State) (a : Nat) : (countFault s a).power = s.power := rfl

@[simp] theorem setChan_pending (s : State) (k : Nat) (x : Chan) : (setChan s k x).pending = s.pending := rfl
@[simp] theorem setChan_now (s : State) (k : Nat) (x : Chan) : (setChan s k x).now = s.now := rfl
@[simp] theorem setChan_freeCtr (s : State) (k : Nat) (x : Chan) : (setChan s k x).freeCtr = s.freeCtr := rfl
@[simp] theorem setChan_outbox (s : State) (k : Nat) (x : Chan) : (setChan s k x).outbox = s.outbox := rfl
@[simp] theorem setChan_readData (s : State) (k : Nat) (x : Chan) : (setChan s k x).readData = s.readData := rfl
@[simp] theorem setChan_fns (s : State) (k : Nat) (x : Chan) : (setChan s k x).fns = s.fns := rfl
@[simp] theorem setChan_quotas (s : State) (k : Nat) (x : Chan) : (setChan s k x).quotas = s.quotas := rfl
@[simp] theorem setChan_vfEnable (s : State) (k : Nat) (x : Chan) : (setChan s k x).vfEnable = s.vfEnable := rfl
@[simp] theorem setChan_flows (s : State) (k : Nat) (x : Chan) : (setChan s k x).flows = s.flows := rfl
@[simp] theorem setChan_arrivals (s : State) (k : Nat) (x : Chan) : (setChan s k x).arrivals = s.arrivals := rfl
@[simp] theorem setChan_nextSerial (s : State) (k : Nat) (x : Chan) : (setChan s k x).nextSerial = s.nextSerial := rfl
@[simp] theorem setChan_irq (s : State) (k : Nat) (x : Chan) : (setChan s k x).irq = s.irq := rfl
@[simp] theorem setChan_harbour (s : State) (k : Nat) (x : Chan) : (setChan s k x).harbour = s.harbour := rfl
@[simp] theorem setChan_journal (s : State) (k : Nat) (x : Chan) : (setChan s k x).journal = s.journal := rfl
@[simp] theorem setChan_crc (s : State) (k : Nat) (x : Chan) : (setChan s k x).crc = s.crc := rfl
@[simp] theorem setChan_units (s : State) (k : Nat) (x : Chan) : (setChan s k x).units = s.units := rfl
@[simp] theorem setChan_outs (s : State) (k : Nat) (x : Chan) : (setChan s k x).outs = s.outs := rfl
@[simp] theorem setChan_surfs (s : State) (k : Nat) (x : Chan) : (setChan s k x).surfs = s.surfs := rfl
@[simp] theorem setChan_decs (s : State) (k : Nat) (x : Chan) : (setChan s k x).decs = s.decs := rfl
@[simp] theorem setChan_decodes (s : State) (k : Nat) (x : Chan) : (setChan s k x).decodes = s.decodes := rfl
@[simp] theorem setChan_mem (s : State) (k : Nat) (x : Chan) : (setChan s k x).mem = s.mem := rfl
@[simp] theorem setChan_fab (s : State) (k : Nat) (x : Chan) : (setChan s k x).fab = s.fab := rfl
@[simp] theorem setChan_net (s : State) (k : Nat) (x : Chan) : (setChan s k x).net = s.net := rfl
@[simp] theorem setChan_time (s : State) (k : Nat) (x : Chan) : (setChan s k x).time = s.time := rfl
@[simp] theorem setChan_audio (s : State) (k : Nat) (x : Chan) : (setChan s k x).audio = s.audio := rfl
@[simp] theorem setChan_pair (s : State) (k : Nat) (x : Chan) : (setChan s k x).pair = s.pair := rfl
@[simp] theorem setChan_upd (s : State) (k : Nat) (x : Chan) : (setChan s k x).upd = s.upd := rfl
@[simp] theorem setChan_power (s : State) (k : Nat) (x : Chan) : (setChan s k x).power = s.power := rfl

@[simp] theorem setOut_pending (s : State) (k : Nat) (x : Output) : (setOut s k x).pending = s.pending := rfl
@[simp] theorem setOut_now (s : State) (k : Nat) (x : Output) : (setOut s k x).now = s.now := rfl
@[simp] theorem setOut_freeCtr (s : State) (k : Nat) (x : Output) : (setOut s k x).freeCtr = s.freeCtr := rfl
@[simp] theorem setOut_outbox (s : State) (k : Nat) (x : Output) : (setOut s k x).outbox = s.outbox := rfl
@[simp] theorem setOut_readData (s : State) (k : Nat) (x : Output) : (setOut s k x).readData = s.readData := rfl
@[simp] theorem setOut_fns (s : State) (k : Nat) (x : Output) : (setOut s k x).fns = s.fns := rfl
@[simp] theorem setOut_quotas (s : State) (k : Nat) (x : Output) : (setOut s k x).quotas = s.quotas := rfl
@[simp] theorem setOut_vfEnable (s : State) (k : Nat) (x : Output) : (setOut s k x).vfEnable = s.vfEnable := rfl
@[simp] theorem setOut_flows (s : State) (k : Nat) (x : Output) : (setOut s k x).flows = s.flows := rfl
@[simp] theorem setOut_arrivals (s : State) (k : Nat) (x : Output) : (setOut s k x).arrivals = s.arrivals := rfl
@[simp] theorem setOut_nextSerial (s : State) (k : Nat) (x : Output) : (setOut s k x).nextSerial = s.nextSerial := rfl
@[simp] theorem setOut_irq (s : State) (k : Nat) (x : Output) : (setOut s k x).irq = s.irq := rfl
@[simp] theorem setOut_harbour (s : State) (k : Nat) (x : Output) : (setOut s k x).harbour = s.harbour := rfl
@[simp] theorem setOut_journal (s : State) (k : Nat) (x : Output) : (setOut s k x).journal = s.journal := rfl
@[simp] theorem setOut_crc (s : State) (k : Nat) (x : Output) : (setOut s k x).crc = s.crc := rfl
@[simp] theorem setOut_units (s : State) (k : Nat) (x : Output) : (setOut s k x).units = s.units := rfl
@[simp] theorem setOut_chans (s : State) (k : Nat) (x : Output) : (setOut s k x).chans = s.chans := rfl
@[simp] theorem setOut_surfs (s : State) (k : Nat) (x : Output) : (setOut s k x).surfs = s.surfs := rfl
@[simp] theorem setOut_decs (s : State) (k : Nat) (x : Output) : (setOut s k x).decs = s.decs := rfl
@[simp] theorem setOut_decodes (s : State) (k : Nat) (x : Output) : (setOut s k x).decodes = s.decodes := rfl
@[simp] theorem setOut_mem (s : State) (k : Nat) (x : Output) : (setOut s k x).mem = s.mem := rfl
@[simp] theorem setOut_fab (s : State) (k : Nat) (x : Output) : (setOut s k x).fab = s.fab := rfl
@[simp] theorem setOut_net (s : State) (k : Nat) (x : Output) : (setOut s k x).net = s.net := rfl
@[simp] theorem setOut_time (s : State) (k : Nat) (x : Output) : (setOut s k x).time = s.time := rfl
@[simp] theorem setOut_audio (s : State) (k : Nat) (x : Output) : (setOut s k x).audio = s.audio := rfl
@[simp] theorem setOut_pair (s : State) (k : Nat) (x : Output) : (setOut s k x).pair = s.pair := rfl
@[simp] theorem setOut_upd (s : State) (k : Nat) (x : Output) : (setOut s k x).upd = s.upd := rfl
@[simp] theorem setOut_power (s : State) (k : Nat) (x : Output) : (setOut s k x).power = s.power := rfl

@[simp] theorem setSurf_pending (s : State) (k : Nat) (x : Surface) : (setSurf s k x).pending = s.pending := rfl
@[simp] theorem setSurf_now (s : State) (k : Nat) (x : Surface) : (setSurf s k x).now = s.now := rfl
@[simp] theorem setSurf_freeCtr (s : State) (k : Nat) (x : Surface) : (setSurf s k x).freeCtr = s.freeCtr := rfl
@[simp] theorem setSurf_outbox (s : State) (k : Nat) (x : Surface) : (setSurf s k x).outbox = s.outbox := rfl
@[simp] theorem setSurf_readData (s : State) (k : Nat) (x : Surface) : (setSurf s k x).readData = s.readData := rfl
@[simp] theorem setSurf_fns (s : State) (k : Nat) (x : Surface) : (setSurf s k x).fns = s.fns := rfl
@[simp] theorem setSurf_quotas (s : State) (k : Nat) (x : Surface) : (setSurf s k x).quotas = s.quotas := rfl
@[simp] theorem setSurf_vfEnable (s : State) (k : Nat) (x : Surface) : (setSurf s k x).vfEnable = s.vfEnable := rfl
@[simp] theorem setSurf_flows (s : State) (k : Nat) (x : Surface) : (setSurf s k x).flows = s.flows := rfl
@[simp] theorem setSurf_arrivals (s : State) (k : Nat) (x : Surface) : (setSurf s k x).arrivals = s.arrivals := rfl
@[simp] theorem setSurf_nextSerial (s : State) (k : Nat) (x : Surface) : (setSurf s k x).nextSerial = s.nextSerial := rfl
@[simp] theorem setSurf_irq (s : State) (k : Nat) (x : Surface) : (setSurf s k x).irq = s.irq := rfl
@[simp] theorem setSurf_harbour (s : State) (k : Nat) (x : Surface) : (setSurf s k x).harbour = s.harbour := rfl
@[simp] theorem setSurf_journal (s : State) (k : Nat) (x : Surface) : (setSurf s k x).journal = s.journal := rfl
@[simp] theorem setSurf_crc (s : State) (k : Nat) (x : Surface) : (setSurf s k x).crc = s.crc := rfl
@[simp] theorem setSurf_units (s : State) (k : Nat) (x : Surface) : (setSurf s k x).units = s.units := rfl
@[simp] theorem setSurf_chans (s : State) (k : Nat) (x : Surface) : (setSurf s k x).chans = s.chans := rfl
@[simp] theorem setSurf_outs (s : State) (k : Nat) (x : Surface) : (setSurf s k x).outs = s.outs := rfl
@[simp] theorem setSurf_decs (s : State) (k : Nat) (x : Surface) : (setSurf s k x).decs = s.decs := rfl
@[simp] theorem setSurf_decodes (s : State) (k : Nat) (x : Surface) : (setSurf s k x).decodes = s.decodes := rfl
@[simp] theorem setSurf_mem (s : State) (k : Nat) (x : Surface) : (setSurf s k x).mem = s.mem := rfl
@[simp] theorem setSurf_fab (s : State) (k : Nat) (x : Surface) : (setSurf s k x).fab = s.fab := rfl
@[simp] theorem setSurf_net (s : State) (k : Nat) (x : Surface) : (setSurf s k x).net = s.net := rfl
@[simp] theorem setSurf_time (s : State) (k : Nat) (x : Surface) : (setSurf s k x).time = s.time := rfl
@[simp] theorem setSurf_audio (s : State) (k : Nat) (x : Surface) : (setSurf s k x).audio = s.audio := rfl
@[simp] theorem setSurf_pair (s : State) (k : Nat) (x : Surface) : (setSurf s k x).pair = s.pair := rfl
@[simp] theorem setSurf_upd (s : State) (k : Nat) (x : Surface) : (setSurf s k x).upd = s.upd := rfl
@[simp] theorem setSurf_power (s : State) (k : Nat) (x : Surface) : (setSurf s k x).power = s.power := rfl

@[simp] theorem setDec_pending (s : State) (k : Nat) (x : Decoder) : (setDec s k x).pending = s.pending := rfl
@[simp] theorem setDec_now (s : State) (k : Nat) (x : Decoder) : (setDec s k x).now = s.now := rfl
@[simp] theorem setDec_freeCtr (s : State) (k : Nat) (x : Decoder) : (setDec s k x).freeCtr = s.freeCtr := rfl
@[simp] theorem setDec_outbox (s : State) (k : Nat) (x : Decoder) : (setDec s k x).outbox = s.outbox := rfl
@[simp] theorem setDec_readData (s : State) (k : Nat) (x : Decoder) : (setDec s k x).readData = s.readData := rfl
@[simp] theorem setDec_fns (s : State) (k : Nat) (x : Decoder) : (setDec s k x).fns = s.fns := rfl
@[simp] theorem setDec_quotas (s : State) (k : Nat) (x : Decoder) : (setDec s k x).quotas = s.quotas := rfl
@[simp] theorem setDec_vfEnable (s : State) (k : Nat) (x : Decoder) : (setDec s k x).vfEnable = s.vfEnable := rfl
@[simp] theorem setDec_flows (s : State) (k : Nat) (x : Decoder) : (setDec s k x).flows = s.flows := rfl
@[simp] theorem setDec_arrivals (s : State) (k : Nat) (x : Decoder) : (setDec s k x).arrivals = s.arrivals := rfl
@[simp] theorem setDec_nextSerial (s : State) (k : Nat) (x : Decoder) : (setDec s k x).nextSerial = s.nextSerial := rfl
@[simp] theorem setDec_irq (s : State) (k : Nat) (x : Decoder) : (setDec s k x).irq = s.irq := rfl
@[simp] theorem setDec_harbour (s : State) (k : Nat) (x : Decoder) : (setDec s k x).harbour = s.harbour := rfl
@[simp] theorem setDec_journal (s : State) (k : Nat) (x : Decoder) : (setDec s k x).journal = s.journal := rfl
@[simp] theorem setDec_crc (s : State) (k : Nat) (x : Decoder) : (setDec s k x).crc = s.crc := rfl
@[simp] theorem setDec_units (s : State) (k : Nat) (x : Decoder) : (setDec s k x).units = s.units := rfl
@[simp] theorem setDec_chans (s : State) (k : Nat) (x : Decoder) : (setDec s k x).chans = s.chans := rfl
@[simp] theorem setDec_outs (s : State) (k : Nat) (x : Decoder) : (setDec s k x).outs = s.outs := rfl
@[simp] theorem setDec_surfs (s : State) (k : Nat) (x : Decoder) : (setDec s k x).surfs = s.surfs := rfl
@[simp] theorem setDec_decodes (s : State) (k : Nat) (x : Decoder) : (setDec s k x).decodes = s.decodes := rfl
@[simp] theorem setDec_mem (s : State) (k : Nat) (x : Decoder) : (setDec s k x).mem = s.mem := rfl
@[simp] theorem setDec_fab (s : State) (k : Nat) (x : Decoder) : (setDec s k x).fab = s.fab := rfl
@[simp] theorem setDec_net (s : State) (k : Nat) (x : Decoder) : (setDec s k x).net = s.net := rfl
@[simp] theorem setDec_time (s : State) (k : Nat) (x : Decoder) : (setDec s k x).time = s.time := rfl
@[simp] theorem setDec_audio (s : State) (k : Nat) (x : Decoder) : (setDec s k x).audio = s.audio := rfl
@[simp] theorem setDec_pair (s : State) (k : Nat) (x : Decoder) : (setDec s k x).pair = s.pair := rfl
@[simp] theorem setDec_upd (s : State) (k : Nat) (x : Decoder) : (setDec s k x).upd = s.upd := rfl
@[simp] theorem setDec_power (s : State) (k : Nat) (x : Decoder) : (setDec s k x).power = s.power := rfl

@[simp] theorem modChan_pending (s : State) (k : Nat) (g : Chan → Chan) : (modChan s k g).pending = s.pending := rfl
@[simp] theorem modChan_now (s : State) (k : Nat) (g : Chan → Chan) : (modChan s k g).now = s.now := rfl
@[simp] theorem modChan_freeCtr (s : State) (k : Nat) (g : Chan → Chan) : (modChan s k g).freeCtr = s.freeCtr := rfl
@[simp] theorem modChan_outbox (s : State) (k : Nat) (g : Chan → Chan) : (modChan s k g).outbox = s.outbox := rfl
@[simp] theorem modChan_readData (s : State) (k : Nat) (g : Chan → Chan) : (modChan s k g).readData = s.readData := rfl
@[simp] theorem modChan_fns (s : State) (k : Nat) (g : Chan → Chan) : (modChan s k g).fns = s.fns := rfl
@[simp] theorem modChan_quotas (s : State) (k : Nat) (g : Chan → Chan) : (modChan s k g).quotas = s.quotas := rfl
@[simp] theorem modChan_vfEnable (s : State) (k : Nat) (g : Chan → Chan) : (modChan s k g).vfEnable = s.vfEnable := rfl
@[simp] theorem modChan_flows (s : State) (k : Nat) (g : Chan → Chan) : (modChan s k g).flows = s.flows := rfl
@[simp] theorem modChan_arrivals (s : State) (k : Nat) (g : Chan → Chan) : (modChan s k g).arrivals = s.arrivals := rfl
@[simp] theorem modChan_nextSerial (s : State) (k : Nat) (g : Chan → Chan) : (modChan s k g).nextSerial = s.nextSerial := rfl
@[simp] theorem modChan_irq (s : State) (k : Nat) (g : Chan → Chan) : (modChan s k g).irq = s.irq := rfl
@[simp] theorem modChan_harbour (s : State) (k : Nat) (g : Chan → Chan) : (modChan s k g).harbour = s.harbour := rfl
@[simp] theorem modChan_journal (s : State) (k : Nat) (g : Chan → Chan) : (modChan s k g).journal = s.journal := rfl
@[simp] theorem modChan_crc (s : State) (k : Nat) (g : Chan → Chan) : (modChan s k g).crc = s.crc := rfl
@[simp] theorem modChan_units (s : State) (k : Nat) (g : Chan → Chan) : (modChan s k g).units = s.units := rfl
@[simp] theorem modChan_outs (s : State) (k : Nat) (g : Chan → Chan) : (modChan s k g).outs = s.outs := rfl
@[simp] theorem modChan_surfs (s : State) (k : Nat) (g : Chan → Chan) : (modChan s k g).surfs = s.surfs := rfl
@[simp] theorem modChan_decs (s : State) (k : Nat) (g : Chan → Chan) : (modChan s k g).decs = s.decs := rfl
@[simp] theorem modChan_decodes (s : State) (k : Nat) (g : Chan → Chan) : (modChan s k g).decodes = s.decodes := rfl
@[simp] theorem modChan_mem (s : State) (k : Nat) (g : Chan → Chan) : (modChan s k g).mem = s.mem := rfl
@[simp] theorem modChan_fab (s : State) (k : Nat) (g : Chan → Chan) : (modChan s k g).fab = s.fab := rfl
@[simp] theorem modChan_net (s : State) (k : Nat) (g : Chan → Chan) : (modChan s k g).net = s.net := rfl
@[simp] theorem modChan_time (s : State) (k : Nat) (g : Chan → Chan) : (modChan s k g).time = s.time := rfl
@[simp] theorem modChan_audio (s : State) (k : Nat) (g : Chan → Chan) : (modChan s k g).audio = s.audio := rfl
@[simp] theorem modChan_pair (s : State) (k : Nat) (g : Chan → Chan) : (modChan s k g).pair = s.pair := rfl
@[simp] theorem modChan_upd (s : State) (k : Nat) (g : Chan → Chan) : (modChan s k g).upd = s.upd := rfl
@[simp] theorem modChan_power (s : State) (k : Nat) (g : Chan → Chan) : (modChan s k g).power = s.power := rfl

@[simp] theorem modOut_pending (s : State) (k : Nat) (g : Output → Output) : (modOut s k g).pending = s.pending := rfl
@[simp] theorem modOut_now (s : State) (k : Nat) (g : Output → Output) : (modOut s k g).now = s.now := rfl
@[simp] theorem modOut_freeCtr (s : State) (k : Nat) (g : Output → Output) : (modOut s k g).freeCtr = s.freeCtr := rfl
@[simp] theorem modOut_outbox (s : State) (k : Nat) (g : Output → Output) : (modOut s k g).outbox = s.outbox := rfl
@[simp] theorem modOut_readData (s : State) (k : Nat) (g : Output → Output) : (modOut s k g).readData = s.readData := rfl
@[simp] theorem modOut_fns (s : State) (k : Nat) (g : Output → Output) : (modOut s k g).fns = s.fns := rfl
@[simp] theorem modOut_quotas (s : State) (k : Nat) (g : Output → Output) : (modOut s k g).quotas = s.quotas := rfl
@[simp] theorem modOut_vfEnable (s : State) (k : Nat) (g : Output → Output) : (modOut s k g).vfEnable = s.vfEnable := rfl
@[simp] theorem modOut_flows (s : State) (k : Nat) (g : Output → Output) : (modOut s k g).flows = s.flows := rfl
@[simp] theorem modOut_arrivals (s : State) (k : Nat) (g : Output → Output) : (modOut s k g).arrivals = s.arrivals := rfl
@[simp] theorem modOut_nextSerial (s : State) (k : Nat) (g : Output → Output) : (modOut s k g).nextSerial = s.nextSerial := rfl
@[simp] theorem modOut_irq (s : State) (k : Nat) (g : Output → Output) : (modOut s k g).irq = s.irq := rfl
@[simp] theorem modOut_harbour (s : State) (k : Nat) (g : Output → Output) : (modOut s k g).harbour = s.harbour := rfl
@[simp] theorem modOut_journal (s : State) (k : Nat) (g : Output → Output) : (modOut s k g).journal = s.journal := rfl
@[simp] theorem modOut_crc (s : State) (k : Nat) (g : Output → Output) : (modOut s k g).crc = s.crc := rfl
@[simp] theorem modOut_units (s : State) (k : Nat) (g : Output → Output) : (modOut s k g).units = s.units := rfl
@[simp] theorem modOut_chans (s : State) (k : Nat) (g : Output → Output) : (modOut s k g).chans = s.chans := rfl
@[simp] theorem modOut_surfs (s : State) (k : Nat) (g : Output → Output) : (modOut s k g).surfs = s.surfs := rfl
@[simp] theorem modOut_decs (s : State) (k : Nat) (g : Output → Output) : (modOut s k g).decs = s.decs := rfl
@[simp] theorem modOut_decodes (s : State) (k : Nat) (g : Output → Output) : (modOut s k g).decodes = s.decodes := rfl
@[simp] theorem modOut_mem (s : State) (k : Nat) (g : Output → Output) : (modOut s k g).mem = s.mem := rfl
@[simp] theorem modOut_fab (s : State) (k : Nat) (g : Output → Output) : (modOut s k g).fab = s.fab := rfl
@[simp] theorem modOut_net (s : State) (k : Nat) (g : Output → Output) : (modOut s k g).net = s.net := rfl
@[simp] theorem modOut_time (s : State) (k : Nat) (g : Output → Output) : (modOut s k g).time = s.time := rfl
@[simp] theorem modOut_audio (s : State) (k : Nat) (g : Output → Output) : (modOut s k g).audio = s.audio := rfl
@[simp] theorem modOut_pair (s : State) (k : Nat) (g : Output → Output) : (modOut s k g).pair = s.pair := rfl
@[simp] theorem modOut_upd (s : State) (k : Nat) (g : Output → Output) : (modOut s k g).upd = s.upd := rfl
@[simp] theorem modOut_power (s : State) (k : Nat) (g : Output → Output) : (modOut s k g).power = s.power := rfl

@[simp] theorem modSurf_pending (s : State) (k : Nat) (g : Surface → Surface) : (modSurf s k g).pending = s.pending := rfl
@[simp] theorem modSurf_now (s : State) (k : Nat) (g : Surface → Surface) : (modSurf s k g).now = s.now := rfl
@[simp] theorem modSurf_freeCtr (s : State) (k : Nat) (g : Surface → Surface) : (modSurf s k g).freeCtr = s.freeCtr := rfl
@[simp] theorem modSurf_outbox (s : State) (k : Nat) (g : Surface → Surface) : (modSurf s k g).outbox = s.outbox := rfl
@[simp] theorem modSurf_readData (s : State) (k : Nat) (g : Surface → Surface) : (modSurf s k g).readData = s.readData := rfl
@[simp] theorem modSurf_fns (s : State) (k : Nat) (g : Surface → Surface) : (modSurf s k g).fns = s.fns := rfl
@[simp] theorem modSurf_quotas (s : State) (k : Nat) (g : Surface → Surface) : (modSurf s k g).quotas = s.quotas := rfl
@[simp] theorem modSurf_vfEnable (s : State) (k : Nat) (g : Surface → Surface) : (modSurf s k g).vfEnable = s.vfEnable := rfl
@[simp] theorem modSurf_flows (s : State) (k : Nat) (g : Surface → Surface) : (modSurf s k g).flows = s.flows := rfl
@[simp] theorem modSurf_arrivals (s : State) (k : Nat) (g : Surface → Surface) : (modSurf s k g).arrivals = s.arrivals := rfl
@[simp] theorem modSurf_nextSerial (s : State) (k : Nat) (g : Surface → Surface) : (modSurf s k g).nextSerial = s.nextSerial := rfl
@[simp] theorem modSurf_irq (s : State) (k : Nat) (g : Surface → Surface) : (modSurf s k g).irq = s.irq := rfl
@[simp] theorem modSurf_harbour (s : State) (k : Nat) (g : Surface → Surface) : (modSurf s k g).harbour = s.harbour := rfl
@[simp] theorem modSurf_journal (s : State) (k : Nat) (g : Surface → Surface) : (modSurf s k g).journal = s.journal := rfl
@[simp] theorem modSurf_crc (s : State) (k : Nat) (g : Surface → Surface) : (modSurf s k g).crc = s.crc := rfl
@[simp] theorem modSurf_units (s : State) (k : Nat) (g : Surface → Surface) : (modSurf s k g).units = s.units := rfl
@[simp] theorem modSurf_chans (s : State) (k : Nat) (g : Surface → Surface) : (modSurf s k g).chans = s.chans := rfl
@[simp] theorem modSurf_outs (s : State) (k : Nat) (g : Surface → Surface) : (modSurf s k g).outs = s.outs := rfl
@[simp] theorem modSurf_decs (s : State) (k : Nat) (g : Surface → Surface) : (modSurf s k g).decs = s.decs := rfl
@[simp] theorem modSurf_decodes (s : State) (k : Nat) (g : Surface → Surface) : (modSurf s k g).decodes = s.decodes := rfl
@[simp] theorem modSurf_mem (s : State) (k : Nat) (g : Surface → Surface) : (modSurf s k g).mem = s.mem := rfl
@[simp] theorem modSurf_fab (s : State) (k : Nat) (g : Surface → Surface) : (modSurf s k g).fab = s.fab := rfl
@[simp] theorem modSurf_net (s : State) (k : Nat) (g : Surface → Surface) : (modSurf s k g).net = s.net := rfl
@[simp] theorem modSurf_time (s : State) (k : Nat) (g : Surface → Surface) : (modSurf s k g).time = s.time := rfl
@[simp] theorem modSurf_audio (s : State) (k : Nat) (g : Surface → Surface) : (modSurf s k g).audio = s.audio := rfl
@[simp] theorem modSurf_pair (s : State) (k : Nat) (g : Surface → Surface) : (modSurf s k g).pair = s.pair := rfl
@[simp] theorem modSurf_upd (s : State) (k : Nat) (g : Surface → Surface) : (modSurf s k g).upd = s.upd := rfl
@[simp] theorem modSurf_power (s : State) (k : Nat) (g : Surface → Surface) : (modSurf s k g).power = s.power := rfl

@[simp] theorem modDec_pending (s : State) (k : Nat) (g : Decoder → Decoder) : (modDec s k g).pending = s.pending := rfl
@[simp] theorem modDec_now (s : State) (k : Nat) (g : Decoder → Decoder) : (modDec s k g).now = s.now := rfl
@[simp] theorem modDec_freeCtr (s : State) (k : Nat) (g : Decoder → Decoder) : (modDec s k g).freeCtr = s.freeCtr := rfl
@[simp] theorem modDec_outbox (s : State) (k : Nat) (g : Decoder → Decoder) : (modDec s k g).outbox = s.outbox := rfl
@[simp] theorem modDec_readData (s : State) (k : Nat) (g : Decoder → Decoder) : (modDec s k g).readData = s.readData := rfl
@[simp] theorem modDec_fns (s : State) (k : Nat) (g : Decoder → Decoder) : (modDec s k g).fns = s.fns := rfl
@[simp] theorem modDec_quotas (s : State) (k : Nat) (g : Decoder → Decoder) : (modDec s k g).quotas = s.quotas := rfl
@[simp] theorem modDec_vfEnable (s : State) (k : Nat) (g : Decoder → Decoder) : (modDec s k g).vfEnable = s.vfEnable := rfl
@[simp] theorem modDec_flows (s : State) (k : Nat) (g : Decoder → Decoder) : (modDec s k g).flows = s.flows := rfl
@[simp] theorem modDec_arrivals (s : State) (k : Nat) (g : Decoder → Decoder) : (modDec s k g).arrivals = s.arrivals := rfl
@[simp] theorem modDec_nextSerial (s : State) (k : Nat) (g : Decoder → Decoder) : (modDec s k g).nextSerial = s.nextSerial := rfl
@[simp] theorem modDec_irq (s : State) (k : Nat) (g : Decoder → Decoder) : (modDec s k g).irq = s.irq := rfl
@[simp] theorem modDec_harbour (s : State) (k : Nat) (g : Decoder → Decoder) : (modDec s k g).harbour = s.harbour := rfl
@[simp] theorem modDec_journal (s : State) (k : Nat) (g : Decoder → Decoder) : (modDec s k g).journal = s.journal := rfl
@[simp] theorem modDec_crc (s : State) (k : Nat) (g : Decoder → Decoder) : (modDec s k g).crc = s.crc := rfl
@[simp] theorem modDec_units (s : State) (k : Nat) (g : Decoder → Decoder) : (modDec s k g).units = s.units := rfl
@[simp] theorem modDec_chans (s : State) (k : Nat) (g : Decoder → Decoder) : (modDec s k g).chans = s.chans := rfl
@[simp] theorem modDec_outs (s : State) (k : Nat) (g : Decoder → Decoder) : (modDec s k g).outs = s.outs := rfl
@[simp] theorem modDec_surfs (s : State) (k : Nat) (g : Decoder → Decoder) : (modDec s k g).surfs = s.surfs := rfl
@[simp] theorem modDec_decodes (s : State) (k : Nat) (g : Decoder → Decoder) : (modDec s k g).decodes = s.decodes := rfl
@[simp] theorem modDec_mem (s : State) (k : Nat) (g : Decoder → Decoder) : (modDec s k g).mem = s.mem := rfl
@[simp] theorem modDec_fab (s : State) (k : Nat) (g : Decoder → Decoder) : (modDec s k g).fab = s.fab := rfl
@[simp] theorem modDec_net (s : State) (k : Nat) (g : Decoder → Decoder) : (modDec s k g).net = s.net := rfl
@[simp] theorem modDec_time (s : State) (k : Nat) (g : Decoder → Decoder) : (modDec s k g).time = s.time := rfl
@[simp] theorem modDec_audio (s : State) (k : Nat) (g : Decoder → Decoder) : (modDec s k g).audio = s.audio := rfl
@[simp] theorem modDec_pair (s : State) (k : Nat) (g : Decoder → Decoder) : (modDec s k g).pair = s.pair := rfl
@[simp] theorem modDec_upd (s : State) (k : Nat) (g : Decoder → Decoder) : (modDec s k g).upd = s.upd := rfl
@[simp] theorem modDec_power (s : State) (k : Nat) (g : Decoder → Decoder) : (modDec s k g).power = s.power := rfl

@[simp] theorem setLane_pending (s : State) (k : Nat) (x : LaneSt) : (setLane s k x).pending = s.pending := rfl
@[simp] theorem setLane_now (s : State) (k : Nat) (x : LaneSt) : (setLane s k x).now = s.now := rfl
@[simp] theorem setLane_freeCtr (s : State) (k : Nat) (x : LaneSt) : (setLane s k x).freeCtr = s.freeCtr := rfl
@[simp] theorem setLane_outbox (s : State) (k : Nat) (x : LaneSt) : (setLane s k x).outbox = s.outbox := rfl
@[simp] theorem setLane_readData (s : State) (k : Nat) (x : LaneSt) : (setLane s k x).readData = s.readData := rfl
@[simp] theorem setLane_fns (s : State) (k : Nat) (x : LaneSt) : (setLane s k x).fns = s.fns := rfl
@[simp] theorem setLane_quotas (s : State) (k : Nat) (x : LaneSt) : (setLane s k x).quotas = s.quotas := rfl
@[simp] theorem setLane_vfEnable (s : State) (k : Nat) (x : LaneSt) : (setLane s k x).vfEnable = s.vfEnable := rfl
@[simp] theorem setLane_flows (s : State) (k : Nat) (x : LaneSt) : (setLane s k x).flows = s.flows := rfl
@[simp] theorem setLane_arrivals (s : State) (k : Nat) (x : LaneSt) : (setLane s k x).arrivals = s.arrivals := rfl
@[simp] theorem setLane_nextSerial (s : State) (k : Nat) (x : LaneSt) : (setLane s k x).nextSerial = s.nextSerial := rfl
@[simp] theorem setLane_irq (s : State) (k : Nat) (x : LaneSt) : (setLane s k x).irq = s.irq := rfl
@[simp] theorem setLane_harbour (s : State) (k : Nat) (x : LaneSt) : (setLane s k x).harbour = s.harbour := rfl
@[simp] theorem setLane_journal (s : State) (k : Nat) (x : LaneSt) : (setLane s k x).journal = s.journal := rfl
@[simp] theorem setLane_crc (s : State) (k : Nat) (x : LaneSt) : (setLane s k x).crc = s.crc := rfl
@[simp] theorem setLane_units (s : State) (k : Nat) (x : LaneSt) : (setLane s k x).units = s.units := rfl
@[simp] theorem setLane_chans (s : State) (k : Nat) (x : LaneSt) : (setLane s k x).chans = s.chans := rfl
@[simp] theorem setLane_outs (s : State) (k : Nat) (x : LaneSt) : (setLane s k x).outs = s.outs := rfl
@[simp] theorem setLane_surfs (s : State) (k : Nat) (x : LaneSt) : (setLane s k x).surfs = s.surfs := rfl
@[simp] theorem setLane_decs (s : State) (k : Nat) (x : LaneSt) : (setLane s k x).decs = s.decs := rfl
@[simp] theorem setLane_decodes (s : State) (k : Nat) (x : LaneSt) : (setLane s k x).decodes = s.decodes := rfl
@[simp] theorem setLane_mem (s : State) (k : Nat) (x : LaneSt) : (setLane s k x).mem = s.mem := rfl
@[simp] theorem setLane_fab (s : State) (k : Nat) (x : LaneSt) : (setLane s k x).fab = s.fab := rfl
@[simp] theorem setLane_time (s : State) (k : Nat) (x : LaneSt) : (setLane s k x).time = s.time := rfl
@[simp] theorem setLane_audio (s : State) (k : Nat) (x : LaneSt) : (setLane s k x).audio = s.audio := rfl
@[simp] theorem setLane_pair (s : State) (k : Nat) (x : LaneSt) : (setLane s k x).pair = s.pair := rfl
@[simp] theorem setLane_upd (s : State) (k : Nat) (x : LaneSt) : (setLane s k x).upd = s.upd := rfl
@[simp] theorem setLane_power (s : State) (k : Nat) (x : LaneSt) : (setLane s k x).power = s.power := rfl

@[simp] theorem modLane_pending (s : State) (k : Nat) (g : LaneSt → LaneSt) : (modLane s k g).pending = s.pending := rfl
@[simp] theorem modLane_now (s : State) (k : Nat) (g : LaneSt → LaneSt) : (modLane s k g).now = s.now := rfl
@[simp] theorem modLane_freeCtr (s : State) (k : Nat) (g : LaneSt → LaneSt) : (modLane s k g).freeCtr = s.freeCtr := rfl
@[simp] theorem modLane_outbox (s : State) (k : Nat) (g : LaneSt → LaneSt) : (modLane s k g).outbox = s.outbox := rfl
@[simp] theorem modLane_readData (s : State) (k : Nat) (g : LaneSt → LaneSt) : (modLane s k g).readData = s.readData := rfl
@[simp] theorem modLane_fns (s : State) (k : Nat) (g : LaneSt → LaneSt) : (modLane s k g).fns = s.fns := rfl
@[simp] theorem modLane_quotas (s : State) (k : Nat) (g : LaneSt → LaneSt) : (modLane s k g).quotas = s.quotas := rfl
@[simp] theorem modLane_vfEnable (s : State) (k : Nat) (g : LaneSt → LaneSt) : (modLane s k g).vfEnable = s.vfEnable := rfl
@[simp] theorem modLane_flows (s : State) (k : Nat) (g : LaneSt → LaneSt) : (modLane s k g).flows = s.flows := rfl
@[simp] theorem modLane_arrivals (s : State) (k : Nat) (g : LaneSt → LaneSt) : (modLane s k g).arrivals = s.arrivals := rfl
@[simp] theorem modLane_nextSerial (s : State) (k : Nat) (g : LaneSt → LaneSt) : (modLane s k g).nextSerial = s.nextSerial := rfl
@[simp] theorem modLane_irq (s : State) (k : Nat) (g : LaneSt → LaneSt) : (modLane s k g).irq = s.irq := rfl
@[simp] theorem modLane_harbour (s : State) (k : Nat) (g : LaneSt → LaneSt) : (modLane s k g).harbour = s.harbour := rfl
@[simp] theorem modLane_journal (s : State) (k : Nat) (g : LaneSt → LaneSt) : (modLane s k g).journal = s.journal := rfl
@[simp] theorem modLane_crc (s : State) (k : Nat) (g : LaneSt → LaneSt) : (modLane s k g).crc = s.crc := rfl
@[simp] theorem modLane_units (s : State) (k : Nat) (g : LaneSt → LaneSt) : (modLane s k g).units = s.units := rfl
@[simp] theorem modLane_chans (s : State) (k : Nat) (g : LaneSt → LaneSt) : (modLane s k g).chans = s.chans := rfl
@[simp] theorem modLane_outs (s : State) (k : Nat) (g : LaneSt → LaneSt) : (modLane s k g).outs = s.outs := rfl
@[simp] theorem modLane_surfs (s : State) (k : Nat) (g : LaneSt → LaneSt) : (modLane s k g).surfs = s.surfs := rfl
@[simp] theorem modLane_decs (s : State) (k : Nat) (g : LaneSt → LaneSt) : (modLane s k g).decs = s.decs := rfl
@[simp] theorem modLane_decodes (s : State) (k : Nat) (g : LaneSt → LaneSt) : (modLane s k g).decodes = s.decodes := rfl
@[simp] theorem modLane_mem (s : State) (k : Nat) (g : LaneSt → LaneSt) : (modLane s k g).mem = s.mem := rfl
@[simp] theorem modLane_fab (s : State) (k : Nat) (g : LaneSt → LaneSt) : (modLane s k g).fab = s.fab := rfl
@[simp] theorem modLane_time (s : State) (k : Nat) (g : LaneSt → LaneSt) : (modLane s k g).time = s.time := rfl
@[simp] theorem modLane_audio (s : State) (k : Nat) (g : LaneSt → LaneSt) : (modLane s k g).audio = s.audio := rfl
@[simp] theorem modLane_pair (s : State) (k : Nat) (g : LaneSt → LaneSt) : (modLane s k g).pair = s.pair := rfl
@[simp] theorem modLane_upd (s : State) (k : Nat) (g : LaneSt → LaneSt) : (modLane s k g).upd = s.upd := rfl
@[simp] theorem modLane_power (s : State) (k : Nat) (g : LaneSt → LaneSt) : (modLane s k g).power = s.power := rfl

@[simp] theorem setPort_pending (s : State) (k : Nat) (x : PortSt) : (setPort s k x).pending = s.pending := rfl
@[simp] theorem setPort_now (s : State) (k : Nat) (x : PortSt) : (setPort s k x).now = s.now := rfl
@[simp] theorem setPort_freeCtr (s : State) (k : Nat) (x : PortSt) : (setPort s k x).freeCtr = s.freeCtr := rfl
@[simp] theorem setPort_outbox (s : State) (k : Nat) (x : PortSt) : (setPort s k x).outbox = s.outbox := rfl
@[simp] theorem setPort_readData (s : State) (k : Nat) (x : PortSt) : (setPort s k x).readData = s.readData := rfl
@[simp] theorem setPort_fns (s : State) (k : Nat) (x : PortSt) : (setPort s k x).fns = s.fns := rfl
@[simp] theorem setPort_quotas (s : State) (k : Nat) (x : PortSt) : (setPort s k x).quotas = s.quotas := rfl
@[simp] theorem setPort_vfEnable (s : State) (k : Nat) (x : PortSt) : (setPort s k x).vfEnable = s.vfEnable := rfl
@[simp] theorem setPort_flows (s : State) (k : Nat) (x : PortSt) : (setPort s k x).flows = s.flows := rfl
@[simp] theorem setPort_arrivals (s : State) (k : Nat) (x : PortSt) : (setPort s k x).arrivals = s.arrivals := rfl
@[simp] theorem setPort_nextSerial (s : State) (k : Nat) (x : PortSt) : (setPort s k x).nextSerial = s.nextSerial := rfl
@[simp] theorem setPort_irq (s : State) (k : Nat) (x : PortSt) : (setPort s k x).irq = s.irq := rfl
@[simp] theorem setPort_harbour (s : State) (k : Nat) (x : PortSt) : (setPort s k x).harbour = s.harbour := rfl
@[simp] theorem setPort_journal (s : State) (k : Nat) (x : PortSt) : (setPort s k x).journal = s.journal := rfl
@[simp] theorem setPort_crc (s : State) (k : Nat) (x : PortSt) : (setPort s k x).crc = s.crc := rfl
@[simp] theorem setPort_units (s : State) (k : Nat) (x : PortSt) : (setPort s k x).units = s.units := rfl
@[simp] theorem setPort_chans (s : State) (k : Nat) (x : PortSt) : (setPort s k x).chans = s.chans := rfl
@[simp] theorem setPort_outs (s : State) (k : Nat) (x : PortSt) : (setPort s k x).outs = s.outs := rfl
@[simp] theorem setPort_surfs (s : State) (k : Nat) (x : PortSt) : (setPort s k x).surfs = s.surfs := rfl
@[simp] theorem setPort_decs (s : State) (k : Nat) (x : PortSt) : (setPort s k x).decs = s.decs := rfl
@[simp] theorem setPort_decodes (s : State) (k : Nat) (x : PortSt) : (setPort s k x).decodes = s.decodes := rfl
@[simp] theorem setPort_mem (s : State) (k : Nat) (x : PortSt) : (setPort s k x).mem = s.mem := rfl
@[simp] theorem setPort_fab (s : State) (k : Nat) (x : PortSt) : (setPort s k x).fab = s.fab := rfl
@[simp] theorem setPort_time (s : State) (k : Nat) (x : PortSt) : (setPort s k x).time = s.time := rfl
@[simp] theorem setPort_audio (s : State) (k : Nat) (x : PortSt) : (setPort s k x).audio = s.audio := rfl
@[simp] theorem setPort_pair (s : State) (k : Nat) (x : PortSt) : (setPort s k x).pair = s.pair := rfl
@[simp] theorem setPort_upd (s : State) (k : Nat) (x : PortSt) : (setPort s k x).upd = s.upd := rfl
@[simp] theorem setPort_power (s : State) (k : Nat) (x : PortSt) : (setPort s k x).power = s.power := rfl

@[simp] theorem modPort_pending (s : State) (k : Nat) (g : PortSt → PortSt) : (modPort s k g).pending = s.pending := rfl
@[simp] theorem modPort_now (s : State) (k : Nat) (g : PortSt → PortSt) : (modPort s k g).now = s.now := rfl
@[simp] theorem modPort_freeCtr (s : State) (k : Nat) (g : PortSt → PortSt) : (modPort s k g).freeCtr = s.freeCtr := rfl
@[simp] theorem modPort_outbox (s : State) (k : Nat) (g : PortSt → PortSt) : (modPort s k g).outbox = s.outbox := rfl
@[simp] theorem modPort_readData (s : State) (k : Nat) (g : PortSt → PortSt) : (modPort s k g).readData = s.readData := rfl
@[simp] theorem modPort_fns (s : State) (k : Nat) (g : PortSt → PortSt) : (modPort s k g).fns = s.fns := rfl
@[simp] theorem modPort_quotas (s : State) (k : Nat) (g : PortSt → PortSt) : (modPort s k g).quotas = s.quotas := rfl
@[simp] theorem modPort_vfEnable (s : State) (k : Nat) (g : PortSt → PortSt) : (modPort s k g).vfEnable = s.vfEnable := rfl
@[simp] theorem modPort_flows (s : State) (k : Nat) (g : PortSt → PortSt) : (modPort s k g).flows = s.flows := rfl
@[simp] theorem modPort_arrivals (s : State) (k : Nat) (g : PortSt → PortSt) : (modPort s k g).arrivals = s.arrivals := rfl
@[simp] theorem modPort_nextSerial (s : State) (k : Nat) (g : PortSt → PortSt) : (modPort s k g).nextSerial = s.nextSerial := rfl
@[simp] theorem modPort_irq (s : State) (k : Nat) (g : PortSt → PortSt) : (modPort s k g).irq = s.irq := rfl
@[simp] theorem modPort_harbour (s : State) (k : Nat) (g : PortSt → PortSt) : (modPort s k g).harbour = s.harbour := rfl
@[simp] theorem modPort_journal (s : State) (k : Nat) (g : PortSt → PortSt) : (modPort s k g).journal = s.journal := rfl
@[simp] theorem modPort_crc (s : State) (k : Nat) (g : PortSt → PortSt) : (modPort s k g).crc = s.crc := rfl
@[simp] theorem modPort_units (s : State) (k : Nat) (g : PortSt → PortSt) : (modPort s k g).units = s.units := rfl
@[simp] theorem modPort_chans (s : State) (k : Nat) (g : PortSt → PortSt) : (modPort s k g).chans = s.chans := rfl
@[simp] theorem modPort_outs (s : State) (k : Nat) (g : PortSt → PortSt) : (modPort s k g).outs = s.outs := rfl
@[simp] theorem modPort_surfs (s : State) (k : Nat) (g : PortSt → PortSt) : (modPort s k g).surfs = s.surfs := rfl
@[simp] theorem modPort_decs (s : State) (k : Nat) (g : PortSt → PortSt) : (modPort s k g).decs = s.decs := rfl
@[simp] theorem modPort_decodes (s : State) (k : Nat) (g : PortSt → PortSt) : (modPort s k g).decodes = s.decodes := rfl
@[simp] theorem modPort_mem (s : State) (k : Nat) (g : PortSt → PortSt) : (modPort s k g).mem = s.mem := rfl
@[simp] theorem modPort_fab (s : State) (k : Nat) (g : PortSt → PortSt) : (modPort s k g).fab = s.fab := rfl
@[simp] theorem modPort_time (s : State) (k : Nat) (g : PortSt → PortSt) : (modPort s k g).time = s.time := rfl
@[simp] theorem modPort_audio (s : State) (k : Nat) (g : PortSt → PortSt) : (modPort s k g).audio = s.audio := rfl
@[simp] theorem modPort_pair (s : State) (k : Nat) (g : PortSt → PortSt) : (modPort s k g).pair = s.pair := rfl
@[simp] theorem modPort_upd (s : State) (k : Nat) (g : PortSt → PortSt) : (modPort s k g).upd = s.upd := rfl
@[simp] theorem modPort_power (s : State) (k : Nat) (g : PortSt → PortSt) : (modPort s k g).power = s.power := rfl

@[simp] theorem modFlowIn_pending (s : State) (k : Nat) (g : FlowIn → FlowIn) : (modFlowIn s k g).pending = s.pending := rfl
@[simp] theorem modFlowIn_now (s : State) (k : Nat) (g : FlowIn → FlowIn) : (modFlowIn s k g).now = s.now := rfl
@[simp] theorem modFlowIn_freeCtr (s : State) (k : Nat) (g : FlowIn → FlowIn) : (modFlowIn s k g).freeCtr = s.freeCtr := rfl
@[simp] theorem modFlowIn_outbox (s : State) (k : Nat) (g : FlowIn → FlowIn) : (modFlowIn s k g).outbox = s.outbox := rfl
@[simp] theorem modFlowIn_readData (s : State) (k : Nat) (g : FlowIn → FlowIn) : (modFlowIn s k g).readData = s.readData := rfl
@[simp] theorem modFlowIn_fns (s : State) (k : Nat) (g : FlowIn → FlowIn) : (modFlowIn s k g).fns = s.fns := rfl
@[simp] theorem modFlowIn_quotas (s : State) (k : Nat) (g : FlowIn → FlowIn) : (modFlowIn s k g).quotas = s.quotas := rfl
@[simp] theorem modFlowIn_vfEnable (s : State) (k : Nat) (g : FlowIn → FlowIn) : (modFlowIn s k g).vfEnable = s.vfEnable := rfl
@[simp] theorem modFlowIn_flows (s : State) (k : Nat) (g : FlowIn → FlowIn) : (modFlowIn s k g).flows = s.flows := rfl
@[simp] theorem modFlowIn_arrivals (s : State) (k : Nat) (g : FlowIn → FlowIn) : (modFlowIn s k g).arrivals = s.arrivals := rfl
@[simp] theorem modFlowIn_nextSerial (s : State) (k : Nat) (g : FlowIn → FlowIn) : (modFlowIn s k g).nextSerial = s.nextSerial := rfl
@[simp] theorem modFlowIn_irq (s : State) (k : Nat) (g : FlowIn → FlowIn) : (modFlowIn s k g).irq = s.irq := rfl
@[simp] theorem modFlowIn_harbour (s : State) (k : Nat) (g : FlowIn → FlowIn) : (modFlowIn s k g).harbour = s.harbour := rfl
@[simp] theorem modFlowIn_journal (s : State) (k : Nat) (g : FlowIn → FlowIn) : (modFlowIn s k g).journal = s.journal := rfl
@[simp] theorem modFlowIn_crc (s : State) (k : Nat) (g : FlowIn → FlowIn) : (modFlowIn s k g).crc = s.crc := rfl
@[simp] theorem modFlowIn_units (s : State) (k : Nat) (g : FlowIn → FlowIn) : (modFlowIn s k g).units = s.units := rfl
@[simp] theorem modFlowIn_chans (s : State) (k : Nat) (g : FlowIn → FlowIn) : (modFlowIn s k g).chans = s.chans := rfl
@[simp] theorem modFlowIn_outs (s : State) (k : Nat) (g : FlowIn → FlowIn) : (modFlowIn s k g).outs = s.outs := rfl
@[simp] theorem modFlowIn_surfs (s : State) (k : Nat) (g : FlowIn → FlowIn) : (modFlowIn s k g).surfs = s.surfs := rfl
@[simp] theorem modFlowIn_decs (s : State) (k : Nat) (g : FlowIn → FlowIn) : (modFlowIn s k g).decs = s.decs := rfl
@[simp] theorem modFlowIn_decodes (s : State) (k : Nat) (g : FlowIn → FlowIn) : (modFlowIn s k g).decodes = s.decodes := rfl
@[simp] theorem modFlowIn_mem (s : State) (k : Nat) (g : FlowIn → FlowIn) : (modFlowIn s k g).mem = s.mem := rfl
@[simp] theorem modFlowIn_fab (s : State) (k : Nat) (g : FlowIn → FlowIn) : (modFlowIn s k g).fab = s.fab := rfl
@[simp] theorem modFlowIn_time (s : State) (k : Nat) (g : FlowIn → FlowIn) : (modFlowIn s k g).time = s.time := rfl
@[simp] theorem modFlowIn_audio (s : State) (k : Nat) (g : FlowIn → FlowIn) : (modFlowIn s k g).audio = s.audio := rfl
@[simp] theorem modFlowIn_pair (s : State) (k : Nat) (g : FlowIn → FlowIn) : (modFlowIn s k g).pair = s.pair := rfl
@[simp] theorem modFlowIn_upd (s : State) (k : Nat) (g : FlowIn → FlowIn) : (modFlowIn s k g).upd = s.upd := rfl
@[simp] theorem modFlowIn_power (s : State) (k : Nat) (g : FlowIn → FlowIn) : (modFlowIn s k g).power = s.power := rfl

@[simp] theorem modFlowOut_pending (s : State) (k : Nat) (g : FlowOut → FlowOut) : (modFlowOut s k g).pending = s.pending := rfl
@[simp] theorem modFlowOut_now (s : State) (k : Nat) (g : FlowOut → FlowOut) : (modFlowOut s k g).now = s.now := rfl
@[simp] theorem modFlowOut_freeCtr (s : State) (k : Nat) (g : FlowOut → FlowOut) : (modFlowOut s k g).freeCtr = s.freeCtr := rfl
@[simp] theorem modFlowOut_outbox (s : State) (k : Nat) (g : FlowOut → FlowOut) : (modFlowOut s k g).outbox = s.outbox := rfl
@[simp] theorem modFlowOut_readData (s : State) (k : Nat) (g : FlowOut → FlowOut) : (modFlowOut s k g).readData = s.readData := rfl
@[simp] theorem modFlowOut_fns (s : State) (k : Nat) (g : FlowOut → FlowOut) : (modFlowOut s k g).fns = s.fns := rfl
@[simp] theorem modFlowOut_quotas (s : State) (k : Nat) (g : FlowOut → FlowOut) : (modFlowOut s k g).quotas = s.quotas := rfl
@[simp] theorem modFlowOut_vfEnable (s : State) (k : Nat) (g : FlowOut → FlowOut) : (modFlowOut s k g).vfEnable = s.vfEnable := rfl
@[simp] theorem modFlowOut_flows (s : State) (k : Nat) (g : FlowOut → FlowOut) : (modFlowOut s k g).flows = s.flows := rfl
@[simp] theorem modFlowOut_arrivals (s : State) (k : Nat) (g : FlowOut → FlowOut) : (modFlowOut s k g).arrivals = s.arrivals := rfl
@[simp] theorem modFlowOut_nextSerial (s : State) (k : Nat) (g : FlowOut → FlowOut) : (modFlowOut s k g).nextSerial = s.nextSerial := rfl
@[simp] theorem modFlowOut_irq (s : State) (k : Nat) (g : FlowOut → FlowOut) : (modFlowOut s k g).irq = s.irq := rfl
@[simp] theorem modFlowOut_harbour (s : State) (k : Nat) (g : FlowOut → FlowOut) : (modFlowOut s k g).harbour = s.harbour := rfl
@[simp] theorem modFlowOut_journal (s : State) (k : Nat) (g : FlowOut → FlowOut) : (modFlowOut s k g).journal = s.journal := rfl
@[simp] theorem modFlowOut_crc (s : State) (k : Nat) (g : FlowOut → FlowOut) : (modFlowOut s k g).crc = s.crc := rfl
@[simp] theorem modFlowOut_units (s : State) (k : Nat) (g : FlowOut → FlowOut) : (modFlowOut s k g).units = s.units := rfl
@[simp] theorem modFlowOut_chans (s : State) (k : Nat) (g : FlowOut → FlowOut) : (modFlowOut s k g).chans = s.chans := rfl
@[simp] theorem modFlowOut_outs (s : State) (k : Nat) (g : FlowOut → FlowOut) : (modFlowOut s k g).outs = s.outs := rfl
@[simp] theorem modFlowOut_surfs (s : State) (k : Nat) (g : FlowOut → FlowOut) : (modFlowOut s k g).surfs = s.surfs := rfl
@[simp] theorem modFlowOut_decs (s : State) (k : Nat) (g : FlowOut → FlowOut) : (modFlowOut s k g).decs = s.decs := rfl
@[simp] theorem modFlowOut_decodes (s : State) (k : Nat) (g : FlowOut → FlowOut) : (modFlowOut s k g).decodes = s.decodes := rfl
@[simp] theorem modFlowOut_mem (s : State) (k : Nat) (g : FlowOut → FlowOut) : (modFlowOut s k g).mem = s.mem := rfl
@[simp] theorem modFlowOut_fab (s : State) (k : Nat) (g : FlowOut → FlowOut) : (modFlowOut s k g).fab = s.fab := rfl
@[simp] theorem modFlowOut_time (s : State) (k : Nat) (g : FlowOut → FlowOut) : (modFlowOut s k g).time = s.time := rfl
@[simp] theorem modFlowOut_audio (s : State) (k : Nat) (g : FlowOut → FlowOut) : (modFlowOut s k g).audio = s.audio := rfl
@[simp] theorem modFlowOut_pair (s : State) (k : Nat) (g : FlowOut → FlowOut) : (modFlowOut s k g).pair = s.pair := rfl
@[simp] theorem modFlowOut_upd (s : State) (k : Nat) (g : FlowOut → FlowOut) : (modFlowOut s k g).upd = s.upd := rfl
@[simp] theorem modFlowOut_power (s : State) (k : Nat) (g : FlowOut → FlowOut) : (modFlowOut s k g).power = s.power := rfl

@[simp] theorem modAudPort_pending (s : State) (k : Nat) (g : AudPort → AudPort) : (modAudPort s k g).pending = s.pending := rfl
@[simp] theorem modAudPort_now (s : State) (k : Nat) (g : AudPort → AudPort) : (modAudPort s k g).now = s.now := rfl
@[simp] theorem modAudPort_freeCtr (s : State) (k : Nat) (g : AudPort → AudPort) : (modAudPort s k g).freeCtr = s.freeCtr := rfl
@[simp] theorem modAudPort_outbox (s : State) (k : Nat) (g : AudPort → AudPort) : (modAudPort s k g).outbox = s.outbox := rfl
@[simp] theorem modAudPort_readData (s : State) (k : Nat) (g : AudPort → AudPort) : (modAudPort s k g).readData = s.readData := rfl
@[simp] theorem modAudPort_fns (s : State) (k : Nat) (g : AudPort → AudPort) : (modAudPort s k g).fns = s.fns := rfl
@[simp] theorem modAudPort_quotas (s : State) (k : Nat) (g : AudPort → AudPort) : (modAudPort s k g).quotas = s.quotas := rfl
@[simp] theorem modAudPort_vfEnable (s : State) (k : Nat) (g : AudPort → AudPort) : (modAudPort s k g).vfEnable = s.vfEnable := rfl
@[simp] theorem modAudPort_flows (s : State) (k : Nat) (g : AudPort → AudPort) : (modAudPort s k g).flows = s.flows := rfl
@[simp] theorem modAudPort_arrivals (s : State) (k : Nat) (g : AudPort → AudPort) : (modAudPort s k g).arrivals = s.arrivals := rfl
@[simp] theorem modAudPort_nextSerial (s : State) (k : Nat) (g : AudPort → AudPort) : (modAudPort s k g).nextSerial = s.nextSerial := rfl
@[simp] theorem modAudPort_irq (s : State) (k : Nat) (g : AudPort → AudPort) : (modAudPort s k g).irq = s.irq := rfl
@[simp] theorem modAudPort_harbour (s : State) (k : Nat) (g : AudPort → AudPort) : (modAudPort s k g).harbour = s.harbour := rfl
@[simp] theorem modAudPort_journal (s : State) (k : Nat) (g : AudPort → AudPort) : (modAudPort s k g).journal = s.journal := rfl
@[simp] theorem modAudPort_crc (s : State) (k : Nat) (g : AudPort → AudPort) : (modAudPort s k g).crc = s.crc := rfl
@[simp] theorem modAudPort_units (s : State) (k : Nat) (g : AudPort → AudPort) : (modAudPort s k g).units = s.units := rfl
@[simp] theorem modAudPort_chans (s : State) (k : Nat) (g : AudPort → AudPort) : (modAudPort s k g).chans = s.chans := rfl
@[simp] theorem modAudPort_outs (s : State) (k : Nat) (g : AudPort → AudPort) : (modAudPort s k g).outs = s.outs := rfl
@[simp] theorem modAudPort_surfs (s : State) (k : Nat) (g : AudPort → AudPort) : (modAudPort s k g).surfs = s.surfs := rfl
@[simp] theorem modAudPort_decs (s : State) (k : Nat) (g : AudPort → AudPort) : (modAudPort s k g).decs = s.decs := rfl
@[simp] theorem modAudPort_decodes (s : State) (k : Nat) (g : AudPort → AudPort) : (modAudPort s k g).decodes = s.decodes := rfl
@[simp] theorem modAudPort_mem (s : State) (k : Nat) (g : AudPort → AudPort) : (modAudPort s k g).mem = s.mem := rfl
@[simp] theorem modAudPort_fab (s : State) (k : Nat) (g : AudPort → AudPort) : (modAudPort s k g).fab = s.fab := rfl
@[simp] theorem modAudPort_net (s : State) (k : Nat) (g : AudPort → AudPort) : (modAudPort s k g).net = s.net := rfl
@[simp] theorem modAudPort_time (s : State) (k : Nat) (g : AudPort → AudPort) : (modAudPort s k g).time = s.time := rfl
@[simp] theorem modAudPort_pair (s : State) (k : Nat) (g : AudPort → AudPort) : (modAudPort s k g).pair = s.pair := rfl
@[simp] theorem modAudPort_upd (s : State) (k : Nat) (g : AudPort → AudPort) : (modAudPort s k g).upd = s.upd := rfl
@[simp] theorem modAudPort_power (s : State) (k : Nat) (g : AudPort → AudPort) : (modAudPort s k g).power = s.power := rfl

@[simp] theorem modBus_pending (s : State) (k : Nat) (g : BusSt → BusSt) : (modBus s k g).pending = s.pending := rfl
@[simp] theorem modBus_now (s : State) (k : Nat) (g : BusSt → BusSt) : (modBus s k g).now = s.now := rfl
@[simp] theorem modBus_freeCtr (s : State) (k : Nat) (g : BusSt → BusSt) : (modBus s k g).freeCtr = s.freeCtr := rfl
@[simp] theorem modBus_outbox (s : State) (k : Nat) (g : BusSt → BusSt) : (modBus s k g).outbox = s.outbox := rfl
@[simp] theorem modBus_readData (s : State) (k : Nat) (g : BusSt → BusSt) : (modBus s k g).readData = s.readData := rfl
@[simp] theorem modBus_fns (s : State) (k : Nat) (g : BusSt → BusSt) : (modBus s k g).fns = s.fns := rfl
@[simp] theorem modBus_quotas (s : State) (k : Nat) (g : BusSt → BusSt) : (modBus s k g).quotas = s.quotas := rfl
@[simp] theorem modBus_vfEnable (s : State) (k : Nat) (g : BusSt → BusSt) : (modBus s k g).vfEnable = s.vfEnable := rfl
@[simp] theorem modBus_flows (s : State) (k : Nat) (g : BusSt → BusSt) : (modBus s k g).flows = s.flows := rfl
@[simp] theorem modBus_arrivals (s : State) (k : Nat) (g : BusSt → BusSt) : (modBus s k g).arrivals = s.arrivals := rfl
@[simp] theorem modBus_nextSerial (s : State) (k : Nat) (g : BusSt → BusSt) : (modBus s k g).nextSerial = s.nextSerial := rfl
@[simp] theorem modBus_irq (s : State) (k : Nat) (g : BusSt → BusSt) : (modBus s k g).irq = s.irq := rfl
@[simp] theorem modBus_harbour (s : State) (k : Nat) (g : BusSt → BusSt) : (modBus s k g).harbour = s.harbour := rfl
@[simp] theorem modBus_journal (s : State) (k : Nat) (g : BusSt → BusSt) : (modBus s k g).journal = s.journal := rfl
@[simp] theorem modBus_crc (s : State) (k : Nat) (g : BusSt → BusSt) : (modBus s k g).crc = s.crc := rfl
@[simp] theorem modBus_units (s : State) (k : Nat) (g : BusSt → BusSt) : (modBus s k g).units = s.units := rfl
@[simp] theorem modBus_chans (s : State) (k : Nat) (g : BusSt → BusSt) : (modBus s k g).chans = s.chans := rfl
@[simp] theorem modBus_outs (s : State) (k : Nat) (g : BusSt → BusSt) : (modBus s k g).outs = s.outs := rfl
@[simp] theorem modBus_surfs (s : State) (k : Nat) (g : BusSt → BusSt) : (modBus s k g).surfs = s.surfs := rfl
@[simp] theorem modBus_decs (s : State) (k : Nat) (g : BusSt → BusSt) : (modBus s k g).decs = s.decs := rfl
@[simp] theorem modBus_decodes (s : State) (k : Nat) (g : BusSt → BusSt) : (modBus s k g).decodes = s.decodes := rfl
@[simp] theorem modBus_mem (s : State) (k : Nat) (g : BusSt → BusSt) : (modBus s k g).mem = s.mem := rfl
@[simp] theorem modBus_fab (s : State) (k : Nat) (g : BusSt → BusSt) : (modBus s k g).fab = s.fab := rfl
@[simp] theorem modBus_net (s : State) (k : Nat) (g : BusSt → BusSt) : (modBus s k g).net = s.net := rfl
@[simp] theorem modBus_time (s : State) (k : Nat) (g : BusSt → BusSt) : (modBus s k g).time = s.time := rfl
@[simp] theorem modBus_pair (s : State) (k : Nat) (g : BusSt → BusSt) : (modBus s k g).pair = s.pair := rfl
@[simp] theorem modBus_upd (s : State) (k : Nat) (g : BusSt → BusSt) : (modBus s k g).upd = s.upd := rfl
@[simp] theorem modBus_power (s : State) (k : Nat) (g : BusSt → BusSt) : (modBus s k g).power = s.power := rfl

@[simp] theorem modArb_pending (s : State) (k : Nat) (g : Arb → Arb) : (modArb s k g).pending = s.pending := rfl
@[simp] theorem modArb_now (s : State) (k : Nat) (g : Arb → Arb) : (modArb s k g).now = s.now := rfl
@[simp] theorem modArb_freeCtr (s : State) (k : Nat) (g : Arb → Arb) : (modArb s k g).freeCtr = s.freeCtr := rfl
@[simp] theorem modArb_outbox (s : State) (k : Nat) (g : Arb → Arb) : (modArb s k g).outbox = s.outbox := rfl
@[simp] theorem modArb_readData (s : State) (k : Nat) (g : Arb → Arb) : (modArb s k g).readData = s.readData := rfl
@[simp] theorem modArb_fns (s : State) (k : Nat) (g : Arb → Arb) : (modArb s k g).fns = s.fns := rfl
@[simp] theorem modArb_quotas (s : State) (k : Nat) (g : Arb → Arb) : (modArb s k g).quotas = s.quotas := rfl
@[simp] theorem modArb_vfEnable (s : State) (k : Nat) (g : Arb → Arb) : (modArb s k g).vfEnable = s.vfEnable := rfl
@[simp] theorem modArb_flows (s : State) (k : Nat) (g : Arb → Arb) : (modArb s k g).flows = s.flows := rfl
@[simp] theorem modArb_arrivals (s : State) (k : Nat) (g : Arb → Arb) : (modArb s k g).arrivals = s.arrivals := rfl
@[simp] theorem modArb_nextSerial (s : State) (k : Nat) (g : Arb → Arb) : (modArb s k g).nextSerial = s.nextSerial := rfl
@[simp] theorem modArb_irq (s : State) (k : Nat) (g : Arb → Arb) : (modArb s k g).irq = s.irq := rfl
@[simp] theorem modArb_harbour (s : State) (k : Nat) (g : Arb → Arb) : (modArb s k g).harbour = s.harbour := rfl
@[simp] theorem modArb_journal (s : State) (k : Nat) (g : Arb → Arb) : (modArb s k g).journal = s.journal := rfl
@[simp] theorem modArb_crc (s : State) (k : Nat) (g : Arb → Arb) : (modArb s k g).crc = s.crc := rfl
@[simp] theorem modArb_units (s : State) (k : Nat) (g : Arb → Arb) : (modArb s k g).units = s.units := rfl
@[simp] theorem modArb_chans (s : State) (k : Nat) (g : Arb → Arb) : (modArb s k g).chans = s.chans := rfl
@[simp] theorem modArb_outs (s : State) (k : Nat) (g : Arb → Arb) : (modArb s k g).outs = s.outs := rfl
@[simp] theorem modArb_surfs (s : State) (k : Nat) (g : Arb → Arb) : (modArb s k g).surfs = s.surfs := rfl
@[simp] theorem modArb_decs (s : State) (k : Nat) (g : Arb → Arb) : (modArb s k g).decs = s.decs := rfl
@[simp] theorem modArb_decodes (s : State) (k : Nat) (g : Arb → Arb) : (modArb s k g).decodes = s.decodes := rfl
@[simp] theorem modArb_mem (s : State) (k : Nat) (g : Arb → Arb) : (modArb s k g).mem = s.mem := rfl
@[simp] theorem modArb_net (s : State) (k : Nat) (g : Arb → Arb) : (modArb s k g).net = s.net := rfl
@[simp] theorem modArb_time (s : State) (k : Nat) (g : Arb → Arb) : (modArb s k g).time = s.time := rfl
@[simp] theorem modArb_audio (s : State) (k : Nat) (g : Arb → Arb) : (modArb s k g).audio = s.audio := rfl
@[simp] theorem modArb_pair (s : State) (k : Nat) (g : Arb → Arb) : (modArb s k g).pair = s.pair := rfl
@[simp] theorem modArb_upd (s : State) (k : Nat) (g : Arb → Arb) : (modArb s k g).upd = s.upd := rfl
@[simp] theorem modArb_power (s : State) (k : Nat) (g : Arb → Arb) : (modArb s k g).power = s.power := rfl

@[simp] theorem modPc_pending (s : State) (k : Nat) (g : PcCtl → PcCtl) : (modPc s k g).pending = s.pending := rfl
@[simp] theorem modPc_now (s : State) (k : Nat) (g : PcCtl → PcCtl) : (modPc s k g).now = s.now := rfl
@[simp] theorem modPc_freeCtr (s : State) (k : Nat) (g : PcCtl → PcCtl) : (modPc s k g).freeCtr = s.freeCtr := rfl
@[simp] theorem modPc_outbox (s : State) (k : Nat) (g : PcCtl → PcCtl) : (modPc s k g).outbox = s.outbox := rfl
@[simp] theorem modPc_readData (s : State) (k : Nat) (g : PcCtl → PcCtl) : (modPc s k g).readData = s.readData := rfl
@[simp] theorem modPc_fns (s : State) (k : Nat) (g : PcCtl → PcCtl) : (modPc s k g).fns = s.fns := rfl
@[simp] theorem modPc_quotas (s : State) (k : Nat) (g : PcCtl → PcCtl) : (modPc s k g).quotas = s.quotas := rfl
@[simp] theorem modPc_vfEnable (s : State) (k : Nat) (g : PcCtl → PcCtl) : (modPc s k g).vfEnable = s.vfEnable := rfl
@[simp] theorem modPc_flows (s : State) (k : Nat) (g : PcCtl → PcCtl) : (modPc s k g).flows = s.flows := rfl
@[simp] theorem modPc_arrivals (s : State) (k : Nat) (g : PcCtl → PcCtl) : (modPc s k g).arrivals = s.arrivals := rfl
@[simp] theorem modPc_nextSerial (s : State) (k : Nat) (g : PcCtl → PcCtl) : (modPc s k g).nextSerial = s.nextSerial := rfl
@[simp] theorem modPc_irq (s : State) (k : Nat) (g : PcCtl → PcCtl) : (modPc s k g).irq = s.irq := rfl
@[simp] theorem modPc_harbour (s : State) (k : Nat) (g : PcCtl → PcCtl) : (modPc s k g).harbour = s.harbour := rfl
@[simp] theorem modPc_journal (s : State) (k : Nat) (g : PcCtl → PcCtl) : (modPc s k g).journal = s.journal := rfl
@[simp] theorem modPc_crc (s : State) (k : Nat) (g : PcCtl → PcCtl) : (modPc s k g).crc = s.crc := rfl
@[simp] theorem modPc_units (s : State) (k : Nat) (g : PcCtl → PcCtl) : (modPc s k g).units = s.units := rfl
@[simp] theorem modPc_chans (s : State) (k : Nat) (g : PcCtl → PcCtl) : (modPc s k g).chans = s.chans := rfl
@[simp] theorem modPc_outs (s : State) (k : Nat) (g : PcCtl → PcCtl) : (modPc s k g).outs = s.outs := rfl
@[simp] theorem modPc_surfs (s : State) (k : Nat) (g : PcCtl → PcCtl) : (modPc s k g).surfs = s.surfs := rfl
@[simp] theorem modPc_decs (s : State) (k : Nat) (g : PcCtl → PcCtl) : (modPc s k g).decs = s.decs := rfl
@[simp] theorem modPc_decodes (s : State) (k : Nat) (g : PcCtl → PcCtl) : (modPc s k g).decodes = s.decodes := rfl
@[simp] theorem modPc_fab (s : State) (k : Nat) (g : PcCtl → PcCtl) : (modPc s k g).fab = s.fab := rfl
@[simp] theorem modPc_net (s : State) (k : Nat) (g : PcCtl → PcCtl) : (modPc s k g).net = s.net := rfl
@[simp] theorem modPc_time (s : State) (k : Nat) (g : PcCtl → PcCtl) : (modPc s k g).time = s.time := rfl
@[simp] theorem modPc_audio (s : State) (k : Nat) (g : PcCtl → PcCtl) : (modPc s k g).audio = s.audio := rfl
@[simp] theorem modPc_pair (s : State) (k : Nat) (g : PcCtl → PcCtl) : (modPc s k g).pair = s.pair := rfl
@[simp] theorem modPc_upd (s : State) (k : Nat) (g : PcCtl → PcCtl) : (modPc s k g).upd = s.upd := rfl
@[simp] theorem modPc_power (s : State) (k : Nat) (g : PcCtl → PcCtl) : (modPc s k g).power = s.power := rfl

@[simp] theorem modThread_pending (s : State) (k : Nat) (g : Thread → Thread) : (modThread s k g).pending = s.pending := rfl
@[simp] theorem modThread_now (s : State) (k : Nat) (g : Thread → Thread) : (modThread s k g).now = s.now := rfl
@[simp] theorem modThread_freeCtr (s : State) (k : Nat) (g : Thread → Thread) : (modThread s k g).freeCtr = s.freeCtr := rfl
@[simp] theorem modThread_outbox (s : State) (k : Nat) (g : Thread → Thread) : (modThread s k g).outbox = s.outbox := rfl
@[simp] theorem modThread_readData (s : State) (k : Nat) (g : Thread → Thread) : (modThread s k g).readData = s.readData := rfl
@[simp] theorem modThread_fns (s : State) (k : Nat) (g : Thread → Thread) : (modThread s k g).fns = s.fns := rfl
@[simp] theorem modThread_quotas (s : State) (k : Nat) (g : Thread → Thread) : (modThread s k g).quotas = s.quotas := rfl
@[simp] theorem modThread_vfEnable (s : State) (k : Nat) (g : Thread → Thread) : (modThread s k g).vfEnable = s.vfEnable := rfl
@[simp] theorem modThread_flows (s : State) (k : Nat) (g : Thread → Thread) : (modThread s k g).flows = s.flows := rfl
@[simp] theorem modThread_arrivals (s : State) (k : Nat) (g : Thread → Thread) : (modThread s k g).arrivals = s.arrivals := rfl
@[simp] theorem modThread_nextSerial (s : State) (k : Nat) (g : Thread → Thread) : (modThread s k g).nextSerial = s.nextSerial := rfl
@[simp] theorem modThread_irq (s : State) (k : Nat) (g : Thread → Thread) : (modThread s k g).irq = s.irq := rfl
@[simp] theorem modThread_journal (s : State) (k : Nat) (g : Thread → Thread) : (modThread s k g).journal = s.journal := rfl
@[simp] theorem modThread_crc (s : State) (k : Nat) (g : Thread → Thread) : (modThread s k g).crc = s.crc := rfl
@[simp] theorem modThread_units (s : State) (k : Nat) (g : Thread → Thread) : (modThread s k g).units = s.units := rfl
@[simp] theorem modThread_chans (s : State) (k : Nat) (g : Thread → Thread) : (modThread s k g).chans = s.chans := rfl
@[simp] theorem modThread_outs (s : State) (k : Nat) (g : Thread → Thread) : (modThread s k g).outs = s.outs := rfl
@[simp] theorem modThread_surfs (s : State) (k : Nat) (g : Thread → Thread) : (modThread s k g).surfs = s.surfs := rfl
@[simp] theorem modThread_decs (s : State) (k : Nat) (g : Thread → Thread) : (modThread s k g).decs = s.decs := rfl
@[simp] theorem modThread_decodes (s : State) (k : Nat) (g : Thread → Thread) : (modThread s k g).decodes = s.decodes := rfl
@[simp] theorem modThread_mem (s : State) (k : Nat) (g : Thread → Thread) : (modThread s k g).mem = s.mem := rfl
@[simp] theorem modThread_fab (s : State) (k : Nat) (g : Thread → Thread) : (modThread s k g).fab = s.fab := rfl
@[simp] theorem modThread_net (s : State) (k : Nat) (g : Thread → Thread) : (modThread s k g).net = s.net := rfl
@[simp] theorem modThread_time (s : State) (k : Nat) (g : Thread → Thread) : (modThread s k g).time = s.time := rfl
@[simp] theorem modThread_audio (s : State) (k : Nat) (g : Thread → Thread) : (modThread s k g).audio = s.audio := rfl
@[simp] theorem modThread_pair (s : State) (k : Nat) (g : Thread → Thread) : (modThread s k g).pair = s.pair := rfl
@[simp] theorem modThread_upd (s : State) (k : Nat) (g : Thread → Thread) : (modThread s k g).upd = s.upd := rfl
@[simp] theorem modThread_power (s : State) (k : Nat) (g : Thread → Thread) : (modThread s k g).power = s.power := rfl

@[simp] theorem modCore_pending (s : State) (k : Nat) (g : SkerryCore → SkerryCore) : (modCore s k g).pending = s.pending := rfl
@[simp] theorem modCore_now (s : State) (k : Nat) (g : SkerryCore → SkerryCore) : (modCore s k g).now = s.now := rfl
@[simp] theorem modCore_freeCtr (s : State) (k : Nat) (g : SkerryCore → SkerryCore) : (modCore s k g).freeCtr = s.freeCtr := rfl
@[simp] theorem modCore_outbox (s : State) (k : Nat) (g : SkerryCore → SkerryCore) : (modCore s k g).outbox = s.outbox := rfl
@[simp] theorem modCore_readData (s : State) (k : Nat) (g : SkerryCore → SkerryCore) : (modCore s k g).readData = s.readData := rfl
@[simp] theorem modCore_fns (s : State) (k : Nat) (g : SkerryCore → SkerryCore) : (modCore s k g).fns = s.fns := rfl
@[simp] theorem modCore_quotas (s : State) (k : Nat) (g : SkerryCore → SkerryCore) : (modCore s k g).quotas = s.quotas := rfl
@[simp] theorem modCore_vfEnable (s : State) (k : Nat) (g : SkerryCore → SkerryCore) : (modCore s k g).vfEnable = s.vfEnable := rfl
@[simp] theorem modCore_flows (s : State) (k : Nat) (g : SkerryCore → SkerryCore) : (modCore s k g).flows = s.flows := rfl
@[simp] theorem modCore_arrivals (s : State) (k : Nat) (g : SkerryCore → SkerryCore) : (modCore s k g).arrivals = s.arrivals := rfl
@[simp] theorem modCore_nextSerial (s : State) (k : Nat) (g : SkerryCore → SkerryCore) : (modCore s k g).nextSerial = s.nextSerial := rfl
@[simp] theorem modCore_irq (s : State) (k : Nat) (g : SkerryCore → SkerryCore) : (modCore s k g).irq = s.irq := rfl
@[simp] theorem modCore_journal (s : State) (k : Nat) (g : SkerryCore → SkerryCore) : (modCore s k g).journal = s.journal := rfl
@[simp] theorem modCore_crc (s : State) (k : Nat) (g : SkerryCore → SkerryCore) : (modCore s k g).crc = s.crc := rfl
@[simp] theorem modCore_units (s : State) (k : Nat) (g : SkerryCore → SkerryCore) : (modCore s k g).units = s.units := rfl
@[simp] theorem modCore_chans (s : State) (k : Nat) (g : SkerryCore → SkerryCore) : (modCore s k g).chans = s.chans := rfl
@[simp] theorem modCore_outs (s : State) (k : Nat) (g : SkerryCore → SkerryCore) : (modCore s k g).outs = s.outs := rfl
@[simp] theorem modCore_surfs (s : State) (k : Nat) (g : SkerryCore → SkerryCore) : (modCore s k g).surfs = s.surfs := rfl
@[simp] theorem modCore_decs (s : State) (k : Nat) (g : SkerryCore → SkerryCore) : (modCore s k g).decs = s.decs := rfl
@[simp] theorem modCore_decodes (s : State) (k : Nat) (g : SkerryCore → SkerryCore) : (modCore s k g).decodes = s.decodes := rfl
@[simp] theorem modCore_mem (s : State) (k : Nat) (g : SkerryCore → SkerryCore) : (modCore s k g).mem = s.mem := rfl
@[simp] theorem modCore_fab (s : State) (k : Nat) (g : SkerryCore → SkerryCore) : (modCore s k g).fab = s.fab := rfl
@[simp] theorem modCore_net (s : State) (k : Nat) (g : SkerryCore → SkerryCore) : (modCore s k g).net = s.net := rfl
@[simp] theorem modCore_time (s : State) (k : Nat) (g : SkerryCore → SkerryCore) : (modCore s k g).time = s.time := rfl
@[simp] theorem modCore_audio (s : State) (k : Nat) (g : SkerryCore → SkerryCore) : (modCore s k g).audio = s.audio := rfl
@[simp] theorem modCore_pair (s : State) (k : Nat) (g : SkerryCore → SkerryCore) : (modCore s k g).pair = s.pair := rfl
@[simp] theorem modCore_upd (s : State) (k : Nat) (g : SkerryCore → SkerryCore) : (modCore s k g).upd = s.upd := rfl
@[simp] theorem modCore_power (s : State) (k : Nat) (g : SkerryCore → SkerryCore) : (modCore s k g).power = s.power := rfl

@[simp] theorem modSq_pending (f n : Nat) (g : Sq → Sq) (s : State) : (modSq f n g s).pending = s.pending := rfl
@[simp] theorem modSq_now (f n : Nat) (g : Sq → Sq) (s : State) : (modSq f n g s).now = s.now := rfl
@[simp] theorem modSq_freeCtr (f n : Nat) (g : Sq → Sq) (s : State) : (modSq f n g s).freeCtr = s.freeCtr := rfl
@[simp] theorem modSq_outbox (f n : Nat) (g : Sq → Sq) (s : State) : (modSq f n g s).outbox = s.outbox := rfl
@[simp] theorem modSq_readData (f n : Nat) (g : Sq → Sq) (s : State) : (modSq f n g s).readData = s.readData := rfl
@[simp] theorem modSq_quotas (f n : Nat) (g : Sq → Sq) (s : State) : (modSq f n g s).quotas = s.quotas := rfl
@[simp] theorem modSq_vfEnable (f n : Nat) (g : Sq → Sq) (s : State) : (modSq f n g s).vfEnable = s.vfEnable := rfl
@[simp] theorem modSq_flows (f n : Nat) (g : Sq → Sq) (s : State) : (modSq f n g s).flows = s.flows := rfl
@[simp] theorem modSq_arrivals (f n : Nat) (g : Sq → Sq) (s : State) : (modSq f n g s).arrivals = s.arrivals := rfl
@[simp] theorem modSq_nextSerial (f n : Nat) (g : Sq → Sq) (s : State) : (modSq f n g s).nextSerial = s.nextSerial := rfl
@[simp] theorem modSq_irq (f n : Nat) (g : Sq → Sq) (s : State) : (modSq f n g s).irq = s.irq := rfl
@[simp] theorem modSq_harbour (f n : Nat) (g : Sq → Sq) (s : State) : (modSq f n g s).harbour = s.harbour := rfl
@[simp] theorem modSq_journal (f n : Nat) (g : Sq → Sq) (s : State) : (modSq f n g s).journal = s.journal := rfl
@[simp] theorem modSq_crc (f n : Nat) (g : Sq → Sq) (s : State) : (modSq f n g s).crc = s.crc := rfl
@[simp] theorem modSq_units (f n : Nat) (g : Sq → Sq) (s : State) : (modSq f n g s).units = s.units := rfl
@[simp] theorem modSq_chans (f n : Nat) (g : Sq → Sq) (s : State) : (modSq f n g s).chans = s.chans := rfl
@[simp] theorem modSq_outs (f n : Nat) (g : Sq → Sq) (s : State) : (modSq f n g s).outs = s.outs := rfl
@[simp] theorem modSq_surfs (f n : Nat) (g : Sq → Sq) (s : State) : (modSq f n g s).surfs = s.surfs := rfl
@[simp] theorem modSq_decs (f n : Nat) (g : Sq → Sq) (s : State) : (modSq f n g s).decs = s.decs := rfl
@[simp] theorem modSq_decodes (f n : Nat) (g : Sq → Sq) (s : State) : (modSq f n g s).decodes = s.decodes := rfl
@[simp] theorem modSq_mem (f n : Nat) (g : Sq → Sq) (s : State) : (modSq f n g s).mem = s.mem := rfl
@[simp] theorem modSq_fab (f n : Nat) (g : Sq → Sq) (s : State) : (modSq f n g s).fab = s.fab := rfl
@[simp] theorem modSq_net (f n : Nat) (g : Sq → Sq) (s : State) : (modSq f n g s).net = s.net := rfl
@[simp] theorem modSq_time (f n : Nat) (g : Sq → Sq) (s : State) : (modSq f n g s).time = s.time := rfl
@[simp] theorem modSq_audio (f n : Nat) (g : Sq → Sq) (s : State) : (modSq f n g s).audio = s.audio := rfl
@[simp] theorem modSq_pair (f n : Nat) (g : Sq → Sq) (s : State) : (modSq f n g s).pair = s.pair := rfl
@[simp] theorem modSq_upd (f n : Nat) (g : Sq → Sq) (s : State) : (modSq f n g s).upd = s.upd := rfl
@[simp] theorem modSq_power (f n : Nat) (g : Sq → Sq) (s : State) : (modSq f n g s).power = s.power := rfl

@[simp] theorem modCq_pending (f n : Nat) (g : Cq → Cq) (s : State) : (modCq f n g s).pending = s.pending := rfl
@[simp] theorem modCq_now (f n : Nat) (g : Cq → Cq) (s : State) : (modCq f n g s).now = s.now := rfl
@[simp] theorem modCq_freeCtr (f n : Nat) (g : Cq → Cq) (s : State) : (modCq f n g s).freeCtr = s.freeCtr := rfl
@[simp] theorem modCq_outbox (f n : Nat) (g : Cq → Cq) (s : State) : (modCq f n g s).outbox = s.outbox := rfl
@[simp] theorem modCq_readData (f n : Nat) (g : Cq → Cq) (s : State) : (modCq f n g s).readData = s.readData := rfl
@[simp] theorem modCq_quotas (f n : Nat) (g : Cq → Cq) (s : State) : (modCq f n g s).quotas = s.quotas := rfl
@[simp] theorem modCq_vfEnable (f n : Nat) (g : Cq → Cq) (s : State) : (modCq f n g s).vfEnable = s.vfEnable := rfl
@[simp] theorem modCq_flows (f n : Nat) (g : Cq → Cq) (s : State) : (modCq f n g s).flows = s.flows := rfl
@[simp] theorem modCq_arrivals (f n : Nat) (g : Cq → Cq) (s : State) : (modCq f n g s).arrivals = s.arrivals := rfl
@[simp] theorem modCq_nextSerial (f n : Nat) (g : Cq → Cq) (s : State) : (modCq f n g s).nextSerial = s.nextSerial := rfl
@[simp] theorem modCq_irq (f n : Nat) (g : Cq → Cq) (s : State) : (modCq f n g s).irq = s.irq := rfl
@[simp] theorem modCq_harbour (f n : Nat) (g : Cq → Cq) (s : State) : (modCq f n g s).harbour = s.harbour := rfl
@[simp] theorem modCq_journal (f n : Nat) (g : Cq → Cq) (s : State) : (modCq f n g s).journal = s.journal := rfl
@[simp] theorem modCq_crc (f n : Nat) (g : Cq → Cq) (s : State) : (modCq f n g s).crc = s.crc := rfl
@[simp] theorem modCq_units (f n : Nat) (g : Cq → Cq) (s : State) : (modCq f n g s).units = s.units := rfl
@[simp] theorem modCq_chans (f n : Nat) (g : Cq → Cq) (s : State) : (modCq f n g s).chans = s.chans := rfl
@[simp] theorem modCq_outs (f n : Nat) (g : Cq → Cq) (s : State) : (modCq f n g s).outs = s.outs := rfl
@[simp] theorem modCq_surfs (f n : Nat) (g : Cq → Cq) (s : State) : (modCq f n g s).surfs = s.surfs := rfl
@[simp] theorem modCq_decs (f n : Nat) (g : Cq → Cq) (s : State) : (modCq f n g s).decs = s.decs := rfl
@[simp] theorem modCq_decodes (f n : Nat) (g : Cq → Cq) (s : State) : (modCq f n g s).decodes = s.decodes := rfl
@[simp] theorem modCq_mem (f n : Nat) (g : Cq → Cq) (s : State) : (modCq f n g s).mem = s.mem := rfl
@[simp] theorem modCq_fab (f n : Nat) (g : Cq → Cq) (s : State) : (modCq f n g s).fab = s.fab := rfl
@[simp] theorem modCq_net (f n : Nat) (g : Cq → Cq) (s : State) : (modCq f n g s).net = s.net := rfl
@[simp] theorem modCq_time (f n : Nat) (g : Cq → Cq) (s : State) : (modCq f n g s).time = s.time := rfl
@[simp] theorem modCq_audio (f n : Nat) (g : Cq → Cq) (s : State) : (modCq f n g s).audio = s.audio := rfl
@[simp] theorem modCq_pair (f n : Nat) (g : Cq → Cq) (s : State) : (modCq f n g s).pair = s.pair := rfl
@[simp] theorem modCq_upd (f n : Nat) (g : Cq → Cq) (s : State) : (modCq f n g s).upd = s.upd := rfl
@[simp] theorem modCq_power (f n : Nat) (g : Cq → Cq) (s : State) : (modCq f n g s).power = s.power := rfl

@[simp] theorem modCmd_pending (n : Nat) (g : Cmd → Cmd) (s : State) : (modCmd n g s).pending = s.pending := rfl
@[simp] theorem modCmd_now (n : Nat) (g : Cmd → Cmd) (s : State) : (modCmd n g s).now = s.now := rfl
@[simp] theorem modCmd_freeCtr (n : Nat) (g : Cmd → Cmd) (s : State) : (modCmd n g s).freeCtr = s.freeCtr := rfl
@[simp] theorem modCmd_outbox (n : Nat) (g : Cmd → Cmd) (s : State) : (modCmd n g s).outbox = s.outbox := rfl
@[simp] theorem modCmd_readData (n : Nat) (g : Cmd → Cmd) (s : State) : (modCmd n g s).readData = s.readData := rfl
@[simp] theorem modCmd_fns (n : Nat) (g : Cmd → Cmd) (s : State) : (modCmd n g s).fns = s.fns := rfl
@[simp] theorem modCmd_quotas (n : Nat) (g : Cmd → Cmd) (s : State) : (modCmd n g s).quotas = s.quotas := rfl
@[simp] theorem modCmd_vfEnable (n : Nat) (g : Cmd → Cmd) (s : State) : (modCmd n g s).vfEnable = s.vfEnable := rfl
@[simp] theorem modCmd_arrivals (n : Nat) (g : Cmd → Cmd) (s : State) : (modCmd n g s).arrivals = s.arrivals := rfl
@[simp] theorem modCmd_nextSerial (n : Nat) (g : Cmd → Cmd) (s : State) : (modCmd n g s).nextSerial = s.nextSerial := rfl
@[simp] theorem modCmd_irq (n : Nat) (g : Cmd → Cmd) (s : State) : (modCmd n g s).irq = s.irq := rfl
@[simp] theorem modCmd_harbour (n : Nat) (g : Cmd → Cmd) (s : State) : (modCmd n g s).harbour = s.harbour := rfl
@[simp] theorem modCmd_journal (n : Nat) (g : Cmd → Cmd) (s : State) : (modCmd n g s).journal = s.journal := rfl
@[simp] theorem modCmd_crc (n : Nat) (g : Cmd → Cmd) (s : State) : (modCmd n g s).crc = s.crc := rfl
@[simp] theorem modCmd_units (n : Nat) (g : Cmd → Cmd) (s : State) : (modCmd n g s).units = s.units := rfl
@[simp] theorem modCmd_chans (n : Nat) (g : Cmd → Cmd) (s : State) : (modCmd n g s).chans = s.chans := rfl
@[simp] theorem modCmd_outs (n : Nat) (g : Cmd → Cmd) (s : State) : (modCmd n g s).outs = s.outs := rfl
@[simp] theorem modCmd_surfs (n : Nat) (g : Cmd → Cmd) (s : State) : (modCmd n g s).surfs = s.surfs := rfl
@[simp] theorem modCmd_decs (n : Nat) (g : Cmd → Cmd) (s : State) : (modCmd n g s).decs = s.decs := rfl
@[simp] theorem modCmd_decodes (n : Nat) (g : Cmd → Cmd) (s : State) : (modCmd n g s).decodes = s.decodes := rfl
@[simp] theorem modCmd_mem (n : Nat) (g : Cmd → Cmd) (s : State) : (modCmd n g s).mem = s.mem := rfl
@[simp] theorem modCmd_fab (n : Nat) (g : Cmd → Cmd) (s : State) : (modCmd n g s).fab = s.fab := rfl
@[simp] theorem modCmd_net (n : Nat) (g : Cmd → Cmd) (s : State) : (modCmd n g s).net = s.net := rfl
@[simp] theorem modCmd_time (n : Nat) (g : Cmd → Cmd) (s : State) : (modCmd n g s).time = s.time := rfl
@[simp] theorem modCmd_audio (n : Nat) (g : Cmd → Cmd) (s : State) : (modCmd n g s).audio = s.audio := rfl
@[simp] theorem modCmd_pair (n : Nat) (g : Cmd → Cmd) (s : State) : (modCmd n g s).pair = s.pair := rfl
@[simp] theorem modCmd_upd (n : Nat) (g : Cmd → Cmd) (s : State) : (modCmd n g s).upd = s.upd := rfl
@[simp] theorem modCmd_power (n : Nat) (g : Cmd → Cmd) (s : State) : (modCmd n g s).power = s.power := rfl

@[simp] theorem setArrivals_pending (s : State) (k : Nat) (l : List Nat) : (setArrivals s k l).pending = s.pending := rfl
@[simp] theorem setArrivals_now (s : State) (k : Nat) (l : List Nat) : (setArrivals s k l).now = s.now := rfl
@[simp] theorem setArrivals_freeCtr (s : State) (k : Nat) (l : List Nat) : (setArrivals s k l).freeCtr = s.freeCtr := rfl
@[simp] theorem setArrivals_outbox (s : State) (k : Nat) (l : List Nat) : (setArrivals s k l).outbox = s.outbox := rfl
@[simp] theorem setArrivals_readData (s : State) (k : Nat) (l : List Nat) : (setArrivals s k l).readData = s.readData := rfl
@[simp] theorem setArrivals_fns (s : State) (k : Nat) (l : List Nat) : (setArrivals s k l).fns = s.fns := rfl
@[simp] theorem setArrivals_quotas (s : State) (k : Nat) (l : List Nat) : (setArrivals s k l).quotas = s.quotas := rfl
@[simp] theorem setArrivals_vfEnable (s : State) (k : Nat) (l : List Nat) : (setArrivals s k l).vfEnable = s.vfEnable := rfl
@[simp] theorem setArrivals_flows (s : State) (k : Nat) (l : List Nat) : (setArrivals s k l).flows = s.flows := rfl
@[simp] theorem setArrivals_nextSerial (s : State) (k : Nat) (l : List Nat) : (setArrivals s k l).nextSerial = s.nextSerial := rfl
@[simp] theorem setArrivals_irq (s : State) (k : Nat) (l : List Nat) : (setArrivals s k l).irq = s.irq := rfl
@[simp] theorem setArrivals_harbour (s : State) (k : Nat) (l : List Nat) : (setArrivals s k l).harbour = s.harbour := rfl
@[simp] theorem setArrivals_journal (s : State) (k : Nat) (l : List Nat) : (setArrivals s k l).journal = s.journal := rfl
@[simp] theorem setArrivals_crc (s : State) (k : Nat) (l : List Nat) : (setArrivals s k l).crc = s.crc := rfl
@[simp] theorem setArrivals_units (s : State) (k : Nat) (l : List Nat) : (setArrivals s k l).units = s.units := rfl
@[simp] theorem setArrivals_chans (s : State) (k : Nat) (l : List Nat) : (setArrivals s k l).chans = s.chans := rfl
@[simp] theorem setArrivals_outs (s : State) (k : Nat) (l : List Nat) : (setArrivals s k l).outs = s.outs := rfl
@[simp] theorem setArrivals_surfs (s : State) (k : Nat) (l : List Nat) : (setArrivals s k l).surfs = s.surfs := rfl
@[simp] theorem setArrivals_decs (s : State) (k : Nat) (l : List Nat) : (setArrivals s k l).decs = s.decs := rfl
@[simp] theorem setArrivals_decodes (s : State) (k : Nat) (l : List Nat) : (setArrivals s k l).decodes = s.decodes := rfl
@[simp] theorem setArrivals_mem (s : State) (k : Nat) (l : List Nat) : (setArrivals s k l).mem = s.mem := rfl
@[simp] theorem setArrivals_fab (s : State) (k : Nat) (l : List Nat) : (setArrivals s k l).fab = s.fab := rfl
@[simp] theorem setArrivals_net (s : State) (k : Nat) (l : List Nat) : (setArrivals s k l).net = s.net := rfl
@[simp] theorem setArrivals_time (s : State) (k : Nat) (l : List Nat) : (setArrivals s k l).time = s.time := rfl
@[simp] theorem setArrivals_audio (s : State) (k : Nat) (l : List Nat) : (setArrivals s k l).audio = s.audio := rfl
@[simp] theorem setArrivals_pair (s : State) (k : Nat) (l : List Nat) : (setArrivals s k l).pair = s.pair := rfl
@[simp] theorem setArrivals_upd (s : State) (k : Nat) (l : List Nat) : (setArrivals s k l).upd = s.upd := rfl
@[simp] theorem setArrivals_power (s : State) (k : Nat) (l : List Nat) : (setArrivals s k l).power = s.power := rfl

@[simp] theorem tagDone_pending (f n : Nat) (t : Word) (s : State) : (tagDone f n t s).pending = s.pending := rfl
@[simp] theorem tagDone_now (f n : Nat) (t : Word) (s : State) : (tagDone f n t s).now = s.now := rfl
@[simp] theorem tagDone_freeCtr (f n : Nat) (t : Word) (s : State) : (tagDone f n t s).freeCtr = s.freeCtr := rfl
@[simp] theorem tagDone_outbox (f n : Nat) (t : Word) (s : State) : (tagDone f n t s).outbox = s.outbox := rfl
@[simp] theorem tagDone_readData (f n : Nat) (t : Word) (s : State) : (tagDone f n t s).readData = s.readData := rfl
@[simp] theorem tagDone_fns (f n : Nat) (t : Word) (s : State) : (tagDone f n t s).fns = s.fns := rfl
@[simp] theorem tagDone_quotas (f n : Nat) (t : Word) (s : State) : (tagDone f n t s).quotas = s.quotas := rfl
@[simp] theorem tagDone_vfEnable (f n : Nat) (t : Word) (s : State) : (tagDone f n t s).vfEnable = s.vfEnable := rfl
@[simp] theorem tagDone_flows (f n : Nat) (t : Word) (s : State) : (tagDone f n t s).flows = s.flows := rfl
@[simp] theorem tagDone_arrivals (f n : Nat) (t : Word) (s : State) : (tagDone f n t s).arrivals = s.arrivals := rfl
@[simp] theorem tagDone_nextSerial (f n : Nat) (t : Word) (s : State) : (tagDone f n t s).nextSerial = s.nextSerial := rfl
@[simp] theorem tagDone_irq (f n : Nat) (t : Word) (s : State) : (tagDone f n t s).irq = s.irq := rfl
@[simp] theorem tagDone_harbour (f n : Nat) (t : Word) (s : State) : (tagDone f n t s).harbour = s.harbour := rfl
@[simp] theorem tagDone_journal (f n : Nat) (t : Word) (s : State) : (tagDone f n t s).journal = s.journal := rfl
@[simp] theorem tagDone_crc (f n : Nat) (t : Word) (s : State) : (tagDone f n t s).crc = s.crc := rfl
@[simp] theorem tagDone_units (f n : Nat) (t : Word) (s : State) : (tagDone f n t s).units = s.units := rfl
@[simp] theorem tagDone_chans (f n : Nat) (t : Word) (s : State) : (tagDone f n t s).chans = s.chans := rfl
@[simp] theorem tagDone_outs (f n : Nat) (t : Word) (s : State) : (tagDone f n t s).outs = s.outs := rfl
@[simp] theorem tagDone_surfs (f n : Nat) (t : Word) (s : State) : (tagDone f n t s).surfs = s.surfs := rfl
@[simp] theorem tagDone_decs (f n : Nat) (t : Word) (s : State) : (tagDone f n t s).decs = s.decs := rfl
@[simp] theorem tagDone_decodes (f n : Nat) (t : Word) (s : State) : (tagDone f n t s).decodes = s.decodes := rfl
@[simp] theorem tagDone_mem (f n : Nat) (t : Word) (s : State) : (tagDone f n t s).mem = s.mem := rfl
@[simp] theorem tagDone_fab (f n : Nat) (t : Word) (s : State) : (tagDone f n t s).fab = s.fab := rfl
@[simp] theorem tagDone_net (f n : Nat) (t : Word) (s : State) : (tagDone f n t s).net = s.net := rfl
@[simp] theorem tagDone_time (f n : Nat) (t : Word) (s : State) : (tagDone f n t s).time = s.time := rfl
@[simp] theorem tagDone_audio (f n : Nat) (t : Word) (s : State) : (tagDone f n t s).audio = s.audio := rfl
@[simp] theorem tagDone_upd (f n : Nat) (t : Word) (s : State) : (tagDone f n t s).upd = s.upd := rfl
@[simp] theorem tagDone_power (f n : Nat) (t : Word) (s : State) : (tagDone f n t s).power = s.power := rfl

@[simp] theorem tagStarted_pending (f n : Nat) (t : Word) (s : State) : (tagStarted f n t s).pending = s.pending := rfl
@[simp] theorem tagStarted_now (f n : Nat) (t : Word) (s : State) : (tagStarted f n t s).now = s.now := rfl
@[simp] theorem tagStarted_freeCtr (f n : Nat) (t : Word) (s : State) : (tagStarted f n t s).freeCtr = s.freeCtr := rfl
@[simp] theorem tagStarted_outbox (f n : Nat) (t : Word) (s : State) : (tagStarted f n t s).outbox = s.outbox := rfl
@[simp] theorem tagStarted_readData (f n : Nat) (t : Word) (s : State) : (tagStarted f n t s).readData = s.readData := rfl
@[simp] theorem tagStarted_fns (f n : Nat) (t : Word) (s : State) : (tagStarted f n t s).fns = s.fns := rfl
@[simp] theorem tagStarted_quotas (f n : Nat) (t : Word) (s : State) : (tagStarted f n t s).quotas = s.quotas := rfl
@[simp] theorem tagStarted_vfEnable (f n : Nat) (t : Word) (s : State) : (tagStarted f n t s).vfEnable = s.vfEnable := rfl
@[simp] theorem tagStarted_flows (f n : Nat) (t : Word) (s : State) : (tagStarted f n t s).flows = s.flows := rfl
@[simp] theorem tagStarted_arrivals (f n : Nat) (t : Word) (s : State) : (tagStarted f n t s).arrivals = s.arrivals := rfl
@[simp] theorem tagStarted_nextSerial (f n : Nat) (t : Word) (s : State) : (tagStarted f n t s).nextSerial = s.nextSerial := rfl
@[simp] theorem tagStarted_irq (f n : Nat) (t : Word) (s : State) : (tagStarted f n t s).irq = s.irq := rfl
@[simp] theorem tagStarted_harbour (f n : Nat) (t : Word) (s : State) : (tagStarted f n t s).harbour = s.harbour := rfl
@[simp] theorem tagStarted_journal (f n : Nat) (t : Word) (s : State) : (tagStarted f n t s).journal = s.journal := rfl
@[simp] theorem tagStarted_crc (f n : Nat) (t : Word) (s : State) : (tagStarted f n t s).crc = s.crc := rfl
@[simp] theorem tagStarted_units (f n : Nat) (t : Word) (s : State) : (tagStarted f n t s).units = s.units := rfl
@[simp] theorem tagStarted_chans (f n : Nat) (t : Word) (s : State) : (tagStarted f n t s).chans = s.chans := rfl
@[simp] theorem tagStarted_outs (f n : Nat) (t : Word) (s : State) : (tagStarted f n t s).outs = s.outs := rfl
@[simp] theorem tagStarted_surfs (f n : Nat) (t : Word) (s : State) : (tagStarted f n t s).surfs = s.surfs := rfl
@[simp] theorem tagStarted_decs (f n : Nat) (t : Word) (s : State) : (tagStarted f n t s).decs = s.decs := rfl
@[simp] theorem tagStarted_decodes (f n : Nat) (t : Word) (s : State) : (tagStarted f n t s).decodes = s.decodes := rfl
@[simp] theorem tagStarted_mem (f n : Nat) (t : Word) (s : State) : (tagStarted f n t s).mem = s.mem := rfl
@[simp] theorem tagStarted_fab (f n : Nat) (t : Word) (s : State) : (tagStarted f n t s).fab = s.fab := rfl
@[simp] theorem tagStarted_net (f n : Nat) (t : Word) (s : State) : (tagStarted f n t s).net = s.net := rfl
@[simp] theorem tagStarted_time (f n : Nat) (t : Word) (s : State) : (tagStarted f n t s).time = s.time := rfl
@[simp] theorem tagStarted_audio (f n : Nat) (t : Word) (s : State) : (tagStarted f n t s).audio = s.audio := rfl
@[simp] theorem tagStarted_upd (f n : Nat) (t : Word) (s : State) : (tagStarted f n t s).upd = s.upd := rfl
@[simp] theorem tagStarted_power (f n : Nat) (t : Word) (s : State) : (tagStarted f n t s).power = s.power := rfl

@[simp] theorem modSrc_pending (n : Nat) (g : Src → Src) (s : State) : (modSrc n g s).pending = s.pending := rfl
@[simp] theorem modSrc_now (n : Nat) (g : Src → Src) (s : State) : (modSrc n g s).now = s.now := rfl
@[simp] theorem modSrc_freeCtr (n : Nat) (g : Src → Src) (s : State) : (modSrc n g s).freeCtr = s.freeCtr := rfl
@[simp] theorem modSrc_outbox (n : Nat) (g : Src → Src) (s : State) : (modSrc n g s).outbox = s.outbox := rfl
@[simp] theorem modSrc_readData (n : Nat) (g : Src → Src) (s : State) : (modSrc n g s).readData = s.readData := rfl
@[simp] theorem modSrc_fns (n : Nat) (g : Src → Src) (s : State) : (modSrc n g s).fns = s.fns := rfl
@[simp] theorem modSrc_quotas (n : Nat) (g : Src → Src) (s : State) : (modSrc n g s).quotas = s.quotas := rfl
@[simp] theorem modSrc_vfEnable (n : Nat) (g : Src → Src) (s : State) : (modSrc n g s).vfEnable = s.vfEnable := rfl
@[simp] theorem modSrc_flows (n : Nat) (g : Src → Src) (s : State) : (modSrc n g s).flows = s.flows := rfl
@[simp] theorem modSrc_arrivals (n : Nat) (g : Src → Src) (s : State) : (modSrc n g s).arrivals = s.arrivals := rfl
@[simp] theorem modSrc_nextSerial (n : Nat) (g : Src → Src) (s : State) : (modSrc n g s).nextSerial = s.nextSerial := rfl
@[simp] theorem modSrc_harbour (n : Nat) (g : Src → Src) (s : State) : (modSrc n g s).harbour = s.harbour := rfl
@[simp] theorem modSrc_journal (n : Nat) (g : Src → Src) (s : State) : (modSrc n g s).journal = s.journal := rfl
@[simp] theorem modSrc_crc (n : Nat) (g : Src → Src) (s : State) : (modSrc n g s).crc = s.crc := rfl
@[simp] theorem modSrc_units (n : Nat) (g : Src → Src) (s : State) : (modSrc n g s).units = s.units := rfl
@[simp] theorem modSrc_chans (n : Nat) (g : Src → Src) (s : State) : (modSrc n g s).chans = s.chans := rfl
@[simp] theorem modSrc_outs (n : Nat) (g : Src → Src) (s : State) : (modSrc n g s).outs = s.outs := rfl
@[simp] theorem modSrc_surfs (n : Nat) (g : Src → Src) (s : State) : (modSrc n g s).surfs = s.surfs := rfl
@[simp] theorem modSrc_decs (n : Nat) (g : Src → Src) (s : State) : (modSrc n g s).decs = s.decs := rfl
@[simp] theorem modSrc_decodes (n : Nat) (g : Src → Src) (s : State) : (modSrc n g s).decodes = s.decodes := rfl
@[simp] theorem modSrc_mem (n : Nat) (g : Src → Src) (s : State) : (modSrc n g s).mem = s.mem := rfl
@[simp] theorem modSrc_fab (n : Nat) (g : Src → Src) (s : State) : (modSrc n g s).fab = s.fab := rfl
@[simp] theorem modSrc_net (n : Nat) (g : Src → Src) (s : State) : (modSrc n g s).net = s.net := rfl
@[simp] theorem modSrc_time (n : Nat) (g : Src → Src) (s : State) : (modSrc n g s).time = s.time := rfl
@[simp] theorem modSrc_audio (n : Nat) (g : Src → Src) (s : State) : (modSrc n g s).audio = s.audio := rfl
@[simp] theorem modSrc_pair (n : Nat) (g : Src → Src) (s : State) : (modSrc n g s).pair = s.pair := rfl
@[simp] theorem modSrc_upd (n : Nat) (g : Src → Src) (s : State) : (modSrc n g s).upd = s.upd := rfl
@[simp] theorem modSrc_power (n : Nat) (g : Src → Src) (s : State) : (modSrc n g s).power = s.power := rfl

@[simp] theorem setCrc_pending (u : Nat) (x : CrcUnit) (s : State) : (setCrc u x s).pending = s.pending := rfl
@[simp] theorem setCrc_now (u : Nat) (x : CrcUnit) (s : State) : (setCrc u x s).now = s.now := rfl
@[simp] theorem setCrc_freeCtr (u : Nat) (x : CrcUnit) (s : State) : (setCrc u x s).freeCtr = s.freeCtr := rfl
@[simp] theorem setCrc_outbox (u : Nat) (x : CrcUnit) (s : State) : (setCrc u x s).outbox = s.outbox := rfl
@[simp] theorem setCrc_readData (u : Nat) (x : CrcUnit) (s : State) : (setCrc u x s).readData = s.readData := rfl
@[simp] theorem setCrc_fns (u : Nat) (x : CrcUnit) (s : State) : (setCrc u x s).fns = s.fns := rfl
@[simp] theorem setCrc_quotas (u : Nat) (x : CrcUnit) (s : State) : (setCrc u x s).quotas = s.quotas := rfl
@[simp] theorem setCrc_vfEnable (u : Nat) (x : CrcUnit) (s : State) : (setCrc u x s).vfEnable = s.vfEnable := rfl
@[simp] theorem setCrc_flows (u : Nat) (x : CrcUnit) (s : State) : (setCrc u x s).flows = s.flows := rfl
@[simp] theorem setCrc_arrivals (u : Nat) (x : CrcUnit) (s : State) : (setCrc u x s).arrivals = s.arrivals := rfl
@[simp] theorem setCrc_nextSerial (u : Nat) (x : CrcUnit) (s : State) : (setCrc u x s).nextSerial = s.nextSerial := rfl
@[simp] theorem setCrc_irq (u : Nat) (x : CrcUnit) (s : State) : (setCrc u x s).irq = s.irq := rfl
@[simp] theorem setCrc_harbour (u : Nat) (x : CrcUnit) (s : State) : (setCrc u x s).harbour = s.harbour := rfl
@[simp] theorem setCrc_journal (u : Nat) (x : CrcUnit) (s : State) : (setCrc u x s).journal = s.journal := rfl
@[simp] theorem setCrc_units (u : Nat) (x : CrcUnit) (s : State) : (setCrc u x s).units = s.units := rfl
@[simp] theorem setCrc_chans (u : Nat) (x : CrcUnit) (s : State) : (setCrc u x s).chans = s.chans := rfl
@[simp] theorem setCrc_outs (u : Nat) (x : CrcUnit) (s : State) : (setCrc u x s).outs = s.outs := rfl
@[simp] theorem setCrc_surfs (u : Nat) (x : CrcUnit) (s : State) : (setCrc u x s).surfs = s.surfs := rfl
@[simp] theorem setCrc_decs (u : Nat) (x : CrcUnit) (s : State) : (setCrc u x s).decs = s.decs := rfl
@[simp] theorem setCrc_decodes (u : Nat) (x : CrcUnit) (s : State) : (setCrc u x s).decodes = s.decodes := rfl
@[simp] theorem setCrc_mem (u : Nat) (x : CrcUnit) (s : State) : (setCrc u x s).mem = s.mem := rfl
@[simp] theorem setCrc_fab (u : Nat) (x : CrcUnit) (s : State) : (setCrc u x s).fab = s.fab := rfl
@[simp] theorem setCrc_net (u : Nat) (x : CrcUnit) (s : State) : (setCrc u x s).net = s.net := rfl
@[simp] theorem setCrc_time (u : Nat) (x : CrcUnit) (s : State) : (setCrc u x s).time = s.time := rfl
@[simp] theorem setCrc_audio (u : Nat) (x : CrcUnit) (s : State) : (setCrc u x s).audio = s.audio := rfl
@[simp] theorem setCrc_pair (u : Nat) (x : CrcUnit) (s : State) : (setCrc u x s).pair = s.pair := rfl
@[simp] theorem setCrc_upd (u : Nat) (x : CrcUnit) (s : State) : (setCrc u x s).upd = s.upd := rfl
@[simp] theorem setCrc_power (u : Nat) (x : CrcUnit) (s : State) : (setCrc u x s).power = s.power := rfl

@[simp] theorem answerRead_pending (f n v : Nat) (s : State) : (answerRead f n v s).pending = s.pending := rfl
@[simp] theorem answerRead_now (f n v : Nat) (s : State) : (answerRead f n v s).now = s.now := rfl
@[simp] theorem answerRead_freeCtr (f n v : Nat) (s : State) : (answerRead f n v s).freeCtr = s.freeCtr := rfl
@[simp] theorem answerRead_fns (f n v : Nat) (s : State) : (answerRead f n v s).fns = s.fns := rfl
@[simp] theorem answerRead_quotas (f n v : Nat) (s : State) : (answerRead f n v s).quotas = s.quotas := rfl
@[simp] theorem answerRead_vfEnable (f n v : Nat) (s : State) : (answerRead f n v s).vfEnable = s.vfEnable := rfl
@[simp] theorem answerRead_flows (f n v : Nat) (s : State) : (answerRead f n v s).flows = s.flows := rfl
@[simp] theorem answerRead_arrivals (f n v : Nat) (s : State) : (answerRead f n v s).arrivals = s.arrivals := rfl
@[simp] theorem answerRead_nextSerial (f n v : Nat) (s : State) : (answerRead f n v s).nextSerial = s.nextSerial := rfl
@[simp] theorem answerRead_irq (f n v : Nat) (s : State) : (answerRead f n v s).irq = s.irq := rfl
@[simp] theorem answerRead_harbour (f n v : Nat) (s : State) : (answerRead f n v s).harbour = s.harbour := rfl
@[simp] theorem answerRead_journal (f n v : Nat) (s : State) : (answerRead f n v s).journal = s.journal := rfl
@[simp] theorem answerRead_crc (f n v : Nat) (s : State) : (answerRead f n v s).crc = s.crc := rfl
@[simp] theorem answerRead_units (f n v : Nat) (s : State) : (answerRead f n v s).units = s.units := rfl
@[simp] theorem answerRead_chans (f n v : Nat) (s : State) : (answerRead f n v s).chans = s.chans := rfl
@[simp] theorem answerRead_outs (f n v : Nat) (s : State) : (answerRead f n v s).outs = s.outs := rfl
@[simp] theorem answerRead_surfs (f n v : Nat) (s : State) : (answerRead f n v s).surfs = s.surfs := rfl
@[simp] theorem answerRead_decs (f n v : Nat) (s : State) : (answerRead f n v s).decs = s.decs := rfl
@[simp] theorem answerRead_decodes (f n v : Nat) (s : State) : (answerRead f n v s).decodes = s.decodes := rfl
@[simp] theorem answerRead_mem (f n v : Nat) (s : State) : (answerRead f n v s).mem = s.mem := rfl
@[simp] theorem answerRead_fab (f n v : Nat) (s : State) : (answerRead f n v s).fab = s.fab := rfl
@[simp] theorem answerRead_net (f n v : Nat) (s : State) : (answerRead f n v s).net = s.net := rfl
@[simp] theorem answerRead_time (f n v : Nat) (s : State) : (answerRead f n v s).time = s.time := rfl
@[simp] theorem answerRead_audio (f n v : Nat) (s : State) : (answerRead f n v s).audio = s.audio := rfl
@[simp] theorem answerRead_pair (f n v : Nat) (s : State) : (answerRead f n v s).pair = s.pair := rfl
@[simp] theorem answerRead_upd (f n v : Nat) (s : State) : (answerRead f n v s).upd = s.upd := rfl
@[simp] theorem answerRead_power (f n v : Nat) (s : State) : (answerRead f n v s).power = s.power := rfl

/-! Reading after an update. -/

@[simp] theorem fnAt_setFn (s : State) (f : Nat) (x : FnState) : fnAt (setFn s f x) f = x := by simp [fnAt, setFn]
theorem fnAt_setFn_ne {s : State} {f g : Nat} {x : FnState} (h : f ≠ g) : fnAt (setFn s f x) g = fnAt s g := by simp [fnAt, setFn, fmap_getD_set_ne h]
@[simp] theorem fnAt_modFn (s : State) (f : Nat) (k : FnState → FnState) : fnAt (modFn s f k) f = k (fnAt s f) := by simp [modFn]
theorem fnAt_modFn_ne {s : State} {f g : Nat} {k : FnState → FnState} (h : f ≠ g) : fnAt (modFn s f k) g = fnAt s g := fnAt_setFn_ne h
@[simp] theorem sqAt_modSq (f n : Nat) (g : Sq → Sq) (s : State) : sqAt (fnAt (modSq f n g s) f) n = g (sqAt (fnAt s f) n) := by simp [modSq, sqAt]
@[simp] theorem cqAt_modCq (f n : Nat) (g : Cq → Cq) (s : State) : cqAt (fnAt (modCq f n g s) f) n = g (cqAt (fnAt s f) n) := by simp [modCq, cqAt]
@[simp] theorem sqAt_modCq (f n m k : Nat) (g : Cq → Cq) (s : State) : sqAt (fnAt (modCq f n g s) k) m = sqAt (fnAt s k) m := by
  by_cases h : f = k
  · subst h; simp [modCq, sqAt]
  · simp [modCq, fnAt_modFn_ne h]
@[simp] theorem cqAt_modSq (f n m k : Nat) (g : Sq → Sq) (s : State) : cqAt (fnAt (modSq f n g s) k) m = cqAt (fnAt s k) m := by
  by_cases h : f = k
  · subst h; simp [modSq, cqAt]
  · simp [modSq, fnAt_modFn_ne h]

@[simp] theorem chanAt_setChan (s : State) (c : Nat) (x : Chan) : chanAt (setChan s c x) c = some x := by simp [chanAt, setChan]
@[simp] theorem chanAt_modChan (s : State) (c : Nat) (g : Chan → Chan) : chanAt (modChan s c g) c = (chanAt s c).map g := by simp [chanAt, modChan]
theorem chanAt_modChan_ne {s : State} {c d : Nat} {g : Chan → Chan} (h : c ≠ d) : chanAt (modChan s c g) d = chanAt s d := by
  simp [chanAt, modChan, fmap_get?_modify_ne h]
@[simp] theorem outAt_setOut (s : State) (o : Nat) (x : Output) : outAt (setOut s o x) o = some x := by simp [outAt, setOut]
@[simp] theorem outAt_modOut (s : State) (o : Nat) (g : Output → Output) : outAt (modOut s o g) o = (outAt s o).map g := by simp [outAt, modOut]
@[simp] theorem surfAt_setSurf (s : State) (n : Nat) (x : Surface) : surfAt (setSurf s n x) n = some x := by simp [surfAt, setSurf]
@[simp] theorem surfAt_modSurf (s : State) (n : Nat) (g : Surface → Surface) : surfAt (modSurf s n g) n = (surfAt s n).map g := by simp [surfAt, modSurf]
@[simp] theorem decAt_setDec (s : State) (d : Nat) (x : Decoder) : decAt (setDec s d x) d = some x := by simp [decAt, setDec]
@[simp] theorem decAt_modDec (s : State) (d : Nat) (g : Decoder → Decoder) : decAt (modDec s d g) d = (decAt s d).map g := by simp [decAt, modDec]
@[simp] theorem laneAt_setLane (s : State) (l : Nat) (x : LaneSt) : laneAt (setLane s l x) l = x := by simp [laneAt, setLane]
@[simp] theorem laneAt_modLane (s : State) (l : Nat) (g : LaneSt → LaneSt) : laneAt (modLane s l g) l = g (laneAt s l) := by simp [modLane]
@[simp] theorem portAt_setPort (s : State) (p : Nat) (x : PortSt) : portAt (setPort s p x) p = x := by simp [portAt, setPort]
@[simp] theorem portAt_modPort (s : State) (p : Nat) (g : PortSt → PortSt) : portAt (modPort s p g) p = g (portAt s p) := by simp [modPort]
@[simp] theorem audPortAt_modAudPort (s : State) (p : Nat) (g : AudPort → AudPort) : audPortAt (modAudPort s p g) p = g (audPortAt s p) := by simp [audPortAt, modAudPort]
@[simp] theorem busAt_modBus (s : State) (b : Nat) (g : BusSt → BusSt) : busAt (modBus s b g) b = g (busAt s b) := by simp [busAt, modBus]
@[simp] theorem arbAt_modArb (s : State) (a : Nat) (g : Arb → Arb) : arbAt (modArb s a g) a = g (arbAt s a) := by simp [arbAt, modArb]
@[simp] theorem pcAt_modPc (s : State) (p : Nat) (g : PcCtl → PcCtl) : pcAt (modPc s p g) p = g (pcAt s p) := by simp [pcAt, modPc]
@[simp] theorem threadAt_modThread (s : State) (t : Nat) (g : Thread → Thread) : threadAt (modThread s t g) t = g (threadAt s t) := by simp [threadAt, modThread]
@[simp] theorem coreAt_modCore (s : State) (c : Nat) (g : SkerryCore → SkerryCore) : coreAt (modCore s c g) c = g (coreAt s c) := by simp [coreAt, modCore]
@[simp] theorem srcAt_modSrc (n : Nat) (g : Src → Src) (s : State) : srcAt (modSrc n g s) n = g (srcAt s n) := by simp [srcAt, modSrc]
theorem srcAt_modSrc_ne {n m : Nat} {g : Src → Src} {s : State} (h : n ≠ m) : srcAt (modSrc n g s) m = srcAt s m := by simp [srcAt, modSrc, fmap_getD_set_ne h]

@[simp] theorem flowCmds_setFlow (s : State) (k : Nat) (l : List Cmd) : flowCmds (setFlow s k l) k = l := by
  unfold flowCmds setFlow
  cases l with
  | nil => simp [FMap.getD, fmap_get?_erase]
  | cons c r => simp
theorem flowCmds_setFlow_ne {s : State} {k j : Nat} {l : List Cmd} (h : k ≠ j) : flowCmds (setFlow s k l) j = flowCmds s j := by
  unfold flowCmds setFlow
  cases l with
  | nil => simp [FMap.getD, fmap_get?_erase, h]
  | cons c r => simp [fmap_getD_set_ne h]

end Sys2Proof.Laws
end

