-- ==== Sys2Proof/Laws/Irq.lean ====
section
/-! SUPPORT. What the interrupt controller's evaluation can change (R274, R290 to R292). -/

namespace Sys2Proof.Laws

open Sys2Proof.Machine

/-- What every step of a fold keeps, the fold keeps. -/
theorem foldl_keeps {α β : Type} {P : β → Prop} {g : β → α → β} (h : ∀ s x, P s → P (g s x)) (l : List α) {s : β} (hs : P s) : P (l.foldl g s) := by
  induction l generalizing s with
  | nil => exact hs
  | cons x r ih => exact ih (h s x hs)

theorem pmeFor_cases (old s : State) : ∃ o, pmeFor old s = { s with outbox := o } := by
  unfold pmeFor
  refine foldl_keeps (P := fun t => ∃ o, t = { s with outbox := o }) ?_ _ ⟨s.outbox, rfl⟩
  rintro _ e ⟨o, rfl⟩
  split
  · split
    · exact ⟨_, rfl⟩
    · exact ⟨_, rfl⟩
  · exact ⟨_, rfl⟩

theorem fnAt_vectorSettle (s : State) (f : Nat) : ∃ n, fnAt (vectorSettle s) f = { fnAt s f with notified := n } := by
  unfold vectorSettle fnAt
  simp only [FMap.getD, fmap_get?_mapVals]
  cases FMap.get? s.fns f with
  | none => exact ⟨0, rfl⟩
  | some x => exact ⟨_, rfl⟩

theorem srcAt_stuckSettle (s : State) (n : Nat) : ∃ k, srcAt (stuckSettle s) n = { srcAt s n with stuckSince := k } := by
  unfold stuckSettle srcAt
  simp only [FMap.getD, fmap_get?_mapVals]
  cases FMap.get? s.irq.srcs n with
  | none => exact ⟨none, rfl⟩
  | some x =>
    simp only [Option.map_some, Option.getD_some]
    split
    · split
      · exact ⟨_, rfl⟩
      · exact ⟨x.stuckSince, rfl⟩
    · split
      · exact ⟨_, rfl⟩
      · exact ⟨x.stuckSince, rfl⟩

/-- Only the states of cores differ. -/
def SameButCores (s t : State) : Prop := ∃ cs, t = { s with harbour.cores := cs } ∧ ∀ c, ∃ st, FMap.getD cs c {} = { coreAt s c with st := st }

theorem modCore_sameButCores {s t : State} (h : SameButCores s t) (c : Nat) (st : CoreState) : SameButCores s (modCore t c (fun x => { x with st := st })) := by
  obtain ⟨cs, rfl, hc⟩ := h
  refine ⟨_, rfl, fun d => ?_⟩
  by_cases he : c = d
  · subst he
    obtain ⟨st', hst⟩ := hc c
    simp only [fmap_getD_set_self]
    exact ⟨st, by simp only [coreAt] at hst ⊢; rw [hst]⟩
  · simp only [fmap_getD_set_ne he]
    exact hc d

theorem coreSettle_cases (s : State) : SameButCores s (coreSettle s) := by
  unfold coreSettle
  refine foldl_keeps ?_ _ ⟨s.harbour.cores, rfl, fun c => ⟨(coreAt s c).st, rfl⟩⟩
  intro t c h
  dsimp only
  split
  · exact h
  · generalize (if ((coreAt t c).running.isSome || (coreAt t c).slot.isSome || !(readyFor t (32 + c)).isEmpty) = true then CoreState.run else CoreState.sleep) = st
    split
    · exact h
    · exact modCore_sameButCores h c st

/-- Everything the evaluation after a change of the controller can do: messages of PME, NOTIFIED bits, the count of R292, the state of cores. -/
theorem irqSettle_cases (old s : State) :
    ∃ o fs ss cs, irqSettle old s = { s with outbox := o, fns := fs, irq.srcs := ss, harbour.cores := cs }
      ∧ (∀ f, ∃ n, FMap.getD fs f {} = { fnAt s f with notified := n })
      ∧ (∀ n, ∃ k, FMap.getD ss n {} = { srcAt s n with stuckSince := k })
      ∧ ∀ c, ∃ st, FMap.getD cs c {} = { coreAt s c with st := st } := by
  obtain ⟨o, ho⟩ := pmeFor_cases old s
  have hf := fnAt_vectorSettle (pmeFor old s)
  have hs := srcAt_stuckSettle (vectorSettle (pmeFor old s))
  obtain ⟨cs, hc, hcs⟩ := coreSettle_cases (stuckSettle (vectorSettle (pmeFor old s)))
  unfold irqSettle
  rw [hc]
  rw [ho] at hf hs hcs ⊢
  exact ⟨o, _, _, cs, rfl, hf, hs, hcs⟩

@[simp] theorem irqSettle_chans (old s : State) : (irqSettle old s).chans = s.chans := by obtain ⟨_, _, _, _, h, _⟩ := irqSettle_cases old s; rw [h]
@[simp] theorem irqSettle_outs (old s : State) : (irqSettle old s).outs = s.outs := by obtain ⟨_, _, _, _, h, _⟩ := irqSettle_cases old s; rw [h]
@[simp] theorem irqSettle_surfs (old s : State) : (irqSettle old s).surfs = s.surfs := by obtain ⟨_, _, _, _, h, _⟩ := irqSettle_cases old s; rw [h]
@[simp] theorem irqSettle_decs (old s : State) : (irqSettle old s).decs = s.decs := by obtain ⟨_, _, _, _, h, _⟩ := irqSettle_cases old s; rw [h]
@[simp] theorem irqSettle_flows (old s : State) : (irqSettle old s).flows = s.flows := by obtain ⟨_, _, _, _, h, _⟩ := irqSettle_cases old s; rw [h]
@[simp] theorem irqSettle_time (old s : State) : (irqSettle old s).time = s.time := by obtain ⟨_, _, _, _, h, _⟩ := irqSettle_cases old s; rw [h]
@[simp] theorem irqSettle_journal (old s : State) : (irqSettle old s).journal = s.journal := by obtain ⟨_, _, _, _, h, _⟩ := irqSettle_cases old s; rw [h]
@[simp] theorem irqSettle_power (old s : State) : (irqSettle old s).power = s.power := by obtain ⟨_, _, _, _, h, _⟩ := irqSettle_cases old s; rw [h]

theorem fnAt_irqSettle (old s : State) (f : Nat) : ∃ n, fnAt (irqSettle old s) f = { fnAt s f with notified := n } := by
  obtain ⟨_, _, _, _, h, hf, _⟩ := irqSettle_cases old s
  rw [h]; exact hf f

theorem srcAt_irqSettle (old s : State) (n : Nat) : ∃ k, srcAt (irqSettle old s) n = { srcAt s n with stuckSince := k } := by
  obtain ⟨_, _, _, _, h, _, hs, _⟩ := irqSettle_cases old s
  rw [h]; exact hs n

end Sys2Proof.Laws
end

