-- ==== Sys2Proof/Laws/Memory.lean ====
section
/-! SUPPORT. Laws of surface memory: every operation keeps the canonical form, and a read after a write (R182, R500). -/

namespace Sys2Proof.Laws

open Sys2Proof.Machine

/-- The canonical form, entry by entry. -/
theorem memory_wf_cons {e : Host.Cell} {r : List Host.Cell} :
    Memory.wf (e :: r) = true ↔ e.2 ≠ Memory.absent ∧ (∀ x ∈ r, e.1 < x.1) ∧ Memory.wf r = true := by
  obtain ⟨j, b⟩ := e
  induction r generalizing j b with
  | nil => simp [Memory.wf]
  | cons d r ih =>
    obtain ⟨k, c⟩ := d
    simp only [Memory.wf, Bool.and_eq_true, decide_eq_true_eq, bne_iff_ne, ih, List.mem_cons, forall_eq_or_imp]
    constructor
    · rintro ⟨⟨hb, h⟩, hc, hr, hw⟩; exact ⟨hb, ⟨h, fun x hx => Nat.lt_trans h (hr x hx)⟩, hc, hr, hw⟩
    · rintro ⟨hb, ⟨h, _⟩, hc, hr, hw⟩; exact ⟨⟨hb, h⟩, hc, hr, hw⟩

theorem memory_mem_write {m : List Host.Cell} {a : Nat} {v : Byte} {x : Host.Cell} (h : x ∈ Memory.write m a v) : x = (a, v) ∨ x ∈ m := by
  induction m with
  | nil => simp only [Memory.write] at h; split at h <;> simp_all
  | cons e r ih =>
    obtain ⟨j, b⟩ := e
    simp only [Memory.write] at h
    split at h
    · split at h <;> simp_all
    · split at h
      · split at h
        · exact .inr (List.mem_cons_of_mem _ h)
        · rcases List.mem_cons.mp h with h | h
          · exact .inl h
          · exact .inr (List.mem_cons_of_mem _ h)
      · simp only [List.mem_cons] at h ⊢
        rcases h with h | h
        · tauto
        · rcases ih h with h | h <;> tauto

/-- A write keeps the canonical form. -/
theorem memory_wf_write {m : List Host.Cell} (a : Nat) (v : Byte) (h : Memory.wf m = true) : Memory.wf (Memory.write m a v) = true := by
  induction m with
  | nil => simp only [Memory.write]; split <;> simp_all [Memory.wf]
  | cons e r ih =>
    obtain ⟨j, b⟩ := e
    have hc := memory_wf_cons.mp h
    simp only [Memory.write]
    split
    · split
      · exact h
      · refine memory_wf_cons.mpr ⟨by assumption, ?_, h⟩
        intro x hx
        rcases List.mem_cons.mp hx with rfl | hx
        · assumption
        · exact Nat.lt_trans (by assumption) (hc.2.1 x hx)
    · split
      · split
        · exact hc.2.2
        · subst_vars; exact memory_wf_cons.mpr ⟨by assumption, hc.2.1, hc.2.2⟩
      · refine memory_wf_cons.mpr ⟨hc.1, ?_, ih hc.2.2⟩
        intro x hx
        rcases memory_mem_write hx with rfl | hx
        · simp only; omega
        · exact hc.2.1 x hx

/-- A run of writes keeps the canonical form. -/
theorem memory_wf_writeAll {m : List Host.Cell} (a : Nat) (bs : List Byte) (h : Memory.wf m = true) : Memory.wf (Memory.writeAll m a bs) = true := by
  induction bs generalizing m a with
  | nil => exact h
  | cons b r ih => exact ih (a + 1) (memory_wf_write a b h)

/-- Below its first listed offset memory reads as if nothing were written. -/
theorem memory_read_below {m : List Host.Cell} {a : Nat} (h : ∀ x ∈ m, a < x.1) : Memory.read m a = Memory.absent := by
  cases m with
  | nil => rfl
  | cons e r =>
    obtain ⟨j, b⟩ := e
    have := h (j, b) (by simp)
    simp only [Memory.read]
    rw [if_neg (by simp only at this; omega), if_pos (by simpa using this)]

/-- A read after a write. -/
theorem memory_read_write {m : List Host.Cell} (a c : Nat) (v : Byte) (h : Memory.wf m = true) :
    Memory.read (Memory.write m a v) c = if a = c then v else Memory.read m c := by
  induction m with
  | nil => simp only [Memory.write]; split <;> split <;> simp_all [Memory.read]
  | cons e r ih =>
    obtain ⟨j, b⟩ := e
    have hc := memory_wf_cons.mp h
    have below : ∀ n, n ≤ j → n ≠ j → Memory.read ((j, b) :: r) n = Memory.absent := fun n h1 h2 => memory_read_below (by
      intro x hx
      rcases List.mem_cons.mp hx with rfl | hx
      · simp only; omega
      · have := hc.2.1 x hx; simp only at this; omega)
    simp only [Memory.write]
    split
    · split
      · by_cases e : a = c
        · subst e; simp only [if_true]; rw [below a (by omega) (by omega)]; simp_all
        · simp [e]
      · by_cases e : a = c
        · subst e; simp [Memory.read]
        · simp only [Memory.read, e, if_false]
          by_cases l : c < a
          · have : ¬ j = c := by omega
            have : c < j := by omega
            simp_all
          · simp [if_neg l]
    · split
      · subst_vars
        split
        · by_cases e : j = c
          · subst e; subst_vars; simp only [if_true]; exact memory_read_below hc.2.1
          · simp only [Memory.read, e, if_false]
            split
            · rename_i l; exact memory_read_below (fun x hx => Nat.lt_trans l (hc.2.1 x hx))
            · rfl
        · by_cases e : j = c <;> simp [Memory.read, e]
      · simp only [Memory.read]
        by_cases e : j = c
        · subst e; simp; omega
        · simp only [e, if_false]
          by_cases l : c < j
          · simp [l]; omega
          · simp only [l, if_false]; exact ih hc.2.2

/-- A read after a run of writes. -/
theorem memory_read_writeAll {m : List Host.Cell} (a c : Nat) (bs : List Byte) (h : Memory.wf m = true) :
    Memory.read (Memory.writeAll m a bs) c = if a ≤ c ∧ c < a + bs.length then bs.getD (c - a) 0 else Memory.read m c := by
  induction bs generalizing m a with
  | nil => simp only [Memory.writeAll, List.length_nil]; rw [if_neg (by omega)]
  | cons b r ih =>
    rw [Memory.writeAll, ih (a + 1) (memory_wf_write a b h), memory_read_write a c b h]
    simp only [List.length_cons]
    by_cases e : a = c
    · subst e; rw [if_neg (by omega), if_pos rfl, if_pos (by omega)]; simp
    · rw [if_neg e]
      by_cases l : a + 1 ≤ c ∧ c < a + 1 + r.length
      · rw [if_pos l, if_pos (by omega)]
        obtain ⟨n, rfl⟩ : ∃ n, c = a + 1 + n := ⟨c - (a + 1), by omega⟩
        rw [show a + 1 + n - a = n + 1 by omega, show a + 1 + n - (a + 1) = n by omega]
        simp
      · rw [if_neg l, if_neg (by omega)]

theorem fmap_get?_mem {α : Type} {m : FMap α} {k : Nat} {v : α} (h : FMap.get? m k = some v) : (k, v) ∈ m := by
  induction m with
  | nil => simp [FMap.get?] at h
  | cons e r ih =>
    obtain ⟨j, w⟩ := e
    simp only [FMap.get?] at h
    split at h
    · simp_all
    · exact List.mem_cons_of_mem _ (ih h)

/-- Every buffer of a surface in canonical form is. -/
theorem bufferMem_wf {x : Surface} (b : Nat) (h : ∀ m ∈ x.mem, Memory.wf m.2 = true) : Memory.wf (bufferMem x b) = true := by
  unfold bufferMem FMap.getD
  cases e : FMap.get? x.mem b with
  | none => rfl
  | some m => exact h _ (fmap_get?_mem e)

/-- A write into a buffer keeps the form of all buffers. -/
theorem writeBuffer_wf {x : Surface} (b off : Nat) (bs : List Byte) (h : ∀ m ∈ x.mem, Memory.wf m.2 = true) :
    ∀ m ∈ (writeBuffer x b off bs).mem, Memory.wf m.2 = true := by
  intro m hm
  simp only [writeBuffer] at hm
  split at hm
  · exact h m (fmap_mem_erase hm)
  · rcases fmap_mem_set hm with rfl | hm
    · exact memory_wf_writeAll off bs (bufferMem_wf b h)
    · exact h m hm

/-- A write into a buffer puts the bytes into that buffer and leaves the others. -/
theorem writeBuffer_bufferMem (x : Surface) (b off : Nat) (bs : List Byte) (j : Nat) :
    bufferMem (writeBuffer x b off bs) j = if b = j then Memory.writeAll (bufferMem x b) off bs else bufferMem x j := by
  have hm : bufferMem (writeBuffer x b off bs) j = FMap.getD (if (Memory.writeAll (bufferMem x b) off bs).isEmpty then FMap.erase x.mem b
      else FMap.set x.mem b (Memory.writeAll (bufferMem x b) off bs)) j [] := rfl
  have hx : bufferMem x j = (FMap.get? x.mem j).getD [] := rfl
  rw [hm, hx]
  generalize Memory.writeAll (bufferMem x b) off bs = m
  unfold FMap.getD
  split
  · next he => rw [fmap_get?_erase, List.isEmpty_iff.mp he]; split <;> rfl
  · rw [fmap_get?_set]; split <;> rfl

end Sys2Proof.Laws
end

