-- ==== Sys2Proof/Laws/Records.lean ====
section
/-! SUPPORT. What writing a record, and completing a command, can change (R45, R46, R51, R63). -/

namespace Sys2Proof.Laws

open Sys2Proof.Machine

/-- No object, unit or register outside the command path differs: functions, flows, output, journal and the pair's and the update's command records may. -/
structure SameButCommands (s t : State) : Prop where
  pending : t.pending = s.pending
  now : t.now = s.now
  freeCtr : t.freeCtr = s.freeCtr
  readData : t.readData = s.readData
  quotas : t.quotas = s.quotas
  vfEnable : t.vfEnable = s.vfEnable
  arrivals : t.arrivals = s.arrivals
  nextSerial : t.nextSerial = s.nextSerial
  irq : t.irq = s.irq
  harbour : t.harbour = s.harbour
  crc : t.crc = s.crc
  units : t.units = s.units
  chans : t.chans = s.chans
  outs : t.outs = s.outs
  surfs : t.surfs = s.surfs
  decs : t.decs = s.decs
  mem : t.mem = s.mem
  fab : t.fab = s.fab
  net : t.net = s.net
  time : t.time = s.time
  audio : t.audio = s.audio
  power : t.power = s.power

theorem SameButCommands.refl (s : State) : SameButCommands s s := by constructor <;> rfl

theorem SameButCommands.trans {s t u : State} (h : SameButCommands s t) (g : SameButCommands t u) : SameButCommands s u := by
  constructor
  · rw [g.pending, h.pending]
  · rw [g.now, h.now]
  · rw [g.freeCtr, h.freeCtr]
  · rw [g.readData, h.readData]
  · rw [g.quotas, h.quotas]
  · rw [g.vfEnable, h.vfEnable]
  · rw [g.arrivals, h.arrivals]
  · rw [g.nextSerial, h.nextSerial]
  · rw [g.irq, h.irq]
  · rw [g.harbour, h.harbour]
  · rw [g.crc, h.crc]
  · rw [g.units, h.units]
  · rw [g.chans, h.chans]
  · rw [g.outs, h.outs]
  · rw [g.surfs, h.surfs]
  · rw [g.decs, h.decs]
  · rw [g.mem, h.mem]
  · rw [g.fab, h.fab]
  · rw [g.net, h.net]
  · rw [g.time, h.time]
  · rw [g.audio, h.audio]
  · rw [g.power, h.power]

theorem emit_same (s : State) (o : Out) : SameButCommands s (emit s o) := by constructor <;> rfl
theorem modFn_same (s : State) (f : Nat) (g : FnState → FnState) : SameButCommands s (modFn s f g) := by constructor <;> rfl
theorem modSq_same (f n : Nat) (g : Sq → Sq) (s : State) : SameButCommands s (modSq f n g s) := modFn_same s f _
theorem modCq_same (f n : Nat) (g : Cq → Cq) (s : State) : SameButCommands s (modCq f n g s) := modFn_same s f _
theorem setFlow_same (s : State) (k : Nat) (l : List Cmd) : SameButCommands s (setFlow s k l) := by constructor <;> rfl
theorem modCmd_same (n : Nat) (g : Cmd → Cmd) (s : State) : SameButCommands s (modCmd n g s) := by constructor <;> rfl
theorem journalAdd_same (s : State) (a b c d e f : Nat) : SameButCommands s (journalAdd s a b c d e f) := by constructor <;> rfl
theorem settleSqs_same (f : Nat) (s : State) : SameButCommands s (settleSqs f s) := modFn_same s f _
theorem tagDone_same (f k : Nat) (t : Word) (s : State) : SameButCommands s (tagDone f k t s) := by constructor <;> rfl

theorem foldl_same {α : Type} {g : State → α → State} (h : ∀ s x, SameButCommands s (g s x)) (l : List α) (s : State) : SameButCommands s (l.foldl g s) := by
  induction l generalizing s with
  | nil => exact .refl s
  | cons x r ih => exact (h s x).trans (ih _)

theorem cqWrite_same (f n : Nat) (r : Rec) (a : Bool) (sub : Option Nat) (s : State) : SameButCommands s (cqWrite f n r a sub s) := (modCq_same _ _ _ _).trans (emit_same _ _)

theorem cqFails_same (f n : Nat) (r : Rec) (s : State) : SameButCommands s (cqFails f n r s) := (modCq_same _ _ _ _).trans (journalAdd_same _ _ _ _ _ _ _)

theorem cqPut_same (f n : Nat) (r : Rec) (a : Bool) (sub : Option Nat) (ok : Bool) (s : State) : SameButCommands s (cqPut f n r a sub ok s) := by
  unfold cqPut
  simp only
  split
  · exact modCq_same _ _ _ _
  · split
    · exact cqWrite_same _ _ _ _ _ _
    · exact (modCq_same _ _ _ _).trans (cqFails_same _ _ _ _)

theorem cqDrainFrom_same (f n : Nat) (failAt : Option Nat) (l : List HeldRec) (s : State) : SameButCommands s (cqDrainFrom f n failAt l s) := by
  induction l generalizing failAt s with
  | nil => exact modCq_same _ _ _ _
  | cons h r ih =>
    unfold cqDrainFrom
    split
    · exact (modCq_same _ _ _ _).trans (cqFails_same _ _ _ _)
    · exact (cqWrite_same _ _ _ _ _ _).trans (ih _ _)

theorem cqDrain_same (f n : Nat) (failAt : Option Nat) (s : State) : SameButCommands s (cqDrain f n failAt s) := cqDrainFrom_same _ _ _ _ _

theorem ferrySendKept_same (c : Client) (k : FerryKept) (s : State) : SameButCommands s (ferrySendKept c k s) :=
  (foldl_same (fun s _ => emit_same s _) _ _).trans (emit_same _ _)

theorem ferryFinish_same (c : Client) (k : FerryKept) (s : State) : SameButCommands s (ferryFinish c k s) :=
  SameButCommands.trans (by constructor <;> rfl) (ferrySendKept_same c k _)

theorem orphanOrWrite_same (c : Cmd) (r : Rec) (s : State) : SameButCommands s (orphanOrWrite c r s) := by
  unfold orphanOrWrite
  simp only
  split
  · split
    · exact (modCq_same _ _ _ _).trans (cqPut_same _ _ _ _ _ _ _)
    · constructor <;> rfl
  · constructor <;> rfl

theorem updateFailed_same (op o : Nat) (s : State) : SameButCommands s (updateFailed op o s) := by
  unfold updateFailed
  split
  · constructor <;> rfl
  · exact .refl s

/-- A completing command changes no object, unit or register outside the command path (R63). -/
theorem completeCmd_same (n o p r0 r1 : Nat) (a : List Byte) (ok : Bool) (s : State) : SameButCommands s (completeCmd n o p r0 r1 a ok s) := by
  unfold completeCmd
  split
  · exact .refl s
  · rename_i k c _
    have hu := (setFlow_same s k ((flowCmds s k).filter (fun x => x.serial != n))).trans (updateFailed_same (opcodeOf c.packet) o _)
    generalize updateFailed (opcodeOf c.packet) o (setFlow s k ((flowCmds s k).filter (fun x => x.serial != n))) = u at hu ⊢
    refine hu.trans ?_
    have ht : SameButCommands u (if c.mirrorSerial.isSome = true then tagDone c.fn.val (flowOf c.packet) (tagOf c.packet) u else u) := by
      split
      · exact tagDone_same _ _ _ _
      · exact .refl _
    dsimp only
    split
    · exact ferryFinish_same _ _ _
    · split
      · split
        · exact (tagDone_same _ _ _ _).trans (orphanOrWrite_same _ _ _)
        · exact tagDone_same _ _ _ _
      · generalize (if c.mirrorSerial.isSome = true then tagDone c.fn.val (flowOf c.packet) (tagOf c.packet) u else u) = v at ht ⊢
        refine ht.trans ?_
        split
        · exact ((modCq_same _ _ _ _).trans (journalAdd_same _ _ _ _ _ _ _)).trans (settleSqs_same _ _)
        · exact (cqPut_same _ _ _ _ _ _ _).trans (settleSqs_same _ _)

end Sys2Proof.Laws
end

