-- ==== Sys2Proof/Laws/Still.lean ====
section
/-! SUPPORT. What a device does that acts, and that nothing reaches one that does not (R473, R476, R484). -/

namespace Sys2Proof.Laws

open Sys2Proof.Machine

variable {s : State}

theorem act_acting (k : State → State) (h : acting s = true) : act s k = k s := if_pos h
theorem actAfter_acting (dt : Nat) (k : State → State) (h : acting s = true) : actAfter dt s k = k (advance dt s) := if_pos h

theorem act_still (k : State → State) (h : acting s = false) : act s k = s := by simp [act, h]
theorem actAfter_still (dt : Nat) (k : State → State) (h : acting s = false) : actAfter dt s k = s := by simp [actAfter, h]
theorem fwUp_still (h : acting s = false) : fwUp s = false := by simp [fwUp, h]
theorem hostUp_still (h : acting s = false) : hostUp s = false := by simp [hostUp, h]

/-- A device that does not act starts no command. -/
theorem startRow_still (code : Nat) (m : Meaning) (q : FlowRef) (b : Bus) (h : acting s = false) : startRow code m q b s = s := by
  unfold startRow
  simp only [fwUp_still h, Bool.not_false, Bool.true_or, if_true]
  split <;> rfl

theorem unserved_cases (s : State) (f offset : Nat) : unserved f offset s = s ∨ unserved f offset s = emit s (.unsupported f offset) := by
  unfold unserved; split <;> simp

/-- A read that a device does not serve is answered with Unsupported Request, or not at all (R494). -/
theorem hostRead_still (f offset : Nat) (k : State → State) (h : acting s = false) : hostRead f offset k s = s ∨ hostRead f offset k s = emit s (.unsupported f offset) := by
  unfold hostRead
  simp only [hostUp_still h]
  exact unserved_cases s f offset

end Sys2Proof.Laws
end

