-- ==== Sys2Proof/WellFormed.lean ====
section
/-! DEFINITION. Which steps are well formed: what the syntax of a step must satisfy whatever the state. -/

namespace Sys2Proof

/-- An access of CTLWIN of size 4 or 8 (R491). -/
def sizeOk (size : Nat) : Bool := size == 4 || size == 8

/-- Offset within CTLWIN (R490: CTLWIN is 16 MiB). -/
def ctlOk (offset : Nat) : Bool := decide (offset < 16777216)

/-- A step is well formed: register steps name a register index and an access the window has, an interrupt write names a word of 32 sources. -/
def Instr.wf : Instr → Bool
  | .dbSq _ n _ | .dbCq _ n _ | .sqEnable _ n _ | .sqDisable _ n _ | .cqEnable _ n _ | .cqDisable _ n _ => decide (n < 1024)
  | .sqErrorClear _ n v => decide (n < 1024) && v.getLsbD 2
  | .cqErrorClear _ n v _ => decide (n < 1024) && v.getLsbD 2
  | .commandFetch _ n _ => decide (n < 1024)
  | .funcQuota _ vf _ => decide (1 ≤ vf) && decide (vf < 32)
  | .loReadLatch _ ⟨.ctl, o, size⟩ => ctlOk o && sizeOk size && o % size == 0
  | .loReadLatch _ x => decide (0 < x.size)
  | .timeAddend _ size _ => sizeOk size
  | .crcRunningWrite _ _ _ size _ => sizeOk size
  | .crcFold _ _ size _ => sizeOk size
  | .crcData _ _ size _ => sizeOk size
  | .registerWrite _ o size _ => ctlOk o && sizeOk size && o % size == 0
  | .ctlwinBadAccess _ o size _ => ctlOk o && !(sizeOk size && o % size == 0)
  | .surfwinWrite _ _ bytes => decide (0 < bytes.length)
  | .crcDataPort _ _ bytes => decide (0 < bytes.length)
  | _ => true

end Sys2Proof
end

