-- ==== Sys2Proof/Tests/Slice0.lean ====
section
/-! SUPPORT. Tests: ill-formed terms that the check refuses, single steps whose results the spec gives, and for every statement with hypotheses a state and operands that meet them (witness_…). -/

namespace Sys2Proof.Tests

open Sys2Proof.Machine

set_option Elab.async false

/-! States and commands that tests are built from. -/

/-- A packet: opcode and flags in word 0, then the words listed. -/
def pk (code : Nat) (ws : FMap Nat) : Packet :=
  let w (i : Nat) : Word := BitVec.ofNat 32 (if i = 0 then code else FMap.getD ws i 0)
  #v[w 0, w 1, w 2, w 3, w 4, w 5, w 6, w 7, w 8, w 9, w 10, w 11, w 12, w 13, w 14, w 15]

/-- PF0's command in its flow 0. -/
def cm (code : Nat) (ws : FMap Nat) : Cmd := { packet := pk code ws }
def q0 : FlowRef := .host 0 0

/-- A state with a command at the front of PF0's flow 0. -/
def at0 (c : Cmd) (s : State) : State := { s with flows := [(0, [c])], nextSerial := 1 }

/-- The command is ready in that state. -/
def go (code : Nat) (ws : FMap Nat) (s : State) : Bool := ready code q0 (cm code ws) (at0 (cm code ws) s)

/-- A bus on which every access succeeds. -/
def okBus : Bus := {}

/-- A function with SQ 0 and CQ 0 of 4 slots enabled; the SQ holds one unfetched entry. -/
def ringFn : FnState :=
  { sqs := [(0, { enable := true, active := true, slots := 4, tail := 1, head := 0, lBase := 0x1000 })],
    cqs := [(0, { enable := true, active := true, slots := 4, head := 0, tail := 1, lBase := 0x2000, occ := [{ announces := true, sub := none }] })] }
def ringState : State := { fns := [(0, ringFn)], arrivals := [(0, [0])] }

/-! Well-formedness: an ill-formed term for each check. -/

theorem test_wf_refuses_queue_index : Instr.wf (.dbSq 0 1024 0) = false := by decide
theorem test_wf_refuses_error_clear : Instr.wf (.sqErrorClear 0 0 1) = false := by decide
theorem test_wf_refuses_cq_error_clear : Instr.wf (.cqErrorClear 0 0 1 (some 0)) = false := by decide
theorem test_wf_refuses_fetch_index : Instr.wf (.commandFetch 0 1024 .error) = false := by decide
theorem test_wf_refuses_quota_of_pf0 : Instr.wf (.funcQuota 0 0 0) = false := by decide
theorem test_wf_refuses_lo_offset : Instr.wf (.loReadLatch 0 ⟨.ctl, 6, 4⟩) = false := by decide
theorem test_wf_refuses_lo_window : Instr.wf (.loReadLatch 0 ⟨.ctl, 0x1000000, 4⟩) = false := by decide
theorem test_wf_refuses_addend_size : Instr.wf (.timeAddend 0 2 0) = false := by decide
theorem test_wf_refuses_running_size : Instr.wf (.crcRunningWrite 0 0 false 1 0) = false := by decide
theorem test_wf_refuses_fold_size : Instr.wf (.crcFold 0 0 16 0) = false := by decide
theorem test_wf_refuses_data_size : Instr.wf (.crcData 0 0 3 0) = false := by decide
theorem test_wf_refuses_unaligned_write : Instr.wf (.registerWrite 0 2 4 0) = false := by decide
theorem test_wf_refuses_good_access : Instr.wf (.ctlwinBadAccess 0 8 4 true) = false := by decide
theorem test_wf_refuses_empty_surfwin : Instr.wf (.surfwinWrite 0 0 []) = false := by decide
theorem test_wf_refuses_empty_port_write : Instr.wf (.crcDataPort 0 0 []) = false := by decide
theorem test_wf_accepts : Instr.wf (.dbSq 0 1023 0) = true ∧ Instr.wf (.registerWrite 0 8 4 0) = true ∧ Instr.wf (.funcQuota 0 31 0) = true := by decide

/-! Witnesses: host interface (01 to 03). -/

theorem witness_DoorbellsMoveTheRing :
    queueWritable ringState 0 = true ∧ sqIn ringState 0 0 = true ∧ (sqAt (fnAt ringState 0) 0).enable = true ∧ (sqAt (fnAt ringState 0) 0).active = true ∧
      3 < (sqAt (fnAt ringState 0) 0).slots ∧ 3 ≠ (sqAt (fnAt ringState 0) 0).tail ∧ ringCount 4 0 1 ≤ ringCount 4 0 3 ∧ (sqAt (fnAt ringState 0) 0).slots ≤ 4 ∧
      cqIn ringState 0 0 = true ∧ (cqAt (fnAt ringState 0) 0).enable = true ∧ ringCount 4 0 1 ≤ (cqAt (fnAt ringState 0) 0).occ.length ∧
      (cqAt (fnAt ringState 0) 0).occ.length < ringCount 4 0 2 ∧ (sqAt (fnAt ringState 0) 1).enable = false ∧ (cqAt (fnAt ringState 0) 1).enable = false := by decide

theorem witness_QueuesAreEnabledAndDisabled :
    queueWritable ringState 0 = true ∧ (0x300 : Word).getLsbD 2 = false ∧ sqIn ringState 0 1023 = true ∧ (sqAt (fnAt ringState 0) 1023).enable = false ∧ (sqAt (fnAt ringState 0) 0).enable = true ∧
      cqIn ringState 0 1023 = true ∧ (cqAt (fnAt ringState 0) 1023).enable = false ∧ (cqAt (fnAt ringState 0) 0).enable = true := by decide

def heldState : State := { fns := [(0, { cqs := [(0, { enable := true, active := true, slots := 4, holding := true, error := true, held := [{ record := {}, announces := true, sub := none }] })] })] }
/-- An inactive SQ, one with three entries and one that is full of its own FENCE_WAIT's flow; and a device without power. -/
def idleSq : State := { fns := [(0, { sqs := [(0, { enable := true, active := false, slots := 4, tail := 1 })] })] }
def fullSq : State := { fns := [(0, { sqs := [(0, { enable := true, active := true, slots := 4, tail := 3 })] })] }
def noPower : State := { power := { on := false } }
theorem witness_DoorbellsBothWays :
    queueWritable idleSq 0 = true ∧ (sqAt (fnAt idleSq 0) 0).active = false ∧ queueWritable fullSq 0 = true ∧ ringCount 4 0 2 < ringCount 4 0 3 ∧ (3 : Word).toNat % 4096 = (sqAt (fnAt fullSq 0) 0).tail ∧
      (1 : Word).toNat % 4096 ≠ (cqAt (fnAt ringState 0) 0).head ∧ ringCount 4 0 1 ≤ (cqAt (fnAt ringState 0) 0).occ.length ∧ queueWritable noPower 0 = false ∧ sqIn State.reset 1 0 = false ∧ cqIn State.reset 0 1024 = false := by decide

theorem witness_ErrorsClearAndQuotasSet :
    sqIn ringState 0 0 = true ∧ (sqAt (fnAt ringState 0) 0).enable = true ∧ (5 : Word).getLsbD 0 = true ∧ (cqAt (fnAt ringState 0) 0).holding = false ∧
      queueWritable heldState 0 = true ∧ cqIn heldState 0 0 = true ∧ (cqAt (fnAt heldState 0) 0).enable = true ∧ (cqAt (fnAt heldState 0) 0).holding = true ∧ cqWritable (fnAt heldState 0) 0 = true ∧ 0 < (cqAt (fnAt heldState 0) 0).held.length ∧ (cqAt (fnAt heldState 0) 0).held.length ≤ 1 ∧
      hostUp State.reset = true ∧ State.reset.vfEnable = false ∧ sumBy (fun e => e.2.1) (State.reset.quotas.erase 31) + 1024 ≤ 1024 := by decide

/-- A fetched FENCE_WAIT on a fence that its own flow signals closes a cycle. -/
def ownFence : State := { ringState with fns := [(0, { ringFn with fences := [(0, { flow := some 0 })] })] }
theorem witness_FetchAppendsTheCommand :
    fetchable ringState 0 0 = true ∧ opcodeOf (pk 0x0100 []) ≠ 0x0104 ∧ fetchable ownFence 0 0 = true ∧ opcodeOf (pk 0x0104 [(3, 1)]) = 0x0104 ∧ fetchable State.reset 0 0 = false ∧
      (match exec (.commandFetch 0 0 (.packet (pk 0x0104 [(3, 1)]))) ownFence with | .next t => (allCmds t).any (fun e => e.2.cyclic) | _ => false) = true := by decide +kernel

theorem witness_SystemCommandsTakeEffect :
    flowCmds (at0 (cm 0x01FF []) State.reset) (flowKey q0) = [cm 0x01FF []] ∧ fwUp (at0 (cm 0x01FF []) State.reset) = true ∧ opInfo 0x01FF = none ∧
      loaderRefuses State.reset (cm 0x01FF []) = false ∧ go 0x0100 [] State.reset = true ∧ go 0x0102 [] State.reset = true ∧
      go 0x0102 [(2, 4)] State.reset = true ∧ fld (pk 0x0102 [(2, 4)]) 2 2 0 = 4 ∧ periodOfCode 4 ≠ State.reset.time.period ∧ allIdle (at0 (cm 0x0102 [(2, 4)]) State.reset) = true ∧
      pairOn State.reset = false ∧ State.reset.time.periodChange = none ∧
      go 0x0106 [(2, 0x700)] ringState = true ∧ eventHasObject 7 = false ∧ eventPf0 7 = true ∧ cqIn ringState 0 0 = true ∧ (fnAt ringState 0).subs.lowestFree 64 = some 0 ∧
      cqFree (fnAt ringState 0) 0 ≠ 0 ∧
      go 0x0106 [(2, 1), (4, 63)] { fns := [(0, { subs := [(63, { kind := 7, object := 0, cq := 0, flow := 0, sq := 0, quiet := false })] })] } = true ∧ flag (pk 0x0106 [(2, 1), (4, 63)]) 2 0 = true ∧
      go 0x0105 [(2, 31)] State.reset = true ∧ fld (pk 0x0105 [(2, 31)]) 2 4 0 = 31 := by decide

def running0 : State := { chans := [(0, { owner := 0, st := .running })] }
def subState (occ can : Bool) : State := { fns := [(0, { subs := [(0, { kind := 7, object := 0, cq := 0, flow := 0, sq := 0, quiet := false, occupied := occ, cancelling := can })] })] }
theorem witness_SystemCommandsOtherCases :
    go 0x0102 [(2, 5)] State.reset = true ∧ 4 < fld (pk 0x0102 [(2, 5)]) 2 2 0 ∧ go 0x0102 [(2, 1)] State.reset = true ∧ ((List.range 5).any (fun i => 1 ≤ i && periodOfCode i == State.reset.time.period)) = true ∧
      go 0x0102 [(2, 4)] running0 = true ∧ allIdle (at0 (cm 0x0102 [(2, 4)]) running0) = false ∧ go 0x0102 [(2, 4)] { time := { periodChange := some { period := 16, serial := 5 } } } = true ∧
      eventHasObject 2 = true ∧ eventOwner running0 2 0 = some 0 ∧ go 0x0106 [(2, 0x200)] { running0 with fns := ringState.fns } = true ∧
      go 0x0106 [(2, 1)] (subState true false) = true ∧ go 0x0106 [(2, 1)] (subState true true) = true ∧ go 0x0106 [(2, 1), (4, 5)] (subState true true) = true ∧
      (fnAt (subState true true) 0).subs.get? 5 = none ∧ go 0x0105 [(2, 0)] State.reset = true := by decide +kernel

theorem witness_FencesRiseBindAndRelease :
    go 0x0103 [(2, 1023), (3, 1)] State.reset = true ∧ (fenceAt State.reset 0 1023).value < dword (pk 0x0103 [(3, 1)]) 3 ∧ (fenceAt State.reset 0 1023).flow = none ∧
      (fenceAt ownFence 0 0).flow = some (flowKey q0 % 256) ∧ go 0x0103 [(3, 1)] ownFence = true ∧
      go 0x0103 [] State.reset = true ∧ dword (pk 0x0103 []) 3 ≤ (fenceAt State.reset 0 0).value ∧
      (fenceAt { fns := [(0, { fences := [(0, { value := 5, flow := some 1 })] })] } 0 0).flow ≠ some 0 ∧
      go 0x0104 [] State.reset = true ∧ go 0x0104 [(3, 1), (5, 60000)] State.reset = true ∧ word (pk 0x0104 [(3, 1), (5, 60000)]) 5 ≤ 60000 ∧ go 0x0104 [(3, 1), (5, 60001)] State.reset = true ∧
      inFront 0x0104 q0 { cm 0x0104 [(3, 1)] with cyclic := true } (at0 { cm 0x0104 [(3, 1)] with cyclic := true } State.reset) = true ∧
      flowCmds (at0 { cm 0x0104 [(3, 1)] with started := true, wait := .fence 0 0 1 500000 } State.reset) 0 = [{ cm 0x0104 [(3, 1)] with started := true, wait := .fence 0 0 1 500000 }] ∧
      500000 < State.reset.now + 500001 := by decide +kernel

theorem witness_CheckValueUnits :
    hostUp State.reset = true ∧ (crcAt State.reset 11).owner = 0 ∧ bitsOf (0x1001 : Word).toNat 20 16 = (crcAt State.reset 11).owner ∧
      bitsOf (0x1F0000 : Word).toNat 20 16 ≠ (crcAt State.reset 11).owner ∧
      (crcAt { crc := [(0, { alg := 1, owner := 31, heldHi := some 7 })] } 0).owner = 31 ∧ (crcAt { crc := [(0, { alg := 1, owner := 31, heldHi := some 7 })] } 0).alg ≠ 0 ∧
      (crcAt { crc := [(0, { alg := 1, owner := 31, heldHi := some 7 })] } 0).heldHi = some 7 ∧ bitsOf (0 : Word).toNat 20 16 ≠ 31 := by decide

theorem witness_TimeAndPrivilegedRegisters :
    hostUp State.reset = true ∧ isLo 0x28 = true ∧ isLo 0x2FFE0 = true ∧ isLo 0x702C8 = true ∧ State.reset.time.ptp.cfg.role = false ∧ (fnAt State.reset 0).busy = false ∧
      (1 : Word).getLsbD 0 = true ∧ (1 : Word).getLsbD 2 = false ∧ State.reset.fab.pendingArbs = [] ∧ (0x57520001 : Word).getLsbD 0 = true ∧ (0x57520001 : Word).toNat / 65536 = 0x5752 ∧
      (1 : Word).toNat / 65536 ≠ 0x5752 ∧ pairOn State.reset = false ∧ sqIn State.reset 0 1023 = true ∧ (sqAt (fnAt State.reset 0) 1023).enable = false ∧ ctlwinOk 2 4 = false ∧
      (4 : Word).getLsbD 2 = true ∧ (4 : Word).getLsbD 0 = false ∧ (0x28 : Nat) % 8 = 0 ∧ LinkState.l1 ≠ .l0 := by decide

/-! Witnesses: interrupts, Harbour, arbiters (04), queries (05). -/

/-- Source 0 is pending and unmasked, routed to PF0 with CQ 0 of PF0 able to announce. -/
def irqState : State :=
  { irq := { srcs := [(0, { masked := false, pendSw := true }), (1, { masked := false, claimer := some 0, repend := true })] },
    fns := [(0, { busMaster := true, msixEnable := true, msix := [(0, { addr := 0xFEE00000, data := 5, control := 0 })], timers := [(1, 100)] })] }

theorem witness_Sources :
    acting irqState = true ∧ clockLost irqState .ctl = false ∧ targetUp irqState 0 = true ∧ claimChoice irqState 0 = some 0 ∧ claimChoice State.reset 0 = none ∧
      targetUp State.reset 39 = true ∧ (fnAt irqState 0).busy = false ∧ (srcAt irqState 1).claimer = some 0 ∧ (srcAt irqState 0).claimer ≠ some 0 ∧ irqWritable irqState 0 = true ∧
      srcOwner irqState 0 = some 0 := by decide

theorem witness_MessagesModerationAndRedirection :
    irqState.power.link = .l0 ∧ (fnAt irqState 0).notified.getLsbD 0 = false ∧ vectorReady irqState 0 0 = true ∧ (fnAt irqState 0).timers.has 0 = false ∧ deliverable irqState 0 0 = true ∧
      (fnAt irqState 0).timers.get? 1 = some 100 := by decide

/-- Source 0 has waited for a PF0 that cannot be reached; core 0 is up. -/
def stuckState : State := { irq := { srcs := [(0, { masked := false, pendSw := true, stuckSince := some 0 })] } }
theorem witness_Redirection :
    srcTarget stuckState 0 = some 0 ∧ stuck stuckState 0 (srcAt stuckState 0) = true ∧ (srcAt stuckState 0).stuckSince = some 0 := by decide
theorem witness_FallbackCompletion :
    srcTarget { irqState with irq := { srcs := [(0, { masked := false, claimer := some 32, fallen := true })] } } 0 = some 0 ∧
      deliverable { irqState with irq := { srcs := [(0, { masked := false, claimer := some 32, fallen := true })] } } 0 0 = true := by decide

/-! Witnesses: Harbour and arbiters (04), queries (05). -/

/-- Threads in every state: core 0 runs thread 1, core 7 has thread 1023 in its slot; slot 63 of the time events is due, slot 0 repeats. -/
def harbourState : State :=
  { harbour := { threads := [(0, { st := .blocked }), (1, { st := .running 0 }), (1023, { st := .prefetched 7 })], cores := [(0, { st := .run, running := some 1 }), (7, { slot := some 1023 })],
                 slots := [(0, { at' := 0, period := some 50, thread := 0 }), (63, { at' := 0, thread := 0 })] }, now := 25000 }
/-- Thread 3 waits to run; only core 0 is out of RESET and it runs thread 1. -/
def fillState : State :=
  { harbour := { threads := [(1, { st := .running 0 }), (3, { st := .ready })],
                 cores := [(0, { st := .run, running := some 1 }), (1, { st := .reset }), (2, { st := .reset }), (3, { st := .reset }), (4, { st := .reset }), (5, { st := .reset }), (6, { st := .reset }), (7, { st := .reset })] } }
/-- Core 0 runs thread 1 with thread 3 in its slot. -/
def bothState : State := { harbour := { threads := [(1, { st := .running 0 }), (3, { st := .prefetched 0 })], cores := [(0, { st := .run, running := some 1, slot := some 3 })] } }

theorem witness_HarbourSchedulesThreads :
    acting harbourState = true ∧ clockLost harbourState .ctl = false ∧ clockLost harbourState .time = false ∧ (threadAt harbourState 0).st = .blocked ∧ (threadAt harbourState 1).st = .running 0 ∧ (threadAt harbourState 1022).st = .free ∧
      (threadAt fillState 3).st = .ready ∧ (threadAt harbourState 1023).st = .prefetched 7 ∧
      (harbourState.harbour.slots.get? 63).elim false (fun e => e.period.isNone && decide (e.at' ≤ harbourState.time.local' + 0 * harbourState.time.addend)) = true ∧
      (harbourState.harbour.slots.get? 0).elim false (fun e => e.period == some 50 && decide (e.at' ≤ harbourState.time.local')) = true ∧
      bestEligible harbourState = none ∧ harbourState.harbour.cores.all (fun e => e.2.back.isNone && (e.1 == 7 || e.2.slot.isNone)) = true ∧ (coreAt harbourState 7).st ≠ .reset ∧
      (coreAt harbourState 7).running = none ∧ (coreAt harbourState 7).slot = some 1023 ∧ (coreAt harbourState 0).running = some 1 ∧ (coreAt harbourState 0).slot = none ∧
      (coreAt harbourState 0).since + 25000 ≤ harbourState.now + 0 ∧ injectionOf harbourState 10 0 = none ∧
      bestEligible fillState = some 3 ∧ fillState.harbour.cores.all (fun e => e.2.back.isNone && e.2.slot.isNone && (e.1 == 0 || e.2.st == .reset)) = true ∧ (coreAt fillState 0).st ≠ .reset ∧
      (coreAt fillState 0).running = some 1 ∧ (coreAt bothState 0).running = some 1 ∧ (coreAt bothState 0).slot = some 3 ∧ (coreAt bothState 0).st ≠ .reset ∧ acting bothState = true ∧ acting fillState = true := by decide +kernel

/-- A read and a write of device address a by master 5, and a read by the emergency master 31. -/
def rd (m : Fin 32) (a : Nat) : FabReq := { master := m, addr := BitVec.ofNat 44 a, len := 32 }
def tx0 : FabTx := { seq := 0, id := 0, req := rd 5 0x10000000000, target := 0 }
def tx31 : FabTx := { seq := 1, id := 0, req := rd 31 0x10000000000, target := 0 }
def tgrant : Grant := { requester := 10, remaining := 2, run := 2, wonBefore := [] }
/-- Arbiter 0 has requester 10 waiting, arbiter 3 a tenure of requester 10, arbiter 1 the staged set to apply. -/
def fabState : State := { fab := { txs := [tx0, { tx0 with seq := 2, target := 3 }], arbs := [(0, { waiting := [(63, { since := some 0 })] }), (3, { grant := some tgrant })], pendingArbs := [1], nextSeq := 3 }, now := 1000000 }
def respState : State := { fab := { resps := [{ tx := tx0, data := zeros 32 }] } }
def qportState : State := { mem := { qports := [(7, { queue := [tx0] })] } }
def emergState : State := { fab := { txs := [tx31] } }
def takenState (g : Grant) : State := { fab := { txs := [tx0], arbs := [(0, { grant := some g })] } }
theorem witness_Arbiters :
    acting fabState = true ∧ clockLost fabState .fab = false ∧ clockLost fabState (targetDomain 0) = false ∧ (arbAt fabState 0).grant = none ∧ (arbAt fabState 0).emergency = none ∧ (arbAt fabState 0).emergencyWait = [] ∧ fabState.fab.pendingArbs.contains 0 = false ∧
      roundWinner fabState (arbAt fabState 0) 0 (requesting fabState 0 []) = some 10 ∧ presented fabState 0 10 = some tx0 ∧
      (arbAt fabState 3).grant = some tgrant ∧ tgrant.tx = none ∧ 1 < tgrant.remaining ∧ tgrant.requester < 62 ∧ presented fabState 3 tgrant.requester = some { tx0 with seq := 2, target := 3 } ∧
      roundWinner respState (arbAt respState 136) 136 (respTargets respState 5) = some 0 ∧ respState.fab.resps.find? (fun x => x.tx.req.master.val == 5 && x.tx.target == 0) = some { tx := tx0, data := zeros 32 } ∧
      clockLost qportState .qdr = false ∧ qportState.mem.qportIn.getLsbD 7 = true ∧ (qportAt qportState 7).queue = [tx0] ∧ (qportAt qportState 7).busyUntil ≤ qportState.now ∧ (arbAt qportState 55).masked = [] ∧
      (arbAt fabState 1).grant = none ∧ fabState.fab.pendingArbs.contains 1 = true := by decide +kernel
theorem witness_ArbitersEmergencies :
    (arbAt emergState 0).grant = none ∧ (arbAt emergState 0).emergency = none ∧ (arbAt emergState 0).emergencyWait = [] ∧
      emergState.fab.txs.find? (fun x => x.target == 0 && x.grantedAt.isNone && x.req.master.val == 31) = some tx31 ∧ fabState.fab.txs.find? (fun x => x.target == 0 && x.grantedAt.isNone && x.req.master.val == 31) = none ∧
      (arbAt (takenState tgrant) 0).grant = some tgrant ∧ tgrant.remaining = tgrant.run ∧ ({ tgrant with remaining := 1 } : Grant).remaining ≠ tgrant.run ∧
      presented fabState 0 10 = some tx0 ∧ presented fabState 0 11 = none := by decide +kernel
theorem witness_StarvationAndDecodeErrors :
    ((arbAt fabState 0).waiting.get? 63).elim false (fun w => !w.reported && decide ((arbAt fabState 0).limit * 16 ≤ waited 0 fabState.now w)) = true ∧ (arbAt fabState 0).limit ≠ 0 ∧
      unmapped fabState (rd 5 0x20002000000).addr.toNat = true ∧ unmapped fabState (0xFFFFFFFFFFF : BitVec 44).toNat = true ∧ injectionOf fabState 6 0 = none ∧ (rd 5 0).host = none ∧ (rd 5 0).cmd = none ∧
      fabState.fab.txs.find? (fun x => x.target == 47 && x.req == rd 5 0x20002000000) = none ∧
      (let x : FabTx := { seq := 0, id := 0, req := rd 25 0x20002000000, target := 47, grantedAt := some 0 };
       ({ fab := { txs := [x] }, now := 4 } : State).fab.txs.find? (fun y => y.target == 47 && y.req == x.req) = some x ∧ respGone { fab := { txs := [x] }, now := 4 } x.req = false) ∧
      irqWritable irqState 0 = true ∧ srcOwner irqState 0 = some 0 ∧ (roundWinner fabState {} 0 []).isNone = true ∧ claimChoice State.reset 39 = none := by decide +kernel

/-- A query whose answer block takes 16,384 bytes. -/
def ask (code : Nat) (w : Nat) : Cmd := cm (code + 2 ^ 18) [(4, 16384), (5, w)]
def asked (code w : Nat) (s : State) : Bool := ready code q0 (ask code w) (at0 (ask code w) s)
def taken (bytes : State → List Byte) (code w : Nat) (s : State) : Bool := blockTakes (ask code w) okBus (bytes (at0 (ask code w) s)) (at0 (ask code w) s)

/-! Witnesses: channels and coding parameters (06). -/

def tcfg : ChanCfg := { srcKind := 0, refMode := 0, srcIndex := 0, width := 1280, height := 720, rateNum := 60000, rateDen := 1001, totalLines := 750, lossPolicy := 0, shedClass := 1 }
def tflow : FlowInCfg :=
  { kind := 0, dual := false, portA := 0, portB := 0, destA := 0xEF000001, destB := 0, udpA := 5000, udpB := 0, srcA := 0, srcB := 0, rateIn := 3000000, window := 10,
    width := 1280, height := 720, rateNum := 60000, rateDen := 1001, sampling := 0, depth10 := true, colour := 0 }
def trc : RcCfg :=
  { mode := 0, hrd := true, react := 2, keyBoost := 2, rateMax := 20000, rateTgt := 0, rowCap := 1048576, cpbSize := 4000000, qpMin := 10, qpMax := 45, qpInit := 30, cqQp := 0,
    floorCtu := 64, vTarget := 512, llCtuBits := 0 }
def tprof : EncProfile := { codec := 0, profile := 1, chroma := 0, tier := 0, level := 123, ctuSmall := false, sliceRows := 1, parallel := 0, tileCols := 0 }
/-- Channel 63, configured whole and IDLE. -/
def tidle : Chan := { owner := 0, cfg := some tcfg, profile := some tprof, coding := { rc := some trc } }
/-- Channel 62, running. -/
def trun : Chan := { tidle with st := .running, run := { admRate := 20000, admRef := 1, admDelay := 10000000, maxDelay := 10000000, nextPic := 7, isles := [0] } }
def chanState : State := { chans := [(61, { trun with st := .armed }), (62, trun), (63, tidle)], net := { flowsIn := [(0, { owner := 0, cfg := tflow })] } }
def tgeom : Geom := geomOf chanState tcfg tprof
def tload : Load := loadOf chanState 63 tcfg tprof trc.rowCap trc.rateMax 1 0 true (delayOf tgeom 0) (delayOf tgeom 0)

theorem witness_ChannelsLiveAndEnd_commands :
    go 0x0201 [] chanState = true ∧ chanState.chans.lowestFree 64 = some 0 ∧
      go 0x0202 [(2, 63), (4, 1280 + 720 * 65536), (5, 60000), (6, 1001), (7, 4)] chanState = true ∧ chanAt chanState 63 = some tidle ∧ tidle.st = .idle ∧
      chanCfgOf (pk 0x0202 [(2, 63), (4, 1280 + 720 * 65536), (5, 60000), (6, 1001), (7, 4)]) = some tcfg ∧ sourceExists chanState tcfg = true ∧ sourceForeign chanState 0 0 0 = false ∧
      go 0x0204 [(2, 61)] chanState = true ∧ go 0x0204 [(2, 62)] chanState = true ∧ coding trun = true ∧ go 0x0205 [(2, 63)] chanState = true ∧ coding tidle = false ∧
      go 0x0206 [(2, 63), (3, 500)] chanState = true ∧ go 0x0206 [(2, 63), (3, 40000)] chanState = true ∧ go 0x0206 [(2, 62)] chanState = true ∧ picturesAhead (cm 0x0206 [(2, 62)]) trun ∧
      go 0x0207 [(2, 62), (3, 2)] chanState = true ∧ go (0x0207 + 2 ^ 17) [(2, 62), (14, 7)] chanState = false ∧
      ready 0x0207 q0 (cm (0x0207 + 2 ^ 17) [(2, 62), (14, 7)]) (at0 (cm (0x0207 + 2 ^ 17) [(2, 62), (14, 7)]) chanState) = true ∧
      picturesAhead (cm (0x0207 + 2 ^ 17) [(2, 62), (14, 7)]) trun := by
  refine ⟨?_, ?_, ?_, ?_, ?_, ?_, ?_, ?_, ?_, ?_, ?_, ?_, ?_, ?_, ?_, ?_, .inl ?_, ?_, ?_, ?_, .inr ?_⟩ <;> decide +kernel

theorem witness_ChannelsLiveAndEnd_start :
    go 0x0203 [(2, 63)] chanState = true ∧ startParamBad chanState tidle tcfg tprof trc = false ∧ tgeom.dMin ≤ delayOf tgeom 0 ∧ chanState.mem.noFit = false ∧
      spaceFits chanState (poolWith chanState (some tload) (some 63)) = true ∧ (admitLoad chanState tload true).isNone = true ∧ (placeIsles chanState 63 tload.nIsle).isSome = true ∧
      shedStops chanState (chanShedClass chanState tidle) = false ∧
      startNs (pk 0x0203 [(2, 63), (3, 1), (4, 1)]) = 1000000000 ∧ chanState.time.local' < nsInstant 1000000000 ∧ word (pk 0x0203 [(6, 999999999)]) 6 < 1000000000 ∧
      triggerStarts { time := { triggers := [(3, { owner := 0, source := 1, edge := 1, action := 1, at' := 0, num := 0, den := 0 })] } } 3 = true := by decide +kernel

theorem witness_ChannelsLiveAndEnd_delay :
    (chanGeom chanState trun).isSome = true ∧ (raiseLoad chanState 62 trun 20000 1 10000000 false trun.coding.gop).2.isNone = true := by decide +kernel

theorem witness_CodingParametersWaitForTheirPicture :
    go 0x0301 [(2, 63), (3, 123 * 256 + 4)] chanState = true ∧ encProfileOf (pk 0x0301 [(3, 123 * 256 + 4)]) = some tprof ∧
      go 0x0302 [(2, 62), (3, 4), (4, 2 * 2 ^ 24)] chanState = true ∧ encGopOk (encGopOf (pk 0x0302 [(3, 4), (4, 2 * 2 ^ 24)])) = true ∧
      (encGopOf (pk 0x0302 [(3, 4), (4, 2 * 2 ^ 24)])).structure' = trun.coding.gop.structure' ∧
      go 0x0303 [(2, 62), (3, 4 + 2 * 256 + 2 * 4096), (4, 20000), (6, 1048576), (7, 4000000), (8, 10 + 45 * 256 + 30 * 65536)] chanState = true ∧
      rcCfgOf (pk 0x0303 [(2, 62), (3, 4 + 2 * 256 + 2 * 4096), (4, 20000), (6, 1048576), (7, 4000000), (8, 10 + 45 * 256 + 30 * 65536)]) = trc ∧
      rcCfgOk (qpLimit trun) trc = true ∧ losslessWith chanState 62 trun 7 (pk 0x0303 [(2, 62), (3, 4 + 2 * 256 + 2 * 4096), (4, 20000), (6, 1048576), (7, 4000000), (8, 10 + 45 * 256 + 30 * 65536)]) = true ∧
      go 0x0304 [(2, 62 + 2 ^ 18), (3, 256)] chanState = true ∧ (rcBefore chanState (cmdIn q0 (cm 0x0304 [(2, 62 + 2 ^ 18), (3, 256)]) []) trun) = some trc ∧
      rcUpdateOk 51 (pk 0x0304 [(2, 62 + 2 ^ 18), (3, 256)]) trc = true ∧
      go 0x0305 [(2, 62 + 7 * 256), (3, 2), (4, 1272 + 712 * 65536), (5, 8 + 8 * 65536)] chanState = true ∧
      regionOk (regionOf (pk 0x0305 [(3, 2), (4, 1272 + 712 * 65536), (5, 8 + 8 * 65536)])) = true ∧
      go 0x0306 [(2, 62), (3, 3 + 6 * 16)] chanState = true ∧ fld (pk 0x0306 [(3, 3 + 6 * 16)]) 3 6 4 = 6 ∧ go 0x0306 [(2, 62), (3, 1 * 16)] chanState = true ∧
      go 0x0307 [(2, 62), (3, 2 + 2 * 4)] chanState = true := by decide +kernel

def fullChans : State := { chans := (List.range 64).map (fun i => (i, { owner := 0 })) }
theorem witness_ChannelsLiveAndEnd_refusals :
    go 0x0201 [] fullChans = true ∧ fullChans.chans.lowestFree 64 = none ∧
      go 0x0202 [(2, 62), (4, 1280 + 720 * 65536), (5, 60000), (6, 1001), (7, 4)] chanState = true ∧ trun.st ≠ .idle ∧ chanCfgOf (pk 0x0202 [(2, 63)]) = none ∧
      (chanCfgOf (pk 0x0202 [(2, 63), (3, 5 * 256), (4, 1280 + 720 * 65536), (5, 60000), (6, 1001), (7, 4)])).elim false (fun k => !sourceExists chanState k) = true ∧
      sourceForeign chanState 0 5 0 = false ∧ startFieldsBad (pk 0x0203 [(2, 63)]) = false ∧ ({ owner := 0 } : Chan).profile = none ∧
      startParamBad chanState tidle { tcfg with width := 100 } tprof trc = true ∧ startParamBad chanState trun tcfg tprof trc = false ∧
      go 0x0205 [(2, 62)] chanState = true ∧ go 0x0204 [(2, 63)] chanState = true ∧
      go 0x0206 [(2, 63), (3, 499)] chanState = true ∧ go 0x0206 [(2, 63), (3, 40001)] chanState = true ∧ go 0x0206 [(2, 61), (3, 500)] chanState = true ∧
      (chanGeom chanState { trun with st := .armed }).elim false (fun g => decide (((500 * 1000 : Nat) : Rat) < g.dMin)) = true ∧
      go 0x0207 [(2, 61)] chanState = true ∧ go 0x0203 [(2, 60)] chanState = true ∧ chanAt chanState 60 = none := by decide +kernel

/-- On channel 62, whose picture 6 is in progress: parameters for picture 3, a change of structure, and a lossless region too large for its row capacity. -/
def tsmall : Chan := { trun with coding := { trun.coding with rc := some { trc with rowCap := 10000, llCtuBits := 4000 } } }
theorem witness_CodingParameters_refusals :
    encProfileOf (pk 0x0301 [(3, 255)]) = none ∧ coding trun = true ∧ atPictureOf (pk (0x0302 + 2 ^ 17) [(2, 62), (14, 3)]) = true ∧ pictureOf (pk (0x0302 + 2 ^ 17) [(2, 62), (14, 3)]) < trun.run.nextPic ∧
      ready 0x0302 q0 (cm (0x0302 + 2 ^ 17) [(2, 62), (3, 4), (4, 2 * 2 ^ 24), (14, 3)]) (at0 (cm (0x0302 + 2 ^ 17) [(2, 62), (3, 4), (4, 2 * 2 ^ 24), (14, 3)]) chanState) = true ∧
      ready 0x0303 q0 (cm (0x0303 + 2 ^ 17) [(2, 62), (3, 4 + 2 * 256 + 2 * 4096), (4, 20000), (6, 1048576), (7, 4000000), (8, 10 + 45 * 256 + 30 * 65536), (14, 3)])
        (at0 (cm (0x0303 + 2 ^ 17) [(2, 62), (3, 4 + 2 * 256 + 2 * 4096), (4, 20000), (6, 1048576), (7, 4000000), (8, 10 + 45 * 256 + 30 * 65536), (14, 3)]) chanState) = true ∧
      ready 0x0306 q0 (cm (0x0306 + 2 ^ 17) [(2, 62), (3, 3 + 6 * 16), (14, 3)]) (at0 (cm (0x0306 + 2 ^ 17) [(2, 62), (3, 3 + 6 * 16), (14, 3)]) chanState) = true ∧
      ready 0x0307 q0 (cm (0x0307 + 2 ^ 17) [(2, 62), (3, 2 + 2 * 4), (14, 3)]) (at0 (cm (0x0307 + 2 ^ 17) [(2, 62), (3, 2 + 2 * 4), (14, 3)]) chanState) = true ∧
      ready 0x0207 q0 (cm (0x0207 + 2 ^ 17) [(2, 62), (3, 2), (14, 3)]) (at0 (cm (0x0207 + 2 ^ 17) [(2, 62), (3, 2), (14, 3)]) chanState) = true ∧
      fixedNow (cmdIn q0 (cm 0x0302 [(2, 62), (3, 5), (4, 2 * 2 ^ 24)]) []) trun = true ∧ encGopOk (encGopOf (pk 0x0302 [(3, 5), (4, 2 * 2 ^ 24)])) = true ∧
      (encGopOf (pk 0x0302 [(3, 5), (4, 2 * 2 ^ 24)])).structure' ≠ trun.coding.gop.structure' ∧
      losslessWith { chanState with chans := [(62, tsmall)] } 62 tsmall 7 (pk 0x0305 [(2, 62 + 7 * 256), (3, 2), (5, 1280 + 720 * 65536)]) = false ∧
      (raiseLoad chanState 62 trun trun.run.admRate 1 trun.run.admDelay false trun.coding.gop).2 = none ∧ (raiseLoad chanState 62 trun 20000 trun.run.admRef trun.run.admDelay true trun.coding.gop).2 = none := by decide +kernel

/-! Witnesses: composition, surfaces, output pictures, decoders (07). -/

def toc : OutCfg := { width := 64, height := 64, rateNum := 60000, rateDen := 1001, totalLines := 72, chroma := 1, colour := 0, toSurface := none, offsetNs := 0, bgY := 64, bgCb := 512, bgCr := 512 }
def tlayer : Layer := { srcKind := 0, srcIndex := 4095, alphaMode := 0, alpha := 4095, sx := 0, sy := 0, sw := 16, sh := 8, dx := 0, dy := 0, dw := 16, dh := 8, lag := 0 }
/-- Surface 4,095: 2 buffers of 16 × 8, 4:2:0; surface 1 has a publication and an update that waits. -/
def tsurf : Surface := { owner := 0, format := 0, colour := 0, buffers := 2, width := 16, height := 8, offset := 0, mem := [(0, [(3, 7)])] }
def tpub : Publication := { buffer := 0, flip := 0, contentNs := 0 }
def tout : Output := { owner := 0, cfg := toc, compositor := 0, next := 1, stage := [.set 0 tlayer], lh := none }
def tpic : OutPic := { number := 0, tOut := 0, layers := [], maxAges := [], lh := none, sels := [] }
def tdec : Decoder := { owner := 0, srcKind := 0, codec := 0, presMode := 0, ctMode := 0, srcIndex := 0, width := 1280, height := 720, rateNum := 60000, rateDen := 1001, lag := 100000, engine := 0 }
def compState : State :=
  { outs := [(30, { tout with dying := true }), (31, { tout with pics := [(0, tpic)] })],
    surfs := [(1, { tsurf with offset := 131072, pubs := [{ tpub with buffer := 1 }], pending := [{ serial := 0, pub := tpub }] }), (4095, tsurf)],
    decs := [(30, { tdec with chroma := some 1, startedAt := true, aus := [{ serial := 0, first := 0, last := 0, present := 0 }], engine := 3 }),
             (31, { tdec with chroma := some 1, waiting := [{ present := some 0, contentNs := 0, planes := {}, number := 0 }] })],
    net := { flowsIn := [(0, { owner := 0, cfg := { tflow with kind := 1 } })] }, now := 100000000, time := { local' := 200000000 * 2 ^ 32 } }

theorem witness_CompositionIsStagedAndCommitted :
    go 0x0401 [(3, 64 + 64 * 65536), (4, 60000), (5, 1001 + 72 * 65536), (6, 0xFFFF * 65536 + 1), (8, 64 + 512 * 1024 + 512 * 1048576)] compState = true ∧
      outCfgOf (pk 0x0401 [(3, 64 + 64 * 65536), (4, 60000), (5, 1001 + 72 * 65536), (6, 0xFFFF * 65536 + 1), (8, 64 + 512 * 1024 + 512 * 1048576)]) = some toc ∧
      toSurfaceOk compState 0 toc = true ∧ compState.outs.lowestFree 32 = some 0 ∧ (placeOutput compState toc).isSome = true ∧
      memoryCheck compState (poolWith compState none none) (outHbm compState toc) (outQdr toc) = none ∧ shedStops compState 2 = false ∧
      go 0x0401 [(2, 1 + 31 * 256)] compState = true ∧ outUsed compState 31 tout = false ∧
      go 0x0402 [(2, 31 + 62 * 256)] compState = true ∧ go 0x0403 [(2, 31 + 62 * 256)] compState = true ∧ go 0x0406 [(2, 31), (3, 5)] compState = true ∧
      go 0x0406 [(2, 31 + 63 * 256), (3, 5)] compState = true ∧ go 0x0405 [(2, 31 + 256)] compState = true ∧ go 0x0405 [(2, 31), (3, 4095), (4, 48 + 56 * 65536)] compState = true ∧
      regionLegal toc tsurf 48 56 = true ∧ (surfAt compState 4095).isSome = true := by decide +kernel

theorem witness_ComposeCommit :
    go 0x0404 [(2, 31)] compState = true ∧ (outAt compState 31).isSome = true ∧ commitDenied (cmdIn q0 (cm 0x0404 [(2, 31)]) []) compState = none ∧
      newLayers compState 0 tout = [(0, tlayer)] ∧ commitStates compState 0 tout = [[(0, tlayer)]] ∧
      (newLayers compState 0 tout).all (fun e => layerParamsOk compState toc e && layerSourceExists compState e.2 && decide (srcRate toc e.2 ≤ 84 / 10)) = true ∧
      (sourceReach compState 32 ((commitStates compState 0 tout).flatMap outputSources)).contains 31 = false ∧ tout.dying = false ∧
      (commitStates compState 0 tout).all (fun l => decide (onCompositor compState 31 0 (heldPipes compState true) + (l.filter (fun e => isScaled e.2)).length ≤ 16) &&
        decide (onCompositor compState 31 0 (heldPipes compState false) + (l.filter (fun e => !(isScaled e.2))).length ≤ 48)) = true ∧
      (commitStates compState 0 tout).findSome? (poolOverrun compState (onCompositor compState 31 0 (heldNeed compState))) = none ∧
      regionFits compState (poolWith compState none none) 1 = true ∧
      memoryCheckBut compState (some 31) (poolWith compState none none) (maxRat (layersHbm compState toc) (commitStates compState 0 tout)) (maxRat (layersQdr compState toc) (commitStates compState 0 tout)) = none := by decide +kernel

/-- Output 31 stages a layer that is not legal, or itself as a source, or has a picture in progress past the one a command names. -/
def badOut : Output := { tout with next := 9, stage := [.set 62 { tlayer with sw := 0 }, .set 0 tlayer] }
def selfOut : Output := { tout with cfg := { toc with toSurface := some 4095 }, stage := [.set 0 { tlayer with srcKind := 4, srcIndex := 31 }] }
theorem witness_CompositionRefusals :
    go 0x0401 [(2, 2)] compState = true ∧ 2 ≤ fld (pk 0x0401 [(2, 2)]) 2 1 0 ∧ outCfgOf (pk 0x0401 []) = none ∧
      ({ outs := (List.range 32).map (fun i => (i, tout)) } : State).outs.lowestFree 32 = none ∧
      go 0x0401 [(2, 1 + 30 * 256)] compState = true ∧ ({ tout with dying := true } : Output).dying = true ∧
      go 0x0404 [(2, 5)] compState = true ∧ outAt compState 5 = none ∧
      (newLayers { compState with outs := [(31, badOut)] } 0 badOut).any (fun e => !(layerParamsOk compState toc e)) = true ∧
      (let s : State := { compState with outs := [(31, selfOut)] };
       (newLayers s 0 selfOut).all (fun e => layerParamsOk s toc e) && (sourceReach s 32 ((commitStates s 0 selfOut).flatMap outputSources)).contains 31) = true ∧
      pictureOf (pk (0x0404 + 2 ^ 17) [(2, 31), (14, 3)]) < badOut.next ∧
      regionLegal toc tsurf 60 56 = false ∧
      (compState.chans.any (fun e => (e.2.st == .armed || e.2.st == .running) && e.2.cfg.elim false (fun k => k.srcKind == 2 && k.srcIndex == 31))) = false ∧
      ({ chanState with chans := [(62, { trun with cfg := some { tcfg with srcKind := 2, srcIndex := 31 }, coding := tsmall.coding })], outs := compState.outs } : State).chans.any (fun e => (e.2.st == .armed || e.2.st == .running) &&
        e.2.cfg.elim false (fun k => k.srcKind == 2 && k.srcIndex == 31)
          && !(chanTakesRegion { chanState with outs := compState.outs } e.1 e.2 (0, 0, 1280, 720))) = true := by decide +kernel

theorem witness_SurfacesHoldAndPublish :
    go 0x0407 [(2, 2 * 256), (3, 16 + 8 * 65536)] compState = true ∧ go 0x0407 [(2, 3 * 256), (3, 8192 + 4320 * 65536)] compState = true ∧ formatOk 0 = true ∧
      compState.surfs.lowestFree 4096 = some 0 ∧ regionFits compState [] 12 = true ∧
      go 0x0408 [(2, 4095)] compState = true ∧ surfaceUsed { compState with outs := [] } 4095 = false ∧ tsurf.pending = [] ∧
      readyBlock 0x0409 q0 (cm (0x0409 + 2 ^ 18) [(4, 4), (5, 4095 + 1 * 65536)]) { block := .bytes [1, 2, 3, 4] } [1, 2, 3, 4] (at0 (cm (0x0409 + 2 ^ 18) [(4, 4), (5, 4095 + 1 * 65536)]) compState) = true ∧
      fld (pk 0x0409 [(5, 4095 + 1 * 65536)]) 5 17 16 < tsurf.buffers ∧ 4 ≤ bufferBytes 0 16 8 ∧ surfaceBytes tsurf = 131072 ∧
      (compState.surfs.find? (fun e => e.2.owner.val == 0 && decide (e.2.offset ≤ 131071) && decide (131071 < e.2.offset + surfaceBytes e.2))).map (fun e => e.1) = some 4095 ∧
      (compState.surfs.find? (fun e => e.2.owner.val == 0 && decide (e.2.offset ≤ 131072) && decide (131072 < e.2.offset + surfaceBytes e.2))).map (fun e => e.1) = some 1 ∧
      (compState.surfs.find? (fun e => e.2.owner.val == 0 && decide (e.2.offset ≤ 262144) && decide (262144 < e.2.offset + surfaceBytes e.2))).isNone = true := by decide +kernel

theorem witness_OutputPicturesAndDecodersProceed :
    acting compState = true ∧ composeClocks compState = true ∧ mayCode compState = true ∧ nsInstant (tOutNs toc 1) ≤ compState.time.local' ∧ contentReady compState 31 1 tout = true ∧
      mirrorAwaited compState 1 31 1 = false ∧ outRuns compState tout = true ∧ outRuns compState { tout with stopped := true } = false ∧ compIn compState 0 = true ∧
      (tout.pics.set 0 tpic).find? (fun e => decide (e.2.nextLine < toc.height)) = some (0, tpic) ∧ lineInstant toc tpic (min (toc.height - 1) (0 - 0 % subY toc.chroma + subY toc.chroma - 1)) ≤ localQ compState ∧
      (tpic.tOut : Rat) + nsQ ((64 : Rat) * outLineNs toc + outLatency toc) ≤ localQ compState ∧ compState.time.local' < nsInstant (tOutNs toc 1000000) ∧
      go 0x0501 [(4, 1280 + 720 * 65536), (5, 60000), (6, 1001), (7, 1000000)] compState = true ∧ decForeign (cmdIn q0 (cm 0x0501 []) []) compState = false ∧
      (decOf (cmdIn q0 (cm 0x0501 [(4, 1280 + 720 * 65536), (5, 60000), (6, 1001), (7, 100000)]) []) compState) = some tdec ∧
      leastLoaded compState (((List.range 4).filter (engineTakes compState tdec)).filter (fun e => tdec.lag == 0 || lagCovers tdec.lag (newTMin compState tdec e))) = some 1 ∧
      go 0x0503 [(2, 31)] compState = true ∧ go 0x0502 [(2, 31)] compState = true ∧ decHeld compState 31 = false ∧
      decodeClocks compState = true ∧ decEngineIn compState 3 = true ∧ nextDecoder compState 3 [] = some 30 ∧ decStopped compState 30 tdec = false ∧
      (decAt compState 30).elim false (fun d => d.startedAt && d.aus.length == 1) = true ∧ (factsOf compState tdec [] { decoder := 30 }).rasl = false ∧ (factsOf compState tdec [] { decoder := 30 }).startPoint = false ∧ tdec.startedAt = false ∧
      decAt compState 7 = none ∧ outCfgOf (pk 0x0501 []) = none ∧ (decOf (cmdIn q0 (cm 0x0501 [(3, 3)]) []) compState) = none ∧
      (decAt compState 31).elim false (fun d => d.waiting.any (fun p => p.present == some 0)) = true ∧ decodeClocks compState = true := by decide +kernel

theorem witness_SurfacesOtherCases :
    go 0x0407 [(2, 1 * 256), (3, 16 + 8 * 65536)] compState = true ∧ fld (pk 0x0407 [(2, 1 * 256)]) 2 9 8 < 2 ∧ formatOk 15 = false ∧
      (tsurf.pubs.any (fun p => p.buffer == 1)) = false ∧ (surfAt compState 1).elim false (fun x => x.pubs.any (fun p => p.buffer == 1) && x.pending.any (fun u => u.pub.buffer == 0)) = true ∧
      surfaceUsed { compState with outs := [(31, { tout with layers := [(0, tlayer)] })] } 4095 = true ∧ tsurf.buffers ≤ 2 ∧
      65536 < 65530 % 65536 + 12 ∧ hostUp noPower = false ∧ isStandby compState = false ∧
      flowCmds (at0 { cm 0x0409 [(5, 1)] with started := true, wait := .flip 7 } compState) 0 = [{ cm 0x0409 [(5, 1)] with started := true, wait := .flip 7 }] ∧
      (let u : PendingUpdate := { serial := 0, pub := { tpub with flip := 5 } }; let x : Surface := { tsurf with pending := [u] };
       surfAt { surfs := [(3, x)] } 3 = some x ∧ ({ surfs := [(3, x)] } : State).time.local' < u.pub.flip ∧ u.pub.flip ≤ ({ surfs := [(3, x)], time := { local' := 5 } } : State).time.local' ∧
         x.pubs.all (fun p => !(bufferRead { surfs := [(3, x)] } 3 p.buffer)) = true) := by decide +kernel

/-! Witnesses: network configuration, lanes and ports (08). -/

def eth (rate : Nat) : LaneSt := { cfg := { mode := 1, rate := rate } }
def tport : PortCfg := { speed := 2, fec := true, firstLane := 0, maxFrame := 9216 }
def tfo : FlowOutCfg :=
  { kind := 0, dual := false, portA := 0, portB := 0, queue := 5, srcIndex := 62, maxPayload := 1428, destA := 0xEF000001, destB := 0, udpDstA := 5004, udpDstB := 0, udpSrc := 5004,
    vlanId := 0, pcp := 0, vlanOn := false, dscp := 34, pt := 96, ssrc := 7, firstSeq := 65535, delayChan := 0 }
/-- Port 0 carries an input flow and an output flow of channel 62; lane 94 receives SDI, lane 95 is under test; port 15 is enabled and down. -/
def netState : State :=
  { chanState with net := { lanes := [(0, eth 1), (1, eth 1), (2, eth 1), (3, eth 1), (8, eth 2), (88, { eth 1 with fault := true }), (93, { cfg := { mode := 3, rate := 5 } }), (94, { cfg := { mode := 2 } }), (95, { cfg := { mode := 5, rate := 0 } })],
                            ports := [(0, { cfg := tport, nextGates := some (none, 0) }), (15, { cfg := { tport with firstLane := 88 }, down := true }), (14, { cfg := { tport with firstLane := 8, speed := 3, fec := false } })],
                            flowsIn := [(1023, { owner := 0, cfg := tflow })], flowsOut := [(2047, { owner := 0, cfg := tfo })] } }
def gateBytes : List Byte := [0xFF, 0, 0, 0, 0xA0, 0x86, 1, 0, 0x08, 0, 0, 0, 0xA0, 0x86, 1, 0]
def gateWs : FMap Nat := [(2, 0), (4, 16), (5, 0 + 256 + 2 * 65536), (8, 999999999), (9, 200000)]

theorem witness_NetworkConfiguration_lanes :
    go 0x0601 [(2, 90 + 4 * 256), (3, 1 + 8), (4, 4 + 51 * 64 + 8 * 4096)] State.reset = true ∧ laneCfgBad (pk 0x0601 [(2, 92 + 4 * 256), (3, 1 + 8), (4, 4 + 51 * 64 + 8 * 4096)]) = false ∧
      laneRange (pk 0x0601 [(2, 92 + 4 * 256)]) = [92, 93, 94, 95] ∧
      (laneRange (pk 0x0601 [(2, 92 + 4 * 256)])).all (fun l => quadOneRate (setLanes (pk 0x0601 [(2, 92 + 4 * 256), (3, 1 + 8), (4, 4 + 51 * 64 + 8 * 4096)]) State.reset) (l / 4)) = true ∧
      go 0x0602 [(2, 15)] netState = true ∧ (portCfgOf (pk 0x0602 [(2, 15)])).speed = 0 ∧
      go 0x0602 [(2, 15 + 3 * 16), (3, 8), (4, 1518)] netState = true ∧ portRow netState 3 8 = (1, 2) ∧ portRow netState 6 88 = (8, 2) ∧
      (laneAt netState 8).cfg.mode = 1 ∧ (laneAt netState 8).cfg.rate = 2 ∧ 8 ∉ otherPortLanes netState 14 ∧ boundCopies netState 14 = [] ∧ boundInputs netState 14 = [] ∧
      totalSpeed (setPortCfg (pk 0x0602 [(2, 15 + 3 * 16), (3, 8), (4, 1518)]) netState) ≤ 3200000 := by decide +kernel

theorem witness_NetworkConfiguration_flows :
    go 0x0603 [(2, 4), (3, 0xEF000002), (4, 1)] netState = true ∧ flowInBad netState (pk 0x0603 [(2, 4), (3, 0xEF000002), (4, 1)]) = false ∧ inPorts (flowInCfgOf (pk 0x0603 [(2, 4)])) = [0] ∧
      (portAt netState 0).cfg.speed ≠ 0 ∧ (netState.net.flowsIn.find? (fun e => (inPaths e.2.cfg).any (fun x => (inPaths (flowInCfgOf (pk 0x0603 [(2, 4), (3, 0xEF000002), (4, 1)]))).contains x))).isNone = true ∧
      netState.net.flowsIn.lowestFree 1024 = some 0 ∧
      go 0x0604 [(2, 5 * 4096), (3, 62)] netState = true ∧ denyFlowOutAdd (cmdIn q0 (cm 0x0604 [(3, 62)]) []) netState = false ∧ flowOutBad netState { tfo with portA := 0 } = false ∧
      gateLists (portAt netState 0) = [] ∧ netState.net.flowsOut.lowestFree 2048 = some 0 ∧ bucketsUsed netState + 1 ≤ 2048 ∧ stagingUsed netState + stagingOf netState tfo ≤ 16777216 ∧
      flowLoad netState tfo = 0 ∧
      go 0x0605 [(2, 2047 + 65536)] netState = true ∧ flag (pk 0x0605 [(2, 2047 + 65536)]) 2 16 = true ∧ (flowOutAt netState 2047).isSome = true ∧
      go 0x0605 [(2, 1023)] netState = true ∧ (flowInAt netState 1023).isSome = true ∧ flowInUsed netState 1023 = false ∧
      go 0x0606 [(2, 2047 * 65536), (3, 400000000), (4, 4194304)] netState = true ∧ outPorts tfo = [0] ∧ (portAt netState 0).cfg.maxFrame + (portAt netState 0).overhead ≤ 4194304 ∧
      go 0x0606 [(2, 1 + 15 * 65536), (3, 63), (4, 1536), (6, 65535)] netState = true ∧ fld (pk 0x0606 [(2, 1 + 15 * 65536)]) 2 26 16 = 15 ∧ fld (pk 0x0606 [(3, 63)]) 3 31 6 = 0 := by decide +kernel

theorem witness_NetworkConfiguration_gates :
    go 0x0607 [] netState = true ∧ indirectOf (pk 0x0607 []) = false ∧
      readyBlock 0x0607 q0 (cm (0x0607 + 2 ^ 18) gateWs) { block := .bytes gateBytes } gateBytes (at0 (cm (0x0607 + 2 ^ 18) gateWs) netState) = true ∧
      word (pk 0x0607 gateWs) 4 = 8 * fld (pk 0x0607 gateWs) 5 24 16 ∧ word (pk 0x0607 gateWs) 8 < 1000000000 ∧ (gateListOf (pk 0x0607 gateWs) gateBytes).cycle = 200000 ∧
      (gateListOf (pk 0x0607 gateWs) gateBytes).entries = [(255, 100000), (8, 100000)] ∧ ofLe (slice gateBytes 1 3) = 0 ∧ ofLe (slice gateBytes 9 3) = 0 ∧
      windowTooShort netState 0 (gateListOf (pk 0x0607 gateWs) gateBytes) = false ∧ closedIn (gateListOf (pk 0x0607 gateWs) gateBytes) tfo.queue = false ∧
      acting netState = true ∧ (portAt netState 0).nextGates = some (none, 0) ∧ 0 ≤ (advance 1 netState).time.local' := by decide +kernel

theorem witness_LanesAndPorts_commands :
    go 0x0608 [(2, 95), (4, 1)] netState = true ∧ (laneAt netState 95).cfg.mode = 5 ∧ isPam4 (laneAt netState 95).cfg = false ∧ laneWaiters (at0 (cm 0x0608 [(2, 95), (4, 1)]) netState) 0x0608 95 = [] ∧
      flowCmds (at0 { cm 0x0608 [(2, 95), (4, 1)] with started := true, wait := .laneTest 95 1000 } netState) 0 = [{ cm 0x0608 [(2, 95), (4, 1)] with started := true, wait := .laneTest 95 1000 }] ∧
      (1000 ≤ netState.now + 1000) ∧
      ready 0x0609 q0 (cm (0x0609 + 2 ^ 18) [(4, 40), (5, 32 + 63 * 256 + 20 * 65536), (6, 94)]) (at0 (cm (0x0609 + 2 ^ 18) [(4, 40), (5, 32 + 63 * 256 + 20 * 65536), (6, 94)]) netState) = true ∧ fld (pk 0x0609 [(5, 32 + 63 * 256 + 20 * 65536)]) 5 21 16 = 20 ∧
      4 * (laneUnits (pk (0x0609 + 2 ^ 18) [(4, 40), (5, 32 + 63 * 256 + 20 * 65536), (6, 94)])).2.2 ≤ 40 ∧ fld (pk 0x0609 [(6, 94)]) 6 9 8 = 0 ∧ (laneAt netState 94).cfg.mode = 2 ∧
      (laneAt netState 94).fault = false ∧
      (findCmd (at0 { cm 0x0609 [(6, 94)] with started := true, wait := .laneTest 94 5 } netState) 0).isSome = true ∧ clockLost netState .pcie = false := by decide +kernel

theorem witness_LanesAndPorts_events :
    acting netState = true ∧ causeFits (laneAt netState 0).cfg.mode .referenceClock = true ∧ causeFits (laneAt netState 94).cfg.mode (.timingReference 10) = true ∧ causeMet (.timingReference 10) = true ∧ causeMet (.recoveredClock 80 80) = false ∧ causeMet .highBer = true ∧ (laneAt netState 0).cfg.mode ≠ 4 ∧ causeFits (laneAt netState 50).cfg.mode .referenceClock = false ∧
      (portAt netState 0).cfg.speed ≠ 0 ∧ (portAt netState 0).down = false ∧ portFec netState (portAt netState 0).cfg = true ∧ 10 < 11 ∧ portLaneFault netState 0 = false ∧ portLaneFault netState 15 = true := by decide +kernel

/-- Input flow 5 feeds decoder 0; port 9 is not configured. -/
def usedNet : State := { netState with net.flowsIn := [(5, { owner := 0, cfg := tflow })], decs := [(0, { owner := 0, srcKind := 0, codec := 0, presMode := 0, ctMode := 0, srcIndex := 5, width := 1280, height := 720, rateNum := 60000, rateDen := 1001, lag := 100000, engine := 0 })] }
theorem witness_NetworkConfiguration_refusals :
    go 0x0601 [(2, 96)] State.reset = true ∧ laneCfgBad (pk 0x0601 [(2, 96)]) = true ∧ go 0x0602 [(2, 15 + 7 * 16)] netState = true ∧ (portCfgOf (pk 0x0602 [(2, 15 + 7 * 16)])).speed = 7 ∧
      flowInBad netState (pk 0x0603 [(2, 7)]) = true ∧ go 0x0603 [(2, 7)] netState = true ∧
      flowInBad netState (pk 0x0603 [(2, 9 * 16 + 4), (3, 0xEF000002), (4, 1)]) = false ∧ (inPorts (flowInCfgOf (pk 0x0603 [(2, 9 * 16 + 4), (3, 0xEF000002), (4, 1)]))).any (fun n => (portAt netState n).cfg.speed == 0) = true ∧
      go 0x0604 [(2, 7)] netState = true ∧ flowOutBad netState (flowOutCfgOf (pk 0x0604 [(2, 7)])) = true ∧
      flowInUsed usedNet 5 = true ∧ go 0x0605 [(2, 5)] usedNet = true ∧ (flowInAt netState 0).isNone = true ∧ (flowOutAt netState 0).isNone = true ∧
      go 0x0606 [(2, 2)] netState = true ∧ 2 ≤ fld (pk 0x0606 [(2, 2)]) 2 1 0 ∧ go 0x0607 [(5, 256)] netState = true ∧ flag (pk 0x0607 [(5, 256)]) 5 8 = true ∧
      (portAt netState 0).nextGates = some (none, 0) ∧ netState.time.local' < (1 : Nat) := by decide +kernel
theorem witness_LanesAndPorts_refusals :
    (laneAt netState 50).cfg.mode ≠ 5 ∧ go 0x0608 [(2, 50), (4, 1)] netState = true ∧ (laneAt netState 50).cfg.mode = 0 ∧ (laneAt netState 93).cfg.mode = 3 ∧
      ready 0x0609 q0 (cm (0x0609 + 2 ^ 18) [(4, 40), (5, 32 + 63 * 256 + 20 * 65536), (6, 93)]) (at0 (cm (0x0609 + 2 ^ 18) [(4, 40), (5, 32 + 63 * 256 + 20 * 65536), (6, 93)]) netState) = true ∧
      flowCmds (at0 { cm (0x0609 + 2 ^ 18) [(6, 94)] with started := true, wait := .laneTest 94 5 } netState) 0 = [{ cm (0x0609 + 2 ^ 18) [(6, 94)] with started := true, wait := .laneTest 94 5 }] ∧
      blockOpen { cm (0x0609 + 2 ^ 18) [(4, 40), (6, 94)] with started := true, wait := .laneTest 94 5 } okBus netState = true ∧ netState.now < 5 ∧
      portFec netState (portAt netState 15).cfg = true ∧ (portAt netState 9).cfg.speed = 0 ∧ portLaneFault netState 14 = false ∧ portFec netState { tport with speed := 1, fec := false } = false ∧ (portAt netState 14).cfg.speed ≠ 0 := by decide +kernel

/-! Witnesses: PTP, pulses and triggers, audio (09). -/

def tann : AnnounceData := { source := 9, gmIdentity := 9 }
def tmaster : Foreign := { port := 15, data := tann, times := [0] }
/-- The slave of a master on port 15, LOCKED; its Delay_Req and two-step Sync wait; pulse output 0 is taken with a pulse that has begun. -/
def timeState : State :=
  { netState with net := { netState.net with ports := netState.net.ports.set 15 { cfg := tport } },
                  time := { ptp := { cfg := { role := true, ports := 0x8000 }, st := .locked, master := some tmaster, foreign := [tmaster], pendingReq := some (7, 0), pendingSync := some (8, 0, 0) },
                            pulses := [(3, { owner := 0, mode := 1, activeLow := false, start := 0, num := 1000, den := 1, width := 10, highUntil := some 2 })],
                            triggers := [(0, { owner := 0, source := 1, edge := 2, action := 2, at' := 0, num := 1000, den := 1, cycle := some (0, 0) }), (3, { owner := 0, source := 2, edge := 0, action := 0, at' := 0, num := 0, den := 0 })] } }
def tmsg (kind seq : Nat) : PtpMsg := { msgType := kind, source := 9, sequence := seq }

theorem witness_PtpFollowsItsMaster_commands :
    go 0x0701 [(2, 1 + 10 * 16 + 255 * 256 + 0x80010000)] netState = true ∧ (ptpCfgOf (pk 0x0701 [(2, 1 + 10 * 16 + 255 * 256 + 0x80010000)])).announceTimeout = 10 ∧
      (List.range 16).all (fun p => !((ptpCfgOf (pk 0x0701 [(2, 1 + 10 * 16 + 255 * 256 + 0x80010000)])).ports.getLsbD p) || (portAt netState p).cfg.speed != 0) = true ∧
      go 0x0702 [(3, 1)] netState = true ∧ netState.time.ptp.cfg.role = false ∧ word (pk 0x0702 [(5, 999999999)]) 5 < 1000000000 ∧ guardArmed State.reset = false ∧ guardArmed netState = true ∧
      (signedOf (dword (pk 0x0702 [(2, 1), (3, 1)]) 3) 64 * (nsUnit : Int)).natAbs ≤ netState.time.jumpLimit * nsUnit ∧
      go 0x0702 [(2, 2)] { netState with time := { ptp := { st := .refused } } } = true := by decide +kernel

theorem witness_PtpFollowsItsMaster_messages :
    acting timeState = true ∧ clockLost timeState .time = false ∧ ptpPort timeState 15 = true ∧ tann.domain = ptpDomain timeState.time.ptp.cfg ∧ tann.stepsRemoved < 255 ∧
      bestMaster { timeState with time.ptp.foreign := [{ tmaster with times := [0, 0] }] } = some { tmaster with times := [0, 0] } ∧
      fromMaster timeState 15 (tmsg 0 1) = true ∧ syncIntervalOk 7812500 = true ∧ syncIntervalOk 2000000000 = true ∧
      timeState.time.ptp.pendingSync = some ((tmsg 8 8).sequence, 0, 0) ∧ timeState.time.ptp.pendingReq = some ((tmsg 9 7).sequence, 0) ∧
      (portAt timeState 15).down = false ∧ ptpPort netState 15 = false ∧ fromMaster timeState 15 (tmsg 0 1) = true ∧ (tmsg 0 1).twoStep = false ∧ ({ tmsg 0 1 with twoStep := true } : PtpMsg).twoStep = true ∧
      clockLost { power := { clocksLost := [.time] } } .time = true ∧ fromMaster timeState 14 (tmsg 0 1) = false ∧ timeState.time.ptp.st = .locked ∧ followsHolder timeState = false ∧
      timeState.now < timeState.time.ptp.lastReq + ticksNs timeState.time.ptp.reqInterval ∧ timeState.now < timeState.time.ptp.lastSync + ticksNs (8 * timeState.time.ptp.syncInterval) ∧
      timeState.time.ptp.lastReq + ticksNs timeState.time.ptp.reqInterval ≤ timeState.now + 500000000 ∧
      timeState.time.ptp.lastAnnounce + ticksNs (announceLimit timeState.time.ptp.cfg * tann.intervalNs) ≤ timeState.now + 1500000000 ∧ timeState.time.ptp.master = some tmaster := by decide +kernel

theorem witness_PtpFollowsItsMaster_refusals :
    go 0x0701 [(2, 1 + 10 * 16 + 255 * 256), (3, 512)] netState = true ∧ (portAt netState 9).cfg.speed = 0 ∧ (ptpCfgOf (pk 0x0701 [(2, 1 + 10 * 16 + 255 * 256 + 2 ^ 25)])).ports.getLsbD 9 = true ∧
      go 0x0702 [(2, 3)] netState = true ∧ go 0x0702 [(2, 1), (3, 0x7FFFFFFF)] netState = true ∧
      netState.time.jumpLimit * nsUnit < (signedOf (dword (pk 0x0702 [(2, 1), (3, 0x7FFFFFFF)]) 3) 64 * (nsUnit : Int)).natAbs ∧ flag (pk 0x0702 [(2, 1), (3, 0x7FFFFFFF)]) 2 2 = false ∧
      timeState.time.ptp.cfg.role = true ∧ go 0x0703 [(2, 7), (8, 10)] State.reset = true ∧ pulseOk (pk 0x0703 [(2, 4), (8, 10)]) = true ∧ nsInstant (timeNsOf (pk 0x0703 [(2, 4)]) 3) ≤ State.reset.time.local' ∧
      pulseOk (pk 0x0703 [(2, 12)]) = false ∧ triggerOk (pk 0x0704 [(2, 12)]) = false ∧ triggerOk (pk 0x0704 [(2, 8)]) = true ∧
      (timeState.time.pulses.get? 3).elim false (fun x => !pulseDue timeState { x with start := 10 ^ 30 }) = true ∧ timeState.harbour.trigThreads.get? 0 = none ∧
      ({ harbour := { trigThreads := [(0, 9)] } } : State).harbour.trigThreads.get? 0 = some 9 := by decide +kernel

theorem witness_PulsesAndTriggersAct :
    go 0x0703 [(2, 3)] timeState = true ∧ go 0x0703 [(2, 2 + 4), (3, 1), (8, 10)] timeState = true ∧ pulseOk (pk 0x0703 [(2, 2 + 4), (3, 1), (8, 10)]) = true ∧
      timeState.time.local' < nsInstant (timeNsOf (pk 0x0703 [(3, 1)]) 3) ∧ timeState.time.pulses.get? 2 = none ∧
      (timeState.time.pulses.get? 3).elim false (fun x => x.owner == 0) = true ∧
      go 0x0704 [(2, 0)] timeState = true ∧ go 0x0704 [(2, 1 + 2 * 4 + 2 * 256), (3, 1), (6, 1000), (7, 1)] timeState = true ∧ triggerOk (pk 0x0704 [(2, 1 + 2 * 4 + 2 * 256), (3, 1), (6, 1000), (7, 1)]) = true ∧
      acting timeState = true ∧ clockLost timeState .time = false ∧ (timeState.time.pulses.get? 3).elim false (fun x => pulseDue (advance 1 timeState) x && x.highUntil == some 2) = true ∧
      2 ≤ 2 * (timeState.now + 1) ∧ (timeState.time.triggers.get? 3).elim false (fun x => x.source == 2 && !x.fired && decide (x.at' ≤ (advance 1 timeState).time.local')) = true ∧
      (timeState.time.triggers.get? 0).elim false (fun x => x.source == 1 && x.edge == 2 && x.cycle == some (0, 0)) = true ∧ seriesInstant 0 1000 1 0 ≤ (advance 1 timeState).time.local' := by decide +kernel

def taudio : AudPortCfg := { format := 1, slots := 32 }
/-- Port 0 runs as a slave, port 1 is ACQUIRING after 1,024 frames, port 7 is a running master, port 2 has lost its clock; bus 127 takes slot 0 of port 0 and is armed. -/
def audioState : State :=
  { netState with audio := { ports := [(0, { cfg := taudio, st := 3 }), (1, { cfg := taudio, st := 2, frames := 1024 }), (2, { cfg := taudio, st := 1 }), (7, { cfg := { taudio with master := true }, st := 3, nextFrame := 5 })],
                             buses := [(127, { owner := some 0, src := .slot 0 0, armed := some (.mute 5, 0) })], txSlots := [(3 * 32, 127)], nextSample := 1440 },
                  time.local' := 30000000 * 2 ^ 32 }

theorem witness_AudioCommands :
    go 0x0801 [(2, 15), (4, 1000)] netState = true ∧ go 0x0801 [(2, 15), (4, 20000)] netState = true ∧ routeUses netState 15 = false ∧
      go 0x0801 [(2, 7), (3, 1 + 32 * 16)] audioState = true ∧ routeUses audioState 7 = false ∧ (audPortCfgOf (pk 0x0801 [(3, 1 + 32 * 16)])).slots * 32 * portRate (audPortCfgOf (pk 0x0801 [(3, 1 + 32 * 16)])) ≤ 49152000 ∧
      go 0x0802 [(2, 0)] audioState = true ∧ go 0x0802 [(2, 2)] audioState = true ∧ (audPortAt audioState 2).st < 2 ∧
      go 0x0803 [(2, 127 * 256), (3, 0)] audioState = true ∧ denyAudRoute (cmdIn q0 (cm 0x0803 [(2, 127 * 256)]) []) audioState = false ∧
      go 0x0803 [(2, 127 * 256), (3, 1 + 31 * 256 + 7 * 65536)] audioState = true ∧ portOnBus audioState 7 = true ∧ portOnBus audioState 0 = false ∧
      asrcNeed audioState (((busTargets audioState).erase 127).map (fun e => e.2)) (txAhead audioState) < 128 ∧
      (flowInAt { audioState with net.flowsIn := [(9, { owner := 0, cfg := { tflow with kind := 3, audio := (64, 0, 0, 0) } })] } 9).elim false (fun x => x.cfg.kind == 3 && decide (63 < x.cfg.audio.1)) = true ∧
      go 0x0803 [(2, 1 + 127 * 256), (3, 31 * 256 + 7 * 65536), (4, 1)] audioState = true ∧
      asrcNeed audioState ((busTargets audioState).map (fun e => e.2)) (txConnect (pk 0x0803 [(2, 1 + 127 * 256), (3, 31 * 256 + 7 * 65536), (4, 1)]) (txAhead audioState)) ≤ 128 ∧
      go 0x0803 [(2, 2 + 120 * 256), (3, 8 * 256 + 62 * 65536)] audioState = true ∧ (chanAt audioState 62).isSome = true ∧
      go 0x0804 [(2, 127 * 256)] audioState = true ∧ muteBuses (pk 0x0804 [(2, 120 * 256 + 7 * 65536)]) = [120, 121, 122, 123, 124, 125, 126, 127] ∧
      (muteBuses (pk 0x0804 [(2, 120 * 256 + 7 * 65536)])).all (fun n => !(busForeign audioState 0 n)) = true := by decide +kernel

theorem witness_AudioEvents :
    acting audioState = true ∧ 2 ≤ (audPortAt audioState 7).st ∧ (audPortAt audioState 7).cfg.master = true ∧
      (audPortAt audioState 7).nextFrame ≠ (advance 1 audioState).time.local' * portRate taudio / (1000000000 * nsUnit) + 1 ∧
      2 ≤ (audPortAt audioState 0).st ∧ (audPortAt audioState 0).cfg.master = false ∧ (audPortAt audioState 0).u = none ∧ clockLost audioState .fab = false ∧
      busDue (advance 1 audioState) audioState.audio.nextSample (advance 1 audioState).time.local' = true ∧ busInputsReady audioState audioState.audio.nextSample = true ∧
      (busAt State.reset 0).next = [] ∧ (busAt { audioState with audio.buses := [(3, { muted := true })] } 3).muted = true ∧
      armLate audioState audioState.audio.nextSample (busAt audioState 127) = true ∧ busDue audioState audioState.audio.nextSample (advance 1 audioState).time.local' = true ∧
      (audPortAt audioState 2).st = 1 ∧ (audPortAt audioState 1).st = 2 ∧ 1024 ≤ (audPortAt audioState 1).frames := by decide +kernel

theorem witness_AudioOtherCases :
    go 0x0801 [(2, 8)] netState = true ∧ go 0x0801 [(2, 15), (4, 999)] netState = true ∧ (audPortCfgOf (pk 0x0801 [(2, 7), (3, 3)])).format = 3 ∧ routeUses audioState 0 = true ∧ go 0x0801 [(2, 0), (3, 1 + 31 * 16)] audioState = true ∧
      (muteBuses (pk 0x0804 [(2, 127 * 256 + 1 * 65536)])).any (fun n => decide (127 < n)) = true ∧ (muteBuses (pk 0x0804 [(2, 127 * 256 + 1 * 65536)])).any (busForeign audioState 0) = false ∧
      ((audPortAt audioState 2).st = 1 ∧ (audPortAt audioState 2).cfg.master = false) ∧ (audPortAt audioState 3).st = 0 ∧
      (let x : AudPort := { cfg := taudio, st := 3, u := some 1000 }; 2 ≤ x.st ∧ x.cfg.master = false ∧ x.u = some 1000 ∧ nominalPeriod x.cfg / 2 < (3000000000 : Int) - (1000 + periodEstimate x 3000000000) ∧
        (0 : Int) - (1000 + periodEstimate x 0) < -(nominalPeriod x.cfg / 2)) ∧
      audioCauseMet audioState 0 (.bclk 0) = true ∧ audioCauseMet audioState 7 .fsync = false ∧ (audPortAt audioState 1).st ≠ 1 ∧ (audPortAt audioState 0).st ≠ 2 ∧
      clockLost { power := { clocksLost := [.fab] } } .fab = true ∧ (busAt audioState 127).armed.isSome = true := by decide +kernel

/-! Witnesses: the pair, Causeway frames, the claim keeper (10). -/

def thb : HbPayload := { claim := 0x100, tide := 5, state := .synced, role := .standby, keeper := .released, codingGen := 0 }
def tslice : SliceCheckEntry := { channel := 63, failed := false, slice := 2, check := 7, picture := 9 }
def trecord : TideRec := { tide := 5, claim := 0x100, shedStep := 0, channels := [], outputs := [], tags := [] }
/-- A configured pair with its Causeway up on lane 88; its member is `r`, the pair in state `st`. -/
def pairOf (r : PairRole) (st : PairState) : State :=
  { chanState with net.lanes := [(88, { cfg := { mode := 4, rate := 1 } })],
                   pair := { cfg := some {}, role := r, st := st, lost := false, partner := some thb, ownRecords := [trecord], ownChecks := [tslice], claim := 0x100, keeper := if r = .holder then .holding else .released } }

theorem witness_Pair_commands :
    go 0x0901 [(2, 1)] State.reset = true ∧ configWaits State.reset = false ∧ pairOn State.reset ≠ flag (pk 0x0901 [(2, 1)]) 2 0 ∧
      go 0x0901 [] (pairOf .holder .synced) = true ∧ pairOn (pairOf .holder .synced) ≠ flag (pk 0x0901 []) 2 0 ∧
      flowCmds (at0 { cm 0x0901 [] with started := true, wait := .forming 5 } State.reset) 0 = [{ cm 0x0901 [] with started := true, wait := .forming 5 }] ∧
      go 0x0903 [] (pairOf .holder .synced) = true ∧ isHolder (pairOf .holder .synced) = true ∧ swapKeyed (pk 0x0903 []) (pairOf .holder .synced) = false ∧
      go 0x0903 [(2, 1)] (pairOf .holder .mixed) = true ∧ swapKeyed (pk 0x0903 [(2, 1)]) (pairOf .holder .mixed) = true ∧
      go 0x0904 [] (pairOf .holder .diverged) = true ∧ resyncOk (pairOf .holder .diverged) = true ∧ go 0x0905 [(2, 1)] State.reset = true ∧ State.reset.pair.st = .unpaired := by decide +kernel

theorem witness_Pair_heartbeats :
    acting (pairOf .standby .synced) = true ∧ pairOn (pairOf .standby .synced) = true ∧ (pairOf .standby .synced).pair.lastHbSent + ticksUs 8 ≤ 0 + 4000 ∧
      injectionOf (pairOf .standby .synced) 8 0 = none ∧ cwLive (pairOf .standby .synced) = true ∧ (pairOf .standby .synced).pair.sent = [] ∧
      (pairOf .standby .synced).pair.lastHb + ticksUs (9 + 8 * 0) ≤ 0 + 4500 ∧
      (pairOf .standby .synced).pair.misses < 2 ∧ 2 ≤ ({ pairOf .standby .synced with pair.misses := 2 } : State).pair.misses ∧ isStandby (pairOf .standby .synced) = true := by decide +kernel

/-- CHAN_DESTROY of channel 63, mirrored by the holder, waits for the standby's OUTCOME. -/
def mirrorCmd : Cmd := { cm 0x0205 [(2, 63)] with started := true, wait := .pair, mirrorSerial := some 4 }
def mirrorState : State := { at0 mirrorCmd (pairOf .holder .synced) with pair.sent := [{ serial := 4, flow := 0, outcome := 0, result0 := 0, result1 := 0, kind := 0, object := 0, boundary := 0 }] }
theorem witness_Pair_mirroring :
    inLockstep (pairOf .standby .mixed) = true ∧ isStandby (pairOf .standby .mixed) = true ∧ opcodeOf (pk 0x0205 []) ≠ 0x0903 ∧ isHolder mirrorState = true ∧ acting mirrorState = true ∧
      (mirrorState.pair.sent.find? (fun m => m.serial == 4)).isSome = true ∧ (flowCmds mirrorState 0).find? (fun c => c.mirrorSerial == some 4 && !c.mirrored) = some mirrorCmd ∧
      (opInfo 0x0205).isSome = true ∧ (mirrorMeaning 0x0205).isSome = true ∧
      ((opInfo 0x0205).bind (fun i => (mirrorMeaning 0x0205).map (fun k => match evalCmd i k (cmdIn q0 mirrorCmd []) mirrorState with | .done _ o _ a d => decide (o = 0 ∧ a = 0 ∧ d = 0) | _ => false))) = some true := by decide +kernel

theorem witness_Pair_records :
    ((pairOf .holder .synced).pair.ownRecords.find? (fun o => o.tide == trecord.tide)).isSome = true ∧ ((pairOf .holder .synced).pair.ownRecords.find? (fun o => o.tide == 6)).isNone = true ∧
      (pairOf .standby .synced).pair.ownChecks = [tslice] ∧ (pairOf .standby .synced).pair.partnerChecks = [] ∧ sameSlice tslice { tslice with check := 8 } = true ∧ tslice.failed = false := by decide +kernel

def tline : RepairLine := { sdi := true, source := 94, line := 3, picture := 0 }
def cwState : State :=
  { pairOf .standby .synced with
    chans := [(0, { trun with cfg := some { tcfg with srcKind := 1, srcIndex := 94 } })],
    net.lanes := [(88, { cfg := { mode := 4, rate := 1 } }), (94, { cfg := { mode := 2 }, pics := [{ number := 1, tref := 0, ts := 0 }] })],
    pair.repairs := [tline], pair.exchange := 3, pair.exchangeT1 := some 100, pair.shedWait := some (1, false, 2, 0), time.tide := 2,
    net.cw := { unacked := [{ seq := 65535, sent := 0, type := 1, payload := [] }, { seq := 0, sent := 0, type := 1, payload := [] }], txSeq := 1 } }

theorem witness_CausewayFramesAreTaken :
    acting cwState = true ∧ isStandby cwState = true ∧ cwLive cwState = true ∧
      (chanAt cwState 0).elim false (fun x => coding x && x.run.nextPic + (dropEarly x).input.pending.length == 7 && x.run.byHolder != some none && x.cfg.elim false (fun g => g.srcKind != 2)) = true ∧
      (repairPic cwState tline).isSome = true ∧ (repairPic cwState { tline with picture := 5000 }).isNone = true ∧ cwState.pair.repairs.contains tline = true ∧
      newerClaim cwState.pair.claim.toNat 0x100 = false ∧ newerClaim cwState.pair.claim.toNat 0x180 = false ∧ newerClaim 0x200 0x180 = true ∧
      isHolder (pairOf .holder .synced) = true ∧ cwLive (pairOf .holder .synced) = true ∧ cwState.pair.exchangeT1 = some 100 ∧ (pairOf .holder .degraded).pair.st ≠ .synced ∧
      cwState.pair.shedWait = some (1, false, 2, 0) ∧ 0 + 2 ≤ cwState.time.tide ∧
      cwState.net.cw.unacked.findIdx? (fun f => f.seq == (65535 : BitVec 16).toNat) = some 0 ∧ cwState.net.cw.unacked.findIdx? (fun f => f.seq == (0 : BitVec 16).toNat) = some 1 ∧
      0 + ticksUs 2 ≤ cwState.now + 1000 := by decide +kernel

def keepState (r : PairRole) (k : Keeper) : State := { pairOf r .synced with pair.keeper := k, pair.claimWait := some 0, now := 100000 }
theorem witness_ClaimKeeper :
    acting (keepState .standby .released) = true ∧ wantsClaim (keepState .standby .released) = true ∧ wantsClaim (keepState .holder .released) = true ∧ (keepState .standby .released).pair.claimIn = true ∧
      (keepState .standby .released).pair.claimInSince + ticksUs 2 ≤ 100000 ∧ (keepState .standby .released).pair.holdN = true ∧ (keepState .standby .released).pair.backoffUntil ≤ 100000 ∧
      (keepState .standby .asserting).pair.keeper = .asserting ∧ (keepState .standby .asserting).pair.assertStart + ticksUs 2 ≤ 100000 ∧ isStandby (keepState .standby .asserting) = true ∧
      isHolder (keepState .holder .asserting) = true ∧ isStandby (keepState .none .asserting) = false ∧ isHolder (keepState .none .asserting) = false ∧
      clockLost (keepState .holder .holding) .fab = false ∧ coresUp (keepState .holder .holding) ≠ 0 ∧ (keepState .holder .holding).pair.lapsing = none ∧
      (keepState .holder .holding).pair.lastRefresh + ticksUs 24 ≤ 100000 ∧ 0 + ticksUs 8 ≤ 100000 ∧ injectionOf (keepState .holder .holding) 9 0 = none ∧ passedPending (keepState .holder .holding) = false ∧
      0 + ticksUs 40 ≤ 100000 ∧ isHolder (keepState .standby .released) = false ∧ (keepState .standby .released).pair.yielding = none ∧
      reportsArrive { keepState .standby .released with pair.lost := true } = false ∧ (chanAt (keepState .standby .released) 62).isSome = true := by decide +kernel

theorem witness_PairRefusals :
    configWaits State.reset = false ∧ go 0x0901 [] State.reset = true ∧ pairOn State.reset = flag (pk 0x0901 []) 2 0 ∧ go 0x0903 [] State.reset = true ∧ isHolder State.reset = false ∧
      go 0x0904 [] State.reset = true ∧ resyncOk State.reset = false ∧ go 0x0905 [] (pairOf .holder .synced) = true ∧ (pairOf .holder .synced).pair.st ≠ .unpaired ∧
      swapKeyed (pk 0x0903 [(2, 1)]) (pairOf .holder .mixed) = true ∧ (pairOf .holder .mixed).pair.yielding = none ∧
      (pairOf .standby .synced).now < ({ pairOf .standby .synced with pair.hbSuppressUntil := 9 } : State).pair.hbSuppressUntil := by decide +kernel

theorem witness_PairCommandsOnAMember :
    mirroredRow 0x0205 q0 okBus = some (.chanDestroy q0 okBus) ∧ pairReady 0x0205 q0 (cm 0x0205 [(2, 63)]) okBus [] (at0 (cm 0x0205 [(2, 63)]) (pairOf .standby .synced)) = true ∧
      pairReady 0x0205 q0 (cm 0x0205 [(2, 63)]) okBus [] (at0 (cm 0x0205 [(2, 63)]) (pairOf .holder .synced)) = true ∧ inLockstep (pairOf .holder .synced) = true ∧ inLockstep (pairOf .holder .degraded) = false ∧
      pairReady 0x0205 q0 (cm 0x0205 [(2, 63)]) okBus [] (at0 (cm 0x0205 [(2, 63)]) (pairOf .none .degraded)) = true ∧ isHolder (pairOf .none .degraded) = false ∧ isStandby (pairOf .none .degraded) = false ∧
      isStandby (pairOf .standby .resyncing) = true ∧ inLockstep (pairOf .standby .resyncing) = false ∧ (pairOf .standby .resyncing).pair.rcStates.get? 63 = none ∧
      isStandby (pairOf .standby .synced) = true ∧ hostUp (pairOf .standby .synced) = true ∧ (5 : Word).getLsbD 0 = true := by decide +kernel

/-- Line 3 of the picture is held by a holder with its bytes; decoder 4 joins. -/
def tpicIn : LivePic := { number := 1, tref := 0, ts := 0, done := [(3, 5)] }
def lineHolder : State := { cwState with pair.role := .holder, net.lanes := [(88, { cfg := { mode := 4, rate := 1 } }), (94, { cfg := { mode := 2 }, pics := [tpicIn] })] }
theorem witness_CausewayOtherCases :
    (repairPic lineHolder tline) = some tpicIn ∧ tpicIn.formatError = false ∧ tline.line ∉ tpicIn.bad ∧ tpicIn.done.has tline.line = true ∧ (lineBytes lineHolder tline tpicIn).length ≤ 2024 ∧
      (repairPic cwState tline).filter (fun p => !p.formatError && !(p.bad.contains tline.line) && p.done.has tline.line) = none ∧
      cwState.pair.repairs.contains { tline with line := 4 } = false ∧ isStandby { cwState with pair.joinPending := [(3, 30)] } = true ∧ ({ cwState with pair.joinPending := [(3, 30)] } : State).pair.joinPending.contains (3, 30) = true ∧
      cwLive State.reset = false ∧ cwState.pair.stepPending = false ∧ ({ cwState with pair.stepPending := true } : State).pair.stepPending = true ∧ 7 ≠ cwState.pair.exchange ∧
      (flowOutAt netState 2047).elim false (fun x => !x.removed) = true ∧ cwState.net.cw.unacked.findIdx? (fun f => f.seq == 9) = none ∧
      newerClaim 0x200 0x180 = true ∧ ({ kind := 0, step := 1, undo := false, serial := 2, entries := [(0, 3)] } : ShedFrame).entries.any (fun e => (chanAt cwState e.1).elim false (fun c => coding c && decide (e.2 < c.run.nextPic))) = true := by decide +kernel

def tqs (due : Nat) : SliceQ := { due := due, picture := 0, slice := 0, nals := [], check := 0, substitute := false, firstOfRow := true }
theorem witness_ClaimKeeperOtherCases :
    ({ keepState .standby .released with pair.claimIn := false } : State).pair.claimIn = false ∧ 100000 < ({ keepState .holder .holding with pair.lastRefresh := 99999 } : State).pair.lastRefresh + ticksUs 24 ∧
      ({ keepState .holder .holding with pair.lapsing := some 99000 } : State).pair.lapsing = some 99000 ∧ 100000 < 99000 + ticksUs 8 ∧
      ({ keepState .holder .holding with net.ports := [(0, { cfg := tport, busyUntil := 100005, sending := some (0, false, 0) })] } : State).net.ports.any (fun e => e.2.sending.isSome && decide (100000 < e.2.busyUntil)) = true ∧
      ({ keepState .holder .holding with pair.yielding := some { reason := 1, keyed := false, swapTide := 0 } } : State).pair.lapsing = none ∧
      ({ keepState .standby .released with pair.claimIn := false } : State).pair.keeper = .released ∧ isStandby (keepState .standby .holding) = true ∧ (keepState .standby .holding).pair.sent = [] ∧
      (let x : Chan := { trun with run := { trun.run with queue := [tqs 0, tqs (10 ^ 40)] } };
       (x.run.queue.takeWhile (fun q => decide (q.due + nsQ 200000 ≤ localQ { keepState .standby .released with time := { local' := 10 ^ 30 } }))).length = 1) := by decide +kernel

/-! Witnesses: update, parameters, Ferry (11). -/

def tclient : Client := { addr := 0xC0A86001, port := 7 }
/-- A command that the Ferry client sent. -/
def fc (code : Nat) (ws : FMap Nat) : Cmd := { cm code ws with ferry := some (tclient, 1) }
def inFerry (c : Cmd) (s : State) : State := { s with flows := [(8192, [c])], nextSerial := 1 }
def goFerry (code : Nat) (ws : FMap Nat) (s : State) : Bool := ready code (.ferry 0) (fc code ws) (inFerry (fc code ws) s)
def trec : ParamRec := { key := 0x0010, value := [5] }
def updState (x : Session) : State :=
  { upd := { session := x, trialEnd := some 5, txn := some (tclient, [trec]), staging := [(0, [0x10, 0, 1, 0, 5, 0, 0, 0]), (1023, [])], owner := some tclient,
             clients := [{ client := tclient, lastHeard := 3, kept := [{ seq := 9, opcode := 0, outcome := 0, flow := 0, tag := 0, progress := 0, result0 := 0, result1 := 0, tide := 0, answer := [] }], running := [10] }],
             slotB := { sessionId := 1, imageBlocks := 2, imageBytes := 70000, descriptor := true, entries := [(0, 5), (1, 6)], blocks := [(0, []), (1, [])] } } }

theorem witness_UpdateSessions :
    goFerry 0x0A01 [(2, 2), (3, 131072)] State.reset = true ∧ goFerry 0x0A01 [(2, 255), (3, 1)] State.reset = true ∧ State.reset.upd.session = .idle ∧ State.reset.upd.owner = none ∧
      goFerry 0x0A03 [] (updState .receiving) = true ∧ otherClient (cmdIn (.ferry 0) (fc 0x0A03 []) []) (updState .receiving) = false ∧
      (List.range (slotOf (updState .receiving) (inactive (updState .receiving))).imageBlocks).all (fun i => (slotOf (updState .receiving) (inactive (updState .receiving))).entries.has i) = true ∧
      flowCmds (inFerry { fc 0x0A02 [(5, 1)] with started := true, wait := .flash } (updState .receiving)) 8192 = [{ fc 0x0A02 [(5, 1)] with started := true, wait := .flash }] ∧
      acting (updState .receiving) = true ∧ ({ updState .trial with upd.fusePending := some (1, 0) } : State).upd.fusePending = some (1, 0) ∧
      goFerry 0x0A04 [(2, 30)] (updState .verified) = true ∧ goFerry 0x0A04 [(2, 3600)] (updState .verified) = true ∧ activateRefused (updState .verified) = false ∧ activateRefused chanState = true ∧
      clockLost (updState .trial) .ctl = false ∧ (updState .trial).upd.trialEnd = some 5 ∧ 5 ≤ (updState .trial).now + 5 ∧
      goFerry 0x0A05 [] (updState .trial) = true ∧ (updState .trial).upd.fusePending = none ∧ goFerry 0x0A06 [(2, 1)] (updState .trial) = true ∧ goFerry 0x0A06 [] (updState .receiving) = true := by decide +kernel

theorem witness_Parameters :
    readyBlock 0x0A07 (.ferry 0) (fc (0x0A07 + 2 ^ 18) [(4, 8)]) okBus [0x10, 0, 1, 0, 5, 0, 0, 0] (inFerry (fc (0x0A07 + 2 ^ 18) [(4, 8)]) (updState .idle)) = true ∧
      paramRecs 8 [0x10, 0, 1, 0, 5, 0, 0, 0] = some [trec] ∧ paramOk trec.key trec.value = true ∧ clientOf (fc 0x0A07 []) = some tclient ∧ (updState .idle).upd.txn = some (tclient, [trec]) ∧
      1 + 1 ≤ 4096 ∧ goFerry 0x0A08 [(2, 1)] (updState .idle) = true ∧ word (fc 0x0A08 [(2, 1)]).packet 2 = 1 := by decide +kernel

theorem witness_Ferry :
    ferryUp (updState .idle) = true ∧ ferryAllowed (updState .idle) 0xC0A86001 = true ∧ ferryAllowed (updState .idle) 0xC0A86101 = false ∧ acting (updState .idle) = true ∧
      ((hearClient tclient (updState .idle)).upd.clients.find? (fun y => y.client == tclient)).elim false (fun x => (x.kept.find? (fun y => y.seq == 9)).isSome && (x.kept.find? (fun y => y.seq == 10)).isNone
        && x.running.contains 10 && !(x.running.contains 11) && x.kept.any (fun k => !(seqLower 11 k.seq)) && x.kept.all (fun k => seqLower 8 k.seq)) = true ∧
      flowOf (pk 0x01000000 []) < 4 ∧ 1047552 % 1024 = 0 ∧ 1047552 < 1048576 ∧ (List.replicate 1024 (0 : Byte)).length = 1024 ∧ 1 % 1024 ≠ 0 := by decide +kernel

/-! UPD_BLOCK: 64 KiB whose CRC-32C is 0xFFFFFFFF, since four bytes 0xFF bring the register to 0 and zeros leave it there. -/

def zseg : List Byte := List.replicate 1024 0
def fseg : List Byte := [0xFF, 0xFF, 0xFF, 0xFF] ++ List.replicate 1020 0
def blockState : State := { updState .receiving with upd.staging := (List.range 64).map (fun i => (i, if i = 0 then fseg else zseg)), upd.slotB := { imageBlocks := 2, descriptor := true } }
def blockCmd : Cmd := fc (0x0A02 + 2 ^ 18) [(4, 65536), (5, 1), (6, 0xFFFFFFFF)]
def blockData : List Byte := stagedBytes (inFerry blockCmd blockState) 0 65536

theorem crcRun_zeros (n : Nat) : crcRun 0 0 (List.replicate n 0) = 0 := by
  induction n with
  | zero => rfl
  | succ n ih => rw [List.replicate_succ]; exact ih
theorem crcRun_append (v : Nat) (a b : List Byte) : crcRun 0 v (a ++ b) = crcRun 0 (crcRun 0 v a) b := List.foldl_append ..
theorem blockData_eq : blockData = [0xFF, 0xFF, 0xFF, 0xFF] ++ List.replicate 65532 0 := by
  have h : (List.range 64).map (fun j => (inFerry blockCmd blockState).upd.staging.getD (0 / 1024 + j) []) = fseg :: List.replicate 63 zseg := rfl
  have hz : (List.replicate 63 zseg).flatten = List.replicate (63 * 1024) 0 := List.flatten_replicate_replicate
  have hl : ([0xFF, 0xFF, 0xFF, 0xFF] ++ List.replicate (1020 + 63 * 1024) (0 : Byte)).length ≤ 65536 := by
    rw [List.length_append, List.length_replicate]; decide
  show (((List.range 64).map _).flatten).take 65536 = _
  rw [h, List.flatten_cons, hz, fseg, List.append_assoc, List.replicate_append_replicate]
  exact List.take_of_length_le hl
theorem readyBlock_ferry (code : Nat) (q : FlowRef) (c : Cmd) (b : Bus) (s : State) (hf : c.ferry.isSome = true)
    (h : (atFront code q c s && indirectOf c.packet && (match opInfo code with | some i => i.block != .answer | none => false)) = true)
    (hu : (unstaged s (word c.packet 2) (word c.packet 4)).isNone = true) :
    readyBlock code q c b (stagedBytes s (word c.packet 2) (word c.packet 4)) s = true := by
  unfold readyBlock
  rw [if_pos hf, hu, Bool.true_and, beq_self_eq_true, Bool.and_true]; exact h
theorem test_blockData_crc : crc32c blockData = 0xFFFFFFFF := by
  rw [crc32c, blockData_eq, crcRun_append, show crcRun 0 0xFFFFFFFF [0xFF, 0xFF, 0xFF, 0xFF] = 0 by decide +kernel, crcRun_zeros]; decide

theorem witness_UpdBlock :
    readyBlock 0x0A02 (.ferry 0) blockCmd okBus blockData (inFerry blockCmd blockState) = true ∧ otherClient (cmdIn (.ferry 0) blockCmd []) blockState = false ∧ blockState.upd.session = .receiving ∧
      word blockCmd.packet 4 = 65536 ∧ word blockCmd.packet 5 < (slotOf blockState (inactive blockState)).imageBlocks ∧ crc32c blockData = word blockCmd.packet 6 ∧
      (slotOf blockState (inactive blockState)).entries.get? (word blockCmd.packet 5) = none := by
  exact ⟨readyBlock_ferry 0x0A02 (.ferry 0) blockCmd okBus _ rfl (by decide +kernel) (by decide +kernel), by decide +kernel, by decide +kernel, by decide +kernel, by decide +kernel,
    by rw [test_blockData_crc]; decide +kernel, by decide +kernel⟩

theorem witness_UpdateRefusals :
    otherClient (cmdIn (.ferry 0) { fc 0x0A03 [] with ferry := some ({ tclient with port := 8 }, 1) } []) (updState .receiving) = true ∧
      ready 0x0A03 (.ferry 0) { fc 0x0A03 [] with ferry := some ({ tclient with port := 8 }, 1) } (inFerry { fc 0x0A03 [] with ferry := some ({ tclient with port := 8 }, 1) } (updState .receiving)) = true ∧
      goFerry 0x0A01 [(2, 1), (3, 1)] State.reset = true ∧ goFerry 0x0A01 [(2, 2), (3, 131073)] State.reset = true ∧ (updState .receiving).upd.session ≠ .idle ∧ goFerry 0x0A01 [(2, 2), (3, 1)] (updState .receiving) = true ∧
      goFerry 0x0A03 [] (updState .idle) = true ∧ goFerry 0x0A04 [(2, 29)] (updState .verified) = true ∧ goFerry 0x0A04 [(2, 30)] (updState .receiving) = true ∧ goFerry 0x0A05 [] (updState .receiving) = true ∧
      (slotOf blockState (inactive blockState)).entries.has 0 = false ∧ blockState.upd.session = .receiving ∧
      goFerry 0x0A06 [] { updState .trial with upd.fusePending := some (1, 0) } = true ∧ goFerry 0x0A06 [] (updState .trial) = true ∧ (updState .trial).now < 5 := by decide +kernel
/-- An announcement of COMMAND whose length is wrong, and the ARP request for the device's own address. -/
def ferryIp : Word := BitVec.ofNat 32 (paramNat (updState .idle) keyFerryIp 0xC0A86010)
/-- The first bytes of a DATA datagram of segment 3 with its check field zero, and the CRC-32C register after them: data that begins with it and goes on with zeros brings the check to 0xFFFFFFFF. -/
def dataHead : List Byte := [0x46, 0x59, 1, 3, 0, 0, 0, 0, 0, 12, 0, 0]
def dataReg : List Byte := le 4 (crcRun 0 0xFFFFFFFF (dataHead ++ [0, 0, 0, 0]))
def dataTail : List Byte := dataReg ++ List.replicate 1020 0
def dataDgram : List Byte := dataHead ++ ([0xFF, 0xFF, 0xFF, 0xFF] ++ dataTail)
theorem dataDgram_crc : crc32c (dataDgram.take 12 ++ zeros 4 ++ dataDgram.drop 16) = 0xFFFFFFFF := by
  have h : dataDgram.take 12 ++ zeros 4 ++ dataDgram.drop 16 = (dataHead ++ [0, 0, 0, 0] ++ dataReg) ++ List.replicate 1020 0 := by
    rw [List.append_assoc _ dataReg]; rfl
  rw [h, crc32c, crcRun_append, show crcRun 0 0xFFFFFFFF (dataHead ++ [0, 0, 0, 0] ++ dataReg) = 0 by decide +kernel, crcRun_zeros]; decide
theorem dataDgram_length : dataDgram.length = 1040 := by
  simp only [dataDgram, dataTail, List.length_append, List.length_replicate]; decide +kernel
theorem test_dataDgram_ok : datagramOk dataDgram = true := by
  have h : ofLe (slice dataDgram 3 1) = 3 := by rfl
  rw [datagramOk, h, dataDgram_crc, dataDgram_length]; decide +kernel
theorem witness_FerryOtherCases :
    ferryIp.toNat = paramNat (updState .idle) keyFerryIp 0xC0A86010 ∧ (7 : Word).toNat ≠ paramNat (updState .idle) keyFerryIp 0xC0A86010 ∧
      (9616 : BitVec 16).toNat = paramNat (updState .idle) keyFerryUdp 9616 ∧ ferryAllowed (updState .idle) tclient.addr = true ∧ datagramOk [] = false ∧ ofLe (slice dataDgram 3 1) = 3 ∧
      paramRecs 3 [1, 2, 3] = none ∧ (updState .idle).upd.txn = some (tclient, [trec]) ∧ word (pk 0x0A08 [(2, 2)]) 2 ≠ 1 ∧ goFerry 0x0A08 [(2, 2)] (updState .idle) = true ∧ State.reset.upd.txn = none ∧ goFerry 0x0A08 [] State.reset = true ∧
      ferryUp { updState .idle with power := { on := false } } = false ∧ 4 ≤ flowOf (pk 0x04000000 []) := by decide +kernel

/-! Witnesses: diagnostics and memory controllers (12). -/

def injectState : State := { pairOf .holder .synced with time.tide := 1 }
theorem witness_Diagnostics_tests :
    go 0x0B01 [(2, 63 * 256)] State.reset = true ∧ 63 < testUnits 0 ∧ testUnitIn State.reset 0 63 = true ∧ testRefusal State.reset 0 63 = none ∧
      go 0x0B01 [(2, 4 + 7 * 256)] State.reset = true ∧ testUnitIn State.reset 4 7 = true ∧ testRefusal State.reset 4 7 = none ∧ testRefusal State.reset 1 11 = none ∧
      flowCmds (at0 { cm 0x0B01 [] with started := true, wait := .selftest 0 63 5 } State.reset) 0 = [{ cm 0x0B01 [] with started := true, wait := .selftest 0 63 5 }] ∧ 12 ≤ testSteps 0 ∧
      go 0x0B02 [(2, 63 * 256)] State.reset = true ∧ State.reset.mem.pcOut.getLsbD 63 = false ∧ go 0x0B02 [(2, 1 + 7 * 256)] State.reset = true ∧ State.reset.mem.qportIn.getLsbD 7 = true ∧ acting State.reset = true := by decide +kernel

theorem witness_Diagnostics_injections :
    go 0x0B04 [(2, 2 + 0xFD * 256), (4, 32)] State.reset = true ∧ injectable State.reset 2 0 32 0 = true ∧ atomOf State.reset 32 = some (true, 32) ∧
      go 0x0B04 [(2, 10 + (10 ^^^ 0xFF) * 256), (3, 7)] State.reset = true ∧ injectable State.reset 10 7 0 0 = true ∧
      injectable injectState 5 0 0 1 = true ∧ injectable injectState 8 0 0 1 = true ∧ injectable injectState 9 0 0 0 = true ∧ injectable injectState 7 63 0 0 = true ∧
      injectable State.reset 3 63 0 0 = true ∧ injectable State.reset 4 7 0 0 = true ∧ injectable State.reset 1 0 0 0 = true ∧ injectable State.reset 6 0 0 0 = true ∧
      State.reset.journal.merged = [] ∧ State.reset.journal.rateStart + 500000000 ≤ 0 + 500000000 ∧ 0 < State.reset.journal.rateStart + 500000000 ∧ State.reset.journal.staged.length ≤ 1000 := by decide +kernel

def ttx (m : Fin 32) (atom : Nat) : FabTx := { seq := atom, id := 0, req := rd m (atom * 32), target := 8 }
/-- PC 0 has a class 1 request and owes a calibration step; PC 1 a class 0 request and eight refresh bursts; PC 2 a request in its retry buffer with two alerts. -/
def memState : State :=
  { mem.pcs := [(0, { queue := [{ id := 4, tx := ttx 10 32, cls := 1, arrived := 0 }], nextId := 5, pendRefresh := 1, calDue := some 0 }), (1, { queue := [{ id := 4, tx := ttx 5 32, cls := 0, arrived := 0 }], pendRefresh := 8 }),
                (2, { retry := [(4, 100000)], alerts := some (4, 2) }), (3, { retry := [(4, 100000)] })],
    mem.qFail := [(7, (3, 2))], now := 100000 }

theorem witness_MemoryControllers :
    go 0x0C01 [(2, 1), (3, 64)] State.reset = true ∧ regionMin 1 ≤ 64 ∧ 64 ≤ freeWith State.reset (regionsAhead State.reset) 1 + (regionsAhead State.reset).getD 1 0 ∧
      (kindsOf 1).all (fun j => regionUsed State.reset (poolWith State.reset none none) j == 0) = true ∧ go 0x0C01 [(2, 12), (3, 256)] State.reset = true ∧ regionMin 12 ≤ 256 ∧
      go 0x0C02 [(3, 60)] State.reset = true ∧ go 0x0C02 [(3, 604800)] State.reset = true ∧
      acting memState = true ∧ pcUp memState 0 = true ∧ pcUp memState 63 = true ∧ (pcAt memState 0).nextRefresh ≤ memState.now + 2000 ∧ (pcAt memState 0).pendRefresh ≠ 0 ∧
      rtPresent (pcAt memState 0) = false ∧ rtPresent (pcAt memState 1) = true ∧ (pcAt memState 0).busyUntil ≤ memState.now ∧ freeId memState 29 = some 0 ∧ 8 ≤ (pcAt memState 1).pendRefresh ∧ (pcAt memState 1).deferred = false ∧
      (pcAt memState 0).lastRt + 27 ≤ memState.now ∧ (pcAt memState 0).calDue = some 0 ∧ (pcAt memState 1).calDue = none ∧ (pcAt memState 1).lastCal + 125000000 ≤ memState.now + 125000000 ∧
      0 + 12500000 ≤ memState.now + 12500000 ∧ ((pcAt memState 0).queue.find? (fun q => q.id == 4)).bind promotionAge = some 2000 ∧ 0 + 2000 < memState.now ∧
      (nextServed (pcAt memState 0)).isSome = true ∧ (buffered 100000 (pcAt memState 0)).length < 64 ∧ nextServed (pcAt memState 3) = none ∧
      buffered 100000 (pcAt memState 3) = [(4, 100000)] ∧ injectionOf memState 3 3 = none ∧ (pcAt memState 3).alerts = none ∧ (pcAt memState 2).alerts = some (4, 2) ∧ buffered 100000 (pcAt memState 2) = [(4, 100000)] ∧
      clockLost memState .qdr = false ∧ memState.mem.qportIn.getLsbD 7 = true ∧ injectionOf memState 4 7 = none ∧ memState.mem.qFail.get? 7 = some (3, 2) ∧ memState.mem.qFail.get? 6 = none ∧
      clockLost memState .hbm = false ∧ (scrubOf memState true).period ≠ 0 ∧ atomCount memState true ≠ 0 ∧
      (scrubOf memState true).passStart + (scrubOf memState true).nextAtom * (scrubOf memState true).period * 500000000 / atomCount memState true ≤ memState.now + 1000000000 := by decide +kernel

/-- PC 4 owes eight refreshes without an RT request, and its calibration step is deferred; engine region 3 holds rows of a running channel. -/
def memState2 : State := { chanState with mem.pcs := [(4, { pendRefresh := 8, calDue := some 0, deferred := true }), (5, { queue := [{ id := 0, tx := ttx 5 3, cls := 0, arrived := 0 }, { id := 1, tx := ttx 6 3, cls := 0, arrived := 0 }] })], mem.pcOut := 1, now := 100000 }
theorem witness_MemoryControllersOtherCases :
    go 0x0C01 [(2, 8), (3, 1024)] State.reset = true ∧ go 0x0C01 [(2, 1), (3, 63)] State.reset = true ∧ 63 < regionMin 1 ∧ go 0x0C01 [(2, 3), (3, 257)] State.reset = true ∧ go 0x0C01 [(2, 9), (3, 1025)] State.reset = true ∧
      go 0x0C01 [(2, 1), (3, 64)] chanState = true ∧ (kindsOf 1).any (fun j => decide (1 < j) && decide (0 < regionUsed chanState (poolWith chanState none none) j)) = true ∧
      (kindsOf 3).all (fun j => decide (j ≤ 4) && (decide (j ≤ 3) || decide (0 < regionUsed chanState (poolWith chanState none none) j))) = true ∧
      (kindsOf 12).all (fun j => decide (j ≤ 12)) = true ∧ 0 < regionUsed { compState with chans := [] } (poolWith compState none none) 12 ∧
      go 0x0C02 [(3, 59)] State.reset = true ∧ pcUp memState2 0 = false ∧ pcUp memState2 4 = true ∧ rtPresent (pcAt memState2 4) = false ∧ (pcAt memState2 4).deferred = true ∧ (pcAt memState2 4).calDue = some 0 ∧
      (nextServed (pcAt memState2 5)).elim false (fun q => q.id == 0) = true ∧ (ttx 5 3).scrub = none ∧ (true, 96) ∉ memState2.mem.poison ∧
      injectionOf memState2 4 7 = none ∧ memState.mem.pcOut.getLsbD 2 = false := by decide +kernel
theorem witness_DiagnosticsOtherCases :
    go 0x0B01 [(2, 64 * 256)] State.reset = true ∧ testUnits 0 ≤ 64 ∧ testUnitIn { units := { isleOut := 1 } } 0 0 = false ∧ testRefusal compState 2 3 = some stCapacity ∧
      go 0x0B02 [(2, 2)] State.reset = true ∧ go 0x0B02 [(2, 64 * 256)] State.reset = true ∧ memState2.mem.pcOut.getLsbD 0 = true ∧ go 0x0B02 [(2, 1)] chanState = true ∧
      (∃ e ∈ chanState.chans, e.2.st = .armed ∨ e.2.st = .running) ∧ go 0x0B04 [(2, 0)] State.reset = true ∧ injectable State.reset 3 64 0 0 = false ∧
      (flowCmds (at0 { cm 0x0B04 [] with started := true, wait := .inject 1 7 } State.reset) 0).head? = some { cm 0x0B04 [] with started := true, wait := .inject 1 7 } ∧
      flowCmds (at0 { cm 0x0B02 [] with started := true, wait := .retrain 3 7 } State.reset) 0 = [{ cm 0x0B02 [] with started := true, wait := .retrain 3 7 }] := by
  refine ⟨?_, ?_, ?_, ?_, ?_, ?_, ?_, ?_, ⟨(61, { trun with st := .armed }), ?_, .inl rfl⟩, ?_, ?_, ?_, ?_⟩ <;> decide +kernel

/-! Witnesses: shedding, clocks, resets, power (13). -/

theorem factory_valid : imageValid State.reset State.reset.upd.slotA = true := by
  have h1 : Config.keyIndex.val < 4 := Config.keyIndex.isLt
  have h2 : Config.secVersion.val ≤ 63 := Nat.le_of_lt_succ Config.secVersion.isLt
  simp [imageValid, imageKey, imageSec, fusedSec, State.reset, h1, h2]

/-- CORE is present at step 0, its condition for 10,000 ticks; a bank and the pin are below their thresholds, not yet causes. -/
def shedState : State :=
  { chanState with power := { core := true, coreCond := { present := true }, bankCond := [(2, { present := true })], pinCond := { present := true }, lastStep := some 0 }, now := 50000 }
def calmState (n : Nat) : State := { chanState with power := { step := n, coreCond := {}, lastStep := some 0 }, now := 5000000 }

theorem witness_Shedding_commands :
    go 0x0D01 [(2, 8 + 7 * 16), (3, 100 + 10 * 65536)] State.reset = true ∧ (shedPolicyOf (pk 0x0D01 [(2, 8 + 7 * 16), (3, 20000 + 10000 * 65536)])).recover = 10000 ∧
      (shedPolicyOf (pk 0x0D01 [(2, 8 + 7 * 16)])).holdStep = 7 ∧ go 0x0D03 [(2, 1 + 31 * 256), (3, 3)] compState = true ∧ (outAt compState 31).isSome = true ∧
      go 0x0D03 [(2, 63 * 256), (3, 1)] chanState = true ∧ (chanAt chanState 63).isSome = true := by decide +kernel
theorem witness_Shedding_vid : acting State.reset = true ∧ State.reset.power.vidTick + 5000 ≤ 0 + 500000 ∧ vidMin ≤ 60 ∧ vidMin ≤ 59 + 1 := by
  have h : vidMin ≤ 60 := Nat.max_le.2 ⟨by decide, Nat.le_of_lt_succ Config.vidFloor.isLt⟩
  exact ⟨by decide, by decide, h, h⟩
theorem witness_Shedding_causes :
    acting shedState = true ∧ ({ shedState with power.core := false } : State).power.core = false ∧ shedState.power.coreCond.present = true ∧ shedState.power.coreCond.since + 10000 ≤ shedState.now ∧
      shedState.power.vddio = false ∧ (bankCondAt shedState 2).present = true ∧ (bankCondAt shedState 2).since + 10000 ≤ shedState.now ∧ shedState.power.pinCond.since + 500 ≤ shedState.now ∧
      (calmState 3).power.coreCond.present = false ∧ (calmState 3).power.coreCond.since + 10000 ≤ (calmState 3).now ∧ (List.range 3).all (fun b => !(bankCondAt (calmState 3) b).present) = true ∧
      (calmState 3).power.pinCond.present = false := by decide +kernel
theorem witness_Shedding_steps :
    anyCause shedState = true ∧ shedState.power.step < shedLimit shedState ∧ shedState.pair.shedWait = none ∧ 0 + ticksUs shedState.power.policy.interval ≤ shedState.now ∧ pairOn shedState = false ∧
      ({ shedState with power.step := 7 } : State).power.step < shedLimit { shedState with power.step := 7 } ∧ (chanAt shedState 62).elim false (fun x => x.st != .idle && chanShedClass shedState { x with shedClass := 3 } == 7 - 4) = true ∧
      anyCause { pairOf .holder .synced with power := shedState.power } = true ∧ pairOn (pairOf .holder .synced) = true ∧ (pairOf .holder .synced).pair.role ≠ .none ∧
      anyCause (calmState 7) = false ∧ anyCause (calmState 1) = false ∧ (calmState 7).power.step < 8 ∧ pairOn (calmState 7) = false ∧
      max (calmState 7).power.quietSince ((calmState 7).power.lastStep.getD 0) + ticksMs (calmState 7).power.policy.recover ≤ (calmState 7).now := by decide +kernel

theorem witness_ClocksStopAndFunctionsReset :
    acting chanState = true ∧ clockLost chanState .fab = false ∧ chanState.fns.all (fun e => !e.2.busy) = true ∧ (chanAt chanState 62).elim false (fun x => x.st != .idle) = true ∧
      acting { chanState with power.clocksLost := [.fab] } = true ∧ clockLost { chanState with power.clocksLost := [.fab] } .fab = true ∧
      (1 : Fn) ≠ 0 ∧ (31 : Fn) ≠ 0 ∧ pairOn chanState = false ∧ (fnAt chanState 31).busy = false ∧ clockLost chanState .time = false ∧ (chanAt chanState 63).elim false (fun x => x.owner.val != 31) = true ∧
      chanState.chans.wf = true ∧ (flowOutAt netState 2047).elim false (fun w => w.owner.val == 0) = true ∧ ringState.flows.wf = true ∧ ringState.fns.all (fun e => !e.2.busy) = true := by decide +kernel

def trialState : State := { upd := { boot := { trial := true, trialS := 120 } }, power := { warmPending := some .activate } }
theorem witness_PowerAndResets :
    trialState.upd.boot.trial = true ∧ trialState.upd.boot.attempts = 0 ∧ imageValid trialState (slotOf trialState trialState.upd.boot.trialSlotB) = true ∧
      ({ trialState with upd.boot.attempts := 1 } : State).upd.boot.attempts ≠ 0 ∧ State.reset.upd.boot.trial = false ∧ imageValid State.reset (slotOf State.reset State.reset.upd.boot.activeB) = true ∧
      imageValid { upd.slotA := {} } ({} : FlashSlot) = false ∧ trialState.power.warmPending = some .activate ∧ State.reset.power.warmPending = none ∧
      (({ bootSrc0 := false } : Straps).bootSrc0 = false ∨ ({} : Straps).bootSrc1 = true) ∧ ¬ (trialState.power.bootSrc0 = true ∧ trialState.power.bootSrc1 = false) :=
  ⟨rfl, rfl, factory_valid, by decide, rfl, factory_valid, by decide +kernel, rfl, rfl, .inl rfl, by decide⟩

/-- A warm reset that waits for channel 62 to end its stream. -/
def endingState : State := { chanState with power := { warmPending := some .glbReset } }
theorem witness_SheddingOtherCases :
    go 0x0D01 [(2, 9)] State.reset = true ∧ go 0x0D01 [(2, 8 + 7 * 16), (3, 99 + 10 * 65536)] State.reset = true ∧ go 0x0D03 [(2, 60 * 256), (3, 1)] chanState = true ∧ chanAt chanState 60 = none ∧ go 0x0D03 [(2, 63 * 256)] chanState = true ∧
      shedState.power.pin = false ∧ ({ shedState with power.pin := true } : State).power.pin = true ∧ (calmState 0).power.step = 0 ∧ (calmState 8).power.step = 8 ∧ anyCause (calmState 4) = false ∧
      (pairOf .holder .synced).pair.st = .synced ∧ (pairOf .holder .degraded).pair.st ≠ .synced ∧ 3 < 4 ∧ pairOn { pairOf .holder .synced with power := (calmState 4).power } = true ∧
      anyCause { pairOf .holder .synced with power := (calmState 4).power } = false ∧ chanState.fns.all (fun e => !e.2.busy) = true := by decide +kernel
theorem witness_ClocksOtherCases :
    windowLost (100 * 0) (nominalEdges .fab) = true ∧ windowLost (100 * 1536) (nominalEdges .fab) = false ∧ windowLost (100 * 1729) (nominalEdges .fab) = true ∧ nominalEdges .ferry = 16000 ∧
      clockLost { power := { clocksLost := [.fab] } } .fab = true ∧ ClockDomain.fab ∉ State.reset.power.clocksBack ∧ (fnAt { fns := [(3, { busy := true })] } 3).busy = true ∧
      isStandby (pairOf .standby .synced) = true ∧ isStandby chanState = false ∧ (updState .receiving).upd.session = .receiving ∧
      streamsEnded endingState = false ∧ streamsEnded trialState = true ∧ imageValid { upd := { slotA := {}, slotB := {} } } ({} : FlashSlot) = false := by decide +kernel

/-! Witnesses: reception, line verdicts (14). -/

def vframe (n : Nat) : RxFrame := { bytes := n, dst := 0xEF000001, udpDst := 5000, payload := .video 7 0 [] }
/-- The flow has settled numbers up to 2³² + 9, with 2³² + 9 itself seen. -/
def tflowIn : FlowIn := { owner := 0, cfg := tflow, newest := some (2 ^ 32 + 9), settled := some (2 ^ 32 + 5), seen := [{ seq := 2 ^ 32 + 9, stamp := 0, pathB := false }] }

theorem witness_FramesAndLinesAreReceived :
    acting netState = true ∧ (portAt netState 0).cfg.speed ≠ 0 ∧ (portAt netState 0).down = false ∧ flowClocks netState = true ∧ (vframe 63).bytes < 64 ∧ (portAt netState 0).cfg.maxFrame < (vframe 9217).bytes ∧
      (vframe 64).fcsOk = true ∧ 64 ≤ (vframe 64).bytes ∧ (vframe 9216).bytes ≤ (portAt netState 0).cfg.maxFrame ∧ (vframe 64).pause = false ∧ (vframe 64).vlanTags ≤ 1 ∧
      matchFlow netState 0 (vframe 64) = some (1023, false) ∧ matchFlow netState 0 { vframe 64 with udpDst := 5001 } = none ∧ (flowInAt netState 1023).isSome = true ∧ kindFits tflow.kind (vframe 64).payload = true ∧
      seqOf (vframe 64).payload = some (7, false) ∧ ({ vframe 64 with payload := .arp true } : RxFrame).dst.toNat ≠ (portAt netState 0).cfg.ip ∧ ({ vframe 64 with dst := 0 } : RxFrame).dst.toNat = (portAt netState 0).cfg.ip ∧
      extendSeq (settleSeq 1 tflowIn).newest 10 false = 2 ^ 32 + 10 ∧ (settleSeq 1 tflowIn).seen.all (fun x => x.seq != 2 ^ 32 + 10) = true ∧
      extendSeq (settleSeq 1 tflowIn).newest 9 false = 2 ^ 32 + 9 ∧ (settleSeq 1 tflowIn).seen.any (fun x => x.seq == 2 ^ 32 + 9) = true ∧
      extendSeq (settleSeq 1 tflowIn).newest 4 false = 2 ^ 32 + 4 ∧ (settleSeq 1 tflowIn).settled = some (2 ^ 32 + 5) ∧ (settleSeq 1 tflowIn).seen.all (fun x => x.seq != 2 ^ 32 + 4) = true ∧
      (laneAt netState 94).cfg.mode = 2 ∧ (laneAt netState 94).fault = false := by decide +kernel

/-- Channel 62 judges line 0 of source picture 3; lines 0 and 719 have been received whole. -/
def lineState (l : Nat) : State :=
  { pairOf .holder .synced with
    chans := [(62, { trun with input := { judging := some (3, 0, l, true), lostRun := 2 } })],
    net.flowsIn := [(0, { owner := 0, cfg := tflow, pics := [{ number := 3, tref := 0, ts := 0, done := [(0, 5), (718, 5)] }] })], time.local' := 100000000 * 2 ^ 32 }
theorem witness_LinesAreJudgedAndRepaired :
    acting (lineState 0) = true ∧ isStandby (lineState 0) = false ∧ (chanAt (lineState 0) 62).elim false (fun x => x.st != .idle && (chanGeom (lineState 0) x).isSome && x.input.judging == some (3, 0, 0, true)) = true ∧
      (((0 : Nat) : Rat) + nsQ (((718 + 4 : Nat) : Rat) * tgeom.tLine) ≤ ((advance 1 (lineState 718)).time.local' : Rat)) ∧ 718 + 1 < tcfg.height ∧
      ((advance 1 State.reset).time.local' : Rat) < ((0 : Nat) : Rat) + nsQ (((0 + 4 : Nat) : Rat) * tgeom.tLine) ∧
      (judgedPic (lineState 718) tcfg 3).elim false (fun p => lineWhole p 718 (nsQ (((718 + 4 : Nat) : Rat) * tgeom.tLine)) && lineWhole p 0 (nsQ (((0 + 2 : Nat) : Rat) * tgeom.tLine))
        && !(lineWhole p 1 (nsQ (((1 + 4 : Nat) : Rat) * tgeom.tLine))) && !(lineWhole p 719 (nsQ (((719 + 2 : Nat) : Rat) * tgeom.tLine)))) = true ∧
      pairOn (lineState 0) = true ∧ cwLive (lineState 0) = true ∧ 719 < tcfg.height ∧ (lineState 0).pair.repairs = [] ∧
      ((0 : Nat) : Rat) + nsQ (((719 + 2 : Nat) : Rat) * tgeom.tLine) ≤ ((advance 1 (lineState 0)).time.local' : Rat) := by decide +kernel

/-! Witnesses: pictures, rows, units, slices (15). -/

def tcoding : Coding := { rc := some trc }
def trow : Row := { a := 100000, next := 16, records := (List.range 16).map (fun i => { ctuX := i, qp := 30, binCount := 5, estBits := 9 }) }
/-- A picture in progress of channel 62: row 0 is being coded, row 1 has not begun. -/
def tpicture : Pic := { number := 6, tref := 0, delay := 0, coding := tcoding, display := 6, rows := [(0, trow)] }
def codeChan : Chan := { trun with coding := tcoding, run := { trun.run with nextSlice := (6, 0), pics := [(6, tpicture)] }, input := { pending := [(90000000 * 2 ^ 32, some 9)] } }
def codeState (x : Chan) : State := { chanState with chans := [(62, x)], time.local' := 100000000 * 2 ^ 32 }
/-- Picture 6 has begun no row yet. -/
def rowChan : Chan := { codeChan with run := { codeChan.run with pics := [(6, { tpicture with rows := [] })] } }
/-- The rows of picture 5 have no actual counts yet. -/
def waitChan : Chan := { codeChan with run := { codeChan.run with pics := [(5, { tpicture with number := 5 }), (6, { tpicture with rows := [] })] } }
/-- All pictures so far are finished. -/
def nextChan : Chan := { codeChan with run := { codeChan.run with pics := [] } }
def tslicegeom : Option SliceGeom := (slicesOf tprof tgeom [])[0]?

def readyTo (x : Chan) : State := settleSlices 62 (modChan (fillLost 62 (advance 1 (codeState x))) 62 dropEarly)
/-- The channel's ring is full of rows; a picture is coded ahead and waits for its search. -/
def fullChan : Chan := { rowChan with run := { rowChan.run with lagoonSlots := 0 } }
def aheadChan : Chan := { rowChan with run := { rowChan.run with pics := [(6, { tpicture with rows := [], refs := ([5], []), ahead := true })] } }

theorem witness_PicturesRowsAndVariants :
    acting (codeState nextChan) = true ∧ mayEncode (codeState nextChan) = true ∧
      (chanAt (readyTo nextChan) 62).elim false (fun x => x.st != .idle && !x.run.aborting && (nextTref (readyTo nextChan) x).isSome && x.run.drainAfter.isNone &&
        (ctlOf (readyTo nextChan) x).elim false (fun k => pictureReady k == (true, true)) && decide (x.run.nextPic = 7)) = true ∧
      mirrorAwaited (codeState nextChan) 0 62 7 = false ∧ startsAt nextChan 1 = true ∧ (applyChanges (codeState nextChan) 62 7 nextChan).1.coding.rc = some trc ∧
      (codeState nextChan).units.isleOut = 0 ∧ (codeState { nextChan with run.aborting := true }).chans.all (fun e => e.2.run.aborting) = true ∧
      (chanAt (readyTo waitChan) 62).elim false (fun x => (ctlOf (readyTo waitChan) x).elim false (fun k => !(pictureReady { k with run := { k.run with nextPic := 7 } }).2)) = true ∧
      mayEncode { codeState nextChan with power.clocksLost := [.isle] } = false := by decide +kernel
theorem witness_RowsStart :
    coding rowChan = true ∧ rowChan.run.curRow = none ∧ noteSearch 62 {} (codeState rowChan) = codeState rowChan ∧
      (ctlOf (codeState rowChan) rowChan).elim false (fun k => (rowPicture k).elim false (fun q => q.number == 6 && rowArrived (codeState rowChan) rowChan k q 0 && countsReady k 6 0 && searchReady k q 0)) = true ∧
      rowChan.run.rowsBegun - rowChan.run.rowsFreed < rowChan.run.lagoonSlots ∧ fullChan.run.lagoonSlots ≤ fullChan.run.rowsBegun - fullChan.run.rowsFreed ∧
      (ctlOf (codeState aheadChan) aheadChan).elim false (fun k => (rowPicture k).elim false (fun q => q.ahead && rowArrived (codeState aheadChan) aheadChan k q 0 && countsReady k 6 0 && !(searchReady k q 0))) = true ∧ aheadChan.run.aheadWait = false ∧
      (ctlOf (codeState waitChan) waitChan).elim true (fun k => countsReady k 6 0) = false ∧ waitChan.run.stalled = false ∧
      (ctlOf { codeState rowChan with time.local' := 0 } rowChan).elim true (fun k => rowArrived { codeState rowChan with time.local' := 0 } rowChan k { tpicture with tref := 5 } 0) = false := by decide +kernel
/-- Row 0 of picture 6 stands at CTU 15: its left neighbour has been reconstructed. -/
def ctuChan : Chan := { codeChan with run := { codeChan.run with curRow := some (6, 0), pics := [(6, { tpicture with rows := [(0, { trow with next := 15 })], recon := [(14, { isle := 0, samples := ({ y := [] } : Planes) })] })] } }
theorem witness_VariantsAndRows :
    (ctuChan.run.pics.get? 6).elim false (fun q => (q.rows.get? 0).elim false (fun w => neighboursReady q 0 w.next && !(neighboursReady { q with recon := [] } 0 w.next))) = true ∧
      (ctlOf (codeState ctuChan) ctuChan).elim false (fun k => modeOk k tpicture (stepOn (codeState ctuChan) 62 3 6) 0 15 []) = true ∧ injectionOf (codeState ctuChan) 7 62 = none ∧
      trow.k < tgeom.cRow - losslessCount tgeom [] 0 ∧
      ((trow.e + (tgeom.cRow - losslessCount tgeom [] 0 - trow.k) * (copyCost 0 false).1 : Nat) : Int) ≤ min trow.a ((trc.rowCap : Int) - (trow.llEst : Int)) := by decide +kernel

/-- Picture 6 has slice 0 coded: its unit holds the bytes of a coded slice. -/
def sliceChan : Chan := { codeChan with run := { codeChan.run with pics := [(6, { tpicture with unitsDone := [(0, [0])], units := [(0, { bytes := [1, 2, 3] })] })] } }
/-- The first row of picture 6 is written whole with records whose CHECK is right. -/
def goodRec (i : Nat) : CtuRec := { ctuX := i, qp := 30, binCount := 5, estBits := 9, check := recordCheck { ctuX := i, qp := 30, binCount := 5, estBits := 9 } }
theorem witness_UnitsAndSlicesInOrder :
    entropyIn (codeState codeChan) 11 = true ∧
      (bestUnit (((codeState codeChan).chans.filter (fun x => coding x.2 && !x.2.run.aborting)).flatMap (fun x => readyUnits (advance 1 (codeState codeChan)) x.1 x.2))).isSome = true ∧
      (codeState nextChan).chans.all (fun x => (readyUnits (codeState nextChan) x.1 x.2).isEmpty) = true ∧ (goodRec 3).check = recordCheck (goodRec 3) ∧ recordOk (goodRec 3) = true ∧ recordOk { goodRec 3 with check := (goodRec 3).check ^^^ 1 } = false ∧
      unitWritten { tpicture with rows := [(0, { trow with next := tgeom.cRow })] } { chan := 62, pic := 6, slice := 0, idx := 0, rowA := 0, rowB := 1, colA := 0, colB := tgeom.cRow, due := 0 } = true := by decide +kernel
theorem witness_SlicesAreAssembled :
    (ctlOf (codeState sliceChan) sliceChan).isSome = true ∧ coding sliceChan = true ∧ sliceChan.run.nextSlice = (6, 0) ∧ tslicegeom.isSome = true ∧
      tslicegeom.elim false (fun sl => (unitsOf tprof tgeom [] sl).length == 1 && sl.rowA == 0 && sl.rowB == 1) = true ∧ (sliceChan.run.pics.get? 6).elim false (fun q => q.unitsDone.getD 0 [] == [0]) = true ∧ tpicture.unitsDone.getD 0 [] = [] ∧
      queueFull (codeState sliceChan) 62 sliceChan 9 = false ∧ queueFull (codeState sliceChan) 62 { sliceChan with run.queue := [{ tqs 0 with nals := [10 ^ 9] }] } 9 = true ∧
      (sliceNalBytes 0 tpicture [[1, 2, 3]] { header := [9], tid := 1 }).length = 6 ∧ noEmulation [1, 0, 0, 4] = true ∧ noEmulation [0, 0, 1] = false ∧
      sliceEnded (codeState sliceChan) (tqs 0) = true ∧ sliceEnded (codeState sliceChan) (tqs (10 ^ 40)) = false ∧ (tqs 0).eob = false := by decide +kernel

/-! Witnesses: queries (05). -/

theorem witness_Queries :
    asked 0x0101 0 State.reset = true ∧ taken (devAnswer 0) 0x0101 0 State.reset = true ∧ asked 0x0107 0 chanState = true ∧ taken capacityAnswer 0x0107 0 chanState = true ∧
      asked 0x0208 63 chanState = true ∧ chanAt chanState 63 = some tidle ∧ taken (fun s => chanRecord s 63 tidle) 0x0208 63 chanState = true ∧
      asked 0x0504 31 compState = true ∧ (decAt compState 31).elim false (fun d => taken (fun _ => decRecord 31 d ++ decExtension d) 0x0504 31 compState) = true ∧
      asked 0x0705 0 timeState = true ∧ taken (fun s => timeRecord s ++ Machine.slice s.time.ptp.metadata 0 64) 0x0705 0 timeState = true ∧
      asked 0x0902 0 (pairOf .holder .synced) = true ∧ taken pairRecord 0x0902 0 (pairOf .holder .synced) = true ∧
      asked 0x0A09 0 State.reset = true ∧ taken updRecord 0x0A09 0 State.reset = true ∧
      asked 0x0B03 (63 * 256) chanState = true ∧ taken (fun _ => countersChan 63 tidle) 0x0B03 (63 * 256) chanState = true ∧ asked 0x0B03 1 State.reset = true ∧ taken countersDevice 0x0B03 1 State.reset = true ∧
      asked 0x0B05 0 State.reset = true ∧ asked 0x0C03 0 State.reset = true ∧ taken memRecord 0x0C03 0 State.reset = true ∧ asked 0x0D02 0 State.reset = true ∧ taken shedRecord 0x0D02 0 State.reset = true := by decide +kernel

/-! Witnesses: egress and the Tide boundary (16). -/

def tgroup : Group := { serial := 4, release := 0, frames := [1400, 100] }
/-- Flow 2,047 to port 0 has a group that waits, or one that is released; `up` and `speed` are the port's. -/
def egressState (released : Bool) (speed : Nat) (down : Bool) (queue : Nat) : State :=
  { netState with net.ports := [(0, { cfg := { tport with speed := speed }, down := down })],
                  net.flowsOut := [(2047, { owner := 0, cfg := { tfo with queue := queue }, copyA := { groups := [{ tgroup with released := released }] } })] }

theorem witness_GroupsAreReleased :
    acting (egressState false 2 false 5) = true ∧ flowClocks (egressState false 2 false 5) = true ∧ tfo.kind ≠ 6 ∧
      (flowOutAt (egressState false 2 false 5) 2047).elim false (fun x => (copyAt x false).groups.find? (fun g => !g.released) == some tgroup && !x.removed && (copyAt x false).held.isEmpty) = true ∧
      tgroup.release ≤ localQ (advance 1 (egressState false 2 false 5)) ∧ (portAt (egressState false 2 false 5) 0).cfg.speed ≠ 0 ∧ resolved (egressState false 2 false 5) tfo false = true ∧
      pairOn (egressState false 2 false 5) = false ∧ (portAt (egressState false 0 false 5) 0).cfg.speed = 0 ∧ (portAt (egressState false 2 true 5) 0).down = true ∧
      holdsClaim { egressState false 2 false 5 with pair := { cfg := some {} } } = false ∧ pairOn { egressState false 2 false 5 with pair := { cfg := some {} } } = true := by decide +kernel
theorem witness_FramesStart :
    (portAt (egressState true 2 false 5) 0).busyUntil ≤ 1 ∧ (portAt (egressState true 2 false 5) 0).sending = none ∧ (egressState true 2 false 5).pair.txIdle = false ∧
      fwHeads (advance 1 (egressState true 2 false 5)) 0 = [] ∧ (flowHeads (advance 1 (egressState true 2 false 5)) 0).length = 1 ∧ flowHeads (advance 1 (egressState false 2 false 5)) 0 = [] ∧
      (flowHeads (advance 1 (egressState true 2 false 5)) 0).all (fun h => h.queue == 5 && gateAdmits (advance 1 (egressState true 2 false 5)) (portAt (egressState true 2 false 5) 0) h.queue (nsQ (txNs (egressState true 2 false 5) 0 (h.len + 4)))) = true ∧
      (dwrr (portAt (egressState true 2 false 5) 0) (fun q => bestHead ((flowHeads (advance 1 (egressState true 2 false 5)) 0).filter (fun h => h.queue == q))) 64 3 false []).isSome = true ∧
      ([0, 1, 2].findSome? (fun q => bestHead ((flowHeads (advance 1 (egressState true 2 false 2)) 0).filter (fun h => h.queue == q)))).isSome = true ∧
      (flowOutAt (egressState true 2 false 5) 2047).elim false (fun x => (headGroup (copyAt x false)).isSome) = true := by decide +kernel

def armedChan : Chan := { trun with st := .armed, run := { trun.run with startMode := 1 } }
def tideState : State := { chanState with chans := [(62, armedChan)], time.local' := 125000 * 2 ^ 32 - 2 ^ 33 }
/-- A command of the family waits for the boundary with its packet. -/
def boundaryState (code : Nat) (ws : FMap Nat) (s : State) : State := { at0 (cm code ws) s with net.pendCfg := [{ serial := 0, opcode := code, packet := pk code ws, fn := 0 }] }
theorem witness_TideBoundary :
    acting tideState = true ∧ tideDue (advance 0 tideState) = false ∧ tideDue (advance 1 tideState) = true ∧ tideState.pair.adoptTide = false ∧ tideState.time.nextBoundary ≤ (advance 1 tideState).time.local' ∧
      tideState.time.periodChange = none ∧ tideState.net.pendCfg = [] ∧ tideState.net.removals = [] ∧ tideState.pair.resets = [] ∧ pairOn tideState = false ∧ tideState.fns.all (fun e => !e.2.busy) = true ∧
      chanAt tideState 62 = some armedChan ∧ armedChan.st = .armed ∧ armedChan.run.startMode = 1 ∧ armedChan.run.startAt ≤ (advance 1 tideState).time.local' ∧
      (findCmd (boundaryState 0x0C01 [(2, 1), (3, 64)] State.reset) 0).isSome = true ∧ (decAt (boundaryState 0x0503 [(2, 31)] compState) 31).isSome = true ∧
      laneRange (pk 0x0601 [(2, 95 + 256)]) = [95] ∧ (boundaryState 0x0603 [] netState).net.flowsIn.lowestFree 1024 = some 0 ∧ (boundaryState 0x0604 [] netState).net.flowsOut.lowestFree 2048 = some 0 ∧
      (flowOutAt (boundaryState 0x0606 [(2, 2047 * 65536)] netState) 2047).isSome = true ∧ (chanAt (boundaryState 0x0D03 [(2, 63 * 256)] chanState) 63).isSome = true ∧
      fld (pk 0x0606 [(2, 1 + 15 * 65536)]) 2 1 0 = 1 ∧ flag (pk 0x0607 [(5, 256)]) 5 8 = true ∧ fld (pk 0x0801 [(2, 7)]) 2 3 0 ≠ 15 ∧ flag (pk 0x0605 [(2, 65536)]) 2 16 = true := by decide +kernel

/-! Witnesses: the whole device (17). -/

/-- The device without power, a command waiting. -/
def offState : State := { power := { on := false }, pending := [.nop q0 okBus] }
theorem witness_AbsentDeviceStaysSilent :
    acting offState = false ∧ offState.power.warmPending = none ∧ acting { power := { quiesced := true } } = false ∧ (∀ st r, offState.pending ≠ .coldReset st :: r) ∧ (∀ r, offState.pending ≠ .powerRemoved :: r) := by
  refine ⟨by decide, by decide, by decide, fun st r h => ?_, fun r h => ?_⟩ <;> simp [offState] at h

theorem witness_Quotas :
    quotasFit State.reset ∧ quotasFit { quotas := [(31, 1024, 1024)] } ∧ hostUp State.reset = true ∧ State.reset.vfEnable = false ∧
      sumBy (fun e => e.2.1) (State.reset.quotas.erase 31) + 1024 ≤ 1024 ∧ 1024 < sumBy (fun e => e.2.1) (State.reset.quotas.erase 1) + 1025 ∧ (0x04000400 : Word).toNat % 2048 = 1024 ∧ (0x04000400 : Word).toNat / 65536 % 2048 = 1024 ∧
      ({ vfEnable := true } : State).vfEnable = true ∧ ctlwinOk 0x1004 4 = true ∧ ctlwinOk 0x107C 4 = true := by
  refine ⟨?_, ?_, ?_, ?_, ?_, ?_, ?_, ?_, ?_, ?_, ?_⟩ <;> first | decide | (unfold quotasFit; decide)

theorem witness_Nop :
    go 0x0100 [] ringState = true ∧ flowCmds (at0 (cm 0x0100 []) ringState) 0 = [cm 0x0100 []] ∧ clockLost ringState .pcie = false ∧ okBus.recordOk = true ∧ (cqAt (fnAt ringState 0) 0).holding = false ∧
      (cm 0x0100 []).ferry = none ∧ (cm 0x0100 []).mirrored = false ∧ (cm 0x0100 []).mirrorSerial = none ∧ opcodeOf (pk 0x0101 []) ≠ 0x0100 ∧
      0 < (cqAt (fnAt ({ fns := [(0, { cqs := [(0, { enable := true, slots := 4, reserved := 1 })] })] } : State) 0) 0).reserved := by decide +kernel

theorem witness_RingsAndChannels :
    cqFree (fnAt ({ fns := [(0, { cqs := [(0, { slots := 2, reserved := 1 })] })] } : State) 0) (sqAt (fnAt State.reset 0) 0).cq = 0 ∧ fetchable ringState 0 0 = true ∧ queueWritable ringState 0 = true ∧ (3 : Word).toNat % 4096 < (sqAt (fnAt ringState 0) 0).slots ∧ (sqAt (fnAt ringState 0) 0).slots ≤ (4 : Word).toNat % 4096 ∧
      (cqAt (fnAt ringState 0) 0).head < (cqAt (fnAt ringState 0) 0).slots ∧ ringCount 4 0 ((1 : Word).toNat % 4096) ≤ (cqAt (fnAt ringState 0) 0).occ.length ∧
      go 0x0201 [] { chans := (List.range 63).map (fun i => (i, tidle)) } = true ∧ chanAt { chans := (List.range 63).map (fun i => (i, tidle)) } 63 = none ∧
      (List.range 64).all (fun j => (chanAt { chans := (List.range 64).map (fun i => (i, tidle)) } j).isSome) = true ∧ go 0x0201 [] { chans := (List.range 64).map (fun i => (i, tidle)) } = true := by decide +kernel

theorem witness_SerialsAndSurfaces :
    serialsApart State.reset ∧ serialsApart (at0 (cm 0x0100 []) ringState) ∧ surfaceMemoryOk compState ∧ hostUp compState = true ∧ isStandby compState = false ∧
      (compState.surfs.find? (fun e => e.2.owner.val == 0 && decide (e.2.offset ≤ 65532) && decide (65532 < e.2.offset + surfaceBytes e.2))) = some (4095, tsurf) ∧ surfAt compState 4095 = some tsurf ∧
      65532 % 65536 + [1, 2, 3, (4 : Byte)].length ≤ 65536 ∧ tsurf.pubs = [] ∧ tsurf.pending = [] := by
  refine ⟨?_, ?_, ?_, ?_, ?_, ?_, ?_, ?_, ?_, ?_⟩ <;> first | decide | (unfold serialsApart; decide) | (unfold surfaceMemoryOk; decide)

/-! The spec's own examples. -/

def digits : List Byte := [0x31, 0x32, 0x33, 0x34, 0x35, 0x36, 0x37, 0x38, 0x39]
/-- Table 16.5, check values over "123456789". -/
theorem test_crc_checks :
    crc32c digits = 0xE3069283 ∧ crcRun 0 (crcInitial 0) digits = 0x1CF96D7C ∧ crcRun 1 (crcInitial 1) digits = 0x6C40DF5F0B497347 ∧ crcRun 2 (crcInitial 2) digits = 0x66A2364420E6C605 := by decide +kernel

/-- R143 and chapter 12: a 45,000-byte NAL unit travels in 32 packets that take 47,590 bytes on the wire. -/
theorem test_fragmentation : (groupFrames tfo [45000] {}).length = 32 ∧ sumBy (fun n => n + 24) (groupFrames tfo [45000] {}) = 47590 := by decide +kernel

/-- R189: the blending example of chapter 6. -/
theorem test_blend : blend 1 (514 * 4 + 514 / 256) 3000 50000 30000 = 37365 := by decide

/-- R194: line-buffer needs of a 7,680 × 4,320 surface shown at 1,920 × 1,080 in REEF_RGBA_10, REEF_YUV444_10 and LIN_RGBA_10. -/
def bigLayer : Layer := { tlayer with srcKind := 0, srcIndex := 0, sw := 7680, sh := 4320, dw := 1920, dh := 1080 }
def bigState (format : Nat) : State := { surfs := [(0, { tsurf with format := format, width := 7680, height := 4320 })] }
theorem test_line_buffers : layerNeed (bigState 10) bigLayer = 7372800 ∧ layerNeed (bigState 9) bigLayer = 5529600 ∧ layerNeed (bigState 3) bigLayer = 3072000 := by decide +kernel

/-- R207, R208: an age of 5.3 s against 2 s shows two segments. -/
theorem test_staleness : staleness 1005300000000 1000000000000 2000000 = (true, 2) := by decide

/-- R203: the prefix of the region hash. -/
theorem test_hash_prefix :
    hashPrefix 3 0x41A2B3C4D 1 1024 64 512 128 = [0x4D, 0x3C, 0x2B, 0x1A, 4, 0, 0, 0, 3, 1, 0, 4, 0x40, 0, 0, 2, 0x80, 0, 0, 0] := by decide

/-- R343: ADDEND 8,590,020,491 runs 10 ppm fast. -/
theorem test_addend : freqPpb 8590020491 = 10000 := by decide

/-- R163: a 512-sample-wide region is refused at the default weight and accepted with LL_CTU_BITS 32,000. -/
def uhd : ChanCfg := { tcfg with width := 3840, height := 2160, rateNum := 120000, rateDen := 1000, totalLines := 2250 }
def uhdProf : EncProfile := { tprof with chroma := 1 }
def uhdRc (llCtu : Nat) : RcCfg := { trc with rowCap := 360000, floorCtu := 64, llCtuBits := llCtu }
theorem test_lossless_rows :
    rowsOk (geomOf State.reset uhd uhdProf) uhdProf (uhdRc 0) [(1024, 64, 192, 128)] = true ∧ rowsOk (geomOf State.reset uhd uhdProf) uhdProf (uhdRc 0) [(1024, 64, 512, 128)] = false ∧
      rowsOk (geomOf State.reset uhd uhdProf) uhdProf (uhdRc 32000) [(1024, 64, 704, 128)] = true ∧ rowsOk (geomOf State.reset uhd uhdProf) uhdProf (uhdRc 32000) [(1024, 64, 768, 128)] = false := by decide +kernel

/-- Chapter 1: 34 CTU rows of 60 CTUs. -/
theorem test_geometry : (geomOf State.reset uhd uhdProf).rows = 34 ∧ (geomOf State.reset uhd uhdProf).cRow = 60 := by decide +kernel

/-- Chapter 19, Worked addressing: IRQ_ROUTE[562] of VF3's CQ 7 on vector 2 reads 0x0002_0503. -/
theorem test_route_of_queue_source : regValue 3 (0x041000 + 4 * 562) { irq := { srcs := [(562, { prio := 5 })] } } = 0x00020503 := by decide +kernel

/-- R402: claim numbers of epochs 1 and 2, and of the two members in one epoch. -/
theorem test_claims : newerClaim 0x200 0x180 = true ∧ newerClaim 0x180 0x100 = true ∧ newerClaim 0x100 0x180 = false ∧ newerClaim 0x100 0x100 = false := by decide

/-- R42: entries of a ring of four slots from one index to another. -/
theorem test_ring_count : ringCount 4 0 2 = 2 ∧ ringCount 4 3 1 = 2 := by decide

/-! Witnesses: further clauses of reception, line verdicts, egress, the Tide boundary and the whole device (14, 16, 17). -/

def syncMsg : PtpMsg := { msgType := 0 }
def tcState : State := { netState with time.ptp := { cfg := { tcPorts := 0xFFFF } } }
theorem witness_FramesOtherCases :
    acting tcState = true ∧ (vframe 64).ipv4Udp = true ∧ tcState.time.ptp.cfg.tcPorts.getLsbD 0 = true ∧ tcState.time.ptp.cfg.tcPorts.getLsbD 14 = true ∧ syncMsg.multicast = true ∧ (portAt tcState 14).cfg.speed ≠ 0 ∧
      joinedGroups netState 0 ≠ [] ∧ joinedGroups State.reset 0 = [] ∧ kindFits tflow.kind (.rtp 0 0 false []) = false ∧ seqOf (.transport false []) = none ∧ kindFits 2 (.transport false []) = true ∧
      ({ vframe 64 with pause := true } : RxFrame).pause = true ∧ ({ vframe 64 with fcsOk := false } : RxFrame).fcsOk = false ∧ (portAt netState 15).down = true ∧ (portAt netState 9).cfg.speed = 0 := by decide +kernel
/-- The standby judges line 0 of the same picture; the holder's verdict says that one of its lines is lost. -/
def standbyLine (v : List InputEntry) : State := { lineState 0 with pair := { (lineState 0).pair with role := .standby, inputs := v } }
theorem witness_LinesOtherCases :
    isStandby (standbyLine []) = true ∧ inLockstep (standbyLine []) = true ∧ sentVerdict (standbyLine []) 62 0 = none ∧ sentVerdict (standbyLine [.verdict 62 1 0 1 0]) 62 0 = some 1 ∧ 0 + 1 < tcfg.height ∧
      tcfg.height ≤ 719 + 1 ∧ ((((0 : Nat) : Rat) + nsQ (((719 + 4 : Nat) : Rat) * tgeom.tLine) ≤ ((advance 1 (lineState 719)).time.local' : Rat))) ∧
      ({ lineState 0 with chans := [(62, { trun with st := .idle })] } : State).chans.all (fun e => e.2.st == .idle) = true := by decide +kernel

/-- The slice of the flow's waiting group is still queued. -/
def poisonState (sub : Bool) : State :=
  { egressState false 2 false 5 with chans := [(62, { trun with run := { trun.run with queue := [{ tqs 0 with substitute := sub, groups := [(2047, 4)] }] } })] }
def fwState (t : Option Instant) : State := { egressState true 2 false 5 with net.ports := [(0, { cfg := tport, fwQueue := [{ queue := 2, len := 60, ingress := t }] })] , time.local' := 2000000 * 2 ^ 32 }
theorem witness_EgressOtherCases :
    egressing (egressState false 2 false 5) = true ∧ (copyAt { owner := 0, cfg := tfo } false).held.length ≤ 1 ∧ 2 ≤ (copyAt { owner := 0, cfg := tfo, copyA := { held := [tgroup, tgroup] } } false).held.length ∧
      resolved { egressState false 2 false 5 with net.resolved := [] } { tfo with destA := 0x0A000001 } false = false ∧
      (flowOutAt (poisonState false) 2047).elim false (fun x => (groupSlice (advance 1 (poisonState false)) x 2047 4).elim false (fun e => e.1 == 62 && !e.2.substitute && !e.2.marker)) = true ∧
      (flowOutAt (poisonState true) 2047).elim false (fun x => (groupSlice (advance 1 (poisonState true)) x 2047 4).elim false (fun e => e.2.substitute)) = true ∧ (chanAt (poisonState false) 62).isSome = true ∧
      (portAt (egressState true 2 false 5) 0).sending = none ∧ holdUnpassed 0 (endFrame 0 (egressState true 2 false 5)) = egressState true 2 false 5 ∧
      0 + 1 < (portAt ({ net.ports := [(0, { busyUntil := 2 })] } : State) 0).busyUntil ∧
      ((portAt (fwState none) 0).fwQueue.find? (fun f => f.queue == 2)).isSome = true ∧ (fwState (some (1999999 * 2 ^ 32))).time.local' ≤ 1999999 * 2 ^ 32 + nsInstant 1000000 ∧ 0 + nsInstant 1000000 < (fwState (some 0)).time.local' ∧
      (fwHeads (fwState none) 0).length = 1 := by decide +kernel

/-- A state whose member takes the holder's Tide number at the next boundary; and one at which a change of the period applies, or does not. -/
def adoptState : State := { tideState with pair := { adoptTide := true, partner := some thb } }
def changeState (p : Nat) : State := { tideState with time.periodChange := some { period := p, serial := 0 } }
theorem witness_TideOtherCases :
    tideDue (advance 1 adoptState) = true ∧ adoptState.pair.adoptTide = true ∧ adoptState.pair.partner = some thb ∧
      boundaryInstant (advance 1 (changeState 1)) % nsInstant (max 2 1 * 62500) = 0 ∧ boundaryInstant (advance 1 (changeState 16)) % nsInstant (max 2 16 * 62500) ≠ 0 ∧
      (findCmd (boundaryState 0x0602 [(2, 15)] netState) 0).isSome = true ∧ (portCfgOf (pk 0x0602 [(2, 15)])).speed = 0 ∧ (portCfgOf (pk 0x0602 [(2, 15 + 2 * 16)])).speed ≠ 0 ∧
      (flowOutAt (boundaryState 0x0605 [(2, 2047 + 65536)] netState) 2047).elim false (fun x => x.copyA.groups.isEmpty && x.copyB.groups.isEmpty) = true ∧ flag (pk 0x0605 [(2, 1023)]) 2 16 = false ∧
      flag (pk 0x0607 [(5, 0)]) 5 8 = false ∧ flag (pk 0x0D03 [(2, 31 * 256 + 1)]) 2 0 = true ∧ (outAt (boundaryState 0x0D03 [(2, 31 * 256 + 1)] compState) 31).isSome = true ∧
      fld (pk 0x0606 [(2, 2047 * 65536)]) 2 1 0 = 0 ∧ (findCmd (boundaryState 0x0701 [] State.reset) 0).isSome = true := by decide +kernel

theorem witness_WholeDeviceOtherCases :
    (cqAt (fnAt ringState 0) 0).holding = false ∧ cqWritable (fnAt ringState 0) 0 = true ∧ ringState.power.link = .l0 ∧ (cqAt (fnAt heldState 0) 0).holding = true ∧ go 0x0100 [] heldState = true ∧
      go 0x0100 [] { ringState with power.link := .l1 } = true ∧ LinkState.l1 ≠ .l0 ∧ go 0x0100 [] State.reset = true ∧ cqWritable { ringFn with unwritable := [0] } 0 = false ∧ ({ okBus with recordOk := false } : Bus).recordOk = false ∧
      0x1004 ≤ 0x1004 ∧ 0x107C + 4 ≤ 0x1080 ∧ 0x10000 ≤ 0x10000 ∧ 0x11FFC < 0x12000 := by decide +kernel

theorem witness_QueriesOtherCases :
    blockOpen (cm 0x0101 []) okBus State.reset = true ∧ blockOpen (cm 0x0101 []) { okBus with answerOk := false } State.reset = false ∧ asked 0x0208 5 chanState = true ∧ chanAt chanState 5 = none ∧
      asked 0x0504 29 compState = true ∧ decAt compState 29 = none ∧ asked 0x0B03 2 State.reset = true ∧ 2 ≤ fld (pk 0x0B03 [(5, 2)]) 5 1 0 ∧ asked 0x0B03 1 State.reset = true ∧
      asked 0x0A09 1 State.reset = true ∧ flag (pk 0x0A09 [(5, 1)]) 5 0 = true ∧ flag (pk 0x0A09 []) 5 0 = false ∧ State.reset.upd.boot.fallback = false ∧ asked 0x0B05 0 State.reset = true := by decide +kernel

end Sys2Proof.Tests
end

/-! PROOFS. What the host's accesses of the register windows do: reads of CTLWIN and of the other windows (R2, R5, R76, R344, R362, R491, R499, R500), and TIME_ADDEND (R343). -/

namespace Sys2Proof.HostAccess

open Sys2Proof.Machine Sys2Proof.Laws

/-! Reads that the device serves. -/

theorem hostRead_served {s : State} (h : hostUp s = true) (f offset : Nat) (k : State → State) : hostRead f offset k s = k s := if_pos h

theorem exec_timeSecLo_served {s : State} (h : hostUp s = true) (f : Fn) : exec (.timeSecLo f) s = .next (readSecLo f.val s) :=
  congrArg _ (hostRead_served h _ _ _)

theorem exec_timeCaptRead_served {s : State} (h : hostUp s = true) (f : Fn) (n : Fin 4) : exec (.timeCaptRead f n) s = .next (readCapt f.val n.val s) :=
  congrArg _ (hostRead_served h _ _ _)

theorem exec_loReadLatch_served {s : State} (h : hostUp s = true) (f : Fn) (w : ReadWindow) (offset size : Nat) :
    exec (.loReadLatch f ⟨w, offset, size⟩) s = .next (readWindow f.val w offset size s) :=
  congrArg _ (hostRead_served h _ _ _)

/-! Numbers and their bytes (R3). -/

theorem le_succ (n v : Nat) : le (n + 1) v = BitVec.ofNat 8 v :: le n (v / 256) := by
  have hs : ∀ i, v >>> (8 * (i + 1)) = (v / 256) >>> (8 * i) := fun i => by
    rw [Nat.mul_succ, Nat.add_comm, Nat.shiftRight_add, Nat.shiftRight_eq_div_pow v 8]
  simp only [le, List.range_succ_eq_map, List.map_cons, List.map_map, Function.comp_def, Nat.succ_eq_add_one, hs]
  rfl

@[simp] theorem length_le_bytes (n v : Nat) : (le n v).length = n := by simp [le]

/-- A number read back from its n bytes is the number modulo 256ⁿ. -/
theorem ofLe_le (n v : Nat) : ofLe (le n v) = v % 256 ^ n := by
  induction n generalizing v with
  | zero => simp [le, ofLe, Nat.mod_one]
  | succ n ih =>
    rw [le_succ, ofLe, ih, Nat.pow_succ', Nat.mod_mul, BitVec.toNat_ofNat]

/-- Reading every byte of a list by its index gives the list. -/
theorem map_getD_range {α : Type} (l : List α) (d : α) : (List.range l.length).map (fun i => l.getD i d) = l := by
  refine List.ext_getElem (by simp) fun i _ hi => ?_
  simp [List.getElem?_eq_getElem hi]

/-! _LO registers and their halves (R5, R491). -/

theorem isLo_cases {off : Nat} (h : isLo off = true) :
    off = 0x28 ∨ (0x20000 ≤ off ∧ off < 0x30000 ∧ off % 32 = 0) ∨ (0x70000 ≤ off ∧ off < 0x70300 ∧ off % 64 = 8) := by
  simpa [isLo, or_assoc, and_assoc] using h

theorem isLo_add_four {off : Nat} (h : isLo off = true) : isLo (off + 4) = false := by
  have hlo := isLo_cases h
  rw [Bool.eq_false_iff]
  intro h'
  have hhi := isLo_cases h'
  omega

theorem ctlwinOk_lo {off size : Nat} (h : isLo off = true) (hs : size = 4 ∨ size = 8 ∧ off % 8 = 0) : ctlwinOk off size = true := by
  have hlo := isLo_cases h
  rcases hs with rfl | ⟨rfl, h8⟩
  · simp [ctlwinOk]; omega
  · simp [ctlwinOk, h8]

/-- The state after a read of the _LO register at an offset has latched its upper half for f (R5). -/
def latchUpper (f off : Nat) (s : State) : State :=
  modFn s f (fun x => { x with latches := x.latches.set off (BitVec.ofNat 32 (upperHalf f off s)) })

theorem latches_latchUpper (f off j : Nat) (s : State) :
    (fnAt (latchUpper f off s) f).latches.get? j = if off = j then some (BitVec.ofNat 32 (upperHalf f off s)) else (fnAt s f).latches.get? j := by
  simp [latchUpper, fmap_get?_set]

@[simp] theorem latched_latchUpper (f off : Nat) (s : State) : latched f off (latchUpper f off s) = upperHalf f off s % 2 ^ 32 := by
  simp [latched, latchUpper]

@[simp] theorem upperHalf_latchUpper (f off : Nat) (s : State) : upperHalf f off (latchUpper f off s) = upperHalf f off s := by
  have hs : sqAt (fnAt (latchUpper f off s) f) = sqAt (fnAt s f) := funext fun n => by simp [latchUpper, sqAt]
  have hc : cqAt (fnAt (latchUpper f off s) f) = cqAt (fnAt s f) := funext fun n => by simp [latchUpper, cqAt]
  unfold upperHalf
  rw [hs, hc]
  rfl

/-- A 4-byte read of a _LO register answers its value and latches the upper half. -/
theorem readCtl_lo {off : Nat} (h : isLo off = true) (f : Nat) (s : State) :
    readCtl f off s = answerRead f off (regValue f off s) (latchUpper f off s) := by
  have hlo := isLo_cases h
  unfold readCtl
  rw [if_neg (by omega), if_neg (by omega), if_neg (by omega), if_neg (by omega), if_neg (by omega), if_pos h]
  rfl

/-- A 4-byte read of a _HI register only answers its value. -/
theorem readCtl_hi {off : Nat} (h : isLo off = true) (f : Nat) (s : State) :
    readCtl f (off + 4) s = answerRead f (off + 4) (regValue f (off + 4) s) s := by
  have hlo := isLo_cases h
  unfold readCtl
  rw [if_neg (by omega), if_neg (by omega), if_neg (by omega), if_neg (by omega), if_neg (by omega), isLo_add_four h]
  rfl

/-- A _HI register reads as its latch, where the function sees the register at all. -/
theorem regValue_hi {f off : Nat} {s : State} (h : isLo off = true) (hl : latched f off s = upperHalf f off s % 2 ^ 32) :
    regValue f (off + 4) s = upperHalf f off s % 2 ^ 32 := by
  obtain rfl | ⟨h1, h2, h3⟩ | ⟨h1, h2, h3⟩ := isLo_cases h
  · by_cases hf : f = 0
    · subst hf; exact hl
    · simp [regValue, upperHalf, hf]
  · have h28 : ¬ off = 0x28 := by omega
    have hn : (off + 4) % 0x8000 / 32 = off % 0x8000 / 32 := by omega
    have hw : (off + 4) % 32 = 4 := by omega
    have hq : regValue f (off + 4) s = queueValue f (off + 4) s := by
      unfold regValue
      iterate 8 rw [if_neg (by omega)]
      rw [if_pos (by omega)]
    rw [hq, ← hl]
    unfold queueValue
    by_cases hsq : off < 0x28000
    · have hs : off + 4 < 0x28000 := by omega
      cases hin : sqIn s f (off % 0x8000 / 32)
      · simp [hs, hn, hin, hl, upperHalf, hsq, h28]
      · simp [hs, hn, hw, hin]
    · have hs : ¬ off + 4 < 0x28000 := by omega
      cases hin : cqIn s f (off % 0x8000 / 32)
      · simp [hs, hn, hin, hl, upperHalf, hsq, h2, h28]
      · simp [hs, hn, hw, hin]
  · have h28 : ¬ off = 0x28 := by omega
    have hu : (off + 4 - 0x70000) / 64 = (off - 0x70000) / 64 := by omega
    have hw : (off + 4) % 64 = 12 := by omega
    have hb : off - 8 + 8 = off := by omega
    have hc : regValue f (off + 4) s = crcValue f ((off + 4 - 0x70000) / 64) ((off + 4) % 64) (off + 4 - (off + 4) % 64) s := by
      unfold regValue
      iterate 12 rw [if_neg (by omega)]
      rw [if_pos (by omega)]
    rw [hc, ← hl, hu, hw]
    unfold crcValue
    by_cases ho : (crcAt s ((off - 0x70000) / 64)).owner = f
    · simp [ho, hb]
    · simp [ho, hl, upperHalf, h28, show ¬ off < 0x28000 by omega, show ¬ off < 0x30000 by omega]

/-- An aligned 8-byte read of a _LO and _HI pair answers both halves of one value, and latches the upper. -/
theorem readCtl8_lo {off : Nat} (h : isLo off = true) (f : Nat) (s : State) :
    (readCtl8 f off s).readData = some (regValue f off s + upperHalf f off s % 2 ^ 32 * 2 ^ 32)
      ∧ ∃ o v, readCtl8 f off s = { latchUpper f off s with outbox := o, readData := v } := by
  have hv : regValue f (off + 4) (readCtl f off s) = upperHalf f off s % 2 ^ 32 := by
    rw [readCtl_lo h]
    refine (regValue_hi h ?_).trans (congrArg (· % 2 ^ 32) (upperHalf_latchUpper f off s))
    exact (latched_latchUpper f off s).trans (congrArg (· % 2 ^ 32) (upperHalf_latchUpper f off s).symm)
  unfold readCtl8
  simp only
  rw [readCtl_hi h, hv, readCtl_lo h]
  exact ⟨rfl, _, _, rfl⟩

/-! The other windows (R2, R76, R499, R500). -/

/-- A read of SNAP_TIDE in one access answers it whole. -/
theorem readSnap_tide (f : Nat) (s : State) :
    ∃ o, readSnap f 8 8 s = { s with outbox := o :: s.outbox, readData := some ((fnAt s f).snapTide % 2 ^ 64) } := by
  have hb : (List.range 8).map (fun i => snapByte (fnAt s f) (8 + i)) = le 8 (fnAt s f).snapTide := by
    rw [← map_getD_range (le 8 (fnAt s f).snapTide) 0, length_le_bytes]
    refine List.map_congr_left fun i hi => ?_
    have hi := List.mem_range.mp hi
    unfold snapByte
    rw [if_neg (by omega), if_pos (by omega), Nat.add_sub_cancel_left]
  refine ⟨.data f .snap 8 (le 8 (fnAt s f).snapTide) false, ?_⟩
  rw [readSnap, if_pos (by decide), hb, answerBytes, ofLe_le]
  rfl

/-- A read of SURFWIN answers the bytes of the window. -/
theorem readSurf_bytes (f off size : Nat) (s : State) : ∃ o, readSurf f off size s =
    { s with outbox := o :: s.outbox, readData := some (ofLe ((List.range size).map (fun i => (surfByte s f (off + i)).1))) } := by
  unfold readSurf
  simp only [List.map_map]
  exact ⟨_, rfl⟩

/-- The first word of configuration space is the vendor and device ID. -/
theorem readConfig_id (f : Nat) (s : State) :
    ∃ o, readConfig f 0 4 s = { s with outbox := o :: s.outbox, readData := some 0x96161FA3, freeCtr := s.freeCtr + 1 } := by
  have hb : (List.range 4).map (fun i => if 0 + i < 4 then (le 2 vendorId ++ le 2 deviceId).getD (0 + i) 0 else BitVec.ofNat 8 (freshValue s >>> (8 * i)))
      = le 4 0x96161FA3 := by
    rw [← map_getD_range (le 4 0x96161FA3) 0, length_le_bytes]
    refine List.map_congr_left fun i hi => ?_
    rw [Nat.zero_add, if_pos (List.mem_range.mp hi)]
    rfl
  refine ⟨.data f .config 0 (le 4 0x96161FA3) false, ?_⟩
  unfold readConfig
  simp only
  rw [hb, answerBytes, ofLe_le]
  rfl

/-! TIME_ADDEND (R343). -/

theorem writeAddend_taken {s : State} {size v : Nat} (h : hostUp s = true) (hs : size = 8) (hr : s.time.ptp.cfg.role = false) (hb : (fnAt s 0).busy = false) :
    writeAddend 0 size v s = { s with time.addend := clampAddend (v % 2 ^ 36) } := by
  simp [writeAddend, h, hs, hr, hb]

theorem writeAddend_ignored {s : State} {f size v : Nat} (h : f ≠ 0 ∨ size ≠ 8 ∨ s.time.ptp.cfg.role = true) : writeAddend f size v s = s := by
  unfold writeAddend
  rcases h with h | h | h <;> simp [h]

/-! The capture registers (R362). -/

/-- A read of word 0 of capture n answers it, latches words 1 to 3 for f, and clears the flags of that capture alone. -/
theorem readCapt_capt (f n m : Nat) (s : State) : (readCapt f n s).time.capt.get? m =
    if n = m then some { s.time.capt.getD n {} with overrun := false, valid := false, src := false } else s.time.capt.get? m := fmap_get?_set ..

theorem readCapt_captLatch (f n m : Nat) (s : State) : (fnAt (readCapt f n s) f).captLatch.get? m =
    if n = m then some ((s.time.capt.getD n {}).sec % 2 ^ 32, (s.time.capt.getD n {}).sec / 2 ^ 32 % 65536, (s.time.capt.getD n {}).count)
    else (fnAt s f).captLatch.get? m := by
  have hf : fnAt (readCapt f n s) f = fnAt (modFn s f (fun x => { x with captLatch := x.captLatch.set n ((s.time.capt.getD n {}).sec % 2 ^ 32, (s.time.capt.getD n {}).sec / 2 ^ 32 % 65536, (s.time.capt.getD n {}).count) })) f := rfl
  rw [hf, fnAt_modFn, fmap_get?_set]

/-- Settles O11: each read is the window's own meaning once the host interface is up (R494); an 8-byte read finds in the _HI register what its first half has latched. -/
theorem timeRegistersLatchAndClamp : Obligations.TimeRegistersLatchAndClamp := by
  unfold Obligations.TimeRegistersLatchAndClamp
  intro f s hup
  refine ⟨exec_timeSecLo_served hup f, fun n => ?capt, fun off hlo => ⟨?lo4, fun h8 => ?lo8⟩, ?snap, fun off size => ?surf, ?config, fun size v => ⟨?addend, ?ignored⟩⟩
  case capt =>
    refine ⟨_, exec_timeCaptRead_served hup f n, rfl, ?_, ?_, fun m hm => ⟨?_, ?_⟩, rfl, rfl, rfl, rfl, rfl⟩
    · rw [readCapt_captLatch, if_pos rfl]
    · rw [readCapt_capt, if_pos rfl]
    · rw [readCapt_capt, if_neg hm.symm]
    · rw [readCapt_captLatch, if_neg hm.symm]
  case lo4 =>
    refine ⟨_, exec_loReadLatch_served hup f .ctl off 4, ?_⟩
    have hr : readWindow f.val .ctl off 4 s = answerRead f.val off (regValue f.val off s) (latchUpper f.val off s) := by
      simp [readWindow, ctlwinOk_lo hlo, readCtl_lo hlo]
    rw [hr]
    refine ⟨rfl, ?_, fun j hj => ?_, rfl, rfl, rfl, rfl⟩
    · exact (latches_latchUpper f.val off off s).trans (if_pos rfl)
    · exact (latches_latchUpper f.val off j s).trans (if_neg hj.symm)
  case lo8 =>
    refine ⟨_, exec_loReadLatch_served hup f .ctl off 8, ?_⟩
    have hr : readWindow f.val .ctl off 8 s = readCtl8 f.val off s := by
      simp [readWindow, ctlwinOk_lo hlo, h8]
    obtain ⟨hv, o, v, hs⟩ := readCtl8_lo hlo f.val s
    rw [hr]
    exact ⟨hv, by rw [hs]; rfl, by rw [hs]; rfl, by rw [hs]; rfl, by rw [hs]; rfl⟩
  case snap =>
    obtain ⟨o, ho⟩ := readSnap_tide f.val s
    exact ⟨o, (exec_loReadLatch_served hup f .snap 8 8).trans (congrArg _ ho)⟩
  case surf =>
    obtain ⟨o, ho⟩ := readSurf_bytes f.val off size s
    exact ⟨o, (exec_loReadLatch_served hup f .surf off size).trans (congrArg _ ho)⟩
  case config =>
    obtain ⟨o, ho⟩ := readConfig_id f.val s
    exact ⟨o, (exec_loReadLatch_served hup f .config 0 4).trans (congrArg _ ho)⟩
  case addend =>
    rintro rfl hs hr hb
    exact congrArg _ (writeAddend_taken hup hs hr hb)
  case ignored =>
    intro h
    exact congrArg _ (writeAddend_ignored (h.imp_left fun hf h0 => hf (Fin.ext h0)))

/-! Register writes, accesses that CTLWIN does not take, PCIe configuration writes and link states (R6, R40, R46, R260, R291, R428, R491, R492, R501). -/

/-! Writes of CTLWIN that the device takes (R491). -/

theorem exec_registerWrite_four {s : State} (h : hostUp s = true) (f : Fn) {offset : Nat} (ha : offset % 4 = 0) (v : DWord) :
    exec (.registerWrite f offset 4 v) s = .next (write32 f.val offset (v.toNat % 2 ^ 32) s) := by
  change Host.Outcome.next (registerWrite f.val offset 4 v.toNat s) = _
  simp [registerWrite, h, ctlwinOk, ha]

theorem exec_registerWrite_eight {s : State} (h : hostUp s = true) (f : Fn) {offset : Nat} (ha : offset % 8 = 0) (v : DWord) :
    exec (.registerWrite f offset 8 v) s = .next (write64 f.val offset v.toNat s) := by
  change Host.Outcome.next (registerWrite f.val offset 8 v.toNat s) = _
  simp [registerWrite, h, ctlwinOk, ha]

theorem exec_registerWrite_bad {s : State} (h : hostUp s = true) {offset size : Nat} (hb : ctlwinOk offset size = false) (f : Fn) (v : DWord) :
    exec (.registerWrite f offset size v) s = .next (badAccess f.val offset true s) := by
  change Host.Outcome.next (registerWrite f.val offset size v.toNat s) = _
  simp [registerWrite, h, hb]

theorem exec_ctlwinBadAccess {s : State} (h : hostUp s = true) {offset size : Nat} (hb : ctlwinOk offset size = false) (f : Fn) (write : Bool) :
    exec (.ctlwinBadAccess f offset size write) s = .next (badAccess f.val offset write s) := by
  change Host.Outcome.next (if ctlwinOk offset size = true then s else if hostUp s = true then _ else _) = _
  rw [hb, if_neg (by decide), if_pos h]

/-! Registers by their offset (Table 19.2). -/

theorem write32_starveLimit {a : Nat} (ha : a ≤ 130) (v : Nat) (s : State) :
    write32 0 (0x53400 + 4 * a) v s = modArb s a (fun x => { x with limit := v % 65536 }) := by
  have hi : (0x53400 + 4 * a - 0x50000 - 0x3400) / 4 = a := by omega
  unfold write32
  iterate 8 rw [if_neg (by omega)]
  rw [if_pos (by omega), if_pos rfl]
  unfold writeFab
  iterate 3 rw [if_neg (by omega)]
  rw [if_pos (by omega), hi, writeStarveLimit, if_neg (by omega)]

theorem write32_jumpLimit (v : Nat) (s : State) : write32 0 0x60018 v s = writeJumpLimit v s := rfl

/-- TIME_JUMP_LIMIT takes the low word of the value written. -/
theorem writeJumpLimit_word (v : DWord) (s : State) :
    writeJumpLimit (v.toNat % 2 ^ 32) s = { s with time.jumpLimit := v.toNat % 2 ^ 30, time.refused := s.time.refused && !(v.getLsbD 31) } := by
  have hl : v.toNat % 2 ^ 32 % 2 ^ 30 = v.toNat % 2 ^ 30 := by omega
  have hb : bitOf (v.toNat % 2 ^ 32) 31 = v.getLsbD 31 := by
    rw [bitOf, Nat.testBit_mod_two_pow]; simp [BitVec.getLsbD]
  rw [writeJumpLimit, hl, hb]

theorem write32_sqRegister {n w off : Nat} (hn : n < 1024) (hw : w < 32) (ho : off = 0x20000 + 32 * n + w) (f v : Nat) (s : State) :
    write32 f off v s = if w = 0 then writeSqBase f n false v s else if w = 4 then writeSqBase f n true v s
      else if w = 8 then writeSqCtl f n v s else if w = 12 then writeSqBind f n v s else s := by
  have hi : off % 0x8000 / 32 = n := by omega
  have hr : off % 32 = w := by omega
  unfold write32
  iterate 6 rw [if_neg (by omega)]
  rw [if_pos (by omega), writeQueueReg, hi, hr, if_pos (by omega)]

theorem write32_msix {f off : Nat} (h1 : 0xA0000 ≤ off) (h2 : off < 0xA0100) (v : Nat) (s : State) : write32 f off v s = irqDo (writeMsix f off v) s := by
  unfold write32
  iterate 12 rw [if_neg (by omega)]
  rw [if_pos ⟨h1, h2⟩]

theorem write32_beyond {f off : Nat} (h : 0xA1008 ≤ off) (v : Nat) (s : State) : write32 f off v s = s := by
  unfold write32
  iterate 13 rw [if_neg (by omega)]

/-- An 8-byte write of an SQ's registers takes them one after the other (R491). -/
theorem write64_sqRegister {n w : Nat} (hn : n < 1024) (hw : w < 32) (f v : Nat) (s : State) :
    write64 f (0x20000 + 32 * n + w) v s = write32 f (0x20000 + 32 * n + w + 4) (v / 2 ^ 32) (write32 f (0x20000 + 32 * n + w) (v % 2 ^ 32) s) := by
  have hu : (decide (0x70000 ≤ 0x20000 + 32 * n + w) && decide (0x20000 + 32 * n + w < 0x70300)) = false := by simp; omega
  unfold write64
  simp only [hu, Bool.false_and]
  rw [if_neg (by omega)]
  rfl

/-! Submission queues (R36, Tables 2.2 and 2.4). -/

theorem sqAt_modSq_ne {f n m : Nat} {g : Sq → Sq} {s : State} (h : n ≠ m) : sqAt (fnAt (modSq f n g s) f) m = sqAt (fnAt s f) m := by
  simp [modSq, sqAt, fmap_getD_set_ne h]

@[simp] theorem busy_modSq (f n : Nat) (g : Sq → Sq) (s : State) : (fnAt (modSq f n g s) f).busy = (fnAt s f).busy := by simp [modSq]

/-- A disabled SQ n of f takes writes of its registers: the device serves f, which is not being reset, and n is within its quota. -/
def sqOpen (s : State) (f n : Nat) : Prop := queueWritable s f = true ∧ sqIn s f n = true ∧ (sqAt (fnAt s f) n).enable = false

theorem writeSqBind_open {s : State} {f n : Nat} (h : sqOpen s f n) (v : Nat) :
    writeSqBind f n v s = modSq f n (fun q => { q with bindCq := bitsOf v 9 0, bindFlow := bitsOf v 23 16 }) s := by
  obtain ⟨hw, hin, he⟩ := h
  simp [writeSqBind, hw, hin, he]

theorem writeSqBase_open {s : State} {f n : Nat} (h : sqOpen s f n) (hi : Bool) (v : Nat) :
    writeSqBase f n hi v s = modSq f n (fun q => { q with base := if hi then q.base % 2 ^ 32 + v * 2 ^ 32 else q.base / 2 ^ 32 * 2 ^ 32 + v / 4096 * 4096 }) s := by
  obtain ⟨hw, hin, he⟩ := h
  simp [writeSqBase, hw, hin, he]

/-- A change that leaves ENABLE alone leaves the SQ open. -/
theorem sqOpen_modSq {s : State} {f n : Nat} {g : Sq → Sq} (h : sqOpen s f n) (hg : ∀ q, (g q).enable = q.enable) : sqOpen (modSq f n g s) f n := by
  obtain ⟨hw, hin, he⟩ := h
  refine ⟨?_, hin, by rw [sqAt_modSq, hg, he]⟩
  unfold queueWritable at hw ⊢
  rw [busy_modSq]
  exact hw

/-- SQ_BASE_LO and SQ_BASE_HI take their halves of v (Table 2.2). -/
def baseLo (v : Nat) (q : Sq) : Sq := { q with base := q.base / 2 ^ 32 * 2 ^ 32 + v % 2 ^ 32 / 4096 * 4096 }
def baseHi (v : Nat) (q : Sq) : Sq := { q with base := q.base % 2 ^ 32 + v / 2 ^ 32 * 2 ^ 32 }

/-- Both halves give the address whole, its low 12 bits zero. -/
theorem baseHi_baseLo (v : Nat) (q : Sq) : baseHi v (baseLo v q) = { q with base := v / 4096 * 4096 } := by
  have hb : (q.base / 2 ^ 32 * 2 ^ 32 + v % 2 ^ 32 / 4096 * 4096) % 2 ^ 32 + v / 2 ^ 32 * 2 ^ 32 = v / 4096 * 4096 := by omega
  rw [baseHi, baseLo, hb]

theorem write64_sqBase {s : State} {f n : Nat} (hn : n < 1024) (h : sqOpen s f n) (v : Nat) :
    write64 f (0x20000 + 32 * n) v s = modSq f n (baseHi v) (modSq f n (baseLo v) s) := by
  have hlo : write32 f (0x20000 + 32 * n) (v % 2 ^ 32) s = modSq f n (baseLo v) s := by
    rw [write32_sqRegister (off := 0x20000 + 32 * n) hn (show 0 < 32 by decide) rfl, if_pos rfl, writeSqBase_open h]; rfl
  have hhi : write32 f (0x20000 + 32 * n + 4) (v / 2 ^ 32) (modSq f n (baseLo v) s) = modSq f n (baseHi v) (modSq f n (baseLo v) s) := by
    rw [write32_sqRegister hn (show 4 < 32 by decide) rfl, if_neg (by decide), if_pos rfl, writeSqBase_open (sqOpen_modSq (g := baseLo v) h fun _ => rfl)]; rfl
  rw [← hhi, ← hlo]
  exact write64_sqRegister hn (show 0 < 32 by decide) f v s

theorem write32_sqBind {s : State} {f n : Nat} (hn : n < 1024) (h : sqOpen s f n) (v : Nat) :
    write32 f (0x2000C + 32 * n) (v % 2 ^ 32) s = modSq f n (fun q => { q with bindCq := v % 1024, bindFlow := v / 65536 % 256 }) s := by
  have hcq : bitsOf (v % 2 ^ 32) 9 0 = v % 1024 := by simp [bitsOf]
  have hfl : bitsOf (v % 2 ^ 32) 23 16 = v / 65536 % 256 := by simp [bitsOf, Nat.shiftRight_eq_div_pow]; omega
  rw [write32_sqRegister hn (show 12 < 32 by decide) (by omega), if_neg (by decide), if_neg (by decide), if_neg (by decide), if_pos rfl, writeSqBind_open h, hcq, hfl]

/-! The interrupt controller evaluates a change of a function (R291, R501): nothing of the function but NOTIFIED changes with it. -/

theorem irqDo_modFn_reads {α : Type} (get : FnState → α) (hget : ∀ x n, get { x with notified := n } = get x) (f : Nat) (g : FnState → FnState) (s : State) :
    get (fnAt (irqDo (fun s => modFn s f g) s) f) = get (g (fnAt s f)) ∧ (irqDo (fun s => modFn s f g) s).chans = s.chans
      ∧ (irqDo (fun s => modFn s f g) s).flows = s.flows := by
  obtain ⟨n, hn⟩ := fnAt_irqSettle s (modFn s f g) f
  refine ⟨?_, irqSettle_chans _ _, irqSettle_flows _ _⟩
  rw [irqDo, hn, hget, fnAt_modFn]

/-- DATA of an MSI-X entry takes the word written (R501). -/
theorem writeMsix_data {n : Nat} (f v : Nat) (s : State) :
    writeMsix f (0xA0008 + 16 * n) v s = modFn s f (fun x => { x with msix := x.msix.set n { msixAt x n with data := v } }) := by
  have hn : (0xA0008 + 16 * n - 0xA0000) / 16 = n := by omega
  have hw : (0xA0008 + 16 * n) / 4 % 4 = 2 := by omega
  unfold writeMsix
  rw [hn, hw]
  rfl

/-! PCIe configuration writes (R40, R46, R291). -/

theorem exec_configWrite {s : State} (h : hostUp s = true) (f : Fn) (w : CfgWrite) :
    exec (.pcieConfigurationWrite f w) s = .next (configWrite f.val w s) := congrArg _ (if_pos h)

/-- Whether the rings of a function fail is remembered ring by ring (R46). -/
theorem cqWritable_ringWrites (f n m : Nat) (b : Bool) (s : State) :
    cqWritable (fnAt (configWrite f (.ringWrites n b) s) f) m = if m = n then !b else cqWritable (fnAt s f) m := by
  unfold configWrite cqWritable
  rw [fnAt_modFn]
  cases b with
  | false => by_cases hm : m = n <;> simp [hm]
  | true =>
    by_cases hl : n ∈ (fnAt s f).unwritable
    · by_cases hm : m = n <;> simp [hm, hl]
    · by_cases hm : m = n <;> simp [hm, hl]

/-! Records that wait for the link (R8, R46, R291). -/

/-- What writing held records and sending messages keeps: every object, unit and flow, and of each function BUSY, the rings that fail, and every CQ that holds nothing. -/
structure OnlyDelivers (s t : State) : Prop where
  same : SameButCommands s t
  flows : t.flows = s.flows
  busy : ∀ f, (fnAt t f).busy = (fnAt s f).busy
  unwritable : ∀ f, (fnAt t f).unwritable = (fnAt s f).unwritable
  held : ∀ f n, (cqAt (fnAt s f) n).held = [] → (cqAt (fnAt t f) n).held = []

theorem OnlyDelivers.refl (s : State) : OnlyDelivers s s := ⟨.refl s, rfl, fun _ => rfl, fun _ => rfl, fun _ _ h => h⟩

theorem OnlyDelivers.trans {s t u : State} (h : OnlyDelivers s t) (g : OnlyDelivers t u) : OnlyDelivers s u :=
  ⟨h.same.trans g.same, g.flows.trans h.flows, fun f => (g.busy f).trans (h.busy f), fun f => (g.unwritable f).trans (h.unwritable f),
    fun f n hh => g.held f n (h.held f n hh)⟩

theorem OnlyDelivers.cqWritable {s t : State} (h : OnlyDelivers s t) (f n : Nat) : cqWritable (fnAt t f) n = cqWritable (fnAt s f) n := by
  unfold Machine.cqWritable; rw [h.unwritable]

theorem emit_delivers (s : State) (o : Out) : OnlyDelivers s (emit s o) := ⟨emit_same s o, rfl, fun _ => rfl, fun _ => rfl, fun _ _ h => h⟩

theorem journalAdd_delivers (s : State) (a b c d e f : Nat) : OnlyDelivers s (journalAdd s a b c d e f) :=
  ⟨journalAdd_same .., rfl, fun _ => rfl, fun _ => rfl, fun _ _ h => h⟩

/-- What relates a function's state to its replacement, and every state to itself, relates every function before and after. -/
theorem fnAt_setFn_relates {P : FnState → FnState → Prop} {s : State} {f : Nat} {x : FnState} (hx : P (fnAt s f) x) (hr : ∀ y, P y y) (k : Nat) :
    P (fnAt s k) (fnAt (setFn s f x) k) := by
  by_cases h : f = k
  · subst h; rw [fnAt_setFn]; exact hx
  · rw [fnAt_setFn_ne h]; exact hr _

theorem setFn_delivers {s : State} {f : Nat} {x : FnState} (hb : x.busy = (fnAt s f).busy) (hu : x.unwritable = (fnAt s f).unwritable)
    (hh : ∀ n, (cqAt (fnAt s f) n).held = [] → (cqAt x n).held = []) : OnlyDelivers s (setFn s f x) where
  same := modFn_same s f (fun _ => x)
  flows := rfl
  busy := fnAt_setFn_relates (P := fun y z => z.busy = y.busy) hb fun _ => rfl
  unwritable := fnAt_setFn_relates (P := fun y z => z.unwritable = y.unwritable) hu fun _ => rfl
  held := fnAt_setFn_relates (P := fun y z => ∀ n, (cqAt y n).held = [] → (cqAt z n).held = []) hh fun _ _ => id

/-- A change of a CQ that holds nothing must leave it so. -/
theorem modCq_delivers {f n : Nat} {g : Cq → Cq} {s : State} (h : (cqAt (fnAt s f) n).held = [] → (g (cqAt (fnAt s f) n)).held = []) :
    OnlyDelivers s (modCq f n g s) := by
  refine setFn_delivers rfl rfl fun m hm => ?_
  by_cases e : n = m
  · subst e; simpa [cqAt] using h hm
  · simpa [cqAt, fmap_getD_set_ne e] using hm

theorem settleSqs_delivers (f : Nat) (s : State) : OnlyDelivers s (settleSqs f s) := setFn_delivers rfl rfl fun _ h => h

theorem cqWrite_delivers (f n : Nat) (r : Rec) (a : Bool) (sub : Option Nat) (s : State) : OnlyDelivers s (cqWrite f n r a sub s) :=
  (modCq_delivers id).trans (emit_delivers _ _)

theorem fnAt_emit (s : State) (o : Out) (f : Nat) : fnAt (emit s o) f = fnAt s f := rfl

theorem held_cqWrite (f n : Nat) (r : Rec) (a : Bool) (sub : Option Nat) (s : State) :
    (cqAt (fnAt (cqWrite f n r a sub s) f) n).held = (cqAt (fnAt s f) n).held := by
  unfold cqWrite
  simp only [fnAt_emit, cqAt_modCq]

theorem cqFails_delivers (f n : Nat) (r : Rec) (s : State) : OnlyDelivers s (cqFails f n r s) :=
  (modCq_delivers id).trans (journalAdd_delivers ..)

theorem cqDrainFrom_delivers {f n : Nat} {l : List HeldRec} (failAt : Option Nat) {s : State} (hl : (cqAt (fnAt s f) n).held = [] → l = []) :
    OnlyDelivers s (cqDrainFrom f n failAt l s) := by
  induction l generalizing failAt s with
  | nil => exact modCq_delivers fun _ => rfl
  | cons h r ih =>
    unfold cqDrainFrom
    split
    · exact (modCq_delivers (g := fun q => { q with held := h :: r }) hl).trans (cqFails_delivers ..)
    · refine (cqWrite_delivers ..).trans (ih _ fun he => ?_)
      rw [held_cqWrite] at he
      cases hl he

theorem cqDrain_delivers (f n : Nat) (failAt : Option Nat) (s : State) : OnlyDelivers s (cqDrain f n failAt s) := cqDrainFrom_delivers _ id

theorem held_cqDrainFrom_none (f n : Nat) (l : List HeldRec) (s : State) : (cqAt (fnAt (cqDrainFrom f n none l s) f) n).held = [] := by
  induction l generalizing s with
  | nil => simp [cqDrainFrom]
  | cons h r ih => exact ih _

/-- A CQ whose ring takes records holds none once it is drained. -/
theorem held_cqDrain {f n : Nat} {s : State} (hw : cqWritable (fnAt s f) n = true) : (cqAt (fnAt (cqDrain f n none s) f) n).held = [] := by
  rw [cqDrain, if_pos hw]; exact held_cqDrainFrom_none ..

theorem foldl_delivers {α : Type} {g : State → α → State} (h : ∀ s x, OnlyDelivers s (g s x)) (l : List α) (s : State) : OnlyDelivers s (l.foldl g s) :=
  foldl_keeps (P := OnlyDelivers s) (fun t x ht => ht.trans (h t x)) l (.refl s)

/-- What one step of a fold brings about for good, the fold brings about. -/
theorem foldl_reaches {α : Type} {g : State → α → State} {Q : State → Prop} {s : State} {l : List α} {x : α} (h : ∀ s x, OnlyDelivers s (g s x)) (hx : x ∈ l)
    (hq : ∀ t, OnlyDelivers s t → Q (g t x)) (hk : ∀ t u, OnlyDelivers t u → Q t → Q u) : Q (l.foldl g s) := by
  obtain ⟨l₁, l₂, rfl⟩ := List.append_of_mem hx
  rw [List.foldl_append, List.foldl_cons]
  exact hk _ _ (foldl_delivers h l₂ _) (hq _ (foldl_delivers h l₁ s))

/-- One CQ of f after the link has returned. -/
def drainOne (f : Nat) (s : State) (e : Nat × Cq) : State := if e.2.holding then s else cqDrain f e.1 none s

/-- The CQs of one function after the link has returned. -/
def drainFn (s : State) (e : Nat × FnState) : State := settleSqs e.1 (e.2.cqs.foldl (drainOne e.1) s)

theorem writeHeld_eq (s : State) : writeHeld s = s.fns.foldl drainFn s := rfl

theorem drainOne_delivers (f : Nat) (s : State) (e : Nat × Cq) : OnlyDelivers s (drainOne f s e) := by
  unfold drainOne
  split
  · exact .refl s
  · exact cqDrain_delivers ..

theorem drainFn_delivers (s : State) (e : Nat × FnState) : OnlyDelivers s (drainFn s e) :=
  (foldl_delivers (drainOne_delivers e.1) _ s).trans (settleSqs_delivers ..)

theorem writeHeld_delivers (s : State) : OnlyDelivers s (writeHeld s) := foldl_delivers drainFn_delivers _ s

/-- A CQ that holds records for the link alone holds none once they are written. -/
theorem held_writeHeld {s : State} {f n : Nat} (hh : (cqAt (fnAt s f) n).holding = false) (hw : cqWritable (fnAt s f) n = true) :
    (cqAt (fnAt (writeHeld s) f) n).held = [] := by
  have hk : ∀ t u, OnlyDelivers t u → (cqAt (fnAt t f) n).held = [] → (cqAt (fnAt u f) n).held = [] := fun t u h => h.held f n
  rw [writeHeld_eq]
  cases hf : FMap.get? s.fns f with
  | none => exact hk _ _ (writeHeld_delivers s) (by simp [cqAt, fnAt, FMap.getD, hf])
  | some x =>
    have hx : fnAt s f = x := by simp [fnAt, FMap.getD, hf]
    rw [hx] at hh hw
    cases hc : FMap.get? x.cqs n with
    | none => exact hk _ _ (writeHeld_delivers s) (by simp [cqAt, hx, FMap.getD, hc])
    | some q =>
      have hq : q.holding = false := by simpa [cqAt, FMap.getD, hc] using hh
      refine foldl_reaches drainFn_delivers (fmap_get?_mem hf) (fun t ht => ?_) hk
      refine hk _ _ (settleSqs_delivers ..) ?_
      refine foldl_reaches (drainOne_delivers f) (fmap_get?_mem hc) (fun u hu => ?_) hk
      have hwu : cqWritable (fnAt u f) n = true := by rw [(ht.trans hu).cqWritable, hx, hw]
      rw [drainOne, hq]
      exact held_cqDrain hwu

/-- With no function in reset, no reset goes on. -/
theorem settleResets_idle {s : State} (h : ∀ f, (fnAt s f).busy = false) : settleResets s = s :=
  foldl_keeps (P := (· = s)) (by rintro _ e rfl; simp [settleReset, h]) s.fns rfl

/-- Where no listed function is in reset, none is: an unlisted one stands as at reset. -/
theorem busy_of_listed {s : State} (h : ∀ e ∈ s.fns, (fnAt s e.1).busy = false) (f : Nat) : (fnAt s f).busy = false := by
  cases hf : FMap.get? s.fns f with
  | none => simp [fnAt, FMap.getD, hf]
  | some x => exact h _ (fmap_get?_mem hf)

theorem sendMsix_delivers (f v : Nat) (s : State) : OnlyDelivers s (sendMsix f v s) := by
  unfold sendMsix
  simp only
  split
  · refine OnlyDelivers.trans ?_ (emit_delivers _ _)
    exact setFn_delivers rfl rfl fun _ h => h
  · exact .refl s

/-- Every message that is due goes out. -/
def sendAll (s : State) : State := (List.range 32).foldl (fun s f => (List.range 16).foldl (fun s v => sendMsix f v s) s) s

theorem sendAll_delivers (s : State) : OnlyDelivers s (sendAll s) :=
  foldl_delivers (fun s f => foldl_delivers (fun s v => sendMsix_delivers f v s) _ s) _ s

theorem linkChange_l0 (s : State) : linkChange .l0 s = sendAll (settleResets (writeHeld { s with power.link := .l0 })) := rfl

theorem linkChange_other {l : LinkState} (h : l ≠ .l0) (s : State) : linkChange l s = { s with power.link := l } := if_neg h

/-- With no function in reset, the link's return to L0 only delivers records and messages, and empties every CQ that held for it alone. -/
theorem linkChange_l0_delivers {s : State} (hb : ∀ f, (fnAt s f).busy = false) :
    OnlyDelivers { s with power.link := .l0 } (linkChange .l0 s) ∧
      ∀ f n, (cqAt (fnAt s f) n).holding = false → cqWritable (fnAt s f) n = true → (cqAt (fnAt (linkChange .l0 s) f) n).held = [] := by
  have hw := writeHeld_delivers { s with power.link := .l0 }
  rw [linkChange_l0, settleResets_idle fun f => (hw.busy f).trans (hb f)]
  exact ⟨hw.trans (sendAll_delivers _), fun f n hh hc => (sendAll_delivers _).held f n (held_writeHeld hh hc)⟩

theorem hostUp_acting {s : State} (h : hostUp s = true) : acting s = true := by
  unfold hostUp at h
  simp only [Bool.and_eq_true] at h
  exact h.1.1

theorem exec_linkPowerStateChange {s : State} (h : hostUp s = true) (dt : Nat) (l : LinkState) :
    exec (.linkPowerStateChange dt l) s = .next (linkChange l (advance dt s)) := congrArg _ (actAfter_acting dt _ (hostUp_acting h))

/-- Settles O13: each write is its register's own; the link's return is the one step with an induction behind it, over the CQs that are drained. -/
theorem registerAndConfigurationWrites : Obligations.RegisterAndConfigurationWrites := by
  unfold Obligations.RegisterAndConfigurationWrites
  intro s hup
  refine ⟨fun a v ha => ?starve, fun v => ?jump, fun f n v hn hin hb he => ⟨?bind, ?base⟩, fun f n v hn => ?msix, fun f off v ho ha => ?beyond,
    fun f off size hbad => ⟨?badWrite, ?badRead, fun v => ?bad⟩, fun f b => ⟨?bus, ?enable, ?mask, fun p => ?power, fun n => ?rings, ?vf⟩,
    fun dt l hl => ?other, fun dt hb => ?l0⟩
  case starve =>
    rw [exec_registerWrite_four hup 0 (by omega)]
    refine congrArg _ ((write32_starveLimit ha _ s).trans ?_)
    rw [Nat.mod_mod_of_dvd _ (by decide)]
  case jump =>
    rw [exec_registerWrite_four hup 0 (by decide)]
    exact congrArg _ ((write32_jumpLimit _ s).trans (writeJumpLimit_word v s))
  case bind =>
    have ho : sqOpen s f.val n := ⟨by simp [queueWritable, hup, hb], hin, he⟩
    rw [exec_registerWrite_four hup f (by omega), write32_sqBind hn ho]
  case base =>
    have ho : sqOpen s f.val n := ⟨by simp [queueWritable, hup, hb], hin, he⟩
    refine ⟨_, exec_registerWrite_eight hup f (by omega) v, ?_⟩
    rw [write64_sqBase hn ho]
    refine ⟨by rw [sqAt_modSq, sqAt_modSq, baseHi_baseLo], fun m hm => ?_, rfl, rfl⟩
    rw [sqAt_modSq_ne hm.symm, sqAt_modSq_ne hm.symm]
  case msix =>
    refine ⟨_, exec_registerWrite_four hup f (by omega) v, ?_⟩
    have hw : write32 f.val (0xA0008 + 16 * n) (v.toNat % 2 ^ 32) s
        = irqDo (fun s => modFn s f.val (fun x => { x with msix := x.msix.set n { msixAt x n with data := v.toNat % 2 ^ 32 } })) s := by
      rw [write32_msix (by omega) (by omega)]
      exact congrArg (fun g => irqDo g s) (funext (writeMsix_data f.val _))
    rw [hw]
    have hr := irqDo_modFn_reads (fun x => (msixAt x n).data) (fun _ _ => rfl) f.val (fun x => { x with msix := x.msix.set n { msixAt x n with data := v.toNat % 2 ^ 32 } }) s
    exact ⟨hr.1.trans (by simp [msixAt]), hr.2⟩
  case beyond => rw [exec_registerWrite_four hup f ha, write32_beyond ho]
  case badWrite => exact exec_ctlwinBadAccess hup hbad f true
  case badRead => exact exec_ctlwinBadAccess hup hbad f false
  case bad => rw [exec_registerWrite_bad hup hbad, exec_ctlwinBadAccess hup hbad]
  case bus => exact ⟨_, exec_configWrite hup f _, irqDo_modFn_reads FnState.busMaster (fun _ _ => rfl) ..⟩
  case enable => exact ⟨_, exec_configWrite hup f _, irqDo_modFn_reads FnState.msixEnable (fun _ _ => rfl) ..⟩
  case mask => exact ⟨_, exec_configWrite hup f _, irqDo_modFn_reads FnState.functionMask (fun _ _ => rfl) ..⟩
  case power =>
    exact ⟨_, exec_configWrite hup f _, (irqDo_modFn_reads FnState.d3hot (fun _ _ => rfl) ..).1, irqDo_modFn_reads FnState.pmeEn (fun _ _ => rfl) ..⟩
  case rings =>
    refine ⟨_, exec_configWrite hup f _, ?_, fun m hm => ?_, rfl, rfl⟩
    · rw [cqWritable_ringWrites, if_pos rfl]
    · rw [cqWritable_ringWrites, if_neg hm]
  case vf =>
    rw [exec_configWrite hup]
    by_cases hf : f = 0
    · rw [if_pos hf, hf]; rfl
    · rw [if_neg hf]; exact congrArg _ (if_neg fun h => hf (Fin.ext h))
  case other => rw [exec_linkPowerStateChange hup, linkChange_other hl]
  case l0 =>
    obtain ⟨hd, hheld⟩ := linkChange_l0_delivers (s := advance dt s) (busy_of_listed hb)
    exact ⟨_, exec_linkPowerStateChange hup dt .l0, congrArg Power.link hd.same.power, hd.same.now, hd.same.chans, hd.same.outs, hd.same.surfs, hd.same.decs, hd.flows, hheld⟩

end Sys2Proof.HostAccess

/-! PROOFS. What reset leaves (R472, Table 19.8). -/

namespace Sys2Proof.Architecture

open Sys2Proof.Machine Sys2Proof.Laws

/-- With no VF given a queue, PF0 has them all. -/
theorem queueQuota_reset (f : Nat) :
    sqQuota State.reset f = (if f = 0 then 1024 else 0) ∧ cqQuota State.reset f = (if f = 0 then 1024 else 0) := ⟨rfl, rfl⟩

/-- Settles O50: every table is empty at reset, so that a read of it answers the unlisted entry's value. -/
theorem resetLeavesTheStatedValues : Obligations.ResetLeavesTheStatedValues := by
  unfold Obligations.ResetLeavesTheStatedValues
  refine ⟨rfl, rfl, rfl, rfl, rfl, rfl, queueQuota_reset, ?fences, ?sources, ?pages, rfl, rfl, rfl, rfl, rfl, rfl, rfl, rfl, rfl, rfl, rfl, rfl, ?units, ?arbiters⟩
  case fences => exact fun _ _ => ⟨rfl, rfl⟩
  case sources => exact fun _ => ⟨rfl, rfl, rfl⟩
  case pages => exact fun _ => ⟨rfl, rfl, rfl⟩
  case units => exact fun _ => ⟨rfl, rfl, rfl, rfl⟩
  case arbiters => exact fun _ => ⟨rfl, rfl⟩

end Sys2Proof.Architecture

/-! PROOFS. Coding parameters and their pictures (R19, R50, R83, R91, R113, R116, R121, R125, R145, R162, R165). -/

namespace Sys2Proof.Architecture

open Sys2Proof.Machine Sys2Proof.Laws

/-! Coding parameters: commands of an own channel (R19, R50, R72, R83). -/

section
variable {q : FlowRef} {b : Bus} {s t : State} {c : Cmd} {x : Chan}

@[simp] theorem cmdIn_p (q : FlowRef) (c : Cmd) (bs : List Byte) : (cmdIn q c bs).p = c.packet := rfl

theorem withChan_own (h : ownChan c x s) (k : Chan → CmdRes) : withChan s (chanOf c.packet) k = k x := by
  obtain ⟨y, hy, rfl, -⟩ := h
  simp [withChan, hy]

theorem denyNamed_own (h : ownChan c x s) (q : FlowRef) (bs : List Byte) : denyNamed (cmdIn q c bs) s = false := by
  obtain ⟨y, hy, -, ho⟩ := h
  simp [denyNamed, denyChan, cmdIn, hy, ho]

/-- A ready command of an own channel, denied only where the channel is another's, is settled by its meaning. -/
theorem startRow_own {code : Nat} {r : CmdIn → State → CmdRes} (h : ready code q c s = true) (ho : ownChan c x s) :
    startRow code { deny := denyNamed, run := r } q b s = settleRes c.serial b [] id (r (cmdIn q c []) s) :=
  startRow_ready (m := { deny := denyNamed, run := r }) h (denyNamed_own ho q [])

theorem settleRes_refuse (o : Nat) : settleRes c.serial b [] id (refuse s o) = refuses c b o 0 0 s := rfl

theorem settleRes_startedRefusal :
    settleRes c.serial b [] id (startedRefusal x s) = refuses c b stBadState ((x.run.nextPic - 1) % 2 ^ 32) ((x.run.nextPic - 1) / 2 ^ 32) s := rfl

/-- What a change of an own channel in range answers: it waits for its picture, or is stored at once (R19). -/
def changeAnswered (c : Cmd) (b : Bus) (x : Chan) (t : State) : State :=
  if coding x || atPictureOf c.packet then waits c [] (.picture (chanOf c.packet) (pictureAsked c)) 0 0 t
  else completes c b 0 0 0 (storeChange (chanOf c.packet) c.packet t)

theorem settleRes_changeAtPicture (q : FlowRef) :
    settleRes c.serial b [] id (changeAtPicture (cmdIn q c []) (chanOf c.packet) x t (storeChange (chanOf c.packet) c.packet)) = changeAnswered c b x t := by
  unfold changeAtPicture changeAnswered
  by_cases h : (coding x || atPictureOf c.packet) = true
  · simp only [cmdIn, h, if_true]; rfl
  · simp only [cmdIn, h]; rfl

/-! Which picture a command may name (R50, log 157). -/

theorem tooFar_ahead (h : picturesAhead c x) : tooFar (cmdIn q c []) x = false := by
  obtain h | ⟨-, h⟩ := h
  · simp [tooFar, cmdIn, h]
  · simp [tooFar, cmdIn, Nat.not_lt.mpr h]

theorem alreadyStarted_ahead (h : picturesAhead c x) : alreadyStarted (cmdIn q c []) x = false := by
  obtain h | ⟨h, -⟩ := h
  · simp [alreadyStarted, cmdIn, h]
  · simp [alreadyStarted, cmdIn, Nat.not_lt.mpr h]

theorem tooFar_started (h : pictureOf c.packet < x.run.nextPic) : tooFar (cmdIn q c []) x = false := by
  have hn : ¬ x.run.nextPic - 1 + 65536 < pictureOf c.packet := by omega
  simp [tooFar, cmdIn, hn]

theorem alreadyStarted_started (hc : coding x = true) (ha : atPictureOf c.packet = true) (h : pictureOf c.packet < x.run.nextPic) :
    alreadyStarted (cmdIn q c []) x = true := by
  simp [alreadyStarted, cmdIn, hc, ha, h]

/-! Rate control and regions (R145, R162, R163, R165). -/

/-- Lossless areas stand in the way of no change that keeps R163, nor of one of an IDLE channel. -/
theorem lossless_free {p : Bool} (h : x.st = .idle ∨ p = true) : (admitted x && !p) = false := by
  obtain h | h := h <;> simp [admitted, h]

theorem changeRate_admitted {r : RcCfg} (ha : picturesAhead c x) (hl : x.st = .idle ∨ losslessWith s (chanOf c.packet) x (targetPicture (cmdIn q c []) x) c.packet = true)
    (hr : raiseLoad s (chanOf c.packet) x r.rateMax x.run.admRef x.run.admDelay false x.coding.gop = (t, none)) :
    changeRate (cmdIn q c []) x r s = changeAtPicture (cmdIn q c []) (chanOf c.packet) x t (storeChange (chanOf c.packet) c.packet) := by
  have hl := lossless_free hl
  unfold changeRate
  rw [alreadyStarted_ahead ha]
  simp only [cmdIn] at hl ⊢
  simp [hl, hr]

theorem changeRate_started {r : RcCfg} (h : alreadyStarted (cmdIn q c []) x = true) : changeRate (cmdIn q c []) x r s = startedRefusal x s := by
  unfold changeRate
  rw [if_pos h]

/-! Each command in range (Tables 4.6, 4.9, 5.1, 5.4). -/

/-- The row of a command whose meaning takes an own channel as it stands. -/
theorem startRow_withChan {code : Nat} {r : CmdIn → State → CmdRes} {k : Chan → CmdRes} {a : CmdRes} (h : ready code q c s = true) (ho : ownChan c x s)
    (hr : r (cmdIn q c []) s = withChan s (chanOf c.packet) k) (ha : k x = a) :
    startRow code { deny := denyNamed, run := r } q b s = settleRes c.serial b [] id a := by
  rw [startRow_own h ho, hr, withChan_own ho, ha]

theorem exec_encProfile_inRange {e : EncProfile} (h : ready 0x0301 q c s = true) (ho : ownChan c x s) (he : encProfileOf c.packet = some e) :
    exec (.encProfile q b) s = .next (if x.st = .idle then completes c b 0 0 0 (modChan s (chanOf c.packet) (fun x => { x with profile := some e })) else refuses c b stBadState 0 0 s) := by
  refine congrArg Host.Outcome.next ((startRow_withChan h ho rfl rfl).trans ?_)
  dsimp only [cmdIn_p]
  rw [he]
  by_cases hi : x.st = .idle <;> simp [admitted, hi] <;> rfl

theorem exec_encProfile_outOfRange (h : ready 0x0301 q c s = true) (ho : ownChan c x s) (he : encProfileOf c.packet = none) :
    exec (.encProfile q b) s = .next (refuses c b stBadParam 0 0 s) := by
  refine congrArg Host.Outcome.next (startRow_withChan (a := refuse s stBadParam) h ho rfl ?_)
  dsimp only [cmdIn_p]
  rw [he]

theorem exec_encGop_admitted (h : ready 0x0302 q c s = true) (ho : ownChan c x s) (hg : encGopOk (encGopOf c.packet) = true) (ha : picturesAhead c x)
    (hf : fixedNow (cmdIn q c []) x = false ∨ ((encGopOf c.packet).structure' = x.coding.gop.structure' ∧ (encGopOf c.packet).miniGop = x.coding.gop.miniGop ∧ (encGopOf c.packet).lookahead = x.coding.gop.lookahead))
    (hr : raiseLoad s (chanOf c.packet) x x.run.admRate (encGopOf c.packet).nRef x.run.admDelay false x.coding.gop = (t, none)) :
    exec (.encGop q b) s = .next (changeAnswered c b x t) := by
  refine congrArg Host.Outcome.next ((startRow_withChan h ho rfl ?_).trans (settleRes_changeAtPicture q))
  dsimp only [cmdIn_p]
  rw [tooFar_ahead ha, alreadyStarted_ahead ha]
  have hk : (fixedNow (cmdIn q c []) x && ((encGopOf c.packet).structure' != x.coding.gop.structure' || (encGopOf c.packet).miniGop != x.coding.gop.miniGop
      || (encGopOf c.packet).lookahead != x.coding.gop.lookahead)) = false := by
    obtain hf | ⟨h1, h2, h3⟩ := hf
    · simp [hf]
    · simp [h1, h2, h3]
  rw [hk, hg, hr]
  rfl

theorem exec_encGop_fixed (h : ready 0x0302 q c s = true) (ho : ownChan c x s) (hg : encGopOk (encGopOf c.packet) = true) (ha : picturesAhead c x)
    (hf : fixedNow (cmdIn q c []) x = true)
    (hd : (encGopOf c.packet).structure' ≠ x.coding.gop.structure' ∨ (encGopOf c.packet).miniGop ≠ x.coding.gop.miniGop ∨ (encGopOf c.packet).lookahead ≠ x.coding.gop.lookahead) :
    exec (.encGop q b) s = .next (refuses c b stBadState 0 0 s) := by
  refine congrArg Host.Outcome.next ((startRow_withChan h ho rfl ?_).trans (settleRes_refuse stBadState))
  dsimp only [cmdIn_p]
  rw [tooFar_ahead ha, alreadyStarted_ahead ha, hf]
  have hk : ((encGopOf c.packet).structure' != x.coding.gop.structure' || (encGopOf c.packet).miniGop != x.coding.gop.miniGop
      || (encGopOf c.packet).lookahead != x.coding.gop.lookahead) = true := by
    simpa [or_assoc] using hd
  rw [hk, hg]
  rfl

theorem exec_rcConfig_admitted (h : ready 0x0303 q c s = true) (ho : ownChan c x s) (hg : rcCfgOk (qpLimit x) (rcCfgOf c.packet) = true) (ha : picturesAhead c x)
    (hk : ∀ o, x.coding.rc = some o → fixedNow (cmdIn q c []) x = true →
      (rcCfgOf c.packet).mode = o.mode ∧ (rcCfgOf c.packet).hrd = o.hrd ∧ (rcCfgOf c.packet).rowCap = o.rowCap ∧ (rcCfgOf c.packet).cpbSize = o.cpbSize)
    (hl : x.st = .idle ∨ losslessWith s (chanOf c.packet) x (targetPicture (cmdIn q c []) x) c.packet = true)
    (hr : raiseLoad s (chanOf c.packet) x (rcCfgOf c.packet).rateMax x.run.admRef x.run.admDelay false x.coding.gop = (t, none)) :
    exec (.rcConfig q b) s = .next (changeAnswered c b x t) := by
  refine congrArg Host.Outcome.next ((startRow_withChan h ho rfl ?_).trans (settleRes_changeAtPicture q))
  dsimp only [cmdIn_p]
  rw [tooFar_ahead ha, alreadyStarted_ahead ha, hg, ← changeRate_admitted (r := rcCfgOf c.packet) ha hl hr]
  cases hf : fixedNow (cmdIn q c []) x with
  | false => simp
  | true =>
    cases ho : x.coding.rc with
    | none => simp
    | some o =>
      obtain ⟨h1, h2, h3, h4⟩ := hk o ho hf
      simp [h1, h2, h3, h4]

theorem exec_rcUpdate_inRange {r : RcCfg} (h : ready 0x0304 q c s = true) (ho : ownChan c x s) (hb : rcBefore s (cmdIn q c []) x = some r)
    (hg : rcUpdateOk (qpLimit x) c.packet r = true) (hf : tooFar (cmdIn q c []) x = false) :
    exec (.rcUpdate q b) s = .next (settleRes c.serial b [] id (changeRate (cmdIn q c []) x (rcUpdated c.packet r) s)) := by
  refine congrArg Host.Outcome.next (startRow_withChan h ho rfl ?_)
  rw [hb, hf]
  simp [hg]

theorem exec_encRegion_ahead (h : ready 0x0305 q c s = true) (ho : ownChan c x s) (hg : regionOk (regionOf c.packet) = true) (ha : picturesAhead c x)
    (hi : (regionOf c.packet).kind = 0 ∨ (∀ k, x.cfg = some k → (regionOf c.packet).x + (regionOf c.packet).w ≤ k.width ∧ (regionOf c.packet).y + (regionOf c.packet).h ≤ k.height)) :
    exec (.encRegion q b) s = .next (if admitted x && !losslessWith s (chanOf c.packet) x (targetPicture (cmdIn q c []) x) c.packet then refuses c b stBadState 0 0 s
      else changeAnswered c b x s) := by
  refine congrArg Host.Outcome.next ((startRow_withChan h ho rfl rfl).trans ?_)
  dsimp only [cmdIn_p]
  rw [tooFar_ahead ha, alreadyStarted_ahead ha, hg, ← settleRes_changeAtPicture q]
  refine (congrArg _ (if_neg ?_)).trans ?_
  · cases hx : x.cfg with
    | none => simp
    | some k =>
      obtain hk | hk := hi
      · simp [hk]
      · simp [hk k hx]
  · by_cases hl : (admitted x && !losslessWith s (chanOf c.packet) x (targetPicture (cmdIn q c []) x) c.packet) = true
    · simp only [hl]; rfl
    · simp only [hl]; rfl

theorem exec_encSpec_admitted (h : ready 0x0306 q c s = true) (ho : ownChan c x s) (h1 : 1 ≤ fld c.packet 3 6 4) (h6 : fld c.packet 3 6 4 ≤ 6) (ha : picturesAhead c x)
    (hr : raiseLoad s (chanOf c.packet) x x.run.admRate x.run.admRef x.run.admDelay (flag c.packet 3 1) x.coding.gop = (t, none)) :
    exec (.encSpec q b) s = .next (changeAnswered c b x t) := by
  refine congrArg Host.Outcome.next ((startRow_withChan h ho rfl ?_).trans (settleRes_changeAtPicture q))
  have h0 : fld c.packet 3 6 4 ≠ 0 := Nat.ne_of_gt h1
  have h7 : ¬ 6 < fld c.packet 3 6 4 := Nat.not_lt.mpr h6
  rw [tooFar_ahead ha, alreadyStarted_ahead ha]
  simp [h0, h7, hr]

theorem exec_encMe_inRange (h : ready 0x0307 q c s = true) (ho : ownChan c x s) (h1 : fld c.packet 3 1 0 ≠ 3) (h3 : fld c.packet 3 3 2 ≠ 3)
    (hf : tooFar (cmdIn q c []) x = false) :
    exec (.encMe q b) s = .next (settleRes c.serial b [] id (if alreadyStarted (cmdIn q c []) x then startedRefusal x s
      else changeAtPicture (cmdIn q c []) (chanOf c.packet) x s (storeChange (chanOf c.packet) c.packet))) := by
  refine congrArg Host.Outcome.next (startRow_withChan h ho rfl ?_)
  rw [hf]
  simp [h1, h3]

/-! A picture that has started (R50): each command in range is refused with the picture in progress. -/

theorem exec_encGop_started (h : ready 0x0302 q c s = true) (ho : ownChan c x s) (hg : encGopOk (encGopOf c.packet) = true)
    (hf : tooFar (cmdIn q c []) x = false) (hs : alreadyStarted (cmdIn q c []) x = true) :
    exec (.encGop q b) s = .next (settleRes c.serial b [] id (startedRefusal x s)) := by
  refine congrArg Host.Outcome.next (startRow_withChan h ho rfl ?_)
  rw [hf, hs]
  simp [hg]

theorem exec_encSpec_started (h : ready 0x0306 q c s = true) (ho : ownChan c x s) (h1 : 1 ≤ fld c.packet 3 6 4) (h6 : fld c.packet 3 6 4 ≤ 6)
    (hf : tooFar (cmdIn q c []) x = false) (hs : alreadyStarted (cmdIn q c []) x = true) :
    exec (.encSpec q b) s = .next (settleRes c.serial b [] id (startedRefusal x s)) := by
  refine congrArg Host.Outcome.next (startRow_withChan h ho rfl ?_)
  have h0 : fld c.packet 3 6 4 ≠ 0 := Nat.ne_of_gt h1
  have h7 : ¬ 6 < fld c.packet 3 6 4 := Nat.not_lt.mpr h6
  rw [hf, hs]
  simp [h0, h7]

theorem exec_rcConfig_started (h : ready 0x0303 q c s = true) (ho : ownChan c x s) (hg : rcCfgOk (qpLimit x) (rcCfgOf c.packet) = true)
    (hf : tooFar (cmdIn q c []) x = false) (hs : alreadyStarted (cmdIn q c []) x = true) :
    exec (.rcConfig q b) s = .next (settleRes c.serial b [] id (startedRefusal x s)) := by
  refine congrArg Host.Outcome.next (startRow_withChan h ho rfl ?_)
  rw [hf, hs]
  simp [hg]

theorem exec_keyRequest_started (h : ready 0x0207 q c s = true) (ho : ownChan c x s) (hk : fld c.packet 3 1 0 ≤ 2)
    (hf : tooFar (cmdIn q c []) x = false) (hs : alreadyStarted (cmdIn q c []) x = true) :
    exec (.keyRequest q b) s = .next (settleRes c.serial b [] id (startedRefusal x s)) := by
  refine congrArg Host.Outcome.next (startRow_withChan h ho rfl ?_)
  have hk' : fld c.packet 3 1 0 ≠ 3 := Nat.ne_of_lt (Nat.lt_succ_of_le hk)
  rw [hf, hs]
  simp [hk']

end

/-- Settles O24: every command comes down to whether its picture lies ahead, to the fields that a run fixes, to R163, and to the load admitted. -/
theorem codingParametersWaitForTheirPicture : Obligations.CodingParametersWaitForTheirPicture := by
  unfold Obligations.CodingParametersWaitForTheirPicture
  refine ⟨fun q b s c x h ho => ⟨fun e => exec_encProfile_inRange h ho, exec_encProfile_outOfRange h ho⟩, fun q b s c x h ho hg ha => ⟨fun t => exec_encGop_admitted h ho hg ha, exec_encGop_fixed h ho hg ha⟩,
    fun q b s c x t h ho => exec_rcConfig_admitted h ho, fun q b s c x r t h ho hb hg ha hl hr => ?update, fun q b s c x h ho hg ha hi => ⟨fun hl => ?region, fun hn hl => ?lossy⟩,
    fun q b s c x t h ho => exec_encSpec_admitted h ho, fun q b s c x h ho h1 h3 ha => ?me, fun q b s c x ho hc ha hp => ?started, fun p c => ?parameters⟩
  case update =>
    rw [exec_rcUpdate_inRange h ho hb hg (tooFar_ahead ha), changeRate_admitted ha hl hr, settleRes_changeAtPicture]
    rfl
  case region =>
    rw [exec_encRegion_ahead h ho hg ha hi, lossless_free hl]
    rfl
  case lossy =>
    rw [exec_encRegion_ahead h ho hg ha hi, hl, if_pos (by simp [admitted, hn])]
  case me =>
    rw [exec_encMe_inRange h ho h1 h3 (tooFar_ahead ha), alreadyStarted_ahead ha]
    exact congrArg _ (settleRes_changeAtPicture q)
  case started =>
    have hs : alreadyStarted (cmdIn q c []) x = true := alreadyStarted_started hc ha hp
    have hf : tooFar (cmdIn q c []) x = false := tooFar_started hp
    refine ⟨fun h hg => exec_encGop_started h ho hg hf hs, fun h hg => exec_rcConfig_started h ho hg hf hs, fun r h hb hg => ?_, fun h h1 h6 => exec_encSpec_started h ho h1 h6 hf hs, fun h h1 h3 => ?_,
      fun h hk => exec_keyRequest_started h ho hk hf hs⟩
    · rw [exec_rcUpdate_inRange h ho hb hg hf, changeRate_started hs, settleRes_startedRefusal]
    · rw [exec_encMe_inRange h ho h1 h3 hf, if_pos hs, settleRes_startedRefusal]
  case parameters =>
    exact ⟨fun h => by simp [changeCoding, h], fun h => by simp [changeCoding, h], fun h => by simp [changeCoding, h], fun h => by simp [changeCoding, h],
      fun h => by simp [changeCoding, h], fun h => by simp [changeCoding, h]⟩

end Sys2Proof.Architecture

/-! PROOFS. A Tide boundary at which a pair ends leaves a configuration command waiting (R27, R387, R389). -/

namespace Sys2Proof.Architecture

open Sys2Proof.Machine Sys2Proof.Laws

/-- A DEC_POLICY that the holder has sent to the standby and that the standby has not answered (R389). -/
def sentDecPolicy : Cmd := { Tests.cm 0x0503 [] with started := true, mirrorSerial := some 0 }

/-- The PAIR_CONFIG that dissolves the pair; it has been accepted and waits for the boundary (R387). -/
def pairDissolution : Cmd := { Tests.cm 0x0901 [] with serial := 1, started := true, wait := .tide }

/-- A SYNCED holder with both commands, at the instant of its Tide boundary. -/
def dissolvingHolder : State :=
  { decs := [(0, Tests.tdec)], flows := [(0, [sentDecPolicy]), (1, [pairDissolution])], time.nextBoundary := 0,
    net.pendCfg := [{ serial := 1, opcode := 0x0901, packet := pairDissolution.packet, fn := 0 }],
    pair.cfg := some {}, pair.st := .synced, pair.role := .holder,
    pair.sent := [{ serial := 0, flow := 0, outcome := stOk, result0 := 0, result1 := 0, kind := 2, object := 0, boundary := 0 }] }

theorem dissolvingHolder_boundaryDue : acting dissolvingHolder = true ∧ tideDue (advance 0 dissolvingHolder) = true := by
  decide +kernel

/-- The boundary takes the waiting PAIR_CONFIG from `net.pendCfg` before it applies it; the holder, alone, then runs the DEC_POLICY, which puts itself there. -/
theorem dissolvingHolder_leavesDecPolicyWaiting :
    (tideBoundary {} (advance 0 dissolvingHolder)).net.pendCfg.map (fun c => (c.serial, c.opcode)) = [(0, 0x0503)] := by
  decide +kernel

/-- Refutes O48: "no change waits any more" fails where the dissolution of a pair applies at the boundary while a DEC_POLICY is sent and unanswered. -/
theorem not_tideBoundaryAppliesAndPublishes : ¬ Obligations.TideBoundaryAppliesAndPublishes := by
  unfold Obligations.TideBoundaryAppliesAndPublishes
  rintro ⟨-, boundary, -⟩
  obtain ⟨hact, hdue⟩ := dissolvingHolder_boundaryDue
  obtain ⟨t, hstep, -, -, -, -, -, -, -, -, -, -, -, hnone, -⟩ := boundary 0 {} dissolvingHolder hact hdue
  obtain rfl : tideBoundary {} (advance 0 dissolvingHolder) = t :=
    Host.Outcome.next.inj ((congrArg Host.Outcome.next (actAfter_acting 0 (tideBoundary {}) hact)).symm.trans hstep)
  have hwaits := dissolvingHolder_leavesDecPolicyWaiting
  rw [hnone] at hwaits
  exact absurd hwaits (by decide)

end Sys2Proof.Architecture

/-! PROOFS. What ending a command and posting an event leave as it is. -/

namespace Sys2Proof.Architecture

open Sys2Proof.Machine Sys2Proof.Laws Sys2Proof.HostAccess

/-- The state without what a command leaves behind when it ends, and an event when it is posted: messages, queues, flows, journal, and the command records of the pair and of the update. -/
def besideCommands (s : State) : State :=
  { s with outbox := [], fns := [], flows := [], journal := {}, pair.tags := [], pair.orphanRecords := 0, upd.clients := [], upd.lastFail := 0 }

/-- A function without its queues and subscriptions. -/
def besideQueues (x : FnState) : FnState := { x with sqs := [], cqs := [], subs := [] }

/-- From s to t commands have ended and events have been posted, and nothing else has changed. -/
structure Ends (s t : State) : Prop where
  rest : besideCommands t = besideCommands s
  fns : ∀ f, besideQueues (fnAt t f) = besideQueues (fnAt s f)
  staged : s.journal.staged ⊆ t.journal.staged

theorem Ends.refl (s : State) : Ends s s := ⟨rfl, fun _ => rfl, List.Subset.refl _⟩

theorem Ends.trans {s t u : State} (h : Ends s t) (g : Ends t u) : Ends s u :=
  ⟨g.rest.trans h.rest, fun f => (g.fns f).trans (h.fns f), List.Subset.trans h.staged g.staged⟩

theorem foldl_ends {α : Type} {g : State → α → State} (h : ∀ s x, Ends s (g s x)) (l : List α) (s : State) : Ends s (l.foldl g s) :=
  foldl_keeps (P := Ends s) (fun t x ht => ht.trans (h t x)) l (.refl s)

section
variable {s t : State} (h : Ends s t)
include h

theorem Ends.busy (f : Nat) : (fnAt t f).busy = (fnAt s f).busy := (congrArg FnState.busy (h.fns f) :)
theorem Ends.now : t.now = s.now := (congrArg State.now h.rest :)
theorem Ends.chans : t.chans = s.chans := (congrArg State.chans h.rest :)
theorem Ends.outs : t.outs = s.outs := (congrArg State.outs h.rest :)
theorem Ends.surfs : t.surfs = s.surfs := (congrArg State.surfs h.rest :)
theorem Ends.decs : t.decs = s.decs := (congrArg State.decs h.rest :)
theorem Ends.net : t.net = s.net := (congrArg State.net h.rest :)
theorem Ends.time : t.time = s.time := (congrArg State.time h.rest :)
theorem Ends.power : t.power = s.power := (congrArg State.power h.rest :)
theorem Ends.units : t.units = s.units := (congrArg State.units h.rest :)
end

/-! The operations of the command path, one by one. -/

theorem emit_ends (s : State) (o : Out) : Ends s (emit s o) := ⟨rfl, fun _ => rfl, List.Subset.refl _⟩
theorem setFlow_ends (s : State) (k : Nat) (l : List Cmd) : Ends s (setFlow s k l) := ⟨rfl, fun _ => rfl, List.Subset.refl _⟩
theorem modCmd_ends (n : Nat) (g : Cmd → Cmd) (s : State) : Ends s (modCmd n g s) := ⟨rfl, fun _ => rfl, List.Subset.refl _⟩
theorem tagDone_ends (f k : Nat) (t : Word) (s : State) : Ends s (tagDone f k t s) := ⟨rfl, fun _ => rfl, List.Subset.refl _⟩

theorem journalAdd_ends (s : State) (a b c d e f : Nat) : Ends s (journalAdd s a b c d e f) :=
  ⟨rfl, fun _ => rfl, List.subset_append_left _ _⟩

/-- A change of a function's queues and subscriptions alone. -/
theorem modFn_ends (s : State) (f : Nat) {g : FnState → FnState} (h : ∀ x, besideQueues (g x) = besideQueues x) : Ends s (modFn s f g) :=
  ⟨rfl, fnAt_setFn_relates (P := fun x y => besideQueues y = besideQueues x) (h _) fun _ => rfl, List.Subset.refl _⟩

theorem modCq_ends (f n : Nat) (g : Cq → Cq) (s : State) : Ends s (modCq f n g s) := modFn_ends s f fun _ => rfl
theorem settleSqs_ends (f : Nat) (s : State) : Ends s (settleSqs f s) := modFn_ends s f fun _ => rfl

theorem cqWrite_ends (f n : Nat) (r : Rec) (a : Bool) (sub : Option Nat) (s : State) : Ends s (cqWrite f n r a sub s) :=
  (modCq_ends ..).trans (emit_ends _ _)

theorem cqPut_ends (f n : Nat) (r : Rec) (a : Bool) (sub : Option Nat) (ok : Bool) (s : State) : Ends s (cqPut f n r a sub ok s) := by
  simp only [cqPut]
  split
  · exact modCq_ends ..
  · split
    · exact cqWrite_ends ..
    · exact (modCq_ends ..).trans ((modCq_ends ..).trans (journalAdd_ends ..))

theorem ferryFinish_ends (c : Client) (k : FerryKept) (s : State) : Ends s (ferryFinish c k s) := by
  have hkept : Ends s { s with upd.clients := s.upd.clients.map (fun x =>
      if x.client = c then { x with kept := (k :: x.kept).take 256, running := x.running.filter (fun n => n != k.seq) } else x) } :=
    ⟨rfl, fun _ => rfl, List.Subset.refl _⟩
  exact hkept.trans ((foldl_ends (fun s _ => emit_ends s _) _ _).trans (emit_ends _ _))

theorem orphanOrWrite_ends (c : Cmd) (r : Rec) (s : State) : Ends s (orphanOrWrite c r s) := by
  have horphan : Ends s { s with pair.orphanRecords := inc32 s.pair.orphanRecords } := ⟨rfl, fun _ => rfl, List.Subset.refl _⟩
  simp only [orphanOrWrite]
  split
  · split
    · exact (modCq_ends ..).trans (cqPut_ends ..)
    · exact horphan
  · exact horphan

theorem updateFailed_ends (op o : Nat) (s : State) : Ends s (updateFailed op o s) := by
  unfold updateFailed
  split
  · exact ⟨rfl, fun _ => rfl, List.Subset.refl _⟩
  · exact .refl s

/-- A completing command changes nothing but its flow, its queues, messages, journal and command records (R63). -/
theorem completeCmd_ends (n o p r0 r1 : Nat) (a : List Byte) (ok : Bool) (s : State) : Ends s (completeCmd n o p r0 r1 a ok s) := by
  unfold completeCmd
  split
  · exact .refl s
  · rename_i k c _
    refine ((setFlow_ends s k ((flowCmds s k).filter (fun x => x.serial != n))).trans (updateFailed_ends (opcodeOf c.packet) o _)).trans ?_
    generalize updateFailed (opcodeOf c.packet) o (setFlow s k ((flowCmds s k).filter (fun x => x.serial != n))) = u
    dsimp only
    split
    · exact ferryFinish_ends ..
    · split
      · split
        · exact (tagDone_ends ..).trans (orphanOrWrite_ends ..)
        · exact tagDone_ends ..
      · refine Ends.trans (t := if c.mirrorSerial.isSome then tagDone c.fn.val (flowOf c.packet) (tagOf c.packet) u else u) ?mirror ?record
        case mirror =>
          split
          · exact tagDone_ends ..
          · exact .refl _
        case record =>
          generalize (if c.mirrorSerial.isSome then tagDone c.fn.val (flowOf c.packet) (tagOf c.packet) u else u) = v
          split
          · exact ((modCq_ends ..).trans (journalAdd_ends ..)).trans (settleSqs_ends ..)
          · exact (cqPut_ends ..).trans (settleSqs_ends ..)

theorem endCmd_ends (n o r0 r1 : Nat) (s : State) : Ends s (endCmd n o r0 r1 s) := by
  unfold endCmd
  split
  · exact .refl s
  · exact completeCmd_ends ..

theorem finishCmd_ends (n full r0 r1 : Nat) (s : State) : Ends s (finishCmd n full r0 r1 s) := by
  unfold finishCmd
  split
  · exact .refl s
  · exact completeCmd_ends ..

theorem eventTo_ends (f i : Nat) (u : Sub) (r0 : Nat) (s : State) : Ends s (eventTo f i u r0 s) := by
  unfold eventTo writeEvent
  split
  · exact modFn_ends s f fun _ => rfl
  · split
    · refine Ends.trans (modFn_ends s f (g := fun x => { x with subs := x.subs.modify i (fun u => { u with occupied := true, pending := none }) }) fun _ => rfl) ?_
      exact cqPut_ends ..
    · exact .refl s

theorem postEvent_ends (f kind object r0 : Nat) (s : State) : Ends s (postEvent f kind object r0 s) :=
  foldl_ends (fun s (e : Nat × Sub) => eventTo_ends f e.1 e.2 r0 s) _ s

end Sys2Proof.Architecture

/-! PROOFS. What a channel's stream and its end leave as they are (R94, R99, R100, R107). -/

namespace Sys2Proof.Architecture

open Sys2Proof.Machine Sys2Proof.Laws Sys2Proof.HostAccess

/-! Groups of output flows, and frames to the partner. -/

/-- The state without output flows and the transmit side of the Causeway. -/
def besideGroups (s : State) : State := { s with outbox := [], net.flowsOut := [], net.cw := {}, units.injections := [] }

/-- A fold of steps that keep a view of the state keeps it. -/
theorem foldl_view {α β : Type} {v : State → β} {g : State → α → State} (h : ∀ s x, v (g s x) = v s) (l : List α) (s : State) : v (l.foldl g s) = v s :=
  foldl_keeps (P := fun t => v t = v s) (fun t x ht => (h t x).trans ht) l rfl

@[simp] theorem besideGroups_emit (s : State) (o : Out) : besideGroups (emit s o) = besideGroups s := rfl
@[simp] theorem besideGroups_modFlowOut (s : State) (w : Nat) (g : FlowOut → FlowOut) : besideGroups (modFlowOut s w g) = besideGroups s := rfl
@[simp] theorem besideGroups_modCopy (w : Nat) (b : Bool) (g : FlowCopy → FlowCopy) (s : State) : besideGroups (modCopy w b g s) = besideGroups s := rfl
@[simp] theorem besideGroups_countDown (w n : Nat) (s : State) : besideGroups (countDown w n s) = besideGroups s := rfl
@[simp] theorem besideGroups_countDisabled (w n : Nat) (s : State) : besideGroups (countDisabled w n s) = besideGroups s := rfl
@[simp] theorem besideGroups_reapFlows (s : State) : besideGroups (reapFlows s) = besideGroups s := rfl

@[simp] theorem besideGroups_cwSend (type : Nat) (p : List Byte) (s : State) : besideGroups (cwSend type p s) = besideGroups s := by
  unfold cwSend cwEmit
  split
  · dsimp only
    split <;> rfl
  · rfl

@[simp] theorem besideGroups_reportGroup (w : Nat) (b : Bool) (n : Nat) (s : State) : besideGroups (reportGroup w b n s) = besideGroups s := by
  unfold reportGroup
  split
  · exact besideGroups_cwSend ..
  · rfl

@[simp] theorem besideGroups_dropCopy (w : Nat) (b : Bool) (spare : Group → Bool) (s : State) : besideGroups (dropCopy w b spare s).1 = besideGroups s := by
  unfold dropCopy
  split
  · rfl
  · exact (foldl_view (fun s (g : Group) => besideGroups_reportGroup w b g.serial s) _ _).trans (besideGroups_modCopy ..)

@[simp] theorem besideGroups_dropGroups (w : Nat) (count : Bool) (s : State) : besideGroups (dropGroups w count s) = besideGroups s := by
  unfold dropGroups
  split
  · rfl
  · refine foldl_view (fun s b => ?_) _ s
    dsimp only
    split <;> simp

@[simp] theorem besideGroups_addGroup (w : Nat) (due : Rat) (frames : List Nat) (spacing : Rat) (picture slice : Nat) (eob : Bool) (info : GroupInfo) (s : State) :
    besideGroups (addGroup w due frames spacing picture slice eob info s).1 = besideGroups s := by
  unfold addGroup
  split
  · rfl
  · exact (besideGroups_modFlowOut ..).trans (foldl_view (fun s b => besideGroups_modCopy ..) _ s)

/-! One channel's stream. -/

/-- What the end of a stream leaves of its channel: a stop by a fault stays one, its loss flag stays up, an abort lasts until the channel is IDLE, and an IDLE channel stays so (R99 to R102). -/
structure Fades (x y : Chan) : Prop where
  fault : x.stopReason = 3 → y.stopReason = 3
  loss : x.lossFlag = true → y.lossFlag = true
  abort : x.run.aborting = true → y.st = .idle ∨ y.run.aborting = true
  idle : x.st = .idle → y.st = .idle

theorem Fades.refl (x : Chan) : Fades x x := ⟨id, id, .inr, id⟩

theorem Fades.trans {x y z : Chan} (h : Fades x y) (g : Fades y z) : Fades x z :=
  ⟨g.fault ∘ h.fault, g.loss ∘ h.loss, fun ha => (h.abort ha).elim (fun hi => .inl (g.idle hi)) g.abort, g.idle ∘ h.idle⟩

/-- The state without commands, channels, output flows and the transmit side of the Causeway. -/
def besideStreams (s : State) : State := { besideGroups (besideCommands s) with chans := [] }

/-- From s to t the stream of channel c has gone on or ended; commands have ended, groups have come and gone, and nothing else has changed. -/
structure StreamOf (c : Nat) (s t : State) : Prop where
  rest : besideStreams t = besideStreams s
  fns : ∀ f, besideQueues (fnAt t f) = besideQueues (fnAt s f)
  staged : s.journal.staged ⊆ t.journal.staged
  wf : s.chans.wf = true → t.chans.wf = true
  others : ∀ d, d ≠ c → chanAt t d = chanAt s d
  own : ∀ x, chanAt s c = some x → ∃ y, chanAt t c = some y ∧ Fades x y

theorem StreamOf.trans {c : Nat} {s t u : State} (h : StreamOf c s t) (g : StreamOf c t u) : StreamOf c s u where
  rest := g.rest.trans h.rest
  fns f := (g.fns f).trans (h.fns f)
  staged := List.Subset.trans h.staged g.staged
  wf := g.wf ∘ h.wf
  others d hd := (g.others d hd).trans (h.others d hd)
  own x hx := by
    obtain ⟨y, hy, hxy⟩ := h.own x hx
    obtain ⟨z, hz, hyz⟩ := g.own y hy
    exact ⟨z, hz, hxy.trans hyz⟩

theorem StreamOf.busy {c : Nat} {s t : State} (h : StreamOf c s t) (f : Nat) : (fnAt t f).busy = (fnAt s f).busy :=
  (congrArg FnState.busy (h.fns f) :)

/-- Where the channels are the same, the stream of any channel has done nothing. -/
theorem StreamOf.of_chans {c : Nat} {s t : State} (hrest : besideStreams t = besideStreams s) (hfns : ∀ f, besideQueues (fnAt t f) = besideQueues (fnAt s f))
    (hstaged : s.journal.staged ⊆ t.journal.staged) (hc : t.chans = s.chans) : StreamOf c s t where
  rest := hrest
  fns := hfns
  staged := hstaged
  wf := by rw [hc]; exact id
  others d _ := congrArg (FMap.get? · d) hc
  own x hx := ⟨x, (congrArg (FMap.get? · c) hc).trans hx, .refl x⟩

theorem Ends.stream {c : Nat} {s t : State} (h : Ends s t) : StreamOf c s t :=
  .of_chans (congrArg (fun s => { besideGroups s with chans := [] }) h.rest) h.fns h.staged h.chans

theorem stream_of_besideGroups {c : Nat} {s t : State} (h : besideGroups t = besideGroups s) : StreamOf c s t :=
  .of_chans (congrArg (fun s => { besideCommands s with chans := [] }) h) (fun f => (congrArg (fun s => besideQueues (fnAt s f)) h :))
    (fun _ he => (congrArg (fun s => s.journal.staged) h : t.journal.staged = s.journal.staged) ▸ he) (congrArg State.chans h :)

theorem modChan_stream {c : Nat} {g : Chan → Chan} (h : ∀ x, Fades x (g x)) (s : State) : StreamOf c s (modChan s c g) where
  rest := rfl
  fns _ := rfl
  staged := List.Subset.refl _
  wf := fmap_wf_modify c g
  others d hd := chanAt_modChan_ne hd.symm
  own x hx := ⟨g x, by rw [chanAt_modChan, hx]; rfl, h x⟩

/-- A property that the stream of channel c keeps, and the resets that its end lets go on. -/
structure StreamKeeps (c : Nat) (P : State → Prop) : Prop where
  stream : ∀ {s t}, StreamOf c s t → P s → P t
  resets : ∀ {s}, P s → P (settleResets s)

theorem discardRunahead_fades (x : Chan) : Fades x (discardRunahead x) := by
  unfold discardRunahead
  split
  · exact ⟨id, id, .inr, id⟩
  · exact .refl x

theorem endWaiters_ends (c : Nat) (s : State) : Ends s (endWaiters c s) := by
  unfold endWaiters
  split
  · exact .refl s
  · refine foldl_ends (fun s (d : Cmd) => ?_) _ s
    split
    · exact endCmd_ends ..
    · split
      · exact endCmd_ends ..
      · split
        · exact completeCmd_ends ..
        · exact endCmd_ends ..

/-- Groups that some flows take for a stream change those flows alone. -/
theorem besideGroups_foldl_addGroup {β : Type} {g : State × β → Nat → State × β} (h : ∀ a w, besideGroups (g a w).1 = besideGroups a.1) (l : List Nat) (a : State × β) :
    besideGroups (l.foldl g a).1 = besideGroups a.1 :=
  foldl_keeps (P := fun b => besideGroups b.1 = besideGroups a.1) (fun b w hb => (h b w).trans hb) l rfl

section
variable {c : Nat} {P : State → Prop} (h : StreamKeeps c P) {s : State}
include h

theorem StreamKeeps.ends {t : State} (he : Ends s t) (hs : P s) : P t := h.stream he.stream hs

theorem StreamKeeps.groups {t : State} (hg : besideGroups t = besideGroups s) (hs : P s) : P t := h.stream (stream_of_besideGroups hg) hs

theorem StreamKeeps.modChan {g : Chan → Chan} (hg : ∀ x, Fades x (g x)) (hs : P s) : P (modChan s c g) := h.stream (modChan_stream hg s) hs

theorem chanIdle_keeps (hs : P s) : P (chanIdle c s) := h.modChan (fun _ => ⟨id, id, fun _ => .inl rfl, fun _ => rfl⟩) hs

theorem chanDoomedEnd_keeps (hs : P s) : P (chanDoomedEnd c s) := h.modChan (fun _ => ⟨id, id, fun _ => .inl rfl, fun _ => rfl⟩) hs

theorem emit_unless_keeps {b : Bool} {o : Out} (hs : P s) : P (if b then s else emit s o) := by
  split
  · exact hs
  · exact h.ends (emit_ends s o) hs

theorem chanEnd_keeps (hs : P s) : P (chanEnd c s) := by
  unfold chanEnd
  split
  · exact hs
  · next x _ =>
    have hmark := h.modChan (g := fun x => { discardRunahead x with stopReason := if x.stopReason = 0 then 1 else x.stopReason })
      (fun x => ⟨fun h3 => by simp [h3], (discardRunahead_fades x).loss, (discardRunahead_fades x).abort, (discardRunahead_fades x).idle⟩) hs
    dsimp only
    split
    · exact h.resets (chanDoomedEnd_keeps h (emit_unless_keeps h hmark))
    · exact chanIdle_keeps h (h.ends (endWaiters_ends c _) (emit_unless_keeps h hmark))

theorem settleSlices_keeps (hs : P s) : P (settleSlices c s) := by
  unfold settleSlices
  split
  · exact hs
  · next x _ =>
    dsimp only
    split
    · exact hs
    · have hqueue := fun (q : List SliceQ) (n : Nat) => h.modChan (s := s) (g := fun y => { y with run.queue := y.run.queue.drop q.length, run.emitted := y.run.emitted + n })
        (fun x => ⟨id, id, .inr, id⟩) hs
      have hsent : ∀ {u : State} (l : List SliceQ), P u → P (if isStandby u then u else l.foldl (fun s q => emit s (.slice c q.picture q.slice q.check)) u) := fun l hu => by
        split
        · exact hu
        · exact h.ends (foldl_ends (fun s _ => emit_ends s _) l _) hu
      split
      · exact chanEnd_keeps h (hsent _ (hqueue _ _))
      · exact hsent _ (hqueue _ _)

theorem endStream_keeps (due : Rat) (hs : P s) : P (endStream c due s) := by
  unfold endStream
  split
  · exact hs
  · dsimp only
    split
    · split
      · exact settleSlices_keeps h hs
      · refine settleSlices_keeps h (h.ends (emit_ends _ _) (h.modChan (fun x => ⟨id, id, .inr, id⟩) (h.groups ?_ hs)))
        refine besideGroups_foldl_addGroup (fun a w => ?_) _ _
        split
        · rfl
        · exact besideGroups_addGroup ..
    · exact chanEnd_keeps h hs

theorem chanAbort_keeps (hs : P s) : P (chanAbort c s) := by
  unfold chanAbort
  split
  · exact hs
  · have hdrop := h.groups (foldl_view (fun s w => besideGroups_dropGroups w false s) (chanFlows s c) s) hs
    exact endStream_keeps h _ (h.modChan (fun x => ⟨(discardRunahead_fades x).fault, (discardRunahead_fades x).loss, fun _ => .inr rfl, (discardRunahead_fades x).idle⟩) hdrop)

theorem cancelArmed_keeps (outcome : Nat) (hs : P s) : P (cancelArmed c outcome s) := by
  unfold cancelArmed
  split
  · exact hs
  · split
    · exact chanIdle_keeps h (h.ends (foldl_ends (fun s (d : Cmd) => endCmd_ends d.serial outcome 0 0 s) _ s) hs)
    · exact hs

/-- A stop by a hardware fault (R102). -/
theorem chanStopFor_keeps (hs : P s) : P (chanStopFor c 3 s) := by
  unfold chanStopFor
  split
  · exact hs
  · have hmark := h.modChan (g := fun x => { x with stopReason := 3, lossFlag := true }) (fun x => ⟨fun _ => rfl, fun _ => rfl, .inr, id⟩) hs
    dsimp only
    split
    · exact hs
    · exact cancelArmed_keeps h _ hmark
    · exact chanAbort_keeps h hmark

end

/-- A property that the stream of every channel keeps. -/
theorem settleAllSlices_keeps {P : State → Prop} (h : ∀ c, StreamKeeps c P) {s : State} (hs : P s) : P (settleAllSlices s) :=
  foldl_keeps (fun _ (e : Nat × Chan) ht => settleSlices_keeps (h e.1) ht) _ hs

end Sys2Proof.Architecture

/-! PROOFS. What the end of a function's reset leaves as it is (R424, R425, R428). -/

namespace Sys2Proof.Architecture

open Sys2Proof.Machine Sys2Proof.Laws Sys2Proof.HostAccess

/-- The state without what the end of a reset touches: the command path, channels, surfaces, doorbells not yet seen, check-value units, the interrupt controller and the cores it wakes. -/
def besideResets (s : State) : State := { besideCommands s with chans := [], surfs := [], arrivals := [], crc := [], irq := {}, harbour := {} }

/-- What a function keeps through the end of a reset: its PCIe settings, latches and counters. -/
def lasting (x : FnState) : FnState :=
  { besideQueues x with fences := [], snapK := 0, snapHead := 0, snapTail := 0, snapTide := 0, page0 := [], page1 := [], notified := 0, timers := [],
                        busy := false, resetFlr := false, resetCount := none }

/-- From s to t resets have gone on; commands have ended, and nothing has changed but what a reset ends. -/
structure Resets (s t : State) : Prop where
  rest : besideResets t = besideResets s
  fns : ∀ f, lasting (fnAt t f) = lasting (fnAt s f)
  staged : s.journal.staged ⊆ t.journal.staged

theorem Resets.refl (s : State) : Resets s s := ⟨rfl, fun _ => rfl, List.Subset.refl _⟩

theorem Resets.trans {s t u : State} (h : Resets s t) (g : Resets t u) : Resets s u :=
  ⟨g.rest.trans h.rest, fun f => (g.fns f).trans (h.fns f), List.Subset.trans h.staged g.staged⟩

theorem foldl_resets {α : Type} {g : State → α → State} (h : ∀ s x, Resets s (g s x)) (l : List α) (s : State) : Resets s (l.foldl g s) :=
  foldl_keeps (P := Resets s) (fun t x ht => ht.trans (h t x)) l (.refl s)

theorem Ends.resets {s t : State} (h : Ends s t) : Resets s t where
  rest := (congrArg (fun s => { s with chans := [], surfs := [], arrivals := [], crc := [], irq := {}, harbour := {} }) h.rest :)
  fns f := (congrArg lasting (h.fns f) :)
  staged := h.staged

theorem modFn_resets (s : State) (f : Nat) {g : FnState → FnState} (h : ∀ x, lasting (g x) = lasting x) : Resets s (modFn s f g) :=
  ⟨rfl, fnAt_setFn_relates (P := fun x y => lasting y = lasting x) (h _) fun _ => rfl, List.Subset.refl _⟩

theorem irqSettle_resets (old s : State) : Resets s (irqSettle old s) := by
  refine ⟨?_, fun f => ?_, ?_⟩
  · obtain ⟨_, _, _, _, h, _⟩ := irqSettle_cases old s
    rw [h]; rfl
  · obtain ⟨n, h⟩ := fnAt_irqSettle old s f
    rw [h]; rfl
  · rw [irqSettle_journal]; exact List.Subset.refl _

theorem srcs_resets (s : State) (m : FMap Src) : Resets s { s with irq.srcs := m } := ⟨rfl, fun _ => rfl, List.Subset.refl _⟩

theorem irqResetFn_resets (f : Nat) (s : State) : Resets s (irqResetFn f s) := by
  unfold irqResetFn irqDo
  dsimp only
  refine Resets.trans ?_ (irqSettle_resets s _)
  refine Resets.trans ?_ (modFn_resets _ f ?_)
  · exact srcs_resets s _
  · exact fun _ => rfl

theorem resetCommand_ends (f : Nat) (flr : Bool) (s : State) (c : Cmd) : Ends s (resetCommand f flr s c) := by
  unfold resetCommand
  split
  · dsimp only
    split
    · exact (journalAdd_ends ..).trans (setFlow_ends ..)
    · exact journalAdd_ends ..
  · exact endCmd_ends ..

theorem resetCommands_resets (f : Nat) (s : State) : Resets s (resetCommands f s) := by
  unfold resetCommands
  dsimp only
  refine (foldl_ends (resetCommand_ends f (fnAt s f).resetFlr) _ s).resets.trans (modFn_resets _ f ?_)
  exact fun _ => rfl

theorem journalHeld_ends (f : Nat) (s : State) (h : HeldRec) : Ends s (journalHeld f s h) := by
  unfold journalHeld
  split
  · exact .refl s
  · exact journalAdd_ends ..

theorem objects_resets (s : State) (c : FMap Chan) (x : FMap Surface) (a : FMap (List Nat)) (u : FMap CrcUnit) :
    Resets s { s with chans := c, surfs := x, arrivals := a, crc := u } := ⟨rfl, fun _ => rfl, List.Subset.refl _⟩

theorem resetFinish_resets (f : Nat) (s : State) : Resets s (resetFinish f s) := by
  unfold resetFinish
  dsimp only
  refine Resets.trans ?_ (foldl_ends (fun s (e : Nat × Bool) => completeCmd_ends ..) _ _).resets
  refine Resets.trans ?_ (modFn_resets _ f ?_)
  · refine Resets.trans ?_ (objects_resets _ _ _ _ _)
    exact (foldl_ends (journalHeld_ends f) _ s).resets.trans (irqResetFn_resets f _)
  · exact fun _ => rfl

theorem settleReset_resets (s : State) (f : Nat) : Resets s (settleReset s f) := by
  unfold settleReset
  split
  · exact .refl s
  · refine Resets.trans (t := if (fnAt s f).resetCount.isNone then resetCommands f s else s) ?_ ?_
    · split
      · exact resetCommands_resets f s
      · exact .refl s
    · dsimp only
      generalize (if (fnAt s f).resetCount.isNone then resetCommands f s else s) = t
      split
      · exact resetFinish_resets f t
      · exact .refl t

theorem settleResets_resets (s : State) : Resets s (settleResets s) := foldl_resets (fun s (e : Nat × FnState) => settleReset_resets s e.1) _ s

end Sys2Proof.Architecture

/-! PROOFS. Lane tests, eye scans, lanes and ports that fail and return (R31, R315, R317 to R320, R338, R339). -/

namespace Sys2Proof.Architecture

open Sys2Proof.Machine Sys2Proof.Laws Sys2Proof.HostAccess

/-! Lane tests and eye scans (R317, R318). -/

section
variable {q : FlowRef} {b : Bus} {s : State} {c : Cmd} {l : Nat}

/-- A LANE_TEST in range of a test lane, of a pattern that its rate has, runs where no other does. -/
theorem runLaneTest_testLane {ci : CmdIn} (hl : fld ci.p 2 6 0 ≤ 95) (hp : fld ci.p 3 3 0 ≤ 7) (h1 : 1 ≤ word ci.p 4) (h2 : word ci.p 4 ≤ 2 ^ 31) (h3 : fld ci.p 5 1 0 ≠ 3)
    (h4 : fld ci.p 5 1 0 = 2 → word ci.p 6 ≠ 0) (hm : (laneAt s (fld ci.p 2 6 0)).cfg.mode = 5)
    (hhigh : isPam4 (laneAt s (fld ci.p 2 6 0)).cfg = true → 5 ≤ fld ci.p 3 3 0)
    (hlow : isPam4 (laneAt s (fld ci.p 2 6 0)).cfg = false → fld ci.p 3 3 0 ≤ 4 ∨ fld ci.p 3 3 0 = 7) :
    runLaneTest ci s = if laneWaiters s 0x0608 (fld ci.p 2 6 0) = []
      then .pend s (.laneTest (fld ci.p 2 6 0) (s.now + ceilDiv (word ci.p 4 * 2 ^ 20 * 500000) (laneKbps s (fld ci.p 2 6 0)))) 0 0 else refuse s stBadState := by
  have hfits : ¬ ((laneAt s (fld ci.p 2 6 0)).cfg.mode = 5 ∧ ((isPam4 (laneAt s (fld ci.p 2 6 0)).cfg = true ∧ fld ci.p 3 3 0 ≤ 4)
      ∨ ((!isPam4 (laneAt s (fld ci.p 2 6 0)).cfg) = true ∧ (fld ci.p 3 3 0 = 5 ∨ fld ci.p 3 3 0 = 6)))) := by
    rintro ⟨-, ⟨hpam, h⟩ | ⟨hpam, h⟩⟩
    · have := hhigh hpam; omega
    · have := hlow (by simpa using hpam); omega
  unfold runLaneTest
  dsimp only
  rw [if_neg (by omega), if_neg hfits]
  by_cases hw : laneWaiters s 0x0608 (fld ci.p 2 6 0) = [] <;> simp [hm, hw]

/-- A LANE_TEST in range of a lane in another mode is refused. -/
theorem runLaneTest_otherLane {ci : CmdIn} (hl : fld ci.p 2 6 0 ≤ 95) (hp : fld ci.p 3 3 0 ≤ 7) (h1 : 1 ≤ word ci.p 4) (h2 : word ci.p 4 ≤ 2 ^ 31) (h3 : fld ci.p 5 1 0 ≠ 3)
    (h4 : fld ci.p 5 1 0 = 2 → word ci.p 6 ≠ 0) (hm : (laneAt s (fld ci.p 2 6 0)).cfg.mode ≠ 5) : runLaneTest ci s = refuse s stBadState := by
  unfold runLaneTest
  dsimp only
  rw [if_neg (by omega), if_neg (fun h => hm h.1), if_pos (.inl hm)]

/-- The lane command at the front of its flow is due once its time has come. -/
theorem laneDue_front {op t : Nat} {r : List Cmd} (hq : flowCmds s (flowKey q) = c :: r) (hw : c.wait = .laneTest l t) (ho : opcodeOf c.packet = op) :
    laneDue s op q = if t ≤ s.now then some c else none := by
  simp [laneDue, hq, hw, ho]

/-- Every field of an EYE_SCAN is in range, and its lane has the eye it names (Table 11.9). -/
structure ScanInRange (p : Packet) (x : LaneSt) : Prop where
  indirect : indirectOf p = true
  reserved : flag p 6 7 = false
  lane : fld p 6 6 0 ≤ 95
  phases : 1 ≤ fld p 5 5 0 ∧ fld p 5 5 0 ≤ 32
  volts : fld p 5 13 8 ≠ 0
  dwell : 20 ≤ fld p 5 21 16 ∧ fld p 5 21 16 ≤ 40
  eye : fld p 6 9 8 ≤ 2
  block : 4 * (laneUnits p).2.2 ≤ word p 4
  pam4 : fld p 6 9 8 = 0 ∨ (isPam4 x.cfg = true ∧ x.cfg.mode ≠ 2)

/-- A scan in range is refused where the lane receives nothing. -/
def scanBlind (x : LaneSt) : Prop := x.cfg.mode = 0 ∨ x.cfg.mode = 3 ∨ x.fault = true

theorem ScanInRange.pam4_not {p : Packet} {x : LaneSt} (h : ScanInRange p x) : ¬ (fld p 6 9 8 ≠ 0 ∧ x.cfg.mode ≠ 0 ∧ (!(isPam4 x.cfg && x.cfg.mode != 2)) = true) := by
  rintro ⟨hn, -, hx⟩
  obtain h0 | ⟨hp, hm⟩ := h.pam4
  · exact hn h0
  · simp [hp, hm] at hx

theorem runEyeScan_blind {ci : CmdIn} (h : ScanInRange ci.p (laneAt s (fld ci.p 6 6 0))) (hb : scanBlind (laneAt s (fld ci.p 6 6 0))) :
    runEyeScan ci s = refuse s stBadState := by
  have hpam := h.pam4_not
  obtain ⟨hi, h7, hl, ⟨h1, h2⟩, h3, ⟨h4, h5⟩, h6, h8, -⟩ := h
  unfold runEyeScan
  dsimp only
  generalize laneUnits ci.p = u at h8 ⊢
  obtain ⟨_, bits, full⟩ := u
  dsimp only at h8 ⊢
  rw [if_neg (by simp [hi, h7]), if_neg (by omega), if_neg hpam]
  exact if_pos hb

theorem runEyeScan_starts {ci : CmdIn} (h : ScanInRange ci.p (laneAt s (fld ci.p 6 6 0))) (hb : ¬ scanBlind (laneAt s (fld ci.p 6 6 0)))
    (hfree : ((allCmds s).filter (fun e => opcodeOf e.2.packet == 0x0609 && (match e.2.wait with | .laneTest _ _ => true | _ => false))).length < 4) :
    runEyeScan ci s = .pend s (.laneTest (fld ci.p 6 6 0) (s.now + ceilDiv ((laneUnits ci.p).2.2 * (laneUnits ci.p).2.1 * 500000) (laneKbps s (fld ci.p 6 6 0)))) 0 0 := by
  have hpam := h.pam4_not
  obtain ⟨hi, h7, hl, ⟨h1, h2⟩, h3, ⟨h4, h5⟩, h6, h8, -⟩ := h
  unfold runEyeScan
  dsimp only
  generalize laneUnits ci.p = u at h8 ⊢
  obtain ⟨_, bits, full⟩ := u
  dsimp only at h8 ⊢
  rw [if_neg (by simp [hi, h7]), if_neg (by omega), if_neg hpam]
  exact (if_neg hb).trans (if_neg (Nat.not_le.mpr hfree))

/-- An answer in units whose block cannot be written fails the command (R58, R318). -/
theorem settleRes_units_fails {k n : Nat} {bs bytes : List Byte} {f : State → State} {r0 r1 : Nat} (h : findCmd s c.serial = some (k, c)) (ho : blockOpen c b s = false) :
    settleRes c.serial b bs f (.units s bytes n r0 r1) = answerFails c b s := by
  unfold blockOpen at ho
  simp only [settleRes, h]
  rw [if_pos (by cases hf : c.ferry <;> simp_all [imp_iff_not_or])]
  rfl

theorem settleRes_units_open {k n : Nat} {bs bytes : List Byte} {f : State → State} {r0 r1 : Nat} (h : findCmd s c.serial = some (k, c)) (ho : blockOpen c b s = true) :
    settleRes c.serial b bs f (.units s bytes n r0 r1)
      = completeCmd c.serial stOk n r0 r1 bytes b.recordOk (if c.ferry.isSome then s else emit s (.answer c.fn.val (dword c.packet 2) bytes)) := by
  unfold blockOpen at ho
  simp only [settleRes, h]
  rw [if_neg (by cases hf : c.ferry <;> simp_all)]

theorem eyeScanDone_due {counts : List Word} {t : Nat} {r : List Cmd} (hq : flowCmds s (flowKey q) = c :: r) (hw : c.wait = .laneTest l t)
    (ho : opcodeOf c.packet = 0x0609) (ht : t ≤ s.now) :
    eyeScanDone q counts b s = settleRes c.serial b [] (fun s => s) (.units s ((List.range (laneUnits c.packet).2.2).flatMap (fun i => le 4 ((counts.getD i 0).toNat))) (laneUnits c.packet).2.2 0 0) := by
  unfold eyeScanDone
  rw [laneDue_front hq hw ho, if_pos ht]

theorem eyeScanDone_early {counts : List Word} {t : Nat} {r : List Cmd} (hq : flowCmds s (flowKey q) = c :: r) (hw : c.wait = .laneTest l t)
    (ho : opcodeOf c.packet = 0x0609) (ht : s.now < t) : eyeScanDone q counts b s = s := by
  unfold eyeScanDone
  rw [laneDue_front hq hw ho, if_neg (Nat.not_le.mpr ht)]

end

/-! Ports and their lanes. -/

theorem laneAt_modLane_ne {s : State} {l j : Nat} {g : LaneSt → LaneSt} (h : l ≠ j) : laneAt (modLane s l g) j = laneAt s j := by
  simp [laneAt, modLane, setLane, fmap_getD_set_ne h]

theorem portAt_modPort_ne {s : State} {n j : Nat} {g : PortSt → PortSt} (h : n ≠ j) : portAt (modPort s n g) j = portAt s j := by
  simp [portAt, modPort, setPort, fmap_getD_set_ne h]

/-- What a port that goes down leaves as it is. -/
def beyondPorts (s : State) : FMap LaneSt × FMap FlowIn × FMap Output × FMap Decoder := (s.net.lanes, s.net.flowsIn, s.outs, s.decs)

/-- The same with the ports themselves. -/
def links (s : State) : FMap PortSt × FMap LaneSt × FMap FlowIn × FMap Output × FMap Decoder := (s.net.ports, beyondPorts s)

theorem Ends.links {s t : State} (h : Ends s t) : links t = links s := (congrArg Architecture.links h.rest :)

/-- Streams that end, and resets that go on with them, leave lanes, ports, input flows, outputs and decoders. -/
theorem links_streamKeeps (c : Nat) (s : State) : StreamKeeps c (fun t => links t = links s) where
  stream h hs := (congrArg links h.rest : _).trans hs
  resets {t} ht := (congrArg links (settleResets_resets t).rest : _).trans ht

theorem links_settleAllSlices (s : State) : links (settleAllSlices s) = links s := settleAllSlices_keeps (fun c => links_streamKeeps c s) rfl

/-- A port as it goes down: the frame on the wire is cut off (R320). -/
def downPort (fecOnly : Bool) (now : Nat) (x : PortSt) : PortSt :=
  { x with down := true, fecDown := fecOnly, linkDowns := inc32 x.linkDowns, busyUntil := now, sending := none, fwQueue := [] }

/-- An enabled port that is up goes down, and beside the streams it carried nothing else changes (R320, R339). -/
theorem links_portGoDown {s : State} {n : Nat} (fecOnly : Bool) (hs : (portAt s n).cfg.speed ≠ 0) (hu : (portAt s n).down = false) :
    links (portGoDown n fecOnly s) = links (modPort s n (downPort fecOnly s.now)) := by
  unfold portGoDown
  dsimp only
  rw [if_neg hs, if_neg (by simp [hu])]
  refine (links_settleAllSlices _).trans ?_
  refine (congrArg links ((besideGroups_reapFlows _).trans (foldl_view (fun s (e : Nat × FlowOut) => ?_) _ _)) :)
  split
  · rfl
  · exact foldl_view (fun s b => (besideGroups_countDown ..).trans (besideGroups_dropCopy ..)) _ s

/-- A port that goes down, or has nothing to lose, leaves everything beyond the ports. -/
theorem beyondPorts_portGoDown (n : Nat) (fecOnly : Bool) (s : State) : beyondPorts (portGoDown n fecOnly s) = beyondPorts s := by
  by_cases hs : (portAt s n).cfg.speed = 0
  · rw [portGoDown, if_pos hs]
  · by_cases hu : (portAt s n).down = true
    · unfold portGoDown
      dsimp only
      rw [if_neg hs, if_pos hu]
      split <;> rfl
    · exact congrArg Prod.snd (links_portGoDown fecOnly hs (by simpa using hu))

/-! A lane fails (R319). -/

section
variable {s : State} {l : Nat} {k : LaneFaultCause} {p : Bool}

theorem laneFail_other (h : causeFits (laneAt s l).cfg.mode k = false ∨ causeMet k = false) : laneFail l k p s = s := by
  unfold laneFail
  exact if_pos (by obtain h | h := h <;> simp [h])

/-- A lane that loses lock. -/
def losesLock (k : LaneFaultCause) (x : LaneSt) : LaneSt := { x with refLost := x.refLost || k == .referenceClock, highBer := x.highBer || k == .highBer }

/-- It is marked as faulted and counts the fault (Table 11.8). -/
def markFaulted (x : LaneSt) : LaneSt := { x with fault := true, faults := satInc x.faults 65535 }

theorem laneFail_again (hf : causeFits (laneAt s l).cfg.mode k = true) (hm : causeMet k = true) (h : (laneAt s l).fault = true) :
    laneFail l k p s = modLane s l (losesLock k) := by
  unfold laneFail
  dsimp only
  rw [if_neg (by simp [hf, hm]), if_pos h]
  rfl

theorem beyondPorts_modPort (s : State) (n : Nat) (g : PortSt → PortSt) : beyondPorts (modPort s n g) = beyondPorts s := rfl

/-- The frames partly received on a lane are bad ones of its ports (log 175). -/
theorem beyondPorts_badFrames (b : Bool) (ns : List Nat) (s : State) :
    beyondPorts (if b then ns.foldl (fun s n => modPort s n (fun x => { x with rxBad := inc32 x.rxBad })) s else s) = beyondPorts s := by
  split
  · exact foldl_view (fun s n => beyondPorts_modPort s n _) ns s
  · rfl

/-- Beyond the ports, a fault changes its lane alone. -/
theorem beyondPorts_laneFail (hf : causeFits (laneAt s l).cfg.mode k = true) (hm : causeMet k = true) (h : (laneAt s l).fault = false) :
    beyondPorts (laneFail l k p s) = beyondPorts (modLane (modLane s l (losesLock k)) l markFaulted) := by
  unfold laneFail
  dsimp only
  rw [if_neg (by simp [hf, hm]), if_neg (by simp [h])]
  refine (foldl_view (fun s n => beyondPorts_portGoDown n false s) _ _).trans ((beyondPorts_badFrames ..).trans ?_)
  exact congrArg Prod.snd ((foldl_ends (fun s (d : Cmd) => endCmd_ends d.serial stFault 0 0 s) _ _).links.trans (journalAdd_ends ..).links)

/-- A fault marks its lane and counts once; the other lanes, and all that is not lane or port, stay (R319). -/
theorem laneFail_marks (hf : causeFits (laneAt s l).cfg.mode k = true) (hm : causeMet k = true) :
    (laneAt (laneFail l k p s) l).fault = true ∧
      (laneAt (laneFail l k p s) l).faults = (if (laneAt s l).fault then (laneAt s l).faults else satInc (laneAt s l).faults 65535) ∧
      (laneAt (laneFail l k p s) l).highBer = ((laneAt s l).highBer || k == .highBer) ∧ (laneAt (laneFail l k p s) l).cfg = (laneAt s l).cfg ∧
      (∀ j, j ≠ l → laneAt (laneFail l k p s) j = laneAt s j) ∧ (laneFail l k p s).net.flowsIn = s.net.flowsIn ∧ (laneFail l k p s).outs = s.outs ∧
      (laneFail l k p s).decs = s.decs := by
  by_cases h : (laneAt s l).fault = true
  · rw [laneFail_again hf hm h, laneAt_modLane, if_pos h]
    exact ⟨h, rfl, rfl, rfl, fun j hj => laneAt_modLane_ne hj.symm, rfl, rfl, rfl⟩
  · have hb := beyondPorts_laneFail (p := p) hf hm (by simpa using h)
    have hlane : ∀ j, laneAt (laneFail l k p s) j = laneAt (modLane (modLane s l (losesLock k)) l markFaulted) j := fun j => (congrArg (fun b => FMap.getD b.1 j {}) hb :)
    rw [hlane, laneAt_modLane, laneAt_modLane, if_neg h]
    refine ⟨rfl, rfl, rfl, rfl, fun j hj => ?_, (congrArg (fun b => b.2.1) hb :), (congrArg (fun b => b.2.2.1) hb :), (congrArg (fun b => b.2.2.2) hb :)⟩
    rw [hlane, laneAt_modLane_ne hj.symm, laneAt_modLane_ne hj.symm]

end

/-! A port goes down and comes up (R320). -/

section
variable {s : State} {n u : Nat} {r : Bool}

/-- A port with the remote fault received on it (Table 11.11). -/
def remotePort (r : Bool) (x : PortSt) : PortSt := { x with remoteFault := r }

/-- A port that has counted u uncorrectable codewords. -/
def uncorrectable (u : Nat) (x : PortSt) : PortSt := { x with fecUncorr := (x.fecUncorr + u) % 2 ^ 32 }

@[simp] theorem remotePort_cfg (r : Bool) (x : PortSt) : (remotePort r x).cfg = x.cfg := rfl

theorem speed_of_portLaneFault (h : portLaneFault s n = true) : (portAt s n).cfg.speed ≠ 0 := by
  intro h0
  simp [portLaneFault, portLanes, h0] at h

theorem remoteSeen_enabled (h : (portAt s n).cfg.speed ≠ 0) : remoteSeen n r s = modPort s n (remotePort r) := if_neg h

/-- A change of a port that leaves its configuration leaves the state of its lanes. -/
theorem portLaneFault_modPort {g : PortSt → PortSt} (hg : (g (portAt s n)).cfg = (portAt s n).cfg) : portLaneFault (modPort s n g) n = portLaneFault s n := by
  unfold portLaneFault
  rw [portAt_modPort, hg]
  rfl

theorem portFec_modPort (c : PortCfg) (g : PortSt → PortSt) : portFec (modPort s n g) c = portFec s c := rfl

theorem portFail_laneFault (hs : (portAt s n).cfg.speed ≠ 0) (hl : portLaneFault s n = true) :
    portFail n u r s = portGoDown n false (modPort s n (remotePort r)) := by
  unfold portFail
  rw [remoteSeen_enabled hs]
  exact if_pos ((portLaneFault_modPort rfl).trans hl)

theorem portFail_noFec (hs : (portAt s n).cfg.speed ≠ 0) (hl : portLaneFault s n = false) (hf : portFec s (portAt s n).cfg = false) :
    portFail n u r s = modPort s n (remotePort r) := by
  unfold portFail
  rw [remoteSeen_enabled hs]
  dsimp only
  rw [portLaneFault_modPort rfl, hl, portFec_modPort, portAt_modPort, remotePort_cfg, hf]
  rfl

theorem portFail_fec (hs : (portAt s n).cfg.speed ≠ 0) (hl : portLaneFault s n = false) (hf : portFec s (portAt s n).cfg = true) :
    portFail n u r s = (if 10 < u then portGoDown n true else id) (modPort (modPort s n (remotePort r)) n (uncorrectable u)) := by
  unfold portFail
  rw [remoteSeen_enabled hs]
  dsimp only
  rw [portLaneFault_modPort rfl, hl, portFec_modPort, portAt_modPort, remotePort_cfg, hf, if_neg Bool.false_ne_true, if_pos rfl]
  split <;> rfl

/-- What a port shows once it has gone down from the state u, whose port it was. -/
theorem portGoDown_port {v : State} {fecOnly : Bool} (hs : (portAt v n).cfg.speed ≠ 0) (hd : (portAt v n).down = false) :
    portAt (portGoDown n fecOnly v) n = downPort fecOnly v.now (portAt v n) ∧ (∀ j, j ≠ n → portAt (portGoDown n fecOnly v) j = portAt v j) ∧
      (portGoDown n fecOnly v).net.flowsIn = v.net.flowsIn := by
  have hl := links_portGoDown fecOnly hs hd
  have hport : ∀ j, portAt (portGoDown n fecOnly v) j = portAt (modPort v n (downPort fecOnly v.now)) j := fun j => (congrArg (fun b => FMap.getD b.1 j {}) hl :)
  refine ⟨(hport n).trans (portAt_modPort ..), fun j hj => (hport j).trans (portAt_modPort_ne hj.symm), (congrArg (fun b => b.2.2.1) hl :)⟩

/-- An enabled port that is up, with a faulted lane or more than 10 uncorrectable codewords, goes down (R320). -/
theorem portFail_goesDown (hs : (portAt s n).cfg.speed ≠ 0)
    (h : portLaneFault s n = true ∨ (portFec s (portAt s n).cfg = true ∧ 10 < u)) :
    ∃ fecOnly v, portFail n u r s = portGoDown n fecOnly v ∧ v.now = s.now ∧ (∃ k, portAt v n = { portAt s n with remoteFault := r, fecUncorr := k }) ∧
      (∀ j, j ≠ n → portAt v j = portAt s j) ∧ v.net.flowsIn = s.net.flowsIn := by
  by_cases hl : portLaneFault s n = true
  · exact ⟨false, modPort s n (remotePort r), portFail_laneFault hs hl, rfl, ⟨_, portAt_modPort ..⟩, fun j hj => portAt_modPort_ne hj.symm, rfl⟩
  · obtain hl' | ⟨hf, hu⟩ := h
    · exact absurd hl' hl
    · refine ⟨true, modPort (modPort s n (remotePort r)) n (uncorrectable u), (portFail_fec hs (by simpa using hl) hf).trans (by rw [if_pos hu]), rfl, ⟨((portAt s n).fecUncorr + u) % 2 ^ 32, ?_⟩, fun j hj => ?_, rfl⟩
      · rw [portAt_modPort, portAt_modPort]; rfl
      · rw [portAt_modPort_ne hj.symm, portAt_modPort_ne hj.symm]

theorem portComeUp_faulted (hl : portLaneFault s n = true) : portComeUp n r s = modPort s n (remotePort r) := by
  unfold portComeUp
  rw [remoteSeen_enabled (speed_of_portLaneFault hl)]
  exact if_pos ((portLaneFault_modPort rfl).trans hl)

/-- The remote fault seen changes its port alone, and not its configuration. -/
theorem remoteSeen_keeps : (portAt (remoteSeen n r s) n).cfg = (portAt s n).cfg ∧ (∀ j, j ≠ n → portAt (remoteSeen n r s) j = portAt s j) ∧
    portLaneFault (remoteSeen n r s) n = portLaneFault s n ∧ (remoteSeen n r s).net.flowsOut = s.net.flowsOut ∧ (remoteSeen n r s).net.flowsIn = s.net.flowsIn := by
  by_cases h : (portAt s n).cfg.speed = 0
  · rw [remoteSeen, if_pos h]; exact ⟨rfl, fun _ _ => rfl, rfl, rfl, rfl⟩
  · rw [remoteSeen_enabled h]
    exact ⟨by rw [portAt_modPort]; rfl, fun j hj => portAt_modPort_ne hj.symm, portLaneFault_modPort rfl, rfl, rfl⟩

/-- A port whose lanes are all locked comes up (R320). -/
theorem portComeUp_locked (hl : portLaneFault s n = false) :
    (portAt (portComeUp n r s) n).down = false ∧ (portAt (portComeUp n r s) n).fecDown = false ∧ (portAt (portComeUp n r s) n).cfg = (portAt s n).cfg ∧
      (∀ j, j ≠ n → portAt (portComeUp n r s) j = portAt s j) ∧ (portComeUp n r s).net.flowsOut = s.net.flowsOut ∧ (portComeUp n r s).net.flowsIn = s.net.flowsIn := by
  obtain ⟨hcfg, hport, hfault, hout, hin⟩ := remoteSeen_keeps (s := s) (n := n) (r := r)
  generalize hw : remoteSeen n r s = w at hcfg hport hfault hout hin
  have hup : portComeUp n r s = modPort (if (portAt w n).down then emit w (.remoteFault n false) else w) n (fun x => { x with down := false, fecDown := false }) := by
    unfold portComeUp
    rw [hw]
    exact if_neg (by simp [hfault, hl])
  rw [hup, portAt_modPort]
  refine ⟨rfl, rfl, ?_, fun j hj => ?_, ?_, ?_⟩
  · split <;> exact hcfg
  · rw [portAt_modPort_ne hj.symm]; split <;> exact hport j hj
  · split <;> exact hout
  · split <;> exact hin

end

/-- Settles O29, row by row: the two lane commands by their meanings, faults and ports by what they leave beside the streams that end with them. -/
theorem lanesAndPortsFailAndReturn : Obligations.LanesAndPortsFailAndReturn := by
  unfold Obligations.LanesAndPortsFailAndReturn
  refine ⟨?laneTest, ?laneTestDone, ?eyeScan, ?eyeScanDone, ?laneFault, ?laneRelock, ?portDown, ?portOff, ?portUp⟩
  case laneTest =>
    rintro q b s c l hc rfl hl hp h1 h2 h3 h4
    refine ⟨fun hm hhigh hlow => congrArg Host.Outcome.next ?_, fun hm => congrArg Host.Outcome.next ?_⟩
    · have hrun := runLaneTest_testLane (s := s) (ci := cmdIn q c []) hl hp h1 h2 h3 h4 hm hhigh hlow
      by_cases hw : laneWaiters s 0x0608 (fld c.packet 2 6 0) = []
      · rw [if_pos hw]
        exact startRow_pend (m := meanLaneTest) hc rfl (hrun.trans (if_pos hw))
      · rw [if_neg hw]
        exact startRow_done (m := meanLaneTest) hc rfl (hrun.trans (if_neg hw))
    · exact startRow_done (m := meanLaneTest) hc rfl (runLaneTest_otherLane (ci := cmdIn q c []) hl hp h1 h2 h3 h4 hm)
  case laneTestDone =>
    rintro dt q low high s c r l t k ha hq hw ho rfl
    refine congrArg Host.Outcome.next ((actAfter_acting dt _ ha).trans ?_)
    unfold laneTestDone
    rw [laneDue_front (s := advance dt s) hq hw ho]
    by_cases ht : t ≤ s.now + dt
    · rw [if_pos (show t ≤ (advance dt s).now from ht), if_pos ht]; rfl
    · rw [if_neg (show ¬ t ≤ (advance dt s).now from ht), if_neg ht]
  case eyeScan =>
    rintro q b s c l hc hi h7 rfl hl h1 h2 h3 h4 h5 h6 h8 h9
    have hscan : ScanInRange (cmdIn q c []).p (laneAt s (fld (cmdIn q c []).p 6 6 0)) := ⟨hi, h7, hl, ⟨h1, h2⟩, h3, ⟨h4, h5⟩, h6, h8, h9⟩
    refine ⟨fun hm0 hm3 hfault hfree => congrArg Host.Outcome.next ?_, fun hb => congrArg Host.Outcome.next ?_⟩
    · refine startRow_pend (m := meanEyeScan) hc rfl (runEyeScan_starts hscan ?_ hfree)
      rintro (h | h | h)
      · exact hm0 h
      · exact hm3 h
      · exact Bool.false_ne_true (hfault.symm.trans h)
    · exact startRow_done (m := meanEyeScan) hc rfl (runEyeScan_blind hscan hb)
  case eyeScanDone =>
    intro dt q counts b s c r l t ha hq hf hw ho
    have hexec : exec (.eyeScanDone dt q counts b) s = .next (eyeScanDone q counts b (advance dt s)) := congrArg Host.Outcome.next (actAfter_acting dt _ ha)
    rw [hexec]
    refine ⟨fun ht => ?_, fun ht hb => ?_, fun ht hb => ?_⟩
    · rw [eyeScanDone_early (s := advance dt s) hq hw ho ht]
    · rw [eyeScanDone_due (s := advance dt s) hq hw ho ht, settleRes_units_open (s := advance dt s) hf hb]
    · rw [eyeScanDone_due (s := advance dt s) hq hw ho ht, settleRes_units_fails (s := advance dt s) hf hb]
  case laneFault =>
    intro l k p s ha
    have hexec : exec (.laneFault l ⟨k, p⟩) s = .next (laneFail l.val k p s) := congrArg Host.Outcome.next (act_acting _ ha)
    rw [hexec]
    exact ⟨fun h => by rw [laneFail_other h], fun hf hm => ⟨_, rfl, laneFail_marks hf hm⟩⟩
  case laneRelock =>
    intro l n s ha
    refine congrArg Host.Outcome.next ((act_acting _ ha).trans ?_)
    rfl
  case portDown =>
    intro n u r s ha hs hd
    have hexec : exec (.portDown n ⟨u, r⟩) s = .next (portFail n.val u r s) := congrArg Host.Outcome.next (act_acting _ ha)
    rw [hexec]
    refine ⟨fun h => ⟨_, rfl, ?_⟩, fun hl hf => by rw [portFail_noFec hs hl hf]; rfl, fun hl hf hu => ⟨_, rfl, ?_⟩⟩
    · obtain ⟨fecOnly, v, hv, hnow, ⟨k, hp⟩, hports, hin⟩ := portFail_goesDown (r := r) hs h
      obtain ⟨hport, hother, hflows⟩ := portGoDown_port (n := n.val) (v := v) (fecOnly := fecOnly) (by rw [hp]; exact hs) (by rw [hp]; exact hd)
      rw [hv, hport, hp, hnow]
      exact ⟨rfl, rfl, rfl, rfl, rfl, rfl, fun j hj => by rw [hother j hj, hports j hj]; exact ⟨rfl, rfl⟩, hflows.trans hin⟩
    · rw [portFail_fec hs hl hf, if_neg (Nat.not_lt.mpr hu), id, portAt_modPort, portAt_modPort]
      exact ⟨hd, rfl, rfl⟩
  case portOff =>
    intro n u r s ha hs
    refine congrArg Host.Outcome.next ((act_acting _ ha).trans ?_)
    have hl : portLaneFault s n.val = false := by
      cases h : portLaneFault s n.val with
      | false => rfl
      | true => exact absurd hs (speed_of_portLaneFault h)
    simp [portFail, remoteSeen, hs, hl, portFec]
  case portUp =>
    intro n r s ha
    have hexec : exec (.portUp ⟨n, r⟩) s = .next (portComeUp n.val r s) := congrArg Host.Outcome.next (act_acting _ ha)
    rw [hexec]
    exact ⟨fun hl => by rw [portComeUp_faulted hl]; rfl, fun hl => ⟨_, rfl, portComeUp_locked hl⟩⟩

end Sys2Proof.Architecture

/-! PROOFS. The start of a picture (R19, R84, R90, R117, R125 to R127, R412). -/

namespace Sys2Proof.Architecture

open Sys2Proof.Machine Sys2Proof.Laws Sys2Proof.HostAccess

/-! What goes with the start of a picture beside its channel. -/

/-- Channels, outputs, surfaces and the Isles out of service. -/
def coded (s : State) : FMap Chan × FMap Output × FMap Surface × BitVec 64 := (s.chans, s.outs, s.surfs, s.units.isleOut)

theorem Ends.coded {s t : State} (h : Ends s t) : coded t = coded s := (congrArg Architecture.coded h.rest :)
theorem coded_of_besideGroups {s t : State} (h : besideGroups t = besideGroups s) : coded t = coded s := (congrArg coded h :)

theorem coded_cwSend (type : Nat) (p : List Byte) (s : State) : coded (cwSend type p s) = coded s := coded_of_besideGroups (besideGroups_cwSend ..)

theorem coded_sendBulk (kind buffer object : Nat) (d : List Byte) (s : State) : coded (sendBulk kind buffer object d s) = coded s :=
  foldl_view (fun s _ => coded_cwSend _ _ s) _ s

theorem coded_sendReplay (f kind boundary r0 r1 : Nat) (p : List (Nat × Nat)) (s : State) : coded (sendReplay f kind boundary r0 r1 p s) = coded s :=
  (coded_cwSend ..).trans rfl

theorem coded_sendInput (e : InputEntry) (s : State) : coded (sendInput e s) = coded s := by
  unfold sendInput
  split
  · exact coded_cwSend ..
  · rfl

theorem coded_setPairState (st : PairState) (s : State) : coded (setPairState st s) = coded s := by
  unfold setPairState
  split
  · rfl
  · exact (postEvent_ends ..).coded.trans rfl

theorem coded_settleJoin (s : State) : coded (settleJoin s) = coded s := by
  unfold settleJoin
  split
  · exact (foldl_ends (fun s (e : Nat × Cmd) => finishCmd_ends e.2.serial 0 0 0 s) _ _).coded.trans (coded_setPairState ..)
  · rfl

theorem coded_alignFlows (which : FlowOutCfg → Bool) (s : State) : coded (alignFlows which s) = coded s := by
  refine foldl_view (fun s e => ?_) _ s
  split
  · exact foldl_view (fun s b => coded_cwSend _ _ s) _ s
  · rfl

/-- A channel that joins changes no object. -/
theorem coded_joined (c : Nat) (s : State) : coded (joined 1 c s) = coded s := by
  unfold joined
  split
  · refine (coded_settleJoin _).trans ?_
    dsimp only
    rw [if_neg (by decide : ¬ 1 = 2)]
    split
    · exact (coded_alignFlows ..).trans rfl
    · rfl
  · rfl

theorem coded_joinChannel (c n : Nat) (idr : Bool) (f : Nat) (d : List Byte) (s : State) : coded (joinChannel c n idr f d s) = coded s := by
  unfold joinChannel
  split
  · refine (coded_joined ..).trans ((coded_sendReplay ..).trans ((coded_sendReplay ..).trans ((coded_sendBulk ..).trans ?_)))
    exact foldl_view (fun s _ => coded_sendReplay ..) _ s
  · rfl

/-- Isles out of service are replaced in the allocation of one channel, and nothing else changes (R422). -/
theorem replaceIsles_isles {s : State} {c : Nat} {x : Chan} (h : chanAt s c = some x) :
    ∃ l, chanAt (replaceIsles s c) c = some { x with run.isles := l } ∧ (∀ d, d ≠ c → chanAt (replaceIsles s c) d = chanAt s d) ∧
      (replaceIsles s c).outs = s.outs ∧ (replaceIsles s c).surfs = s.surfs ∧ (replaceIsles s c).units = s.units := by
  unfold replaceIsles
  rw [h]
  refine foldl_keeps (P := fun t => ∃ l, chanAt t c = some { x with run.isles := l } ∧ (∀ d, d ≠ c → chanAt t d = chanAt s d) ∧ t.outs = s.outs ∧ t.surfs = s.surfs ∧ t.units = s.units)
    (fun t i ht => ?_) _ ⟨x.run.isles, h, fun _ _ => rfl, rfl, rfl, rfl⟩
  obtain ⟨l, hc, hd, ho, hs, hu⟩ := ht
  split
  · exact ⟨l, hc, hd, ho, hs, hu⟩
  · split
    · exact ⟨_, by rw [chanAt_modChan, hc]; rfl, fun d hn => by rw [chanAt_modChan_ne hn.symm, hd d hn], ho, hs, hu⟩
    · exact ⟨l, hc, hd, ho, hs, hu⟩

end Sys2Proof.Architecture

/-! PROOFS. What a picture start sets in its channel (R19, R84, R90, R125 to R127). -/

namespace Sys2Proof.Architecture

open Sys2Proof.Machine Sys2Proof.Laws

theorem chanAt_setChan_ne {s : State} {c d : Nat} {x : Chan} (h : c ≠ d) : chanAt (setChan s c x) d = chanAt s d := fmap_get?_set_ne h

/-- From u to t channel c has become x, on whichever Isles, and no other channel, output or surface has changed. -/
structure Becomes (c : Nat) (x : Chan) (u t : State) : Prop where
  chan : ∃ l, chanAt t c = some { x with run.isles := l }
  others : ∀ d, d ≠ c → chanAt t d = chanAt u d
  outs : t.outs = u.outs
  surfs : t.surfs = u.surfs
  isleOut : t.units.isleOut = u.units.isleOut

theorem coded_pair (s : State) (p : Pair) : coded { s with pair := p } = coded s := rfl

section
variable {c : Nat} {x : Chan} {u s t : State}

theorem setChan_becomes (c : Nat) (x : Chan) (u : State) : Becomes c x u (setChan u c x) :=
  ⟨⟨x.run.isles, chanAt_setChan u c x⟩, fun _ hd => chanAt_setChan_ne hd.symm, rfl, rfl, rfl⟩

theorem Becomes.coded (h : Becomes c x u s) (ht : coded t = coded s) : Becomes c x u t := by
  have hchan : ∀ d, chanAt t d = chanAt s d := fun d => (congrArg (fun v => FMap.get? v.1 d) ht :)
  obtain ⟨l, hl⟩ := h.chan
  exact ⟨⟨l, (hchan c).trans hl⟩, fun d hd => (hchan d).trans (h.others d hd), (congrArg (fun v => v.2.1) ht : t.outs = s.outs).trans h.outs,
    (congrArg (fun v => v.2.2.1) ht : t.surfs = s.surfs).trans h.surfs, (congrArg (fun v => v.2.2.2) ht : t.units.isleOut = s.units.isleOut).trans h.isleOut⟩

theorem Becomes.coded_if {p : Prop} [Decidable p] (h : Becomes c x u s) (ht : Architecture.coded t = Architecture.coded s) : Becomes c x u (if p then t else s) := by
  split
  · exact h.coded ht
  · exact h

theorem Becomes.replaceIsles (h : Becomes c x u s) : Becomes c x u (replaceIsles s c) := by
  obtain ⟨l, hl⟩ := h.chan
  obtain ⟨m, hm, hd, ho, hs, hu⟩ := replaceIsles_isles hl
  exact ⟨⟨m, hm⟩, fun d hn => (hd d hn).trans (h.others d hn), ho.trans h.outs, hs.trans h.surfs, (congrArg Units.isleOut hu).trans h.isleOut⟩

/-- While no Isle is out of service no channel is stopped for want of one. -/
theorem Becomes.noStop {l : List Nat} (h : Becomes c x u s) (h0 : u.units.isleOut = 0) : Becomes c x u (if l.any (fun i => s.units.isleOut.getLsbD i) then t else s) := by
  rw [if_neg (by simp [h.isleOut, h0])]
  exact h

end

/-! The kind of a picture (R84, R127). -/

theorem strongerKey_idr_left (k : Option KeyKind) : strongerKey (some .idr) k = some .idr := by
  rcases k with _ | _ | _ | _ <;> rfl

theorem strongerKey_idr_right (k : Option KeyKind) : strongerKey k (some .idr) = some .idr := by
  rcases k with _ | _ | _ | _ <;> rfl

/-- A first picture stays an IRAP, whatever else is asked (R84). -/
theorem strongerKey_irap {k : KeyKind} (h : k = .idr ∨ k = .cra) (j : Option KeyKind) : strongerKey (some k) j = some .idr ∨ strongerKey (some k) j = some .cra := by
  obtain rfl | rfl := h
  · exact .inl (strongerKey_idr_left j)
  · rcases j with _ | _ | _ | _ <;> decide

/-- The changes that wait for a picture change parameters and the delay request alone (R19). -/
theorem applyChanges_chan (s : State) (c n : Nat) (x : Chan) : ∃ k d, (applyChanges s c n x).1 = { x with coding := k, delayReq := d } := by
  refine foldl_keeps (P := fun y => ∃ k d, y = { x with coding := k, delayReq := d }) (fun y e hy => ?_) _ ⟨x.coding, x.delayReq, rfl⟩
  obtain ⟨k, d, rfl⟩ := hy
  dsimp only
  split
  · exact ⟨_, _, rfl⟩
  · exact ⟨_, _, rfl⟩

/-- A picture that starts sets its channel (R19): its number and instant, the settings that waited for it, its kind, its delay, its source; nothing else changes but what is sent and recorded. -/
theorem startPicture_starts {c n : Nat} {x z : Chan} {t0 : Instant} {m : Option Nat} {i : PicIn} {u : State} {key : Option KeyKind} {rate : Bool} {l : List Cmd} {kz : Ctl} {rc : RcCfg}
    (h0 : u.units.isleOut = 0) (hn : n = x.run.nextPic) (ha : applyChanges u c n x = (z, key, rate, l)) (hk : ctlOf u z = some kz) (hrc : z.coding.rc = some rc) :
    ∃ y q, chanAt (startPicture c x t0 m i u) c = some y ∧ y.run.nextPic = n + 1 ∧ y.run.lastTref = t0 ∧ y.coding = z.coding ∧ y.delayReq = z.delayReq ∧ y.cfg = x.cfg ∧ y.profile = x.profile ∧ y.input.pending = x.input.pending.drop 1 ∧
      y.st = (if x.st = .armed then .running else x.st) ∧ y.counters.picture = n ∧ y.run.pics.get? n = some q ∧ q.number = n ∧ q.tref = t0 ∧ q.coding = z.coding ∧ q.rows = [] ∧ q.slices = 0 ∧
      (n = 0 → q.key = some .idr ∨ q.key = some .cra) ∧ (x.run.forceIdr = true → q.key = some .idr) ∧ y.run.forceIdr = false ∧ (key = some .idr → q.key = some .idr) ∧ (periodicKey c z.coding.gop n = some .idr → q.key = some .idr) ∧
      q.intra = (q.key == some .idr || q.key == some .cra) ∧ (q.intra = true → y.run.lastIrap = n ∧ q.refs = ([], [])) ∧
      y.run.delayTgt = nsQ (delayOf kz.g z.delayReq) ∧ q.delay = y.run.delayCur + nsQ (((z.coding.gop.lookahead : Nat) : Rat) * kz.g.period) ∧
      ((n = 0 ∨ x.run.delayCur = 0) → y.run.delayCur = y.run.delayTgt) ∧
      (n ≠ 0 → x.run.delayCur ≠ 0 → y.run.delayCur = (if x.run.delayCur < y.run.delayTgt then min y.run.delayTgt (x.run.delayCur + nsQ 16000) else max y.run.delayTgt (x.run.delayCur - nsQ 16000))) ∧
      (z.coding.gop.structure' ≠ 2 → x.input.pending.head? = some (t0, m) → q.source = m ∧ q.display = n) ∧ (∀ j, j ≠ n → y.run.pics.get? j = x.run.pics.get? j) ∧
      (∀ d, d ≠ c → chanAt (startPicture c x t0 m i u) d = chanAt u d) ∧ (startPicture c x t0 m i u).outs = u.outs ∧ (startPicture c x t0 m i u).surfs = u.surfs := by
  subst hn
  obtain ⟨co, dr, hz⟩ := applyChanges_chan u c x.run.nextPic x
  rw [ha] at hz
  dsimp only at hz
  subst hz
  unfold startPicture
  extract_lets n first slew lookahead
  rw [ha]
  dsimp -zeta only
  rw [hk, hrc]
  dsimp -zeta only
  extract_lets g gop target cur delay pairIdr force want kind irap refresh refreshIdx lastIrap newGop gopStart gopLen display source on isKey discard lh rects src run k reserve need w lostLoss substEnds substLoss q viol run' src2 src3 x' s1 src4 s2 s3 s4 s5 s6 s7 s8
  -- the channel is set; what follows leaves it so, but for its Isles
  have hset : Becomes c x' u s1 := setChan_becomes c x' u
  have hkeyed : Becomes c x' u s2 := hset.coded_if (coded_pair s1 _)
  have hjoin : Becomes c x' u s3 := hkeyed.coded_if (coded_joinChannel ..)
  have hstop : Becomes c x' u s5 := hjoin.replaceIsles.noStop h0
  have hinput : Becomes c x' u s6 := by
    unfold s6
    split
    · exact hstop
    · exact hstop.coded (coded_sendInput ..)
  have hfirst : Becomes c x' u s8 := (hinput.coded (postEvent_ends ..).coded).coded_if (foldl_ends (fun s (e : Nat × Cmd) => finishCmd_ends ..) _ _).coded
  have hdone := hfirst.coded (foldl_ends (fun s (d : Cmd) => finishCmd_ends d.serial 0 (n % 2 ^ 32) (n / 2 ^ 32) s) l s8).coded
  obtain ⟨isles, hchan⟩ := hdone.chan
  -- the kind of the picture
  have hforce : force = true → kind = some .idr := fun h => if_pos h
  have hwant : want = some .idr → kind = some .idr := fun h => by
    unfold kind
    rw [h, strongerKey_idr_right]
    split
    · rfl
    · split <;> rfl
  have hfirstKind : n = 0 → kind = some .idr ∨ kind = some .cra := fun h => by
    by_cases hf : force = true
    · exact .inl (hforce hf)
    · rw [show kind = strongerKey (some (if gop.keyKind = 1 then .cra else .idr)) want from (if_neg hf).trans (if_pos h)]
      exact strongerKey_irap (by split <;> simp) want
  refine ⟨_, q, hchan, rfl, rfl, rfl, rfl, rfl, rfl, rfl, ?st, rfl, fmap_get?_set_self _ _ _, rfl, rfl, rfl, rfl, rfl, hfirstKind, ?force, rfl, ?asked, ?periodic, rfl, ?intra, rfl, rfl,
    ?jump, ?slew, ?source, fun j hj => fmap_get?_set_ne hj.symm, hdone.others, hdone.outs, hdone.surfs⟩
  case st =>
    change (if (x.st == .armed) = true then ChanState.running else x.st) = _
    simp only [beq_iff_eq]
  case force => exact fun h => hforce (by unfold force; simp [h])
  case asked => exact fun h => hwant (by unfold want; rw [h, strongerKey_idr_left, strongerKey_idr_left])
  case periodic => exact fun h => hwant (by unfold want; rw [show periodicKey c gop n = some .idr from h, strongerKey_idr_right])
  case intra => exact fun h => ⟨if_pos h, if_pos h⟩
  case jump => exact fun h => if_pos (by simpa [first] using h)
  case slew => exact fun h1 h2 => if_neg (by simpa [first] using ⟨h1, h2⟩)
  case source =>
    intro hs hp
    have hd : display = n := if_neg hs
    refine ⟨?_, hd⟩
    change source = m
    unfold source
    rw [hd, if_pos (Nat.le_refl n), Nat.sub_self, ← List.head?_eq_getElem?, hp]
    rfl

end Sys2Proof.Architecture

/-! PROOFS. Rows and CTUs (R20, R112, R116, R117, R130, R133, R155, R158, R160). -/

namespace Sys2Proof.Architecture

open Sys2Proof.Machine Sys2Proof.Laws

/-! Stalls, search results and the Lagoon. -/

section
variable {c : Nat} {x : Chan} {s : State}

/-- From s to t channel c has become y, and no other channel and no output has changed. -/
structure OnlyChan (c : Nat) (y : Chan) (s t : State) : Prop where
  chan : chanAt t c = some y
  others : ∀ d, d ≠ c → chanAt t d = chanAt s d
  outs : t.outs = s.outs

theorem modChan_onlyChan (h : chanAt s c = some x) (g : Chan → Chan) : OnlyChan c (g x) s (modChan s c g) :=
  ⟨by rw [chanAt_modChan, h]; rfl, fun _ hd => chanAt_modChan_ne hd.symm, rfl⟩

theorem modChan_gives {g : Chan → Chan} {y : Chan} (h : chanAt s c = some x) (hy : g x = y) : OnlyChan c y s (modChan s c g) := hy ▸ modChan_onlyChan h g

theorem OnlyChan.refl (h : chanAt s c = some x) : OnlyChan c x s s := ⟨h, fun _ _ => rfl, rfl⟩

theorem OnlyChan.trans {y z : Chan} {t u : State} (h : OnlyChan c y s t) (g : OnlyChan c z t u) : OnlyChan c z s u :=
  ⟨g.chan, fun d hd => (g.others d hd).trans (h.others d hd), g.outs.trans h.outs⟩

theorem OnlyChan.journal {y : Chan} {t : State} (h : OnlyChan c y s t) (a b f k o d : Nat) : OnlyChan c y s (journalAdd t a b f k o d) := ⟨h.chan, h.others, h.outs⟩

/-- A channel whose picture n has stalled once more (R20). -/
def stalledChan (n : Nat) (x : Chan) : Chan :=
  { x with run.stalled := true, counters.rcStalls := inc32 x.counters.rcStalls, run.pics := x.run.pics.modify n (fun q => { q with stalls := q.stalls + 1 }) }

/-- A stall is noted in its channel alone (R20). -/
theorem noteStall_onlyChan (h : chanAt s c = some x) (hs : x.run.stalled = false) : OnlyChan c (stalledChan (x.run.nextPic - 1) x) s (noteStall c x s) := by
  have hm := modChan_onlyChan h (stalledChan (x.run.nextPic - 1))
  unfold noteStall
  rw [if_neg (by simp [hs])]
  dsimp only
  split
  · exact hm.journal ..
  · exact hm

theorem noteSearch_onlyChan (h : chanAt s c = some x) (i : SearchIn) : ∃ m, OnlyChan c { x with run.search := m } s (noteSearch c i s) := by
  unfold noteSearch
  rw [h]
  dsimp only
  split
  · exact ⟨_, modChan_gives h rfl⟩
  · exact ⟨x.run.search, .refl h⟩

/-- Lagoon-high follows the row slots, and nothing else of the channel changes (R133). -/
theorem settleLagoon_onlyChan (h : chanAt s c = some x) : ∃ b, OnlyChan c { x with run.lagoonHigh := b } s (settleLagoon c s) := by
  unfold settleLagoon
  rw [h]
  dsimp only
  split
  · refine ⟨true, OnlyChan.journal (modChan_gives h ?_) ..⟩
    rfl
  · split
    · exact ⟨false, modChan_gives h rfl⟩
    · exact ⟨x.run.lagoonHigh, .refl h⟩

/-- A channel whose row controller has planned row r of a picture and begun it (R155). -/
def plannedChan (plan : Row) (n r : Nat) (x : Chan) : Chan :=
  { x with
    run := { x.run with stalled := false, slotWait := false, aheadWait := false, rowsBegun := x.run.rowsBegun + 1, curRow := some (n, r),
                        pics := x.run.pics.modify n (fun q => { q with rows := q.rows.set r plan }) },
    counters := { x.counters with floorRows := if plan.mode = .floor then inc32 x.counters.floorRows else x.counters.floorRows,
                                  copyRows := if plan.mode = .copy then inc32 x.counters.copyRows else x.counters.copyRows } }

/-- The row controller plans a row in its channel alone (R133, R155). -/
theorem planRow_onlyChan (h : chanAt s c = some x) (k : Ctl) (rc : RcCfg) (q : Pic) (r : Nat) :
    ∃ b, OnlyChan c { plannedChan (rowPlan k rc q r) q.number r x with run.lagoonHigh := b } s (planRow c k rc q r s) := by
  have hm := modChan_onlyChan h (plannedChan (rowPlan k rc q r) q.number r)
  obtain ⟨b, hb⟩ := settleLagoon_onlyChan hm.chan
  exact ⟨b, hm.trans hb⟩

theorem waitSearch_onlyChan (h : chanAt s c = some x) (q : Pic) :
    OnlyChan c (if q.ahead && !x.run.aheadWait then { x with run.aheadWait := true, counters.runaheadWaits := inc32 x.counters.runaheadWaits } else x) s (waitSearch c q s) :=
  modChan_gives h rfl

theorem waitSlot_onlyChan (h : chanAt s c = some x) (n : Nat) :
    OnlyChan c (if x.run.slotWait then x else { x with run.slotWait := true, counters.lagoonStalls := inc32 x.counters.lagoonStalls }) s (waitSlot c n x s) := by
  unfold waitSlot
  split
  · exact .refl h
  · refine OnlyChan.journal (modChan_gives h ?_) ..
    rfl

theorem settleRows_onlyChan {k : Ctl} {q : Pic} {n : Nat} (h : chanAt s c = some x) (hk : ctlOf s x = some k) (hq : x.run.pics.get? n = some q) :
    ∃ y p, OnlyChan c y s (settleRows c n s) ∧ y.run.pics.get? n = some p ∧ y.st = x.st ∧ y.run.curRow = x.run.curRow ∧ x.run.rowsFreed ≤ y.run.rowsFreed ∧
      p.rows = q.rows.mapVals (fun _ w => if decide (k.g.cRow ≤ w.next) && w.records.isEmpty && w.actual.isNone then { w with actual := some w.count } else w) := by
  unfold settleRows
  rw [h]
  dsimp only
  rw [hk, hq]
  dsimp only
  obtain ⟨b, hb⟩ := settleLagoon_onlyChan (modChan_onlyChan h _).chan
  exact ⟨_, _, (modChan_onlyChan h _).trans hb, fmap_get?_set_self .., rfl, rfl, Nat.le_add_right .., rfl⟩

end

/-! A CTU is coded (R158). -/

section
variable {c r : Nat} {k : Ctl} {rc : RcCfg} {q : Pic} {row : Row} {e : CtuEst} {src : Planes}

/-- A lossless CTU takes the source itself, and none of the row's allowance (R164). -/
theorem codeCtu_lossless (h : isLossless k.g.ctu q.lossless r row.next = true) :
    codeCtu c k rc q r row e src = ({ row with next := row.next + 1, records := row.records ++
      [recordOf c k q r e e.lossless { ctuX := row.next, lossless := true, qp := 0, binCount := e.lossless.bins, estBits := e.lossless.bits }] }, false, false, src) := if_pos h

/-- Bits that a row may still take: its allowance, within the row cap (R158). -/
def rowLimit (rc : RcCfg) (row : Row) : Int := min row.a ((rc.rowCap : Int) - (row.llEst : Int))

/-- Any other CTU is coded in a variant that leaves room for copies in the rest of the row, or as a copy (R158). -/
theorem codeCtu_coded (h : isLossless k.g.ctu q.lossless r row.next = false) :
    ∃ row' dual high recon, codeCtu c k rc q r row e src = (row', dual, high, recon) ∧ row'.next = row.next + 1 ∧ row'.a = row.a ∧ row'.llEst = row.llEst ∧ row'.mode = row.mode ∧
      row'.k = row.k + 1 ∧ (∃ d, row'.records = row.records ++ [d] ∧ d.ctuX = row.next ∧ d.ctuY = r ∧ d.channel = c ∧ d.lossless = false) ∧
      (dual = true → q.dual = true ∧ row.mode = .normal) ∧ (high = true → dual = true) ∧
      (row'.e = row.e + (copyCost k.prof.codec q.intra).1 ∨
        ((row'.e + (k.g.cRow - losslessCount k.g q.lossless r - row.k - 1) * (copyCost k.prof.codec q.intra).1 : Nat) : Int) ≤ rowLimit rc row) := by
  unfold codeCtu
  extract_lets n row1 put m limit blimit rest dual hi qp target low high order step
  rw [if_neg (Bool.eq_false_iff.mp h)]
  generalize copyCost k.prof.codec q.intra = cost
  obtain ⟨cb, cn⟩ := cost
  dsimp -zeta only
  extract_lets pick
  have hdual : dual = true → q.dual = true ∧ row.mode = .normal := fun hd => by simpa [dual, row1] using hd
  -- a variant that is picked is one of the order, and leaves the limit
  have hpick : ∀ v, pick = some v → v ∈ order ∧ ((row.e + v.2.1.bits + rest * cb : Nat) : Int) ≤ rowLimit rc row := fun v hv => by
    by_cases hcut : row1.cut = true
    · rw [show pick = none from if_pos hcut] at hv
      cases hv
    · rw [show pick = order.find? _ from if_neg hcut] at hv
      have hfit := List.find?_some hv
      exact ⟨List.mem_of_find?_eq_some hv, of_decide_eq_true (Bool.and_eq_true_iff.mp hfit).1⟩
  have hhigh : ∀ v ∈ order, v.2.2 = true → dual = true := fun v hv hh => by
    by_contra hd
    have horder : order = [((rc.qpMax : Int), e.floor, false)] ∨ order = [low] := by
      unfold order
      split
      · exact .inl rfl
      · exact .inr rfl
    obtain ho | ho := horder <;> rw [ho, List.mem_singleton] at hv <;> rw [hv] at hh <;> exact Bool.false_ne_true hh
  clear_value pick
  obtain _ | ⟨v, x, isHigh⟩ := pick
  · refine ⟨_, _, _, _, rfl, rfl, rfl, rfl, rfl, rfl, ⟨_, rfl, rfl, rfl, rfl, rfl⟩, fun hd => hdual ?_, nofun, .inl rfl⟩
    exact (Bool.and_eq_true_iff.mp hd).1
  · obtain ⟨hmem, hfit⟩ := hpick _ rfl
    exact ⟨_, _, _, _, rfl, rfl, rfl, rfl, rfl, rfl, ⟨_, rfl, rfl, rfl, rfl, rfl⟩, hdual, hhigh _ hmem, .inr hfit⟩

/-- Every CTU is coded as lossless or not. -/
theorem codeCtu_cases {P : Row × Bool × Bool × Planes → Prop}
    (hl : isLossless k.g.ctu q.lossless r row.next = true → P ({ row with next := row.next + 1, records := row.records ++
      [recordOf c k q r e e.lossless { ctuX := row.next, lossless := true, qp := 0, binCount := e.lossless.bins, estBits := e.lossless.bits }] }, false, false, src))
    (hc : isLossless k.g.ctu q.lossless r row.next = false → P (codeCtu c k rc q r row e src)) : P (codeCtu c k rc q r row e src) := by
  cases h : isLossless k.g.ctu q.lossless r row.next with
  | true => rw [codeCtu_lossless h]; exact hl h
  | false => exact hc h

theorem codeCtu_next : (codeCtu c k rc q r row e src).1.next = row.next + 1 := by
  refine codeCtu_cases (P := fun z => z.1.next = row.next + 1) (fun _ => rfl) fun h => ?_
  obtain ⟨row', dual, high, recon, hz, hn, -⟩ := codeCtu_coded (e := e) (src := src) (c := c) (rc := rc) h
  rw [hz]
  exact hn

/-- A CTU leaves its row's plan (R155). -/
theorem codeCtu_plan : (codeCtu c k rc q r row e src).1.a = row.a ∧ (codeCtu c k rc q r row e src).1.llEst = row.llEst ∧ (codeCtu c k rc q r row e src).1.mode = row.mode := by
  refine codeCtu_cases (P := fun z => z.1.a = row.a ∧ z.1.llEst = row.llEst ∧ z.1.mode = row.mode) (fun _ => ⟨rfl, rfl, rfl⟩) fun h => ?_
  obtain ⟨row', dual, high, recon, hz, -, ha, hl, hm, -⟩ := codeCtu_coded (e := e) (src := src) (c := c) (rc := rc) h
  rw [hz]
  exact ⟨ha, hl, hm⟩

/-- A CTU adds its record (R158). -/
theorem codeCtu_record : ∃ d, (codeCtu c k rc q r row e src).1.records = row.records ++ [d] ∧ d.ctuX = row.next ∧ d.ctuY = r ∧ d.channel = c ∧
    d.lossless = isLossless k.g.ctu q.lossless r row.next := by
  refine codeCtu_cases (P := fun z => ∃ d, z.1.records = row.records ++ [d] ∧ d.ctuX = row.next ∧ d.ctuY = r ∧ d.channel = c ∧ d.lossless = isLossless k.g.ctu q.lossless r row.next)
    (fun h => ⟨_, rfl, rfl, rfl, rfl, h.symm⟩) fun h => ?_
  obtain ⟨row', dual, high, recon, hz, -, -, -, -, -, ⟨d, hd, hx, hy, hc, hl⟩, -⟩ := codeCtu_coded (e := e) (src := src) (c := c) (rc := rc) h
  rw [hz]
  exact ⟨d, hd, hx, hy, hc, hl.trans h.symm⟩

/-- Two variants are coded in normal rows of dual pictures alone, and the high one is kept only of two (R118). -/
theorem codeCtu_dual : ((codeCtu c k rc q r row e src).2.1 = true → q.dual = true ∧ row.mode = .normal) ∧
    ((codeCtu c k rc q r row e src).2.2.1 = true → (codeCtu c k rc q r row e src).2.1 = true) := by
  refine codeCtu_cases (P := fun z => (z.2.1 = true → q.dual = true ∧ row.mode = .normal) ∧ (z.2.2.1 = true → z.2.1 = true)) (fun _ => ⟨nofun, nofun⟩) fun h => ?_
  obtain ⟨row', dual, high, recon, hz, -, -, -, -, -, -, hdual, hhigh, -⟩ := codeCtu_coded (e := e) (src := src) (c := c) (rc := rc) h
  rw [hz]
  exact ⟨hdual, hhigh⟩

/-- A row that keeps the guard of R158 keeps it with its next CTU. -/
theorem codeCtu_guard {m : Nat} (hm : m = k.g.cRow - losslessCount k.g q.lossless r) (hk : row.k < m)
    (hg : ((row.e + (m - row.k) * (copyCost k.prof.codec q.intra).1 : Nat) : Int) ≤ rowLimit rc row) :
    (((codeCtu c k rc q r row e src).1.e + (m - (codeCtu c k rc q r row e src).1.k) * (copyCost k.prof.codec q.intra).1 : Nat) : Int) ≤ rowLimit rc row := by
  refine codeCtu_cases (P := fun z => ((z.1.e + (m - z.1.k) * (copyCost k.prof.codec q.intra).1 : Nat) : Int) ≤ rowLimit rc row) (fun _ => hg) fun h => ?_
  obtain ⟨row', dual, high, recon, hz, -, -, -, -, hk', -, -, -, he⟩ := codeCtu_coded (e := e) (src := src) (c := c) (rc := rc) h
  rw [hz]
  dsimp only
  obtain ⟨j, hj⟩ : ∃ j, m - row.k = j + 1 := ⟨m - row.k - 1, by omega⟩
  rw [hk', show m - (row.k + 1) = j by omega]
  obtain he | he := he
  · rw [he]
    rw [hj] at hg
    refine le_trans (le_of_eq ?_) hg
    congr 1
    ring
  · rwa [← hm, show m - row.k - 1 = j by omega] at he

end

/-! Variants and rows of a channel. -/

section
variable {c : Nat} {x : Chan} {s : State}

/-- The next CTU of a row is coded in its channel alone (R158). -/
theorem chooseVariant_onlyChan (h : chanAt s c = some x) (k : Ctl) (rc : RcCfg) (q : Pic) (r : Nat) (row : Row) (e : CtuEst)
    {z : Row × Bool × Bool × Planes} (hz : z = codeCtu c k rc q r row e (sourceCtu s x k q r row.next)) :
    ∃ y p, OnlyChan c y s (chooseVariant c k rc q r row e s) ∧ y.run.pics.get? q.number = some p ∧
      p.rows = q.rows.set r (if unitFailed k q r row.next then { z.1 with records := z.1.records.dropLast } else z.1) ∧
      p.recon.get? (r * 65536 + row.next) = some { isle := ctuIsle k.run row.next, samples := z.2.2.2 } ∧
      y.run.curRow = (if k.g.cRow ≤ z.1.next then none else x.run.curRow) ∧ (∀ m, m ≠ q.number → y.run.pics.get? m = x.run.pics.get? m) ∧ y.st = x.st ∧ y.coding = x.coding ∧
      y.counters.specDualCtus = (if z.2.1 then inc32 x.counters.specDualCtus else x.counters.specDualCtus) ∧
      y.counters.specHighChosen = (if z.2.2.1 then inc32 x.counters.specHighChosen else x.counters.specHighChosen) := by
  unfold chooseVariant
  rw [h]
  dsimp only
  rw [← hz]
  obtain ⟨row', dual, high, recon⟩ := z
  dsimp only
  refine ⟨_, _, modChan_onlyChan h _, fmap_get?_set_self .., rfl, fmap_get?_set_self .., ?_, fun m hm => fmap_get?_set_ne hm.symm, rfl, rfl, rfl, rfl⟩
  split <;> simp only [decide_eq_true_eq]

end

/-! The steps themselves (R19, R20, R155, R158). -/

section
variable {c : Nat} {x : Chan} {k : Ctl} {q : Pic} {rc : RcCfg} {s u w : State}

/-- Nothing keeps the next picture of a channel, but for the row controller (R19, R96, R99, R389). -/
structure PictureDue (u : State) (c : Nat) (x : Chan) (t : Instant) (m : Option Nat) : Prop where
  working : x.st ≠ .idle ∧ x.run.aborting = false
  instant : nextTref u x = some (t, m)
  within : ∀ d, x.run.drainAfter = some d → x.run.nextPic ≤ d
  starts : x.run.nextPic = 0 → startsAt x t = true
  agreed : mirrorAwaited u 0 c x.run.nextPic = false

/-- A channel is past the last picture of its drain (R99). -/
def drained (x : Chan) : Bool := match x.run.drainAfter with | some d => decide (d < x.run.nextPic) | none => false

theorem drained_iff (x : Chan) : drained x = true ↔ ∃ d, x.run.drainAfter = some d ∧ d < x.run.nextPic := by
  unfold drained
  split
  · next d hd => simp [hd]
  · next hd => simp [hd]

theorem pictureStart_due {i : PicIn} {t : Instant} {m : Option Nat} (hm : mayEncode s = true) (hu : u = settleSlices c (modChan (fillLost c s) c dropEarly)) (hx : chanAt u c = some x)
    (hk : ctlOf u x = some k) (h : PictureDue u c x t m) :
    pictureStart c i s = if pictureReady k = (true, true) then startPicture c x t m i u else if (pictureReady k).1 then noteStall c x u else u := by
  obtain ⟨⟨hidle, habort⟩, hinst, hdrain, hstart, hmirror⟩ := h
  unfold pictureStart
  rw [if_neg (by simp [hm])]
  dsimp only
  rw [← hu, hx]
  dsimp only
  rw [if_neg (by simp [hidle, habort]), hk]
  dsimp only
  rw [hinst]
  dsimp only
  have hdr : drained x = false := by
    rw [Bool.eq_false_iff, Ne, drained_iff]
    rintro ⟨d, hd, hlt⟩
    exact absurd (hdrain d hd) (by omega)
  rw [if_neg]
  · generalize pictureReady k = p
    obtain ⟨coded, counts⟩ := p
    cases coded <;> cases counts <;> rfl
  · change ¬ (drained x || _ || _) = true
    rw [hdr, hmirror]
    by_cases h0 : x.run.nextPic = 0 <;> simp [h0, hstart]

theorem pictureStart_waits {i : PicIn} (hm : mayEncode s = true) (hu : u = settleSlices c (modChan (fillLost c s) c dropEarly)) (hx : chanAt u c = some x)
    (h : x.st = .idle ∨ x.run.aborting = true ∨ nextTref u x = none ∨ (∃ d, x.run.drainAfter = some d ∧ d < x.run.nextPic) ∨ (x.run.nextPic = 0 ∧ ∀ t m, nextTref u x = some (t, m) → startsAt x t = false) ∨
      mirrorAwaited u 0 c x.run.nextPic = true) : pictureStart c i s = u := by
  unfold pictureStart
  rw [if_neg (by simp [hm])]
  dsimp only
  rw [← hu, hx]
  dsimp only
  split
  · rfl
  · next hworks =>
    split
    · rfl
    · split
      · rfl
      · next t m hinst =>
        refine if_pos ?_
        change (drained x || _ || _) = true
        obtain h | h | h | h | ⟨h0, h⟩ | h := h
        · simp [h] at hworks
        · simp [h] at hworks
        · rw [hinst] at h; cases h
        · simp [(drained_iff x).mpr h]
        · simp [h0, h t m hinst]
        · simp [h]

/-- What decides ROW_START once a row of a picture is left to plan: its lines, the counts, the search results, the Lagoon slots (R20, R117, R133, R155). -/
theorem rowStart_row {i : SearchIn} (hm : mayEncode s = true) (hw : w = noteSearch c i s) (hx : chanAt w c = some x) (hc : coding x = true) (ha : x.run.aborting = false)
    (hr : x.run.curRow = none) (hk : ctlOf w x = some k) (hq : rowPicture k = some q) (hrc : q.coding.rc = some rc) :
    rowStart c i s = if !rowArrived w x k q q.rows.length then w
      else if !countsReady k q.number q.rows.length then noteStall c x w
      else if !searchReady k q q.rows.length then waitSearch c q w
      else if decide (x.run.lagoonSlots ≤ x.run.rowsBegun - x.run.rowsFreed) then waitSlot c q.number x w
      else planRow c k rc q q.rows.length (ringRow c k q q.rows.length i.poisoned w) := by
  unfold rowStart
  rw [if_neg (by simp [hm])]
  dsimp only
  rw [← hw, hx]
  dsimp only
  rw [if_neg (by simp [hc, ha, hr]), hk]
  dsimp only
  rw [hq]
  dsimp only
  rw [hrc]

theorem rowStart_none {i : SearchIn} (h : mayEncode s = true → ∀ x, chanAt (noteSearch c i s) c = some x → coding x = false ∨ x.run.aborting = true ∨ x.run.curRow ≠ none) :
    rowStart c i s = if mayEncode s then noteSearch c i s else s := by
  unfold rowStart
  cases hm : mayEncode s with
  | false => rfl
  | true =>
    rw [if_neg (by simp)]
    dsimp only
    split
    · rfl
    · next x hx =>
      refine if_pos ?_
      obtain h | h | h := h hm x hx
      · simp [h]
      · simp [h]
      · simp [Option.isSome_iff_ne_none.mpr h]

end

/-- The CTU's decision as it reaches the row, damaged by an armed injection (R440). -/
def reached (c : Nat) (e : CtuEst) (s : State) : CtuEst := if (spendCheckInjection c s).2 then { e with damage := e.damage ^^^ 1 } else e

section
variable {c n r : Nat} {x : Chan} {k : Ctl} {q : Pic} {row : Row} {rc : RcCfg} {e : CtuEst} {s : State}

theorem variantChoice_row (hx : chanAt s c = some x) (hr : x.run.curRow = some (n, r)) (hk : ctlOf s x = some k) (hq : x.run.pics.get? n = some q) (hrow : q.rows.get? r = some row)
    (hrc : q.coding.rc = some rc) :
    variantChoice c e s =
      if !mayEncode s || (x.run.aborting || !(neighboursReady q r row.next) || !(modeOk k q (stepOn s c 3 n) r row.next e.cus)) then s
      else settleRows c n (chooseVariant c k rc q r row (reached c e s)
        (if (reached c e s).poisoned then poisonRead 8 x.owner.val 1 c n (spendCheckInjection c s).1 else (spendCheckInjection c s).1)) := by
  unfold variantChoice
  cases hm : mayEncode s with
  | false => rfl
  | true =>
    rw [if_neg (by simp), hx]
    dsimp only
    rw [hr, hk]
    dsimp only
    rw [hq]
    dsimp only
    rw [hrow, hrc]
    rfl

theorem variantChoice_none (h : ∀ x, chanAt s c = some x → x.run.curRow = none) : variantChoice c e s = s := by
  unfold variantChoice
  split
  · rfl
  · split
    · rfl
    · next x hx => rw [h x hx]

end

end Sys2Proof.Architecture

/-! PROOFS. Pictures, rows and variants: the statement (R19 to R20, R84 to R90, R109 to R127, R155, R158). -/

namespace Sys2Proof.Architecture

open Sys2Proof.Machine Sys2Proof.Laws

/-- Settles O45, step by step: the start of a picture by what it sets in its channel, rows and CTUs by what each step leaves of its channel alone. -/
theorem picturesRowsAndVariants : Obligations.PicturesRowsAndVariants := by
  unfold Obligations.PicturesRowsAndVariants
  refine ⟨?still, ?due, ?starts, ?stall, ?rowNone, ?row, ?search, ?ring, ?plan, ?variant, ?variantNone, ?choose, ?settle, ?code⟩
  case still =>
    intro dt c i s ha hm
    exact congrArg Host.Outcome.next ((actAfter_acting dt _ ha).trans (if_pos (by simp [show mayEncode (advance dt s) = false from hm])))
  case due =>
    intro dt c i s u x ha hm hu hx
    have hexec : exec (.pictureStart dt c i) s = .next (pictureStart c.val i (advance dt s)) := congrArg Host.Outcome.next (actAfter_acting dt _ ha)
    rw [hexec]
    refine ⟨fun h => congrArg _ (pictureStart_waits hm hu hx h), fun k t0 m h1 h2 hk h3 h4 h5 h6 => congrArg _ (pictureStart_due hm hu hx hk ⟨⟨h1, h2⟩, h3, h4, h5, h6⟩)⟩
  case starts => exact fun c x t0 m i u z key rate l kz rc n h0 hn ha hk hrc => startPicture_starts h0 hn ha hk hrc
  case stall =>
    intro c x s hx
    refine ⟨fun h => if_pos h, fun h => ?_⟩
    obtain ⟨hc, hd, -⟩ := noteStall_onlyChan hx h
    exact ⟨_, hc, rfl, rfl, rfl, rfl, hd⟩
  case rowNone =>
    intro dt c i s ha h
    exact congrArg Host.Outcome.next ((actAfter_acting dt _ ha).trans (rowStart_none h))
  case row =>
    rintro dt c i s w x k q rc r ha hm hw hx hc hab hcur hk hq hrc rfl
    have hexec : exec (.rowStart dt ⟨c, i⟩) s = .next (rowStart c.val i (advance dt s)) := congrArg Host.Outcome.next (actAfter_acting dt _ ha)
    rw [hexec, rowStart_row (s := advance dt s) hm hw hx hc hab hcur hk hq hrc]
    refine ⟨fun h1 => by simp [h1], fun h1 h2 => by simp [h1, h2], fun h1 h2 => ?_⟩
    simp only [h1, h2, Bool.not_true, Bool.false_eq_true, if_false]
    refine ⟨fun h3 => ?_, fun h3 h4 => ?_, fun h3 h4 => ?_⟩
    · obtain ⟨hchan, hd, -⟩ := waitSearch_onlyChan hx q
      simp only [h3, Bool.not_false, if_true]
      refine ⟨_, _, rfl, hchan, ?_, fun hq' hw' => ?_, fun h => ?_, hd⟩
      · split <;> exact hcur
      · simp [hq', hw']
      · obtain h | h := h <;> simp [h]
    · obtain ⟨hchan, hd, -⟩ := waitSlot_onlyChan hx q.number
      simp only [h3, Bool.not_true, Bool.false_eq_true, if_false, decide_eq_true h4, if_true]
      refine ⟨_, _, rfl, hchan, ?_, ?_, ?_, hd⟩
      · split <;> exact hcur
      · split
        · assumption
        · rfl
      · split <;> rfl
    · simp [h3, Nat.not_le.mpr h4]
  case search =>
    intro c i s x hx
    obtain ⟨m, hc, hd, ho⟩ := noteSearch_onlyChan hx i
    exact ⟨_, hc, rfl, hd, ho⟩
  case ring =>
    intro c k q r l s h
    unfold ringRow
    split
    · exact if_neg h
    · rfl
  case plan =>
    intro c k rc q r s x hx
    obtain ⟨b, hc, hd, ho⟩ := planRow_onlyChan hx k rc q r
    exact ⟨_, hc, rfl, rfl, rfl, rfl, fmap_get?_modify_self .., fun n hn => fmap_get?_modify_ne hn.symm, rfl, rfl, rfl, rfl, hd, ho⟩
  case variant =>
    intro c e s x k n r q row rc ha hx hr hk hq hrow hrc
    have hexec : exec (.variantChoice c e) s = .next (variantChoice c.val e s) := congrArg Host.Outcome.next (act_acting _ ha)
    rw [hexec, variantChoice_row hx hr hk hq hrow hrc]
    refine ⟨fun h => ?_, ?_⟩
    · obtain h | h | h | h := h <;> simp [h]
    · rintro f v hm hab hn ho rfl rfl
      simp only [hm, hab, hn, ho, Bool.not_true, Bool.or_self, Bool.false_eq_true, if_false]
      rfl
  case variantNone =>
    intro c e s ha h
    exact congrArg Host.Outcome.next ((act_acting _ ha).trans (variantChoice_none h))
  case choose =>
    intro c k rc q r row e s x z hx hz
    obtain ⟨y, p, ⟨hc, hd, ho⟩, hp, hrows, hrecon, hcur, hpics, hst, hcoding, hdual, hhigh⟩ := chooseVariant_onlyChan hx k rc q r row e hz
    have hnext : z.1.next = row.next + 1 := hz ▸ codeCtu_next
    refine ⟨y, p, hc, hp, hd, ho, ?_, fun i hi => ?_, ?_, ?_, hpics, hst, hcoding, hdual, hhigh⟩
    · rw [hrows, fmap_get?_set_self]
    · rw [hrows, fmap_get?_set_ne hi.symm]
    · rw [hrecon]; rfl
    · rw [hcur, hnext]
  case settle =>
    intro c n s x k q hx hk hq
    obtain ⟨y, p, ⟨hc, hd, -⟩, hp, hst, hcur, hfreed, hrows⟩ := settleRows_onlyChan hx hk hq
    refine ⟨y, p, hc, hp, hst, hcur, hfreed, fun i w hi => ?_, hd⟩
    rw [hrows, fmap_get?_mapVals, hi]
    simp [and_assoc]
  case code =>
    rintro c k rc q r row e src z rfl
    refine ⟨codeCtu_next, codeCtu_plan.1, codeCtu_plan.2.1, codeCtu_plan.2.2, codeCtu_record, fun h => by rw [codeCtu_lossless h], codeCtu_dual.1, codeCtu_dual.2, fun m hm hk hg => codeCtu_guard hm hk hg⟩

end Sys2Proof.Architecture

/-! PROOFS. The loss and the return of a clock (R31 to R33, R418, R421, Table 16.2). -/

namespace Sys2Proof.Architecture

open Sys2Proof.Machine Sys2Proof.Laws Sys2Proof.HostAccess

/-! What the stops of a lost clock leave as it is. -/

/-- The fabric, the power state and the time. -/
def standing (s : State) : State := { fab := s.fab, power := s.power, now := s.now }

/-- From s to t objects have stopped: the fabric, the power state and the time stand, the journal has only grown, and what had stopped stays so. -/
structure Halts (s t : State) : Prop where
  rest : standing t = standing s
  staged : s.journal.staged ⊆ t.journal.staged
  outs : (∀ e ∈ s.outs, e.2.stopped = true) → ∀ e ∈ t.outs, e.2.stopped = true
  decs : (∀ e ∈ s.decs, e.2.stopped = true) → ∀ e ∈ t.decs, e.2.stopped = true

theorem Halts.refl (s : State) : Halts s s := ⟨rfl, List.Subset.refl _, id, id⟩

theorem Halts.trans {s t u : State} (h : Halts s t) (g : Halts t u) : Halts s u :=
  ⟨g.rest.trans h.rest, List.Subset.trans h.staged g.staged, g.outs ∘ h.outs, g.decs ∘ h.decs⟩

theorem foldl_halts {α : Type} {g : State → α → State} (h : ∀ s x, Halts s (g s x)) (l : List α) (s : State) : Halts s (l.foldl g s) :=
  foldl_keeps (P := Halts s) (fun t x ht => ht.trans (h t x)) l (.refl s)

/-- Where outputs and decoders are the same, none has started again. -/
theorem Halts.of_objects {s t : State} (hrest : standing t = standing s) (hstaged : s.journal.staged ⊆ t.journal.staged) (ho : t.outs = s.outs) (hd : t.decs = s.decs) : Halts s t :=
  ⟨hrest, hstaged, by rw [ho]; exact id, by rw [hd]; exact id⟩

theorem Ends.halts {s t : State} (h : Ends s t) : Halts s t := .of_objects (congrArg standing h.rest :) h.staged h.outs h.decs

theorem Resets.halts {s t : State} (h : Resets s t) : Halts s t :=
  .of_objects (congrArg standing h.rest :) h.staged (congrArg State.outs h.rest :) (congrArg State.decs h.rest :)

theorem StreamOf.halts {c : Nat} {s t : State} (h : StreamOf c s t) : Halts s t :=
  .of_objects (congrArg standing h.rest :) h.staged (congrArg State.outs h.rest :) (congrArg State.decs h.rest :)

theorem halts_of_besideGroups {s t : State} (h : besideGroups t = besideGroups s) : Halts s t := (stream_of_besideGroups (c := 0) h).halts

theorem halts_streamKeeps (c : Nat) (s : State) : StreamKeeps c (Halts s) where
  stream h hs := hs.trans h.halts
  resets hs := hs.trans (settleResets_resets _).halts

theorem chanStopFor_halts (c : Nat) (s : State) : Halts s (chanStopFor c 3 s) := chanStopFor_keeps (halts_streamKeeps c s) (.refl s)

theorem settleSurface_halts (n : Nat) (s : State) : Halts s (settleSurface n s) := by
  have hsurf : ∀ s k g, Halts s (modSurf s k g) := fun s _ _ => .of_objects rfl (List.Subset.refl _) rfl rfl
  unfold settleSurface
  dsimp only
  split
  · exact hsurf ..
  · refine (hsurf ..).trans (foldl_halts (fun s u => ?_) _ _)
    split
    · exact .refl s
    · split
      · exact (hsurf ..).trans (finishCmd_ends ..).halts
      · exact .refl s

theorem freezeSource_halts (kind index : Nat) (image : Option Nat → FrozenImage) (show' : LayerSel → Frozen) (s : State) : Halts s (freezeSource kind index image show' s) where
  rest := rfl
  staged := List.Subset.refl _
  outs h := by
    simp only [freezeSource, FMap.mapVals, List.mem_map]
    rintro _ ⟨e, he, rfl⟩
    exact h e he
  decs := id

theorem destroyOutput_halts (n : Nat) (s : State) : Halts s (destroyOutput n s) := by
  unfold destroyOutput
  split
  · exact .refl s
  · next o _ =>
    have hlost : ∀ {b : Bool} (s : State), Halts s (if b then { s with irq.lhLost := true } else s) := fun s => by
      split
      · exact .of_objects rfl (List.Subset.refl _) rfl rfl
      · exact .refl s
    have herase : ∀ s : State, Halts s { s with outs := s.outs.erase n } := fun s => ⟨rfl, List.Subset.refl _, fun h e he => h e (fmap_mem_erase he), id⟩
    dsimp only
    refine Halts.trans ?_ (settleResets_resets _).halts
    refine Halts.trans ?_ (foldl_halts (fun s (e : Nat × Surface) => settleSurface_halts e.1 s) _ _)
    refine Halts.trans ?_ (foldl_ends (fun s (e : Nat × Cmd) => finishCmd_ends e.2.serial 1 0 0 s) _ _).halts
    refine Halts.trans ?_ (herase _)
    refine Halts.trans ?_ (freezeSource_halts ..)
    refine Halts.trans ?_ (hlost _)
    exact (foldl_ends (fun s (c : Commit) => endCmd_ends c.serial stCancelled 0 0 s) _ _).halts

theorem removeFlowOut_halts (w : Nat) (s : State) : Halts s (removeFlowOut w s) := by
  refine (halts_of_besideGroups (besideGroups_dropGroups w true s)).trans (halts_of_besideGroups ?_)
  unfold removeFlowOut
  dsimp only
  split
  · rfl
  · split <;> rfl

theorem applyRemovals_halts (s : State) : Halts s (applyRemovals s) := by
  refine Halts.trans (t := { s with net.removals := [] }) (.of_objects rfl (List.Subset.refl _) rfl rfl) (foldl_halts (fun s e => ?_) _ _)
  split
  · exact removeFlowOut_halts ..
  · exact .of_objects rfl (List.Subset.refl _) rfl rfl

theorem applyBusResets_halts (s : State) : Halts s (applyBusResets s) := by
  refine foldl_keeps (P := Halts s) (fun t f ht => ht.trans ?_) _ (.of_objects rfl (List.Subset.refl _) rfl rfl)
  exact .of_objects rfl (List.Subset.refl _) rfl rfl

theorem resetAtOnce_halts (f : Nat) (s : State) : Halts s (resetAtOnce f s) := by
  unfold resetAtOnce
  dsimp only
  refine Halts.trans ?_ (Halts.of_objects (s := applyBusResets _) rfl (List.Subset.refl _) rfl rfl)
  refine Halts.trans ?_ (applyBusResets_halts _)
  exact (applyRemovals_halts s).trans (foldl_halts (fun s (e : Nat × Output) => destroyOutput_halts e.1 s) _ _)

theorem stopOutputs_halts (s : State) : Halts s (stopOutputs s) := by
  unfold stopOutputs
  dsimp only
  refine Halts.trans (t := if s.outs.any (fun e => e.2.lh.isSome) then { s with irq.lhLost := true } else s) ?lost ⟨rfl, List.Subset.refl _, fun _ e he => ?_, id⟩
  case lost =>
    split
    · exact .of_objects rfl (List.Subset.refl _) rfl rfl
    · exact .refl s
  · obtain ⟨o, -, rfl⟩ := List.mem_map.mp he
    rfl

theorem stopOutputs_stopped (s : State) : ∀ e ∈ (stopOutputs s).outs, e.2.stopped = true := by
  intro e he
  obtain ⟨o, -, rfl⟩ := List.mem_map.mp he
  rfl

theorem stopOutputs_chans (s : State) : (stopOutputs s).chans = s.chans := by
  unfold stopOutputs
  dsimp only
  split <;> rfl

theorem stopOutputs_fns (s : State) : (stopOutputs s).fns = s.fns := by
  unfold stopOutputs
  dsimp only
  split <;> rfl

/-- A change of one entry keeps what holds of every entry. -/
theorem fmap_forall_modify {α : Type} {P : α → Prop} {m : FMap α} {k : Nat} {g : α → α} (hg : ∀ x, P x → P (g x)) (h : ∀ e ∈ m, P e.2) : ∀ e ∈ FMap.modify m k g, P e.2 := by
  induction m with
  | nil => simp [FMap.modify]
  | cons e r ih =>
    obtain ⟨j, w⟩ := e
    have hw : P w := h (j, w) (.head _)
    have hr : ∀ e ∈ r, P e.2 := fun e he => h e (.tail _ he)
    simp only [FMap.modify]
    split
    · exact List.forall_mem_cons.mpr ⟨hg w hw, hr⟩
    · exact List.forall_mem_cons.mpr ⟨hw, ih hr⟩

theorem modDec_halts {g : Decoder → Decoder} (hg : ∀ d, (g d).stopped = d.stopped) (n : Nat) (s : State) : Halts s (modDec s n g) where
  rest := rfl
  staged := List.Subset.refl _
  outs := id
  decs := fmap_forall_modify (P := fun d : Decoder => d.stopped = true) fun d hd => (hg d).trans hd

theorem setDecState_halts (n st : Nat) (s : State) : Halts s (setDecState n st s) := by
  unfold setDecState
  split
  · exact .refl s
  · split
    · exact .refl s
    · refine (modDec_halts ?_ n s).trans (postEvent_ends ..).halts
      exact fun _ => rfl

theorem settleDecoder_halts (n : Nat) (s : State) : Halts s (settleDecoder n s) := by
  unfold settleDecoder
  split
  · exact .refl s
  · split
    · split
      · exact .refl s
      · refine (modDec_halts ?_ n s).trans (setDecState_halts ..)
        exact fun _ => rfl
    · split
      · exact setDecState_halts ..
      · exact .refl s

theorem settleDecoders_halts (s : State) : Halts s (settleDecoders s) := foldl_halts (fun s (e : Nat × Decoder) => settleDecoder_halts e.1 s) _ s

theorem stopDecoders_marks (s : State) : ∀ e ∈ s.decs.mapVals (fun _ (d : Decoder) => { d with stopped := true }), e.2.stopped = true := by
  intro e he
  obtain ⟨d, -, rfl⟩ := List.mem_map.mp he
  rfl

theorem stopDecoders_halts (s : State) : Halts s (stopDecoders s) :=
  Halts.trans (t := { s with decs := s.decs.mapVals (fun _ (d : Decoder) => { d with stopped := true }) })
    ⟨rfl, List.Subset.refl _, id, fun _ => stopDecoders_marks s⟩ (settleDecoders_halts _)

theorem stopDecoders_stopped (s : State) : ∀ e ∈ (stopDecoders s).decs, e.2.stopped = true := (settleDecoders_halts _).decs (stopDecoders_marks s)

theorem endSession_halts (o : Nat) (s : State) : Halts s (endSession o s) := by
  unfold endSession
  split
  · refine Halts.trans ?_ (foldl_ends (fun s n => endCmd_ends n o 0 0 s) _ _).halts
    exact .of_objects rfl (List.Subset.refl _) rfl rfl
  · exact .refl s

theorem endSession_chans (o : Nat) (s : State) : (endSession o s).chans = s.chans := by
  unfold endSession
  split
  · exact (foldl_ends (fun s n => endCmd_ends n o 0 0 s) _ _).chans.trans rfl
  · rfl

theorem endSession_idle {s : State} (h : s.upd.session = .receiving ∨ s.upd.session = .verified) (o : Nat) : (endSession o s).upd.session = .idle := by
  unfold endSession
  rw [if_pos h]
  exact (congrArg (fun s => s.upd.session) (foldl_ends (fun s n => endCmd_ends n o 0 0 s) _ _).rest :)

/-! What stops with a domain (Table 16.2). -/

/-- The stop of every channel by a fault. -/
def stopChannels (s : State) : State := s.chans.foldl (fun s e => chanStopFor e.1 3 s) s

theorem stopChannels_halts (s : State) : Halts s (stopChannels s) := foldl_halts (fun s (e : Nat × Chan) => chanStopFor_halts e.1 s) _ s

/-- The resets in progress when CLK_TIME stops. -/
def resetsAtOnce (s : State) : State := s.fns.foldl (fun s e => if e.2.busy then resetAtOnce e.1 s else s) s

theorem resetsAtOnce_halts (s : State) : Halts s (settleResets (resetsAtOnce s)) := by
  refine Halts.trans (foldl_halts (fun s (e : Nat × FnState) => ?_) _ s) (settleResets_resets _).halts
  split
  · exact resetAtOnce_halts ..
  · exact .refl s

/-- Without a clock of the fabric or of a memory channels, outputs and decoders stop. -/
def storeStops (s : State) : State := stopDecoders (stopOutputs (stopChannels s))

theorem storeStops_halts (s : State) : Halts s (storeStops s) := (stopChannels_halts s).trans ((stopOutputs_halts _).trans (stopDecoders_halts _))

theorem domainStops_halts (d : ClockDomain) (s : State) : Halts s (domainStops d s) := by
  cases d with
  | isle => exact stopChannels_halts s
  | ent => exact stopChannels_halts s
  | fab => exact storeStops_halts s
  | hbm => exact storeStops_halts s
  | qdr => exact storeStops_halts s
  | time => exact (stopChannels_halts s).trans ((stopOutputs_halts _).trans (resetsAtOnce_halts _))
  | ferry => exact endSession_halts ..
  | pcie => exact .refl s
  | ctl => exact .refl s

/-- Channel c has stopped by a fault, with its loss flag; it is IDLE or its end goes on. No function is in reset. -/
structure FaultStopped (c : Nat) (s : State) : Prop where
  calm : ∀ f, (fnAt s f).busy = false
  stopped : ∃ y, chanAt s c = some y ∧ y.stopReason = 3 ∧ y.lossFlag = true ∧ (y.st = .idle ∨ y.run.aborting = true)

theorem StreamOf.faultStopped {c d : Nat} {s t : State} (h : StreamOf d s t) (hs : FaultStopped c s) : FaultStopped c t := by
  obtain ⟨hcalm, y, hy, hreason, hloss, hend⟩ := hs
  refine ⟨fun f => (h.busy f).trans (hcalm f), ?_⟩
  by_cases hd : c = d
  · subst hd
    obtain ⟨z, hz, hyz⟩ := h.own y hy
    exact ⟨z, hz, hyz.fault hreason, hyz.loss hloss, hend.elim (fun hi => .inl (hyz.idle hi)) hyz.abort⟩
  · exact ⟨y, (h.others c hd).trans hy, hreason, hloss, hend⟩

theorem faultStopped_streamKeeps (c d : Nat) : StreamKeeps d (FaultStopped c) where
  stream h := h.faultStopped
  resets hs := by rw [settleResets_idle hs.calm]; exact hs

/-- Channel c stands as x, and no function is in reset. -/
structure StandsAs (c : Nat) (x : Chan) (s : State) : Prop where
  calm : ∀ f, (fnAt s f).busy = false
  same : chanAt s c = some x

/-- The streams of other channels leave a channel as it is. -/
theorem standsAs_streamKeeps {c d : Nat} (x : Chan) (hd : c ≠ d) : StreamKeeps d (StandsAs c x) where
  stream h hs := ⟨fun f => (h.busy f).trans (hs.calm f), (h.others c hd).trans hs.same⟩
  resets hs := by rw [settleResets_idle hs.calm]; exact hs

/-- An abort that a fault began stays one until its end. -/
theorem chanAbort_faultStopped {c : Nat} {x : Chan} {s : State} (hs : StandsAs c x s) (hreason : x.stopReason = 3) (hloss : x.lossFlag = true) : FaultStopped c (chanAbort c s) := by
  have hdrop := foldl_view (fun s w => besideGroups_dropGroups w false s) (chanFlows s c) s
  unfold chanAbort
  rw [hs.same]
  dsimp only
  generalize (chanFlows s c).foldl (fun s w => dropGroups w false s) s = u at hdrop ⊢
  refine endStream_keeps (faultStopped_streamKeeps c c) _ ⟨fun f => ?_, ?_⟩
  · exact (congrArg (fun s => (fnAt s f).busy) hdrop :).trans (hs.calm f)
  · have hu : chanAt u c = some x := (congrArg (fun s => chanAt s c) hdrop :).trans hs.same
    have hfade := discardRunahead_fades x
    refine ⟨_, by rw [chanAt_modChan, hu]; rfl, ?_⟩
    exact ⟨hfade.fault hreason, hfade.loss hloss, .inr rfl⟩

theorem cancelArmed_faultStopped {c : Nat} {x : Chan} {s : State} (hs : StandsAs c x s) (harmed : x.st = .armed) (hreason : x.stopReason = 3) (hloss : x.lossFlag = true) (o : Nat) :
    FaultStopped c (cancelArmed c o s) := by
  have hends := foldl_ends (fun s (d : Cmd) => endCmd_ends d.serial o 0 0 s) (chanWaiters s c) s
  unfold cancelArmed
  rw [hs.same]
  dsimp only
  rw [if_pos (by simp [harmed])]
  generalize (chanWaiters s c).foldl (fun s (d : Cmd) => endCmd d.serial o 0 0 s) s = u at hends ⊢
  refine ⟨fun f => (hends.busy f).trans (hs.calm f), ?_⟩
  have hu : chanAt u c = some x := (congrArg (FMap.get? · c) hends.chans).trans hs.same
  refine ⟨_, by rw [chanIdle, chanAt_modChan, hu]; rfl, ?_⟩
  exact ⟨hreason, hloss, .inl rfl⟩

/-- A channel that works stops by a fault as an abort (R102). -/
theorem chanStopFor_faultStopped {c : Nat} {x : Chan} {s : State} (hs : StandsAs c x s) (hx : x.st ≠ .idle) : FaultStopped c (chanStopFor c 3 s) := by
  have hmark : StandsAs c { x with stopReason := 3, lossFlag := true } (modChan s c (fun x => { x with stopReason := 3, lossFlag := true })) :=
    ⟨hs.calm, by rw [chanAt_modChan, hs.same]; rfl⟩
  unfold chanStopFor
  rw [hs.same]
  dsimp only
  split
  · next h => exact absurd h hx
  · next h => exact cancelArmed_faultStopped hmark h rfl rfl _
  · exact chanAbort_faultStopped hmark rfl rfl

/-- Every channel that works stops by a fault. -/
theorem stopChannels_faultStopped {c : Nat} {x : Chan} {s : State} (hs : StandsAs c x s) (hx : x.st ≠ .idle) : FaultStopped c (stopChannels s) := by
  have hmem := fmap_get?_mem hs.same
  unfold stopChannels
  generalize s.chans = l at hmem ⊢
  induction l generalizing s with
  | nil => cases hmem
  | cons e r ih =>
    by_cases he : c = e.1
    · subst he
      exact foldl_keeps (P := FaultStopped e.1) (fun _ d ht => chanStopFor_keeps (faultStopped_streamKeeps e.1 d.1) ht) r (chanStopFor_faultStopped hs hx)
    · refine ih (chanStopFor_keeps (standsAs_streamKeeps x he) hs) ((List.mem_cons.mp hmem).resolve_left ?_)
      exact fun h => he (congrArg Prod.fst h)

/-! The loss of a clock (R31, R32, R418, R421). -/

/-- The Straits of the domain have frozen, and its loss is noted. -/
def lossNoted (d : ClockDomain) (s : State) : State :=
  { straitStops d s with power.clocksLost := s.power.clocksLost ++ [d], power.clocksBack := s.power.clocksBack.filter (fun x => x != d) }

/-- The loss is journaled as class 1. -/
def lossJournaled (d : ClockDomain) (s : State) : State := journalAdd (lossNoted d s) 1 8 deviceFn 0 0 (domainIndex d)

/-- A holder yields, unless what it yields with has lost its clock. -/
def lossReported (d : ClockDomain) (s : State) : State := if d = .fab then lossJournaled d s else faultYield (lossJournaled d s)

theorem clockLoss_ignored {d : ClockDomain} {n : Nat} {s : State} (h : clockLost s d = true ∨ windowLost (100 * n) (nominalEdges d) = false) : clockLoss d n s = s :=
  if_pos (by obtain h | h := h <;> simp [h])

theorem clockLoss_ctl {n : Nat} {s : State} (h : clockLost s .ctl = false) (hw : windowLost (100 * n) (nominalEdges .ctl) = true) :
    clockLoss .ctl n s = settleAlert (lossNoted .ctl s) := by
  unfold clockLoss
  rw [if_neg (by simp [h, hw])]
  exact if_pos rfl

theorem clockLoss_domain {d : ClockDomain} {n : Nat} {s : State} (h : clockLost s d = false) (hw : windowLost (100 * n) (nominalEdges d) = true) (hd : d ≠ .ctl) :
    clockLoss d n s = domainStops d (lossReported d s) := by
  unfold clockLoss
  rw [if_neg (by simp [h, hw])]
  exact if_neg hd

theorem lossNoted_lost (d : ClockDomain) (s : State) : clockLost (lossNoted d s) d = true := by simp [clockLost, lossNoted]

theorem windowLost_iff (n m : Nat) : windowLost n m = true ↔ n = 0 ∨ m < 8 * ((n : Int) - m).natAbs := by simp [windowLost]

/-- Yielding sends a frame and marks the pair, and changes nothing else. -/
theorem faultYield_beside (s : State) : { besideGroups (faultYield s) with pair := {} } = { besideGroups s with pair := {} } := by
  unfold faultYield pairYield
  split
  · split
    · exact congrArg (fun u : State => { u with pair := {} }) (besideGroups_cwSend ..)
    · rfl
  · rfl

/-- Reporting a loss changes the pair, messages and the journal alone. -/
theorem lossReported_beside (d : ClockDomain) (s : State) : { besideGroups (lossReported d s) with pair := {} } = { besideGroups (lossJournaled d s) with pair := {} } := by
  unfold lossReported
  split
  · rfl
  · exact faultYield_beside _

section
variable {d : ClockDomain} {s : State}

theorem lossReported_chans : (lossReported d s).chans = s.chans := (congrArg State.chans (lossReported_beside d s) :)
theorem lossReported_outs : (lossReported d s).outs = s.outs := (congrArg State.outs (lossReported_beside d s) :)
theorem lossReported_flows : (lossReported d s).flows = s.flows := (congrArg State.flows (lossReported_beside d s) :)
theorem lossReported_fns : (lossReported d s).fns = s.fns := (congrArg State.fns (lossReported_beside d s) :)
theorem lossReported_upd : (lossReported d s).upd = s.upd := (congrArg State.upd (lossReported_beside d s) :)
theorem lossReported_journal : (lossReported d s).journal = (lossJournaled d s).journal := (congrArg State.journal (lossReported_beside d s) :)

theorem lossReported_standing : standing (lossReported d s) = standing (lossNoted d s) := (congrArg standing (lossReported_beside d s) :)

end

theorem settleAlert_low {s : State} (h : clockLost s .ctl = true) : (settleAlert s).power = { s.power with alertLow := true } := by
  have hlow : (clockLost s .ctl || decide (5 ≤ s.power.step) || s.power.quiesced) = true := by simp [h]
  unfold settleAlert
  rw [hlow]
  dsimp only
  split
  · next ha =>
    have ha : s.power.alertLow = true := by simpa using ha.symm
    rw [← ha]
  · rfl

/-- Driving ALERT_N changes nothing but the pin. -/
theorem settleAlert_beside (s : State) : { settleAlert s with outbox := [], power.alertLow := false } = { s with outbox := [], power.alertLow := false } := by
  unfold settleAlert
  dsimp only
  split <;> rfl

/-- What the loss of any clock does (R32). -/
structure LossShown (d : ClockDomain) (s t : State) : Prop where
  txs : t.fab.txs = (straitStops d s).fab.txs
  resps : t.fab.resps = (straitStops d s).fab.resps
  lost : t.power.clocksLost = s.power.clocksLost ++ [d]
  back : ∀ e, e ∈ t.power.clocksBack ↔ e ∈ s.power.clocksBack ∧ e ≠ d
  now : t.now = s.now

theorem lossShown_noted (d : ClockDomain) (s : State) : LossShown d s (lossNoted d s) := ⟨rfl, rfl, rfl, fun e => by simp [lossNoted], rfl⟩

theorem LossShown.of_standing {d : ClockDomain} {s t u : State} (h : LossShown d s t) (hu : standing u = standing t) : LossShown d s u := by
  have hfab : u.fab = t.fab := (congrArg State.fab hu :)
  have hpower : u.power = t.power := (congrArg State.power hu :)
  have hnow : u.now = t.now := (congrArg State.now hu :)
  obtain ⟨h1, h2, h3, h4, h5⟩ := h
  exact ⟨by rw [hfab, h1], by rw [hfab, h2], by rw [hpower, h3], by rw [hpower]; exact h4, hnow.trans h5⟩

/-- Only ALERT_N shows the loss of CLK_CTL (R418). -/
theorem clockLoss_ctl_shows {n : Nat} {s : State} (h : clockLost s .ctl = false) (hw : windowLost (100 * n) (nominalEdges .ctl) = true) :
    LossShown .ctl s (clockLoss .ctl n s) ∧ (clockLoss .ctl n s).power.alertLow = true ∧ { clockLoss .ctl n s with outbox := [], fab := {}, power := {} } = { s with outbox := [], fab := {}, power := {} } := by
  rw [clockLoss_ctl h hw]
  have hpower := settleAlert_low (lossNoted_lost .ctl s)
  have hbeside := settleAlert_beside (lossNoted .ctl s)
  have hfab : (settleAlert (lossNoted .ctl s)).fab = (lossNoted .ctl s).fab := (congrArg State.fab hbeside :)
  obtain ⟨h1, h2, h3, h4, h5⟩ := lossShown_noted .ctl s
  refine ⟨⟨by rw [hfab, h1], by rw [hfab, h2], by rw [hpower]; exact h3, by rw [hpower]; exact h4, (congrArg State.now hbeside :)⟩, by rw [hpower], ?_⟩
  exact (congrArg (fun u : State => { u with fab := {}, power := {} }) hbeside :)

theorem clockLoss_domain_shows {d : ClockDomain} {n : Nat} {s : State} (h : clockLost s d = false) (hw : windowLost (100 * n) (nominalEdges d) = true) (hd : d ≠ .ctl) :
    LossShown d s (clockLoss d n s) ∧ ∃ e ∈ (clockLoss d n s).journal.staged, e.cls = 1 ∧ e.detail = domainIndex d := by
  rw [clockLoss_domain h hw hd]
  have hstops := domainStops_halts d (lossReported d s)
  refine ⟨(lossShown_noted d s).of_standing (hstops.rest.trans lossReported_standing), ?_⟩
  refine ⟨_, hstops.staged (by rw [lossReported_journal]; exact List.mem_append_right _ (.head _)), rfl, ?_⟩
  cases d <;> rfl

/-- The coding clocks (Table 16.2). -/
def codes (d : ClockDomain) : Prop := d = .isle ∨ d = .ent ∨ d = .fab ∨ d = .hbm ∨ d = .qdr ∨ d = .time

/-- The clocks of the fabric and of the memories. -/
def stores (d : ClockDomain) : Prop := d = .fab ∨ d = .hbm ∨ d = .qdr

theorem FaultStopped.of_chans {c : Nat} {s t : State} (h : FaultStopped c s) (ht : t.chans = s.chans) : ∃ y, chanAt t c = some y ∧ y.stopReason = 3 ∧ y.lossFlag = true ∧ (y.st = .idle ∨ y.run.aborting = true) := by
  obtain ⟨y, hy, hstop⟩ := h.stopped
  exact ⟨y, (congrArg (FMap.get? · c) ht).trans hy, hstop⟩

theorem storeStops_stopped (s : State) : (∀ e ∈ (storeStops s).outs, e.2.stopped = true) ∧ ∀ e ∈ (storeStops s).decs, e.2.stopped = true :=
  ⟨(stopDecoders_halts _).outs (stopOutputs_stopped _), stopDecoders_stopped _⟩

/-! Resets that CLK_TIME no longer lets wait end at once; a channel that has stopped stays so (R428). -/

section
variable {c : Nat} {s : State} (hs : FaultStopped c s)
include hs

theorem FaultStopped.of_same {t : State} (hf : t.fns = s.fns) (hc : t.chans = s.chans) : FaultStopped c t :=
  ⟨fun f => (congrArg (fun m => (FMap.getD m f {}).busy) hf).trans (hs.calm f), hs.of_chans hc⟩

theorem FaultStopped.ends {t : State} (h : Ends s t) : FaultStopped c t := (faultStopped_streamKeeps c c).ends h hs

theorem settleSurface_faultStopped (n : Nat) : FaultStopped c (settleSurface n s) := by
  unfold settleSurface
  dsimp only
  split
  · exact hs.of_same rfl rfl
  · refine foldl_keeps (P := FaultStopped c) (fun t u ht => ?_) _ (hs.of_same rfl rfl)
    split
    · exact ht
    · split
      · exact (ht.of_same (t := modSurf t n _) rfl rfl).ends (finishCmd_ends ..)
      · exact ht

theorem settleSurfaces_faultStopped : FaultStopped c (settleSurfaces s) := by
  unfold settleSurfaces
  exact foldl_keeps (P := FaultStopped c) (fun _ (e : Nat × Surface) ht => settleSurface_faultStopped ht e.1) _ hs

theorem destroyOutput_faultStopped (n : Nat) : FaultStopped c (destroyOutput n s) := by
  unfold destroyOutput
  split
  · exact hs
  · next o _ =>
    have hcommits := hs.ends (foldl_ends (fun s (k : Commit) => endCmd_ends k.serial stCancelled 0 0 s) (o.commits.filter (fun k => !(fnAt s k.fn.val).busy)) s)
    dsimp only
    generalize (o.commits.filter (fun k => !(fnAt s k.fn.val).busy)).foldl (fun s (k : Commit) => endCmd k.serial stCancelled 0 0 s) s = u at hcommits ⊢
    have hlost : FaultStopped c (if o.lh.isSome then { u with irq.lhLost := true } else u) := by
      split
      · exact hcommits.of_same rfl rfl
      · exact hcommits
    refine (faultStopped_streamKeeps c c).resets (settleSurfaces_faultStopped ?_)
    refine FaultStopped.ends ?_ (foldl_ends (fun s (e : Nat × Cmd) => finishCmd_ends e.2.serial 1 0 0 s) _ _)
    exact hlost.of_same rfl rfl

theorem setDecState_faultStopped (n st : Nat) : FaultStopped c (setDecState n st s) := by
  unfold setDecState
  split
  · exact hs
  · split
    · exact hs
    · refine FaultStopped.ends (s := modDec s n _) ?_ (postEvent_ends ..)
      exact hs.of_same rfl rfl

theorem settleDecoder_faultStopped (n : Nat) : FaultStopped c (settleDecoder n s) := by
  unfold settleDecoder
  split
  · exact hs
  · split
    · split
      · exact hs
      · refine setDecState_faultStopped (s := modDec s n _) ?_ n 4
        exact hs.of_same rfl rfl
    · split
      · exact setDecState_faultStopped hs ..
      · exact hs

theorem stopDecoders_faultStopped : FaultStopped c (stopDecoders s) := by
  unfold stopDecoders settleDecoders
  refine foldl_keeps (P := FaultStopped c) (fun _ (e : Nat × Decoder) ht => settleDecoder_faultStopped ht e.1) _ ?_
  exact hs.of_same rfl rfl

theorem stopOutputs_faultStopped : FaultStopped c (stopOutputs s) := hs.of_same (stopOutputs_fns s) (stopOutputs_chans s)

theorem removeFlowOut_faultStopped (w : Nat) : FaultStopped c (removeFlowOut w s) := by
  have hdrop := (faultStopped_streamKeeps c c).groups (besideGroups_dropGroups w true s) hs
  unfold removeFlowOut
  dsimp only
  split
  · exact hdrop
  · split
    · exact hdrop.of_same rfl rfl
    · exact hdrop.of_same rfl rfl

theorem applyRemovals_faultStopped : FaultStopped c (applyRemovals s) := by
  refine foldl_keeps (P := FaultStopped c) (fun t e ht => ?_) _ (hs.of_same (t := { s with net.removals := [] }) rfl rfl)
  split
  · exact removeFlowOut_faultStopped ht e.2
  · exact ht.of_same rfl rfl

theorem applyBusResets_faultStopped : FaultStopped c (applyBusResets s) := by
  unfold applyBusResets
  refine foldl_keeps (P := FaultStopped c) (fun t f ht => ?_) _ (hs.of_same (t := { s with audio.resets := [] }) rfl rfl)
  refine ⟨ht.calm, ?_⟩
  obtain ⟨y, hy, hstop⟩ := ht.stopped
  have hmap := fmap_get?_mapVals (fun _ (x : Chan) => if x.owner.val = f then { x with st302 := [] } else x) t.chans c
  rw [show FMap.get? t.chans c = some y from hy] at hmap
  refine ⟨_, hmap, ?_⟩
  dsimp only
  split <;> exact hstop

theorem resetAtOnce_faultStopped (f : Nat) : FaultStopped c (resetAtOnce f s) := by
  unfold resetAtOnce
  dsimp only
  refine FaultStopped.of_same (applyBusResets_faultStopped ?_) rfl rfl
  exact foldl_keeps (P := FaultStopped c) (fun _ (e : Nat × Output) ht => destroyOutput_faultStopped ht e.1) _ (applyRemovals_faultStopped hs)

theorem resetsAtOnce_faultStopped : FaultStopped c (settleResets (resetsAtOnce s)) := by
  refine (faultStopped_streamKeeps c c).resets (foldl_keeps (P := FaultStopped c) (fun t (e : Nat × FnState) ht => ?_) _ hs)
  split
  · exact resetAtOnce_faultStopped ht e.1
  · exact ht

end

/-- With a coding clock every channel that works stops (Table 16.2). -/
theorem domainStops_faultStopped {c : Nat} {x : Chan} {d : ClockDomain} {s : State} (hd : codes d) (hs : StandsAs c x s) (hx : x.st ≠ .idle) : FaultStopped c (domainStops d s) := by
  have hstop := stopChannels_faultStopped hs hx
  have hstore : FaultStopped c (storeStops s) := stopDecoders_faultStopped (stopOutputs_faultStopped hstop)
  obtain rfl | rfl | rfl | rfl | rfl | rfl := hd
  · exact hstop
  · exact hstop
  · exact hstore
  · exact hstore
  · exact hstore
  · exact resetsAtOnce_faultStopped (stopOutputs_faultStopped hstop)

/-- Without a clock of the fabric or of a memory every output and decoder stops, without CLK_TIME every output (Table 16.2). -/
theorem domainStops_stopped {d : ClockDomain} (s : State) :
    (stores d → (∀ e ∈ (domainStops d s).outs, e.2.stopped = true) ∧ ∀ e ∈ (domainStops d s).decs, e.2.stopped = true) ∧
    (d = .time → ∀ e ∈ (domainStops d s).outs, e.2.stopped = true) := by
  refine ⟨?_, ?_⟩
  · rintro (rfl | rfl | rfl) <;> exact storeStops_stopped s
  · rintro rfl
    exact (resetsAtOnce_halts _).outs (stopOutputs_stopped _)

theorem calm_of_listed {s : State} (h : ∀ e ∈ s.fns, e.2.busy = false) (f : Nat) : (fnAt s f).busy = false := by
  cases hf : FMap.get? s.fns f with
  | none => simp [fnAt, FMap.getD, hf]
  | some x => simpa [fnAt, FMap.getD, hf] using h _ (fmap_get?_mem hf)

theorem StandsAs.reported {c : Nat} {x : Chan} {s : State} (h : StandsAs c x s) (d : ClockDomain) : StandsAs c x (lossReported d s) :=
  ⟨fun f => (congrArg (fun m => (FMap.getD m f {}).busy) lossReported_fns).trans (h.calm f), (congrArg (FMap.get? · c) lossReported_chans).trans h.same⟩

theorem clockReturn_eq (d : ClockDomain) (s : State) :
    (clockLost s d = true → d ∉ s.power.clocksBack → clockReturn d s = { s with power.clocksBack := s.power.clocksBack ++ [d] }) ∧
    (clockLost s d = false ∨ d ∈ s.power.clocksBack → clockReturn d s = s) := by
  refine ⟨fun hl hb => ?_, fun h => ?_⟩
  · exact if_pos (by simp [hl, hb])
  · refine if_neg ?_
    obtain h | h := h <;> simp [h]

end Sys2Proof.Architecture

/-! PROOFS. Per-function reset: what it stops, and what it leaves (R423 to R429). -/

namespace Sys2Proof.Architecture

open Sys2Proof.Machine Sys2Proof.Laws Sys2Proof.HostAccess

/-! What a function keeps in a reset. -/

/-- What every function keeps through a reset. -/
def lastings (s : State) : Nat → FnState := fun f => lasting (fnAt s f)

theorem Resets.lastings {s t : State} (h : Resets s t) : lastings t = lastings s := funext h.fns
theorem Ends.lastings {s t : State} (h : Ends s t) : lastings t = lastings s := h.resets.lastings
theorem StreamOf.lastings {c : Nat} {s t : State} (h : StreamOf c s t) : lastings t = lastings s := funext fun f => (congrArg lasting (h.fns f) :)
theorem lastings_of_besideGroups {s t : State} (h : besideGroups t = besideGroups s) : lastings t = lastings s := (congrArg lastings h :)

theorem lastings_modFn (s : State) (f : Nat) {g : FnState → FnState} (h : ∀ x, lasting (g x) = lasting x) : lastings (modFn s f g) = lastings s := (modFn_resets s f h).lastings

theorem lastings_settleSurface (n : Nat) (s : State) : lastings (settleSurface n s) = lastings s := by
  unfold settleSurface
  dsimp only
  split
  · rfl
  · refine foldl_view (s := flipDue n s) (fun s u => ?_) _
    split
    · rfl
    · split
      · exact (finishCmd_ends ..).lastings.trans rfl
      · rfl

theorem lastings_destroyOutput (n : Nat) (s : State) : lastings (destroyOutput n s) = lastings s := by
  unfold destroyOutput
  split
  · rfl
  · next o _ =>
    dsimp only
    have hcommits := (foldl_ends (fun s (c : Commit) => endCmd_ends c.serial stCancelled 0 0 s) (o.commits.filter (fun c => !(fnAt s c.fn.val).busy)) s).lastings
    generalize (o.commits.filter (fun c => !(fnAt s c.fn.val).busy)).foldl (fun s (c : Commit) => endCmd c.serial stCancelled 0 0 s) s = u at hcommits ⊢
    refine (settleResets_resets _).lastings.trans ((foldl_view (fun s (e : Nat × Surface) => lastings_settleSurface e.1 s) _ _).trans ?_)
    refine (foldl_ends (fun s (e : Nat × Cmd) => finishCmd_ends e.2.serial 1 0 0 s) _ _).lastings.trans (Eq.trans ?_ hcommits)
    split <;> rfl

theorem lastings_removeFlowOut (w : Nat) (s : State) : lastings (removeFlowOut w s) = lastings s := by
  refine Eq.trans ?_ (lastings_of_besideGroups (besideGroups_dropGroups w true s))
  unfold removeFlowOut
  dsimp only
  split
  · rfl
  · split <;> rfl

theorem lastings_applyRemovals (s : State) : lastings (applyRemovals s) = lastings s := by
  refine (foldl_view (fun s (e : Bool × Nat) => ?_) _ _).trans rfl
  split
  · exact lastings_removeFlowOut ..
  · rfl

theorem lastings_applyBusResets (s : State) : lastings (applyBusResets s) = lastings s := by
  refine (foldl_view (v := lastings) (fun s f => ?_) _ _).trans rfl
  rfl

theorem lastings_resetAtOnce (f : Nat) (s : State) : lastings (resetAtOnce f s) = lastings s := by
  unfold resetAtOnce
  dsimp only
  refine Eq.trans rfl ((lastings_applyBusResets _).trans ?_)
  exact (foldl_view (fun s (e : Nat × Output) => lastings_destroyOutput e.1 s) _ _).trans (lastings_applyRemovals s)

/-! What a reset stops at once (R424 steps 1 and 2). -/

/-- A channel of a function in reset. -/
def doom (x : Chan) : Chan := { x with doomed := true, stopReason := 4 }

/-- What the stop of a channel keeps, its reset's stop keeps. -/
theorem doomChannel_keeps {c : Nat} {P : State → Prop} (h : StreamKeeps c P) (hdoom : ∀ {s}, P s → P (modChan s c doom)) {s : State} (hs : P s) : P (doomChannel s c) := by
  unfold doomChannel
  split
  · exact hs
  · dsimp only
    split
    · split
      · exact hdoom hs
      · exact chanAbort_keeps h (hdoom hs)
    · exact chanDoomedEnd_keeps h (hdoom hs)

/-- BUSY sets, the function's requests go, and its outputs go at their next picture. -/
def outputsDoomed (f : Nat) (s : State) : State :=
  let u := cancelFnTx f (modFn s f (fun x => { x with busy := true }))
  { u with outs := u.outs.mapVals (fun _ (o : Output) => if o.owner.val == f then { o with dying := true } else o) }

/-- The function's decoders go; layers that show them keep their last picture. -/
def decodersGone (f : Nat) (s : State) : State :=
  let u := (s.decs.filter (fun e => e.2.owner.val == f)).foldl (fun s e => freezeDecoder e.1 s) s
  { u with decs := u.decs.keep (fun _ d => !(d.owner.val == f)) }

/-- The removal of the function's flows is asked for, and what ends at a bus frame boundary. -/
def removalsAsked (f : Nat) (s : State) : State :=
  { s with net.removals := s.net.removals ++ (s.net.flowsIn.filter (fun e => e.2.owner.val == f)).map (fun e => (false, e.1)) ++ (s.net.flowsOut.filter (fun e => e.2.owner.val == f)).map (fun e => (true, e.1)),
           audio.resets := if audioOwned f s then s.audio.resets ++ [f] else s.audio.resets }

/-- The function's pulses and triggers go. -/
def eventsGone (f : Nat) (s : State) : State :=
  let u := (s.time.pulses.filter (fun e => e.2.owner.val == f)).foldl (fun s e => drivePulse e.1 e.2.activeLow { s with time.pulses := s.time.pulses.erase e.1 }) s
  { u with time.triggers := u.time.triggers.keep (fun _ t => !(t.owner.val == f)) }

/-- The function's objects but its channels. -/
def objectsStopped (f : Nat) (s : State) : State := eventsGone f (removalsAsked f (decodersGone f (outputsDoomed f s)))

/-- The function's channels. -/
def channelsDoomed (f : Nat) (s : State) : State := (s.chans.filter (fun e => e.2.owner.val == f)).foldl (fun s e => doomChannel s e.1) s

theorem resetStop_eq (f : Nat) (s : State) : resetStop f s = channelsDoomed f (objectsStopped f s) := rfl

/-- What the stop of the objects of f leaves: of its functions f is BUSY; nothing of channels, journal and power has changed. -/
structure ObjectsStopped (f : Nat) (s t : State) : Prop where
  fns : t.fns = (modFn s f (fun x => { x with busy := true })).fns
  chans : t.chans = s.chans
  journal : t.journal = s.journal
  power : t.power = s.power
  outs : ∀ e ∈ t.outs, e.2.owner.val = f → e.2.dying = true
  decs : ∀ e ∈ t.decs, e.2.owner.val ≠ f
  triggers : ∀ e ∈ t.time.triggers, e.2.owner.val ≠ f
  removals : ∀ n w, flowOutAt s n = some w → w.owner.val = f → (true, n) ∈ t.net.removals

/-- The state beside outputs. -/
def besideOuts (s : State) : State := { s with outs := [] }

/-- The state beside pulse outputs. -/
def besidePulses (s : State) : State := { s with outbox := [], time.pulseOut := 0, time.pulses := [] }

theorem besidePulses_drivePulse (o : Nat) (high : Bool) (s : State) : besidePulses (drivePulse o high s) = besidePulses s := by
  unfold drivePulse
  split <;> rfl

theorem besidePulses_eventsGone (f : Nat) (s : State) :
    besidePulses (eventsGone f s) = { besidePulses s with time.triggers := s.time.triggers.keep (fun _ t => !(t.owner.val == f)) } := by
  have h := foldl_view (v := besidePulses) (g := fun s (e : Nat × Pulse) => drivePulse e.1 e.2.activeLow { s with time.pulses := s.time.pulses.erase e.1 })
    (fun s e => (besidePulses_drivePulse ..).trans rfl) (s.time.pulses.filter (fun e => e.2.owner.val == f)) s
  exact (congrArg (fun u : State => { u with time.triggers := u.time.triggers.keep (fun _ t => !(t.owner.val == f)) }) h :)

theorem besideOuts_decodersGone (f : Nat) (s : State) : besideOuts (decodersGone f s) = { besideOuts s with decs := s.decs.keep (fun _ d => !(d.owner.val == f)) } := by
  have h := foldl_view (v := besideOuts) (g := fun s (e : Nat × Decoder) => freezeDecoder e.1 s) (fun _ _ => rfl) (s.decs.filter (fun e => e.2.owner.val == f)) s
  exact (congrArg (fun u : State => { u with decs := u.decs.keep (fun _ d => !(d.owner.val == f)) }) h :)

/-- A frozen source leaves owners and ends of outputs as they are. -/
theorem freezeDecoder_outs {f d : Nat} {s : State} (h : ∀ e ∈ s.outs, e.2.owner.val = f → e.2.dying = true) : ∀ e ∈ (freezeDecoder d s).outs, e.2.owner.val = f → e.2.dying = true := by
  rintro _ he
  obtain ⟨o, ho, rfl⟩ := List.mem_map.mp he
  exact h o ho

theorem outputsDoomed_outs (f : Nat) (s : State) : ∀ e ∈ (outputsDoomed f s).outs, e.2.owner.val = f → e.2.dying = true := by
  rintro _ he
  obtain ⟨o, -, rfl⟩ := List.mem_map.mp he
  dsimp only
  split
  · exact fun _ => rfl
  · next h => exact fun ho => absurd (by simpa using ho) h

theorem decodersGone_outs {f : Nat} {s : State} (h : ∀ e ∈ s.outs, e.2.owner.val = f → e.2.dying = true) : ∀ e ∈ (decodersGone f s).outs, e.2.owner.val = f → e.2.dying = true :=
  foldl_keeps (P := fun t : State => ∀ e ∈ t.outs, e.2.owner.val = f → e.2.dying = true) (g := fun s (e : Nat × Decoder) => freezeDecoder e.1 s) (fun _ _ ht => freezeDecoder_outs ht) _ h

theorem not_mem_keep {α : Type} {m : FMap α} {owner : α → Fn} {f : Nat} : ∀ e ∈ m.keep (fun _ x => !((owner x).val == f)), (owner e.2).val ≠ f := by
  intro e he
  have h := (List.mem_filter.mp he).2
  simpa using h

theorem objectsStopped_stops (f : Nat) (s : State) : ObjectsStopped f s (objectsStopped f s) := by
  have hevents := besidePulses_eventsGone f (removalsAsked f (decodersGone f (outputsDoomed f s)))
  have hdecs := besideOuts_decodersGone f (outputsDoomed f s)
  refine ⟨?_, ?_, ?_, ?_, ?_, ?_, ?_, ?_⟩
  · exact (congrArg State.fns hevents :).trans (congrArg State.fns hdecs :)
  · exact (congrArg State.chans hevents :).trans (congrArg State.chans hdecs :)
  · exact (congrArg State.journal hevents :).trans (congrArg State.journal hdecs :)
  · exact (congrArg State.power hevents :).trans (congrArg State.power hdecs :)
  · have houts : (objectsStopped f s).outs = (decodersGone f (outputsDoomed f s)).outs := (congrArg State.outs hevents :)
    rw [houts]
    exact decodersGone_outs (outputsDoomed_outs f s)
  · have h : (objectsStopped f s).decs = s.decs.keep (fun _ d => !(d.owner.val == f)) := (congrArg State.decs hevents :).trans (congrArg State.decs hdecs :)
    rw [h]
    exact not_mem_keep
  · have h : (objectsStopped f s).time.triggers = _ := (congrArg (fun s => s.time.triggers) hevents :)
    rw [h]
    exact not_mem_keep
  · intro n w hw hf
    have hflows : (decodersGone f (outputsDoomed f s)).net.flowsOut = s.net.flowsOut := (congrArg (fun s => s.net.flowsOut) hdecs :)
    have h : (objectsStopped f s).net.removals = _ := (congrArg (fun s => s.net.removals) hevents :)
    rw [h]
    refine List.mem_append_right _ (List.mem_map.mpr ⟨(n, w), List.mem_filter.mpr ⟨?_, by simpa using hf⟩, rfl⟩)
    rw [hflows]
    exact fmap_get?_mem hw

/-! What the channels of the function that stop, and the resets that go on, leave as it is. -/

/-- Outputs, decoders, time, power and the removals that wait. -/
def objectsLeft (s : State) : State := { outs := s.outs, decs := s.decs, time := s.time, power := s.power, net.removals := s.net.removals }

/-- From s to t channels have ended and resets have gone on: no other object has changed, and the journal has only grown. -/
structure ObjectsLeft (s t : State) : Prop where
  objects : objectsLeft t = objectsLeft s
  lastings : lastings t = lastings s
  staged : s.journal.staged ⊆ t.journal.staged

theorem ObjectsLeft.refl (s : State) : ObjectsLeft s s := ⟨rfl, rfl, List.Subset.refl _⟩

theorem ObjectsLeft.trans {s t u : State} (h : ObjectsLeft s t) (g : ObjectsLeft t u) : ObjectsLeft s u :=
  ⟨g.objects.trans h.objects, g.lastings.trans h.lastings, List.Subset.trans h.staged g.staged⟩

theorem Resets.objectsLeft {s t : State} (h : Resets s t) : ObjectsLeft s t := ⟨(congrArg Architecture.objectsLeft h.rest :), h.lastings, h.staged⟩

theorem StreamOf.objectsLeft {c : Nat} {s t : State} (h : StreamOf c s t) : ObjectsLeft s t := ⟨(congrArg Architecture.objectsLeft h.rest :), h.lastings, h.staged⟩

theorem objectsLeft_streamKeeps (c : Nat) (s : State) : StreamKeeps c (ObjectsLeft s) where
  stream h hs := hs.trans h.objectsLeft
  resets hs := hs.trans (settleResets_resets _).objectsLeft

theorem channelsDoomed_objectsLeft (f : Nat) (s : State) : ObjectsLeft s (channelsDoomed f s) :=
  foldl_keeps (P := ObjectsLeft s) (fun _ (e : Nat × Chan) ht => doomChannel_keeps (objectsLeft_streamKeeps e.1 s) (fun hu => hu.trans ⟨rfl, rfl, List.Subset.refl _⟩) ht) _ (.refl s)

/-- The entry that is journaled is staged. -/
theorem journalAdd_entry (s : State) (cls flags function kind object detail : Nat) :
    ∃ e ∈ (journalAdd s cls flags function kind object detail).journal.staged, e.cls = cls ∧ e.function = function ∧ e.detail = detail % 2 ^ 48 :=
  ⟨{ seq := s.journal.nextSeq, tide := s.time.tide, cls := cls, flags := flags ||| pairFlags s, function := function, objKind := kind, object := object, detail := detail % 2 ^ 48 },
    List.mem_append_right _ (.head _), rfl, rfl, rfl⟩

/-- The state in which the objects of f stop: its reset is journaled, and remembered as an FLR. -/
def resetJournaled (f cause : Nat) (s : State) : State :=
  journalAdd (if cause = 3 then modFn s f (fun x => { x with resetFlr := true }) else s) 0 0 f 0 0 cause

section
variable {f : Nat} {cause : Nat} {s : State}

theorem busy_modFn {g : FnState → FnState} (h : ∀ x, (g x).busy = x.busy) (k : Nat) : (fnAt (modFn s f g) k).busy = (fnAt s k).busy :=
  fnAt_setFn_relates (P := fun x y => y.busy = x.busy) (h _) (fun _ => rfl) k

theorem resetJournaled_busy (g : Nat) : (fnAt (resetJournaled f cause s) g).busy = (fnAt s g).busy := by
  unfold resetJournaled
  split
  · exact busy_modFn (s := s) (f := f) (g := fun x => { x with resetFlr := true }) (fun _ => rfl) g
  · rfl

theorem resetJournaled_lastings : lastings (resetJournaled f cause s) = lastings s := by
  unfold resetJournaled
  refine (journalAdd_ends ..).lastings.trans ?_
  split
  · exact lastings_modFn s f fun _ => rfl
  · rfl

/-- Nothing but the function and the journal changes. -/
theorem resetJournaled_beside : { resetJournaled f cause s with fns := [], journal := {} } = { s with fns := [], journal := {} } := by
  unfold resetJournaled
  split <;> rfl

theorem resetBegin_merged (hk : cause ≠ 3) (h : (fnAt s f).busy = true) : resetBegin f cause s = settleReset s f := by
  unfold resetBegin
  rw [if_neg hk]
  exact if_pos h

/-- A reset that begins. -/
theorem resetBegin_starts (h : (fnAt s f).busy = false) :
    resetBegin f cause s =
      settleResets (if clockLost (resetStop f (resetJournaled f cause s)) .time then resetAtOnce f (resetStop f (resetJournaled f cause s)) else resetStop f (resetJournaled f cause s)) := by
  have hb : ¬ (fnAt (if cause = 3 then modFn s f (fun x => { x with resetFlr := true }) else s) f).busy = true := by
    have := resetJournaled_busy (f := f) (cause := cause) (s := s) f
    rw [← Bool.not_eq_true] at h
    exact fun hn => h (this.symm.trans hn)
  unfold resetBegin
  exact if_neg hb

theorem resetStop_power : (resetStop f s).power = s.power := by
  rw [resetStop_eq]
  exact (congrArg State.power (channelsDoomed_objectsLeft f _).objects :).trans (objectsStopped_stops f s).power

theorem resetStop_lastings : lastings (resetStop f s) = lastings s := by
  rw [resetStop_eq]
  refine (channelsDoomed_objectsLeft f _).lastings.trans ?_
  have h : lastings (objectsStopped f s) = lastings (modFn s f (fun x => { x with busy := true })) :=
    congrArg (fun (m : FMap FnState) (g : Nat) => lasting (m.getD g {})) (objectsStopped_stops f s).fns
  exact h.trans (lastings_modFn s f fun _ => rfl)

/-- With CLK_TIME running what a reset stops waits for its boundary. -/
theorem resetBegin_running (h : (fnAt s f).busy = false) (hclk : clockLost s .time = false) :
    resetBegin f cause s = settleResets (channelsDoomed f (objectsStopped f (resetJournaled f cause s))) := by
  have hpower : (resetStop f (resetJournaled f cause s)).power = s.power := resetStop_power.trans (congrArg State.power resetJournaled_beside :)
  have hlost : clockLost (resetStop f (resetJournaled f cause s)) .time = false := (congrArg (fun p => p.clocksLost.contains ClockDomain.time) hpower).trans hclk
  rw [resetBegin_starts h, hlost, resetStop_eq]
  rfl

/-- The PCIe settings of a function that is not in reset stay through the begin of one. -/
theorem resetBegin_lastings (h : (fnAt s f).busy = false) : lastings (resetBegin f cause s) = lastings s := by
  rw [resetBegin_starts h]
  refine (settleResets_resets _).lastings.trans ?_
  have hstop : lastings (resetStop f (resetJournaled f cause s)) = lastings s := resetStop_lastings.trans resetJournaled_lastings
  split
  · exact (lastings_resetAtOnce ..).trans hstop
  · exact hstop

end

/-- What a reset of f that begins takes away at once, and what it marks (R424). -/
theorem resetBegin_stops {f cause : Nat} {s : State} (h : (fnAt s f).busy = false) (hclk : clockLost s .time = false) :
    (∀ e ∈ (resetBegin f cause s).decs, e.2.owner.val ≠ f) ∧ (∀ e ∈ (resetBegin f cause s).outs, e.2.owner.val = f → e.2.dying = true) ∧
    (∀ e ∈ (resetBegin f cause s).time.triggers, e.2.owner.val ≠ f) ∧
    (∀ n w, flowOutAt s n = some w → w.owner.val = f → (true, n) ∈ (resetBegin f cause s).net.removals) ∧
    (∃ e ∈ (resetBegin f cause s).journal.staged, e.cls = 0 ∧ e.function = f ∧ e.detail = cause % 2 ^ 48) := by
  rw [resetBegin_running h hclk]
  have hstops := objectsStopped_stops f (resetJournaled f cause s)
  have hleft := (channelsDoomed_objectsLeft f (objectsStopped f (resetJournaled f cause s))).trans (settleResets_resets _).objectsLeft
  generalize settleResets (channelsDoomed f (objectsStopped f (resetJournaled f cause s))) = t at hleft
  generalize objectsStopped f (resetJournaled f cause s) = u at hstops hleft
  have hdecs : t.decs = u.decs := (congrArg State.decs hleft.objects :)
  have houts : t.outs = u.outs := (congrArg State.outs hleft.objects :)
  have htime : t.time = u.time := (congrArg State.time hleft.objects :)
  have hnet : t.net.removals = u.net.removals := (congrArg (fun s => s.net.removals) hleft.objects :)
  rw [hdecs, houts, htime, hnet]
  refine ⟨hstops.decs, hstops.outs, hstops.triggers, fun n w hw => hstops.removals n w ?_, ?_⟩
  · exact (congrArg (fun s => flowOutAt s n) (resetJournaled_beside (f := f) (cause := cause) (s := s)) :).trans hw
  · obtain ⟨e, he, hentry⟩ := journalAdd_entry (if cause = 3 then modFn s f (fun x => { x with resetFlr := true }) else s) 0 0 f 0 0 cause
    exact ⟨e, hleft.staged (hstops.journal ▸ he), hentry⟩

/-! Channels of other functions (R424). -/

/-- Only f is in reset, the channels are in canonical form, and channel c, of another function, stands as x. -/
structure OthersChannel (f c : Nat) (x : Chan) (s : State) : Prop where
  calm : ∀ g, g ≠ f → (fnAt s g).busy = false
  wf : s.chans.wf = true
  same : chanAt s c = some x
  other : x.owner.val ≠ f

theorem fmap_get?_keep {α : Type} {m : FMap α} {k : Nat} {v : α} {p : Nat → α → Bool} (h : FMap.get? m k = some v) (hp : p k v = true) (hwf : FMap.wf m = true) :
    FMap.get? (FMap.keep p m) k = some v := by
  induction m with
  | nil => cases h
  | cons e r ih =>
    obtain ⟨j, w⟩ := e
    obtain ⟨hlt, hr⟩ := fmap_wf_cons.mp hwf
    by_cases hj : j = k
    · subst hj
      have hw : w = v := by simpa [FMap.get?] using h
      subst hw
      simp [FMap.keep, FMap.get?, hp]
    · have hrest : FMap.get? r k = some v := by simpa [FMap.get?, hj] using h
      have := ih hrest hr
      by_cases hpw : p j w = true
      · simpa [FMap.keep, FMap.get?, hpw, hj] using this
      · simpa [FMap.keep, FMap.get?, hpw] using this

theorem fmap_get?_of_mem {α : Type} {m : FMap α} {k : Nat} {v : α} (h : (k, v) ∈ m) (hwf : FMap.wf m = true) : FMap.get? m k = some v := by
  induction m with
  | nil => cases h
  | cons e r ih =>
    obtain ⟨hlt, hr⟩ := fmap_wf_cons.mp hwf
    obtain rfl | hmem := List.mem_cons.mp h
    · simp [FMap.get?]
    · have hne : e.1 ≠ k := Nat.ne_of_lt (hlt _ hmem)
      simpa [FMap.get?, hne] using ih hmem hr

section
variable {f c : Nat} {x : Chan} {s : State} (hs : OthersChannel f c x s)
include hs

theorem OthersChannel.of_chans {t : State} (hb : ∀ g, g ≠ f → (fnAt t g).busy = (fnAt s g).busy) (hc : t.chans = s.chans) : OthersChannel f c x t :=
  ⟨fun g hg => (hb g hg).trans (hs.calm g hg), (congrArg FMap.wf hc).trans hs.wf, (congrArg (FMap.get? · c) hc).trans hs.same, hs.other⟩

theorem OthersChannel.ends {t : State} (h : Ends s t) : OthersChannel f c x t := hs.of_chans (fun g _ => h.busy g) h.chans

theorem OthersChannel.modFn (g : FnState → FnState) : OthersChannel f c x (modFn s f g) :=
  hs.of_chans (fun _ hk => congrArg FnState.busy (fnAt_modFn_ne hk.symm)) rfl

theorem irqSettle_others (old : State) : OthersChannel f c x (irqSettle old s) := by
  refine hs.of_chans (fun g _ => ?_) (irqSettle_chans ..)
  obtain ⟨_, h⟩ := fnAt_irqSettle old s g
  rw [h]

theorem irqResetFn_others : OthersChannel f c x (irqResetFn f s) := by
  unfold irqResetFn irqDo
  dsimp only
  refine irqSettle_others (OthersChannel.modFn ?_ _) s
  exact hs.of_chans (fun _ _ => rfl) rfl

/-- The channels of f go; those of other functions stay. -/
theorem OthersChannel.keep {t : State} (hb : ∀ g, g ≠ f → (fnAt t g).busy = (fnAt s g).busy) (hc : t.chans = s.chans.keep (fun _ x => !(x.owner.val == f))) : OthersChannel f c x t where
  calm g hg := (hb g hg).trans (hs.calm g hg)
  wf := by rw [hc]; exact fmap_wf_keep _ hs.wf
  same := (congrArg (FMap.get? · c) hc).trans (fmap_get?_keep hs.same (by simpa using hs.other) hs.wf)
  other := hs.other

theorem resetFinish_others : OthersChannel f c x (resetFinish f s) := by
  have hirq := irqResetFn_others (hs.ends (foldl_ends (journalHeld_ends f) ((fnAt s f).cqs.flatMap (fun e => e.2.held)) s))
  unfold resetFinish
  dsimp only
  generalize irqResetFn f (((fnAt s f).cqs.flatMap (fun e => e.2.held)).foldl (journalHeld f) s) = u at hirq ⊢
  refine OthersChannel.ends ?_ (foldl_ends (fun s (e : Nat × Bool) => completeCmd_ends ..) _ _)
  refine OthersChannel.modFn ?_ _
  exact hirq.keep (fun _ _ => rfl) rfl

theorem resetCommands_others : OthersChannel f c x (resetCommands f s) := by
  unfold resetCommands
  exact OthersChannel.modFn (hs.ends (foldl_ends (resetCommand_ends f _) _ s)) _

/-- A reset that is not of f does not go on, since it is not in progress. -/
theorem settleReset_others (g : Nat) : OthersChannel f c x (settleReset s g) := by
  unfold settleReset
  split
  · exact hs
  · next hgo =>
    obtain rfl : g = f := by
      by_contra hne
      simp [hs.calm g hne] at hgo
    have hcmds : OthersChannel g c x (if (fnAt s g).resetCount.isNone then resetCommands g s else s) := by
      split
      · exact resetCommands_others hs
      · exact hs
    dsimp only
    generalize (if (fnAt s g).resetCount.isNone then resetCommands g s else s) = t at hcmds ⊢
    split
    · exact resetFinish_others hcmds
    · exact hcmds

theorem settleResets_others : OthersChannel f c x (settleResets s) :=
  foldl_keeps (P := OthersChannel f c x) (fun _ (e : Nat × FnState) ht => settleReset_others ht e.1) _ hs

end

theorem others_streamKeeps {f c d : Nat} (x : Chan) (hd : c ≠ d) : StreamKeeps d (OthersChannel f c x) where
  stream h hs := ⟨fun g hg => (h.busy g).trans (hs.calm g hg), h.wf hs.wf, (h.others c hd).trans hs.same, hs.other⟩
  resets hs := settleResets_others hs

/-- A channel of f is stopped; a channel of another function is left as it is. -/
theorem doomChannel_others {f c d : Nat} {x : Chan} {s : State} (hd : c ≠ d) (hs : OthersChannel f c x s) : OthersChannel f c x (doomChannel s d) :=
  doomChannel_keeps (others_streamKeeps x hd)
    (fun hu => ⟨hu.calm, fmap_wf_modify d doom hu.wf, (chanAt_modChan_ne hd.symm).trans hu.same, hu.other⟩) hs

theorem channelsDoomed_others {f c : Nat} {x : Chan} {s : State} (hs : OthersChannel f c x s) : OthersChannel f c x (channelsDoomed f s) := by
  refine List.foldlRecOn _ _ hs (fun t ht e he => doomChannel_others ?_ ht)
  obtain ⟨hmem, howner⟩ := List.mem_filter.mp he
  rintro rfl
  have heq : some x = some e.2 := hs.same.symm.trans (fmap_get?_of_mem hmem hs.wf)
  obtain rfl : x = e.2 := Option.some.inj heq
  exact hs.other (by simpa using howner)

/-- A reset of f leaves the channels of other functions. -/
theorem resetBegin_others {f cause c : Nat} {x : Chan} {s : State} (hclk : clockLost s .time = false) (hx : chanAt s c = some x) (ho : x.owner.val ≠ f) (hwf : s.chans.wf = true)
    (hcalm : ∀ g, (fnAt s g).busy = false) : chanAt (resetBegin f cause s) c = some x := by
  rw [resetBegin_running (hcalm f) hclk]
  have hjournaled : OthersChannel f c x (resetJournaled f cause s) :=
    OthersChannel.of_chans ⟨fun g _ => hcalm g, hwf, hx, ho⟩ (fun g _ => resetJournaled_busy g) (congrArg State.chans resetJournaled_beside :)
  have hstops := objectsStopped_stops f (resetJournaled f cause s)
  have hstopped : OthersChannel f c x (objectsStopped f (resetJournaled f cause s)) := by
    refine hjournaled.of_chans (fun g hg => ?_) hstops.chans
    have h : fnAt (objectsStopped f (resetJournaled f cause s)) g = fnAt (modFn (resetJournaled f cause s) f (fun x => { x with busy := true })) g :=
      congrArg (fun m : FMap FnState => m.getD g {}) hstops.fns
    rw [h, fnAt_modFn_ne hg.symm]
  exact (settleResets_others (channelsDoomed_others hstopped)).same

/-! FLR (R425, R429). -/

/-- FLR returns bus mastering, the MSI-X enable, mask and table to reset. -/
def flrCleared (f : Nat) (s : State) : State := modFn s f (fun x => { x with busMaster := false, msixEnable := false, functionMask := false, msix := [], d3hot := false, pmeEn := false })

section
variable {f : Nat} {s : State}

theorem flr_standby (h : isStandby s = true) : flr f s = { flrCleared f s with pair.orphanRecords := inc32 s.pair.orphanRecords } := if_pos h

theorem flr_asked (h : isStandby s = false) : flr f s = resetAsk f 3 (mirrorReset f (flrCleared f s)) := by
  have hn : ¬ isStandby (flrCleared f s) = true := by rw [Bool.not_eq_true]; exact h
  exact if_neg hn

theorem flr_unpaired (h : pairOn s = false) : flr f s = resetBegin f 3 (flrCleared f s) := by
  have hu : pairOn (flrCleared f s) = false := h
  rw [flr_asked (by simp [isStandby, h])]
  simp [resetAsk, mirrorReset, isHolder, inLockstep, hu]

theorem flrCleared_busy : (fnAt (flrCleared f s) f).busy = (fnAt s f).busy := by simp [flrCleared]

theorem flr_begun (h : (fnAt s f).busy = false) :
    (fnAt (resetBegin f 3 (flrCleared f s)) f).busMaster = false ∧ (fnAt (resetBegin f 3 (flrCleared f s)) f).msixEnable = false ∧ (fnAt (resetBegin f 3 (flrCleared f s)) f).msix = [] := by
  have hlast := congrFun (resetBegin_lastings (cause := 3) (flrCleared_busy.trans h)) f
  have hcleared : fnAt (flrCleared f s) f = _ := fnAt_modFn s f _
  refine ⟨?_, ?_, ?_⟩
  · exact (congrArg FnState.busMaster hlast :).trans (congrArg FnState.busMaster hcleared)
  · exact (congrArg FnState.msixEnable hlast :).trans (congrArg FnState.msixEnable hcleared)
  · exact (congrArg FnState.msix hlast :).trans (congrArg FnState.msix hcleared)

end

end Sys2Proof.Architecture

/-! PROOFS. The reset of the conversation with the host (R474, R502). -/

namespace Sys2Proof.Architecture

open Sys2Proof.Machine Sys2Proof.Laws Sys2Proof.HostAccess

/-! The commands of the host end without a record. -/

theorem mem_allCmds_flow {s : State} {e : Nat × Cmd} : e ∈ allCmds s ↔ ∃ l, (e.1, l) ∈ s.flows ∧ e.2 ∈ l := by
  obtain ⟨k, c⟩ := e
  unfold allCmds
  induction s.flows with
  | nil => simp
  | cons d r ih =>
    rw [List.foldr_cons, List.mem_append, ih]
    constructor
    · rintro (h | ⟨l, hl, hc⟩)
      · obtain ⟨c', hc', heq⟩ := List.mem_map.mp h
        obtain ⟨rfl, rfl⟩ := Prod.mk.inj heq
        exact ⟨d.2, .head _, hc'⟩
      · exact ⟨l, .tail _ hl, hc⟩
    · rintro ⟨l, hl, hc⟩
      obtain rfl | hr := List.mem_cons.mp hl
      · exact .inl (List.mem_map.mpr ⟨c, hc, rfl⟩)
      · exact .inr ⟨l, hr, hc⟩

/-- A command is in the flow that lists it. -/
theorem mem_allCmds {s : State} (hwf : s.flows.wf = true) {e : Nat × Cmd} : e ∈ allCmds s ↔ e.2 ∈ flowCmds s e.1 := by
  rw [mem_allCmds_flow]
  constructor
  · rintro ⟨l, hl, hc⟩
    simpa [flowCmds, FMap.getD, fmap_get?_of_mem hl hwf] using hc
  · intro hc
    cases hl : FMap.get? s.flows e.1 with
    | none => simp [flowCmds, FMap.getD, hl] at hc
    | some l => exact ⟨l, fmap_get?_mem hl, by simpa [flowCmds, FMap.getD, hl] using hc⟩

theorem setFlow_wf {s : State} (h : s.flows.wf = true) (k : Nat) (l : List Cmd) : (setFlow s k l).flows.wf = true := by
  simp only [setFlow]
  split
  · exact fmap_wf_erase k h
  · exact fmap_wf_set k l h

theorem hostResetCommand_wf {s : State} (h : s.flows.wf = true) (e : Nat × Cmd) : (hostResetCommand s e).flows.wf = true := setFlow_wf h ..

/-- One command of the host ends: no other command comes. -/
theorem allCmds_hostResetCommand {s : State} (hwf : s.flows.wf = true) {e d : Nat × Cmd} (h : d ∈ allCmds (hostResetCommand s e)) :
    d ∈ allCmds s ∧ ¬ (d.1 = e.1 ∧ d.2.serial = e.2.serial) := by
  rw [mem_allCmds (hostResetCommand_wf hwf e)] at h
  rw [mem_allCmds hwf]
  unfold hostResetCommand at h
  dsimp only at h
  by_cases hk : e.1 = d.1
  · rw [hk, flowCmds_setFlow] at h
    obtain ⟨hmem, hserial⟩ := List.mem_filter.mp h
    exact ⟨hmem, fun hsame => by simp [hsame.2] at hserial⟩
  · rw [flowCmds_setFlow_ne hk] at h
    exact ⟨h, fun hsame => hk hsame.1.symm⟩

theorem allCmds_hostResetCommands {l : List (Nat × Cmd)} {s : State} (hwf : s.flows.wf = true) {d : Nat × Cmd} (h : d ∈ allCmds (l.foldl hostResetCommand s)) :
    d ∈ allCmds s ∧ d ∉ l := by
  induction l generalizing s with
  | nil => exact ⟨h, List.not_mem_nil⟩
  | cons e r ih =>
    obtain ⟨hmem, hr⟩ := ih (hostResetCommand_wf hwf e) h
    obtain ⟨hs, he⟩ := allCmds_hostResetCommand hwf hmem
    refine ⟨hs, fun hd => (List.mem_cons.mp hd).elim ?_ hr⟩
    rintro rfl
    exact he ⟨rfl, rfl⟩

/-- The commands of the host, which a host reset ends. -/
def hostCommandsEnded (s : State) : State := ((allCmds s).filter (fun e => e.2.ferry.isNone && !e.2.mirrored)).foldl hostResetCommand s

theorem allCmds_hostCommandsEnded {s : State} (hwf : s.flows.wf = true) : ∀ e ∈ allCmds (hostCommandsEnded s), e.2.ferry.isSome = true ∨ e.2.mirrored = true := by
  intro e he
  obtain ⟨hmem, hnot⟩ := allCmds_hostResetCommands hwf he
  by_contra hc
  rw [not_or, Bool.not_eq_true, Bool.not_eq_true] at hc
  refine hnot (List.mem_filter.mpr ⟨hmem, ?_⟩)
  obtain ⟨hferry, hmirrored⟩ := hc
  simp [hmirrored, Option.isSome_eq_false_iff.mp hferry]

theorem hostCommandsEnded_beside (s : State) : { hostCommandsEnded s with flows := [], journal := {} } = { s with flows := [], journal := {} } :=
  foldl_view (v := fun s : State => { s with flows := [], journal := {} }) (g := hostResetCommand) (fun _ _ => rfl) _ s

/-! The interrupts of every function return to reset. -/

/-- The interrupts of every function. It does not unfold by itself: thirty-two resets would come of it. -/
@[irreducible] def hostIrqReset (s : State) : State := (List.range 32).foldl (fun s f => irqResetFn f s) s

/-- The state beside the interrupt controller, the functions and the cores. -/
def besideIrq (s : State) : State := { s with outbox := [], fns := [], irq := {}, harbour := {} }

theorem besideIrq_irqSettle (old s : State) : besideIrq (irqSettle old s) = besideIrq s := by
  obtain ⟨_, _, _, _, h, _⟩ := irqSettle_cases old s
  rw [h]
  rfl

theorem besideIrq_irqResetFn (f : Nat) (s : State) : besideIrq (irqResetFn f s) = besideIrq s := by
  unfold irqResetFn irqDo
  rw [besideIrq_irqSettle]
  rfl

theorem hostIrqReset_beside (s : State) : besideIrq (hostIrqReset s) = besideIrq s := by
  unfold hostIrqReset
  exact foldl_view (fun s f => besideIrq_irqResetFn f s) _ s

theorem hostIrqReset_lastings (s : State) : lastings (hostIrqReset s) = lastings s := by
  unfold hostIrqReset
  exact foldl_view (v := lastings) (fun s f => (irqResetFn_resets f s).lastings) _ s

theorem busy_irqResetFn (f : Nat) (s : State) (g : Nat) : (fnAt (irqResetFn f s) g).busy = (fnAt s g).busy := by
  have hsettle : ∀ old u : State, (fnAt (irqSettle old u) g).busy = (fnAt u g).busy := fun old u => by
    obtain ⟨_, h⟩ := fnAt_irqSettle old u g
    rw [h]
  unfold irqResetFn irqDo
  rw [hsettle]
  refine busy_modFn ?_ g
  exact fun _ => rfl

theorem hostIrqReset_busy (s : State) (g : Nat) : (fnAt (hostIrqReset s) g).busy = (fnAt s g).busy := by
  unfold hostIrqReset
  exact foldl_view (v := fun s => (fnAt s g).busy) (fun s f => busy_irqResetFn f s g) _ s

/-! Sources stay masked through the resets that go on. -/

/-- Every device source is masked, with target 0. -/
def HostMasked (s : State) : Prop := ∀ n, n < 56 → (srcAt s n).masked = true ∧ (srcAt s n).target = 0

section
variable {s : State} (hs : HostMasked s)
include hs

theorem HostMasked.ends {t : State} (h : Ends s t) : HostMasked t := by
  have hirq : t.irq = s.irq := (congrArg State.irq h.rest :)
  intro n hn
  rw [srcAt, hirq]
  exact hs n hn

theorem irqSettle_hostMasked (old : State) : HostMasked (irqSettle old s) := by
  intro n hn
  obtain ⟨_, h⟩ := srcAt_irqSettle old s n
  rw [h]
  exact hs n hn

theorem irqResetFn_hostMasked (f : Nat) : HostMasked (irqResetFn f s) := by
  unfold irqResetFn irqDo
  dsimp only
  refine irqSettle_hostMasked (fun n hn => ?_) s
  cases hx : FMap.get? s.irq.srcs n with
  | none => simp [srcAt, FMap.getD, modFn, setFn, hx]
  | some x =>
    have := hs n hn
    have hn : ¬ 56 ≤ n := by omega
    simp only [srcAt, FMap.getD, hx, modFn, setFn, fmap_get?_mapVals, hn] at this ⊢
    dsimp only [Option.map, Option.getD] at this ⊢
    simp only [decide_false, Bool.false_and, Bool.false_eq_true, if_false]
    split <;> exact this

theorem resetFinish_hostMasked (f : Nat) : HostMasked (resetFinish f s) := by
  have hirq := irqResetFn_hostMasked (hs.ends (foldl_ends (journalHeld_ends f) ((fnAt s f).cqs.flatMap (fun e => e.2.held)) s)) f
  unfold resetFinish
  dsimp only
  generalize irqResetFn f (((fnAt s f).cqs.flatMap (fun e => e.2.held)).foldl (journalHeld f) s) = u at hirq ⊢
  refine HostMasked.ends ?_ (foldl_ends (fun s (e : Nat × Bool) => completeCmd_ends ..) _ _)
  exact hirq

theorem resetCommands_hostMasked (f : Nat) : HostMasked (resetCommands f s) := by
  have hends := hs.ends (foldl_ends (resetCommand_ends f (fnAt s f).resetFlr) (((allCmds s).filter (fun e => e.2.fn.val == f && e.2.ferry.isNone)).map (fun e => e.2)) s)
  exact fun n hn => hends n hn

theorem settleReset_hostMasked (f : Nat) : HostMasked (settleReset s f) := by
  unfold settleReset
  split
  · exact hs
  · have hcmds : HostMasked (if (fnAt s f).resetCount.isNone then resetCommands f s else s) := by
      split
      · exact resetCommands_hostMasked hs f
      · exact hs
    dsimp only
    generalize (if (fnAt s f).resetCount.isNone then resetCommands f s else s) = t at hcmds ⊢
    split
    · exact resetFinish_hostMasked hcmds f
    · exact hcmds

theorem settleResets_hostMasked : HostMasked (settleResets s) :=
  foldl_keeps (P := HostMasked) (fun _ (e : Nat × FnState) ht => settleReset_hostMasked ht e.1) _ hs

end

/-! What a host reset clears (R474, R502). -/

/-- A function after a host reset: its counters and its reset in progress stay. -/
def hostFn (x : FnState) : FnState := { surfDrops := x.surfDrops, surfProtect := x.surfProtect, busy := x.busy, resetCount := x.resetCount }

/-- Device sources, arrivals, VF Enable and functions return to reset. -/
def hostCleared (s : State) : State :=
  { s with irq.srcs := s.irq.srcs.mapVals (fun n (x : Src) => if n < 56 then { x with masked := true, target := 0 } else x), arrivals := [], vfEnable := false, fns := s.fns.mapVals (fun _ x => hostFn x) }

/-- What a host reset does before resets go on. -/
def hostReset (s : State) : State := hostCleared (hostIrqReset (hostCommandsEnded s))

theorem hostResetAll_eq (s : State) : hostResetAll s = settleResets (hostReset s) := by
  unfold hostResetAll hostReset hostCleared hostIrqReset hostCommandsEnded
  rfl

theorem fnAt_hostCleared (s : State) (f : Nat) : fnAt (hostCleared s) f = hostFn (fnAt s f) := by
  simp only [fnAt, hostCleared, FMap.getD, fmap_get?_mapVals]
  cases FMap.get? s.fns f with
  | none => rfl
  | some x => rfl

theorem hostCleared_hostMasked (s : State) : HostMasked (hostCleared s) := by
  intro n hn
  simp only [srcAt, hostCleared, FMap.getD, fmap_get?_mapVals]
  cases FMap.get? s.irq.srcs n with
  | none => exact ⟨rfl, rfl⟩
  | some x => simp [hn]

/-- The objects of the device, and the flows of commands: what the clearing does not touch. -/
def hostKept (s : State) : State := { besideIrq s with arrivals := [], vfEnable := false }

theorem hostReset_kept (s : State) : hostKept (hostReset s) = hostKept (hostCommandsEnded s) :=
  (congrArg (fun s : State => { s with arrivals := [], vfEnable := false }) (hostIrqReset_beside (hostCommandsEnded s)) :)

/-- No object of the device changes. -/
theorem hostReset_objects (s : State) : { hostKept (hostReset s) with flows := [], journal := {} } = { hostKept s with flows := [], journal := {} } := by
  rw [hostReset_kept]
  exact (congrArg hostKept (hostCommandsEnded_beside s) :)

theorem hostReset_flows (s : State) : (hostReset s).flows = (hostCommandsEnded s).flows := (congrArg State.flows (hostReset_kept s) :)

theorem fnAt_hostCommandsEnded (s : State) (f : Nat) : fnAt (hostCommandsEnded s) f = fnAt s f := (congrArg (fun s => fnAt s f) (hostCommandsEnded_beside s) :)

theorem hostReset_busy (s : State) (f : Nat) : (fnAt (hostReset s) f).busy = (fnAt s f).busy := by
  rw [hostReset, fnAt_hostCleared]
  exact (hostIrqReset_busy ..).trans (congrArg FnState.busy (fnAt_hostCommandsEnded s f))

theorem hostReset_surfDrops (s : State) (f : Nat) : (fnAt (hostReset s) f).surfDrops = (fnAt s f).surfDrops := by
  rw [hostReset, fnAt_hostCleared]
  have hirq : (fnAt (hostIrqReset (hostCommandsEnded s)) f).surfDrops = (fnAt (hostCommandsEnded s) f).surfDrops :=
    (congrArg FnState.surfDrops (congrFun (hostIrqReset_lastings (hostCommandsEnded s)) f) :)
  exact hirq.trans (congrArg FnState.surfDrops (fnAt_hostCommandsEnded s f))

/-- Where no function is in reset, the host reset is complete at once. -/
theorem hostResetAll_calm {s : State} (h : ∀ f, (fnAt s f).busy = false) : hostResetAll s = hostReset s := by
  rw [hostResetAll_eq]
  exact settleResets_idle fun f => (hostReset_busy s f).trans (h f)

theorem allCmds_hostReset {s : State} (hwf : s.flows.wf = true) : ∀ e ∈ allCmds (hostReset s), e.2.ferry.isSome = true ∨ e.2.mirrored = true := by
  have h : allCmds (hostReset s) = allCmds (hostCommandsEnded s) := by
    rw [allCmds, allCmds, hostReset_flows]
  rw [h]
  exact allCmds_hostCommandsEnded hwf

/-- A function after a host reset has no queue, fence, subscription, MSI-X table or notification; it keeps its counters. -/
theorem fnAt_hostReset (s : State) (f : Nat) :
    (fnAt (hostReset s) f).sqs = [] ∧ (fnAt (hostReset s) f).cqs = [] ∧ (fnAt (hostReset s) f).fences = [] ∧ (fnAt (hostReset s) f).subs = [] ∧ (fnAt (hostReset s) f).msix = [] ∧
      (fnAt (hostReset s) f).notified = 0 ∧ (fnAt (hostReset s) f).surfDrops = (fnAt s f).surfDrops := by
  have hdrops := hostReset_surfDrops s f
  rw [hostReset, fnAt_hostCleared] at hdrops ⊢
  exact ⟨rfl, rfl, rfl, rfl, rfl, rfl, hdrops⟩

/-- The device sources stay masked whatever resets go on. -/
theorem hostReset_masked {s : State} {n : Nat} {x : Src} (h : (settleResets (hostReset s)).irq.srcs.get? n = some x) (hn : n < 56) : x.masked = true ∧ x.target = 0 := by
  have hmasked := settleResets_hostMasked (hostCleared_hostMasked (hostIrqReset (hostCommandsEnded s))) n hn
  have hx : srcAt (settleResets (hostReset s)) n = x := by rw [srcAt, FMap.getD, h]; rfl
  rw [← hx]
  exact hmasked

end Sys2Proof.Architecture

/-! PROOFS. O41. -/

namespace Sys2Proof.Architecture

open Sys2Proof.Machine Sys2Proof.Laws Sys2Proof.HostAccess

/-- What a clock that is lost stops, and what it leaves (Table 16.2). -/
theorem clockLoss_stops {d : ClockDomain} {n : Nat} {s : State} (hl : clockLost s d = false) (hw : windowLost (100 * n) (nominalEdges d) = true) (hd : d ≠ .ctl) :
    (codes d → (∀ e ∈ s.fns, e.2.busy = false) → ∀ c x, chanAt s c = some x → x.st ≠ .idle →
      ∃ y, chanAt (clockLoss d n s) c = some y ∧ y.stopReason = 3 ∧ y.lossFlag = true ∧ (y.st = .idle ∨ y.run.aborting = true)) ∧
    (stores d → (∀ e ∈ (clockLoss d n s).outs, e.2.stopped = true) ∧ ∀ e ∈ (clockLoss d n s).decs, e.2.stopped = true) ∧
    (d = .time → ∀ e ∈ (clockLoss d n s).outs, e.2.stopped = true) ∧
    (d = .pcie → (clockLoss d n s).chans = s.chans ∧ (clockLoss d n s).outs = s.outs ∧ (clockLoss d n s).flows = s.flows) ∧
    (d = .ferry → (clockLoss d n s).chans = s.chans ∧ ((s.upd.session = .receiving ∨ s.upd.session = .verified) → (clockLoss d n s).upd.session = .idle)) := by
  rw [clockLoss_domain hl hw hd]
  obtain ⟨hstores, htime⟩ := domainStops_stopped (d := d) (lossReported d s)
  refine ⟨fun hcodes hcalm c x hx hidle => ?_, hstores, htime, ?_, ?_⟩
  · have hstands : StandsAs c x (lossReported d s) := StandsAs.reported ⟨calm_of_listed hcalm, hx⟩ d
    exact (domainStops_faultStopped hcodes hstands hidle).stopped
  · rintro rfl
    exact ⟨lossReported_chans, lossReported_outs, lossReported_flows⟩
  · rintro rfl
    refine ⟨(endSession_chans ..).trans lossReported_chans, fun h => endSession_idle ?_ _⟩
    rw [lossReported_upd]
    exact h

/-- Settles O41: each stop of a lost clock ends streams and nothing else, a reset that begins marks the objects of its function alone, and a host reset touches the command path, interrupts and functions only. -/
theorem clocksStopAndFunctionsReset : Obligations.ClocksStopAndFunctionsReset := by
  unfold Obligations.ClocksStopAndFunctionsReset
  refine ⟨fun d n s ha h => ?ignored, windowLost_iff, fun d n s ha hl hw => ?loss, fun d s ha => ?back, fun s ha => ?pf0, fun f s u ha hf hu => ?flr,
    fun f k s hk hb => resetBegin_merged hk hb, fun f k s hb hclk => ?begin, fun s ha hwf hcalm => ?host, fun s ha => ?hostAny⟩
  case ignored => exact congrArg Host.Outcome.next ((act_acting _ ha).trans (clockLoss_ignored h))
  case back =>
    obtain ⟨hnoted, hstays⟩ := clockReturn_eq d s
    exact ⟨fun hl hb => congrArg Host.Outcome.next ((act_acting _ ha).trans (hnoted hl hb)), fun h => congrArg Host.Outcome.next ((act_acting _ ha).trans (hstays h))⟩
  case pf0 => exact congrArg Host.Outcome.next (act_acting _ ha)
  case loss =>
    refine ⟨clockLoss d n s, congrArg Host.Outcome.next (act_acting _ ha), ?_⟩
    by_cases hd : d = .ctl
    · subst hd
      obtain ⟨⟨htxs, hresps, hlost, hback, hnow⟩, halert, hrest⟩ := clockLoss_ctl_shows hl hw
      refine ⟨htxs, hresps, hlost, hback, hnow, fun _ => ⟨halert, ?_, ?_, ?_⟩, fun h => absurd rfl h, ?_⟩
      · exact (congrArg State.journal hrest :)
      · exact (congrArg State.chans hrest :)
      · exact (congrArg State.outs hrest :)
      · simp
    · obtain ⟨⟨htxs, hresps, hlost, hback, hnow⟩, hjournal⟩ := clockLoss_domain_shows hl hw hd
      exact ⟨htxs, hresps, hlost, hback, hnow, fun h => absurd h hd, fun _ => hjournal, clockLoss_stops hl hw hd⟩
  case flr =>
    subst hu
    have hexec : exec (.flr f) s = .next (flr f.val s) :=
      congrArg Host.Outcome.next ((act_acting _ ha).trans (if_neg (fun h => hf (Fin.ext h))))
    rw [hexec]
    exact ⟨fun h => congrArg _ (flr_standby h), fun h => congrArg _ (flr_asked h), fun h => congrArg _ (flr_unpaired h), fun _ h => flr_begun h⟩
  case begin =>
    obtain ⟨hdecs, houts, htriggers, hremovals, hjournal⟩ := resetBegin_stops (cause := k) hb hclk
    exact ⟨hdecs, houts, htriggers, fun c x hx ho hwf hcalm => resetBegin_others hclk hx ho hwf (calm_of_listed hcalm), hremovals, hjournal⟩
  case host =>
    have hobjects := hostReset_objects s
    refine ⟨hostReset s, congrArg Host.Outcome.next ((act_acting _ ha).trans (hostResetAll_calm (calm_of_listed hcalm))), rfl, rfl, allCmds_hostReset hwf, fnAt_hostReset s, ?_⟩
    exact ⟨(congrArg State.chans hobjects :), (congrArg State.outs hobjects :), (congrArg State.surfs hobjects :), (congrArg State.decs hobjects :), (congrArg State.mem hobjects :),
      (congrArg State.net hobjects :), (congrArg State.time hobjects :), (congrArg State.audio hobjects :), (congrArg State.pair hobjects :), (congrArg State.upd hobjects :),
      (congrArg State.power hobjects :)⟩
  case hostAny =>
    have hrest := (settleResets_resets (hostReset s)).rest
    have hobjects := hostReset_objects s
    refine ⟨settleResets (hostReset s), congrArg Host.Outcome.next ((act_acting _ ha).trans (hostResetAll_eq s)), (congrArg State.vfEnable hrest :), ?_⟩
    exact ⟨(congrArg State.outs hrest :).trans (congrArg State.outs hobjects :), (congrArg State.decs hrest :).trans (congrArg State.decs hobjects :),
      (congrArg State.mem hrest :).trans (congrArg State.mem hobjects :), (congrArg State.net hrest :).trans (congrArg State.net hobjects :),
      (congrArg State.time hrest :).trans (congrArg State.time hobjects :), (congrArg State.audio hrest :).trans (congrArg State.audio hobjects :),
      (congrArg State.power hrest :).trans (congrArg State.power hobjects :), fun _ _ h hn => hostReset_masked h hn⟩

end Sys2Proof.Architecture

/-! PROOFS. Doorbells, ENABLE and ERROR of the queues (R35 to R39, R42, R44 to R46, R283, R498). -/

namespace Sys2Proof.CommandProtocol

open Sys2Proof.Machine Sys2Proof.Laws Sys2Proof.HostAccess

/-! Two updates of one queue are one. -/

theorem fmap_set_set {α : Type} (m : FMap α) (k : Nat) (v w : α) : (m.set k v).set k w = m.set k w := by
  induction m with
  | nil => simp [FMap.set]
  | cons e r ih =>
    obtain ⟨j, u⟩ := e
    simp only [FMap.set]
    split
    · simp [FMap.set]
    · next hlt =>
      split
      · simp [FMap.set]
      · next hne => simp [FMap.set, hlt, hne, ih]

theorem modFn_modFn (s : State) (f : Nat) (g h : FnState → FnState) : modFn (modFn s f g) f h = modFn s f (fun x => h (g x)) := by
  unfold modFn
  rw [fnAt_setFn]
  simp [setFn, fmap_set_set]

theorem modSq_modSq (f n : Nat) (g h : Sq → Sq) (s : State) : modSq f n h (modSq f n g s) = modSq f n (fun q => h (g q)) s := by
  simp [modSq, modFn_modFn, fmap_set_set, sqAt]

theorem modCq_modCq (f n : Nat) (g h : Cq → Cq) (s : State) : modCq f n h (modCq f n g s) = modCq f n (fun q => h (g q)) s := by
  simp [modCq, modFn_modFn, fmap_set_set, cqAt]

/-- An update of a queue is a write of the value it computes. -/
theorem modSq_eq {f n : Nat} {g : Sq → Sq} {s : State} {q : Sq} (h : g (sqAt (fnAt s f) n) = q) : modSq f n g s = modSq f n (fun _ => q) s := by
  subst h; rfl

theorem modCq_eq {f n : Nat} {g : Cq → Cq} {s : State} {q : Cq} (h : g (cqAt (fnAt s f) n) = q) : modCq f n g s = modCq f n (fun _ => q) s := by
  subst h; rfl

/-! Doorbells (R42, R44, R45, R498). -/

theorem writeDbSq_untaken {f n v : Nat} {s : State} (h : (queueWritable s f && sqIn s f n && (sqAt (fnAt s f) n).enable) = false) : writeDbSq f n v s = s := by
  simp [writeDbSq, h]

theorem writeDbCq_untaken {f n v : Nat} {s : State} (h : (queueWritable s f && cqIn s f n && (cqAt (fnAt s f) n).enable) = false) : writeDbCq f n v s = s := by
  simp [writeDbCq, h]

/-- An enabled SQ within the quota, or CQ, whose doorbell the device takes. -/
def sqRings (s : State) (f n : Nat) : Prop := (queueWritable s f && sqIn s f n && (sqAt (fnAt s f) n).enable) = true
def cqRings (s : State) (f n : Nat) : Prop := (queueWritable s f && cqIn s f n && (cqAt (fnAt s f) n).enable) = true

theorem sqRings_intro {s : State} {f n : Nat} (hw : queueWritable s f = true) (hin : sqIn s f n = true) (he : (sqAt (fnAt s f) n).enable = true) : sqRings s f n := by
  simp [sqRings, hw, hin, he]

theorem cqRings_intro {s : State} {f n : Nat} (hw : queueWritable s f = true) (hin : cqIn s f n = true) (he : (cqAt (fnAt s f) n).enable = true) : cqRings s f n := by
  simp [cqRings, hw, hin, he]

section
variable {s : State} {f n v : Nat}

theorem writeDbSq_beyond (h : sqRings s f n) (hv : (sqAt (fnAt s f) n).slots ≤ v % 4096) : writeDbSq f n v s = modSq f n (fun q => { q with error := true }) s := by
  unfold sqRings at h
  simp [writeDbSq, h, hv]

theorem writeDbSq_same (h : sqRings s f n) (hv : v % 4096 = (sqAt (fnAt s f) n).tail) (ht : (sqAt (fnAt s f) n).tail < (sqAt (fnAt s f) n).slots) : writeDbSq f n v s = s := by
  unfold sqRings at h
  simp [writeDbSq, h, hv, Nat.not_le.mpr ht]

/-- A new tail within the ring: the SQ takes it, and an active SQ's flow gains or loses entries. -/
theorem writeDbSq_moves (h : sqRings s f n) (hv : v % 4096 < (sqAt (fnAt s f) n).slots) (hne : v % 4096 ≠ (sqAt (fnAt s f) n).tail) :
    writeDbSq f n v s =
      (let q := sqAt (fnAt s f) n
       let t := modSq f n (fun q => { q with tail := v % 4096 }) s
       let was := ringCount q.slots q.head q.tail
       let now := ringCount q.slots q.head (v % 4096)
       if q.active = false then t
       else if was ≤ now then setArrivals t (sqFlowKey f q) (arrivalsOf s (sqFlowKey f q) ++ List.replicate (now - was) n)
       else setArrivals t (sqFlowKey f q) (dropLastN n (was - now) (arrivalsOf s (sqFlowKey f q)))) := by
  unfold sqRings at h
  simp only [writeDbSq, h, Bool.not_true, Bool.false_eq_true, if_false, if_neg (Nat.not_le.mpr hv), if_neg hne, Bool.not_eq_true']
  rfl

theorem writeDbCq_beyond (h : cqRings s f n) (hv : (cqAt (fnAt s f) n).slots ≤ v % 4096) : writeDbCq f n v s = modCq f n (fun q => { q with error := true }) s := by
  unfold cqRings at h
  simp [writeDbCq, h, hv]

theorem writeDbCq_same (h : cqRings s f n) (hv : v % 4096 = (cqAt (fnAt s f) n).head) (ht : (cqAt (fnAt s f) n).head < (cqAt (fnAt s f) n).slots) : writeDbCq f n v s = s := by
  unfold cqRings at h
  simp [writeDbCq, h, hv, Nat.not_le.mpr ht]

theorem writeDbCq_unwritten (h : cqRings s f n) (hv : v % 4096 < (cqAt (fnAt s f) n).slots) (hne : v % 4096 ≠ (cqAt (fnAt s f) n).head)
    (hk : (cqAt (fnAt s f) n).occ.length < ringCount (cqAt (fnAt s f) n).slots (cqAt (fnAt s f) n).head (v % 4096)) :
    writeDbCq f n v s = modCq f n (fun q => { q with error := true }) s := by
  unfold cqRings at h
  simp [writeDbCq, h, Nat.not_le.mpr hv, hne, hk]

theorem writeDbCq_moves (h : cqRings s f n) (hv : v % 4096 < (cqAt (fnAt s f) n).slots) (hne : v % 4096 ≠ (cqAt (fnAt s f) n).head)
    (hk : ringCount (cqAt (fnAt s f) n).slots (cqAt (fnAt s f) n).head (v % 4096) ≤ (cqAt (fnAt s f) n).occ.length) :
    writeDbCq f n v s = cqRelease f n (ringCount (cqAt (fnAt s f) n).slots (cqAt (fnAt s f) n).head (v % 4096)) s := by
  unfold cqRings at h
  simp [writeDbCq, h, Nat.not_le.mpr hv, hne, Nat.not_lt.mpr hk]

/-- Only bits [11:0] of the word written count (R42). -/
theorem writeDbSq_low {w : Nat} (h : v % 4096 = w % 4096) : writeDbSq f n v s = writeDbSq f n w s := by simp only [writeDbSq, h]
theorem writeDbCq_low {w : Nat} (h : v % 4096 = w % 4096) : writeDbCq f n v s = writeDbCq f n w s := by simp only [writeDbCq, h]

end

theorem exec_dbSq (f : Fn) (n : Nat) (v : Word) (s : State) : exec (.dbSq f n v) s = .next (writeDbSq f.val n v.toNat s) := rfl
theorem exec_dbCq (f : Fn) (n : Nat) (v : Word) (s : State) : exec (.dbCq f n v) s = .next (writeDbCq f.val n v.toNat s) := rfl

/-- Settles O3: one lemma for each of the cases a doorbell write falls under. -/
theorem doorbellsMoveTheRing : Obligations.DoorbellsMoveTheRing := by
  unfold Obligations.DoorbellsMoveTheRing
  refine ⟨fun f n v s hw => ⟨?tail, ?sqBeyond, ?sqStays, ?head, ?cqBeyond, ?cqStays⟩, fun f n v s => ⟨fun h => ?sqOut, fun h => ?cqOut⟩⟩
  case tail =>
    rintro q hin rfl he hv hne
    have hmoves := writeDbSq_moves (sqRings_intro hw hin he) hv hne
    rw [exec_dbSq, hmoves]
    refine ⟨fun ha => ?_, fun ha hle => ?_, fun ha hlt => ?_⟩
    · simp only [ha, if_true]
    · simp only [ha, Bool.true_eq_false, if_false, if_pos hle]
    · simp only [ha, Bool.true_eq_false, if_false, if_neg (Nat.not_le.mpr hlt)]
  case sqBeyond =>
    rintro q hin rfl he hv
    exact congrArg _ (writeDbSq_beyond (sqRings_intro hw hin he) hv)
  case sqStays =>
    rintro q rfl h
    by_cases hr : sqRings s f.val n
    · rcases h with he | ⟨hv, ht⟩
      · simp [sqRings, he] at hr
      · exact congrArg _ (writeDbSq_same hr hv ht)
    · exact congrArg _ (writeDbSq_untaken (Bool.eq_false_iff.mpr hr))
  case head =>
    rintro q hin rfl he hv hne hk
    exact congrArg _ (writeDbCq_moves (cqRings_intro hw hin he) hv hne hk)
  case cqBeyond =>
    rintro q hin rfl he h
    have hr := cqRings_intro hw hin he
    rw [exec_dbCq]
    refine congrArg _ ?_
    by_cases hv : (cqAt (fnAt s f.val) n).slots ≤ v.toNat % 4096
    · exact writeDbCq_beyond hr hv
    · obtain ⟨hne, hk⟩ := h.resolve_left hv
      exact writeDbCq_unwritten hr (Nat.not_le.mp hv) hne hk
  case cqStays =>
    rintro q rfl h
    by_cases hr : cqRings s f.val n
    · rcases h with he | ⟨hv, ht⟩
      · simp [cqRings, he] at hr
      · exact congrArg _ (writeDbCq_same hr hv ht)
    · exact congrArg _ (writeDbCq_untaken (Bool.eq_false_iff.mpr hr))
  case sqOut => exact congrArg _ (writeDbSq_untaken (by rcases h with h | h <;> simp [h]))
  case cqOut => exact congrArg _ (writeDbCq_untaken (by rcases h with h | h <;> simp [h]))

end Sys2Proof.CommandProtocol

/-! PROOFS. ENABLE and ERROR of the queues (R35 to R39, R46, R283). -/

namespace Sys2Proof.CommandProtocol

open Sys2Proof.Machine Sys2Proof.Laws Sys2Proof.HostAccess

/-! Control words (Tables 2.3 and 2.5). -/

/-- A field of a word is a slice of it. -/
theorem bitsOf_toNat {w : Nat} (v : BitVec w) (hi lo : Nat) : bitsOf v.toNat hi lo = (v.extractLsb' lo (hi + 1 - lo)).toNat := by
  simp [bitsOf]

theorem bitsOf_or (v m : Word) {hi lo : Nat} (h : m.extractLsb' lo (hi + 1 - lo) = 0) : bitsOf (v ||| m).toNat hi lo = bitsOf v.toNat hi lo := by
  rw [bitsOf_toNat, bitsOf_toNat, BitVec.extractLsb'_or, h, BitVec.ofNat_eq_ofNat, BitVec.or_zero]

theorem bitsOf_and (v m : Word) {hi lo : Nat} (h : m.extractLsb' lo (hi + 1 - lo) = BitVec.allOnes _) : bitsOf (v &&& m).toNat hi lo = bitsOf v.toNat hi lo := by
  rw [bitsOf_toNat, bitsOf_toNat, BitVec.extractLsb'_and, h, BitVec.and_allOnes]

theorem bitOf_or (v m : Word) (i : Nat) : bitOf (v ||| m).toNat i = (v.getLsbD i || m.getLsbD i) := by
  rw [bitOf, BitVec.testBit_toNat, BitVec.getLsbD_or]

theorem bitOf_and (v m : Word) (i : Nat) : bitOf (v &&& m).toNat i = (v.getLsbD i && m.getLsbD i) := by
  rw [bitOf, BitVec.testBit_toNat, BitVec.getLsbD_and]

theorem bitsOf_sizeM1 (v : Nat) : bitsOf v 19 8 = v / 256 % 4096 := by simp [bitsOf, Nat.shiftRight_eq_div_pow]
theorem bitsOf_vector (v : Nat) : bitsOf v 30 20 = v / 1048576 % 2048 := by simp [bitsOf, Nat.shiftRight_eq_div_pow]

/-- A control word w sets or clears ENABLE, and beside it has the fields of the word v. -/
structure CtlWord (enable : Bool) (v : Word) (w : Nat) : Prop where
  enable : bitOf w 0 = enable
  clear : bitOf w 2 = v.getLsbD 2
  sizeM1 : bitsOf w 19 8 = v.toNat / 256 % 4096
  vector : bitsOf w 30 20 = v.toNat / 1048576 % 2048

theorem ctlWord_enable (v : Word) : CtlWord true v (v ||| 1).toNat where
  enable := by rw [bitOf_or]; simp
  clear := by rw [bitOf_or]; simp
  sizeM1 := (bitsOf_or v 1 (by decide)).trans (bitsOf_sizeM1 _)
  vector := (bitsOf_or v 1 (by decide)).trans (bitsOf_vector _)

theorem ctlWord_disable (v : Word) : CtlWord false v (v &&& 0xFFFFFFFE).toNat where
  enable := by rw [bitOf_and]; simp
  clear := by rw [bitOf_and]; simp
  sizeM1 := (bitsOf_and v 0xFFFFFFFE (by decide)).trans (bitsOf_sizeM1 _)
  vector := (bitsOf_and v 0xFFFFFFFE (by decide)).trans (bitsOf_vector _)

/-! Submission queues. -/

/-- ERROR of SQ n is cleared where bit 2 is written 1 (R46). -/
def sqCleared (f n : Nat) (clear : Bool) (s : State) : State := if clear then modSq f n (fun q => { q with error := false }) s else s

theorem sqAt_sqCleared (f n : Nat) (clear : Bool) (s : State) :
    sqAt (fnAt (sqCleared f n clear s) f) n = { sqAt (fnAt s f) n with error := (sqAt (fnAt s f) n).error && !clear } := by
  cases clear <;> simp [sqCleared]

theorem modSq_sqCleared (f n : Nat) (clear : Bool) (g : Sq → Sq) (s : State) :
    modSq f n g (sqCleared f n clear s) = modSq f n (fun _ => g { sqAt (fnAt s f) n with error := (sqAt (fnAt s f) n).error && !clear }) s := by
  cases clear
  · simp only [sqCleared, Bool.false_eq_true, if_false, Bool.not_false, Bool.and_true]
    exact modSq_eq rfl
  · simp only [sqCleared, if_true, modSq_modSq, Bool.not_true, Bool.and_false]
    exact modSq_eq rfl

/-- SQ_CTL of an SQ within the quota is written: ERROR first, then ENABLE. -/
theorem writeSqCtl_taken {s : State} {f n w : Nat} {v : Word} {on e : Bool} (hw : queueWritable s f = true) (hin : sqIn s f n = true) (hv : CtlWord e v w)
    (hon : (sqAt (fnAt s f) n).enable = on) :
    writeSqCtl f n w s =
      (let t := sqCleared f n (v.getLsbD 2) s
       match on, e with
       | true, true => t
       | true, false => sqStop f n t
       | false, true => sqStart f n (v.toNat / 256 % 4096) t
       | false, false => modSq f n (fun q => { q with sizeM1 := v.toNat / 256 % 4096 }) t) := by
  have henable : (sqAt (fnAt (sqCleared f n (v.getLsbD 2) s) f) n).enable = on := by rw [sqAt_sqCleared, ← hon]
  have hcase : writeSqCtl f n w s =
      (let t := sqCleared f n (v.getLsbD 2) s
       if (sqAt (fnAt t f) n).enable then (if e then t else sqStop f n t)
       else if e then sqStart f n (v.toNat / 256 % 4096) t
       else modSq f n (fun q => { q with sizeM1 := v.toNat / 256 % 4096 }) t) := by
    rw [← hv.enable, ← hv.clear, ← hv.sizeM1]
    unfold writeSqCtl sqCleared
    rw [hw, hin]
    rfl
  rw [hcase]
  dsimp only
  rw [henable]
  cases on <;> cases e <;> rfl

/-- An SQ that starts is active where its CQ is; it keeps nothing of its earlier ring (R35 to R37). -/
theorem sqStart_sqCleared {s : State} {f n m : Nat} {clear good : Bool} {q : Sq} (hq : sqAt (fnAt s f) n = q) (hg : (cqIn s f q.bindCq && (cqAt (fnAt s f) q.bindCq).active) = good) :
    sqStart f n m (sqCleared f n clear s) = modSq f n (fun _ =>
      { q with enable := true, sizeM1 := m, lBase := q.base, slots := max (m + 1) 2, cq := q.bindCq, flow := q.bindFlow,
               head := 0, tail := 0, active := good, error := (q.error && !clear) || !good }) s := by
  have hcqs : ∀ k, cqAt (fnAt (sqCleared f n clear s) f) k = cqAt (fnAt s f) k := by cases clear <;> simp [sqCleared]
  have hin : ∀ k, cqIn (sqCleared f n clear s) f k = cqIn s f k := by cases clear <;> intro k <;> rfl
  unfold sqStart
  dsimp only
  rw [modSq_sqCleared, sqAt_sqCleared, hcqs, hin, hq, hg]

/-- An SQ that stops abandons its unfetched entries (R39). -/
theorem sqStop_sqCleared {s : State} {f n : Nat} {clear : Bool} {q : Sq} (hq : sqAt (fnAt s f) n = q) :
    sqStop f n (sqCleared f n clear s) = settleSqs f (modSq f n (fun _ => { q with enable := false, error := q.error && !clear })
      (setArrivals s (sqFlowKey f q) ((arrivalsOf s (sqFlowKey f q)).filter (fun m => m != n)))) := by
  have hk : sqFlowKey f (sqAt (fnAt (sqCleared f n clear s) f) n) = sqFlowKey f q := by rw [sqAt_sqCleared, ← hq]; rfl
  have hstop : sqStop f n (sqCleared f n clear s) = settleSqs f (modSq f n (fun q => { q with enable := false })
      (sqCleared f n clear (setArrivals s (sqFlowKey f q) ((arrivalsOf s (sqFlowKey f q)).filter (fun m => m != n))))) := by
    unfold sqStop
    rw [hk]
    cases clear <;> rfl
  rw [hstop, modSq_sqCleared]
  subst hq
  rfl

/-! Completion queues. -/

/-- ERROR of CQ n is cleared where bit 2 is written 1 (R46). -/
def cqCleared (f n : Nat) (clear : Bool) (s : State) : State := if clear then modCq f n (fun q => { q with error := false }) s else s

theorem modCq_cqCleared (f n : Nat) (clear : Bool) (g : Cq → Cq) (s : State) :
    modCq f n g (cqCleared f n clear s) = modCq f n (fun _ => g { cqAt (fnAt s f) n with error := (cqAt (fnAt s f) n).error && !clear }) s := by
  cases clear
  · simp only [cqCleared, Bool.false_eq_true, if_false, Bool.not_false, Bool.and_true]
    exact modCq_eq rfl
  · simp only [cqCleared, if_true, modCq_modCq, Bool.not_true, Bool.and_false]
    exact modCq_eq rfl

/-- CQ_CTL of a CQ within the quota is written where no records are held that the write lets go (R46): ERROR first, then ENABLE. -/
theorem writeCqCtl_taken {s : State} {f n w : Nat} {v : Word} {on e : Bool} (failAt : Option Nat) (hw : queueWritable s f = true) (hin : cqIn s f n = true) (hv : CtlWord e v w)
    (hon : (cqAt (fnAt s f) n).enable = on) (hh : v.getLsbD 2 = false ∨ (cqAt (fnAt s f) n).holding = false) :
    writeCqCtl f n w failAt s =
      (let t := cqCleared f n (v.getLsbD 2) s
       match on, e with
       | true, true => t
       | true, false => cqStop f n t
       | false, true => cqStart f n (v.toNat / 256 % 4096) (v.toNat / 1048576 % 2048) t
       | false, false => modCq f n (fun q => { q with sizeM1 := v.toNat / 256 % 4096, vecReg := v.toNat / 1048576 % 2048 }) t) := by
  have hcase : writeCqCtl f n w failAt s =
      (let t := cqCleared f n (v.getLsbD 2) s
       if on then (if e then t else cqStop f n t)
       else if e then cqStart f n (v.toNat / 256 % 4096) (v.toNat / 1048576 % 2048) t
       else modCq f n (fun q => { q with sizeM1 := v.toNat / 256 % 4096, vecReg := v.toNat / 1048576 % 2048 }) t) := by
    rw [← hv.enable, ← hv.clear, ← hv.sizeM1, ← hv.vector, ← hon]
    unfold writeCqCtl cqCleared
    dsimp only
    rw [hw, hin]
    obtain hc | hh := hh
    · rw [hv.clear, hc]; rfl
    · rw [hh]; rfl
  rw [hcase]
  cases on <;> cases e <;> rfl

/-- A CQ is disabled unless an active SQ is bound to it (R39). -/
theorem cqStop_cqCleared {s : State} {f n : Nat} {clear : Bool} {q : Cq} (hq : cqAt (fnAt s f) n = q) :
    cqStop f n (cqCleared f n clear s) =
      if (fnAt s f).sqs.any (fun e => e.2.active && e.2.cq == n) then modCq f n (fun _ => { q with error := true }) s
      else cqSubsRelease f n (modCq f n (fun _ => { q with enable := false, active := false, error := q.error && !clear }) s) := by
  have hsqs : (fnAt (cqCleared f n clear s) f).sqs = (fnAt s f).sqs := by cases clear <;> simp [cqCleared, modCq]
  unfold cqStop
  rw [hsqs, modCq_cqCleared, modCq_cqCleared, hq]

theorem exec_sqEnable (f : Fn) (n : Nat) (v : Word) (s : State) : exec (.sqEnable f n v) s = .next (writeSqCtl f.val n (v ||| 1).toNat s) := rfl
theorem exec_sqDisable (f : Fn) (n : Nat) (v : Word) (s : State) : exec (.sqDisable f n v) s = .next (writeSqCtl f.val n (v &&& 0xFFFFFFFE).toNat s) := rfl
theorem exec_cqEnable (f : Fn) (n : Nat) (v : Word) (s : State) : exec (.cqEnable f n v) s = .next (writeCqCtl f.val n (v ||| 1).toNat none s) := rfl
theorem exec_cqDisable (f : Fn) (n : Nat) (v : Word) (s : State) : exec (.cqDisable f n v) s = .next (writeCqCtl f.val n (v &&& 0xFFFFFFFE).toNat none s) := rfl

/-- Settles O4: a control word clears ERROR and then sets or clears ENABLE, so that each clause is one of four cases. -/
theorem queuesAreEnabledAndDisabled : Obligations.QueuesAreEnabledAndDisabled := by
  unfold Obligations.QueuesAreEnabledAndDisabled
  refine fun f n v s hw => ⟨fun hin q hq => ⟨fun he => ⟨fun good hg => ?sqStart, ?sqOff⟩, fun he => ⟨?sqOn, ?sqStop⟩⟩,
    fun hin q hq hh => ⟨fun he => ⟨?cqStart, ?cqOff⟩, fun he => ⟨?cqOn, ?cqStop⟩⟩⟩
  case sqStart =>
    rw [exec_sqEnable, writeSqCtl_taken hw hin (ctlWord_enable v) (hq ▸ he)]
    exact congrArg _ (sqStart_sqCleared hq hg)
  case sqOff =>
    rw [exec_sqDisable, writeSqCtl_taken hw hin (ctlWord_disable v) (hq ▸ he)]
    dsimp only
    rw [modSq_sqCleared, hq]
  case sqOn => rw [exec_sqEnable, writeSqCtl_taken hw hin (ctlWord_enable v) (hq ▸ he)]; rfl
  case sqStop =>
    rw [exec_sqDisable, writeSqCtl_taken hw hin (ctlWord_disable v) (hq ▸ he)]
    exact congrArg _ (sqStop_sqCleared hq)
  case cqStart =>
    rw [exec_cqEnable, writeCqCtl_taken none hw hin (ctlWord_enable v) (hq ▸ he) (hq ▸ hh)]
    dsimp only [cqStart]
    rw [modCq_cqCleared, hq]
  case cqOff =>
    rw [exec_cqDisable, writeCqCtl_taken none hw hin (ctlWord_disable v) (hq ▸ he) (hq ▸ hh)]
    dsimp only
    rw [modCq_cqCleared, hq]
  case cqOn => rw [exec_cqEnable, writeCqCtl_taken none hw hin (ctlWord_enable v) (hq ▸ he) (hq ▸ hh)]; rfl
  case cqStop =>
    rw [exec_cqDisable, writeCqCtl_taken none hw hin (ctlWord_disable v) (hq ▸ he) (hq ▸ hh)]
    exact congrArg _ (cqStop_cqCleared hq)

end Sys2Proof.CommandProtocol

/-! PROOFS. ERROR of the queues is cleared, and held records are written (R46); the quotas of the functions (R34, R40). -/

namespace Sys2Proof.CommandProtocol

open Sys2Proof.Machine Sys2Proof.Laws Sys2Proof.HostAccess

/-! Records that a CQ holds (R46). -/

/-- The slot that a held record comes to occupy. -/
def slotOf (h : HeldRec) : Slot := { announces := h.announces, sub := h.sub }

@[simp] theorem fnAt_journalAdd (s : State) (a b c d e f g : Nat) : fnAt (journalAdd s a b c d e f) g = fnAt s g := rfl

theorem cqAt_cqWrite (f n : Nat) (r : Rec) (a : Bool) (sub : Option Nat) (s : State) :
    cqAt (fnAt (cqWrite f n r a sub s) f) n =
      (let q := cqAt (fnAt s f) n
       { q with occ := q.occ ++ [{ announces := a, sub := sub }], tail := (q.tail + 1) % q.slots, phase := if q.tail + 1 = q.slots then !q.phase else q.phase,
                reserved := if sub.isNone then q.reserved - 1 else q.reserved }) := by
  unfold cqWrite
  simp only [fnAt_emit, cqAt_modCq]

theorem cqAt_cqFails (f n : Nat) (r : Rec) (s : State) : cqAt (fnAt (cqFails f n r s) f) n = { cqAt (fnAt s f) n with error := true, holding := true } := by
  simp [cqFails]

@[simp] theorem cqAt_settleSqs (f g n : Nat) (s : State) : cqAt (fnAt (settleSqs f s) g) n = cqAt (fnAt s g) n := by
  by_cases h : f = g
  · subst h; simp [settleSqs, cqAt]
  · rw [settleSqs, fnAt_modFn_ne h]

/-- What a CQ shows of its records: ERROR, whether it holds, what it holds, and its occupied slots. -/
structure Shows (q : Cq) (error holding : Bool) (held : List HeldRec) (occ : List Slot) : Prop where
  error : q.error = error
  holding : q.holding = holding
  held : q.held = held
  occ : q.occ = occ

/-- Where no write fails, all held records are written. -/
theorem cqDrainFrom_all {f n : Nat} {l : List HeldRec} {failAt : Option Nat} {s : State} (h : ∀ k, failAt = some k → l.length ≤ k) :
    Shows (cqAt (fnAt (cqDrainFrom f n failAt l s) f) n) (cqAt (fnAt s f) n).error false [] ((cqAt (fnAt s f) n).occ ++ l.map slotOf) := by
  induction l generalizing failAt s with
  | nil => constructor <;> simp [cqDrainFrom]
  | cons x r ih =>
    have hgo : failAt ≠ some 0 := fun h0 => absurd (h 0 h0) (by simp)
    have hr : ∀ k, failAt.map (· - 1) = some k → r.length ≤ k := by
      rintro k hk
      obtain ⟨j, hj, rfl⟩ := Option.map_eq_some_iff.mp hk
      have := h j hj
      simp only [List.length_cons] at this
      omega
    obtain ⟨herror, hholding, hheld, hocc⟩ := ih (s := cqWrite f n x.record x.announces x.sub s) hr
    simp only [cqAt_cqWrite] at herror hocc
    rw [cqDrainFrom, if_neg hgo]
    exact ⟨herror, hholding, hheld, hocc.trans (by simp [slotOf])⟩

/-- Where the write after the first k fails, the first k are written and the CQ holds the others. -/
theorem cqDrainFrom_fails {f n k : Nat} {l : List HeldRec} {s : State} (hk : k < l.length) :
    Shows (cqAt (fnAt (cqDrainFrom f n (some k) l s) f) n) true true (l.drop k) ((cqAt (fnAt s f) n).occ ++ (l.take k).map slotOf) := by
  induction l generalizing k s with
  | nil => simp at hk
  | cons x r ih =>
    cases k with
    | zero =>
      rw [cqDrainFrom, if_pos rfl, cqAt_cqFails, cqAt_modCq]
      exact ⟨rfl, rfl, rfl, (List.append_nil _).symm⟩
    | succ k =>
      obtain ⟨herror, hholding, hheld, hocc⟩ := ih (k := k) (s := cqWrite f n x.record x.announces x.sub s) (by simpa using hk)
      simp only [cqAt_cqWrite] at hocc
      rw [cqDrainFrom, if_neg (by simp)]
      exact ⟨herror, hholding, hheld, hocc.trans (by simp [slotOf])⟩

/-! ERROR is cleared by a 1 (R46). -/

theorem or_four_or_one {v : Word} (h : v.getLsbD 0 = true) : v ||| 4 ||| 1 = v ||| 4 := by
  ext i hi
  by_cases h0 : i = 0 <;> simp_all

theorem or_four_and_disable {v : Word} (h : v.getLsbD 0 = false) : (v ||| 4) &&& 0xFFFFFFFE = v ||| 4 := by
  have hm : ∀ i < 32, i ≠ 0 → (0xFFFFFFFE : Word).getLsbD i = true := by decide
  refine BitVec.eq_of_getLsbD_eq fun i hi => ?_
  rw [BitVec.getLsbD_and]
  by_cases h0 : i = 0
  · subst h0; rw [BitVec.getLsbD_or, h]; rfl
  · rw [hm i hi h0, Bool.and_true]

theorem exec_sqErrorClear (f : Fn) (n : Nat) (v : Word) (s : State) : exec (.sqErrorClear f n v) s = .next (writeSqCtl f.val n (v ||| 4).toNat s) := rfl
theorem exec_cqErrorClear (f : Fn) (n : Nat) (v : Word) (failAt : Option Nat) (s : State) :
    exec (.cqErrorClear f n v failAt) s = .next (writeCqCtl f.val n (v ||| 4).toNat failAt s) := rfl

/-- A control word that clears ERROR and leaves the queue enabled. -/
theorem ctlWord_clear {v : Word} (h : v.getLsbD 0 = true) : CtlWord true (v ||| 4) (v ||| 4).toNat := by
  have hw := ctlWord_enable (v ||| 4)
  rwa [or_four_or_one h] at hw

theorem clear_or_four (v : Word) : (v ||| 4).getLsbD 2 = true := by simp

/-- A CQ that holds records and stays enabled writes them once ERROR is cleared. -/
theorem writeCqCtl_drains {s : State} {f n w : Nat} {v : Word} {failAt : Option Nat} (hw : queueWritable s f = true) (hin : cqIn s f n = true) (hv : CtlWord true v w)
    (hc : v.getLsbD 2 = true) (he : (cqAt (fnAt s f) n).enable = true) (hh : (cqAt (fnAt s f) n).holding = true) (hr : cqWritable (fnAt s f) n = true) :
    writeCqCtl f n w failAt s = settleSqs f (cqDrainFrom f n failAt (cqAt (fnAt s f) n).held (modCq f n (fun q => { q with error := false }) s)) := by
  have hring : cqWritable (fnAt (modCq f n (fun q => { q with error := false }) s) f) n = true := by
    rw [(modCq_delivers (g := fun q => { q with error := false }) id).cqWritable, hr]
  have hheld : (cqAt (fnAt (modCq f n (fun q => { q with error := false }) s) f) n).held = (cqAt (fnAt s f) n).held := by simp
  unfold writeCqCtl
  dsimp only
  rw [hw, hin, hv.clear, hv.enable, hc, he, hh, cqDrain, hring, hheld]
  rfl

/-! Quotas (R34, R40). -/

theorem exec_funcQuota (f : Fn) (vf : Nat) (v : Word) (s : State) : exec (.funcQuota f vf v) s = .next (writeQuota f.val vf v.toNat s) := rfl

theorem bitsOf_sqCount (v : Nat) : bitsOf v 10 0 = v % 2048 := by simp [bitsOf]
theorem bitsOf_cqCount (v : Nat) : bitsOf v 26 16 = v / 65536 % 2048 := by simp [bitsOf, Nat.shiftRight_eq_div_pow]

/-- PF0 sets the quota of a VF while VF Enable is 0 and the totals allow it. -/
theorem writeQuota_taken {vf v : Nat} {s : State} (hup : hostUp s = true) (hen : s.vfEnable = false) (h1 : 1 ≤ vf) (h31 : vf ≤ 31)
    (hsq : sumBy (fun e => e.2.1) (s.quotas.erase vf) + v % 2048 ≤ 1024) (hcq : sumBy (fun e => e.2.2) (s.quotas.erase vf) + v / 65536 % 2048 ≤ 1024) :
    writeQuota 0 vf v s =
      { s with quotas := if v % 2048 = 0 ∧ v / 65536 % 2048 = 0 then s.quotas.erase vf else (s.quotas.erase vf).set vf (v % 2048, v / 65536 % 2048) } := by
  unfold writeQuota
  rw [bitsOf_sqCount, bitsOf_cqCount]
  simp [hup, hen, h1, h31, hsq, hcq]

theorem writeQuota_locked {f vf v : Nat} {s : State} (h : s.vfEnable = true ∨ f ≠ 0) : writeQuota f vf v s = s := by
  unfold writeQuota
  obtain h | h := h <;> simp [h]

theorem writeQuota_beyond {f vf v : Nat} {s : State}
    (h : 1024 < sumBy (fun e => e.2.1) (s.quotas.erase vf) + v % 2048 ∨ 1024 < sumBy (fun e => e.2.2) (s.quotas.erase vf) + v / 65536 % 2048) : writeQuota f vf v s = s := by
  unfold writeQuota
  rw [bitsOf_sqCount, bitsOf_cqCount]
  obtain h | h := h <;> simp [Nat.not_le.mpr h]

/-- Settles O5: an ERROR clear is the control write that O4 has but for held records, which one induction over their list follows. -/
theorem errorsClearAndQuotasSet : Obligations.ErrorsClearAndQuotasSet := by
  unfold Obligations.ErrorsClearAndQuotasSet
  refine ⟨fun f n v s => ⟨fun h => ?enable, fun h => ?disable, fun hw hin he h => ?sq⟩,
    fun f n v failAt s hw hin he h => ⟨fun hh => ?cq, fun hh hr hall => ?all, fun k hh hr hk hlt => ?fails⟩,
    fun f vf sq cq v s => ⟨?quota, fun h => ?locked⟩⟩
  case enable => rw [exec_sqEnable, or_four_or_one h]; rfl
  case disable => rw [exec_sqDisable, or_four_and_disable h]; rfl
  case sq => rw [exec_sqErrorClear, writeSqCtl_taken hw hin (ctlWord_clear h) he, clear_or_four]; rfl
  case cq => rw [exec_cqErrorClear, writeCqCtl_taken failAt hw hin (ctlWord_clear h) he (.inr hh), clear_or_four]; rfl
  case all =>
    obtain ⟨herror, hholding, hheld, hocc⟩ := cqDrainFrom_all (f := f.val) (n := n) (s := modCq f.val n (fun q => { q with error := false }) s) hall
    rw [cqAt_modCq] at herror hocc
    rw [exec_cqErrorClear, writeCqCtl_drains hw hin (ctlWord_clear h) (clear_or_four v) he hh hr]
    refine ⟨_, rfl, ?_⟩
    rw [cqAt_settleSqs]
    exact ⟨herror, hholding, hheld, hocc⟩
  case fails =>
    subst hk
    obtain ⟨herror, hholding, hheld, hocc⟩ := cqDrainFrom_fails (f := f.val) (n := n) (s := modCq f.val n (fun q => { q with error := false }) s) hlt
    rw [cqAt_modCq] at hocc
    rw [exec_cqErrorClear, writeCqCtl_drains hw hin (ctlWord_clear h) (clear_or_four v) he hh hr]
    refine ⟨_, rfl, ?_⟩
    rw [cqAt_settleSqs]
    exact ⟨herror, hholding, hheld, hocc⟩
  case quota =>
    rintro hup rfl hen h1 h31 rfl rfl hsq hcq
    exact congrArg _ (writeQuota_taken hup hen h1 h31 hsq hcq)
  case locked => exact congrArg _ (writeQuota_locked (h.imp_right fun hf h0 => hf (Fin.ext h0)))

end Sys2Proof.CommandProtocol

/-! PROOFS. Fetching (R43, R45, R46, R70), and the quotas of all functions together (R34, R40). -/

namespace Sys2Proof.CommandProtocol

open Sys2Proof.Machine Sys2Proof.Laws Sys2Proof.HostAccess

theorem fetchSlot_unfetchable {f : Fn} {n : Nat} {s : State} (slot : SlotRead) (h : fetchable s f.val n = false) : fetchSlot f n slot s = s := by
  simp [fetchSlot, h]

theorem fetchSlot_error {f : Fn} {n : Nat} {s : State} (h : fetchable s f.val n = true) :
    fetchSlot f n .error s = journalAdd (modSq f.val n (fun q => { q with error := true }) s) 10 0 f.val 0 n ((sqAt (fnAt s f.val) n).lBase + 64 * (sqAt (fnAt s f.val) n).head) := by
  simp [fetchSlot, h]

/-- The command that a fetch of packet p from SQ n of f appends. -/
def fetchedCmd (f : Fn) (n : Nat) (p : Packet) (s : State) : Cmd :=
  let q := sqAt (fnAt s f.val) n
  { serial := s.nextSerial, fn := f, sq := n, sqHead := (q.head + 1) % q.slots, cq := q.cq, packet := p }

/-- The state in which that command stands at the end of its flow, before the cycle check. -/
def fetched (f : Fn) (n : Nat) (p : Packet) (s : State) : State :=
  let q := sqAt (fnAt s f.val) n
  setFlow
    { modCq f.val q.cq (fun y => { y with reserved := y.reserved + 1 }) (modSq f.val n (fun q => { q with head := (q.head + 1) % q.slots })
        (setArrivals s (sqFlowKey f.val q) ((arrivalsOf s (sqFlowKey f.val q)).drop 1))) with nextSerial := s.nextSerial + 1 }
    (sqFlowKey f.val q) (flowCmds s (sqFlowKey f.val q) ++ [fetchedCmd f n p s])

theorem fetchSlot_packet {f : Fn} {n : Nat} {s : State} (p : Packet) (h : fetchable s f.val n = true) :
    fetchSlot f n (.packet p) s = if opcodeOf p = 0x0104 && closesCycle (fetched f n p s) s.nextSerial then modCmd s.nextSerial (fun c => { c with cyclic := true }) (fetched f n p s)
      else fetched f n p s := by
  unfold fetchSlot
  rw [h]
  rfl

theorem exec_commandFetch (f : Fn) (n : Nat) (slot : SlotRead) (s : State) : exec (.commandFetch f n slot) s = .next (fetchSlot f n slot s) := rfl

/-- Settles O6: a fetch appends, and the cycle check marks what it has appended. -/
theorem fetchAppendsTheCommand : Obligations.FetchAppendsTheCommand := by
  unfold Obligations.FetchAppendsTheCommand
  refine fun f n s => ⟨fun q p t h hq ht => ?packet, fun q h hq => ?error, fun slot h => congrArg _ (fetchSlot_unfetchable slot h)⟩
  case packet =>
    subst hq
    replace ht : t = fetched f n p s := ht
    subst ht
    rw [exec_commandFetch, fetchSlot_packet p h]
    refine ⟨fun hn => congrArg _ (if_neg ?_), fun hop hcyc => congrArg _ (if_pos ?_)⟩
    · obtain hop | hcyc := hn
      · simp [hop]
      · simp [hcyc]
    · simp [hop, hcyc]
  case error =>
    subst hq
    exact congrArg _ (fetchSlot_error h)

/-! The quotas of all functions together (R34). -/

theorem sumBy_eq {α : Type} (g : α → Nat) (l : List α) : sumBy g l = (l.map g).sum := by
  have h : ∀ (l : List α) (a : Nat), l.foldl (fun a x => a + g x) a = a + (l.map g).sum := by
    intro l
    induction l with
    | nil => simp
    | cons x r ih => intro a; rw [List.foldl_cons, ih, List.map_cons, List.sum_cons, Nat.add_assoc]
  rw [sumBy, h, Nat.zero_add]

/-- The entries of a sorted table, summed key by key over a range that holds all keys. -/
theorem sum_getD_range {α : Type} {m : FMap α} {N : Nat} {d : α} {g : α → Nat} (hwf : m.wf = true) (hk : ∀ e ∈ m, e.1 < N) (hd : g d = 0) :
    ((List.range N).map (fun k => g (m.getD k d))).sum = sumBy (fun e => g e.2) m := by
  rw [sumBy_eq]
  induction m with
  | nil => simp [hd]
  | cons e r ih =>
    obtain ⟨j, v⟩ := e
    obtain ⟨hlt, hwf⟩ := fmap_wf_cons.mp hwf
    have hnone : g (FMap.getD r j d) = 0 := by
      have : FMap.get? r j = none := by
        by_contra hsome
        obtain ⟨w, hw⟩ := Option.ne_none_iff_exists'.mp hsome
        exact Nat.lt_irrefl _ (hlt (j, w) (fmap_get?_mem hw))
      simp [FMap.getD, this, hd]
    have hsplit : ∀ k, g (FMap.getD ((j, v) :: r) k d) = (if k = j then g v else 0) + g (FMap.getD r k d) := by
      intro k
      by_cases hkj : j = k
      · subst hkj; rw [hnone]; simp [FMap.getD, FMap.get?]
      · have hkj' : k ≠ j := fun h => hkj h.symm
        simp [FMap.getD, FMap.get?, hkj, hkj']
    have hone : ((List.range N).map (fun k => if k = j then g v else 0)).sum = g v := by
      change ∑ k ∈ Finset.range N, (if k = j then g v else 0) = g v
      rw [Finset.sum_ite_eq', if_pos (Finset.mem_range.mpr (hk (j, v) (by simp)))]
    simp only [hsplit, List.sum_map_add, hone, List.map_cons, List.sum_cons]
    rw [ih hwf fun e he => hk e (List.mem_cons_of_mem _ he)]

theorem fmap_set_erase_sum {α : Type} (m : FMap α) (k : Nat) (v : α) (g : α → Nat) :
    sumBy (fun e => g e.2) ((m.erase k).set k v) = sumBy (fun e => g e.2) (m.erase k) + g v := by
  have hset : ∀ r : FMap α, (∀ e ∈ r, e.1 ≠ k) → ((r.set k v).map (fun e => g e.2)).sum = (r.map (fun e => g e.2)).sum + g v := by
    intro r hr
    induction r with
    | nil => simp [FMap.set]
    | cons e r ih =>
      obtain ⟨j, w⟩ := e
      have hj : ¬ j = k := hr (j, w) (by simp)
      simp only [FMap.set, if_neg hj]
      split
      · simp only [List.map_cons, List.sum_cons]; omega
      · simp only [List.map_cons, List.sum_cons, ih fun e he => hr e (List.mem_cons_of_mem _ he)]; omega
  have herase : ∀ e ∈ m.erase k, e.1 ≠ k := by
    rintro ⟨j, w⟩ he rfl
    induction m with
    | nil => simp [FMap.erase] at he
    | cons d r ih =>
      obtain ⟨i, u⟩ := d
      simp only [FMap.erase] at he
      split at he
      · exact ih he
      · next hne =>
        rcases List.mem_cons.mp he with h | h
        · exact hne (congrArg Prod.fst h).symm
        · exact ih h
  rw [sumBy_eq, sumBy_eq, hset _ herase]

/-- A write of a VF's quota that is taken keeps what all quotas must satisfy. -/
theorem quotasFit_writeQuota {f vf v : Nat} {s : State} (h : quotasFit s) : quotasFit (writeQuota f vf v s) := by
  obtain ⟨hwf, hkeys, hsq, hcq⟩ := h
  unfold writeQuota
  dsimp only
  split
  · next hok =>
    simp only [Bool.and_eq_true, decide_eq_true_eq] at hok
    obtain ⟨⟨⟨⟨-, h1⟩, h31⟩, hs⟩, hc⟩ := hok
    have hkeep : ∀ e ∈ s.quotas.erase vf, 1 ≤ e.1 ∧ e.1 ≤ 31 := fun e he => hkeys e (fmap_mem_erase he)
    unfold quotasFit
    dsimp only
    split
    · exact ⟨fmap_wf_erase vf hwf, hkeep, by omega, by omega⟩
    · refine ⟨fmap_wf_set _ _ (fmap_wf_erase vf hwf), fun e he => ?_, ?_, ?_⟩
      · rcases fmap_mem_set he with rfl | he
        · exact ⟨h1, h31⟩
        · exact hkeep e he
      · rw [fmap_set_erase_sum _ _ _ (fun q : Nat × Nat => q.1)]; exact hs
      · rw [fmap_set_erase_sum _ _ _ (fun q : Nat × Nat => q.2)]; exact hc
  · exact ⟨hwf, hkeys, hsq, hcq⟩

/-- The quotas of all functions add up to 1,024: PF0 has what the VFs are not given. -/
theorem quotas_total {s : State} {g : Nat × Nat → Nat} (h : quotasFit s) (h0 : g (0, 0) = 0) (hle : sumBy (fun e => g e.2) s.quotas ≤ 1024) :
    ((List.range 32).map (fun f => if f = 0 then 1024 - sumBy (fun e => g e.2) s.quotas else g (s.quotas.getD f (0, 0)))).sum = 1024 := by
  obtain ⟨hwf, hkeys, -, -⟩ := h
  have hsum := sum_getD_range (N := 32) (d := (0, 0)) hwf (fun e he => by have := hkeys e he; omega) h0
  have hzero : g (s.quotas.getD 0 (0, 0)) = 0 := by
    have : FMap.get? s.quotas 0 = none := by
      by_contra hsome
      obtain ⟨w, hw⟩ := Option.ne_none_iff_exists'.mp hsome
      have := hkeys _ (fmap_get?_mem hw)
      omega
    simp [FMap.getD, this, h0]
  rw [List.range_succ_eq_map, List.map_cons, List.sum_cons, List.map_map] at hsum ⊢
  rw [hzero, Nat.zero_add] at hsum
  have hvfs : (List.range 31).map ((fun f => if f = 0 then 1024 - sumBy (fun e => g e.2) s.quotas else g (s.quotas.getD f (0, 0))) ∘ Nat.succ)
      = (List.range 31).map ((fun k => g (s.quotas.getD k (0, 0))) ∘ Nat.succ) :=
    List.map_congr_left fun k _ => by simp only [Function.comp, if_neg (Nat.succ_ne_zero k)]
  rw [hvfs, hsum, if_pos rfl]
  omega

/-- The quota written is the VF's, and no other VF's changes. -/
theorem quotas_written {m : FMap (Nat × Nat)} {vf sq cq : Nat} :
    let t := if sq = 0 ∧ cq = 0 then m.erase vf else (m.erase vf).set vf (sq, cq)
    t.getD vf (0, 0) = (sq, cq) ∧ ∀ w, w ≠ vf → t.getD w (0, 0) = m.getD w (0, 0) := by
  dsimp only
  split
  · next h =>
    obtain ⟨rfl, rfl⟩ := h
    exact ⟨by simp [FMap.getD, fmap_get?_erase], fun w hw => by simp [FMap.getD, fmap_get?_erase, hw.symm]⟩
  · exact ⟨fmap_getD_set_self .., fun w hw => by rw [fmap_getD_set_ne hw.symm]; simp [FMap.getD, fmap_get?_erase, hw.symm]⟩

/-- Settles O52: the totals by a sum over the keys of a sorted table, their keeping by the two ways in which a quota is stored. -/
theorem quotasStayWithinTotals : Obligations.QuotasStayWithinTotals := by
  unfold Obligations.QuotasStayWithinTotals
  refine ⟨⟨rfl, by simp [State.reset], by decide, by decide⟩, fun s h => ⟨?sqs, ?cqs⟩, fun s f n => ⟨decide_eq_true_iff, decide_eq_true_iff⟩, fun f vf v s t h ht => ?keeps,
    fun vf sq cq v s hup hen h1 h31 hsq hcq => ⟨fun hs hc => ?taken, fun hn => ?beyond⟩⟩
  case sqs => exact quotas_total (g := Prod.fst) h rfl h.2.2.1
  case cqs => exact quotas_total (g := Prod.snd) h rfl h.2.2.2
  case keeps =>
    rw [exec_funcQuota] at ht
    cases ht
    exact quotasFit_writeQuota h
  case taken =>
    subst hsq hcq
    refine ⟨_, congrArg Host.Outcome.next (writeQuota_taken hup hen h1 h31 hs hc), ?_⟩
    obtain ⟨hvf, hothers⟩ := quotas_written (m := s.quotas) (vf := vf) (sq := v.toNat % 2048) (cq := v.toNat / 65536 % 2048)
    have hne : vf ≠ 0 := by omega
    unfold sqQuota cqQuota
    simp only [if_neg hne]
    refine ⟨congrArg Prod.fst hvf, congrArg Prod.snd hvf, fun w hw0 hw => ?_⟩
    rw [if_neg hw0, if_neg hw0, if_neg hw0, if_neg hw0]
    exact ⟨congrArg Prod.fst (hothers w hw), congrArg Prod.snd (hothers w hw)⟩
  case beyond =>
    subst hsq hcq
    exact congrArg _ (writeQuota_beyond hn)

/-! Quotas and register writes (R40, R491). -/

theorem write32_quota {off : Nat} (h1 : 0x1004 ≤ off) (h2 : off < 0x1080) (f v : Nat) (s : State) : write32 f off v s = writeQuota f ((off - 0x1000) / 4) v s := by
  unfold write32
  iterate 3 rw [if_neg (by omega)]
  rw [if_pos ⟨h1, h2⟩]

theorem write64_quota {off : Nat} (h1 : 0x1004 ≤ off) (h2 : off + 8 ≤ 0x1080) (f v : Nat) (s : State) :
    write64 f off v s = write32 f (off + 4) (v / 2 ^ 32) (write32 f off (v % 2 ^ 32) s) := by
  have hu : decide (0x70000 ≤ off) = false := decide_eq_false (by omega)
  unfold write64
  simp only [hu, Bool.false_and]
  rw [if_neg (by omega)]
  rfl

/-- Settles O53: while VF Enable is set, every write that reaches FUNC_QUOTA is ignored. -/
theorem quotasChangeOnlyWithoutVfEnable : Obligations.QuotasChangeOnlyWithoutVfEnable := by
  unfold Obligations.QuotasChangeOnlyWithoutVfEnable
  refine ⟨fun f vf v s h => congrArg _ (writeQuota_locked (.inl h)), fun f off size v s h h1 h2 hsize hok => ?register, fun vf v s hup hen h1 h31 hpos hs hc => ?taken⟩
  case register =>
    change Host.Outcome.next (registerWrite f.val off size v.toNat s) = _
    refine congrArg _ ?_
    have hlocked : ∀ a w, 0x1004 ≤ a → a < 0x1080 → write32 f.val a w s = s := fun a w ha hb => (write32_quota ha hb ..).trans (writeQuota_locked (.inl h))
    unfold registerWrite
    split
    · rfl
    · rw [hok, if_neg (by decide)]
      obtain rfl | rfl := hsize
      · rw [if_pos rfl, hlocked _ _ h1 (by omega)]
      · rw [if_neg (by decide), write64_quota h1 h2, hlocked _ _ h1 (by omega), hlocked _ _ (by omega) (by omega)]
  case taken =>
    refine ⟨_, congrArg Host.Outcome.next (writeQuota_taken hup hen h1 h31 hs hc), ?_⟩
    have hne : vf ≠ 0 := by omega
    unfold sqQuota
    rw [if_neg hne]
    exact congrArg Prod.fst (quotas_written (m := s.quotas)).1

end Sys2Proof.CommandProtocol

/-! PROOFS. What a record leaves of the flows and the rings, and the serial numbers of commands (R42, R43, R45, R63, R449). -/

namespace Sys2Proof.CommandProtocol

open Sys2Proof.Machine Sys2Proof.Laws Sys2Proof.HostAccess Sys2Proof.Architecture

/-! Records move tails and slots; heads, sizes and flows stay. -/

/-- What of a CQ the host sets: everything but its records and ERROR. -/
def ringOf (q : Cq) : Cq := { q with error := false, tail := 0, phase := true, occ := [], reserved := 0, held := [], holding := false }

/-- From s to t records have been written or held, and nothing of the flows and of the rings has changed. -/
structure RecordsOnly (s t : State) : Prop where
  flows : t.flows = s.flows
  rings : ∀ f n, ringOf (cqAt (fnAt t f) n) = ringOf (cqAt (fnAt s f) n)

theorem RecordsOnly.refl (s : State) : RecordsOnly s s := ⟨rfl, fun _ _ => rfl⟩
theorem RecordsOnly.trans {s t u : State} (h : RecordsOnly s t) (g : RecordsOnly t u) : RecordsOnly s u :=
  ⟨g.flows.trans h.flows, fun f n => (g.rings f n).trans (h.rings f n)⟩

theorem foldl_records {α : Type} {g : State → α → State} (h : ∀ s x, RecordsOnly s (g s x)) (l : List α) (s : State) : RecordsOnly s (l.foldl g s) :=
  foldl_keeps (P := RecordsOnly s) (fun t x ht => ht.trans (h t x)) l (.refl s)

theorem emit_records (s : State) (o : Out) : RecordsOnly s (emit s o) := ⟨rfl, fun _ _ => rfl⟩
theorem journalAdd_records (s : State) (a b c d e f : Nat) : RecordsOnly s (journalAdd s a b c d e f) := ⟨rfl, fun _ _ => rfl⟩
theorem tagDone_records (f k : Nat) (t : Word) (s : State) : RecordsOnly s (tagDone f k t s) := ⟨rfl, fun _ _ => rfl⟩

/-- A change of a function that leaves its CQs. -/
theorem modFn_records (s : State) (f : Nat) {g : FnState → FnState} (h : ∀ x, (g x).cqs = x.cqs) : RecordsOnly s (modFn s f g) :=
  ⟨rfl, fun k n => fnAt_setFn_relates (P := fun x y => ringOf (cqAt y n) = ringOf (cqAt x n)) (by simp only [cqAt, h]) (fun _ => rfl) k⟩

theorem settleSqs_records (f : Nat) (s : State) : RecordsOnly s (settleSqs f s) := modFn_records s f fun _ => rfl

/-- A change of the records of one CQ. -/
theorem modCq_records (f n : Nat) {g : Cq → Cq} (h : ∀ q, ringOf (g q) = ringOf q) (s : State) : RecordsOnly s (modCq f n g s) := by
  refine ⟨rfl, fun k m => fnAt_setFn_relates (P := fun x y => ringOf (cqAt y m) = ringOf (cqAt x m)) ?_ (fun _ => rfl) k⟩
  by_cases hm : n = m
  · subst hm; simpa [cqAt] using h _
  · simp [cqAt, fmap_getD_set_ne hm]

theorem cqWrite_records (f n : Nat) (r : Rec) (a : Bool) (sub : Option Nat) (s : State) : RecordsOnly s (cqWrite f n r a sub s) :=
  (modCq_records f n (fun _ => by rfl) s).trans (emit_records _ _)

theorem cqFails_records (f n : Nat) (r : Rec) (s : State) : RecordsOnly s (cqFails f n r s) :=
  (modCq_records f n (fun _ => by rfl) s).trans (journalAdd_records ..)

theorem cqPut_records (f n : Nat) (r : Rec) (a : Bool) (sub : Option Nat) (ok : Bool) (s : State) : RecordsOnly s (cqPut f n r a sub ok s) := by
  simp only [cqPut]
  split
  · exact modCq_records f n (fun _ => by rfl) s
  · split
    · exact cqWrite_records ..
    · exact (modCq_records f n (fun _ => by rfl) s).trans (cqFails_records ..)

theorem ferrySendKept_records (c : Client) (k : FerryKept) (s : State) : RecordsOnly s (ferrySendKept c k s) :=
  (foldl_records (fun s _ => emit_records s _) _ s).trans (emit_records _ _)

theorem ferryFinish_records (c : Client) (k : FerryKept) (s : State) : RecordsOnly s (ferryFinish c k s) :=
  RecordsOnly.trans (by exact ⟨rfl, fun _ _ => rfl⟩) (ferrySendKept_records c k _)

theorem orphanOrWrite_records (c : Cmd) (r : Rec) (s : State) : RecordsOnly s (orphanOrWrite c r s) := by
  simp only [orphanOrWrite]
  split
  · split
    · exact (modCq_records _ _ (fun _ => by rfl) s).trans (cqPut_records ..)
    · exact ⟨rfl, fun _ _ => rfl⟩
  · exact ⟨rfl, fun _ _ => rfl⟩

theorem updateFailed_records (op o : Nat) (s : State) : RecordsOnly s (updateFailed op o s) := by
  unfold updateFailed
  split
  · exact ⟨rfl, fun _ _ => rfl⟩
  · exact .refl s

/-- The state in which a command has left its flow. -/
def leftFlow (k serial : Nat) (s : State) : State := setFlow s k ((flowCmds s k).filter (fun x => x.serial != serial))

/-- A command that completes leaves its flow, and what follows is its record (R63). -/
theorem completeCmd_records {n o p r0 r1 k : Nat} {a : List Byte} {ok : Bool} {s : State} {c : Cmd} (h : findCmd s n = some (k, c)) :
    RecordsOnly (leftFlow k n s) (completeCmd n o p r0 r1 a ok s) := by
  unfold completeCmd
  rw [h]
  refine (updateFailed_records (opcodeOf c.packet) o (leftFlow k n s)).trans ?_
  dsimp only
  rw [← leftFlow]
  generalize updateFailed (opcodeOf c.packet) o (leftFlow k n s) = u
  split
  · exact ferryFinish_records ..
  · split
    · split
      · exact (tagDone_records ..).trans (orphanOrWrite_records ..)
      · exact tagDone_records ..
    · refine RecordsOnly.trans (t := if c.mirrorSerial.isSome then tagDone c.fn.val (flowOf c.packet) (tagOf c.packet) u else u) ?mirror ?record
      case mirror =>
        split
        · exact tagDone_records ..
        · exact .refl _
      case record =>
        generalize (if c.mirrorSerial.isSome then tagDone c.fn.val (flowOf c.packet) (tagOf c.packet) u else u) = v
        split
        · exact ((modCq_records _ _ (fun _ => by rfl) v).trans (journalAdd_records ..)).trans (settleSqs_records ..)
        · exact (cqPut_records ..).trans (settleSqs_records ..)

theorem completeCmd_rings (n o p r0 r1 : Nat) (a : List Byte) (ok : Bool) (s : State) (f m : Nat) :
    ringOf (cqAt (fnAt (completeCmd n o p r0 r1 a ok s) f) m) = ringOf (cqAt (fnAt s f) m) := by
  cases h : findCmd s n with
  | none => rw [completeCmd, h]
  | some e => exact (completeCmd_records (k := e.1) (c := e.2) h).rings f m

theorem finishCmd_rings (n full r0 r1 : Nat) (s : State) (f m : Nat) : ringOf (cqAt (fnAt (finishCmd n full r0 r1 s) f) m) = ringOf (cqAt (fnAt s f) m) := by
  unfold finishCmd
  split
  · rfl
  · exact completeCmd_rings ..

theorem writeEvent_records (f i : Nat) (u : Sub) (r0 n tide : Nat) (s : State) : RecordsOnly s (writeEvent f i u r0 n tide s) := by
  unfold writeEvent
  split
  · refine RecordsOnly.trans (modFn_records s f (g := fun x => { x with subs := x.subs.modify i (fun u => { u with occupied := true, pending := none }) }) fun _ => rfl) ?_
    exact cqPut_records ..
  · exact .refl s

theorem subReleased_rings (f i : Nat) (s : State) (g m : Nat) : ringOf (cqAt (fnAt (subReleased f i s) g) m) = ringOf (cqAt (fnAt s g) m) := by
  unfold subReleased
  split
  · rfl
  · have hfree := (modFn_records s f (g := fun x => { x with subs := x.subs.modify i (fun u => { u with occupied := false }) }) fun _ => rfl).rings g m
    dsimp only
    split
    · exact ((writeEvent_records ..).rings g m).trans hfree
    · split
      · refine foldl_keeps (P := fun t => ringOf (cqAt (fnAt t g) m) = ringOf (cqAt (fnAt s g) m)) (fun t e ht => (finishCmd_rings ..).trans ht) _ ?_
        exact ((modFn_records _ f (g := fun x => { x with subs := x.subs.erase i }) fun _ => rfl).rings g m).trans hfree
      · exact hfree

/-- Releasing slots moves the head by their number; the subscriptions that follow move no head. -/
theorem head_cqRelease (f n k : Nat) (s : State) :
    (cqAt (fnAt (cqRelease f n k s) f) n).head = ((cqAt (fnAt s f) n).head + k) % (cqAt (fnAt s f) n).slots := by
  have hsubs : ∀ (l : List Slot) (t : State), ringOf (cqAt (fnAt (l.foldl (fun s o => match o.sub with | some i => subReleased f i s | none => s) t) f) n) = ringOf (cqAt (fnAt t f) n) :=
    fun l t => foldl_keeps (P := fun u => ringOf (cqAt (fnAt u f) n) = ringOf (cqAt (fnAt t f) n)) (fun u o hu => by
      split
      · exact (subReleased_rings ..).trans hu
      · exact hu) l rfl
  have hhead := congrArg Cq.head (hsubs ((cqAt (fnAt s f) n).occ.take k) (modCq f n (fun q => { q with occ := q.occ.drop k, head := (q.head + k) % q.slots }) s))
  unfold cqRelease
  refine hhead.trans ?_
  rw [cqAt_modCq]
  rfl

/-! Doorbells (R42). -/

theorem ringCount_add {slots head tail : Nat} (hh : head < slots) (ht : tail < slots) : (head + ringCount slots head tail) % slots = tail := by
  unfold ringCount
  rw [Nat.add_mod_mod, show head + (tail + slots - head) = tail + slots by omega, Nat.add_mod_right, Nat.mod_eq_of_lt ht]

theorem regValue_doorbell {off : Nat} (h1 : 0x10000 ≤ off) (h2 : off < 0x12000) (f : Nat) (s : State) : regValue f off s = 0 := by
  unfold regValue
  iterate 18 rw [if_neg (by omega)]

/-- Settles O55: a doorbell within the ring leaves its queue at the value written, whatever else the release of slots brings about. -/
theorem doorbellsCarryTailAndHead : Obligations.DoorbellsCarryTailAndHead := by
  unfold Obligations.DoorbellsCarryTailAndHead
  refine ⟨fun f n v w s h => ⟨congrArg _ (writeDbSq_low h), congrArg _ (writeDbCq_low h)⟩, fun f n v s hw hin he => ⟨fun hv => ⟨_, rfl, ?tail⟩, fun hv => ?sqBeyond⟩,
    fun f n v s hw hin he => ⟨fun hv hh hk => ⟨_, rfl, ?head⟩, fun hv => ?cqBeyond⟩, fun f off s h1 h2 => regValue_doorbell h1 h2 f s⟩
  case tail =>
    have hr := sqRings_intro hw hin he
    by_cases hne : v.toNat % 4096 = (sqAt (fnAt s f.val) n).tail
    · rw [writeDbSq_same hr hne (hne ▸ hv), hne]
    · have ht : (sqAt (fnAt (modSq f.val n (fun q => { q with tail := v.toNat % 4096 }) s) f.val) n).tail = v.toNat % 4096 := by rw [sqAt_modSq]
      rw [writeDbSq_moves hr hv hne]
      dsimp only
      split
      · exact ht
      · split
        · exact ht
        · exact ht
  case sqBeyond => exact congrArg _ (writeDbSq_beyond (sqRings_intro hw hin he) hv)
  case head =>
    have hr := cqRings_intro hw hin he
    by_cases hne : v.toNat % 4096 = (cqAt (fnAt s f.val) n).head
    · rw [writeDbCq_same hr hne hh, hne]
    · rw [writeDbCq_moves hr hv hne hk, head_cqRelease, ringCount_add hh hv]
  case cqBeyond => exact congrArg _ (writeDbCq_beyond (cqRings_intro hw hin he) hv)

end Sys2Proof.CommandProtocol

/-! PROOFS. Serial numbers of commands (R43, R45, R63, R449). -/

namespace Sys2Proof.CommandProtocol

open Sys2Proof.Machine Sys2Proof.Laws Sys2Proof.HostAccess Sys2Proof.Architecture

/-! The commands of a table of flows, flow by flow. -/

/-- Every command of the table with its flow. -/
def listed (m : FMap (List Cmd)) : List (Nat × Cmd) := m.flatMap (fun e => e.2.map (fun c => (e.1, c)))

theorem allCmds_eq (s : State) : allCmds s = listed s.flows := by
  unfold allCmds listed
  induction s.flows with
  | nil => rfl
  | cons e r ih => rw [List.foldr_cons, ih, List.flatMap_cons]

theorem fmap_erase_absent {α : Type} {m : FMap α} {k : Nat} (h : ∀ e ∈ m, k < e.1) : m.erase k = m := by
  induction m with
  | nil => rfl
  | cons e r ih =>
    obtain ⟨j, v⟩ := e
    have hj : ¬ j = k := Nat.ne_of_gt (h (j, v) (by simp))
    simp only [FMap.erase, if_neg hj, ih fun x hx => h x (List.mem_cons_of_mem _ hx)]

/-- The commands of one flow, and those of the others. -/
theorem listed_perm {m : FMap (List Cmd)} (hwf : m.wf = true) (k : Nat) :
    (listed m).Perm ((m.getD k []).map (fun c => (k, c)) ++ listed (m.erase k)) := by
  induction m with
  | nil => simp [listed, FMap.erase]
  | cons e r ih =>
    obtain ⟨j, v⟩ := e
    obtain ⟨hlt, hwf⟩ := fmap_wf_cons.mp hwf
    have hcons : ∀ t : FMap (List Cmd), listed ((j, v) :: t) = v.map (fun c => (j, c)) ++ listed t := fun t => List.flatMap_cons
    by_cases hj : j = k
    · subst hj
      have hgone : FMap.erase ((j, v) :: r) j = r := by simp [FMap.erase, fmap_erase_absent hlt]
      have hhere : FMap.getD ((j, v) :: r) j [] = v := by simp [FMap.getD, FMap.get?]
      rw [hgone, hhere, hcons]
    · have hgone : FMap.erase ((j, v) :: r) k = (j, v) :: FMap.erase r k := by simp [FMap.erase, hj]
      have hhere : FMap.getD ((j, v) :: r) k [] = FMap.getD r k [] := by simp [FMap.getD, FMap.get?, hj]
      rw [hgone, hhere, hcons, hcons, ← List.append_assoc]
      refine ((ih hwf).append_left _).trans ?_
      rw [← List.append_assoc]
      exact List.perm_append_comm.append_right _

/-- A flow that is written is listed in the place of the old one. -/
theorem listed_set {m : FMap (List Cmd)} (hwf : m.wf = true) (k : Nat) (l : List Cmd) :
    (listed (m.set k l)).Perm (l.map (fun c => (k, c)) ++ listed (m.erase k)) := by
  refine (listed_perm (fmap_wf_set k l hwf) k).trans ?_
  have herase : (m.set k l).erase k = m.erase k := by
    induction m with
    | nil => simp [FMap.set, FMap.erase]
    | cons e r ih =>
      obtain ⟨j, v⟩ := e
      obtain ⟨-, hwf⟩ := fmap_wf_cons.mp hwf
      simp only [FMap.set]
      split
      · simp [FMap.erase]
      · split
        · next hj => simp [FMap.erase, hj]
        · next hj => simp [FMap.erase, hj, ih hwf]
  rw [fmap_getD_set_self, herase]

theorem allCmds_setFlow {s : State} (hwf : s.flows.wf = true) (k : Nat) (l : List Cmd) :
    (allCmds (setFlow s k l)).Perm (l.map (fun c => (k, c)) ++ listed (s.flows.erase k)) := by
  rw [allCmds_eq]
  unfold setFlow
  dsimp only
  split
  · next h => rw [List.isEmpty_iff.mp h, List.map_nil, List.nil_append]
  · exact listed_set hwf k l

theorem allCmds_perm {s : State} (hwf : s.flows.wf = true) (k : Nat) :
    (allCmds s).Perm ((flowCmds s k).map (fun c => (k, c)) ++ listed (s.flows.erase k)) := by
  rw [allCmds_eq]
  exact listed_perm hwf k

/-! Serial numbers. -/

/-- The serial numbers of the fetched, uncompleted commands. -/
def serials (s : State) : List Nat := (allCmds s).map (fun e => e.2.serial)

theorem serialsApart_iff {s : State} : serialsApart s ↔ s.flows.wf = true ∧ (serials s).Nodup ∧ ∀ n ∈ serials s, n < s.nextSerial := by
  simp only [serialsApart, serials, List.forall_mem_map]

/-- Serial numbers depend on the flows and on the next number alone. -/
theorem serialsApart_of_flows {s t : State} (h : serialsApart s) (hf : t.flows = s.flows) (hn : t.nextSerial = s.nextSerial) : serialsApart t := by
  unfold serialsApart at h ⊢
  rw [allCmds_eq] at h ⊢
  rw [hf, hn]
  exact h

/-- Commands that leave their flow leave the others' numbers as they are. -/
theorem serialsApart_filter {s : State} (h : serialsApart s) (k : Nat) (p : Cmd → Bool) : serialsApart (setFlow s k ((flowCmds s k).filter p)) := by
  rw [serialsApart_iff] at h ⊢
  obtain ⟨hwf, hnodup, hlt⟩ := h
  have hsub : ∃ l, (serials (setFlow s k ((flowCmds s k).filter p))).Perm l ∧ l.Sublist (((flowCmds s k).map (fun c => (k, c)) ++ listed (s.flows.erase k)).map (fun e => e.2.serial)) :=
    ⟨_, (allCmds_setFlow hwf k _).map _, ((List.filter_sublist.map _).append_right _).map _⟩
  obtain ⟨l, hperm, hsub⟩ := hsub
  have hall : (((flowCmds s k).map (fun c => (k, c)) ++ listed (s.flows.erase k)).map (fun e => e.2.serial)).Perm (serials s) := ((allCmds_perm hwf k).map _).symm
  refine ⟨setFlow_wf hwf .., hperm.nodup_iff.mpr (hsub.nodup (hall.nodup_iff.mpr hnodup)), fun n hn => ?_⟩
  exact hlt n (hall.mem_iff.mp (hsub.subset (hperm.mem_iff.mp hn)))

/-- A command appended with the next serial number is apart from the others. -/
theorem serialsApart_append {s t : State} (h : serialsApart s) {k : Nat} {c : Cmd} (hc : c.serial = s.nextSerial) (ht : t.flows = s.flows) (hn : t.nextSerial = s.nextSerial + 1) :
    serialsApart (setFlow t k (flowCmds s k ++ [c])) := by
  rw [serialsApart_iff] at h ⊢
  obtain ⟨hwf, hnodup, hlt⟩ := h
  have hwt : t.flows.wf = true := by rw [ht]; exact hwf
  have hperm : (serials (setFlow t k (flowCmds s k ++ [c]))).Perm (s.nextSerial :: serials s) := by
    have hnew := (allCmds_setFlow hwt k (flowCmds s k ++ [c])).map (fun e => e.2.serial)
    have hold := (allCmds_perm hwf k).map (fun e => e.2.serial)
    rw [ht] at hnew
    refine hnew.trans (List.Perm.trans ?_ (hold.symm.cons _))
    simp only [List.map_append, List.map_cons, List.map_nil, hc, List.append_assoc]
    exact List.perm_middle
  refine ⟨setFlow_wf hwt .., hperm.nodup_iff.mpr (List.nodup_cons.mpr ⟨fun hm => Nat.lt_irrefl _ (hlt _ hm), hnodup⟩), fun n hm => ?_⟩
  have hnext : (setFlow t k (flowCmds s k ++ [c])).nextSerial = s.nextSerial + 1 := hn
  rw [hnext]
  rcases List.mem_cons.mp (hperm.mem_iff.mp hm) with rfl | hm
  · exact Nat.lt_succ_self _
  · exact Nat.lt_succ_of_lt (hlt n hm)

/-- A change of commands that keeps their serial numbers. -/
theorem serialsApart_modCmd {s : State} (h : serialsApart s) (n : Nat) {g : Cmd → Cmd} (hg : ∀ c, (g c).serial = c.serial) : serialsApart (modCmd n g s) := by
  have hserials : serials (modCmd n g s) = serials s := by
    unfold serials modCmd
    rw [allCmds_eq, allCmds_eq]
    unfold listed FMap.mapVals
    simp only [List.flatMap_map, List.map_flatMap, List.map_map]
    refine List.flatMap_congr fun e _ => List.map_congr_left fun c _ => ?_
    dsimp only [Function.comp]
    split
    · exact hg c
    · rfl
  rw [serialsApart_iff] at h ⊢
  rw [hserials]
  obtain ⟨hwf, hrest⟩ := h
  refine ⟨?_, hrest⟩
  unfold modCmd
  dsimp only
  exact fmap_wf_mapVals (β := List Cmd) _ hwf

theorem serialsApart_completeCmd {s : State} (h : serialsApart s) (n o p r0 r1 : Nat) (a : List Byte) (ok : Bool) : serialsApart (completeCmd n o p r0 r1 a ok s) := by
  cases hf : findCmd s n with
  | none => rw [completeCmd, hf]; exact h
  | some e =>
    have hrec := completeCmd_records (o := o) (p := p) (r0 := r0) (r1 := r1) (a := a) (ok := ok) (k := e.1) (c := e.2) hf
    exact serialsApart_of_flows (serialsApart_filter h e.1 _) hrec.flows (completeCmd_same ..).nextSerial

/-- With serial numbers apart, the command in front of a flow is found by its number. -/
theorem findCmd_front {s : State} (h : serialsApart s) {k : Nat} {c : Cmd} {l : List Cmd} (hq : flowCmds s k = c :: l) : findCmd s c.serial = some (k, c) := by
  have hmem : (k, c) ∈ allCmds s := (mem_allCmds h.1).mpr (by simp [hq])
  have hinj : ∀ e ∈ allCmds s, e.2.serial = c.serial → e = (k, c) := fun e he hs => List.inj_on_of_nodup_map h.2.1 he hmem hs
  obtain ⟨e, he⟩ := Option.isSome_iff_exists.mp (List.find?_isSome (p := fun e : Nat × Cmd => e.2.serial == c.serial).mpr ⟨(k, c), hmem, by simp⟩)
  rw [findCmd, he, hinj e (List.mem_of_find?_eq_some he) (by simpa using List.find?_some he)]

/-! NOP (R57): whatever else stands at the front of the flow, its row starts NOP or nothing. -/

/-- Where NOP's row changes anything, it completes a command, after a fault of its block is journaled or a staging range is consumed. -/
theorem startRow_nop_cases (q : FlowRef) (b : Bus) (s : State) :
    startRow 0x0100 meanNop q b s = s ∨ ∃ t n o p r0 r1 ok, t.flows = s.flows ∧ t.nextSerial = s.nextSerial ∧ startRow 0x0100 meanNop q b s = completeCmd n o p r0 r1 [] ok t := by
  have hwith : ∀ (i : OpInfo) (ci : CmdIn) (t : State), opInfo 0x0100 = some i → ∃ n o p r0 r1, startWith i meanNop ci b t = completeCmd n o p r0 r1 [] b.recordOk t := by
    intro i ci t hi
    unfold startWith
    rw [opInfo_code hi, show mirroredOp 0x0100 = false from rfl, Bool.false_and, if_neg (by decide)]
    unfold evalCmd
    split
    · exact ⟨_, _, _, _, _, rfl⟩
    · split
      · exact ⟨_, _, _, _, _, rfl⟩
      · split
        · exact ⟨_, _, _, _, _, rfl⟩
        · split
          · exact ⟨_, _, _, _, _, rfl⟩
          · split
            · exact ⟨_, _, _, _, _, rfl⟩
            · split
              · exact ⟨_, _, _, _, _, rfl⟩
              · exact ⟨_, _, _, _, _, rfl⟩
  unfold startRow
  dsimp only
  split
  · next c l i hq hi =>
    split
    · exact .inl rfl
    · split
      · split
        · split
          · exact .inr ⟨s, _, _, _, _, _, _, rfl, rfl, rfl⟩
          · obtain ⟨n, o, p, r0, r1, h⟩ := hwith i { key := flowKey q, cmd := c, f := c.fn.val, p := c.packet, block := stagedBytes s (word c.packet 2) (word c.packet 4) }
              (unstage (word c.packet 2) (word c.packet 4) s) hi
            exact .inr ⟨unstage (word c.packet 2) (word c.packet 4) s, n, o, p, r0, r1, _, rfl, rfl, h⟩
        · split
          · exact .inr ⟨journalAdd s 10 0 c.fn.val 7 (opcodeOf c.packet) (tagOf c.packet).toNat, _, _, _, _, _, _, rfl, rfl, rfl⟩
          · split
            · exact .inr ⟨s, _, _, _, _, _, _, rfl, rfl, rfl⟩
            · obtain ⟨n, o, p, r0, r1, h⟩ := hwith i _ s hi
              exact .inr ⟨s, n, o, p, r0, r1, _, rfl, rfl, h⟩
      · obtain ⟨n, o, p, r0, r1, h⟩ := hwith i _ s hi
        exact .inr ⟨s, n, o, p, r0, r1, _, rfl, rfl, h⟩
  · exact .inl rfl

/-! The Ferry port (R448, R449). -/

theorem hearClient_flows (c : Client) (s : State) : (hearClient c s).flows = s.flows ∧ (hearClient c s).nextSerial = s.nextSerial := by
  unfold hearClient
  dsimp only
  split <;> exact ⟨rfl, rfl⟩

theorem serialsApart_ferryAccept {s : State} (h : serialsApart s) (c : Client) (seq : Nat) (p : Packet) : serialsApart (ferryAccept c seq p s) := by
  unfold ferryAccept
  split
  · unfold ferryNoFlow
    exact serialsApart_of_flows h (((updateFailed_records ..).trans (ferryFinish_records ..)).flows) (((updateFailed_same ..).trans (ferryFinish_same ..)).nextSerial)
  · exact serialsApart_append h rfl rfl rfl

theorem serialsApart_ferryCommand {s : State} (h : serialsApart s) (c : Client) (seq : Nat) (p : Packet) : serialsApart (ferryCommand c seq p s) := by
  have hheard : serialsApart (hearClient c s) := serialsApart_of_flows h (hearClient_flows c s).1 (hearClient_flows c s).2
  unfold ferryCommand
  split
  · exact h
  · split
    · exact serialsApart_of_flows h rfl rfl
    · dsimp only
      generalize hearClient c s = t at hheard ⊢
      split
      · exact hheard
      · split
        · exact serialsApart_of_flows hheard (ferrySendKept_records ..).flows (ferrySendKept_same ..).nextSerial
        · split
          · exact hheard
          · exact serialsApart_ferryAccept hheard c seq p

theorem serialsApart_fetchSlot {s : State} (h : serialsApart s) (f : Fn) (n : Nat) (slot : SlotRead) : serialsApart (fetchSlot f n slot s) := by
  cases hf : fetchable s f.val n with
  | false => rw [fetchSlot_unfetchable slot hf]; exact h
  | true =>
    cases slot with
    | error => rw [fetchSlot_error hf]; exact serialsApart_of_flows h rfl rfl
    | packet p =>
      have happ : serialsApart (fetched f n p s) := serialsApart_append h rfl rfl rfl
      rw [fetchSlot_packet p hf]
      split
      · exact serialsApart_modCmd happ _ fun _ => rfl
      · exact happ

/-- Settles O58: a fetch and the Ferry port append the next number, a completion takes one out. -/
theorem serialNumbersStayApart : Obligations.SerialNumbersStayApart := by
  unfold Obligations.SerialNumbersStayApart
  refine ⟨⟨rfl, List.nodup_nil, fun e he => absurd he List.not_mem_nil⟩, fun f n slot s t h ht => ?fetch, fun c seq p s t h ht => ?ferry, fun q b s t h ht => ?nop, fun s k c l h => findCmd_front h⟩
  case fetch =>
    cases ht
    exact serialsApart_fetchSlot h f n slot
  case ferry =>
    cases ht
    exact serialsApart_ferryCommand h c seq p
  case nop =>
    cases ht
    obtain hsame | ⟨t, n, o, p, r0, r1, ok, hf, hn, hdone⟩ := startRow_nop_cases q b s
    · rw [hsame]; exact h
    · rw [hdone]; exact serialsApart_completeCmd (serialsApart_of_flows h hf hn) ..

end Sys2Proof.CommandProtocol

/-! PROOFS. The record of a command of the host, and NOP (R45, R46, R51, R57, R63). -/

namespace Sys2Proof.CommandProtocol

open Sys2Proof.Machine Sys2Proof.Laws Sys2Proof.HostAccess Sys2Proof.Architecture

/-! A record touches one CQ. -/

/-- From s to t no function but f has changed, and of its CQs only CQ n may have. -/
structure OneCq (f n : Nat) (s t : State) : Prop where
  fns : ∀ g, g ≠ f → fnAt t g = fnAt s g
  cqs : ∀ m, m ≠ n → cqAt (fnAt t f) m = cqAt (fnAt s f) m

theorem OneCq.trans {f n : Nat} {s t u : State} (h : OneCq f n s t) (g : OneCq f n t u) : OneCq f n s u :=
  ⟨fun k hk => (g.fns k hk).trans (h.fns k hk), fun m hm => (g.cqs m hm).trans (h.cqs m hm)⟩

theorem modCq_one (f n : Nat) (g : Cq → Cq) (s : State) : OneCq f n s (modCq f n g s) :=
  ⟨fun _ hk => fnAt_modFn_ne hk.symm, fun _ hm => by simp [modCq, cqAt, fmap_getD_set_ne hm.symm]⟩

theorem settleSqs_one (f n : Nat) (s : State) : OneCq f n s (settleSqs f s) := ⟨fun _ hk => fnAt_modFn_ne hk.symm, fun m _ => cqAt_settleSqs f f m s⟩

theorem emit_one (f n : Nat) (s : State) (o : Out) : OneCq f n s (emit s o) := ⟨fun _ _ => rfl, fun _ _ => rfl⟩
theorem journalAdd_one (f n : Nat) (s : State) (a b c d e g : Nat) : OneCq f n s (journalAdd s a b c d e g) := ⟨fun _ _ => rfl, fun _ _ => rfl⟩
theorem leftFlow_one (f n k serial : Nat) (s : State) : OneCq f n s (leftFlow k serial s) := ⟨fun _ _ => rfl, fun _ _ => rfl⟩

theorem cqPut_one (f n : Nat) (r : Rec) (a : Bool) (sub : Option Nat) (ok : Bool) (s : State) : OneCq f n s (cqPut f n r a sub ok s) := by
  simp only [cqPut]
  split
  · exact modCq_one ..
  · split
    · exact (modCq_one ..).trans (emit_one ..)
    · exact (modCq_one ..).trans ((modCq_one ..).trans (journalAdd_one ..))

/-! Whether a record is written or held (R8, R46, R291). -/

section
variable {f n : Nat} {r : Rec} {a ok : Bool} {sub : Option Nat} {s : State}

theorem cqPut_held (h : (cqAt (fnAt s f) n).holding = true ∨ s.power.link ≠ .l0) :
    cqPut f n r a sub ok s = modCq f n (fun q => { q with held := q.held ++ [{ record := r, announces := a, sub := sub }] }) s :=
  if_pos (by obtain h | h := h <;> simp [h])

theorem cqPut_written (hh : (cqAt (fnAt s f) n).holding = false) (hl : s.power.link = .l0) (hok : ok = true) (hw : cqWritable (fnAt s f) n = true) :
    cqPut f n r a sub ok s = cqWrite f n r a sub s := by
  unfold cqPut
  dsimp only
  rw [hh, hl, hok, hw]
  rfl

theorem cqPut_fails (hh : (cqAt (fnAt s f) n).holding = false) (hl : s.power.link = .l0) (h : ok = false ∨ cqWritable (fnAt s f) n = false) :
    cqPut f n r a sub ok s = cqFails f n r (modCq f n (fun q => { q with held := [{ record := r, announces := a, sub := sub }] }) s) := by
  unfold cqPut
  dsimp only
  rw [hh, hl, if_neg (by decide), if_neg (by obtain h | h := h <;> simp [h])]

end

/-! The record of a command of the host. -/

/-- The record with which a command of the host completes (Table 2.7). -/
def hostRecord (k : Nat) (c : Cmd) (outcome progress : Nat) (r : Nat × Nat) (s : State) : Rec :=
  { tag := tagOf c.packet, opcode := opcodeOf c.packet, outcome := outcome, flow := recordFlow k c, progress := progress % 2 ^ 32,
    result0 := r.1 % 2 ^ 32, result1 := r.2 % 2 ^ 32, tide := s.time.tide, sqHead := c.sqHead, sq := c.sq }

theorem updateFailed_time (op o : Nat) (s : State) : (updateFailed op o s).time = s.time := (updateFailed_same op o s).time

/-- A command of the host that no pair mirrors leaves its flow, and its record goes to its CQ. -/
theorem completeCmd_host {n o p r0 r1 k : Nat} {a : List Byte} {ok : Bool} {s : State} {c : Cmd} (h : findCmd s n = some (k, c)) (hf : c.ferry = none) (hm : c.mirrored = false)
    (hs : c.mirrorSerial = none) (hclk : clockLost s .pcie = false) :
    completeCmd n o p r0 r1 a ok s = settleSqs c.fn.val (cqPut c.fn.val c.cq
      (hostRecord k c o p (recordResults (updateFailed (opcodeOf c.packet) o (leftFlow k n s)) c r0 r1) s) (!quietOf c.packet) none ok
      (updateFailed (opcodeOf c.packet) o (leftFlow k n s))) := by
  have hpower : clockLost (updateFailed (opcodeOf c.packet) o (leftFlow k n s)) .pcie = false := by
    rw [clockLost, (updateFailed_same ..).power]; exact hclk
  have htime : (updateFailed (opcodeOf c.packet) o (leftFlow k n s)).time = s.time := updateFailed_time ..
  unfold completeCmd
  rw [h]
  dsimp only
  rw [← leftFlow]
  generalize updateFailed (opcodeOf c.packet) o (leftFlow k n s) = u at hpower htime ⊢
  simp only [hf, hm, hs, hpower, Option.isSome_none, Bool.false_eq_true, if_false, htime]
  rfl

theorem exec_nop {q : FlowRef} {b : Bus} {c : Cmd} {s : State} (h : ready 0x0100 q c s = true) : exec (.nop q b) s = .next (completes c b 0 0 0 s) :=
  congrArg Host.Outcome.next (startRow_done (m := meanNop) h rfl rfl)

theorem ready_opcode {code : Nat} {q : FlowRef} {c : Cmd} {s : State} (h : ready code q c s = true) : opcodeOf c.packet = code := by
  unfold ready at h
  rw [Bool.and_eq_true] at h
  obtain ⟨_, _, _, _, _, _, _, hop, _⟩ := atFront_cases h.1
  exact hop

/-- A NOP of the host completes: it leaves its flow, and its record of ST_OK goes to its CQ. -/
theorem completes_nop {q : FlowRef} {b : Bus} {c : Cmd} {s : State} (h : ready 0x0100 q c s = true) (hf : c.ferry = none) (hm : c.mirrored = false) (hs : c.mirrorSerial = none)
    (hclk : clockLost s .pcie = false) :
    completes c b 0 0 0 s = settleSqs c.fn.val (cqPut c.fn.val c.cq (hostRecord (flowKey q) c stOk 0 (0, 0) s) (!quietOf c.packet) none b.recordOk (leftFlow (flowKey q) c.serial s)) := by
  have hop := ready_opcode h
  have hfail : updateFailed (opcodeOf c.packet) stOk (leftFlow (flowKey q) c.serial s) = leftFlow (flowKey q) c.serial s := by
    rw [hop]; rfl
  have hres : recordResults (leftFlow (flowKey q) c.serial s) c 0 0 = (0, 0) := by
    unfold recordResults; rw [hop]; rfl
  rw [completes, completeCmd_host (ready_find h) hf hm hs hclk, hfail, hres]

theorem startRow_started {code : Nat} {m : Meaning} {q : FlowRef} {b : Bus} {s : State} {c : Cmd} {l : List Cmd} (hq : flowCmds s (flowKey q) = c :: l)
    (h : opcodeOf c.packet ≠ code ∨ c.started = true) : startRow code m q b s = s := by
  unfold startRow
  dsimp only
  rw [hq]
  split
  · next c' r i hc hi =>
    cases hc
    refine if_pos ?_
    obtain h | h := h <;> simp [h]
  · rfl

/-- Settles O54: the command leaves its flow and its record goes to one CQ, where it is written, held, or fails. -/
theorem nopCompletesInItsPlace : Obligations.NopCompletesInItsPlace := by
  unfold Obligations.NopCompletesInItsPlace
  refine ⟨fun q b s c l r h hq hl hf hm hs hclk hr => ?completes, fun q b s c l hq h => congrArg _ (startRow_started hq h)⟩
  have hrecord : hostRecord (flowKey q) c stOk 0 (0, 0) s = r := by
    rw [hr, hostRecord, ready_opcode h]; rfl
  have hflows := (completeCmd_records (o := stOk) (p := 0) (r0 := 0) (r1 := 0) (a := []) (ok := b.recordOk) (ready_find h)).flows
  have hleft : (flowCmds s (flowKey q)).filter (fun x => x.serial != c.serial) = l := by
    rw [hq, List.filter_cons_of_neg (by simp), List.filter_eq_self.mpr fun x hx => by simpa using hl x hx]
  have hcmds : ∀ k, flowCmds (completes c b 0 0 0 s) k = flowCmds (leftFlow (flowKey q) c.serial s) k := fun k => congrArg (fun m => FMap.getD m k []) hflows
  rw [leftFlow, hleft] at hcmds
  have hdone := completes_nop (b := b) h hf hm hs hclk
  rw [hrecord] at hdone
  have hone : OneCq c.fn.val c.cq s (completes c b 0 0 0 s) := by
    rw [hdone]
    exact ((leftFlow_one ..).trans (cqPut_one ..)).trans (settleSqs_one ..)
  refine ⟨_, exec_nop h, ?_, fun k hk => ?_, hone.fns, hone.cqs, fun hh hlink hok hw => ?written, fun hh => ?held, fun hh hlink hfail => ?fails⟩
  · rw [hcmds, flowCmds_setFlow]
  · rw [hcmds, flowCmds_setFlow_ne hk.symm]
  case written =>
    rw [hdone, cqPut_written (s := leftFlow (flowKey q) c.serial s) hh hlink hok hw]
    exact ⟨rfl, rfl, rfl, rfl, rfl, rfl, rfl, rfl, rfl, rfl, rfl, rfl, rfl, rfl, rfl, rfl, rfl, rfl, rfl⟩
  case held =>
    rw [hdone, cqPut_held (s := leftFlow (flowKey q) c.serial s) hh, cqAt_settleSqs, cqAt_modCq]
    exact ⟨rfl, { record := r, announces := !quietOf c.packet, sub := none }, rfl, rfl⟩
  case fails =>
    rw [hdone, cqPut_fails (s := leftFlow (flowKey q) c.serial s) hh hlink hfail, cqAt_settleSqs, cqAt_cqFails, cqAt_modCq]
    refine ⟨rfl, rfl, rfl, ⟨_, rfl, rfl⟩, ?_⟩
    exact ⟨_, List.mem_append_right _ (List.mem_singleton.mpr rfl), rfl, rfl⟩

end Sys2Proof.CommandProtocol

/-! PROOFS. Fences (R66 to R70), and DEV_QUERY (R61). -/

namespace Sys2Proof.CommandProtocol

open Sys2Proof.Machine Sys2Proof.Laws Sys2Proof.HostAccess Sys2Proof.Architecture

/-! Fences. -/

section
variable {q : FlowRef} {b : Bus} {s : State} {c : Cmd}

theorem runFenceSignal_rises (h : (fenceAt s c.fn.val (fld c.packet 2 9 0)).value < dword c.packet 3)
    (hf : (fenceAt s c.fn.val (fld c.packet 2 9 0)).flow = none ∨ (fenceAt s c.fn.val (fld c.packet 2 9 0)).flow = some (flowKey q % 256)) :
    runFenceSignal (cmdIn q c []) s = .done (resolveFences c.fn.val (fld c.packet 2 9 0)
      (modFn s c.fn.val (fun x => { x with fences := x.fences.set (fld c.packet 2 9 0) { value := dword c.packet 3, flow := some (flowKey q % 256) } })))
      stOk 0 (dword c.packet 3 % 2 ^ 32) (dword c.packet 3 / 2 ^ 32) := by
  refine if_neg (not_or.mpr ⟨Nat.not_le.mpr h, fun hn => ?_⟩)
  obtain ⟨hsome, hne⟩ := hn
  obtain hf | hf := hf
  · change (fenceAt s c.fn.val (fld c.packet 2 9 0)).flow.isSome = true at hsome
    rw [hf] at hsome
    cases hsome
  · exact hne hf

theorem runFenceSignal_refused (h : dword c.packet 3 ≤ (fenceAt s c.fn.val (fld c.packet 2 9 0)).value ∨
      ((fenceAt s c.fn.val (fld c.packet 2 9 0)).flow.isSome = true ∧ (fenceAt s c.fn.val (fld c.packet 2 9 0)).flow ≠ some (flowKey q % 256))) :
    runFenceSignal (cmdIn q c []) s = .done s stFence 0 ((fenceAt s c.fn.val (fld c.packet 2 9 0)).value % 2 ^ 32) ((fenceAt s c.fn.val (fld c.packet 2 9 0)).value / 2 ^ 32) :=
  if_pos h

/-- A FENCE_WAIT is not denied to PF0, nor for a fence of its own function (R68, R73). -/
theorem fenceWait_allowed (h : c.fn = 0 ∨ fld c.packet 2 20 16 = c.fn.val) : meanFenceWait.deny (cmdIn q c []) s = false := by
  obtain h | h := h <;> simp [meanFenceWait, cmdIn, h]

/-- The time a FENCE_WAIT may wait, in ms (R69). -/
def waitMs (c : Cmd) : Nat := if word c.packet 5 = 0 then 1000 else word c.packet 5

theorem waitMs_le (h : word c.packet 5 ≤ 60000) : ¬ 60000 < waitMs c := by unfold waitMs; split <;> omega
theorem waitMs_gt (h : 60000 < word c.packet 5) : 60000 < waitMs c := by unfold waitMs; split <;> omega

theorem runFenceWait_eq : runFenceWait (cmdIn q c []) s =
    if 60000 < waitMs c then refuse s stBadParam
    else if dword c.packet 3 ≤ (fenceAt s (fld c.packet 2 20 16) (fld c.packet 2 9 0)).value then
      .done s stOk 0 ((fenceAt s (fld c.packet 2 20 16) (fld c.packet 2 9 0)).value % 2 ^ 32) ((fenceAt s (fld c.packet 2 20 16) (fld c.packet 2 9 0)).value / 2 ^ 32)
    else .pend s (.fence (fld c.packet 2 9 0) (Fin.ofNat 32 (fld c.packet 2 20 16)) (dword c.packet 3) (s.now + 500000 * waitMs c)) 0 0 := by
  have hticks : ticksMs (waitMs c) = 500000 * waitMs c := Nat.mul_comm ..
  rw [← hticks]
  rfl

/-- A command in front that closes a cycle ends with ST_CYCLE, once the checks before that one pass (R64, R70). -/
theorem startRow_cyclic {code : Nat} {m : Meaning} (h : inFront code q c s = true) (hind : indirectOf c.packet = false) (hd : m.deny (cmdIn q c []) s = false) (hc : c.cyclic = true) :
    startRow code m q b s = completeCmd c.serial stCycle 0 ((fenceAt s (fld c.packet 2 20 16) (fld c.packet 2 9 0)).value % 2 ^ 32)
      ((fenceAt s (fld c.packet 2 20 16) (fld c.packet 2 9 0)).value / 2 ^ 32) [] b.recordOk s := by
  unfold inFront takesTurn at h
  cases hi : opInfo code with
  | none => simp [hi] at h
  | some i =>
    simp only [hi, Bool.and_eq_true, Bool.not_eq_true', beq_iff_eq] at h
    obtain ⟨⟨⟨⟨⟨⟨⟨⟨⟨hf, -⟩, hst⟩, hfw⟩, hop⟩, hb⟩, hl⟩, hfd⟩, ha, hp⟩, hm⟩ := h
    obtain ⟨r, hq⟩ := List.head?_eq_some_iff.mp hf
    have hblock : readsBlock i c (flowKey q) s = false := by simp [readsBlock, hind]
    have heval : evalCmd i m (cmdIn q c []) s = .done s stCycle 0 ((fenceAt s (fld c.packet 2 20 16) (fld c.packet 2 9 0)).value % 2 ^ 32)
        ((fenceAt s (fld c.packet 2 20 16) (fld c.packet 2 9 0)).value / 2 ^ 32) := by
      unfold evalCmd
      rw [if_neg (by simp [cmdIn, hl]), if_neg (by simp [cmdIn, ha, hfd]), if_neg (by simp [cmdIn, hp]), if_neg (by simp [hd]), if_neg (by simp [cmdIn, hp]), if_pos (by simp [cmdIn, hc])]
      rfl
    have hstart : startWith i m (cmdIn q c []) b s = settleRes c.serial b [] (m.after (cmdIn q c [])) (evalCmd i m (cmdIn q c []) s) := by
      unfold startWith
      rw [opInfo_code hi, hm, if_neg (by decide)]
      rfl
    rw [heval] at hstart
    unfold startRow
    simp only [hq, hi, hfw, hst, hop, hb, hblock, bne_self_eq_false, Bool.not_true, Bool.or_self, Bool.false_eq_true, if_false]
    exact hstart

/-- The wait at the front of a flow ends once its deadline has passed (R69). -/
theorem fenceTimeout_front {t : State} {r : List Cmd} {n want deadline : Nat} {o : Fn} (hq : flowCmds t (flowKey q) = c :: r) (hw : c.wait = .fence n o want deadline) (hup : fwUp t = true) :
    fenceTimeout q t = if deadline < t.now then completeCmd c.serial stTimeout 0 ((fenceAt t o.val n).value % 2 ^ 32) ((fenceAt t o.val n).value / 2 ^ 32) [] true t else t := by
  unfold fenceTimeout
  rw [hq]
  dsimp only
  rw [hw]
  simp only [hup, and_true]
  rfl

theorem fwUp_acting (h : fwUp s = true) : acting s = true := by
  unfold fwUp at h
  exact (Bool.and_eq_true_iff.mp h).1

end

/-- Settles O8: a signal rises or is refused, a wait has its value, waits or is refused, and its deadline is looked at in front of its flow. -/
theorem fencesRiseBindAndRelease : Obligations.FencesRiseBindAndRelease := by
  unfold Obligations.FencesRiseBindAndRelease
  refine ⟨fun q b s c h hv hf => ?rises, fun q b s c h hn => ?refused, fun q b s c h ho => ?waits, fun q b s c h hind ho hc => ?cycle, fun dt q s c r n o want deadline hq hw hup => ?timeout⟩
  case rises => exact congrArg Host.Outcome.next (startRow_done (m := meanFenceSignal) h rfl (runFenceSignal_rises hv hf))
  case refused => exact congrArg Host.Outcome.next (startRow_done (m := meanFenceSignal) h rfl (runFenceSignal_refused hn))
  case waits =>
    have hd := fenceWait_allowed (q := q) (s := s) ho
    refine ⟨fun hms hv => ?_, fun hms hv => ?_, fun hms => ?_⟩
    · exact congrArg Host.Outcome.next (startRow_done (m := meanFenceWait) h hd (runFenceWait_eq.trans ((if_neg (waitMs_le hms)).trans (if_pos hv))))
    · exact congrArg Host.Outcome.next (startRow_pend (m := meanFenceWait) h hd (runFenceWait_eq.trans ((if_neg (waitMs_le hms)).trans (if_neg (Nat.not_le.mpr hv)))))
    · exact congrArg Host.Outcome.next (startRow_done (m := meanFenceWait) h hd (runFenceWait_eq.trans (if_pos (waitMs_gt hms))))
  case cycle => exact congrArg Host.Outcome.next (startRow_cyclic (m := meanFenceWait) h hind (fenceWait_allowed ho) hc)
  case timeout =>
    have hrow : exec (.fenceWaitTimeout dt q) s = .next (fenceTimeout q (advance dt s)) := congrArg Host.Outcome.next (actAfter_acting dt _ (fwUp_acting hup))
    have hfront := fenceTimeout_front (q := q) (t := advance dt s) hq hw hup
    rw [hrow, hfront]
    exact ⟨fun hlt => congrArg _ (if_pos hlt), fun hle => congrArg _ (if_neg (Nat.not_lt.mpr hle))⟩

/-! DEV_QUERY (R61, Table 2.16). -/

/-- The bytes of a DEV_QUERY answer before FUNCTION, between FUNCTION and the quotas, and behind the quotas: the same for every function. -/
def devHead (s : State) : List Byte :=
  le 4 (vendorId * 65536 + deviceId) ++ le 4 0xB1 ++ le 4 (runningImage s).1.toNat ++ le 4 (runningImage s).2.toNat
def devMiddle (s : State) : List Byte :=
  le 1 s.pair.member.toNat ++ le 1 (periodCode s.time.period) ++ zeros 1 ++ le 8 Config.serial.toNat
def devTail (s : State) : List Byte :=
  let m := s.mem
  let u := s.units
  le 1 (islesInCount s) ++ le 1 (entropyInCount s) ++ le 1 (countIn (compIn s) 4) ++ le 1 (countIn (decEngineIn s) 4) ++ le 1 (coresUp s)
    ++ le 1 m.qportIn.toNat ++ le 1 m.density288.toNat ++ zeros 1 ++ le 8 m.pcOut.toNat ++ le 4 (qdrMbit s) ++ le 4 (hbmMib s)
    ++ le 2 64 ++ le 2 32 ++ le 2 32 ++ le 2 4096 ++ le 2 1024 ++ le 2 2048 ++ le 1 16 ++ le 1 96 ++ zeros 2
    ++ le 8 u.isleOut.toNat ++ le 2 u.entropyOut.toNat ++ le 1 (u.compOut.toNat + u.decOut.toNat * 16) ++ zeros 45

@[simp] theorem length_zeros (n : Nat) : (zeros n).length = n := List.length_replicate

/-- The bytes of a piece of a list, from where it stands. -/
theorem slice_append (a p r : List Byte) : Machine.slice (a ++ (p ++ r)) a.length p.length = p := by
  refine Eq.trans (List.map_congr_left fun i hi => ?_) (map_getD_range p 0)
  have hlt : i < p.length := List.mem_range.mp hi
  rw [List.getD_append_right _ _ _ _ (Nat.le_add_right ..), Nat.add_sub_cancel_left, List.getD_append _ _ _ _ hlt]

theorem length_devHead (s : State) : (devHead s).length = 16 := by simp only [devHead, List.length_append, length_le_bytes]
theorem length_devMiddle (s : State) : (devMiddle s).length = 11 := by simp only [devMiddle, List.length_append, length_le_bytes, length_zeros]
theorem length_devTail (s : State) : (devTail s).length = 96 := by
  unfold devTail
  simp only [List.length_append, length_le_bytes]
  simp only [length_zeros]

theorem devAnswer_eq (f : Nat) (s : State) :
    devAnswer f s = devHead s ++ (le 1 f ++ (devMiddle s ++ ((le 2 (sqQuota s f) ++ le 2 (cqQuota s f)) ++ devTail s))) := by
  unfold devAnswer devHead devMiddle devTail
  simp only [List.append_assoc]

/-- Two lists that differ in a piece of the same length differ at no place outside it. -/
theorem getElem?_append_piece {α : Type} {a p p' r r' : List α} {i : Nat} (hp : p.length = p'.length) (hi : i < a.length ∨ a.length + p.length ≤ i)
    (hr : ∀ j, i = a.length + p.length + j → r[j]? = r'[j]?) : (a ++ (p ++ r))[i]? = (a ++ (p' ++ r'))[i]? := by
  obtain h | h := hi
  · rw [List.getElem?_append_left h, List.getElem?_append_left h]
  · obtain ⟨j, rfl⟩ := Nat.exists_eq_add_of_le h
    rw [List.getElem?_append_right (by omega), List.getElem?_append_right (by omega), List.getElem?_append_right (by omega), List.getElem?_append_right (by omega), ← hp,
      show a.length + p.length + j - a.length - p.length = j by omega]
    exact hr j rfl

theorem exec_devQuery_ready {q : FlowRef} {b : Bus} {s : State} {c : Cmd} (h : ready 0x0101 q c s = true) :
    exec (.devQuery q b) s = .next (settleRes c.serial b [] id (.answer s (devAnswer c.fn.val s) 0 0)) :=
  congrArg Host.Outcome.next (startRow_ready (m := meanDevQuery) h rfl)

/-- Settles O60: the answer is five pieces, of which the second and the fourth alone name the function. -/
theorem devQueryAnswersAllFunctionsAlike : Obligations.DevQueryAnswersAllFunctionsAlike := by
  unfold Obligations.DevQueryAnswersAllFunctionsAlike
  refine ⟨fun f s => ?length, fun f g s i h16 hi => ?alike, fun f s => ⟨?function, ?quotas⟩, fun q b s c h ht => ?row⟩
  case length => simp [devAnswer_eq, length_devHead, length_devMiddle, length_devTail]
  case alike =>
    rw [devAnswer_eq, devAnswer_eq]
    refine getElem?_append_piece (by simp) (by rw [length_devHead, length_le_bytes]; omega) fun j hj => ?_
    rw [length_devHead, length_le_bytes] at hj
    refine getElem?_append_piece (by simp) (by rw [length_devMiddle]; simp; omega) fun _ _ => rfl
  case function =>
    rw [devAnswer_eq, List.getElem?_append_right (by rw [length_devHead]), length_devHead]
    rfl
  case quotas =>
    have hlen : (devHead s ++ (le 1 f.val ++ devMiddle s)).length = 28 := by simp [length_devHead, length_devMiddle]
    have hsplit : devAnswer f.val s = (devHead s ++ (le 1 f.val ++ devMiddle s)) ++ ((le 2 (sqQuota s f.val) ++ le 2 (cqQuota s f.val)) ++ devTail s) := by
      rw [devAnswer_eq]; simp only [List.append_assoc]
    have hslice := slice_append (devHead s ++ (le 1 f.val ++ devMiddle s)) (le 2 (sqQuota s f.val) ++ le 2 (cqQuota s f.val)) (devTail s)
    rw [hlen, ← hsplit, List.length_append, length_le_bytes, length_le_bytes] at hslice
    exact hslice
  case row => rw [exec_devQuery_ready h, settleRes_answer (ready_find h) ht]

end Sys2Proof.CommandProtocol

/-! PROOFS. The queries: every answer is its record, whole or as far as the block reaches (R58, R61, R62, R108, R230, R252, R361, R416, R444, R445, R464, R488). -/

namespace Sys2Proof.CommandProtocol

open Sys2Proof.Machine Sys2Proof.Laws Sys2Proof.HostAccess Sys2Proof.Architecture

variable {q : FlowRef} {b : Bus} {s t : State} {c : Cmd} {bytes : List Byte} {code : Nat} {m : Meaning}

/-- How a query with this record ends: by its block, which is open or not. -/
def queryEnds (c : Cmd) (b : Bus) (bytes : List Byte) (s : State) : State :=
  if blockOpen c b s then replies c b bytes s else answerFails c b s

theorem queryEnds_open (h : blockOpen c b s = true) : queryEnds c b bytes s = replies c b bytes s := if_pos h
theorem queryEnds_shut (h : blockOpen c b s = false) : queryEnds c b bytes s = answerFails c b s := if_neg (by simp [h])

/-- A block is shut for a command of the host alone, by the host's memory or by CLK_PCIE. -/
theorem blockOpen_iff : blockOpen c b s = true ↔ ¬ (c.ferry.isNone && (!b.answerOk || clockLost s .pcie)) = true := by
  unfold blockOpen
  cases c.ferry <;> simp [← Bool.not_eq_true]

/-- A query of a record ends as the block allows (R58). -/
theorem settleRes_query {k : Nat} {bs : List Byte} {f : State → State} (h : findCmd s c.serial = some (k, c)) :
    settleRes c.serial b bs f (.answer s bytes 0 0) = queryEnds c b bytes s := by
  simp only [settleRes, h, queryEnds]
  by_cases ho : blockOpen c b s = true
  · rw [if_neg (blockOpen_iff.mp ho), if_pos ho]
    unfold replies
    by_cases hl : bytes.length ≤ word c.packet 4
    · rw [if_pos hl, Nat.min_eq_left hl, if_neg (Nat.lt_irrefl _), List.take_length]
      rfl
    · rw [if_neg hl, Nat.min_eq_right (Nat.le_of_not_le hl), if_pos (Nat.lt_of_not_le hl)]
      rfl
  · rw [if_pos (not_not.mp fun hn => ho (blockOpen_iff.mpr hn)), if_neg ho]
    rfl

/-- A ready query whose meaning answers a record, in a state that keeps the flows. -/
theorem startRow_query (h : ready code q c s = true) (hd : m.deny (cmdIn q c []) s = false) (hr : m.run (cmdIn q c []) s = .answer t bytes 0 0) (hf : t.flows = s.flows) :
    startRow code m q b s = queryEnds c b bytes t := by
  have hfind : findCmd t c.serial = some (flowKey q, c) := by
    rw [← ready_find h]
    unfold findCmd allCmds
    rw [hf]
  rw [startRow_ready h hd, hr, settleRes_query hfind]

/-- A ready command that its meaning refuses. -/
theorem startRow_refused {o : Nat} (h : ready code q c s = true) (hd : m.deny (cmdIn q c []) s = false) (hr : m.run (cmdIn q c []) s = refuse s o) :
    startRow code m q b s = refuses c b o 0 0 s :=
  startRow_done h hd hr

theorem exec_devQuery_ends (h : ready 0x0101 q c s = true) : exec (.devQuery q b) s = .next (queryEnds c b (devAnswer c.fn.val s) s) := by
  rw [exec_devQuery_ready h, settleRes_query (ready_find h)]

theorem exec_capacityQuery_ends (h : ready 0x0107 q c s = true) : exec (.capacityQuery q b) s = .next (queryEnds c b (capacityAnswer s) s) :=
  congrArg Host.Outcome.next (startRow_query (m := meanCapacityQuery) h rfl rfl rfl)

theorem exec_timeStatus_ends (h : ready 0x0705 q c s = true) :
    exec (.timeStatus q b) s = .next (queryEnds c b (timeRecord s ++ Machine.slice s.time.ptp.metadata 0 64) s) :=
  congrArg Host.Outcome.next (startRow_query (m := meanTimeStatus) h rfl rfl rfl)

theorem exec_memStatus_ends (h : ready 0x0C03 q c s = true) :
    exec (.memStatus q b) s = .next (queryEnds c b (memRecord s ++ Machine.slice (s.mem.ueLog.flatMap (fun e => le 8 (e.2 % 2 ^ 48 + e.1.toNat * 2 ^ 63))) 0 256) s) :=
  congrArg Host.Outcome.next (startRow_query (m := meanMemStatus) h rfl rfl rfl)

theorem exec_shedStatus_ends (h : ready 0x0D02 q c s = true) : exec (.shedStatus q b) s = .next (queryEnds c b (shedRecord s) s) :=
  congrArg Host.Outcome.next (startRow_query (m := meanShedStatus) h rfl rfl rfl)

/-- The tag entries that PAIR_STATUS shows function f: all to PF0, its own to a VF (R416). -/
def tagsSeen (f : Nat) (s : State) : List Byte :=
  (s.pair.tags.filter (fun e => f == 0 || e.1 / 256 == f)).flatMap (fun e =>
    le 1 (e.1 / 256) ++ le 1 (e.1 % 256) ++ zeros 2 ++ le 4 e.2.started.toNat ++ le 4 e.2.done.toNat ++ le 4 e.2.count)

theorem exec_pairStatus_ends (h : ready 0x0902 q c s = true) : exec (.pairStatus q b) s = .next (queryEnds c b (pairRecord s ++ tagsSeen c.fn.val s) s) :=
  congrArg Host.Outcome.next (startRow_query (m := meanPairStatus) h rfl rfl rfl)

/-! Queries of one object, which its function alone may ask (R72). -/

theorem exec_chanStatus_ends {x : Chan} (h : ready 0x0208 q c s = true) (hx : chanAt s (fld c.packet 5 5 0) = some x) (ho : x.owner = c.fn) :
    exec (.chanStatus q b) s = .next (queryEnds c b (chanRecord s (fld c.packet 5 5 0) (startedChan s x)) s) :=
  congrArg Host.Outcome.next (startRow_query (m := meanChanStatus) h (by simp [meanChanStatus, denyChan, cmdIn, hx, ho])
    (by simp [meanChanStatus, runChanStatus, withChan, cmdIn, hx]) rfl)

theorem exec_chanStatus_absent (h : ready 0x0208 q c s = true) (hx : chanAt s (fld c.packet 5 5 0) = none) :
    exec (.chanStatus q b) s = .next (refuses c b stBadParam 0 0 s) :=
  congrArg Host.Outcome.next (startRow_refused (m := meanChanStatus) h (by simp [meanChanStatus, denyChan, hx]) (by simp [meanChanStatus, runChanStatus, withChan, hx]))

theorem exec_decStatus_ends {d : Decoder} (h : ready 0x0504 q c s = true) (hd : decAt s (fld c.packet 5 4 0) = some d) (ho : d.owner = c.fn) :
    exec (.decStatus q b) s = .next (queryEnds c b (decRecord (fld c.packet 5 4 0) d ++ decExtension d) s) :=
  congrArg Host.Outcome.next (startRow_query (m := meanDecStatus) h (by simp [meanDecStatus, cmdIn, hd, ho]) (by simp [meanDecStatus, runDecStatus, cmdIn, hd]) rfl)

theorem exec_decStatus_absent (h : ready 0x0504 q c s = true) (hd : decAt s (fld c.packet 5 4 0) = none) :
    exec (.decStatus q b) s = .next (refuses c b stBadParam 0 0 s) :=
  congrArg Host.Outcome.next (startRow_refused (m := meanDecStatus) h (by simp [meanDecStatus, hd]) (by simp [meanDecStatus, runDecStatus, hd]))

theorem exec_countersRead_chan {x : Chan} (h : ready 0x0B03 q c s = true) (hk : fld c.packet 5 1 0 = 0) (hx : chanAt s (fld c.packet 5 13 8) = some x) (ho : x.owner = c.fn) :
    exec (.countersRead q b) s = .next (queryEnds c b (countersChan (fld c.packet 5 13 8) x) s) :=
  congrArg Host.Outcome.next (startRow_query (m := meanCountersRead) h (by simp [meanCountersRead, cmdIn, hk, hx, ho]) (by simp [meanCountersRead, runCountersRead, hk, hx]) rfl)

theorem exec_countersRead_device (h : ready 0x0B03 q c s = true) (hk : fld c.packet 5 1 0 = 1) (hf : c.fn = 0) :
    exec (.countersRead q b) s = .next (queryEnds c b (countersDevice s) s) :=
  congrArg Host.Outcome.next (startRow_query (m := meanCountersRead) h (by simp [meanCountersRead, cmdIn, hk, hf]) (by simp [meanCountersRead, runCountersRead, hk]) rfl)

theorem exec_countersRead_refused (h : ready 0x0B03 q c s = true) (hk : (fld c.packet 5 1 0 = 0 ∧ chanAt s (fld c.packet 5 13 8) = none) ∨ 2 ≤ fld c.packet 5 1 0) :
    exec (.countersRead q b) s = .next (refuses c b stBadParam 0 0 s) := by
  obtain ⟨hk, hx⟩ | hk := hk
  · exact congrArg Host.Outcome.next (startRow_refused (m := meanCountersRead) h (by simp [meanCountersRead, hk, hx]) (by simp [meanCountersRead, runCountersRead, hk, hx]))
  · have h0 : fld c.packet 5 1 0 ≠ 0 := by omega
    have h1 : fld c.packet 5 1 0 ≠ 1 := by omega
    exact congrArg Host.Outcome.next (startRow_refused (m := meanCountersRead) h (by simp [meanCountersRead, h0, h1]) (by simp [meanCountersRead, runCountersRead, h0, h1]))

/-! UPD_STATUS (R464, R466) and JOURNAL_READ (R444). -/

/-- What ACK of UPD_STATUS clears: the last failure and the fallback mark, which goes to the boot record. -/
def updAcked (s : State) : State :=
  if s.upd.boot.fallback then writeBoot (fun r => { r with fallback := false }) { s with upd.lastFail := 0 } else { s with upd.lastFail := 0 }

theorem updAcked_frame (s : State) : updAcked s = { s with upd := (updAcked s).upd } := by
  unfold updAcked
  split <;> rfl

theorem updAcked_flows (s : State) : (updAcked s).flows = s.flows := by rw [updAcked_frame]

theorem blockOpen_updAcked : blockOpen c b (updAcked s) = blockOpen c b s := by rw [updAcked_frame]; rfl

theorem exec_updStatus_ends (h : ready 0x0A09 q c s = true) (ha : flag c.packet 5 0 = false) : exec (.updStatus q b) s = .next (queryEnds c b (updRecord s) s) :=
  congrArg Host.Outcome.next (startRow_query (m := meanUpdStatus) h (by simp [meanUpdStatus, ha]) (by simp [meanUpdStatus, runUpdStatus, ha]) rfl)

theorem exec_updStatus_ack (h : ready 0x0A09 q c s = true) (ha : flag c.packet 5 0 = true) (hf : c.fn = 0) :
    exec (.updStatus q b) s = .next (queryEnds c b (updRecord (updAcked s)) (updAcked s)) :=
  congrArg Host.Outcome.next (startRow_query (m := meanUpdStatus) h (by simp [meanUpdStatus, cmdIn, hf]) (by simp [meanUpdStatus, runUpdStatus, ha, updAcked]) (updAcked_flows s))

/-- The entries JOURNAL_READ may return, the number of the next after the first n of them, and the bytes of those. -/
def journalSeen (c : Cmd) (s : State) : List JEntry :=
  (journalAll s).filter (fun e => decide (dword c.packet 5 ≤ e.seq) && (c.fn.val == 0 || e.function == c.fn.val))
def journalNext (c : Cmd) (s : State) : Nat :=
  match (journalSeen c s).drop (word c.packet 4 / 32) with | e :: _ => e.seq | [] => max s.journal.nextSeq (dword c.packet 5)
def journalBytesRead (c : Cmd) (s : State) : List Byte := ((journalSeen c s).take (word c.packet 4 / 32)).flatMap jBytes

theorem runJournalRead_eq : meanJournalRead.run (cmdIn q c []) s
    = .units s (journalBytesRead c s) (journalBytesRead c s).length (journalNext c s % 2 ^ 32) (journalNext c s / 2 ^ 32) := rfl

theorem exec_journalRead_open (h : ready 0x0B05 q c s = true) (ho : blockOpen c b s = true) :
    exec (.journalRead q b) s = .next (answers c b (journalBytesRead c s) (journalNext c s % 2 ^ 32) (journalNext c s / 2 ^ 32) s) := by
  refine congrArg Host.Outcome.next ((startRow_ready (m := meanJournalRead) h rfl).trans ?_)
  rw [runJournalRead_eq, settleRes_units_open (ready_find h) ho]
  rfl

theorem exec_journalRead_shut (h : ready 0x0B05 q c s = true) (ho : blockOpen c b s = false) : exec (.journalRead q b) s = .next (answerFails c b s) := by
  refine congrArg Host.Outcome.next ((startRow_ready (m := meanJournalRead) h rfl).trans ?_)
  rw [runJournalRead_eq, settleRes_units_fails (ready_find h) ho]

/-- Settles O22: each query ends with its record (`queryEnds`), by whether its block is open. -/
theorem queriesAnswerTheirRecords : Obligations.QueriesAnswerTheirRecords := by
  unfold Obligations.QueriesAnswerTheirRecords
  intro q b s c
  refine ⟨fun h ho => ?dev, fun h ho => ?capacity, fun h => ⟨fun x hx hown ho => ?chan, fun hx => exec_chanStatus_absent h hx⟩,
    fun h => ⟨fun d hd hown ho => ?dec, fun hd => exec_decStatus_absent h hd⟩, fun h ho => ?time, fun h ho => ?pair,
    fun h ho => ⟨fun ha => ?upd, fun t ha hf ht => ?ack⟩, fun h => ⟨fun x hk hx hown ho => ?countersChan, fun hk hf ho => ?countersDevice, exec_countersRead_refused h⟩,
    ?journal, fun h ho => ?mem, fun h ho => ?shed, fun hs => ?shut⟩
  case dev => rw [exec_devQuery_ends h, queryEnds_open ho]
  case capacity => rw [exec_capacityQuery_ends h, queryEnds_open ho]
  case chan => rw [exec_chanStatus_ends h hx hown, queryEnds_open ho]
  case dec => rw [exec_decStatus_ends h hd hown, queryEnds_open ho]
  case time => rw [exec_timeStatus_ends h, queryEnds_open ho]
  case pair => rw [exec_pairStatus_ends h, queryEnds_open ho]; rfl
  case upd => rw [exec_updStatus_ends h ha, queryEnds_open ho]
  case ack => rw [exec_updStatus_ack h ha hf, queryEnds_open (blockOpen_updAcked.trans ho), show t = updAcked s from ht]
  case countersChan => rw [exec_countersRead_chan h hk hx hown, queryEnds_open ho]
  case countersDevice => rw [exec_countersRead_device h hk hf, queryEnds_open ho]
  case journal =>
    rintro mine n bytes h rfl rfl rfl ho
    rw [exec_journalRead_open h ho]
    rfl
  case mem => rw [exec_memStatus_ends h, queryEnds_open ho]
  case shed => rw [exec_shedStatus_ends h, queryEnds_open ho]
  case shut =>
    refine ⟨fun h => ?_, fun h => ?_, fun x h hx hown => ?_, fun d h hd hown => ?_, fun h => ?_, fun h => ?_, fun h ha => ?_, fun h hk hf => ?_,
      fun h => exec_journalRead_shut h hs, fun h => ?_, fun h => ?_⟩
    · rw [exec_devQuery_ends h, queryEnds_shut hs]
    · rw [exec_capacityQuery_ends h, queryEnds_shut hs]
    · rw [exec_chanStatus_ends h hx hown, queryEnds_shut hs]
    · rw [exec_decStatus_ends h hd hown, queryEnds_shut hs]
    · rw [exec_timeStatus_ends h, queryEnds_shut hs]
    · rw [exec_pairStatus_ends h, queryEnds_shut hs]
    · rw [exec_updStatus_ends h ha, queryEnds_shut hs]
    · rw [exec_countersRead_device h hk hf, queryEnds_shut hs]
    · rw [exec_memStatus_ends h, queryEnds_shut hs]
    · rw [exec_shedStatus_ends h, queryEnds_shut hs]

end Sys2Proof.CommandProtocol

/-! PROOFS. Channel commands: creation, configuration, start, stop, delay, key requests and the end (R72, R79 to R83, R89, R95, R98, R103, R127). -/

namespace Sys2Proof.CommandProtocol

open Sys2Proof.Machine Sys2Proof.Laws Sys2Proof.HostAccess Sys2Proof.Architecture

section
variable {q : FlowRef} {b : Bus} {s t : State} {c : Cmd} {x : Chan} {code : Nat}

theorem coding_eq_true : coding x = true ↔ x.st = .running ∨ x.st = .draining := by simp [coding]

theorem coding_of_idle (h : x.st = .idle) : coding x = false := by simp [coding, h]
theorem coding_of_armed (h : x.st = .armed) : coding x = false := by simp [coding, h]
theorem admitted_of_ne (h : x.st ≠ .idle) : admitted x = true := by simp [admitted, h]
theorem admitted_of_idle (h : x.st = .idle) : admitted x = false := by simp [admitted, h]

/-- A channel taken as it stands differs from the one stored in its state alone (R82). -/
theorem startedChan_keeps (s : State) (y : Chan) : startedChan s y = { y with st := (startedChan s y).st } := by
  unfold startedChan
  split <;> rfl

/-- A ready command of a channel that is not there (R72): its meaning is not asked. -/
theorem startRow_noChan {r : CmdIn → State → CmdRes} {f : CmdIn → State → State} {k : Chan → CmdRes} (h : ready code q c s = true) (hn : chanAt s (chanOf c.packet) = none)
    (hr : r (cmdIn q c []) s = withChan s (chanOf c.packet) k) :
    startRow code { deny := denyNamed, run := r, after := f } q b s = refuses c b stBadParam 0 0 s := by
  refine startRow_refused (m := { deny := denyNamed, run := r, after := f }) h ?_ (hr.trans ?_)
  · simp [denyNamed, denyChan, hn]
  · simp [withChan, hn]

/-! CHAN_CREATE and CHAN_CONFIG (R79 to R81). -/

theorem exec_chanCreate_free {n : Nat} (h : ready 0x0201 q c s = true) (hn : s.chans.lowestFree 64 = some n) :
    exec (.chanCreate q b) s = .next (completes c b 0 n 0 (setChan s n { owner := Fin.ofNat 32 c.fn.val })) :=
  congrArg Host.Outcome.next (startRow_done (m := meanChanCreate) h rfl (by simp only [meanChanCreate, runChanCreate, hn]; rfl))

theorem exec_chanCreate_full (h : ready 0x0201 q c s = true) (hn : s.chans.lowestFree 64 = none) :
    exec (.chanCreate q b) s = .next (refuses c b stNoResource 0 0 s) :=
  congrArg Host.Outcome.next (startRow_refused (m := meanChanCreate) h rfl (by simp only [meanChanCreate, runChanCreate, hn]))

/-- CHAN_CONFIG of an own channel, its source no other function's, is settled by its meaning. -/
theorem exec_chanConfig_own {a : CmdRes} (h : ready 0x0202 q c s = true) (ho : ownChan c x s) (hf : sourceForeign s (fld c.packet 3 1 0) (fld c.packet 3 23 8) c.fn.val = false)
    (ha : runChanConfig (cmdIn q c []) s = a) : exec (.chanConfig q b) s = .next (settleRes c.serial b [] id a) := by
  have hd : meanChanConfig.deny (cmdIn q c []) s = false := by
    change (denyNamed (cmdIn q c []) s || sourceForeign s (fld c.packet 3 1 0) (fld c.packet 3 23 8) c.fn.val) = false
    rw [denyNamed_own ho, hf]
    rfl
  exact congrArg Host.Outcome.next ((startRow_ready (m := meanChanConfig) h hd).trans (congrArg (settleRes c.serial b [] id) ha))

theorem runChanConfig_outOfRange (ho : ownChan c x s) (hk : chanCfgOf c.packet = none) : runChanConfig (cmdIn q c []) s = refuse s stBadParam := by
  refine (withChan_own ho _).trans ?_
  dsimp only [cmdIn_p]
  rw [hk]

theorem runChanConfig_inRange {k : ChanCfg} (ho : ownChan c x s) (hk : chanCfgOf c.packet = some k) :
    runChanConfig (cmdIn q c []) s = if !sourceExists s k then refuse s stBadParam else if admitted x then refuse s stBadState
      else okDone (modChan s (chanOf c.packet) (fun x => { x with cfg := some k, shedClass := k.shedClass })) 0 := by
  refine (withChan_own ho _).trans ?_
  dsimp only [cmdIn_p]
  rw [hk]

/-! CHAN_START (R83, R88 to R97). -/

theorem exec_chanStart_partial (h : ready 0x0203 q c s = true) (ho : ownChan c x s) (hb : startFieldsBad c.packet = false)
    (hn : x.cfg = none ∨ x.profile = none ∨ x.coding.rc = none) : exec (.chanStart q b) s = .next (refuses c b stBadState 0 0 s) := by
  refine congrArg Host.Outcome.next (startRow_withChan (a := refuse s stBadState) h ho rfl ?_)
  dsimp only [cmdIn_p]
  obtain hn | hn | hn := hn
  · rw [hn]; exact if_neg (ne_true_of_eq_false hb)
  · rw [hn]; cases x.cfg <;> exact if_neg (ne_true_of_eq_false hb)
  · rw [hn]; cases x.cfg <;> cases x.profile <;> exact if_neg (ne_true_of_eq_false hb)

section
variable {k : ChanCfg} {p : EncProfile} {rc : RcCfg}

theorem exec_chanStart_badParam (h : ready 0x0203 q c s = true) (ho : ownChan c x s) (hk : x.cfg = some k) (hp : x.profile = some p) (hrc : x.coding.rc = some rc)
    (hbad : startParamBad s x k p rc = true) : exec (.chanStart q b) s = .next (refuses c b stBadParam 0 0 s) := by
  refine congrArg Host.Outcome.next (startRow_withChan (a := refuse s stBadParam) h ho rfl ?_)
  dsimp only [cmdIn_p]
  rw [hk, hp, hrc]
  exact if_pos (by rw [hbad, Bool.or_true])

theorem exec_chanStart_notIdle (h : ready 0x0203 q c s = true) (ho : ownChan c x s) (hb : startFieldsBad c.packet = false) (hk : x.cfg = some k) (hp : x.profile = some p)
    (hrc : x.coding.rc = some rc) (hok : startParamBad s x k p rc = false) (hi : x.st ≠ .idle) : exec (.chanStart q b) s = .next (refuses c b stBadState 0 0 s) := by
  refine congrArg Host.Outcome.next (startRow_withChan (a := refuse s stBadState) h ho rfl ?_)
  dsimp only [cmdIn_p]
  rw [hk, hp, hrc]
  exact (if_neg (by rw [hb, hok]; exact Bool.false_ne_true)).trans (if_pos (admitted_of_ne hi))

/-- The load that a start asks for: what the channel is set to and, by the commands that wait, comes to (R91). -/
def startRate (c : Cmd) (x : Chan) (rc : RcCfg) (s : State) : Nat :=
  mostOf (fun z => (z.rc.map (fun r => r.rateMax)).getD 0) rc.rateMax (codingsAhead s (chanOf c.packet) x)
def startRefs (c : Cmd) (x : Chan) (s : State) : Nat := mostOf (fun z => z.gop.nRef) 0 (codingsAhead s (chanOf c.packet) x)
def startAhead (c : Cmd) (x : Chan) (s : State) : Bool := (codingsAhead s (chanOf c.packet) x).any (fun z => z.spec.runAhead) || x.coding.gop.lookahead != 0
def startLoad (c : Cmd) (x : Chan) (k : ChanCfg) (p : EncProfile) (rc : RcCfg) (s : State) : Load :=
  loadOf s (chanOf c.packet) k p rc.rowCap (startRate c x rc s) (startRefs c x s) x.coding.gop.lookahead (startAhead c x s)
    (delayOf (geomOf s k p) x.delayReq) (delayOf (geomOf s k p) x.delayReq)

/-- The run that a start begins with. -/
def startRun (c : Cmd) (x : Chan) (k : ChanCfg) (p : EncProfile) (rc : RcCfg) (isles : List Nat) (s : State) : Run :=
  { startMode := fld c.packet 3 1 0, startAt := if fld c.packet 3 1 0 = 1 then nsInstant (startNs c.packet) else s.time.local', trigger := fld c.packet 3 9 8, isles := isles,
    admRate := startRate c x rc s, admRef := startRefs c x s, admDelay := delayOf (geomOf s k p) x.delayReq, maxDelay := delayOf (geomOf s k p) x.delayReq,
    lookaheadSpace := startAhead c x s, lagoonSlots := lagoonSlots (loadL s (poolWith s (some (startLoad c x k p rc s)) (some (chanOf c.packet)))) (startLoad c x k p rc s),
    v := (vTargetBits rc : Int) }

/-- A channel that starts: ARMED unless START_MODE is 0, its counters and what it reported cleared (R95, R96). -/
def startChan (c : Cmd) (run : Run) (x : Chan) : Chan :=
  { x with st := if fld c.packet 3 1 0 = 0 then .running else .armed, run := run, counters := {}, stopReason := 0, lossFlag := false,
           sliceFault := false, confidence := false, input := {} }

theorem exec_chanStart_starts {isles : List Nat} (h : ready 0x0203 q c s = true) (ho : ownChan c x s) (hb : startFieldsBad c.packet = false) (hk : x.cfg = some k)
    (hp : x.profile = some p) (hrc : x.coding.rc = some rc) (hok : startParamBad s x k p rc = false) (hi : x.st = .idle)
    (hat : fld c.packet 3 1 0 = 1 → s.time.local' < nsInstant (startNs c.packet)) (htr : fld c.packet 3 1 0 = 2 → triggerStarts s (fld c.packet 3 9 8) = true)
    (hsrc : sourceExists s k = true) (hlane : k.srcKind = 1 → (laneAt s k.srcIndex).cfg.mode = 2) (hptp : k.refMode = 1 → s.time.ptp.st = .locked)
    (hdel : (geomOf s k p).dMin ≤ delayOf (geomOf s k p) x.delayReq) (hfit : s.mem.noFit = false)
    (hspace : spaceFits s (poolWith s (some (startLoad c x k p rc s)) (some (chanOf c.packet))) = true) (hload : admitLoad s (startLoad c x k p rc s) true = none)
    (hisles : placeIsles s (chanOf c.packet) (startLoad c x k p rc s).nIsle = some isles) (hshed : shedStops s (chanShedClass s x) = false) :
    exec (.chanStart q b) s = .next (waits c [] (.chanStart (chanOf c.packet)) 0 0
      (modChan s (chanOf c.packet) (startChan c (startRun c x k p rc isles s)))) := by
  refine congrArg Host.Outcome.next (startRow_withChan (a := .pend (modChan s (chanOf c.packet) (startChan c (startRun c x k p rc isles s))) (.chanStart (chanOf c.packet)) 0 0) h ho rfl ?_)
  have hlane' : ¬ (!sourceExists s k || (k.srcKind == 1 && (laneAt s k.srcIndex).cfg.mode != 2)) = true := by
    by_cases hkind : k.srcKind = 1
    · simp [hsrc, hlane hkind]
    · simp [hsrc, hkind]
  dsimp only [cmdIn_p]
  rw [hk, hp, hrc]
  refine (if_neg (by rw [hb, hok]; exact Bool.false_ne_true)).trans ((if_neg (ne_true_of_eq_false (admitted_of_idle hi))).trans ((if_neg hlane').trans
    ((if_neg (not_lt.mpr hdel)).trans ((if_neg fun hm => absurd (hat hm.1) (not_lt.mpr hm.2)).trans ((if_neg (by simpa using htr)).trans
    ((if_neg fun hm => hm.2 (hptp hm.1)).trans ((if_neg (by rw [hfit]; simpa [startLoad, startRate, startRefs, startAhead] using hspace)).trans ?_)))))))
  change (match admitLoad s (startLoad c x k p rc s) true, placeIsles s (chanOf c.packet) (startLoad c x k p rc s).nIsle with
    | some (code, who), _ => _ | none, none => _ | none, some isles => _) = _
  rw [hload, hisles]
  exact if_neg (ne_true_of_eq_false hshed)

end

/-! CHAN_STOP and CHAN_DESTROY (R98, R103). -/

/-- A ready CHAN_STOP of an own channel is settled by its meaning. -/
theorem exec_chanStop_own {a : CmdRes} (h : ready 0x0204 q c s = true) (ho : ownChan c x s)
    (ha : (if x.st == .idle then refuse s stBadState
      else if x.st == .armed then okDone (modChan (cancelArmed (chanOf c.packet) stCancelled s) (chanOf c.packet) (fun x => { x with stopReason := 1 })) 0
      else .pend s (.chanStop (chanOf c.packet)) 0 0) = a) :
    exec (.chanStop q b) s = .next (settleRes c.serial b [] (stopNow (chanOf c.packet) (flag c.packet 3 0)) a) := by
  have hrun : runChanStop (cmdIn q c []) s = a := by
    refine (withChan_own ho _).trans ?_
    exact ha
  exact congrArg Host.Outcome.next ((startRow_ready (m := meanChanStop) h (denyNamed_own ho q [])).trans (congrArg (settleRes c.serial b [] _) hrun))

theorem exec_chanDestroy_own {a : CmdRes} (h : ready 0x0205 q c s = true) (ho : ownChan c x s)
    (ha : (if coding x then refuse s stBadState
      else okDone (chanRemove (chanOf c.packet) (cancelWaiters (chanOf c.packet) stCancelled (cancelArmed (chanOf c.packet) stCancelled s))) 0) = a) :
    exec (.chanDestroy q b) s = .next (settleRes c.serial b [] id a) :=
  congrArg Host.Outcome.next (startRow_withChan h ho rfl ha)

/-! CHAN_SET_DELAY (R88, R89). -/

/-- The delay that CHAN_SET_DELAY asks for is in range: 0, or 500 to 40,000 µs (R88). -/
def delayInRange (v : Nat) : Prop := v = 0 ∨ (500 ≤ v ∧ v ≤ 40000)

/-- The same as CHAN_SET_DELAY checks it. -/
def delayValueOk (v : Nat) : Bool := v == 0 || (decide (500 ≤ v) && decide (v ≤ 40000))

theorem delayValueOk_iff {v : Nat} : delayValueOk v = true ↔ delayInRange v := by simp [delayValueOk, delayInRange]

/-- The delay lies below D_min of the channel as it is set (R89). -/
def delayLow (s : State) (x : Chan) (v : Nat) : Bool :=
  match chanGeom s x with | some g => decide (0 < v) && decide (((v * 1000 : Nat) : Rat) < g.dMin) | none => false

/-- The D that the value selects; 0 of a channel that is not configured. -/
def delayAsked (s : State) (x : Chan) (v : Nat) : Rat := match chanGeom s x with | some g => delayOf g v | none => 0

/-- CHAN_SET_DELAY of a value or for a picture out of range (R88, R89). -/
def delayRefused (q : FlowRef) (c : Cmd) (x : Chan) (s : State) : Bool :=
  !(delayValueOk (fld c.packet 3 15 0)) || tooFar (cmdIn q c []) x || (delayLow s x (fld c.packet 3 15 0) && coding x)

/-- A change of the delay that is admitted: it waits for its picture, or is stored at once (R19). -/
def delayAnswered (c : Cmd) (b : Bus) (x : Chan) (t : State) : State :=
  if coding x || atPictureOf c.packet then waits c [] (.picture (chanOf c.packet) (pictureAsked c)) 0 0 t
  else completes c b 0 0 0 (modChan t (chanOf c.packet) (fun x => { x with delayReq := fld c.packet 3 15 0 }))

theorem exec_chanSetDelay_outOfRange (h : ready 0x0206 q c s = true) (ho : ownChan c x s) (hv : ¬ delayInRange (fld c.packet 3 15 0)) :
    exec (.chanSetDelay q b) s = .next (refuses c b stBadParam 0 0 s) := by
  have hbad : delayRefused q c x s = true := by
    unfold delayRefused
    rw [Bool.eq_false_iff.mpr (mt delayValueOk_iff.mp hv)]
    rfl
  exact congrArg Host.Outcome.next (startRow_withChan (a := refuse s stBadParam) h ho rfl (if_pos hbad))

theorem exec_chanSetDelay_admitted (h : ready 0x0206 q c s = true) (ho : ownChan c x s) (hv : delayInRange (fld c.packet 3 15 0)) (h302 : x.st302 = [])
    (ha : picturesAhead c x) (hl : (delayLow s x (fld c.packet 3 15 0) && coding x) = false)
    (hr : (if delayLow s x (fld c.packet 3 15 0) then (s, none)
      else raiseLoad s (chanOf c.packet) x x.run.admRate x.run.admRef (delayAsked s x (fld c.packet 3 15 0)) false x.coding.gop) = (t, none)) :
    exec (.chanSetDelay q b) s = .next (delayAnswered c b x t) := by
  refine congrArg Host.Outcome.next ((startRow_withChan (a := changeAtPicture (cmdIn q c []) (chanOf c.packet) x t
    (fun s => modChan s (chanOf c.packet) (fun x => { x with delayReq := fld c.packet 3 15 0 }))) h ho rfl ?_).trans ?_)
  · have hok : delayRefused q c x s = false := by
      unfold delayRefused
      rw [delayValueOk_iff.mpr hv, tooFar_ahead ha, hl]
      rfl
    refine (if_neg (ne_true_of_eq_false hok)).trans ((if_neg (ne_true_of_eq_false (alreadyStarted_ahead ha))).trans
      ((if_neg (by simp [h302])).trans ?_))
    change (match (if delayLow s x (fld c.packet 3 15 0) then (s, none)
      else raiseLoad s (chanOf c.packet) x x.run.admRate x.run.admRef (delayAsked s x (fld c.packet 3 15 0)) false x.coding.gop) with | (_, some r) => r | (s, none) => _) = _
    rw [hr]
    rfl
  · unfold changeAtPicture delayAnswered
    by_cases hc : (coding x || atPictureOf c.packet) = true
    · simp only [cmdIn, hc, if_true]; rfl
    · simp only [cmdIn, hc]; rfl

theorem raiseLoad_idle {rate refs : Nat} {d : Rat} {la : Bool} {g : EncGop} {n : Nat} (h : x.st = .idle) : raiseLoad s n x rate refs d la g = (s, none) := by
  unfold raiseLoad
  split
  · exact if_pos (by rw [admitted_of_idle h]; rfl)
  · rfl

theorem delayLow_zero : delayLow s x 0 = false := by
  unfold delayLow
  cases chanGeom s x <;> rfl

/-- A delay of 0 selects D_min, so it is not below it. -/
theorem delayLow_eq_false {v : Nat} {g : Geom} (hg : chanGeom s x = some g) (hd : v ≠ 0 → g.dMin ≤ ((v * 1000 : Nat) : Rat)) : delayLow s x v = false := by
  by_cases hv : v = 0
  · rw [hv, delayLow_zero]
  · unfold delayLow
    rw [hg]
    exact Bool.and_eq_false_iff.mpr (.inr (decide_eq_false (not_lt.mpr (hd hv))))

/-! KEY_REQUEST (R127). -/

theorem exec_keyRequest_ahead (h : ready 0x0207 q c s = true) (ho : ownChan c x s) (hk : fld c.packet 3 1 0 ≤ 2) (ha : picturesAhead c x) :
    exec (.keyRequest q b) s = .next (if x.st = .running then waits c [] (.picture (chanOf c.packet) (pictureAsked c)) 0 0 s else refuses c b stBadState 0 0 s) := by
  refine congrArg Host.Outcome.next ((startRow_withChan (a := if x.st = .running then .pend s (.picture (chanOf c.packet) (pictureAsked c)) 0 0 else refuse s stBadState) h ho rfl ?_).trans ?_)
  · have hok : (decide (fld c.packet 3 1 0 = 3) || tooFar (cmdIn q c []) x) = false := by
      rw [tooFar_ahead ha, decide_eq_false (by omega)]
      rfl
    refine (if_neg (ne_true_of_eq_false hok)).trans ((if_neg (ne_true_of_eq_false (alreadyStarted_ahead ha))).trans ?_)
    by_cases hr : x.st = .running
    · rw [if_pos hr, if_neg (by simp [hr]), changeAtPicture, if_pos (by simp [coding, hr])]
      rfl
    · rw [if_neg hr, if_pos (by simpa using hr)]
  · split <;> rfl

end

/-- Settles O23: each command by its meaning on the channel as it stands, along the states of Table 3.4. -/
theorem channelsLiveAndEnd : Obligations.ChannelsLiveAndEnd := by
  unfold Obligations.ChannelsLiveAndEnd
  refine ⟨fun q b s c h => ⟨fun n hn => exec_chanCreate_free h hn, exec_chanCreate_full h⟩, fun q b s c x h ho hf => ⟨fun k hk hs hi => ?config, fun k hk hs hi => ?busy, ?wrong⟩,
    fun q b s c x h ho hb => ⟨exec_chanStart_partial h ho hb, fun k p rc hk hp hrc => ⟨exec_chanStart_badParam h ho hk hp hrc, exec_chanStart_notIdle h ho hb hk hp hrc, ?start⟩⟩,
    fun q b s c x h ho => ⟨fun hst => ?stopArmed, fun hst => ?stopCoding, fun hst => ?stopIdle⟩, fun q b s c x h ho => ⟨fun hc => ?destroy, fun hc => ?destroyCoding⟩,
    fun q b s c x h ho => ⟨fun hv => exec_chanSetDelay_outOfRange h ho (by unfold delayInRange; omega), fun hi h302 hap hv => ?delayIdle,
      fun g hi h302 hap hg h1 h2 hlow => ?delayArmed, fun g t hv h302 ha hg hd hr => ?delay⟩,
    fun q b s c x h ho hk ha => ⟨fun hr => (exec_keyRequest_ahead h ho hk ha).trans (congrArg _ (if_pos hr)), fun hr => (exec_keyRequest_ahead h ho hk ha).trans (congrArg _ (if_neg hr))⟩,
    fun q b s c hn => ⟨fun h => ?_, fun h => ?_, fun h => ?_, fun h => ?_, fun h => ?_⟩⟩
  case config =>
    refine exec_chanConfig_own (a := okDone _ 0) h ho hf ((runChanConfig_inRange ho hk).trans ?_)
    rw [hs, admitted_of_idle hi]
    rfl
  case busy =>
    refine exec_chanConfig_own (a := refuse s stBadState) h ho hf ((runChanConfig_inRange ho hk).trans ?_)
    rw [hs, admitted_of_ne hi]
    rfl
  case wrong =>
    rintro (hk | ⟨k, hk, hs⟩)
    · exact exec_chanConfig_own (a := refuse s stBadParam) h ho hf (runChanConfig_outOfRange ho hk)
    · refine exec_chanConfig_own (a := refuse s stBadParam) h ho hf ((runChanConfig_inRange ho hk).trans ?_)
      rw [hs]
      rfl
  case start =>
    rintro rate refs la l isles hok hi hat htr hsrc hlane hptp hdel rfl rfl rfl rfl hfit hspace hload hisles hshed
    obtain ⟨y, hy, hxy, -⟩ := id ho
    have hkeep : x = { y with st := x.st } := hxy ▸ startedChan_keeps s y
    refine ⟨_, startChan c (startRun c x k p rc isles s) y, exec_chanStart_starts h ho hb hk hp hrc hok hi hat htr hsrc hlane hptp hdel hfit hspace hload hisles hshed,
      by rw [chanAt_modChan, hy]; rfl, rfl, ?_, ?_, ?_, ?_, rfl, rfl, rfl, rfl, rfl, rfl, rfl, rfl, fun j hj => chanAt_modChan_ne hj.symm, rfl, rfl, rfl, rfl, rfl⟩
    all_goals (rw [hkeep]; rfl)
  case stopArmed =>
    refine exec_chanStop_own (a := okDone _ 0) h ho ?_
    rw [hst]
    rfl
  case stopCoding =>
    refine exec_chanStop_own (a := .pend s _ 0 0) h ho ?_
    obtain hst | hst := coding_eq_true.mp hst <;> rw [hst] <;> rfl
  case stopIdle =>
    refine exec_chanStop_own (a := refuse s stBadState) h ho ?_
    rw [hst]
    rfl
  case destroy => exact exec_chanDestroy_own (a := okDone _ 0) h ho (if_neg (ne_true_of_eq_false hc))
  case destroyCoding => exact exec_chanDestroy_own (a := refuse s stBadState) h ho (if_pos hc)
  case delayIdle =>
    have hcode := coding_of_idle hi
    refine (exec_chanSetDelay_admitted (t := s) h ho hv h302 (.inl hap) (by rw [hcode, Bool.and_false]) ?_).trans ?_
    · rw [raiseLoad_idle hi]
      exact ite_self _
    · exact congrArg _ (if_neg (by rw [hcode, hap]; exact Bool.false_ne_true))
  case delayArmed =>
    have hcode := coding_of_armed hi
    have hl : delayLow s x (fld c.packet 3 15 0) = true := by
      unfold delayLow
      rw [hg]
      exact Bool.and_eq_true_iff.mpr ⟨decide_eq_true (by omega), decide_eq_true hlow⟩
    refine (exec_chanSetDelay_admitted (t := s) h ho (.inr ⟨h1, h2⟩) h302 (.inl hap) (by rw [hcode, Bool.and_false]) (if_pos hl)).trans ?_
    exact congrArg _ (if_neg (by rw [hcode, hap]; exact Bool.false_ne_true))
  case delay =>
    have hl := delayLow_eq_false hg hd
    refine exec_chanSetDelay_admitted h ho hv h302 ha (by rw [hl, Bool.false_and]) ?_
    rw [if_neg (by rw [hl]; exact Bool.false_ne_true), ← hr]
    unfold delayAsked
    rw [hg]
  · exact congrArg Host.Outcome.next (startRow_noChan h hn rfl)
  · exact congrArg Host.Outcome.next (startRow_noChan h hn rfl)
  · exact congrArg Host.Outcome.next (startRow_noChan h hn rfl)
  · exact congrArg Host.Outcome.next (startRow_noChan h hn rfl)
  · exact congrArg Host.Outcome.next (startRow_noChan h hn rfl)

end Sys2Proof.CommandProtocol

/-! PROOFS. Composition commands: outputs, staged changes and their commit (R72, R172 to R177, R194 to R201, R207). -/

namespace Sys2Proof.CommandProtocol

open Sys2Proof.Machine Sys2Proof.Laws Sys2Proof.HostAccess Sys2Proof.Architecture

section
variable {q : FlowRef} {b : Bus} {s t : State} {c : Cmd} {o : Output} {code : Nat} {m : Meaning}

/-- A ready command that is not denied is settled by what its meaning comes to. -/
theorem startRow_settled {a : CmdRes} (h : ready code q c s = true) (hd : m.deny (cmdIn q c []) s = false) (hr : m.run (cmdIn q c []) s = a) :
    startRow code m q b s = settleRes c.serial b [] (m.after (cmdIn q c [])) a :=
  hr ▸ startRow_ready h hd

/-! OUT_CREATE (R172 to R175). -/

/-- OUT_CREATE of a new output, its TO_SURFACE surface no other function's, is denied to none. -/
theorem outCreate_allowed (hop : fld c.packet 2 1 0 = 0) (hs : ∀ x, surfAt s (fld c.packet 6 31 16) = some x → x.owner.val = c.fn.val) :
    meanOutCreate.deny (cmdIn q c []) s = false := by
  cases hx : surfAt s (fld c.packet 6 31 16) with
  | none => simp [meanOutCreate, hop, hx]
  | some x => simp [meanOutCreate, cmdIn, hop, hx, hs x hx]

theorem runOutCreate_outOfRange (hop : fld c.packet 2 1 0 = 0)
    (hbad : fld c.packet 2 12 8 ≠ 0 ∨ outCfgOf c.packet = none ∨ (∃ o, outCfgOf c.packet = some o ∧ toSurfaceOk s c.fn.val o = false)) :
    runOutCreate (cmdIn q c []) s = refuse s stBadParam := by
  obtain hz | hn | ⟨k, hk, hno⟩ := hbad
  · simp [runOutCreate, hop, hz]
  · simp [runOutCreate, hop, hn]
  · simp [runOutCreate, cmdIn, hop, hk, hno]

/-- OUT_CREATE in range asks for a number, a compositor and the memory, in this order (R172, R174). -/
theorem runOutCreate_inRange {k : OutCfg} (hop : fld c.packet 2 1 0 = 0) (hz : fld c.packet 2 12 8 = 0) (hk : outCfgOf c.packet = some k) (hok : toSurfaceOk s c.fn.val k = true) :
    (s.outs.lowestFree 32 = none → runOutCreate (cmdIn q c []) s = refuse s stNoResource) ∧
    (∀ n, s.outs.lowestFree 32 = some n → placeOutput s k = none → runOutCreate (cmdIn q c []) s = .done s stCapacity 0 0x300 0xFFFFFFFF) ∧
    (∀ n e, s.outs.lowestFree 32 = some n → placeOutput s k = some e → s.mem.noFit = false → memoryCheck s (poolWith s none none) (outHbm s k) (outQdr k) = none → shedStops s 2 = false →
      runOutCreate (cmdIn q c []) s = .done (setOut s n { owner := Fin.ofNat 32 c.fn.val, cfg := k, compositor := e, next := firstPicture k s.time.local' }) stOk 1 n 0) := by
  refine ⟨fun hn => ?_, fun n hn hp => ?_, fun n e hn hp hfit hmem hshed => ?_⟩
  · simp [runOutCreate, cmdIn, hop, hz, hk, hok, hn]
  · simp [runOutCreate, cmdIn, hop, hz, hk, hok, hn, hp]
  · simp [runOutCreate, cmdIn, hop, hz, hk, hok, hn, hp, hfit, hmem, hshed]

theorem exec_outCreate_otherOp (h : ready 0x0401 q c s = true) (hop : 2 ≤ fld c.packet 2 1 0) : exec (.outCreate q b) s = .next (refuses c b stBadParam 0 0 s) := by
  have h0 : fld c.packet 2 1 0 ≠ 0 := by omega
  have h1 : fld c.packet 2 1 0 ≠ 1 := by omega
  exact congrArg Host.Outcome.next (startRow_refused (m := meanOutCreate) h (by simp [meanOutCreate, h0, h1]) (by simp [meanOutCreate, runOutCreate, h0, h1]))

/-- OP 1 of an own output is settled by whether the output is going or used (R175). -/
theorem exec_outCreate_destroy {a : CmdRes} (h : ready 0x0401 q c s = true) (hop : fld c.packet 2 1 0 = 1) (ho : outAt s (fld c.packet 2 12 8) = some o) (hown : o.owner.val = c.fn.val)
    (ha : (if o.dying || outUsed s (fld c.packet 2 12 8) o then refuse s stBadState
      else .pend (modOut s (fld c.packet 2 12 8) (fun o => { o with dying := true })) (.release 1 (fld c.packet 2 12 8)) 0 0) = a) :
    exec (.outCreate q b) s = .next (settleRes c.serial b [] id a) := by
  refine congrArg Host.Outcome.next (startRow_settled (m := meanOutCreate) h (by simp [meanOutCreate, cmdIn, hop, ho, hown]) (Eq.trans ?_ ha))
  simp [meanOutCreate, runOutCreate, hop, ho]

/-! Staging (R177, R200, R207). -/

theorem denyOut_own (ho : outAt s (outOf c.packet) = some o) (hown : o.owner.val = c.fn.val) : denyOut (cmdIn q c []) s = false := by
  simp [denyOut, cmdIn, ho, hown]

theorem denyOut_absent (ho : outAt s (outOf c.packet) = none) : denyOut (cmdIn q c []) s = false := by simp [denyOut, ho]

theorem stageChange_own {k : LayerChange} (ho : outAt s (outOf c.packet) = some o) :
    stageChange (cmdIn q c []) k s = if fld c.packet 2 13 8 = 63 then refuse s stBadParam
      else okDone (modOut s (outOf c.packet) (fun o => { o with stage := restage k o.stage })) 1 := by
  simp only [stageChange, cmdIn_p, ho]
  rfl

theorem stageChange_absent {k : LayerChange} (ho : outAt s (outOf c.packet) = none) : stageChange (cmdIn q c []) k s = refuse s stBadParam := by
  simp only [stageChange, cmdIn_p, ho]

/-- A row that stages one change of an own output (R177). -/
theorem startRow_stages {f : CmdIn → State → CmdRes} {k : LayerChange} (h : ready code q c s = true) (ho : outAt s (outOf c.packet) = some o) (hown : o.owner.val = c.fn.val)
    (hr : f (cmdIn q c []) s = stageChange (cmdIn q c []) k s) :
    startRow code { deny := denyOut, run := f } q b s = if fld c.packet 2 13 8 = 63 then refuses c b stBadParam 0 0 s
      else completes c b 1 0 0 (modOut s (outOf c.packet) (fun o => { o with stage := restage k o.stage })) := by
  refine (startRow_settled (m := { deny := denyOut, run := f }) h (denyOut_own ho hown) (hr.trans (stageChange_own ho))).trans ?_
  split <;> rfl

/-- FRESHNESS_SET is denied to a VF for layer 63, otherwise where the output is another's. -/
theorem freshnessSet_allowed (hl : fld c.packet 2 13 8 = 63 → c.fn = 0) (ho : fld c.packet 2 13 8 ≠ 63 → denyOut (cmdIn q c []) s = false) :
    meanFreshnessSet.deny (cmdIn q c []) s = false := by
  by_cases h63 : fld c.packet 2 13 8 = 63
  · simp [meanFreshnessSet, cmdIn, h63, hl h63]
  · simpa [meanFreshnessSet, h63] using ho h63

theorem exec_freshnessSet_layer (h : ready 0x0406 q c s = true) (ho : outAt s (outOf c.packet) = some o) (hown : o.owner.val = c.fn.val) (hl : fld c.packet 2 13 8 ≠ 63) :
    exec (.freshnessSet q b) s = .next (completes c b 1 0 0
      (modOut s (outOf c.packet) (fun o => { o with stage := restage (.fresh (fld c.packet 2 13 8) (word c.packet 3)) o.stage }))) := by
  refine congrArg Host.Outcome.next (startRow_done (m := meanFreshnessSet) h (freshnessSet_allowed (fun h63 => absurd h63 hl) fun _ => denyOut_own ho hown) ?_)
  simp only [meanFreshnessSet, runFreshnessSet, cmdIn_p, ho, hl, if_false]
  rfl

theorem exec_freshnessSet_lighthouse (h : ready 0x0406 q c s = true) (ho : outAt s (outOf c.packet) = some o) (hf : c.fn = 0) (hl : fld c.packet 2 13 8 = 63) :
    exec (.freshnessSet q b) s = .next (completes c b 1 0 0 (modOut s (outOf c.packet) (fun o => { o with lhStage := restage (.fresh 63 (word c.packet 3)) o.lhStage }))) := by
  refine congrArg Host.Outcome.next (startRow_done (m := meanFreshnessSet) h (freshnessSet_allowed (fun _ => hf) fun hn => absurd hl hn) ?_)
  simp only [meanFreshnessSet, runFreshnessSet, cmdIn_p, ho, hl]
  rfl

theorem exec_freshnessSet_absent (h : ready 0x0406 q c s = true) (ho : outAt s (outOf c.packet) = none) (hl : fld c.packet 2 13 8 = 63 → c.fn = 0) :
    exec (.freshnessSet q b) s = .next (refuses c b stBadParam 0 0 s) :=
  congrArg Host.Outcome.next (startRow_refused (m := meanFreshnessSet) h (freshnessSet_allowed hl fun _ => denyOut_absent ho) (by simp only [meanFreshnessSet, runFreshnessSet, cmdIn_p, ho]))

/-- A channel that the output feeds cannot code the region losslessly (R201). -/
def regionRefused (c : Cmd) (x : Surface) (s : State) : Bool :=
  s.chans.any (fun e => (e.2.st == .armed || e.2.st == .running) && e.2.cfg.elim false (fun k => k.srcKind == 2 && k.srcIndex == outOf c.packet)
    && !(chanTakesRegion s e.1 e.2 (fld c.packet 4 15 0, fld c.packet 4 31 16, x.width, x.height)))

theorem exec_lighthouseLoad_unload (h : ready 0x0405 q c s = true) (ho : outAt s (outOf c.packet) = some o) (hf : c.fn = 0) (hu : flag c.packet 2 8 = true) :
    exec (.lighthouseLoad q b) s = .next (completes c b 1 0 0 (modOut s (outOf c.packet) (fun o => { o with lhStage := restage .lhUnload o.lhStage }))) := by
  refine congrArg Host.Outcome.next (startRow_done (m := meanLighthouseLoad) h (by simp [meanLighthouseLoad, cmdIn, hf, hu]) ?_)
  simp only [meanLighthouseLoad, runLighthouseLoad, cmdIn_p, ho, hu]
  rfl

theorem exec_lighthouseLoad_region {x : Surface} (h : ready 0x0405 q c s = true) (ho : outAt s (outOf c.packet) = some o) (hf : c.fn = 0) (hu : flag c.packet 2 8 = false)
    (hx : surfAt s (fld c.packet 3 11 0) = some x) (hown : x.owner = 0) :
    exec (.lighthouseLoad q b) s = .next (
      if regionLegal o.cfg x (fld c.packet 4 15 0) (fld c.packet 4 31 16) = false then refuses c b stBadParam 0 0 s
      else if regionRefused c x s = true then refuses c b stBadState 0 0 s
      else completes c b 1 0 0 (modOut s (outOf c.packet) (fun o => { o with lhStage := restage (.lhLoad (fld c.packet 3 11 0) (fld c.packet 4 15 0) (fld c.packet 4 31 16)) o.lhStage }))) := by
  have hrun : runLighthouseLoad (cmdIn q c []) s = if regionLegal o.cfg x (fld c.packet 4 15 0) (fld c.packet 4 31 16) = false then refuse s stBadParam
      else if regionRefused c x s = true then refuse s stBadState
      else okDone (modOut s (outOf c.packet) (fun o => { o with lhStage := restage (.lhLoad (fld c.packet 3 11 0) (fld c.packet 4 15 0) (fld c.packet 4 31 16)) o.lhStage })) 1 := by
    simp only [runLighthouseLoad, cmdIn_p, ho, hu, hx, regionRefused, Bool.not_eq_true', Bool.false_eq_true, if_false]
    rfl
  refine congrArg Host.Outcome.next ((startRow_settled (m := meanLighthouseLoad) h (by simp [meanLighthouseLoad, cmdIn, hf, hx, hown]) hrun).trans ?_)
  split
  · rfl
  · split <;> rfl

/-! COMPOSE_COMMIT (R196 to R199). -/

/-- A change of one entry counts by what it makes of that entry. -/
theorem fmap_modify_congr {α : Type} {f g : α → α} {k : Nat} {x : α} {l : FMap α} (hx : FMap.get? l k = some x) (h : f x = g x) : FMap.modify l k f = FMap.modify l k g := by
  induction l with
  | nil => rfl
  | cons e r ih =>
    obtain ⟨j, w⟩ := e
    simp only [FMap.get?] at hx
    simp only [FMap.modify]
    split at hx
    · next hj => obtain rfl := Option.some.inj hx; rw [if_pos hj, if_pos hj, h]
    · next hj => rw [if_neg hj, if_neg hj, ih hx]

theorem modOut_congr {f g : Output → Output} {n : Nat} (ho : outAt s n = some o) (h : f o = g o) : modOut s n f = modOut s n g := by
  unfold modOut
  rw [fmap_modify_congr ho h]

/-- An output with one more commit behind those that wait, its stages emptied as the commit takes them from x (R196, log 83). -/
def withCommit (c : Cmd) (x o : Output) : Output :=
  { o with commits := o.commits ++ [{ serial := c.serial, fn := Fin.ofNat 32 c.fn.val, number := pictureAsked c, changes := stageOf c.fn.val x }],
           stage := if o.owner.val = c.fn.val then [] else o.stage, lhStage := if c.fn.val = 0 then [] else o.lhStage }

/-- The picture the commit names is not beyond 65,536 after the latest (R50). -/
def commitFar (c : Cmd) (o : Output) : Bool := atPictureOf c.packet && decide (o.next - 1 + 65536 < pictureOf c.packet)

/-- The layer states after the commit close a cycle of outputs (R197). -/
def commitCycles (c : Cmd) (o : Output) (s : State) : Bool :=
  (sourceReach s 32 ((commitStates s c.fn.val o).flatMap outputSources)).contains (outOf c.packet)

theorem commitFar_false (h : atPictureOf c.packet = true → pictureOf c.packet ≤ o.next - 1 + 65536) : commitFar c o = false := by
  unfold commitFar
  cases ha : atPictureOf c.packet with
  | false => rfl
  | true => simpa using h ha

/-- The picture the commit names has started (R50). -/
def commitLate (c : Cmd) (o : Output) : Bool := atPictureOf c.packet && decide (pictureOf c.packet < o.next)

theorem commitLate_false (h : atPictureOf c.packet = true → o.next ≤ pictureOf c.packet) : commitLate c o = false := by
  unfold commitLate
  cases ha : atPictureOf c.packet with
  | false => rfl
  | true => simpa using h ha

/-- An own output, or PF0, may commit, unless a layer takes a source of another function. -/
theorem composeCommit_allowed (ho : outAt s (outOf c.packet) = some o) (hown : o.owner.val = c.fn.val ∨ c.fn = 0) (hd : commitDenied (cmdIn q c []) s = none) :
    meanComposeCommit.deny (cmdIn q c []) s = false := by
  refine Bool.or_eq_false_iff.mpr ⟨?_, by rw [hd]; rfl⟩
  obtain hown | hown := hown <;> simp [ho, cmdIn, hown]

theorem runComposeCommit_badLayer {e : Nat × Layer} (ho : outAt s (outOf c.packet) = some o) (hfar : commitFar c o = false)
    (he : (newLayers s c.fn.val o).find? (fun e => !(layerParamsOk s o.cfg e)) = some e) : runComposeCommit (cmdIn q c []) s = .done s stBadParam 0 e.1 0 := by
  unfold runComposeCommit
  dsimp only [cmdIn]
  rw [ho]
  refine (if_neg (ne_true_of_eq_false hfar)).trans ?_
  rw [he]

section
variable (ho : outAt s (outOf c.packet) = some o) (hfar : commitFar c o = false) (hnew : (newLayers s c.fn.val o).find? (fun e => !(layerParamsOk s o.cfg e)) = none)
include ho hfar hnew

theorem runComposeCommit_cycle (hc : commitCycles c o s = true) : runComposeCommit (cmdIn q c []) s = refuse s stCycle := by
  unfold runComposeCommit
  dsimp only [cmdIn]
  rw [ho]
  refine (if_neg (ne_true_of_eq_false hfar)).trans ?_
  rw [hnew]
  exact if_pos hc

variable (hc : commitCycles c o s = false)
include hc

theorem runComposeCommit_dying (hd : o.dying = true) : runComposeCommit (cmdIn q c []) s = refuse s stBadState := by
  unfold runComposeCommit
  dsimp only [cmdIn]
  rw [ho]
  refine (if_neg (ne_true_of_eq_false hfar)).trans ?_
  rw [hnew]
  exact (if_neg (ne_true_of_eq_false hc)).trans (if_pos hd)

theorem runComposeCommit_started (hd : o.dying = false) (ha : atPictureOf c.packet = true) (hp : pictureOf c.packet < o.next) :
    runComposeCommit (cmdIn q c []) s = .done s stBadState 0 ((o.next - 1) % 2 ^ 32) ((o.next - 1) / 2 ^ 32) := by
  unfold runComposeCommit
  dsimp only [cmdIn]
  rw [ho]
  refine (if_neg (ne_true_of_eq_false hfar)).trans ?_
  rw [hnew]
  exact (if_neg (ne_true_of_eq_false hc)).trans ((if_neg (ne_true_of_eq_false hd)).trans (if_pos (by simp [ha, hp])))

theorem runComposeCommit_waits (hd : o.dying = false) (hp : atPictureOf c.packet = true → o.next ≤ pictureOf c.packet)
    (hsrc : ∀ e ∈ newLayers s c.fn.val o, layerSourceExists s e.2 = true ∧ srcRate o.cfg e.2 ≤ 84 / 10)
    (hscaled : ∀ l ∈ commitStates s c.fn.val o, onCompositor s (outOf c.packet) o.compositor (heldPipes s true) + (l.filter (fun e => isScaled e.2)).length ≤ 16)
    (hplain : ∀ l ∈ commitStates s c.fn.val o, onCompositor s (outOf c.packet) o.compositor (heldPipes s false) + (l.filter (fun e => !(isScaled e.2))).length ≤ 48)
    (hpool : (commitStates s c.fn.val o).findSome? (poolOverrun s (onCompositor s (outOf c.packet) o.compositor (heldNeed s))) = none)
    (hfit : regionFits (modOut s (outOf c.packet) (withCommit c o)) (poolWith s none none) 1 = true)
    (hmem : memoryCheckBut s (some (outOf c.packet)) (poolWith s none none) (maxRat (layersHbm s o.cfg) (commitStates s c.fn.val o)) (maxRat (layersQdr s o.cfg) (commitStates s c.fn.val o)) = none) :
    runComposeCommit (cmdIn q c []) s = .pend (modOut s (outOf c.packet) (withCommit c o)) (.outPicture (outOf c.packet) (pictureAsked c)) 0 0 := by
  have hexists : (newLayers s c.fn.val o).find? (fun e => !layerSourceExists s e.2) = none :=
    List.find?_eq_none.mpr fun e he => by simp [(hsrc e he).1]
  have hrate : (newLayers s c.fn.val o).find? (fun e => decide (84 / 10 < srcRate o.cfg e.2)) = none :=
    List.find?_eq_none.mpr fun e he => by simpa using (hsrc e he).2
  have hpipes : (commitStates s c.fn.val o).any (fun l => decide (16 < onCompositor s (outOf c.packet) o.compositor (heldPipes s true) + (l.filter (fun e => isScaled e.2)).length)
      || decide (48 < onCompositor s (outOf c.packet) o.compositor (heldPipes s false) + (l.filter (fun e => !isScaled e.2)).length)) = false :=
    List.any_eq_false.mpr fun l hl => by simpa using ⟨hscaled l hl, hplain l hl⟩
  have hroom : ((commitStates s c.fn.val o).any (fun l => decide (16 < onCompositor s (outOf c.packet) o.compositor (heldPipes s true) + (l.filter (fun e => isScaled e.2)).length)
      || decide (48 < onCompositor s (outOf c.packet) o.compositor (heldPipes s false) + (l.filter (fun e => !isScaled e.2)).length))
      || !regionFits (modOut s (outOf c.packet) (withCommit c o)) (poolWith s none none) 1) = false := by
    rw [hpipes, hfit]
    rfl
  unfold runComposeCommit
  dsimp only [cmdIn]
  rw [ho]
  refine (if_neg (ne_true_of_eq_false hfar)).trans ?_
  rw [hnew]
  refine (if_neg (ne_true_of_eq_false hc)).trans ((if_neg (ne_true_of_eq_false hd)).trans ((if_neg (ne_true_of_eq_false (commitLate_false hp))).trans ?_))
  rw [hexists]
  refine (if_neg (ne_true_of_eq_false hroom)).trans ?_
  rw [hpool]
  dsimp only
  rw [hrate]
  dsimp only
  rw [hmem]
  rfl

end

end

/-- Settles O25: each command by its meaning; a commit's checks in the order of R196. -/
theorem compositionIsStagedAndCommitted : Obligations.CompositionIsStagedAndCommitted := by
  unfold Obligations.CompositionIsStagedAndCommitted
  refine ⟨fun q b s c h hop hs => ⟨fun k hz hk hok => ?create, fun hbad => ?outOfRange⟩, fun q b s c h hop => exec_outCreate_otherOp h hop,
    fun q b s c o h hop ho hown => ⟨fun hd hu => ?destroy, fun hu => ?used⟩,
    fun q b s c o ho hown => ⟨fun h => congrArg _ (startRow_stages h ho hown rfl), fun h => congrArg _ (startRow_stages h ho hown rfl), fun h hl => exec_freshnessSet_layer h ho hown hl⟩,
    fun q b s c o h ho hf hl => exec_freshnessSet_lighthouse h ho hf hl, fun q b s c ho => ?absent,
    fun q b s c o h ho hf => ⟨exec_lighthouseLoad_unload h ho hf, fun x hu hx hown => exec_lighthouseLoad_region h ho hf hu hx hown⟩, ?commit⟩
  case create =>
    obtain ⟨hnone, hplace, hfits⟩ := runOutCreate_inRange (q := q) hop hz hk hok
    have hd := outCreate_allowed (q := q) hop hs
    exact ⟨fun n e hn hp hfit hmem hshed => congrArg Host.Outcome.next (startRow_done (m := meanOutCreate) h hd (hfits n e hn hp hfit hmem hshed)),
      fun hn => congrArg Host.Outcome.next (startRow_refused (m := meanOutCreate) h hd (hnone hn)),
      fun n hn hp => congrArg Host.Outcome.next (startRow_done (m := meanOutCreate) h hd (hplace n hn hp))⟩
  case outOfRange => exact congrArg Host.Outcome.next (startRow_refused (m := meanOutCreate) h (outCreate_allowed hop hs) (runOutCreate_outOfRange hop hbad))
  case destroy => exact exec_outCreate_destroy (a := .pend _ _ 0 0) h hop ho hown (if_neg (by rw [hd, hu]; exact Bool.false_ne_true))
  case used => exact exec_outCreate_destroy (a := refuse s stBadState) h hop ho hown (if_pos (by simpa using hu))
  case absent =>
    refine ⟨fun h => ?_, fun h => ?_, fun h => ?_, fun h hl => exec_freshnessSet_absent h ho hl⟩
    · exact congrArg Host.Outcome.next (startRow_refused (m := meanLayerSet) h (denyOut_absent ho) (stageChange_absent ho))
    · exact congrArg Host.Outcome.next (startRow_refused (m := meanLayerClear) h (denyOut_absent ho) (stageChange_absent ho))
    · exact congrArg Host.Outcome.next (startRow_refused (m := meanComposeCommit) h (by simp [meanComposeCommit, commitDenied, ho]) (by simp only [meanComposeCommit, runComposeCommit, cmdIn_p, ho]))
  case commit =>
    rintro q b s c o new states h ho hown hden rfl rfl hnear
    have hfar := commitFar_false hnear
    have hd := composeCommit_allowed ho hown hden
    refine ⟨fun e he => congrArg Host.Outcome.next (startRow_done (m := meanComposeCommit) h hd (runComposeCommit_badLayer ho hfar he)), fun hall => ?_⟩
    have hnew : (newLayers s c.fn.val o).find? (fun e => !(layerParamsOk s o.cfg e)) = none :=
      List.find?_eq_none.mpr fun e he => by simp [List.all_eq_true.mp hall e he]
    refine ⟨fun hc => congrArg Host.Outcome.next (startRow_refused (m := meanComposeCommit) h hd (runComposeCommit_cycle ho hfar hnew hc)), fun hc => ⟨fun hdy => ?_, fun hdy ha hp => ?_, ?_⟩⟩
    · exact congrArg Host.Outcome.next (startRow_refused (m := meanComposeCommit) h hd (runComposeCommit_dying ho hfar hnew hc hdy))
    · exact congrArg Host.Outcome.next (startRow_done (m := meanComposeCommit) h hd (runComposeCommit_started ho hfar hnew hc hdy ha hp))
    · rintro t hdy hp hsrc hscaled hplain hpool rfl hfit hmem
      have hstate : modOut s (outOf c.packet) (fun o => withCommit c o o) = modOut s (outOf c.packet) (withCommit c o) := modOut_congr ho rfl
      have hsrc' : ∀ e ∈ newLayers s c.fn.val o, layerSourceExists s e.2 = true ∧ srcRate o.cfg e.2 ≤ 84 / 10 := by simpa using hsrc
      have hrun := runComposeCommit_waits (q := q) ho hfar hnew hc hdy hp hsrc' hscaled hplain hpool (hstate ▸ hfit) hmem
      rw [← hstate] at hrun
      exact congrArg Host.Outcome.next (startRow_pend (m := meanComposeCommit) h hd hrun)

end Sys2Proof.CommandProtocol

/-! PROOFS. Surfaces: allocation, release, updates at their flip time, and the writes of SURFWIN (R72, R182 to R184, R393, R500). -/

namespace Sys2Proof.CommandProtocol

open Sys2Proof.Machine Sys2Proof.Laws Sys2Proof.HostAccess Sys2Proof.Architecture

section
variable {q : FlowRef} {b : Bus} {s t : State} {c : Cmd} {x : Surface} {code : Nat} {m : Meaning} {n : Nat} {u : PendingUpdate}

/-- What `readyBlock` says of the block. -/
theorem readyBlock_cases {bs : List Byte} (h : readyBlock code q c b bs s = true) :
    atFront code q c s = true ∧ indirectOf c.packet = true ∧ (∀ i, opInfo code = some i → (i.block != .answer) = true) ∧
      (c.ferry.isSome = true → unstaged s (word c.packet 2) (word c.packet 4) = none ∧ bs = stagedBytes s (word c.packet 2) (word c.packet 4)) ∧
      (c.ferry.isSome = false → clockLost s .pcie = false ∧ ∃ xs, b.block = .bytes xs ∧ bs = Machine.slice xs 0 (word c.packet 4)) := by
  unfold readyBlock at h
  simp only [Bool.and_eq_true] at h
  obtain ⟨⟨⟨hc, hin⟩, hb⟩, hread⟩ := h
  refine ⟨hc, hin, fun i hi => by simpa only [hi] using hb, fun hf => ?_, fun hf => ?_⟩
  · simpa [hf] using hread
  · cases hbb : b.block with
    | error => simp [hf, hbb] at hread
    | bytes xs => simpa [hf, hbb] using hread

/-- A command that has read its block starts with it (R49). -/
theorem startRow_readsBlock {bs : List Byte} (h : readyBlock code q c b bs s = true) :
    ∃ i, opInfo code = some i ∧ startRow code m q b s = startWith i m (cmdIn q c bs) b (blockTaken c s) := by
  obtain ⟨hc, hin, hb, hferry, hhost⟩ := readyBlock_cases h
  obtain ⟨i, r, hi, hq, -, hst, hfw, hop, hbusy, hl, hfd, -, -, ha, hp⟩ := atFront_cases hc
  refine ⟨i, hi, ?_⟩
  have hreads : readsBlock i c (flowKey q) s = true := by simp [readsBlock, hin, hb i hi, hl, ha, hfd, hp]
  unfold startRow
  simp only [hq, hi, hfw, hst, hop, hbusy, hreads]
  cases hf : c.ferry.isSome with
  | true =>
    obtain ⟨hstaged, rfl⟩ := hferry hf
    simp [hstaged, blockTaken, cmdIn, hf]
  | false =>
    obtain ⟨hclock, xs, hxs, rfl⟩ := hhost hf
    simp [hclock, hxs, blockTaken, cmdIn, hf]

/-- A staging range consumed leaves the loader and the pair as they are. -/
theorem loaderRefuses_blockTaken : loaderRefuses (blockTaken c s) c = loaderRefuses s c := by
  unfold blockTaken loaderRefuses
  split <;> rfl
theorem pairOn_blockTaken : pairOn (blockTaken c s) = pairOn s := by
  unfold blockTaken
  split <;> rfl
theorem local_blockTaken : (blockTaken c s).time = s.time := by
  unfold blockTaken
  split <;> rfl

/-- A command with a block, mirrored by no pair, is settled by what its meaning comes to on the block (R49, R64, R388). -/
theorem startRow_settledBlock {bs : List Byte} {a : CmdRes} (h : readyBlock code q c b bs s = true) (hd : m.deny (cmdIn q c bs) (blockTaken c s) = false)
    (hr : m.run (cmdIn q c bs) (blockTaken c s) = a) : startRow code m q b s = settleRes c.serial b bs (m.after (cmdIn q c bs)) a := by
  obtain ⟨i, hi, hstart⟩ := startRow_readsBlock (m := m) h
  obtain ⟨j, r, hj, -, -, -, -, -, -, hl, hfd, hcy, hm, ha, hp⟩ := atFront_cases (readyBlock_cases h).1
  obtain rfl : i = j := Option.some.inj (hi.symm.trans hj)
  have hrun : evalCmd i m (cmdIn q c bs) (blockTaken c s) = a := by
    unfold evalCmd
    simp only [cmdIn] at hd hr ⊢
    simp [loaderRefuses_blockTaken, hl, ha, hfd, hp, hcy, hd, hr]
  rw [hstart]
  unfold startWith
  rw [opInfo_code hi, pairOn_blockTaken, if_neg (ne_true_of_eq_false hm), hrun]
  rfl

/-! SURFACE_ALLOC and SURFACE_FREE (R182). -/

/-- The operands of SURFACE_ALLOC are in range (R182). -/
structure AllocInRange (p : Packet) : Prop where
  format : formatOk (fld p 2 3 0) = true
  buffers : 2 ≤ fld p 2 9 8
  wide : fld p 3 15 0 % 16 = 0 ∧ 16 ≤ fld p 3 15 0 ∧ fld p 3 15 0 ≤ 8192
  high : fld p 3 31 16 % 8 = 0 ∧ 8 ≤ fld p 3 31 16 ∧ fld p 3 31 16 ≤ 4320

/-- The surface that SURFACE_ALLOC asks for, at the lowest gap of its function's window. -/
def allocBytes (c : Cmd) : Nat := fld c.packet 2 9 8 * bufferSize (fld c.packet 2 3 0) (fld c.packet 3 15 0) (fld c.packet 3 31 16)
def allocOffset (c : Cmd) (s : State) : Nat := findGap (allocBytes c) 0 (surfRanges s c.fn.val)
def allocSurface (c : Cmd) (s : State) : Surface :=
  { owner := Fin.ofNat 32 c.fn.val, format := fld c.packet 2 3 0, colour := fld c.packet 2 5 4, buffers := fld c.packet 2 9 8, width := fld c.packet 3 15 0,
    height := fld c.packet 3 31 16, offset := allocOffset c s }

/-- The operands as SURFACE_ALLOC checks them. -/
theorem allocInRange_iff {p : Packet} : AllocInRange p ↔ ¬ ((!formatOk (fld p 2 3 0)) = true ∨ fld p 2 9 8 < 2 ∨ fld p 3 15 0 % 16 ≠ 0 ∨ fld p 3 15 0 < 16 ∨ 8192 < fld p 3 15 0
    ∨ fld p 3 31 16 % 8 ≠ 0 ∨ fld p 3 31 16 < 8 ∨ 4320 < fld p 3 31 16) := by
  simp only [not_or, Bool.not_eq_true', Bool.not_eq_false]
  refine ⟨fun ⟨hf, hb, hw, hh⟩ => ⟨hf, by omega, by omega, by omega, by omega, by omega, by omega, by omega⟩, fun ⟨hf, hb, hw, hw1, hw2, hh, hh1, hh2⟩ => ⟨hf, by omega, by omega, by omega⟩⟩

theorem runSurfaceAlloc_outOfRange (h : ¬ AllocInRange c.packet) : meanSurfaceAlloc.run (cmdIn q c []) s = refuse s stBadParam := by
  rw [allocInRange_iff, not_not] at h
  simp only [meanSurfaceAlloc, runSurfaceAlloc, cmdIn_p, h, if_true]

theorem runSurfaceAlloc_full (h : AllocInRange c.packet) (hn : s.surfs.lowestFree 4096 = none) : meanSurfaceAlloc.run (cmdIn q c []) s = refuse s stNoResource := by
  rw [allocInRange_iff] at h
  simp only [meanSurfaceAlloc, runSurfaceAlloc, cmdIn_p, h, if_false, hn]

theorem runSurfaceAlloc_fits {k : Nat} (h : AllocInRange c.packet) (hk : s.surfs.lowestFree 4096 = some k) (hw : allocOffset c s + allocBytes c ≤ surfwinBytes)
    (hr : regionFits (setSurf s k (allocSurface c s)) [] 12 = true) :
    meanSurfaceAlloc.run (cmdIn q c []) s = .done (setSurf s k (allocSurface c s)) stOk (allocBytes c) k (allocOffset c s / 65536) := by
  rw [allocInRange_iff] at h
  have hroom : ¬ (surfwinBytes < allocOffset c s + allocBytes c ∨ (!regionFits (setSurf s k (allocSurface c s)) [] 12) = true) := by simp [hr, hw]
  simp only [allocSurface, allocOffset, allocBytes] at hroom ⊢
  simp only [meanSurfaceAlloc, runSurfaceAlloc, cmdIn, h, if_false, hk, hroom]

/-- What SURFACE_FREE first does with an update that waits (R182): one whose flip has come completes, the others are cancelled. -/
def endUpdate (x : Surface) (s : State) (u : PendingUpdate) : State :=
  if u.flipped || decide (u.pub.flip ≤ s.time.local') then finishCmd u.serial u.bytes (firstUseWords (pubNow x u.pub)).1 (firstUseWords (pubNow x u.pub)).2 s
  else endCmd u.serial stCancelled 0 0 s

/-- The updates of a surface ended. -/
def updatesEnded (x : Surface) (s : State) : State := x.pending.foldl (endUpdate x) s

theorem updatesEnded_ends (x : Surface) (s : State) : Ends s (updatesEnded x s) :=
  foldl_ends (fun s u => by unfold endUpdate; split <;> [exact finishCmd_ends ..; exact endCmd_ends ..]) _ s

/-- SURFACE_FREE of an own surface is settled by whether the surface is used. -/
theorem exec_surfaceFree_own {a : CmdRes} (h : ready 0x0408 q c s = true) (hx : surfAt s (fld c.packet 2 11 0) = some x) (ho : x.owner.val = c.fn.val)
    (ha : (if surfaceUsed s (fld c.packet 2 11 0) then refuse s stBadState
      else okDone { updatesEnded x s with surfs := (updatesEnded x s).surfs.erase (fld c.packet 2 11 0) } (surfaceBytes x)) = a) :
    exec (.surfaceFree q b) s = .next (settleRes c.serial b [] id a) := by
  refine congrArg Host.Outcome.next (startRow_settled (m := meanSurfaceFree) h (by simp [meanSurfaceFree, cmdIn, hx, ho]) (Eq.trans ?_ ha))
  simp only [meanSurfaceFree, runSurfaceFree, cmdIn_p, hx]
  rfl

/-! SURFACE_UPDATE (R183). -/

theorem fmap_modify_modify {α : Type} {f g : α → α} {k : Nat} {l : FMap α} : FMap.modify (FMap.modify l k f) k g = FMap.modify l k (g ∘ f) := by
  induction l with
  | nil => rfl
  | cons e r ih =>
    obtain ⟨j, w⟩ := e
    by_cases hj : j = k
    · simp [FMap.modify, hj]
    · simp [FMap.modify, hj, ih]

theorem modSurf_modSurf (f g : Surface → Surface) : modSurf (modSurf s n f) n g = modSurf s n (g ∘ f) := by simp only [modSurf, fmap_modify_modify]

theorem modSurf_congr {f g : Surface → Surface} (hx : surfAt s n = some x) (h : f x = g x) : modSurf s n f = modSurf s n g := by
  unfold modSurf
  rw [fmap_modify_congr hx h]

/-- The buffer that SURFACE_UPDATE writes is published, or waits to be. -/
def bufferTaken (x : Surface) (k : Nat) : Bool := x.pubs.any (fun p => p.buffer == k) || x.pending.any (fun u => u.pub.buffer == k)

/-- A surface with the block written to the buffer the command names, and the update waiting for its flip (R183). -/
def updateWaiting (c : Cmd) (bs : List Byte) (now : Instant) (x : Surface) : Surface :=
  { writeBuffer x (fld c.packet 5 17 16) 0 bs with
    pending := (writeBuffer x (fld c.packet 5 17 16) 0 bs).pending ++ [{ serial := c.serial, pub := { buffer := fld c.packet 5 17 16, flip := flipTimeOf c.packet now, contentNs := timeNsOf c.packet 6 }, bytes := bs.length }] }

/-- SURFACE_UPDATE of an own surface is settled by its buffer and its block. -/
theorem exec_surfaceUpdate_own {bs : List Byte} {a : CmdRes} (h : readyBlock 0x0409 q c b bs s = true) (hx : surfAt (blockTaken c s) (fld c.packet 5 11 0) = some x) (ho : x.owner.val = c.fn.val)
    (ha : (if x.buffers ≤ fld c.packet 5 17 16 ∨ bufferBytes x.format x.width x.height < bs.length then refuse (blockTaken c s) stBadParam
      else if bufferTaken x (fld c.packet 5 17 16) then refuse (blockTaken c s) stBadState
      else .pend (modSurf (blockTaken c s) (fld c.packet 5 11 0) (updateWaiting c bs (blockTaken c s).time.local')) (.flip (flipTimeOf c.packet (blockTaken c s).time.local')) 0 0) = a) :
    exec (.surfaceUpdate q b) s = .next (settleRes c.serial b bs (settleSurface (fld c.packet 5 11 0)) a) := by
  refine congrArg Host.Outcome.next (startRow_settledBlock (m := meanSurfaceUpdate) h (by simp [meanSurfaceUpdate, cmdIn, hx, ho]) (Eq.trans ?_ ha))
  simp only [meanSurfaceUpdate, runSurfaceUpdate, cmdIn_p, hx]
  rfl

/-! The flip of the lone update of a surface (R183). -/

/-- An update whose flip time has come is published in front, as those published flip no later. -/
theorem insertPub_latest {p : Publication} {l : List Publication} (h : ∀ q ∈ l, q.flip ≤ p.flip) : insertPub p l = p :: l := by
  cases l with
  | nil => rfl
  | cons q r => exact if_pos (h q (.head r))

theorem flipDue_early (hx : surfAt s n = some x) (hp : x.pending = [u]) (hd : s.time.local' < u.pub.flip) : flipDue n s = modSurf s n id :=
  modSurf_congr hx (by simp [hp, Nat.not_le.mpr hd])

/-- The surface once its lone update has flipped. -/
def flipped (u : PendingUpdate) (x : Surface) : Surface := { x with pubs := u.pub :: x.pubs, pending := [{ u with flipped := true }] }

theorem flipDue_due (hx : surfAt s n = some x) (hp : x.pending = [u]) (hf : u.flipped = false) (hd : u.pub.flip ≤ s.time.local') (hl : ∀ p ∈ x.pubs, p.flip ≤ u.pub.flip) :
    flipDue n s = modSurf s n (flipped u) :=
  modSurf_congr hx (by simp [hp, hf, hd, flipped, insertPub_latest hl])

/-- The surface once update u has completed: what u replaced is published no more (R183). -/
def updateDone (u : PendingUpdate) (y : Surface) : Surface :=
  { y with pubs := y.pubs.filter (fun q => !((olderPubs y u).contains q)), pending := y.pending.filter (fun v => v.serial != u.serial) }

/-- A surface with a lone update is settled by whether that has flipped and what it replaced is read. -/
theorem settleSurface_lone {y : Surface} (hy : surfAt (flipDue n s) n = some y) (hp : y.pending = [u]) :
    settleSurface n s = if u.flipped && (olderPubs y u).all (fun q => !bufferRead (flipDue n s) n q.buffer) then
      finishCmd u.serial u.bytes (firstUseWords (pubNow y u.pub)).1 (firstUseWords (pubNow y u.pub)).2
        (modSurf (flipDue n s) n (updateDone u))
      else flipDue n s := by
  simp only [settleSurface, hy, hp, List.foldl_cons, List.foldl_nil]
  rfl

theorem settleSurface_early (hx : surfAt s n = some x) (hp : x.pending = [u]) (hf : u.flipped = false) (hd : s.time.local' < u.pub.flip) : surfAt (settleSurface n s) n = some x := by
  have hy : surfAt (flipDue n s) n = some x := by rw [flipDue_early hx hp hd, surfAt_modSurf, hx]; rfl
  rw [settleSurface_lone hy hp, hf]
  exact hy

section
variable (hx : surfAt s n = some x) (hp : x.pending = [u]) (hf : u.flipped = false) (hd : u.pub.flip ≤ s.time.local') (hl : ∀ p ∈ x.pubs, p.flip ≤ u.pub.flip ∧ p.buffer ≠ u.pub.buffer)
include hx hp hf hd hl

/-- At its flip the update completes once nothing reads the earlier publications, and otherwise waits on. -/
theorem settleSurface_due :
    settleSurface n s = if x.pubs.all (fun p => !(bufferRead s n p.buffer)) then
      finishCmd u.serial u.bytes (firstUseWords u.pub).1 (firstUseWords u.pub).2 (modSurf s n (fun x => { x with pubs := [u.pub], pending := [] }))
      else modSurf s n (flipped u) := by
  have hdue := flipDue_due hx hp hf hd fun p h => (hl p h).1
  have hy : surfAt (flipDue n s) n = some (flipped u x) := by rw [hdue, surfAt_modSurf, hx]; rfl
  have hold : olderPubs (flipped u x) { u with flipped := true } = x.pubs := by simp [olderPubs, flipped]
  have hnow : pubNow (flipped u x) u.pub = u.pub := by simp [pubNow, flipped]
  have hnew : u.pub ∉ x.pubs := fun h => (hl _ h).2 rfl
  have hdone : modSurf (modSurf s n (flipped u)) n (updateDone { u with flipped := true }) = modSurf s n (fun x => { x with pubs := [u.pub], pending := [] }) := by
    rw [modSurf_modSurf]
    refine modSurf_congr hx ?_
    rw [Function.comp, updateDone, hold]
    simp [flipped, hnew]
  rw [settleSurface_lone hy rfl, hold, hnow, hdue, hdone]
  rfl

end

theorem flipTime_front {r : List Cmd} {f : Instant} (hq : flowCmds s (flowKey q) = c :: r) (hw : c.wait = .flip f) : flipTime q s = settleSurface (fld c.packet 5 11 0) s := by
  simp only [flipTime, hq, hw]

/-! SURFWIN (R184, R500). -/

section
variable {f offset : Nat} {bytes : List Byte}

theorem ceilDiv_one {a d : Nat} (h0 : 0 < a) (h : a ≤ d) : ceilDiv a d = 1 := by
  unfold ceilDiv
  exact Nat.div_eq_of_lt_le (by omega) (by omega)

/-- Two parts of a write, one behind the other: it is dropped, and counted once, where either is (R500). -/
def twoRuns (f : Nat) (r1 : State × Bool) (r2 : State × Bool) : State := if r1.2 && r2.2 then r2.1 else surfDrop f r2.1

/-- A write inside one 64 KiB unit is one run. -/
theorem surfwinWrite_oneUnit (hb : bytes ≠ []) (hu : offset % 65536 + bytes.length ≤ 65536) :
    surfwinWrite f offset bytes s = if (surfwinRun f offset bytes s).2 then (surfwinRun f offset bytes s).1 else surfDrop f (surfwinRun f offset bytes s).1 := by
  have htake : bytes.take (65536 - offset % 65536) = bytes := List.take_of_length_le (by omega)
  have hrest : bytes.length - (65536 - offset % 65536) = 0 := by omega
  simp [surfwinWrite, htake, hrest, ceilDiv, hb]

/-- A write over the border of two units is two runs, the second in the state after the first. -/
theorem surfwinWrite_twoUnits {r1 r2 : State × Bool} (h1 : 65536 < offset % 65536 + bytes.length) (h2 : offset % 65536 + bytes.length ≤ 131072)
    (hr1 : r1 = surfwinRun f offset (bytes.take (65536 - offset % 65536)) s)
    (hr2 : r2 = surfwinRun f (offset + (65536 - offset % 65536)) (bytes.drop (65536 - offset % 65536)) r1.1) :
    surfwinWrite f offset bytes s = twoRuns f r1 r2 := by
  have hmod : offset % 65536 < 65536 := Nat.mod_lt _ (by decide)
  have hone : ceilDiv (bytes.length - (65536 - offset % 65536)) 65536 = 1 := ceilDiv_one (by omega) (by omega)
  have htake : (bytes.drop (65536 - offset % 65536)).take 65536 = bytes.drop (65536 - offset % 65536) := List.take_of_length_le (by rw [List.length_drop]; omega)
  have hne1 : bytes.take (65536 - offset % 65536) ≠ [] := List.ne_nil_of_length_pos (by rw [List.length_take]; omega)
  have hne2 : bytes.drop (65536 - offset % 65536) ≠ [] := List.ne_nil_of_length_pos (by rw [List.length_drop]; omega)
  unfold surfwinWrite twoRuns
  dsimp only
  rw [hone]
  simp only [List.range_one, List.map_cons, List.map_nil, Nat.mul_zero, Nat.add_zero, htake]
  rw [List.filter_cons_of_pos (by simpa using hne1), List.filter_cons_of_pos (by simpa using hne2)]
  simp only [List.filter_nil, List.foldl_cons, List.foldl_nil, Bool.true_and, hr2, hr1]

theorem surfwinWrite_nil : surfwinWrite f offset [] s = s := by simp [surfwinWrite, ceilDiv]

/-- The surface of f that an offset of its window lies in (R500). -/
def surfaceOver (f offset : Nat) (s : State) : Option (Nat × Surface) :=
  s.surfs.find? (fun e => e.2.owner.val == f && decide (e.2.offset ≤ offset) && decide (offset < e.2.offset + surfaceBytes e.2))

/-- The buffer of a surface that an offset lies in, and the offset in that buffer. -/
def winBuffer (x : Surface) (offset : Nat) : Nat := (offset - x.offset) / bufferSize x.format x.width x.height
def winOffset (x : Surface) (offset : Nat) : Nat := (offset - x.offset) % bufferSize x.format x.width x.height

theorem surfwinRun_outside (h : surfaceOver f offset s = none) : surfwinRun f offset bytes s = (s, false) := by
  unfold surfwinRun
  rw [show s.surfs.find? _ = none from h]

/-- A buffer that is not free, and any buffer of a standby, takes no write (R184, R393). -/
theorem surfwinRun_dropped (h : surfaceOver f offset s = some (n, x)) (hd : (isStandby s || bufferTaken x (winBuffer x offset)) = true) : surfwinRun f offset bytes s = (s, false) := by
  unfold surfwinRun
  rw [show s.surfs.find? _ = some (n, x) from h]
  exact if_pos (by rw [← hd, bufferTaken, ← Bool.or_assoc]; rfl)

/-- A free buffer is written; a holder of a pair forwards the bytes (R393). -/
theorem surfwinRun_written (h : surfaceOver f offset s = some (n, x)) (hd : (isStandby s || bufferTaken x (winBuffer x offset)) = false) :
    surfwinRun f offset bytes s = (if isHolder s && s.pair.st != .unpaired
      then bulkSurface n (winBuffer x offset) (winOffset x offset) bytes (modSurf s n (fun x' => writeBuffer x' (winBuffer x offset) (winOffset x offset) bytes))
      else modSurf s n (fun x' => writeBuffer x' (winBuffer x offset) (winOffset x offset) bytes), true) := by
  unfold surfwinRun
  rw [show s.surfs.find? _ = some (n, x) from h]
  exact if_neg (ne_true_of_eq_false (by rw [← hd, bufferTaken, ← Bool.or_assoc]; rfl))

end

theorem exec_surfwinWrite_up {f : Fn} {offset : Nat} {bytes : List Byte} (h : hostUp s = true) : exec (.surfwinWrite f offset bytes) s = .next (surfwinWrite f.val offset bytes s) :=
  congrArg Host.Outcome.next (if_pos h)

end

/-- Settles O26: each command by its meaning, the flip by the lone update of its surface, a SURFWIN write by its runs. -/
theorem surfacesHoldAndPublish : Obligations.SurfacesHoldAndPublish := by
  unfold Obligations.SurfacesHoldAndPublish
  refine ⟨fun q b s c h => ⟨?alloc, fun hbad => ?outOfRange, fun hf hb hw hw1 hw2 hh hh1 hh2 hn => ?full⟩,
    fun q b s c x h hx ho => ⟨fun hu => ?used, fun hu hp => ?free, fun hu => ?freeUpdates⟩,
    fun q b s c bs x h hx ho => ⟨fun hbad => ?noBuffer, fun hk hl => ⟨fun ht => ?taken, fun hp hq => ?update⟩⟩,
    fun dt q s c r f hact hq hw => ?flipTime, fun n s x u hx hp hf => ⟨settleSurface_early hx hp hf, fun hd hl => ⟨fun ha => ?completes, fun ha => ?waits⟩⟩,
    fun f offset bytes s n x hup hb hu hover => ?inside, fun f offset bytes s hup hb hu hover => ?outside, fun f offset bytes s r1 r2 hup h1 h2 hr1 hr2 => ?twoUnits, fun f offset bytes s h => ?nothing⟩
  case alloc =>
    rintro k bytes off t hf hb hw hw1 hw2 hh hh1 hh2 hk rfl rfl hoff rfl hr
    exact congrArg Host.Outcome.next (startRow_done (m := meanSurfaceAlloc) h rfl (runSurfaceAlloc_fits ⟨hf, hb, ⟨hw, hw1, hw2⟩, ⟨hh, hh1, hh2⟩⟩ hk hoff hr))
  case outOfRange =>
    refine congrArg Host.Outcome.next (startRow_refused (m := meanSurfaceAlloc) h rfl (runSurfaceAlloc_outOfRange fun hin => ?_))
    obtain ⟨hf, hb, hw, hh⟩ := hin
    rw [hf] at hbad
    simp only [Bool.true_eq_false, false_or] at hbad
    omega
  case full => exact congrArg Host.Outcome.next (startRow_refused (m := meanSurfaceAlloc) h rfl (runSurfaceAlloc_full ⟨hf, hb, ⟨hw, hw1, hw2⟩, ⟨hh, hh1, hh2⟩⟩ hn))
  case used => exact exec_surfaceFree_own (a := refuse s stBadState) h hx ho (if_pos hu)
  case free =>
    refine exec_surfaceFree_own (a := okDone { s with surfs := s.surfs.erase (fld c.packet 2 11 0) } (surfaceBytes x)) h hx ho ((if_neg (ne_true_of_eq_false hu)).trans ?_)
    unfold updatesEnded
    rw [hp]
    rfl
  case freeUpdates =>
    have hends := updatesEnded_ends x s
    exact ⟨_, exec_surfaceFree_own (a := okDone _ _) h hx ho (if_neg (ne_true_of_eq_false hu)), by rw [← hends.surfs], hends.outs, hends.chans⟩
  case noBuffer => exact exec_surfaceUpdate_own (a := refuse _ stBadParam) h hx ho (if_pos hbad)
  case taken =>
    have htaken : bufferTaken x (fld c.packet 5 17 16) = true := by rw [bufferTaken, Bool.or_eq_true]; exact ht
    exact exec_surfaceUpdate_own (a := refuse _ stBadState) h hx ho ((if_neg (by omega)).trans (if_pos htaken))
  case update =>
    have hfree : bufferTaken x (fld c.packet 5 17 16) = false := by rw [bufferTaken, hp, hq]; rfl
    rw [← local_blockTaken (c := c) (s := s)]
    exact exec_surfaceUpdate_own (a := .pend _ _ 0 0) h hx ho ((if_neg (by omega)).trans (if_neg (ne_true_of_eq_false hfree)))
  case flipTime => exact congrArg Host.Outcome.next ((actAfter_acting dt _ hact).trans (flipTime_front hq hw))
  case completes => rw [settleSurface_due hx hp hf hd hl, if_pos ha]
  case waits =>
    have hread : ¬ x.pubs.all (fun p => !(bufferRead s n p.buffer)) = true := by simpa using ha
    rw [settleSurface_due hx hp hf hd hl, if_neg hread]
    rfl
  case inside =>
    refine ⟨fun hs hp hq => ?_, fun hd => ?_⟩
    · have hfree : (isStandby s || bufferTaken x (winBuffer x offset)) = false := by rw [hs, bufferTaken, winBuffer, hp, hq]; rfl
      rw [exec_surfwinWrite_up hup, surfwinWrite_oneUnit hb hu, surfwinRun_written hover hfree]
      rfl
    · have htaken : (isStandby s || bufferTaken x (winBuffer x offset)) = true := by rw [bufferTaken, Bool.or_eq_true, Bool.or_eq_true]; exact hd
      rw [exec_surfwinWrite_up hup, surfwinWrite_oneUnit hb hu, surfwinRun_dropped hover htaken]
      rfl
  case outside =>
    rw [exec_surfwinWrite_up hup, surfwinWrite_oneUnit hb hu, surfwinRun_outside hover]
    rfl
  case twoUnits =>
    rw [exec_surfwinWrite_up hup, surfwinWrite_twoUnits h1 h2 hr1 hr2]
    rfl
  case nothing =>
    obtain h | rfl := h
    · exact congrArg Host.Outcome.next (if_neg (ne_true_of_eq_false h))
    · refine congrArg Host.Outcome.next ?_
      rw [surfwinWrite_nil]
      exact ite_self _

end Sys2Proof.CommandProtocol

/-! PROOFS. Decoders: opened, closed, decoding and presenting (R72, R212 to R222). -/

namespace Sys2Proof.CommandProtocol

open Sys2Proof.Machine Sys2Proof.Laws Sys2Proof.HostAccess Sys2Proof.Architecture

/-! What commands, events and messages to the partner leave as it is. -/

/-- Channels, outputs, surfaces and decoders. -/
def objects (s : State) : FMap Chan × FMap Output × FMap Surface × FMap Decoder := (s.chans, s.outs, s.surfs, s.decs)

theorem objects_of_ends {s t : State} (h : Ends s t) : objects t = objects s := (congrArg objects h.rest :)
theorem objects_of_besideGroups {s t : State} (h : besideGroups t = besideGroups s) : objects t = objects s := (congrArg objects h :)

theorem objects_setPairState (st : PairState) (s : State) : objects (setPairState st s) = objects s := by
  unfold setPairState
  split
  · rfl
  · exact (objects_of_ends (postEvent_ends ..)).trans rfl

theorem objects_settleJoin (s : State) : objects (settleJoin s) = objects s := by
  unfold settleJoin
  split
  · exact (objects_of_ends (foldl_ends (fun s (e : Nat × Cmd) => finishCmd_ends e.2.serial 0 0 0 s) _ _)).trans (objects_setPairState ..)
  · rfl

theorem objects_alignFlows (which : FlowOutCfg → Bool) (s : State) : objects (alignFlows which s) = objects s := by
  refine foldl_view (fun s e => ?_) _ s
  split
  · exact foldl_view (fun s b => objects_of_besideGroups (besideGroups_cwSend ..)) _ s
  · rfl

/-- An object that joins changes none, but for the count of applied states of an output (R412). -/
theorem objects_joined (kind n : Nat) (s : State) : objects (joined kind n s) = objects s ∨ (kind = 2 ∧ objects (joined kind n s) = objects (modOut s n (fun o => { o with applied := 0 }))) := by
  unfold joined
  split
  · have hsettle : ∀ (b : Bool) (which : FlowOutCfg → Bool) (s : State), objects (settleJoin (if b then alignFlows which s else s)) = objects s := fun b which s => by
      refine (objects_settleJoin _).trans ?_
      split
      · exact objects_alignFlows ..
      · rfl
    dsimp only
    by_cases hk : kind = 2
    · exact .inr ⟨hk, by rw [if_pos hk]; exact (hsettle ..).trans rfl⟩
    · exact .inl (by rw [if_neg hk]; exact (hsettle ..).trans rfl)
  · exact .inl rfl

section
variable {q : FlowRef} {b : Bus} {s t : State} {c : Cmd} {d y : Decoder} {n : Nat}

/-! DEC_OPEN, DEC_POLICY and DEC_CLOSE (R212 to R216, R219). -/

/-- The engines that take the decoder, its own LAG considered (R214). -/
def decFits (s : State) (d : Decoder) : List Nat := ((List.range 4).filter (engineTakes s d)).filter (fun e => d.lag == 0 || lagCovers d.lag (newTMin s d e))

/-- The decoder as it is opened on engine e. -/
def placedOn (s : State) (e : Nat) (d : Decoder) : Decoder := { d with engine := e, lag := if d.lag = 0 then ceilDiv (newTMin s d e) 1000 else d.lag }

theorem runDecOpen_illegal (h : decOf (cmdIn q c []) s = none) : meanDecOpen.run (cmdIn q c []) s = refuse s stBadParam := by
  simp only [meanDecOpen, runDecOpen, h]

theorem runDecOpen_fits {e : Nat} (hd : decOf (cmdIn q c []) s = some d) (hn : s.decs.lowestFree 32 = some n) (he : leastLoaded s (decFits s d) = some e)
    (hsrc : d.srcKind = 1 → d.width ≠ 0 ∧ ∃ k, chanAt s d.srcIndex = some k ∧ k.st ≠ .draining) (hfit : s.mem.noFit = false)
    (hr : regionFits (setDec s n (placedOn s e d)) (poolWith s none none) 11 = true) (hm : memoryCheck (setDec s n (placedOn s e d)) (poolWith s none none) 0 0 = none) :
    meanDecOpen.run (cmdIn q c []) s = .done (setDec s n (placedOn s e d)) stOk 0 n e := by
  have hsome : (decFits s d).isEmpty = false := by
    cases hf : decFits s d with
    | nil => rw [hf] at he; exact absurd he (by simp [leastLoaded])
    | cons => rfl
  have hshort : ¬ (d.lag ≠ 0 ∧ (decFits s d).isEmpty = true) := by rw [hsome]; exact fun h => Bool.false_ne_true h.2
  have hruns : ¬ (d.srcKind = 1 ∧ (d.width = 0 ∨ (chanAt s d.srcIndex).elim true (fun c => c.st == .draining) = true)) := by
    rintro ⟨hk, hz⟩
    obtain ⟨hw, k, hk, hst⟩ := hsrc hk
    simp [hw, hk, hst] at hz
  have hroom : ¬ (s.mem.noFit || !regionFits (setDec s n (placedOn s e d)) (poolWith s none none) 11) = true := by rw [hfit, hr]; exact Bool.false_ne_true
  simp only [decFits] at he hshort
  simp only [placedOn] at hm hroom ⊢
  simp only [meanDecOpen, runDecOpen, hd, hshort, if_false, hruns, hn, he, hroom, Bool.false_eq_true, hm]

theorem denyDec_own (hd : decAt s (fld c.packet 2 4 0) = some d) (ho : d.owner.val = c.fn.val) : denyDec (cmdIn q c []) s = false := by
  simp [denyDec, cmdIn, hd, ho]
theorem denyDec_absent (hd : decAt s (fld c.packet 2 4 0) = none) : denyDec (cmdIn q c []) s = false := by simp [denyDec, hd]

theorem exec_decPolicy_own (h : ready 0x0503 q c s = true) (hd : decAt s (fld c.packet 2 4 0) = some d) (ho : d.owner.val = c.fn.val) :
    exec (.decPolicy q b) s = .next (if fld c.packet 3 2 1 = 3 then refuses c b stBadParam 0 0 s else heldForTide 0x0503 c [] s) := by
  refine congrArg Host.Outcome.next ((startRow_settled (m := meanDecPolicy) (a := if fld c.packet 3 2 1 = 3 then refuse s stBadParam else pendTide (cmdIn q c []) s) h (denyDec_own hd ho) ?_).trans ?_)
  · simp [meanDecPolicy, runDecPolicy, hd]
  · split
    · rfl
    · rw [heldForTide, ← ready_opcode h]
      rfl

theorem exec_decClose_own (h : ready 0x0502 q c s = true) (hd : decAt s (fld c.packet 2 4 0) = some d) (ho : d.owner.val = c.fn.val) :
    exec (.decClose q b) s = .next (if decHeld s (fld c.packet 2 4 0) then refuses c b stBadState 0 0 s
      else completes c b 0 0 0 { freezeDecoder (fld c.packet 2 4 0) s with decs := s.decs.erase (fld c.packet 2 4 0) }) := by
  refine congrArg Host.Outcome.next ((startRow_settled (m := meanDecClose) (a := if decHeld s (fld c.packet 2 4 0) then refuse s stBadState
    else .done { freezeDecoder (fld c.packet 2 4 0) s with decs := s.decs.erase (fld c.packet 2 4 0) } stOk 0 0 0) h (denyDec_own hd ho) ?_).trans ?_)
  · simp only [meanDecClose, runDecClose, cmdIn_p, hd]
    rfl
  · split <;> rfl

theorem exec_decClose_absent (h : ready 0x0502 q c s = true) (hd : decAt s (fld c.packet 2 4 0) = none) : exec (.decClose q b) s = .next (refuses c b stBadParam 0 0 s) :=
  congrArg Host.Outcome.next (startRow_refused (m := meanDecClose) h (denyDec_absent hd) (by simp only [meanDecClose, runDecClose, cmdIn_p, hd]))

theorem exec_decPolicy_absent (h : ready 0x0503 q c s = true) (hd : decAt s (fld c.packet 2 4 0) = none) : exec (.decPolicy q b) s = .next (refuses c b stBadParam 0 0 s) :=
  congrArg Host.Outcome.next (startRow_refused (m := meanDecPolicy) h (denyDec_absent hd) (by simp [meanDecPolicy, runDecPolicy, hd]))

/-! Presentation (R217, R221). -/

theorem modDec_congr {f g : Decoder → Decoder} (hd : decAt s n = some d) (h : f d = g d) : modDec s n f = modDec s n g := by
  unfold modDec
  rw [fmap_modify_congr hd h]

/-- The picture's instant has come. -/
def pictureDue (now : Instant) (p : DecPic) : Bool := p.present.elim false (fun t => decide (t ≤ now))

/-- The pictures of a decoder whose instant has come, by their instants. -/
def duePics (now : Instant) (d : Decoder) : List DecPic := sortOn (fun p => p.present.getD 0) (d.waiting.filter (pictureDue now))

/-- A decoder after those that are to be shown have been presented: three buffers, and what outputs still read. -/
def presenting (s : State) (n : Nat) (due : List DecPic) (d : Decoder) : Decoder :=
  { d with waiting := d.waiting.filter (fun p => !(pictureDue s.time.local' p)),
           presented := ((due.filter (fun p => p.show')).reverse ++ d.presented).take 3 ++ (((due.filter (fun p => p.show')).reverse ++ d.presented).drop 3).filter (fun k => decRead s n k.number),
           lastConcealed := (due.filter (fun p => p.show')).getLast?.elim d.lastConcealed (fun p => p.concealed) }

theorem presentPictures_none (hd : decAt s n = some d) (h : duePics s.time.local' d = [] ∨ decodeClocks s = false) : presentPictures n s = s := by
  have hnone : ((duePics s.time.local' d).isEmpty || !decodeClocks s) = true := by obtain h | h := h <;> simp [h]
  unfold presentPictures
  rw [hd]
  exact if_pos hnone

theorem presentPictures_due (hd : decAt s n = some d) (hdue : duePics s.time.local' d ≠ []) (hc : decodeClocks s = true) :
    presentPictures n s = modDec s n (presenting s n (duePics s.time.local' d)) := by
  have hsome : ((duePics s.time.local' d).isEmpty || !decodeClocks s) = false := by simp [hdue, hc]
  unfold presentPictures
  rw [hd]
  refine (if_neg (ne_true_of_eq_false hsome)).trans ?_
  exact modDec_congr hd rfl

end

/-! Decoding (R213, R220 to R228). -/

section
variable {s t : State} {d y : Decoder} {n : Nat} {m : FMap Surface}

/-- Decoder n is y but for its STATE and its being stopped, and the surfaces are m. -/
def DecodesTo (n : Nat) (y : Decoder) (m : FMap Surface) (t : State) : Prop := (∃ st stopped, decAt t n = some { y with st := st, stopped := stopped }) ∧ t.surfs = m

theorem DecodesTo.of_objects (h : DecodesTo n y m s) (ho : objects t = objects s) : DecodesTo n y m t := by
  obtain ⟨⟨st, stopped, hy⟩, hm⟩ := h
  have hdecs : t.decs = s.decs := congrArg (fun v => v.2.2.2) ho
  exact ⟨⟨st, stopped, (congrArg (FMap.get? · n) hdecs).trans hy⟩, (congrArg (fun v => v.2.2.1) ho).trans hm⟩

/-- A change of STATE, or a stop, of any decoder. -/
theorem DecodesTo.modDec {g : Decoder → Decoder} {k : Nat} (h : DecodesTo n y m s) (hg : ∀ d, ∃ st stopped, g d = { d with st := st, stopped := stopped }) : DecodesTo n y m (modDec s k g) := by
  obtain ⟨⟨st, stopped, hy⟩, hm⟩ := h
  refine ⟨?_, hm⟩
  unfold decAt at hy ⊢
  simp only [Machine.modDec, fmap_get?_modify, hy]
  split
  · obtain ⟨st', stopped', hg⟩ := hg { y with st := st, stopped := stopped }
    exact ⟨st', stopped', by rw [Option.map_some, hg]⟩
  · exact ⟨st, stopped, rfl⟩

theorem DecodesTo.setDecState {k st : Nat} (h : DecodesTo n y m s) : DecodesTo n y m (setDecState k st s) := by
  unfold Machine.setDecState
  split
  · exact h
  · split
    · exact h
    · exact (h.modDec (g := fun x => { x with st := st }) fun x => ⟨st, x.stopped, rfl⟩).of_objects (objects_of_ends (postEvent_ends ..))

/-- A decode engine that faults stops its decoders (R422). -/
theorem DecodesTo.engineFault {e f k o p : Nat} (h : DecodesTo n y m s) : DecodesTo n y m (engineFault 2 e f k o p s) := by
  unfold Machine.engineFault engineFaultAs
  dsimp only
  split
  · unfold unitOut unitLost
    rw [if_neg (by decide : ¬ 2 = 0), if_neg (by decide : ¬ 2 = 1), if_pos rfl, if_neg (by decide : ¬ 2 = 0), if_pos rfl]
    refine foldl_keeps (P := DecodesTo n y m) (fun t x ht => ?_) _ (h.of_objects rfl)
    split
    · exact (ht.modDec fun d => ⟨d.st, true, rfl⟩).setDecState
    · exact ht
  · exact h.of_objects rfl

theorem DecodesTo.ite {P : Prop} [Decidable P] {u : State} (ht : DecodesTo n y m t) (hu : DecodesTo n y m u) : DecodesTo n y m (if P then t else u) := by
  split
  · exact ht
  · exact hu

theorem DecodesTo.joined {k : Nat} (h : DecodesTo n y m s) : DecodesTo n y m (joined 3 k s) := by
  obtain ho | ⟨h2, -⟩ := objects_joined 3 k s
  · exact h.of_objects ho
  · exact absurd h2 (by decide)

theorem DecodesTo.modChan {k : Nat} {g : Chan → Chan} (h : DecodesTo n y m s) : DecodesTo n y m (modChan s k g) := h

theorem DecodesTo.of_modDec {g : Decoder → Decoder} (hd : decAt s n = some d) : DecodesTo n (g d) s.surfs (Machine.modDec s n g) :=
  ⟨⟨(g d).st, (g d).stopped, by rw [decAt_modDec, hd]; rfl⟩, rfl⟩

/-- What a decoded access unit leaves of its decoder: the unit is gone, and the counts go on by its plan (R220 to R223). -/
structure CountsOn (d : Decoder) (f : AuIn) (plan : AuPlan) (y : Decoder) : Prop where
  aus : y.aus = d.aus.drop 1
  started : y.startedAt = true
  number : y.nextNumber = d.nextNumber + 1
  pictures : y.pictures = if plan.oversize then d.pictures else inc32 d.pictures
  concealed : y.concealed = if plan.concealed then inc32 d.concealed else d.concealed
  missing : y.missingRefs = (d.missingRefs + f.missingRefs) % 2 ^ 32
  syntaxErrors : y.syntaxErrors = (d.syntaxErrors + plan.errors) % 2 ^ 32

/-- The decoder of x has decoded by this plan, and surfaces are m. -/
def DecodedBy (n : Nat) (x : Decoder) (f : AuIn) (plan : AuPlan) (m : FMap Surface) (t : State) : Prop := ∃ y, CountsOn x f plan y ∧ DecodesTo n y m t

theorem DecodedBy.mono {x : Decoder} {f : AuIn} {plan : AuPlan} {u : State} (ht : DecodedBy n x f plan m t) (h : ∀ {y}, DecodesTo n y m t → DecodesTo n y m u) : DecodedBy n x f plan m u :=
  ht.imp fun _ hy => ⟨hy.1, h hy.2⟩

/-- The picture is decoded by the plan of its errors; what follows changes the decoder's STATE at most. -/
theorem decodeAu_counts {x : Decoder} {u : AuWait} {first last : Instant} {taken : List (List Byte)} {f : AuIn} (hx : decAt s n = some x) :
    DecodedBy n x f (auPlan d (auErrors d u taken f) f) s.surfs (decodeAu n d u first last taken f s) := by
  unfold decodeAu
  extract_lets _ plan
  split
  extract_lets
  split
  split
  extract_lets _ decoded _ unstamped marked noted read _ done
  have hdecoded : DecodedBy n x f plan s.surfs decoded := ⟨_, ⟨rfl, rfl, rfl, rfl, rfl, rfl, rfl⟩, .of_modDec hx⟩
  have hmarked : DecodedBy n x f plan s.surfs marked := hdecoded.mono fun h => .ite (DecodesTo.modChan (s := unstamped) (h.of_objects rfl)) (h.of_objects rfl)
  have hread : DecodedBy n x f plan s.surfs read := by
    have hnoted : DecodedBy n x f plan s.surfs noted := hmarked.mono fun h => .ite (h.of_objects rfl) h
    exact hnoted.mono fun h => .ite (h.of_objects rfl) h
  have hdone : DecodedBy n x f plan s.surfs done := hread.mono fun h => .ite h.setDecState.joined h.setDecState
  exact hdone.mono fun h => .ite h h.engineFault

/-- The units of an access unit that a decoder has taken stay in its history, of an ingested stream (R220). -/
def withHistory (d : Decoder) (units : List (List (List Byte))) : Decoder := { d with history := if d.srcKind = 0 then units else [] }

/-- No start point has come, or the picture is a RASL picture of the starting CRA: the access unit is discarded (R220). -/
def discards (d : Decoder) (f : AuIn) : Prop := (d.startedAt = false ∧ f.startPoint = false) ∨ f.rasl = true

section
variable {u : AuWait} {r : List AuWait} {first last : Instant} {a f : AuIn} {units : List (List (List Byte))}

/-- The state in which the decoder has noted the units it takes. -/
def unitsNoted (n : Nat) (d : Decoder) (units : List (List (List Byte))) (f : AuIn) (s : State) : State := modDec (noteDecoding d units f s) n (fun d => withHistory d units)

theorem decAt_unitsNoted (hd : decAt s n = some d) : decAt (unitsNoted n d units f s) n = some (withHistory d units) := by
  have hkept : decAt (noteDecoding d units f s) n = decAt s n := by
    unfold noteDecoding
    split <;> rfl
  rw [unitsNoted, decAt_modDec, hkept, hd]
  rfl

theorem unitsNoted_rest : (unitsNoted n d units f s).surfs = s.surfs ∧ (unitsNoted n d units f s).chans = s.chans := by
  unfold unitsNoted noteDecoding
  split <;> exact ⟨rfl, rfl⟩

section
variable (hu : units = d.history ++ [takenUnits s d u]) (hf : f = factsOf s d units a)
include hu hf

theorem takeAu_discards (h : discards d f) : takeAu n d u first last a s = modDec (unitsNoted n d units f s) n (fun d => { d with aus := d.aus.drop 1 }) := by
  subst hu
  unfold takeAu
  dsimp only
  rw [← hf]
  by_cases hs : (!d.startedAt && !f.startPoint) = true
  · exact if_pos hs
  · obtain ⟨h1, h2⟩ | hr := h
    · exact absurd (by rw [h1, h2]; rfl) hs
    · exact (if_neg hs).trans (if_pos hr)

theorem takeAu_decodes (h : d.startedAt = true ∨ f.startPoint = true) (hr : f.rasl = false) :
    ∃ recovering, takeAu n d u first last a s = decodeAu n { d with recovering := recovering } u first last (takenUnits s d u) f (unitsNoted n d units f s) := by
  subst hu
  have hs : (!d.startedAt && !f.startPoint) = false := by obtain h | h := h <;> simp [h]
  refine ⟨if d.startedAt then d.recovering else !f.irap && !f.recoveryDone, ?_⟩
  unfold takeAu
  dsimp only
  rw [← hf]
  refine (if_neg (ne_true_of_eq_false hs)).trans ((if_neg (ne_true_of_eq_false hr)).trans ?_)
  cases d.startedAt <;> rfl

theorem takeAu_counts (hd : decAt s n = some d) (h : d.startedAt = true ∨ f.startPoint = true) (hr : f.rasl = false) :
    DecodedBy n (withHistory d units) f (auPlan d (auErrors d u (takenUnits s d u) f) f) s.surfs (takeAu n d u first last a s) := by
  obtain ⟨recovering, htake⟩ := takeAu_decodes (n := n) (first := first) (last := last) hu hf h hr
  rw [htake, ← (unitsNoted_rest (n := n) (d := d) (units := units) (f := f) (s := s)).1]
  exact decodeAu_counts (d := { d with recovering := recovering }) (decAt_unitsNoted hd)

end

/-- An engine decodes the front access unit of the decoder it is to decode (R213); only a standby in lockstep waits for the holder's stamps (R391). -/
theorem accessUnitDecode_takes {e : Nat} (hclocks : decodeClocks s = true) (hin : decEngineIn s e = true) (hnext : nextDecoder s e a.dueAfter = some a.decoder.val)
    (hd : decAt s a.decoder.val = some d) (haus : d.aus = u :: r) (hlock : (isStandby s && inLockstep s) = false) (hstop : decStopped s a.decoder.val d = false) :
    accessUnitDecode e a s = takeAu a.decoder.val d u u.first u.last a s := by
  have hruns : (!decodeClocks s || !decEngineIn s e || nextDecoder s e a.dueAfter != some a.decoder.val) = false := by simp [hclocks, hin, hnext]
  have hstamps : auStamps s a.decoder.val u = some (u.first, u.last) := if_neg (ne_true_of_eq_false hlock)
  unfold accessUnitDecode
  refine (if_neg (ne_true_of_eq_false hruns)).trans ?_
  rw [hd]
  dsimp only
  rw [haus, List.head?_cons]
  dsimp only
  rw [hstamps]
  exact if_neg (ne_true_of_eq_false hstop)

end

end

end Sys2Proof.CommandProtocol

/-! PROOFS. Output pictures: their start, their lines and their completion (R173 to R183, R209). -/

namespace Sys2Proof.CommandProtocol

open Sys2Proof.Machine Sys2Proof.Laws Sys2Proof.HostAccess Sys2Proof.Architecture

section
variable {s t : State} {x o : Output} {p : OutPic} {n m : Nat}

/-! What goes with an output picture beside its output. -/

theorem objects_outs {s t : State} (h : objects t = objects s) : t.outs = s.outs := congrArg (fun v => v.2.1) h

theorem sendInput_groups (e : InputEntry) (s : State) : besideGroups (sendInput e s) = besideGroups s := by
  unfold sendInput
  split
  · exact besideGroups_cwSend ..
  · rfl

theorem sendContent_outs (sels : List LayerSel) (s : State) : (sendContent n m o sels s).outs = s.outs := by
  refine foldl_view (v := State.outs) (fun s e => ?_) _ s
  split
  · rfl
  · exact objects_outs (objects_of_besideGroups (sendInput_groups ..))

theorem declareLoss_outs (c k row : Nat) (s : State) : (declareLoss c k row s).outs = s.outs := by
  unfold declareLoss
  split
  · rfl
  · split <;> rfl

theorem feedChannels_outs (t : Instant) (lost : Bool) (s : State) : (feedChannels n m t lost s).outs = s.outs := by
  refine foldl_view (v := State.outs) (fun s c => ?_) _ s
  cases lost with
  | true => exact declareLoss_outs ..
  | false => rfl

theorem sdiPictures_outs (t : Instant) (s : State) : (sdiPictures n m t s).outs = s.outs := by
  refine foldl_view (v := State.outs) (fun s e => ?_) _ s
  have hsend : ∀ (b : Bool) (l k : Nat) (s : State), (if b then emit s (.sdi l k) else s).outs = s.outs := fun b l k s => by cases b <;> rfl
  dsimp only
  split
  · rfl
  · split
    · rfl
    · split
      · exact hsend ..
      · split
        · exact (hsend ..).trans (hsend ..)
        · split
          · rfl
          · exact hsend ..

theorem setDecState_outs (k st : Nat) (s : State) : (setDecState k st s).outs = s.outs := by
  unfold setDecState
  split
  · rfl
  · split
    · rfl
    · exact (postEvent_ends ..).outs

theorem settleDecoders_outs (s : State) : (settleDecoders s).outs = s.outs := by
  refine foldl_view (v := State.outs) (fun s e => ?_) _ s
  unfold settleDecoder
  split
  · rfl
  · split
    · split
      · rfl
      · exact setDecState_outs ..
    · split
      · exact setDecState_outs ..
      · rfl

/-! The start of a picture (R173, R175, R198). -/

/-- Output n stands as x configures it, whatever commits have made of its layers. -/
def OutStands (n : Nat) (x : Output) (s : State) : Prop := ∃ o, outAt s n = some o ∧ o.cfg = x.cfg ∧ o.owner = x.owner

theorem OutStands.of_outs (h : OutStands n x s) (ho : t.outs = s.outs) : OutStands n x t := by
  obtain ⟨o, h, hk⟩ := h
  exact ⟨o, (congrArg (FMap.get? · n) ho).trans h, hk⟩

theorem applyCommits_stands (h : outAt s n = some x) : OutStands n x (applyCommits n m s) := by
  unfold applyCommits
  rw [h]
  refine foldl_keeps (P := OutStands n x) (fun t c ht => ?_) _ ⟨x, h, rfl, rfl⟩
  obtain ⟨o, ho, hcfg, hown⟩ := ht
  refine OutStands.of_outs (s := modOut t n _) ⟨_, by rw [outAt_modOut, ho]; rfl, ?_, ?_⟩ (finishCmd_ends ..).outs
  · exact hcfg
  · exact hown

/-- A picture that has started with its output: it stands among those in composition as selected, no line of it composed. -/
structure Started (x : Output) (m : Nat) (t : Instant) (y : Output) : Prop where
  next : y.next = m + 1
  number : y.outPicture = m
  cfg : y.cfg = x.cfg
  owner : y.owner = x.owner
  stale : y.stale = staleBits y.lastSels
  picture : ∃ p, y.pics.get? m = some p ∧ p.sels = y.lastSels ∧ p.nextLine = 0 ∧ p.tOut = t

/-- Picture m of output n, as x configures it, has started at t. -/
def HasStarted (n : Nat) (x : Output) (m : Nat) (i : Instant) (t : State) : Prop := ∃ y, outAt t n = some y ∧ Started x m i y

theorem HasStarted.of_outs {i : Instant} (h : HasStarted n x m i s) (ho : t.outs = s.outs) : HasStarted n x m i t := by
  obtain ⟨y, h, hy⟩ := h
  exact ⟨y, (congrArg (FMap.get? · n) ho).trans h, hy⟩

/-- With an output that joins, its count of applied states begins anew (R412). -/
theorem Started.joined {y : Output} {i : Instant} {a : Nat} (h : Started x m i y) : Started x m i { y with applied := a } := ⟨h.1, h.2, h.3, h.4, h.5, h.6⟩

theorem startOutPicture_early (h : outAt s n = some x) (ht : s.time.local' < nsInstant (tOutNs x.cfg x.next)) : startOutPicture n s = s := by
  unfold startOutPicture
  rw [h]
  exact if_pos ht

section
variable (h : outAt s n = some x) (ht : nsInstant (tOutNs x.cfg x.next) ≤ s.time.local')
include h ht

theorem startOutPicture_dying (hd : x.dying = true) : startOutPicture n s = destroyOutput n s := by
  unfold startOutPicture
  rw [h]
  exact (if_neg (Nat.not_lt.mpr ht)).trans (if_pos hd)

variable (hd : x.dying = false) (hc : composeClocks s = true) (hm : mayCode s = true) (hcont : contentReady s n x.next x = true) (ha : mirrorAwaited s 1 n x.next = false)
include hd hc hm hcont ha

theorem startOutPicture_stopped (hr : outRuns s x = false) :
    startOutPicture n s = feedChannels n x.next (nsInstant (tOutNs x.cfg x.next)) true (modOut s n (fun o => { o with next := x.next + 1 })) := by
  have hready : (!composeClocks s || !mayCode s || !contentReady s n x.next x || mirrorAwaited s 1 n x.next) = false := by rw [hc, hm, hcont, ha]; rfl
  unfold startOutPicture
  rw [h]
  exact (if_neg (Nat.not_lt.mpr ht)).trans ((if_neg (ne_true_of_eq_false hd)).trans ((if_neg (ne_true_of_eq_false hready)).trans (if_pos (by rw [hr]; rfl))))

theorem startOutPicture_starts (hr : outRuns s x = true) : HasStarted n x x.next (nsInstant (tOutNs x.cfg x.next)) (startOutPicture n s) := by
  have hready : (!composeClocks s || !mayCode s || !contentReady s n x.next x || mirrorAwaited s 1 n x.next) = false := by rw [hc, hm, hcont, ha]; rfl
  obtain ⟨o, ho, hcfg, hown⟩ := (applyCommits_stands (m := x.next) h).of_outs (settleDecoders_outs _)
  unfold startOutPicture
  split
  · next hnone => rw [h] at hnone; exact absurd hnone (by simp)
  next x' hx =>
  obtain rfl : x = x' := Option.some.inj (h.symm.trans hx)
  extract_lets m tNs i u
  rw [if_neg (Nat.not_lt.mpr ht), if_neg (ne_true_of_eq_false hd), if_neg (ne_true_of_eq_false hready), if_neg (by rw [hr]; exact Bool.false_ne_true)]
  split
  · next hnone => rw [show outAt u n = some o from ho] at hnone; exact absurd hnone (by simp)
  next x' hx =>
  obtain rfl : o = x' := Option.some.inj (ho.symm.trans hx)
  extract_lets sels _ _ pic _ started noted sent _ cleared fed sdi done
  have hstarted : HasStarted n x m i started := ⟨_, (outAt_modOut ..).trans (congrArg (Option.map _) hx), rfl, rfl, hcfg, hown, rfl, pic, fmap_get?_set_self .., rfl, rfl, rfl⟩
  have hnoted : noted.outs = started.outs := foldl_view (v := State.outs) (fun s e => by split <;> rfl) _ _
  have hsdi : HasStarted n x m i sdi := hstarted.of_outs ((sdiPictures_outs ..).trans ((feedChannels_outs ..).trans ((sendContent_outs ..).trans hnoted)))
  have hdone : HasStarted n x m i done := by
    obtain hj | ⟨-, hj⟩ := objects_joined 2 n sdi
    · exact hsdi.of_outs (objects_outs hj)
    · obtain ⟨y, hy, hs⟩ := hsdi
      exact HasStarted.of_outs (s := modOut sdi n _) ⟨_, by rw [outAt_modOut, hy]; rfl, hs.joined⟩ (objects_outs hj)
  exact hdone.of_outs (postEvent_ends ..).outs

end

/-! The lines of a picture (R180, R190). -/

/-- Commands in flows beside the objects. -/
def lineView (s : State) : (FMap Chan × FMap Output × FMap Surface × FMap Decoder) × FMap (List Cmd) := (objects s, s.flows)

theorem lineView_of_besideGroups (h : besideGroups t = besideGroups s) : lineView t = lineView s := (congrArg lineView h :)

theorem sendDecisions_view (ys : List Nat) (d : FMap (FMap (List Nat))) (s : State) : lineView (sendDecisions n m p ys d s) = lineView s :=
  foldl_view (v := lineView) (fun s e => lineView_of_besideGroups (sendInput_groups e s)) _ s

theorem videoLine_view (k : Nat) (c : OutCfg) (i : Instant) (s : State) : lineView (videoLine n m k c i s) = lineView s := by
  refine foldl_view (v := lineView) (fun s e => ?_) _ s
  dsimp only
  split
  · rfl
  · split
    · rfl
    · exact lineView_of_besideGroups (besideGroups_addGroup ..)

theorem countPoisonLines_view (owner k : Nat) (s : State) : lineView (countPoisonLines n m owner k s) = lineView s := by
  unfold countPoisonLines
  split <;> rfl

/-- A chain of decisions each of which is made is made as a whole. -/
theorem foldl_bind_some {α β : Type} {g : α → β → Option α} (h : ∀ a x, ∃ b, g a x = some b) (l : List β) (a : α) :
    ∃ b, l.foldl (fun (a : Option α) x => a.bind (g · x)) (some a) = some b := by
  induction l generalizing a with
  | nil => exact ⟨a, rfl⟩
  | cons x r ih =>
    obtain ⟨b, hb⟩ := h a x
    rw [List.foldl_cons, Option.bind_some, hb]
    exact ih b

section
variable {c : OutCfg} (hl : (isStandby s && inLockstep s) = false)
include hl

/-- Only a standby in lockstep waits for decisions (R391). -/
theorem decideLine_some (y : Nat) (inputs : List InputEntry) : ∃ d, decideLine s n m c p y inputs = some d :=
  foldl_bind_some (fun _ _ => ⟨_, if_neg (ne_true_of_eq_false hl)⟩) _ _

theorem decideLines_some (ys : List Nat) : ∃ d, decideLines s n m c p ys = some d :=
  foldl_bind_some (fun a y => by obtain ⟨d, hd⟩ := decideLine_some hl y a.2; exact ⟨_, by rw [hd]; rfl⟩) _ _

theorem groupDecided_some (y : Nat) : ∃ decided u, groupDecided n m y c p s = some ({ p with decided := decided }, u) ∧ lineView u = lineView s := by
  unfold groupDecided
  split
  · exact ⟨p.decided, s, rfl, rfl⟩
  · obtain ⟨d, hd⟩ := decideLines_some (n := n) (m := m) (p := p) (c := c) hl (groupLines c y)
    dsimp only
    rw [hd]
    refine ⟨d.1, _, rfl, ?_⟩
    split
    · rfl
    · exact sendDecisions_view ..

end

/-- The line that composes a picture: output n stands as before but for what the picture is, and its next line is one further. -/
structure LineComposed (s : State) (n : Nat) (x : Output) (m : Nat) (p : OutPic) (t : State) : Prop where
  output : ∃ y q, outAt t n = some y ∧ y.pics.get? m = some q ∧ q.nextLine = p.nextLine + 1 ∧ q.tOut = p.tOut ∧ (q.lines.get? p.nextLine).isSome = true ∧
    y.next = x.next ∧ y.layers = x.layers ∧ y.commits = x.commits
  others : t.chans = s.chans ∧ t.surfs = s.surfs ∧ t.decs = s.decs ∧ t.flows = s.flows

theorem LineComposed.of_view {u : State} (h : LineComposed s n x m p t) (hv : lineView u = lineView t) : LineComposed s n x m p u := by
  obtain ⟨⟨y, q, hy, hq⟩, hchans, hsurfs, hdecs, hflows⟩ := h
  have ho : objects u = objects t := congrArg Prod.fst hv
  exact ⟨⟨y, q, (congrArg (FMap.get? · n) (objects_outs ho)).trans hy, hq⟩, (congrArg (fun v => v.1) ho).trans hchans, (congrArg (fun v => v.2.2.1) ho).trans hsurfs,
    (congrArg (fun v => v.2.2.2) ho).trans hdecs, (congrArg Prod.snd hv).trans hflows⟩

/-- The last line of the chroma group of a picture's next line (R190). -/
def groupLast (c : OutCfg) (p : OutPic) : Nat := min (c.height - 1) (p.nextLine - p.nextLine % subY c.chroma + subY c.chroma - 1)

theorem composeNext_composes (bad : List Nat) (h : outAt s n = some x) (hp : x.pics.find? (fun e => decide (e.2.nextLine < x.cfg.height)) = some (m, p))
    (hl : (isStandby s && inLockstep s) = false) (hc : composeClocks s = true) (hin : compIn s x.compositor = true) (hdue : lineInstant x.cfg p (groupLast x.cfg p) ≤ localQ s) :
    LineComposed s n x m p (composeNext n bad s) := by
  obtain ⟨decided, u, hdec, hview⟩ := groupDecided_some (n := n) (m := m) (p := p) (c := x.cfg) hl p.nextLine
  have hobjects : objects u = objects s := congrArg Prod.fst hview
  have hx : outAt u n = some x := (congrArg (FMap.get? · n) (objects_outs hobjects)).trans h
  unfold composeNext
  split
  · next hnone => rw [h] at hnone; exact absurd hnone (by simp)
  next x' hx' =>
  obtain rfl : x = x' := Option.some.inj (h.symm.trans hx')
  split
  · next hnone => rw [hp] at hnone; exact absurd hnone (by simp)
  next m' p' hp' =>
  obtain ⟨rfl, rfl⟩ : m = m' ∧ p = p' := by rw [hp] at hp'; simpa using hp'
  extract_lets y last
  have hready : (decide (localQ s < lineInstant x.cfg p last) || !composeClocks s || !compIn s x.compositor) = false := by
    have hcome : ¬ localQ s < lineInstant x.cfg p last := not_lt.mpr hdue
    rw [decide_eq_false hcome, hc, hin]
    rfl
  rw [if_neg (ne_true_of_eq_false hready)]
  split
  · next hnone => rw [hdec] at hnone; exact absurd hnone (by simp)
  next q' u' hq' =>
  obtain ⟨rfl, rfl⟩ : { p with decided := decided } = q' ∧ u = u' := by rw [hdec] at hq'; simpa using hq'
  extract_lets bad' sels _ _ line _ _ q composed counted emitted
  have hcomposed : LineComposed s n x m p composed :=
    ⟨⟨_, q, (outAt_modOut ..).trans (congrArg (Option.map _) hx), fmap_get?_set_self .., rfl, rfl, by rw [fmap_get?_set_self]; rfl, rfl, rfl, rfl⟩,
      congrArg (fun v => v.1) hobjects, congrArg (fun v => v.2.2.1) hobjects, congrArg (fun v => v.2.2.2) hobjects, congrArg Prod.snd hview⟩
  have hemitted : LineComposed s n x m p emitted := hcomposed.of_view (u := emitted) (countPoisonLines_view ..)
  exact hemitted.of_view (videoLine_view ..)

/-! The completion of a picture (R183, R203). -/

/-- Channels, outputs and decoders: what the publications of surfaces leave. -/
def settleView (s : State) : FMap Chan × FMap Output × FMap Decoder := (s.chans, s.outs, s.decs)

theorem settleView_of_ends (h : Ends s t) : settleView t = settleView s := (congrArg settleView h.rest :)

theorem settleSurfaces_view (s : State) : settleView (settleSurfaces s) = settleView s := by
  refine foldl_view (fun s e => ?_) _ s
  unfold settleSurface
  extract_lets u
  split
  · rfl
  · refine (foldl_view (v := settleView) (fun s v => ?_) _ u).trans rfl
    split
    · rfl
    · split
      · exact (settleView_of_ends (finishCmd_ends ..)).trans rfl
      · rfl

theorem completeOutPicture_completes (h : outAt s n = some x) (hp : x.pics.get? m = some p) (hlines : x.cfg.height ≤ p.nextLine)
    (hdue : (p.tOut : Rat) + nsQ ((x.cfg.height : Rat) * outLineNs x.cfg + outLatency x.cfg) ≤ localQ s) :
    ∃ y, outAt (completeOutPicture n m s) n = some y ∧ y.pics = x.pics.erase m ∧ y.regionHash = (if p.lh.isSome then p.hash ^^^ 0xFFFFFFFF else 0) ∧
      y.layers = x.layers ∧ y.next = x.next ∧ (completeOutPicture n m s).chans = s.chans ∧ (completeOutPicture n m s).decs = s.decs := by
  unfold completeOutPicture
  split
  · next hnone => rw [h] at hnone; exact absurd hnone (by simp)
  next x' hx' =>
  obtain rfl : x = x' := Option.some.inj (h.symm.trans hx')
  split
  · next hnone => rw [hp] at hnone; exact absurd hnone (by simp)
  next p' hp' =>
  obtain rfl : p = p' := Option.some.inj (hp.symm.trans hp')
  extract_lets due written hash done
  have hready : ¬ (p.nextLine < x.cfg.height || decide (localQ s < due)) = true := by
    have hcome : ¬ localQ s < due := not_lt.mpr hdue
    rw [decide_eq_false (Nat.not_lt.mpr hlines), decide_eq_false hcome]
    exact Bool.false_ne_true
  rw [if_neg hready]
  have hwritten : settleView written = settleView s := by
    unfold written
    split <;> rfl
  have hview : settleView (settleSurfaces done) = settleView done := settleSurfaces_view done
  have houts : written.outs = s.outs := congrArg (fun v => v.2.1) hwritten
  have hx : outAt written n = some x := (congrArg (FMap.get? · n) houts).trans h
  have hdone : outAt done n = _ := (outAt_modOut ..).trans (congrArg (Option.map _) hx)
  have hsettled : (settleSurfaces done).outs = done.outs := congrArg (fun v => v.2.1) hview
  exact ⟨_, (congrArg (FMap.get? · n) hsettled).trans hdone, rfl, rfl, rfl, rfl, (congrArg (fun v => v.1) hview).trans (congrArg (fun v => v.1) hwritten),
    (congrArg (fun v => v.2.2) hview).trans (congrArg (fun v => v.2.2) hwritten)⟩

end

end Sys2Proof.CommandProtocol

/-! PROOFS. Output pictures and decoders proceed (R72, R173 to R183, R209 to R230). -/

namespace Sys2Proof.CommandProtocol

open Sys2Proof.Machine Sys2Proof.Laws Sys2Proof.HostAccess Sys2Proof.Architecture

/-- Settles O27: an output picture by its start, its lines and its completion; a decoder by its commands, the access unit its engine takes and its presentations. -/
theorem outputPicturesAndDecodersProceed : Obligations.OutputPicturesAndDecodersProceed := by
  unfold Obligations.OutputPicturesAndDecodersProceed
  refine ⟨fun dt n s x hact hx => ⟨fun ht => ?early, fun ht => ⟨fun hd => ?dying, fun hd hc hm hcont ha => ⟨fun hr => ?stopped, fun hr => ?starts⟩⟩⟩,
    fun dt n bad s x m p hact hl hc hx hin hp hdue => ?line, fun dt n m s x p hact hx hp hlines hdue => ?complete,
    fun q b s c h hf => ⟨fun hn => ?illegal, ?opens⟩, fun q b s c d h hd ho => exec_decPolicy_own h hd ho, fun q b s c d h hd ho => exec_decClose_own h hd ho,
    fun q b s c hn => ⟨fun h => exec_decClose_absent h hn, fun h => exec_decPolicy_absent h hn⟩,
    fun dt e a s d u r units f hact hclocks hin hnext hd haus hl hstop hunits hfacts => ?decode, fun dt n s d due hact hd hdue => ?present⟩
  case early => exact congrArg Host.Outcome.next ((actAfter_acting dt _ hact).trans (startOutPicture_early hx ht))
  case dying => exact congrArg Host.Outcome.next ((actAfter_acting dt _ hact).trans (startOutPicture_dying hx ht hd))
  case stopped => exact congrArg Host.Outcome.next ((actAfter_acting dt _ hact).trans (startOutPicture_stopped hx ht hd hc hm hcont ha hr))
  case starts =>
    obtain ⟨y, hy, hstarted⟩ := startOutPicture_starts (s := advance dt s) hx ht hd hc hm hcont ha hr
    exact ⟨_, y, congrArg Host.Outcome.next (actAfter_acting dt _ hact), hy, hstarted.next, hstarted.number, hstarted.cfg, hstarted.owner, hstarted.stale, hstarted.picture⟩
  case line =>
    obtain ⟨⟨y, q, hy, hq, hnext, ht, hset, hrest⟩, hothers⟩ := composeNext_composes (s := advance dt s) bad hx hp hl hc hin hdue
    exact ⟨_, y, q, congrArg Host.Outcome.next (actAfter_acting dt _ hact), hy, hq, hnext, ht, hset, hrest.1, hrest.2.1, hrest.2.2, hothers⟩
  case complete =>
    obtain ⟨y, hy⟩ := completeOutPicture_completes (s := advance dt s) hx hp hlines hdue
    exact ⟨_, y, congrArg Host.Outcome.next (actAfter_acting dt _ hact), hy⟩
  case illegal => exact congrArg Host.Outcome.next (startRow_refused (m := meanDecOpen) h hf (runDecOpen_illegal hn))
  case opens =>
    rintro d n e t hd hn he hsrc rfl hfit hr hm
    exact congrArg Host.Outcome.next (startRow_done (m := meanDecOpen) h hf (runDecOpen_fits hd hn he hsrc hfit hr hm))
  case decode =>
    have hstep : exec (.accessUnitDecode dt e a) s = .next (takeAu a.decoder.val d u u.first u.last a (advance dt s)) :=
      congrArg Host.Outcome.next ((actAfter_acting dt _ hact).trans (accessUnitDecode_takes (s := advance dt s) hclocks hin hnext hd haus hl hstop))
    refine ⟨fun h => ?_, fun h hr => ?_⟩
    · rw [takeAu_discards (s := advance dt s) hunits hfacts h] at hstep
      obtain ⟨hsurfs, hchans⟩ := unitsNoted_rest (n := a.decoder.val) (d := d) (units := units) (f := f) (s := advance dt s)
      refine ⟨_, hstep, ?_, hsurfs, hchans⟩
      rw [decAt_modDec, decAt_unitsNoted (s := advance dt s) hd, withHistory, haus]
      rfl
    · obtain ⟨y, hcounts, ⟨st, stopped, hy⟩, hsurfs⟩ := takeAu_counts (s := advance dt s) (n := a.decoder.val) (first := u.first) (last := u.last) hunits hfacts hd h hr
      obtain ⟨haus', hstarted, hnumber, hpictures, hconcealed, hmissing, hsyntax⟩ := hcounts
      exact ⟨_, _, _, rfl, hstep, hy, fun _ => ⟨haus'.trans (by rw [withHistory, haus]; rfl), hstarted⟩, hnumber, hpictures, hconcealed, hmissing, hsyntax, hsurfs⟩
  case present =>
    subst hdue
    refine ⟨fun h => ?_, fun h hc => ?_⟩
    · exact congrArg Host.Outcome.next ((actAfter_acting dt _ hact).trans (presentPictures_none (s := advance dt s) hd h))
    · exact congrArg Host.Outcome.next ((actAfter_acting dt _ hact).trans (presentPictures_due (s := advance dt s) hd h hc))

end Sys2Proof.CommandProtocol

/-! PROOFS. CHAN_CREATE takes the lowest free number (R79). -/

namespace Sys2Proof.CommandProtocol

open Sys2Proof.Machine Sys2Proof.Laws

section
variable {α : Type} {m : FMap α} {n k : Nat}

/-- The lowest free number is free, lies below the bound, and every lower one is taken (R79). -/
theorem lowestFree_eq_some : m.lowestFree n = some k ↔ m.get? k = none ∧ k < n ∧ ∀ j, j < k → (m.get? j).isSome = true := by
  simp [FMap.lowestFree, FMap.has, List.find?_range_eq_some]

theorem lowestFree_eq_none : m.lowestFree n = none ↔ ∀ j, j < n → (m.get? j).isSome = true := by
  simp [FMap.lowestFree, FMap.has, List.find?_eq_none, Option.isSome_iff_ne_none]

end

/-- Settles O57: the lowest free number is the one that CHAN_CREATE gives. -/
theorem channelsTakeTheLowestFreeNumber : Obligations.ChannelsTakeTheLowestFreeNumber := by
  unfold Obligations.ChannelsTakeTheLowestFreeNumber
  refine ⟨fun q b s c k h hk hfree htaken => ?free, fun q b s c h hall => exec_chanCreate_full h (lowestFree_eq_none.mpr hall)⟩
  exact ⟨_, exec_chanCreate_free h (lowestFree_eq_some.mpr ⟨hfree, hk, htaken⟩), Fin.ext (Nat.mod_eq_of_lt c.fn.isLt), rfl, rfl, fun j hj => Architecture.chanAt_setChan_ne hj.symm⟩

end Sys2Proof.CommandProtocol

/-! PROOFS. Line verdicts and repair requests: what a judged line leaves of its channel (R104 to R106, R248, R391, R398). -/

namespace Sys2Proof.CommandProtocol

open Sys2Proof.Machine Sys2Proof.Laws Sys2Proof.HostAccess Sys2Proof.Architecture

/-! What a verdict can change beside its channel. -/

/-- The state without channels, messages to the partner and the inputs that the partner sent. -/
def besideInputs (s : State) : State := { besideGroups s with chans := [], pair.inputs := [] }

/-- From s to t channel c has become y; messages to the partner and its inputs aside, nothing else has changed. -/
structure OnlyInput (c : Nat) (y : Chan) (s t : State) : Prop where
  rest : besideInputs t = besideInputs s
  chan : chanAt t c = some y
  others : ∀ d, d ≠ c → chanAt t d = chanAt s d

section
variable {c n l row : Nat} {x y z : Chan} {s t u : State}

theorem OnlyInput.refl (h : chanAt s c = some x) : OnlyInput c x s s := ⟨rfl, h, fun _ _ => rfl⟩

theorem OnlyInput.trans (h : OnlyInput c y s t) (g : OnlyInput c z t u) : OnlyInput c z s u :=
  ⟨g.rest.trans h.rest, g.chan, fun d hd => (g.others d hd).trans (h.others d hd)⟩

theorem modChan_input (h : chanAt s c = some x) (g : Chan → Chan) : OnlyInput c (g x) s (modChan s c g) :=
  have hc := modChan_onlyChan h g
  ⟨rfl, hc.chan, hc.others⟩

/-- The holder tells a verdict, and inputs that it answers are dropped (R391). -/
theorem told_input (h : chanAt s c = some x) (e : InputEntry) (l : List InputEntry) : OnlyInput c x s { sendInput e s with pair.inputs := l } :=
  have hchans : (sendInput e s).chans = s.chans := (congrArg State.chans (sendInput_groups e s) :)
  ⟨congrArg (fun v => { v with chans := [], pair.inputs := [] }) (sendInput_groups e s), (congrArg (FMap.get? · c) hchans).trans h, fun d _ => congrArg (FMap.get? · d) hchans⟩

theorem OnlyInput.outs (h : OnlyInput c y s t) : t.outs = s.outs := (congrArg State.outs h.rest :)
theorem OnlyInput.flowsIn (h : OnlyInput c y s t) : t.net.flowsIn = s.net.flowsIn := (congrArg (fun s => s.net.flowsIn) h.rest :)
theorem OnlyInput.time (h : OnlyInput c y s t) : t.time = s.time := (congrArg State.time h.rest :)
theorem OnlyInput.mem (h : OnlyInput c y s t) : t.mem = s.mem := (congrArg State.mem h.rest :)
theorem OnlyInput.journal (h : OnlyInput c y s t) : t.journal = s.journal := (congrArg State.journal h.rest :)
theorem OnlyInput.judgedPic (h : OnlyInput c y s t) (g : ChanCfg) (k : Nat) : judgedPic t g k = judgedPic s g k := (congrArg (Machine.judgedPic · g k) h.rest :)

theorem fmap_modify_eq_self {α : Type} {m : FMap α} {k : Nat} {a : α} {g : α → α} (h : m.get? k = some a) (hg : g a = a) : m.modify k g = m := by
  induction m with
  | nil => rfl
  | cons e r ih =>
    obtain ⟨j, w⟩ := e
    simp only [FMap.get?, FMap.modify] at h ⊢
    split
    · next hj => rw [if_pos hj, Option.some.injEq] at h; rw [h, hg]
    · next hj => rw [if_neg hj] at h; rw [ih h]

theorem modChan_eq_self {g : Chan → Chan} (h : chanAt s c = some x) (hg : g x = x) : modChan s c g = s :=
  congrArg (fun m => { s with chans := m }) (fmap_modify_eq_self h hg)

/-! What a verdict makes of its channel. -/

/-- A picture in which loss of input is declared from a CTU row on, under a policy (R104, R105). -/
def lossNoted (n row policy : Nat) (q : Pic) : Pic := { q with loss := q.loss ++ [(n, row, 1, policy)], staleSrc := q.staleSrc || policy == 1 }

/-- A channel that counts a run of lost lines (R104). -/
def runCounted (run : Nat) (lost : Bool) (y : Chan) : Chan := { y with input.lostRun := run, input.broken := y.input.broken || lost }

/-- A channel whose line l of picture k the hold picture's replaces (R104). -/
def lineReplaced (k l : Nat) (y : Chan) : Chan :=
  { y with counters.missingLines := inc32 y.counters.missingLines, input.replaced := y.input.replaced.set k (y.input.replaced.getD k [] ++ [l]) }

/-- A channel that has lost its input in picture n from a CTU row on (R104, R105). -/
def lossDeclared (n row : Nat) (x : Chan) : Chan :=
  let kept := if x.cfg.elim false (fun g => g.srcKind == 2) then x.input.pending else x.input.pending.take (n + 1 - x.run.nextPic)
  { x with input := { x.input with status := 1, lossSince := n, whole := 0, pending := kept },
           run := { x.run with pics := x.run.pics.modify n (lossNoted n row (x.cfg.elim 0 (fun g => g.lossPolicy))) } }

/-- The length of the run of lost lines once a line has been judged (R104). -/
def runAfter (lost : Bool) (x : Chan) : Nat := if lost then x.input.lostRun + 1 else 0

/-- The hold picture's line replaces a line of a run of at most two while the input is not lost (R104). -/
def replaces (lost : Bool) (x : Chan) : Bool := lost && decide (runAfter lost x ≤ 2) && x.input.status == 0

/-- A channel whose line l of picture k is lost, or not: the run of lost lines, and the line replaced (R104). -/
def countedChan (k l : Nat) (lost : Bool) (x : Chan) : Chan :=
  if replaces lost x then lineReplaced k l (runCounted (runAfter lost x) lost x) else runCounted (runAfter lost x) lost x

/-- The same channel with the input loss that the third line of a run declares in picture n (R104, R105). -/
def verdictChan (k l n row : Nat) (lost : Bool) (x : Chan) : Chan :=
  if runAfter lost x = 3 ∧ x.input.status ≠ 1 then lossDeclared n row (countedChan k l lost x) else countedChan k l lost x

/-- Channels that differ in the run of lost lines, the lines replaced and a declared loss have this in common. -/
structure SameJudging (x y : Chan) : Prop where
  st : y.st = x.st
  cfg : y.cfg = x.cfg
  judging : y.input.judging = x.input.judging

section
variable {k : Nat} {lost : Bool}

theorem countedChan_same : SameJudging x (countedChan k l lost x) := by
  unfold countedChan
  split <;> exact ⟨rfl, rfl, rfl⟩

theorem countedChan_status : (countedChan k l lost x).input.status = x.input.status := by
  unfold countedChan
  split <;> rfl

theorem countedChan_run : (countedChan k l lost x).input.lostRun = runAfter lost x ∧ (countedChan k l lost x).input.broken = (x.input.broken || lost) := by
  unfold countedChan
  split <;> exact ⟨rfl, rfl⟩

theorem verdictChan_same : SameJudging x (verdictChan k l n row lost x) := by
  have hc := countedChan_same (k := k) (l := l) (lost := lost) (x := x)
  unfold verdictChan
  split
  · exact ⟨hc.st, hc.cfg, hc.judging⟩
  · exact hc

theorem verdictChan_run : (verdictChan k l n row lost x).input.lostRun = runAfter lost x ∧ (verdictChan k l n row lost x).input.broken = (x.input.broken || lost) := by
  unfold verdictChan
  split <;> exact countedChan_run

/-- The counters and the lines replaced are not a matter of declared loss. -/
theorem verdictChan_counts : (verdictChan k l n row lost x).counters = (countedChan k l lost x).counters ∧ (verdictChan k l n row lost x).input.replaced = (countedChan k l lost x).input.replaced := by
  unfold verdictChan
  split <;> exact ⟨rfl, rfl⟩

theorem runAfter_eq_three : runAfter lost x = 3 ↔ lost = true ∧ x.input.lostRun = 2 := by
  unfold runAfter
  cases lost <;> simp

/-- The third lost line of a run declares loss, and no other verdict moves the status (R104, R105). -/
theorem verdictChan_status : (verdictChan k l n row lost x).input.status = if lost = true ∧ x.input.lostRun = 2 then 1 else x.input.status := by
  simp only [verdictChan, runAfter_eq_three]
  by_cases h : lost = true ∧ x.input.lostRun = 2
  · by_cases h1 : x.input.status = 1
    · rw [if_neg (fun hd => hd.2 h1), if_pos h, countedChan_status, h1]
    · rw [if_pos ⟨h, h1⟩, if_pos h]
      rfl
  · rw [if_neg (fun hd => h hd.1), if_neg h, countedChan_status]

theorem verdictChan_lossSince (h : lost = true ∧ x.input.lostRun = 2) (h1 : x.input.status ≠ 1) : (verdictChan k l n row lost x).input.lossSince = n := by
  unfold verdictChan
  rw [if_pos ⟨runAfter_eq_three.mpr h, h1⟩]
  rfl

theorem verdictChan_whole (h : lost = false) : (verdictChan k l n row lost x).input.whole = x.input.whole := by
  subst h
  rfl

theorem verdictChan_replaces (hl : lost = true) (h : x.input.lostRun ≤ 1) (h0 : x.input.status = 0) :
    (verdictChan k l n row lost x).counters.missingLines = inc32 x.counters.missingLines ∧ l ∈ (verdictChan k l n row lost x).input.replaced.getD k [] := by
  have hr : replaces lost x = true := by simp [replaces, runAfter, hl, h, h0]
  rw [verdictChan_counts.1, verdictChan_counts.2, countedChan, if_pos hr]
  exact ⟨rfl, by simp [lineReplaced]⟩

theorem verdictChan_missingLines (h : lost = false ∨ 2 ≤ x.input.lostRun ∨ x.input.status ≠ 0) : (verdictChan k l n row lost x).counters.missingLines = x.counters.missingLines := by
  have hr : replaces lost x = false := by
    obtain rfl | h | h := h
    · rfl
    · cases lost
      · rfl
      · simp [replaces, runAfter, show ¬ x.input.lostRun ≤ 1 by omega]
    · simp [replaces, h]
  rw [verdictChan_counts.1, countedChan, if_neg (by simp [hr])]
  rfl

/-- The run of lost lines goes on or ends, a line is replaced, loss is declared: one change after the other (R104, R105). -/
def countVerdict (c k l n row : Nat) (lost : Bool) (x : Chan) (s : State) : State :=
  let s := modChan s c (runCounted (runAfter lost x) lost)
  let s := if replaces lost x then modChan s c (lineReplaced k l) else s
  if runAfter lost x = 3 then declareLoss c n row s else s

theorem declareLoss_input (hx : chanAt s c = some x) (hst : x.st ≠ .idle) :
    OnlyInput c (if x.input.status ≠ 1 then lossDeclared n row x else x) s (declareLoss c n row s) := by
  unfold declareLoss
  rw [hx]
  by_cases h1 : x.input.status = 1
  · simpa [h1] using OnlyInput.refl hx
  · have hm := modChan_onlyChan hx
    simp only [h1, hst, or_self, if_false, ne_eq, not_false_eq_true, if_true]
    exact ⟨rfl, (hm _).chan, (hm _).others⟩

theorem countVerdict_input (hx : chanAt s c = some x) (hst : x.st ≠ .idle) : OnlyInput c (verdictChan k l n row lost x) s (countVerdict c k l n row lost x s) := by
  have hline : OnlyInput c (countedChan k l lost x) s
      (if replaces lost x then modChan (modChan s c (runCounted (runAfter lost x) lost)) c (lineReplaced k l) else modChan s c (runCounted (runAfter lost x) lost)) := by
    have hrun := modChan_input hx (runCounted (runAfter lost x) lost)
    unfold countedChan
    split
    · exact hrun.trans (modChan_input hrun.chan _)
    · exact hrun
  unfold countVerdict verdictChan
  by_cases h3 : runAfter lost x = 3
  · have hst' : (countedChan k l lost x).st ≠ .idle := by rw [countedChan_same.st]; exact hst
    have hd := hline.trans (declareLoss_input (n := n) (row := row) hline.chan hst')
    rw [countedChan_status] at hd
    simpa [h3] using hd
  · simpa [h3] using hline

end

/-! After the last line of a picture (R104, R106). -/

/-- The status of a channel's input after a picture that was broken, or whole (R106). -/
def statusAfter (broken : Bool) (i : ChanIn) : Nat := if i.status = 0 then 0 else if broken then 1 else if 1 ≤ i.whole then 0 else 2

/-- The judging of lines moves nothing of this. -/
structure CountsKept (x y : Chan) : Prop where
  st : y.st = x.st
  cfg : y.cfg = x.cfg
  counters : y.counters = x.counters
  replaced : y.input.replaced = x.input.replaced

/-- The picture of the source that is judged after picture k, line 0 first: the next one, or the one expected at an instant (R104). -/
def judgedNext (s : State) (g : ChanCfg) (k : Nat) (due : Instant) : Nat × Instant × Nat × Bool :=
  match judgedPic s g (k + 1) with
  | some p => if p.trefSet then (k + 1, chanTref g p, 0, true) else (k + 1, due, 0, false)
  | none => (k + 1, due, 0, false)

/-- A picture that has ended counts towards the recovery of a lost input, or breaks it (R106). -/
theorem pictureCounted_input (hx : chanAt s c = some x) :
    ∃ y, OnlyInput c y s (if x.input.broken then brokenPicture c s else wholePicture c s) ∧ CountsKept x y ∧ y.input.status = statusAfter x.input.broken x.input := by
  cases x.input.broken with
  | true =>
    refine ⟨_, modChan_input hx _, ?_⟩
    split
    · next h0 => exact ⟨⟨rfl, rfl, rfl, rfl⟩, by simp [statusAfter, h0]⟩
    · next h0 => exact ⟨⟨rfl, rfl, rfl, rfl⟩, by simp [statusAfter, h0]⟩
  | false =>
    refine ⟨_, modChan_input hx _, ?_⟩
    split
    · next h0 => exact ⟨⟨rfl, rfl, rfl, rfl⟩, by simp [statusAfter, h0]⟩
    · next h0 =>
      split
      · next h1 => exact ⟨⟨rfl, rfl, rfl, rfl⟩, by simp [statusAfter, h0, h1]⟩
      · next h1 => exact ⟨⟨rfl, rfl, rfl, rfl⟩, by simp [statusAfter, h0, h1]⟩

theorem fillLost_input (hx : chanAt s c = some x) : ∃ l, OnlyInput c { x with input.pending := l } s (fillLost c s) :=
  ⟨_, modChan_input hx (fun x => { x with input.pending := x.input.pending ++ lostTrefs s x s.time.local' })⟩

/-- A channel that judges the first line of a picture (R104). -/
def judgesFrom (j : Nat × Instant × Nat × Bool) (y : Chan) : Chan := { y with input.judging := some j, input.broken := false }

theorem nextJudged_input {g : ChanCfg} {period : Rat} {k : Nat} {t0 : Instant} (hx : chanAt s c = some x) (hj : x.input.judging = some (k, t0, l, true)) :
    ∃ y, OnlyInput c (judgesFrom (judgedNext s g k (t0 + (Rat.floor (nsQ period)).toNat)) y) s (nextJudged c x g period s) ∧ CountsKept x y ∧ y.input.status = statusAfter x.input.broken x.input := by
  obtain ⟨p, hfill⟩ := fillLost_input hx
  obtain ⟨y, hy, hkept, hstatus⟩ := pictureCounted_input hfill.chan
  have hcounted := hfill.trans hy
  refine ⟨y, ?_, ⟨hkept.st, hkept.cfg, hkept.counters, hkept.replaced⟩, hstatus⟩
  unfold nextJudged judgedNext
  rw [hj, ← hcounted.judgedPic]
  simp only [Bool.not_true, Bool.or_false, if_true]
  exact hcounted.trans (modChan_input hcounted.chan (judgesFrom _))

/-! A line by line (R104, R105, R391). -/

/-- The line after l is judged next, or the next picture (R104). -/
def nextLine (c l : Nat) (g : ChanCfg) (geo : Geom) (s : State) : State :=
  match chanAt s c with
  | none => s
  | some x => if l + 1 < g.height then modChan s c (fun y => { y with input.judging := y.input.judging.map (fun j => (j.1, j.2.1, l + 1, j.2.2.2)) }) else nextJudged c x g geo.period s

/-- An input of the partner that no line up to l of channel c answers (R391). -/
def unanswered (c l : Nat) : InputEntry → Bool
  | .verdict c' _ a m _ => !(c' == c && decide (a + m ≤ l + 1))
  | _ => true

/-- The code of a verdict: received, replaced, lost (Table 15.4a). -/
def verdictCode (lost : Bool) (x : Chan) : Nat := if !lost then 0 else if runAfter lost x ≤ 2 then 1 else 2

/-- A verdict on line l as it is told and counted (R104, R105, R391). -/
def settleLine (c k l n row : Nat) (lost : Bool) (x : Chan) (g : ChanCfg) (geo : Geom) (s : State) : State :=
  let told := sendInput (.verdict c (verdictCode lost x) l 1 n) s
  nextLine c l g geo (countVerdict c k l n row lost x { told with pair.inputs := told.pair.inputs.filter (unanswered c l) })

/-- A line of the judged picture is due on a live channel (R104). -/
structure LineDue (s : State) (c : Nat) (x : Chan) (g : ChanCfg) (geo : Geom) (k : Nat) (t0 : Instant) (l : Nat) : Prop where
  chan : chanAt s c = some x
  cfg : x.cfg = some g
  geom : chanGeom s x = some geo
  judging : x.input.judging = some (k, t0, l, true)
  live : x.st ≠ .idle
  composed : g.srcKind ≠ 2
  due : (t0 : Rat) + nsQ (((l + 4 : Nat) : Rat) * geo.tLine) ≤ (s.time.local' : Rat)

/-- The line has been received whole in the four lines of grace (R104). -/
def wholeInTime (s : State) (g : ChanCfg) (geo : Geom) (k : Nat) (t0 : Instant) (l : Nat) : Bool :=
  (judgedPic s g k).elim false (fun p => lineWhole p l ((t0 : Rat) + nsQ (((l + 4 : Nat) : Rat) * geo.tLine)))

section
variable {g : ChanCfg} {geo : Geom} {k : Nat} {t0 : Instant} (h : LineDue s c x g geo k t0 l)
include h

theorem LineDue.running : ¬ ((s.time.local' : Rat) < (t0 : Rat) + nsQ (((l + 4 : Nat) : Rat) * geo.tLine) ∨ x.st = .idle ∨ g.srcKind = 2) := by
  rintro (he | hi | hs)
  · exact absurd h.due (not_le.mpr he)
  · exact h.live hi
  · exact h.composed hs

theorem LineDue.begun : modChan s c (fun y => { y with input.judging := some (k, t0, l, true) }) = s :=
  modChan_eq_self h.chan (by rw [← h.judging])

theorem judgeLine_awaits {poisoned : Bool} (hv : (if isStandby s && inLockstep s then sentVerdict s c l else some 0) = none) : judgeLine c poisoned s = s := by
  unfold judgeLine
  rw [h.chan]
  dsimp only
  rw [h.cfg, h.geom, h.judging]
  dsimp only
  rw [if_neg h.running, hv]

/-- A line that is due is judged by what has been received of it, on a standby in lockstep by what the holder says (R104, R391). -/
theorem judgeLine_settles {poisoned follow own : Bool} {v : Nat} (hf : (isStandby s && inLockstep s) = follow) (hv : (if follow then sentVerdict s c l else some 0) = some v)
    (ho : (!poisoned && wholeInTime s g geo k t0 l) = own) :
    judgeLine c poisoned s = settleLine c k l (picOfTref x t0) ((l - 2) / max geo.ctu 1) (if follow then v != 0 else !own) x g geo
      (if follow && v == 0 && !own then diverge (if poisoned then poisonRead 0 x.owner.val 1 c l s else s) else if poisoned then poisonRead 0 x.owner.val 1 c l s else s) := by
  unfold judgeLine
  rw [h.chan]
  dsimp only
  rw [h.cfg, h.geom, h.judging]
  dsimp only
  rw [if_neg h.running, hf, hv]
  dsimp only
  simp only [if_true, Bool.true_or, h.begun, Bool.true_and]
  unfold wholeInTime at ho
  rw [ho]
  rfl

end

/-- What a verdict v on line l of picture k leaves of its channel, by whether the picture has more lines (R104, R106). -/
structure LineSettled (s : State) (g : ChanCfg) (geo : Geom) (k : Nat) (t0 : Instant) (l : Nat) (v y : Chan) : Prop where
  kept : CountsKept v y
  within : l + 1 < g.height → y.input.judging = some (k, t0, l + 1, true) ∧ y.input.broken = v.input.broken ∧ y.input.lostRun = v.input.lostRun ∧ y.input.status = v.input.status ∧
    y.input.lossSince = v.input.lossSince
  last : g.height ≤ l + 1 → y.input.judging = some (judgedNext s g k (t0 + (Rat.floor (nsQ geo.period)).toNat)) ∧ y.input.broken = false ∧ y.input.status = statusAfter v.input.broken v.input

theorem settleLine_settled {g : ChanCfg} {geo : Geom} {k : Nat} {t0 : Instant} {lost : Bool} (hx : chanAt s c = some x) (hst : x.st ≠ .idle) (hj : x.input.judging = some (k, t0, l, true)) :
    ∃ y, OnlyInput c y s (settleLine c k l n row lost x g geo s) ∧ LineSettled s g geo k t0 l (verdictChan k l n row lost x) y := by
  have htold := told_input hx (.verdict c (verdictCode lost x) l 1 n) ((sendInput (.verdict c (verdictCode lost x) l 1 n) s).pair.inputs.filter (unanswered c l))
  have hv := htold.trans (countVerdict_input (k := k) (l := l) (n := n) (row := row) (lost := lost) htold.chan hst)
  have hvj : (verdictChan k l n row lost x).input.judging = some (k, t0, l, true) := verdictChan_same.judging.trans hj
  unfold settleLine nextLine
  dsimp only
  rw [hv.chan]
  dsimp only
  by_cases hlt : l + 1 < g.height
  · rw [if_pos hlt]
    exact ⟨_, hv.trans (modChan_input hv.chan _), ⟨rfl, rfl, rfl, rfl⟩, fun _ => ⟨by rw [hvj]; rfl, rfl, rfl, rfl, rfl⟩, fun hle => absurd hlt (by omega)⟩
  · rw [if_neg hlt]
    obtain ⟨y, hy, hkept, hstatus⟩ := nextJudged_input (g := g) (period := geo.period) hv.chan hvj
    refine ⟨_, hv.trans hy, ⟨hkept.st, hkept.cfg, hkept.counters, hkept.replaced⟩, fun h => absurd h hlt, fun _ => ⟨?_, rfl, hstatus⟩⟩
    simp only [judgesFrom, judgedNext, hv.judgedPic]

end

end Sys2Proof.CommandProtocol

/-! PROOFS. Repair requests, and line verdicts as a whole (R104 to R106, R248, R391, R398). -/

namespace Sys2Proof.CommandProtocol

open Sys2Proof.Machine Sys2Proof.Laws Sys2Proof.HostAccess Sys2Proof.Architecture

section
variable {c l k n : Nat} {x v y : Chan} {s t : State} {g : ChanCfg} {geo : Geom} {t0 : Instant} {lost : Bool}

/-- No line of a channel is due that is IDLE, composed, judges nothing, or whose next line is within its grace (R104). -/
theorem judgeLine_still {poisoned : Bool} (h : ∀ x g geo k t0 l r, chanAt s c = some x → x.cfg = some g → chanGeom s x = some geo → x.input.judging = some (k, t0, l, r) →
    x.st = .idle ∨ g.srcKind = 2 ∨ (s.time.local' : Rat) < (t0 : Rat) + nsQ (((l + 4 : Nat) : Rat) * geo.tLine)) : judgeLine c poisoned s = s := by
  unfold judgeLine
  split
  · rfl
  · next x hx =>
    split
    · next g geo k t0 l r hg hgeo hj => exact if_pos (by have := h x g geo k t0 l r hx hg hgeo hj; tauto)
    · rfl

/-- A divergence is the pair's own matter: no channel changes (R400). -/
theorem coded_diverge (s : State) : coded (diverge s) = coded s := by
  unfold diverge
  split
  · exact (coded_setPairState ..).trans rfl
  · rfl

/-! A line settled, by what the verdict was (R104, R106). -/

section
variable {row : Nat} (h : LineSettled s g geo k t0 l (verdictChan k l n row lost x) y)
include h

theorem LineSettled.counts :
    (lost = true → x.input.lostRun ≤ 1 → x.input.status = 0 → y.counters.missingLines = inc32 x.counters.missingLines ∧ l ∈ y.input.replaced.getD k []) ∧
      ((lost = false ∨ 2 ≤ x.input.lostRun ∨ x.input.status ≠ 0) → y.counters.missingLines = x.counters.missingLines) := by
  rw [h.kept.counters, h.kept.replaced]
  exact ⟨verdictChan_replaces, verdictChan_missingLines⟩

theorem LineSettled.goesOn (hlt : l + 1 < g.height) :
    y.input.judging = some (k, t0, l + 1, true) ∧ y.input.broken = (x.input.broken || lost) ∧ y.input.lostRun = (if lost then x.input.lostRun + 1 else 0) ∧
      (lost = false → y.input.status = x.input.status) ∧ (lost = true → x.input.lostRun ≠ 2 → y.input.status = x.input.status) ∧
      (lost = true → x.input.lostRun = 2 → y.input.status = 1 ∧ (x.input.status ≠ 1 → y.input.lossSince = n)) := by
  obtain ⟨hj, hb, hr, hs, hsince⟩ := h.within hlt
  rw [hs, hsince, verdictChan_status]
  exact ⟨hj, hb.trans verdictChan_run.2, hr.trans verdictChan_run.1, fun hl => by simp [hl], fun _ h2 => by simp [h2], fun hl h2 => ⟨by simp [hl, h2], verdictChan_lossSince ⟨hl, h2⟩⟩⟩

/-- The last line of a picture: a broken one keeps a lost input lost, the second whole one in a row restores it (R106). -/
theorem LineSettled.ends (hle : g.height ≤ l + 1) :
    y.input.broken = false ∧ ((x.input.broken || lost) = true → (x.input.status ≠ 0 ∨ (lost = true ∧ x.input.lostRun = 2)) → y.input.status = 1) ∧
      ((x.input.broken || lost) = false → x.input.status ≠ 0 → y.input.status = (if 1 ≤ x.input.whole then 0 else 2)) ∧
      (x.input.status = 0 → (lost = false ∨ x.input.lostRun ≠ 2) → y.input.status = 0) := by
  obtain ⟨-, hb, hs⟩ := h.last hle
  rw [hs, statusAfter, verdictChan_run.2, verdictChan_status]
  refine ⟨hb, fun hbr h0 => ?_, fun hbr h0 => ?_, fun h0 hl => ?_⟩
  · by_cases h3 : lost = true ∧ x.input.lostRun = 2
    · simp [h3]
    · simp [hbr, h3, h0.resolve_right h3]
  · obtain ⟨hbroken, hlost⟩ := Bool.or_eq_false_iff.mp hbr
    simp [hbroken, hlost, h0, verdictChan_whole]
  · have h3 : ¬ (lost = true ∧ x.input.lostRun = 2) := fun h3 => hl.elim (by simp [h3.1]) (· h3.2)
    simp [h0, h3]

end

/-! Repair requests (R398). -/

/-- A frame is kept until it is acknowledged (R316). -/
theorem cwSend_unacked (type : Nat) (p : List Byte) (hs : cwLive s = true) : ∃ f ∈ (cwSend type p s).net.cw.unacked, f.type = type ∧ f.seq = s.net.cw.txSeq := by
  unfold cwSend cwEmit
  rw [if_pos hs]
  dsimp only
  split <;> exact ⟨_, List.mem_append_right _ (List.mem_singleton_self _), rfl, rfl⟩

/-- The instant at which a line that is not whole is asked of the partner (R398). -/
def repairInstant (geo : Geom) (t0 : Instant) (l : Nat) : Rat := (t0 : Rat) + nsQ (((l + 2 : Nat) : Rat) * geo.tLine)

/-- A line is not asked of the partner (R398). -/
def noRepair (s : State) (g : ChanCfg) (geo : Geom) (t0 : Instant) (l : Nat) (p : LivePic) : Prop :=
  pairOn s = false ∨ g.srcKind = 2 ∨ g.height ≤ l ∨ lineWhole p l (repairInstant geo t0 l) = true ∨ (s.time.local' : Rat) < repairInstant geo t0 l ∨ repairLineOf g p l ∈ s.pair.repairs

theorem repairDue_cases {p : LivePic} (hx : chanAt s c = some x) (hg : x.cfg = some g) (hgeo : chanGeom s x = some geo) (hj : x.input.judging = some (k, t0, n, true))
    (hp : judgedPic s g k = some p) :
    (noRepair s g geo t0 l p → repairDue c l s = s) ∧
      (¬ noRepair s g geo t0 l p → ∃ b, repairDue c l s = cwSend 7 b { s with pair.repairs := s.pair.repairs ++ [repairLineOf g p l] }) := by
  unfold repairDue
  rw [hx]
  dsimp only
  rw [hg, hgeo, hj]
  dsimp only
  rw [hp]
  have hcond : (!(pairOn s) || g.srcKind == 2 || decide ((s.time.local' : Rat) < repairInstant geo t0 l) || decide (g.height ≤ l) || lineWhole p l (repairInstant geo t0 l) ||
      s.pair.repairs.contains (repairLineOf g p l)) = true ↔ noRepair s g geo t0 l p := by
    simp only [Bool.or_eq_true, Bool.not_eq_true', beq_iff_eq, decide_eq_true_eq, List.contains_iff_mem, noRepair]
    tauto
  exact ⟨fun h => if_pos (hcond.mpr h), fun h => ⟨_, if_neg (mt hcond.mp h)⟩⟩

/-! Whose verdict it is (R104, R248, R391). -/

/-- A line is read, poisoned or not (R248). -/
def readLine (poisoned : Bool) (owner c l : Nat) (s : State) : State := if poisoned then poisonRead 0 owner 1 c l s else s

/-- A poisoned read is counted, asserts PF0's source, and is journaled in class 4 (R248, Table 16.1). -/
theorem poisonRead_journals (action owner kind index picture : Nat) (s : State) :
    (poisonRead action owner kind index picture s).mem.poisonReads = inc32 s.mem.poisonReads ∧ (poisonRead action owner kind index picture s).mem.ueSrc = true ∧
      ∃ e ∈ (poisonRead action owner kind index picture s).journal.staged, e.cls = 4 ∧ e.object = index ∧ e.detail = picture % 2 ^ 48 :=
  ⟨rfl, rfl, _, List.mem_append_right _ (List.mem_singleton_self _), rfl, rfl, rfl⟩

theorem readLine_rest (poisoned : Bool) (owner c l : Nat) (s : State) :
    (readLine poisoned owner c l s).chans = s.chans ∧ (readLine poisoned owner c l s).outs = s.outs ∧ (readLine poisoned owner c l s).net.flowsIn = s.net.flowsIn ∧ (readLine poisoned owner c l s).time = s.time := by
  cases poisoned <;> exact ⟨rfl, rfl, rfl, rfl⟩

section
variable (h : LineDue s c x g geo k t0 l)
include h

theorem LineDue.judged_own {poisoned : Bool} (hf : (isStandby s && inLockstep s) = false) (hl : lost = (poisoned || !wholeInTime s g geo k t0 l)) :
    judgeLine c poisoned s = settleLine c k l (picOfTref x t0) ((l - 2) / max geo.ctu 1) lost x g geo (readLine poisoned x.owner.val c l s) := by
  rw [judgeLine_settles h hf rfl rfl, hl]
  simp [readLine]

/-- On a standby in lockstep the holder's verdict settles the line, and no channel has changed before (R391). -/
theorem LineDue.judged_follows {v : Nat} (hs : isStandby s = true) (hlock : inLockstep s = true) (hv : sentVerdict s c l = some v) :
    ∃ u, u.chans = s.chans ∧ judgeLine c false s = settleLine c k l (picOfTref x t0) ((l - 2) / max geo.ctu 1) (v != 0) x g geo u := by
  refine ⟨_, ?_, judgeLine_settles h (follow := true) (by rw [hs, hlock]; rfl) hv rfl⟩
  split
  · exact congrArg Prod.fst (coded_diverge s)
  · rfl

end

end

/-- Settles O44: a due line by the verdict on it, told, counted, and followed by the next line or the next picture; a repair request by what keeps it. -/
theorem linesAreJudgedAndRepaired : Obligations.LinesAreJudgedAndRepaired := by
  unfold Obligations.LinesAreJudgedAndRepaired
  have hexec : ∀ dt (c : Fin 64) poisoned s, acting s = true → exec (.lineDeadline dt c poisoned) s = .next (judgeLine c.val poisoned (advance dt s)) :=
    fun dt c poisoned s ha => congrArg Host.Outcome.next (actAfter_acting dt _ ha)
  refine ⟨fun dt c poisoned s ha h => (hexec dt c poisoned s ha).trans (congrArg _ (judgeLine_still (s := advance dt s) h)), ?own, ?follows, ?repair⟩
  case own =>
    rintro dt c poisoned s x g geo k t0 l whole lost ha hf hx hg hsrc hst hgeo hj hdue rfl hl
    have h : LineDue (advance dt s) c.val x g geo k t0 l := ⟨hx, hg, hgeo, hj, hst, hsrc, hdue⟩
    obtain ⟨hchans, houts, hflows, htime⟩ := readLine_rest poisoned x.owner.val c.val l (advance dt s)
    have hchan : ∀ d, chanAt (readLine poisoned x.owner.val c.val l (advance dt s)) d = chanAt s d := fun d => congrArg (FMap.get? · d) hchans
    obtain ⟨y, hy, hs⟩ := settleLine_settled (n := picOfTref x t0) (row := (l - 2) / max geo.ctu 1) (g := g) (geo := geo) (lost := lost) ((hchan c.val).trans hx) hst hj
    refine ⟨_, y, (hexec dt c poisoned s ha).trans (congrArg _ (h.judged_own hf hl)), hy.chan, hs.kept.st.trans verdictChan_same.st, hs.kept.cfg.trans verdictChan_same.cfg,
      fun d hd => (hy.others d hd).trans (hchan d), hy.outs.trans houts, hy.flowsIn.trans hflows, hy.time.trans htime, ?_, ?_,
      hs.goesOn, fun hle => ⟨?_, hs.ends hle⟩, hs.counts⟩
    · rintro rfl
      exact ⟨hy.mem, hy.journal⟩
    · rintro rfl
      rw [hy.mem, hy.journal]
      exact poisonRead_journals 0 x.owner.val 1 c.val l (advance dt s)
    · have hpic : judgedPic (readLine poisoned x.owner.val c.val l (advance dt s)) g (k + 1) = judgedPic s g (k + 1) := by cases poisoned <;> rfl
      rw [(hs.last hle).1, judgedNext, hpic]
      cases judgedPic s g (k + 1) with
      | none => rfl
      | some p => cases hset : p.trefSet <;> simp [hset]
  case follows =>
    intro dt c s x g geo k t0 l ha hstand hlock hx hg hsrc hst hgeo hj hdue
    have h : LineDue (advance dt s) c.val x g geo k t0 l := ⟨hx, hg, hgeo, hj, hst, hsrc, hdue⟩
    refine ⟨fun hv => (hexec dt c false s ha).trans (congrArg _ (judgeLine_awaits h ?_)), fun v hv hlt => ?_⟩
    · exact (if_pos (show (isStandby s && inLockstep s) = true by rw [hstand, hlock]; rfl)).trans hv
    · obtain ⟨u, hu, he⟩ := h.judged_follows hstand hlock hv
      have hchan : ∀ d, chanAt u d = chanAt s d := fun d => congrArg (FMap.get? · d) hu
      obtain ⟨y, hy, hs⟩ := settleLine_settled (n := picOfTref x t0) (row := (l - 2) / max geo.ctu 1) (g := g) (geo := geo) (lost := v != 0) ((hchan c.val).trans hx) hst hj
      obtain ⟨hjudging, hbroken, hrun, -⟩ := hs.goesOn hlt
      refine ⟨_, y, (hexec dt c false s ha).trans (congrArg _ he), hy.chan, hjudging, hrun.trans ?_, hbroken, fun d hd => (hy.others d hd).trans (hchan d)⟩
      by_cases h0 : v = 0 <;> simp [h0]
  case repair =>
    intro dt c l s x g geo k t0 n p ha hx hg hgeo hj hp
    have hexecR : exec (.repairDeadline dt c l) s = .next (repairDue c.val l (advance dt s)) := congrArg Host.Outcome.next (actAfter_acting dt _ ha)
    obtain ⟨hkeeps, hasks⟩ := repairDue_cases (s := advance dt s) (c := c.val) (l := l) hx hg hgeo hj hp
    refine ⟨fun hon hsrc hl hw hdue hr => ?_, fun hno => hexecR.trans (congrArg _ (hkeeps hno))⟩
    obtain ⟨b, hb⟩ := hasks (by
      rintro (h | h | h | h | h | h)
      · exact Bool.false_ne_true (h.symm.trans hon)
      · exact hsrc h
      · exact absurd hl (not_lt.mpr h)
      · exact Bool.false_ne_true (hw.symm.trans h)
      · exact absurd hdue (not_le.mpr h)
      · exact hr h)
    have hrest := besideGroups_cwSend 7 b { advance dt s with pair.repairs := s.pair.repairs ++ [repairLineOf g p l] }
    refine ⟨_, hexecR.trans (congrArg _ hb), (congrArg (fun s => s.pair.repairs) hrest :), (congrArg State.chans hrest :), (congrArg (fun s => s.net.flowsIn) hrest :),
      (congrArg (fun s => s.net.ports) hrest :), fun hlive => cwSend_unacked 7 b hlive⟩

end Sys2Proof.CommandProtocol

/-! PROOFS. Entropy engines: the unit an idle engine takes, and what coding it leaves (R133 to R136, R155, R248). -/

namespace Sys2Proof.Architecture

open Sys2Proof.Machine Sys2Proof.Laws

/-! The unit an engine takes (R135). -/

/-- A unit's place in the order in which engines take units: emission instant, channel, unit in its slice, picture, slice. -/
def unitRank (u : UnitRef) : ℚ ×ₗ ℕ ×ₗ ℕ ×ₗ ℕ ×ₗ ℕ := toLex (u.due, toLex (u.chan, toLex (u.idx, toLex (u.pic, u.slice))))

theorem unitBefore_iff (u v : UnitRef) : unitBefore u v = true ↔ unitRank u < unitRank v := by
  simp [unitBefore, unitRank, Prod.Lex.toLex_lt_toLex]

theorem unitRank_le_iff (u v : UnitRef) : unitRank u ≤ unitRank v ↔
    u.due < v.due ∨ u.due = v.due ∧ (u.chan < v.chan ∨ u.chan = v.chan ∧ (u.idx < v.idx ∨ u.idx = v.idx ∧ (u.pic < v.pic ∨ u.pic = v.pic ∧ u.slice ≤ v.slice))) := by
  simp [unitRank, Prod.Lex.toLex_le_toLex]

/-- The rank decides by emission instant first, then by channel, then by the unit in its slice (R135). -/
theorem le_of_unitRank_le {u v : UnitRef} (h : unitRank u ≤ unitRank v) :
    u.due ≤ v.due ∧ (v.due = u.due → u.chan ≤ v.chan) ∧ (v.due = u.due → v.chan = u.chan → u.idx ≤ v.idx) := by
  obtain h | ⟨hd, h | ⟨hc, h⟩⟩ := (unitRank_le_iff u v).mp h
  · exact ⟨h.le, fun hd => absurd hd h.ne', fun hd => absurd hd h.ne'⟩
  · exact ⟨hd.le, fun _ => h.le, fun _ hc => absurd hc h.ne'⟩
  · exact ⟨hd.le, fun _ => hc.le, fun _ _ => h.elim Nat.le_of_lt fun h => h.1.le⟩

/-- The better of the best unit so far and the next one. -/
def betterUnit (b : Option UnitRef) (u : UnitRef) : Option UnitRef :=
  match b with
  | none => some u
  | some v => if unitBefore u v then some u else b

/-- The best so far and every unit seen after it rank no lower than the unit taken in the end. -/
theorem foldl_betterUnit (l : List UnitRef) (b u : UnitRef) (h : l.foldl betterUnit (some b) = some u) :
    u ∈ b :: l ∧ ∀ v ∈ b :: l, unitRank u ≤ unitRank v := by
  induction l generalizing b with
  | nil => simp_all
  | cons a l ih =>
    rw [List.foldl_cons, betterUnit] at h
    split at h
    · next hab =>
      obtain ⟨hu, hle⟩ := ih a h
      have hlt := (unitBefore_iff a b).mp hab
      exact ⟨List.mem_cons_of_mem _ hu, List.forall_mem_cons.mpr ⟨(hle a List.mem_cons_self).trans hlt.le, hle⟩⟩
    · next hab =>
      obtain ⟨hu, hle⟩ := ih b h
      obtain ⟨hb, hl⟩ := List.forall_mem_cons.mp hle
      have hba : unitRank b ≤ unitRank a := not_lt.mp (mt (unitBefore_iff a b).mpr hab)
      exact ⟨by simp only [List.mem_cons] at hu ⊢; tauto, List.forall_mem_cons.mpr ⟨hb, List.forall_mem_cons.mpr ⟨hb.trans hba, hl⟩⟩⟩

/-- The unit taken is one of those ready, and none ranks before it. -/
theorem bestUnit_least {l : List UnitRef} {u : UnitRef} (h : bestUnit l = some u) : u ∈ l ∧ ∀ v ∈ l, unitRank u ≤ unitRank v := by
  cases l with
  | nil => cases h
  | cons b l => exact foldl_betterUnit l b u h

/-- The units that are ready on the device: those of every channel that codes and is not being aborted (R134). -/
def allReady (s : State) : List UnitRef := (s.chans.filter (fun x => coding x.2 && !x.2.run.aborting)).flatMap (fun x => readyUnits s x.1 x.2)

section
variable {e : Nat} {o : EntropyOut} {s : State}

theorem entropyStart_eq : entropyStart e o s = if !mayEncode s || !(entropyIn s e) then s else (bestUnit (allReady s)).elim s (fun u => codeUnit e u o s) := by
  unfold entropyStart
  refine if_congr Iff.rfl rfl ?_
  split
  · next u hu => exact (congrArg (fun b => b.elim s (fun u => codeUnit e u o s)) hu).symm
  · next hu => exact (congrArg (fun b => b.elim s (fun u => codeUnit e u o s)) hu).symm

theorem entropyStart_idle (h : mayEncode s = false ∨ entropyIn s e = false ∨ allReady s = []) : entropyStart e o s = s := by
  rw [entropyStart_eq]
  obtain h | h | h := h
  · simp [h]
  · simp [h]
  · rw [h]
    exact ite_self s

theorem entropyStart_takes {u : UnitRef} (hm : mayEncode s = true) (he : entropyIn s e = true) (hu : bestUnit (allReady s) = some u) : entropyStart e o s = codeUnit e u o s := by
  rw [entropyStart_eq, hm, he, hu]
  rfl

end

/-! A unit is coded (R133, R135, R136). -/

section
variable {c n : Nat} {x y : Chan} {s t u : State}

/-- What changes no channel and no output leaves a channel's change as it is. -/
theorem OnlyChan.coded (h : OnlyChan c y s t) (hu : Architecture.coded u = Architecture.coded t) : OnlyChan c y s u :=
  have hchans : u.chans = t.chans := congrArg Prod.fst hu
  ⟨(congrArg (FMap.get? · c) hchans).trans h.chan, fun d hd => (congrArg (FMap.get? · d) hchans).trans (h.others d hd), (congrArg (fun v => v.2.1) hu).trans h.outs⟩

/-- A picture whose rows may have got their actual counts, and that is otherwise the same (R155). -/
structure Counted (q p : Pic) : Prop where
  units : p.units = q.units
  unitsDone : p.unitsDone = q.unitsDone
  rows : ∀ i w, q.rows.get? i = some w → ∃ v, p.rows.get? i = some v ∧ v.next = w.next ∧ v.mode = w.mode ∧ v.records = w.records

theorem Counted.refl (q : Pic) : Counted q q := ⟨rfl, rfl, fun _ w hw => ⟨w, hw, rfl, rfl, rfl⟩⟩

/-- Wherever the rows of a picture are settled, its units stay and its channel's queue too (R133, R155). -/
theorem settleRows_counts {q : Pic} (h : chanAt s c = some x) (hq : x.run.pics.get? n = some q) :
    ∃ y p, OnlyChan c y s (settleRows c n s) ∧ y.run.pics.get? n = some p ∧ y.st = x.st ∧ y.run.queue = x.run.queue ∧ x.run.rowsFreed ≤ y.run.rowsFreed ∧ Counted q p := by
  unfold settleRows
  rw [h]
  dsimp only
  rw [hq]
  split
  · next k q' hk hq' =>
    cases hq'
    obtain ⟨b, hb⟩ := settleLagoon_onlyChan (modChan_onlyChan h _).chan
    refine ⟨_, _, (modChan_onlyChan h _).trans hb, fmap_get?_set_self .., rfl, rfl, Nat.le_add_right .., rfl, rfl, fun i w hw => ?_⟩
    refine ⟨_, by rw [fmap_get?_mapVals, hw]; rfl, ?_⟩
    dsimp only
    split <;> exact ⟨rfl, rfl, rfl⟩
  · exact ⟨x, q, .refl h, hq, rfl, rfl, le_refl _, .refl q⟩

/-- An entropy engine that faults is a matter of the journal and the units (R419, R422). -/
theorem coded_engineFaultAs (flags e f k o d : Nat) (s : State) : coded (engineFaultAs flags 1 e f k o d s) = coded s := by
  unfold engineFaultAs
  extract_lets s1 key recent s2
  split <;> rfl

theorem coded_checkFault (e : Nat) (u : UnitRef) (owner : Nat) (s : State) : coded (checkFault e u owner s) = coded s := by
  unfold checkFault
  split
  · exact coded_engineFaultAs ..
  · exact coded_engineFaultAs ..

end

/-- A record lies in the unit's columns; a row is one of the unit's rows. -/
def unitHas (u : UnitRef) (r : CtuRec) : Bool := decide (u.colA ≤ r.ctuX) && decide (r.ctuX < u.colB)
def unitSpans (u : UnitRef) (i : Nat) : Bool := decide (u.rowA ≤ i) && decide (i < u.rowB)

/-- The records of a unit that wait in the Lagoon (R134). -/
def unitReads (q : Pic) (u : UnitRef) : List CtuRec := (q.rows.filter (fun w => unitSpans u w.1)).flatMap (fun w => w.2.records.filter (unitHas u))

/-- A record whose CHECK does not match is among them (R136). -/
def unitBad (q : Pic) (u : UnitRef) : Bool := (unitReads q u).any (fun r => !(recordOk r))

/-- What an engine changes of a picture when it codes a unit: the rows' records, what it holds of the unit, and the unit's end (R134 to R136). -/
structure UnitCoded (u : UnitRef) (o : EntropyOut) (q p : Pic) : Prop where
  unit : ∃ v, p.units.get? (unitKey u) = some v ∧ v.bytes = (q.units.getD (unitKey u) {}).bytes ++ o.bytes ∧ v.failed = ((q.units.getD (unitKey u) {}).failed || unitBad q u)
  rows : ∀ i w, q.rows.get? i = some w → ∃ v, p.rows.get? i = some v ∧ v.next = w.next ∧ v.mode = w.mode ∧
    v.records = if unitSpans u i then w.records.filter (fun r => !unitHas u r) else w.records
  ended : unitBad q u = true ∨ unitWritten q u = true → p.unitsDone.getD u.slice [] = q.unitsDone.getD u.slice [] ++ [u.idx]
  goesOn : unitBad q u = false → unitWritten q u = false → p.unitsDone = q.unitsDone

theorem UnitCoded.counted {u : UnitRef} {o : EntropyOut} {q p p' : Pic} (h : UnitCoded u o q p) (hc : Counted p p') : UnitCoded u o q p' where
  unit := hc.units ▸ h.unit
  rows i w hw := by
    obtain ⟨v, hv, hnext, hmode, hrec⟩ := h.rows i w hw
    obtain ⟨v', hv', hnext', hmode', hrec'⟩ := hc.rows i v hv
    exact ⟨v', hv', hnext'.trans hnext, hmode'.trans hmode, hrec'.trans hrec⟩
  ended := hc.unitsDone ▸ h.ended
  goesOn := hc.unitsDone ▸ h.goesOn

/-- An engine codes a unit in its channel alone (R133 to R136). -/
theorem codeUnit_onlyChan {s : State} {u : UnitRef} {x : Chan} {q : Pic} (e : Nat) (o : EntropyOut) (h : chanAt s u.chan = some x) (hq : x.run.pics.get? u.pic = some q) :
    ∃ y p, OnlyChan u.chan y s (codeUnit e u o s) ∧ y.run.pics.get? u.pic = some p ∧ y.st = x.st ∧ y.run.queue = x.run.queue ∧ x.run.rowsFreed ≤ y.run.rowsFreed ∧ UnitCoded u o q p := by
  unfold codeUnit
  rw [h]
  dsimp -zeta only
  rw [hq]
  dsimp -zeta only
  extract_lets mine inside read bad poisoned rows ll old unit q' s1 s2
  have hcoded : UnitCoded u o q q' := by
    refine ⟨⟨unit, fmap_get?_set_self .., rfl, rfl⟩, fun i w hw => ⟨_, by rw [fmap_get?_mapVals, hw]; rfl, ?_⟩, fun h => ?_, fun hb hw => ?_⟩
    · dsimp only
      rw [show inside i = unitSpans u i from rfl]
      split <;> exact ⟨rfl, rfl, rfl⟩
    · exact (congrArg (FMap.getD · u.slice []) (if_pos (Bool.or_eq_true_iff.mpr h))).trans (fmap_getD_set_self ..)
    · exact if_neg (by rw [show bad = false from hb, hw]; exact Bool.false_ne_true)
  have hset := modChan_onlyChan h (fun x => { x with run.pics := x.run.pics.set u.pic q' })
  obtain ⟨y, p, hy, hp, hst, hqueue, hfreed, hcount⟩ := settleRows_counts hset.chan (fmap_get?_set_self ..)
  refine ⟨y, p, OnlyChan.coded (hset.trans hy) ?_, hp, hst, hqueue, hfreed, hcoded.counted hcount⟩
  have hread : Architecture.coded s2 = Architecture.coded s1 := by
    unfold s2
    split <;> rfl
  split
  · exact (coded_checkFault ..).trans hread
  · exact hread

end Sys2Proof.Architecture

/-! PROOFS. The slice queue (R140), and what a slice is checked against and handed to on its way there: the partner's check, output flows, confidence decoders (R140, R143, R228, R399). -/

namespace Sys2Proof.Architecture

open Sys2Proof.Machine Sys2Proof.Laws Sys2Proof.CommandProtocol

/-! Slices leave the queue (R140). -/

section
variable {c n : Nat} {x y : Chan} {s t u : State}

theorem settleSlices_waits (h : chanAt s c = some x) (hw : ∀ e, x.run.queue.head? = some e → sliceEnded s e = false) : settleSlices c s = s := by
  unfold settleSlices
  rw [h]
  refine if_pos ?_
  cases hq : x.run.queue with
  | nil => rfl
  | cons e r => rw [List.takeWhile_cons_of_neg (by simp [hw e (by rw [hq]; rfl)])]; rfl

/-- A channel whose slices at the front of the queue have ended as `ended` tells. -/
def emittedChan (ended : SliceQ → Bool) (x : Chan) : Chan :=
  { x with run.queue := x.run.queue.dropWhile ended, run.emitted := x.run.emitted + ((x.run.queue.takeWhile ended).filter (fun e => !e.marker)).length }

/-- While no slice of the queue ends the stream, those that have ended leave it in their channel alone. -/
theorem settleSlices_onlyChan (h : chanAt s c = some x) (he : ∀ e ∈ x.run.queue, e.eob = false) : OnlyChan c (emittedChan (sliceEnded s) x) s (settleSlices c s) := by
  have hsplit := List.takeWhile_append_dropWhile (p := sliceEnded s) (l := x.run.queue)
  unfold settleSlices
  rw [h]
  dsimp -zeta only
  extract_lets gone slices s1 s2
  split
  · next hnone =>
    have hgone : x.run.queue.takeWhile (sliceEnded s) = [] := List.isEmpty_iff.mp hnone
    rw [hgone, List.nil_append] at hsplit
    have hx : emittedChan (sliceEnded s) x = x := by
      unfold emittedChan
      rw [hgone, hsplit]
      rfl
    rw [hx]
    exact .refl h
  · have hdrop : x.run.queue.drop gone.length = x.run.queue.dropWhile (sliceEnded s) := by
      conv_lhs => rw [← hsplit]
      exact List.drop_left
    have hnoEnd : gone.any (fun q => q.eob) = false := List.any_eq_false.mpr fun e hmem => by simp [he e (List.takeWhile_subset _ hmem)]
    rw [if_neg (by simp [hnoEnd])]
    have hs1 : OnlyChan c (emittedChan (sliceEnded s) x) s s1 := modChan_gives h (by rw [hdrop]; rfl)
    refine hs1.coded ?_
    unfold s2
    split
    · rfl
    · exact foldl_view (v := coded) (fun s (q : SliceQ) => (rfl : coded (emit s (.slice c q.picture q.slice q.check)) = coded s)) _ _

end

/-! The partner's check of a slice (R399 to R401). -/

theorem coded_faultYield (s : State) : coded (faultYield s) = coded s := by
  unfold faultYield pairYield
  split
  · split
    · exact coded_cwSend ..
    · rfl
  · rfl

theorem coded_compareSlice (own other : SliceCheckEntry) (s : State) : coded (compareSlice own other s) = coded s := by
  unfold compareSlice
  extract_lets p s1
  have hs1 : coded s1 = coded s := rfl
  split
  · exact hs1
  · split
    · split
      · exact (coded_faultYield _).trans hs1
      · exact (coded_diverge _).trans hs1
    · split
      · split
        · exact (coded_diverge _).trans hs1
        · exact hs1
      · split
        · exact (coded_diverge _).trans hs1
        · exact hs1

theorem coded_compareChecks (s : State) : coded (compareChecks s) = coded s := by
  unfold compareChecks
  split
  · rfl
  · exact (foldl_view (fun s (e : SliceCheckEntry × SliceCheckEntry) => coded_compareSlice e.1 e.2 s) _ _).trans (coded_pair ..)

theorem coded_sendCheck (e : SliceCheckEntry) (s : State) : coded (sendCheck e s) = coded s := by
  unfold sendCheck
  split
  · exact (coded_compareChecks _).trans ((coded_pair ..).trans (coded_cwSend ..))
  · rfl

/-! Output flows and confidence decoders (R140, R143, R228). -/

theorem coded_sliceGroups (c : Nat) (x : Chan) (k : Ctl) (q : Pic) (i : Nat) (sizes : List Nat) (ex : TsExtra) (due : Rat) (last eob : Bool) (s : State) :
    coded (sliceGroups c x k q i sizes ex due last eob s).1 = coded s := by
  refine coded_of_besideGroups (besideGroups_foldl_addGroup (fun a w => ?_) _ _)
  split
  · rfl
  · exact besideGroups_addGroup ..

/-- From s to t decoders have been fed and the partner told, messages have gone out, and no channel and no output has changed. -/
structure Fed (s t : State) : Prop where
  coded : Architecture.coded t = Architecture.coded s
  outbox : s.outbox ⊆ t.outbox

theorem Fed.refl (s : State) : Fed s s := ⟨rfl, List.Subset.refl _⟩

theorem Fed.trans {s t u : State} (h : Fed s t) (g : Fed t u) : Fed s u := ⟨g.coded.trans h.coded, List.Subset.trans h.outbox g.outbox⟩

theorem modDec_fed (n : Nat) (g : Decoder → Decoder) (s : State) : Fed s (modDec s n g) := ⟨rfl, List.Subset.refl _⟩

theorem sendInput_fed (e : InputEntry) (s : State) : Fed s (sendInput e s) := by
  refine ⟨coded_sendInput .., ?_⟩
  unfold sendInput cwSend cwEmit
  split
  · split
    · dsimp only
      split <;> exact List.subset_cons_self ..
    · exact List.Subset.refl _
  · exact List.Subset.refl _

theorem closeAu_fed (n : Nat) (present : Option Instant) (m : Option Nat) (s : State) : Fed s (closeAu n present m s) := by
  unfold closeAu pushAu
  split
  · exact .refl s
  · split
    · exact .refl s
    · split
      · exact modDec_fed ..
      · exact ((modDec_fed ..).trans (modDec_fed ..)).trans (sendInput_fed ..)

theorem feedConfidence_fed (c m : Nat) (first last : Bool) (nals : List (List Byte)) (s : State) : Fed s (feedConfidence c m first last nals s) := by
  refine foldl_keeps (P := Fed s) (fun t e ht => ht.trans ?_) _ (.refl s)
  extract_lets t1
  have hjoin : Fed t t1 := by
    refine Fed.trans (t := if first then modDec t e.1 (fun d => { d with part := none }) else t) ?_ (modDec_fed ..)
    split
    · exact modDec_fed ..
    · exact .refl t
  split
  · exact hjoin.trans (closeAu_fed ..)
  · exact hjoin

end Sys2Proof.Architecture

/-! PROOFS. The assembly of a slice: its bytes, its substitute, its place in the slice queue, and the picture it completes (R136 to R139, R141, R151, R152, R160). -/

namespace Sys2Proof.Architecture

open Sys2Proof.Machine Sys2Proof.Laws Sys2Proof.CommandProtocol

/-- The emitter may take slice j of picture n of channel c, and these are its channel, controller, picture, place and rate control (R136, R137). -/
structure Assembling (s : State) (c : Nat) (x : Chan) (k : Ctl) (q : Pic) (sl : SliceGeom) (rc : RcCfg) (n j : Nat) : Prop where
  encodes : mayEncode s = true
  chan : chanAt s c = some x
  codes : coding x = true
  goesOn : x.run.aborting = false
  ctl : ctlOf s x = some k
  next : x.run.nextSlice = (n, j)
  pic : x.run.pics.get? n = some q
  slice : (slicesOf k.prof k.g q.lossless)[j]? = some sl
  rate : q.coding.rc = some rc

/-! The slice itself (R136 to R138). -/

section
variable (k : Ctl) (q : Pic) (sl : SliceGeom) (j : Nat) (i : SliceIn)

/-- Units of the slice; the NAL unit as it is assembled, and as it is read back. -/
def unitCount : Nat := (unitsOf k.prof k.g q.lossless sl).length
def builtNal : List Byte := sliceNalBytes k.prof.codec q (codedUnits q j (unitCount k q sl)) i
def readNal : List Byte := i.readBack.getD (builtNal k q sl j i)

/-- The slice meets R137. -/
def sliceOk : Bool :=
  !((List.range (unitCount k q sl)).any (fun a => (q.units.getD (j * 256 + a) {}).failed || (q.units.getD (j * 256 + a) {}).poisoned)) &&
    (readNal k q sl j i).length == (builtNal k q sl j i).length && noEmulation ((readNal k q sl j i).drop 2) && !i.poisoned

/-- Bytes of the slice, or of its substitute. -/
def sliceSize : Nat := if sliceOk k q sl j i then (readNal k q sl j i).length else i.substBytes

/-- The slice is the last of its picture. -/
def isLastSlice : Bool := decide ((slicesOf k.prof k.g q.lossless).length ≤ j + 1)

theorem sliceOk_eq : (!((List.range (unitCount k q sl)).map (fun a => q.units.getD (j * 256 + a) {})).any (fun u => u.failed) && (readNal k q sl j i).length == (builtNal k q sl j i).length &&
    noEmulation ((readNal k q sl j i).drop 2) && !i.poisoned && !((List.range (unitCount k q sl)).map (fun a => q.units.getD (j * 256 + a) {})).any (fun u => u.poisoned)) = sliceOk k q sl j i := by
  have hor : ∀ (l : List Nat) (f g : Nat → Bool), l.any (fun a => f a || g a) = (l.any f || l.any g) := fun l f g => by
    induction l with
    | nil => rfl
    | cons a l ih => rw [List.any_cons, List.any_cons, List.any_cons, ih]; ac_rfl
  unfold sliceOk
  rw [hor, List.any_map, List.any_map, Bool.not_or]
  simp only [Function.comp_def]
  ac_rfl

/-- All units of the slice have ended. -/
def unitsEnded : Bool := (List.range (unitCount k q sl)).all (fun a => (q.unitsDone.getD j []).contains a)

theorem unitsEnded_iff : unitsEnded k q sl j = true ↔ ∀ a, a < unitCount k q sl → a ∈ q.unitsDone.getD j [] := by
  simp [unitsEnded]

end

/-! A slice that fails R137 (R139). -/

/-- A channel with one more substitute: counted, its source asserted, an IDR forced, the loss flag with CAUSE 2 noted from picture n on. -/
def substitutedChan (n first : Nat) (x : Chan) : Chan :=
  { x with
    counters.substSlices := inc32 x.counters.substSlices, sliceFault := true,
    run := { x.run with forceIdr := true, substSince := some (x.run.substSince.getD n),
                        pics := x.run.pics.mapVals (fun m q => if n ≤ m ∧ !(q.loss.any (fun l => l.2.2.1 == 2)) then { q with loss := q.loss ++ [(x.run.substSince.getD n, if m = n then first else 0, 2, 0xFF)] } else q) } }

/-- A channel whose slice meets R137, or whose slice fails it. -/
def judgedChan (ok : Bool) (n first : Nat) (x : Chan) : Chan := if ok then x else substitutedChan n first x

theorem judgedChan_cfg (ok : Bool) (n first : Nat) (x : Chan) : (judgedChan ok n first x).cfg = x.cfg := by
  unfold judgedChan
  split <;> rfl

/-- Of what the queue and the bucket take, a substitute changes nothing (R139). -/
theorem judgedChan_stream (ok : Bool) (n first : Nat) (x : Chan) : (judgedChan ok n first x).st = x.st ∧ (judgedChan ok n first x).run.queue = x.run.queue ∧
    (judgedChan ok n first x).run.v = x.run.v ∧ (judgedChan ok n first x).run.u = x.run.u ∧ (judgedChan ok n first x).run.vPic = x.run.vPic ∧
    (judgedChan ok n first x).counters.checks = x.counters.checks := by
  unfold judgedChan
  split <;> exact ⟨rfl, rfl, rfl, rfl, rfl, rfl⟩

section
variable {c n j : Nat} {x y : Chan} {q : Pic} {s t : State}

theorem ctlOf_cfg {k : Ctl} (h : ctlOf s x = some k) : x.cfg = some k.cfg := by
  unfold ctlOf at h
  split at h
  · next hcfg _ => cases h; exact hcfg
  · cases h

theorem sliceFails_onlyChan (h : chanAt s c = some x) (first owner : Nat) (recordsOk poisonNow poisonRead' : Bool) :
    OnlyChan c (substitutedChan n first x) s (sliceFails c n first owner recordsOk poisonNow poisonRead' s) := by
  have hsub : OnlyChan c (substitutedChan n first x) s (substitute c n first s) := modChan_onlyChan h (substitutedChan n first)
  unfold sliceFails
  extract_lets s1 s2
  have hjournal : coded s2 = coded s1 := by
    unfold s2
    split
    · rfl
    · split <;> rfl
  refine hsub.coded ?_
  split
  · unfold injectionDone
    exact (completeCmd_ends ..).coded.trans hjournal
  · exact hjournal

theorem judged_onlyChan (h : chanAt s c = some x) (ok : Bool) (first owner : Nat) (recordsOk poisonNow poisonRead' : Bool) :
    OnlyChan c (judgedChan ok n first x) s (if ok then s else sliceFails c n first owner recordsOk poisonNow poisonRead' s) := by
  unfold judgedChan
  split
  · exact .refl h
  · exact sliceFails_onlyChan h ..

/-- A substitute adds at most a loss flag to the picture. -/
theorem judgedChan_pic (h : x.run.pics.get? n = some q) (ok : Bool) (first : Nat) :
    ∃ l, (judgedChan ok n first x).run.pics.get? n = some { q with loss := l } ∧ (ok = true → l = q.loss) := by
  unfold judgedChan
  split
  · exact ⟨q.loss, h, fun _ => rfl⟩
  · next hbad =>
    simp only [substitutedChan, fmap_get?_mapVals, h, Option.map_some]
    split
    · exact ⟨_, rfl, fun hok => absurd hok hbad⟩
    · exact ⟨q.loss, rfl, fun _ => rfl⟩

end

/-! The slice joins its queue (R140, R144, R151, R152, R160). -/

/-- What the emitter has settled of a slice when it places it: its number, whether it is whole and whether it is the picture's last, profile, configuration and rate control,
the picture as it stands, its bits and filler with this slice, what rides with the group, and the entry of the queue. -/
structure Placing where
  n : Nat
  j : Nat
  ok : Bool
  last : Bool
  prof : EncProfile
  cfg : ChanCfg
  rc : RcCfg
  pic : Pic
  bits : Nat
  before : Nat
  filler : Nat × Bool
  times : Run
  entry : SliceQ

section
variable (P : Placing) (y : Chan)

/-- The picture with one more slice. -/
def Placing.picAfter : Pic := { P.pic with slices := P.j + 1, bits := P.bits, bitsBeforeLast := P.before }

/-- The channel once it is known what rides with the slice's group (R144). -/
def Placing.timed : Chan := { y with run := { y.run with lastPcr := P.times.lastPcr, lastPat := P.times.lastPat, st302Next := P.times.st302Next } }

/-- The channel with the slice at the end of its queue. -/
def Placing.joined : Chan :=
  { y with
    run := { y.run with
      nextSlice := if P.last then (P.n + 1, 0) else (P.n, P.j + 1), queueWait := false,
      lastBp := if P.j = 0 && isIrap P.pic then P.n else y.run.lastBp, lastAps := if P.j = 0 && newAlf P.prof P.pic y.run.lastAps then P.pic.alf else y.run.lastAps,
      pics := y.run.pics.modify P.n (fun q => { q with slices := P.j + 1, bits := P.bits, bitsBeforeLast := P.before }),
      queue := y.run.queue ++ [P.entry] },
    counters.checks := if P.ok then (y.counters.checks ++ [(P.n, P.j, P.entry.check)]).drop (y.counters.checks.length - 63) else y.counters.checks }

def Placing.queued : Chan := P.joined (P.timed y)

/-- The channel of a whole picture: the bucket is settled (R151, R152, R161, R171). -/
def Placing.completed : Chan :=
  let q := P.picAfter
  let b := bucketAfter P.cfg P.rc P.n y.run.v y.run.u q.bits P.filler.1
  let beyond := P.rc.hrd && (decide ((P.rc.cpbSize : Int) < y.run.v + (q.bits : Int)) || P.filler.2)
  { y with
    run := { y.run with vPrev := y.run.v, uPrev := y.run.u, v := b.1, u := b.2, vPic := P.n + 1,
                        pics := y.run.pics.set P.n { q with filler := some P.filler.1, violated := q.violated || beyond } },
    counters := { y.counters with qpAvg := meanUp (sumBy (fun e => e.2.qpSum) q.rows) (sumBy (fun e => e.2.counted) q.rows), vDev := b.1 - (vTargetBits P.rc : Int),
                                  hrdViolations := if beyond && !q.violated then inc32 y.counters.hrdViolations else y.counters.hrdViolations } }

/-- The channel once the slice is placed: after its last slice the picture is whole. -/
def Placing.placed : Chan := if P.last then P.completed (P.queued y) else P.queued y

end

section
variable {c n : Nat} {x y : Chan} {q : Pic} {s t : State} {P : Placing}

theorem finishPicture_outbox (f : Nat) (short : Bool) (s : State) : (finishPicture c n f short s).outbox = s.outbox := by
  unfold finishPicture
  split
  · rfl
  · split
    · split <;> rfl
    · rfl

/-- Whatever the slice, it joins the queue's end, and the next slice is the one after it (R137, R140). -/
theorem Placing.placed_queue : (P.placed y).st = y.st ∧ (P.placed y).run.queue = y.run.queue ++ [P.entry] ∧
    (P.placed y).run.nextSlice = if P.last then (P.n + 1, 0) else (P.n, P.j + 1) := by
  unfold Placing.placed
  split
  · next h => exact ⟨rfl, rfl, if_pos h⟩
  · next h => exact ⟨rfl, rfl, if_neg h⟩

/-- The checks that a channel keeps with one more slice: the latest 64, those of substitutes left out (Table 16.10). -/
theorem Placing.placed_checks : (P.placed y).counters.checks =
    if P.ok then (y.counters.checks ++ [(P.n, P.j, P.entry.check)]).drop (y.counters.checks.length - 63) else y.counters.checks := by
  unfold Placing.placed
  split <;> rfl

/-- The latest 64 of a list with one more entry at its end. -/
theorem getLast?_latest {α : Type} (l : List α) (a : α) : ((l ++ [a]).drop (l.length - 63)).getLast? = some a := by
  rw [List.drop_append_of_le_length (by omega), List.getLast?_concat]

theorem Placing.placed_checks_length : (P.placed y).counters.checks.length ≤ max 64 y.counters.checks.length := by
  rw [P.placed_checks]
  split
  · rw [List.length_drop, List.length_append, List.length_singleton]
    omega
  · exact le_max_right ..

theorem Placing.placed_faults : (P.placed y).counters.substSlices = y.counters.substSlices ∧ (P.placed y).run.forceIdr = y.run.forceIdr ∧ (P.placed y).sliceFault = y.sliceFault := by
  unfold Placing.placed
  split <;> exact ⟨rfl, rfl, rfl⟩

theorem Placing.queued_pic (h : y.run.pics.get? P.n = some P.pic) : (P.queued y).run.pics.get? P.n = some P.picAfter :=
  (fmap_get?_modify_self ..).trans (by rw [show (P.timed y).run.pics.get? P.n = some P.pic from h]; rfl)

/-- The slice's check and groups go out, and the slice joins the queue in its channel alone (R140, R399). -/
theorem Placing.queued_onlyChan (h : OnlyChan c y s t) (e : SliceCheckEntry) (x : Chan) (k : Ctl) (q : Pic) (i : Nat) (sizes : List Nat) (ex : TsExtra) (due : Rat) (last eob : Bool) :
    OnlyChan c (P.queued y) s (modChan (sliceGroups c x k q i sizes ex due last eob (modChan (sendCheck e t) c P.timed)).1 c P.joined) := by
  have hchecked : OnlyChan c y s (sendCheck e t) := h.coded (coded_sendCheck ..)
  have hgrouped : OnlyChan c (P.timed y) s (sliceGroups c x k q i sizes ex due last eob (modChan (sendCheck e t) c P.timed)).1 :=
    (hchecked.trans (modChan_onlyChan hchecked.chan P.timed)).coded (coded_sliceGroups ..)
  exact hgrouped.trans (modChan_onlyChan hgrouped.chan P.joined)

/-- The last slice completes its picture in its channel alone (R151, R152). -/
theorem Placing.placed_onlyChan (h : OnlyChan c (P.queued y) s t) (hcfg : y.cfg = some P.cfg) (hq : y.run.pics.get? P.n = some P.pic) (hrc : P.pic.coding.rc = some P.rc) :
    OnlyChan c (P.placed y) s (if P.last then finishPicture c P.n P.filler.1 P.filler.2 t else t) := by
  unfold Placing.placed
  split
  · refine h.trans ?_
    unfold finishPicture
    rw [h.chan]
    dsimp -zeta only
    rw [show (P.queued y).cfg = some P.cfg from hcfg, P.queued_pic hq]
    dsimp -zeta only
    rw [show P.picAfter.coding.rc = some P.rc from hrc]
    exact modChan_gives h.chan rfl
  · exact h

/-- The picture has one more slice and its bits; after the last slice it has its filler (R151). -/
theorem Placing.placed_pic (h : y.run.pics.get? P.n = some P.pic) : ∃ p, (P.placed y).run.pics.get? P.n = some p ∧ p.slices = P.j + 1 ∧ p.bits = P.bits ∧
    (P.last = true → p.filler = some P.filler.1) := by
  unfold Placing.placed
  split
  · exact ⟨_, fmap_get?_set_self .., rfl, rfl, fun _ => rfl⟩
  · next hl => exact ⟨_, P.queued_pic h, rfl, rfl, fun h => absurd h hl⟩

/-- The bucket is settled after the last slice, and not before (R152). -/
theorem Placing.placed_bucket_last (h : P.last = true) : (P.placed y).run.vPic = P.n + 1 ∧
    ((P.placed y).run.v, (P.placed y).run.u) = bucketAfter P.cfg P.rc P.n y.run.v y.run.u P.bits P.filler.1 := by
  unfold Placing.placed
  rw [if_pos h]
  exact ⟨rfl, rfl⟩

theorem Placing.placed_bucket_within (h : P.last = false) : (P.placed y).run.v = y.run.v ∧ (P.placed y).run.u = y.run.u ∧ (P.placed y).run.vPic = y.run.vPic := by
  unfold Placing.placed
  rw [if_neg (by simp [h])]
  exact ⟨rfl, rfl, rfl⟩

end

/-! The step (R136 to R140). -/

/-- The sizes of a group's NAL units, filler apart (R152). -/
theorem sumBy_group (pre post : List Nal) (a : Nal) (codec f : Nat) :
    sumBy (fun (e : Nal) => e.size) (pre ++ [a] ++ (if f = 0 then [] else [fillerNal codec f]) ++ post) - (if f = 0 then 0 else (fillerNal codec f).size) =
      sumBy (fun (e : Nal) => e.size) (pre ++ post) + a.size := by
  simp only [sumBy_eq, List.map_append, List.sum_append, List.map_cons, List.map_nil, List.sum_singleton]
  split
  · simp only [List.map_nil, List.sum_nil]
    omega
  · simp only [List.map_cons, List.map_nil, List.sum_singleton]
    omega

section
variable {s : State} {c n j : Nat} {x : Chan} {k : Ctl} {q : Pic} {sl : SliceGeom} {rc : RcCfg}

/-- What the emitter has settled of slice j of picture n, and the NAL units of its group, in order (R138 to R141, R151). -/
structure Settled (s : State) (c : Nat) (x : Chan) (k : Ctl) (q : Pic) (sl : SliceGeom) (rc : RcCfg) (n j : Nat) (i : SliceIn) (P : Placing) (nals : List Nal) : Prop where
  place : P.n = n ∧ P.j = j ∧ P.ok = sliceOk k q sl j i ∧ P.last = isLastSlice k q j ∧ P.cfg = k.cfg ∧ P.rc = rc
  pic : ∃ l, P.pic = { q with loss := l } ∧ (judgedChan P.ok n sl.rowA x).run.pics.get? n = some P.pic
  entry : P.entry.picture = n ∧ P.entry.slice = j ∧ P.entry.due = emission k.g q sl ∧ P.entry.substitute = !P.ok ∧
    P.entry.check = (if P.ok then sliceCheckValue c n j (readNal k q sl j i) else 0) ∧ P.entry.nals = nals.map (fun a => a.size) ∧ P.entry.eob = (P.last && x.run.drainAfter == some n)
  filler : P.filler = if P.last then pictureFiller k.cfg rc n x.run.v P.bits else (0, false)
  bits : P.bits = q.bits + 8 * (sumBy (fun (a : Nal) => a.size) nals - if P.filler.1 = 0 then 0 else (fillerNal k.prof.codec P.filler.1).size)
  whole : P.ok = true → nals = (if j = 0 then prefixNals c k rc q x.run.v x.run.lastBp x.run.lastAps i.sizes else []) ++
    [sliceNal k.prof.codec q j (sliceSize k q sl j i) (entryPoints i.header (codedUnits q j (unitCount k q sl))) .coded] ++
    (if P.filler.1 = 0 then [] else [fillerNal k.prof.codec P.filler.1]) ++ (if P.last then suffixNals s k q else []) ++ if P.entry.eob then [eobNal k.prof.codec] else []
  failed : P.ok = false → ∃ a ∈ nals, a.kind = .slice ∧ a.size = i.substBytes

/-- Whether its units have ended and its queue has room decides SLICE_ASSEMBLY; a slice that is placed changes its channel alone (R136, R140, R160). -/
theorem assembleSlice_places (i : SliceIn) (h : Assembling s c x k q sl rc n j) :
    ∃ w P nals, assembleSlice c i s = (if !unitsEnded k q sl j then s else if queueFull s c x (sliceSize k q sl j i) then waitQueue c s else settleSlices c w) ∧
      OnlyChan c (P.placed (judgedChan P.ok n sl.rowA x)) s w ∧ Out.nals c n nals ∈ w.outbox ∧ Settled s c x k q sl rc n j i P nals := by
  obtain ⟨hm, hx, hcodes, hgoes, hk, hnext, hq, hsl, hrc⟩ := h
  unfold assembleSlice
  rw [if_neg (by simp [hm]), hx]
  dsimp -zeta only
  rw [hk, hnext]
  dsimp -zeta only
  rw [hq]
  dsimp -zeta only
  extract_lets n' j' slices codec last eob lastGroup
  rw [hsl, hrc]
  dsimp -zeta only
  extract_lets units parts built nal outs recordsOk poisoned ok size s1 q1 check pre post bits before nals sizes due s2 s3 s5 s6 s7
  have hok : ok = sliceOk k q sl j i := sliceOk_eq ..
  have hsize : size = sliceSize k q sl j i := congrArg (fun b : Bool => if b then (readNal k q sl j i).length else i.substBytes) hok
  obtain ⟨z, hz⟩ : ∃ z, judgedChan ok n sl.rowA x = z := ⟨_, rfl⟩
  have hjudged : OnlyChan c z s s1 := hz ▸ judged_onlyChan hx ..
  obtain ⟨l, hpic, hl⟩ := judgedChan_pic hq ok sl.rowA
  rw [hz] at hpic
  have hq1 : q1 = { q with loss := l } := by
    unfold q1
    rw [hjudged.chan, Option.bind_some, hpic, Option.getD_some]
  have hwhole : ok = true → q1 = q ∧ s1 = s := fun h => ⟨by rw [hq1, hl h], if_pos h⟩
  clear_value s1 q1
  let ex := tsExtras ((chanAt s2 c).getD x) (j == 0) due (n == 0)
  let g := sliceGroups c x k q1 j sizes ex.1 due last eob s3
  let P : Placing := {
    n := n, j := j, ok := ok, last := last, prof := k.prof, cfg := k.cfg, rc := rc, pic := q1, bits := bits, before := before,
    filler := if last then pictureFiller k.cfg rc n x.run.v bits else (0, false), times := ex.2,
    entry := { picture := n, slice := j, due := due, waited := x.run.queueWait, nals := sizes, sliceAt := pre.length, rowA := sl.rowA, extra := ex.1, check := check,
               substitute := !ok, firstOfRow := sl.first, eob := eob, groups := g.2 } }
  have hqueued : OnlyChan c (P.queued z) s s5 := P.queued_onlyChan hjudged ..
  have hplaced : OnlyChan c (P.placed z) s s7 :=
    P.placed_onlyChan (hqueued.coded (u := s6) rfl) ((congrArg Chan.cfg hz).symm.trans ((judgedChan_cfg ok n sl.rowA x).trans (ctlOf_cfg hk)))
      (hpic.trans (congrArg some hq1.symm)) ((congrArg (fun p => p.coding.rc) hq1).trans hrc)
  have hfed := feedConfidence_fed c n (j == 0) last (pre.filterMap wholeBytes ++ (if ok then [nal] else []) ++ post.filterMap wholeBytes) s7
  have hout : Out.nals c n nals ∈ s7.outbox := by
    unfold s7
    split
    · rw [finishPicture_outbox]
      exact List.mem_cons_self
    · exact List.mem_cons_self
  refine ⟨_, P, nals, ?_, (congrArg P.placed hz ▸ hplaced).coded hfed.coded, hfed.outbox hout, ?_⟩
  · rw [hcodes, hgoes, ← hsize]
    rfl
  · refine ⟨⟨rfl, rfl, hok, rfl, rfl, rfl⟩, ⟨l, hq1, ?pic⟩, ⟨rfl, rfl, ?due, rfl, rfl, rfl, rfl⟩, rfl, ?bits, fun h => ?whole, fun h => ?failed⟩
    case pic => rw [hz, hpic, ← hq1]
    case due => exact (congrArg (fun p => emission k.g p sl) hq1 :)
    case bits =>
      rw [sumBy_group]
      exact congrArg (fun p => p.bits + 8 * (sumBy (fun (e : Nal) => e.size) (pre ++ post) + size)) hq1
    case whole =>
      obtain ⟨hq', hs'⟩ := hwhole h
      unfold nals pre post
      rw [hq', hs', ← hsize, if_pos h, ← List.append_assoc]
      rfl
    case failed =>
      exact ⟨_, List.mem_append_left _ (List.mem_append_left _ (List.mem_append_right _ (List.mem_singleton_self _))), rfl, if_neg (by simp [show ok = false from h])⟩

/-- Before the last slice the bucket stays (R152). -/
theorem Placing.bucket_within {P : Placing} (n first : Nat) (x : Chan) (hlast : P.last = false) :
    (P.placed (judgedChan P.ok n first x)).run.v = x.run.v ∧ (P.placed (judgedChan P.ok n first x)).run.u = x.run.u ∧ (P.placed (judgedChan P.ok n first x)).run.vPic = x.run.vPic := by
  obtain ⟨-, -, hv, hu, hvPic, -⟩ := judgedChan_stream P.ok n first x
  obtain ⟨hv', hu', hvPic'⟩ := P.placed_bucket_within (y := judgedChan P.ok n first x) hlast
  exact ⟨hv'.trans hv, hu'.trans hu, hvPic'.trans hvPic⟩

section
variable {i : SliceIn} {P : Placing} {nals : List Nal} (h : Settled s c x k q sl rc n j i P nals)
include h

/-- A whole slice brings its check, and no fault (R138). -/
theorem Settled.checked (hok : P.ok = true) : (P.placed (judgedChan P.ok n sl.rowA x)).counters.checks.getLast? = some (n, j, sliceCheckValue c n j (readNal k q sl j i)) ∧
    (P.placed (judgedChan P.ok n sl.rowA x)).counters.substSlices = x.counters.substSlices ∧ (P.placed (judgedChan P.ok n sl.rowA x)).run.forceIdr = x.run.forceIdr := by
  obtain ⟨rfl, rfl, -⟩ := h.place
  obtain ⟨-, -, -, -, hcheck, -⟩ := h.entry
  rw [show judgedChan P.ok P.n sl.rowA x = x from if_pos hok]
  refine ⟨?_, P.placed_faults.1, P.placed_faults.2.1⟩
  rw [P.placed_checks, if_pos hok, getLast?_latest, hcheck, if_pos hok]

/-- A substitute is counted and shown, forces an IDR, and brings no check (R138, R139). -/
theorem Settled.substituted (hok : P.ok = false) : (P.placed (judgedChan P.ok n sl.rowA x)).counters.substSlices = inc32 x.counters.substSlices ∧
    (P.placed (judgedChan P.ok n sl.rowA x)).run.forceIdr = true ∧ (P.placed (judgedChan P.ok n sl.rowA x)).sliceFault = true ∧
    (P.placed (judgedChan P.ok n sl.rowA x)).counters.checks = x.counters.checks := by
  obtain ⟨rfl, rfl, -⟩ := h.place
  have hbad : ¬ P.ok = true := Bool.eq_false_iff.mp hok
  rw [show judgedChan P.ok P.n sl.rowA x = substitutedChan P.n sl.rowA x from if_neg hbad]
  obtain ⟨hsubst, hforce, hfault⟩ := P.placed_faults (y := substitutedChan P.n sl.rowA x)
  exact ⟨hsubst, hforce, hfault, P.placed_checks.trans (if_neg hbad)⟩

/-- After the last slice the bucket is settled with the picture's bits and filler (R152). -/
theorem Settled.bucket_last (hlast : P.last = true) : P.filler = pictureFiller k.cfg rc n x.run.v P.bits ∧ (P.placed (judgedChan P.ok n sl.rowA x)).run.vPic = n + 1 ∧
    ((P.placed (judgedChan P.ok n sl.rowA x)).run.v, (P.placed (judgedChan P.ok n sl.rowA x)).run.u) =
      bucketAfter k.cfg rc n x.run.v x.run.u P.bits (pictureFiller k.cfg rc n x.run.v P.bits).1 := by
  obtain ⟨rfl, rfl, -, -, hcfg, rfl⟩ := h.place
  have hfiller : P.filler = pictureFiller k.cfg P.rc P.n x.run.v P.bits := h.filler.trans (if_pos hlast)
  obtain ⟨-, -, hv, hu, -⟩ := judgedChan_stream P.ok P.n sl.rowA x
  obtain ⟨hnext, hbucket⟩ := P.placed_bucket_last (y := judgedChan P.ok P.n sl.rowA x) hlast
  exact ⟨hfiller, hnext, by rw [hbucket, hv, hu, hcfg, hfiller]⟩

theorem Settled.filler_bits : P.filler.1 = if P.last then (pictureFiller k.cfg rc n x.run.v P.bits).1 else 0 := by
  rw [h.filler]
  split <;> rfl

end

theorem assembleSlice_still (i : SliceIn)
    (h : mayEncode s = false ∨ ∀ x, chanAt s c = some x → coding x = false ∨ x.run.aborting = true ∨ x.run.pics.get? x.run.nextSlice.1 = none) : assembleSlice c i s = s := by
  unfold assembleSlice
  split
  · rfl
  · next hm =>
    have hworks := h.resolve_left (by simpa using hm)
    split
    · rfl
    · next x hx =>
      split
      · next k q hk hq =>
        extract_lets n' j' slices codec last eob lastGroup
        split
        · refine if_pos ?_
          obtain hc | ha | hn := hworks x hx
          · simp [hc]
          · simp [ha]
          · rw [hn] at hq
            cases hq
        · rfl
      · rfl

/-- A slice that waits for room is counted once, in its channel alone (R160). -/
theorem waitQueue_onlyChan (h : chanAt s c = some x) :
    OnlyChan c (if x.run.queueWait then x else { x with run.queueWait := true, counters.lateSlices := inc32 x.counters.lateSlices }) s (waitQueue c s) := modChan_gives h rfl

end

end Sys2Proof.Architecture

/-! PROOFS. Entropy units and slices: the statement (R133 to R141, R151, R152, R160). -/

namespace Sys2Proof.Architecture

open Sys2Proof.Machine Sys2Proof.Laws

/-- Settles O46: an engine takes the unit of the least rank and codes it in its channel alone; a slice by what the emitter has settled of it and by what its place in the queue makes of its channel; the queue by the slices at its front that have ended. -/
theorem unitsAndSlicesInOrder : Obligations.UnitsAndSlicesInOrder := by
  unfold Obligations.UnitsAndSlicesInOrder
  refine ⟨?start, ?code, ?still, ?assemble, ?settle⟩
  case start =>
    rintro dt e o s l ha rfl
    have hexec : exec (.entropyUnitStart dt e o) s = .next (entropyStart e.val o (advance dt s)) := congrArg Host.Outcome.next (actAfter_acting dt _ ha)
    rw [hexec]
    refine ⟨fun h => congrArg _ (entropyStart_idle h), fun u hm he hu => ?_⟩
    obtain ⟨hmem, hleast⟩ := bestUnit_least hu
    have hbefore := fun v hv => le_of_unitRank_le (hleast v hv)
    exact ⟨congrArg _ (entropyStart_takes hm he hu), hmem, fun v hv => (hbefore v hv).1, fun v hv => (hbefore v hv).2.1, fun v hv => (hbefore v hv).2.2⟩
  case code =>
    rintro e u o s x q read bad old hx hq rfl rfl rfl
    obtain ⟨y, p, ⟨hc, hd, -⟩, hp, hst, hqueue, hfreed, ⟨unit, hunit, hbytes, hfailed⟩, hrows, hended, hgoes⟩ := codeUnit_onlyChan e o hx hq
    refine ⟨y, p, unit, hc, hp, hst, hqueue, hunit, hbytes, hfailed, fun i w hw => ?_, hended, hgoes, hfreed, hd⟩
    obtain ⟨v, hv, hnext, hmode, hrec⟩ := hrows i w hw
    refine ⟨v, hv, hnext, hmode, hrec.trans ?_⟩
    simp only [unitSpans, unitHas, Bool.and_eq_true, decide_eq_true_eq]
  case still =>
    intro dt c i s ha h
    exact congrArg Host.Outcome.next ((actAfter_acting dt _ ha).trans (assembleSlice_still i h))
  case assemble =>
    rintro dt c i s x k q sl rc n j slices len nal built ok size last f ha hm hx hc hab hk hnext hq rfl hsl hrc hlen hbuilt hnal hok hsize hlast
    obtain rfl : len = unitCount k q sl := hlen
    obtain rfl : built = builtNal k q sl j i := hbuilt
    obtain rfl : nal = readNal k q sl j i := hnal
    obtain rfl : ok = sliceOk k q sl j i := hok
    obtain rfl : size = sliceSize k q sl j i := hsize
    obtain rfl : last = isLastSlice k q j := hlast
    have hexec : exec (.sliceAssembly dt c i) s = .next (assembleSlice c.val i (advance dt s)) := congrArg Host.Outcome.next (actAfter_acting dt _ ha)
    obtain ⟨w, P, nals, hstep, ⟨hw, hd, ho⟩, hout, hset⟩ := assembleSlice_places (s := advance dt s) i ⟨hm, hx, hc, hab, hk, hnext, hq, hsl, hrc⟩
    rw [hexec, hstep]
    refine ⟨fun ⟨a, ha, hmem⟩ => ?_, fun h hfull => ?_, fun h hroom => ?_⟩
    · have hopen : unitsEnded k q sl j = false := Bool.eq_false_iff.mpr fun h => hmem ((unitsEnded_iff k q sl j).mp h a ha)
      simp [hopen]
    · obtain ⟨hc', hd', -⟩ := waitQueue_onlyChan (s := advance dt s) hx
      rw [(unitsEnded_iff k q sl j).mpr h, if_neg (by simp), if_pos hfull]
      refine ⟨_, _, rfl, hc', ?_, ?_, ?_, hd'⟩ <;> split <;> rfl
    · rw [(unitsEnded_iff k q sl j).mpr h, if_neg (by simp), if_neg (Bool.eq_false_iff.mp hroom)]
      have hfiller := hset.filler_bits
      have hlastly := hset.bucket_last
      have hchecked := hset.checked
      have hfaulty := hset.substituted
      obtain ⟨⟨rfl, rfl, hok, hlast, -, rfl⟩, ⟨-, -, hget⟩, ⟨hen, hej, hdue, hsub, hcheck, hnals, heob⟩, -, hbits, hwhole, hfailed⟩ := hset
      obtain ⟨hst, hqueue, -, -, -, hchecks⟩ := judgedChan_stream P.ok P.n sl.rowA x
      obtain ⟨hst', hqueue', hnext'⟩ := P.placed_queue (y := judgedChan P.ok P.n sl.rowA x)
      obtain ⟨p, hp, hslices, hpbits, hpfiller⟩ := P.placed_pic hget
      rw [← hok, ← hlast]
      refine ⟨w, _, p, P.entry, nals, rfl, hw, hst'.trans hst, hnext', hp, hslices, hqueue'.trans (by rw [hqueue]), hen, hej, hdue, hsub, hcheck, hnals, heob, hout, ?_, hfailed,
        fun h => ?_, Placing.bucket_within _ _ _, hchecked, hfaulty, hchecks ▸ P.placed_checks_length, hd, ho⟩
      · rw [hpbits, ← hfiller]
        rintro rfl
        exact ⟨hbits, hok ▸ hwhole⟩
      · obtain ⟨hfill, hpast, hbucket⟩ := hlastly h
        rw [hpbits, ← hfill]
        exact ⟨hpfiller h, hpast, by rw [hbucket, hfill]⟩
  case settle =>
    intro c s x hx
    refine ⟨settleSlices_waits hx, fun he => ?_⟩
    obtain ⟨hc, hd, ho⟩ := settleSlices_onlyChan hx he
    exact ⟨_, hc, rfl, rfl, rfl, rfl, hd, ho⟩

end Sys2Proof.Architecture

/-! PROOFS. Surface memory: what a SURFWIN write leaves of every buffer, and the canonical form that it keeps (R182 to R184, R393, R500). -/

namespace Sys2Proof.CommandProtocol

open Sys2Proof.Machine Sys2Proof.Laws Sys2Proof.HostAccess Sys2Proof.Architecture

section
variable {s t : State} {f offset n k off : Nat} {bytes : List Byte} {x : Surface}

/-! The canonical form of surface memory (log 6). -/

/-- An entry of a table with one value changed is an old entry, or the changed one. -/
theorem fmap_mem_modify {α : Type} {m : FMap α} {k : Nat} {g : α → α} {e : Nat × α} (h : e ∈ FMap.modify m k g) :
    e ∈ m ∨ ∃ v, (k, v) ∈ m ∧ e = (k, g v) := by
  induction m with
  | nil => exact .inl h
  | cons d r ih =>
    obtain ⟨j, w⟩ := d
    simp only [FMap.modify] at h
    split at h
    · next hj =>
      subst hj
      exact (List.mem_cons.mp h).elim (fun he => .inr ⟨w, List.mem_cons_self, he⟩) (fun he => .inl (List.mem_cons_of_mem _ he))
    · obtain rfl | h := List.mem_cons.mp h
      · exact .inl List.mem_cons_self
      · exact (ih h).imp (List.mem_cons_of_mem _) (fun ⟨v, hv, he⟩ => ⟨v, List.mem_cons_of_mem _ hv, he⟩)

theorem surfaceMemoryOk_of_surfs (h : t.surfs = s.surfs) (hs : surfaceMemoryOk s) : surfaceMemoryOk t := by
  unfold surfaceMemoryOk
  rwa [h]

/-- What keeps the form of the memory of one surface keeps that of all. -/
theorem surfaceMemoryOk_modSurf {g : Surface → Surface} (hg : ∀ y : Surface, (∀ m ∈ y.mem, Memory.wf m.2 = true) → ∀ m ∈ (g y).mem, Memory.wf m.2 = true)
    (hs : surfaceMemoryOk s) : surfaceMemoryOk (modSurf s n g) := by
  intro e he
  obtain he | ⟨y, hy, rfl⟩ := fmap_mem_modify he
  · exact hs e he
  · exact hg y (hs (n, y) hy)

theorem surfaceMemoryOk_writeBuffer (k off : Nat) (bytes : List Byte) (hs : surfaceMemoryOk s) :
    surfaceMemoryOk (modSurf s n (fun y => writeBuffer y k off bytes)) :=
  surfaceMemoryOk_modSurf (fun _ hy => writeBuffer_wf k off bytes hy) hs

theorem surfaceMemoryOk_surfAt (hs : surfaceMemoryOk s) (hx : surfAt s n = some x) : ∀ m ∈ x.mem, Memory.wf m.2 = true := hs (n, x) (fmap_get?_mem hx)

/-! The surfaces after one run of bytes, and after a write. -/

theorem cwSend_surfs (type : Nat) (p : List Byte) (s : State) : (cwSend type p s).surfs = s.surfs := (congrArg State.surfs (besideGroups_cwSend type p s) :)

/-- Forwarding bytes to the partner changes no surface (R393). -/
theorem bulkSurface_surfs (n k off : Nat) (bytes : List Byte) (s : State) : (bulkSurface n k off bytes s).surfs = s.surfs := by
  unfold bulkSurface
  exact foldl_view (v := State.surfs) (fun u _ => cwSend_surfs _ _ u) _ s

/-- A run into a free buffer is taken, and leaves the surfaces as the write into that buffer does, forwarded or not. -/
theorem surfwinRun_surfs (h : surfaceOver f offset s = some (n, x)) (hd : (isStandby s || bufferTaken x (winBuffer x offset)) = false) :
    (surfwinRun f offset bytes s).1.surfs = (modSurf s n (fun y => writeBuffer y (winBuffer x offset) (winOffset x offset) bytes)).surfs ∧
      (surfwinRun f offset bytes s).2 = true := by
  rw [surfwinRun_written h hd]
  refine ⟨?_, rfl⟩
  split
  · exact bulkSurface_surfs ..
  · rfl

/-- One run keeps the form: it is dropped, or written to one buffer. -/
theorem surfwinRun_keeps_form (f offset : Nat) (bytes : List Byte) (hs : surfaceMemoryOk s) : surfaceMemoryOk (surfwinRun f offset bytes s).1 := by
  cases ho : surfaceOver f offset s with
  | none => rwa [surfwinRun_outside ho]
  | some e =>
    obtain ⟨n, x⟩ := e
    cases hd : isStandby s || bufferTaken x (winBuffer x offset) with
    | true => rwa [surfwinRun_dropped ho hd]
    | false => exact surfaceMemoryOk_of_surfs (surfwinRun_surfs ho hd).1 (surfaceMemoryOk_writeBuffer _ _ bytes hs)

/-- Counting a dropped write changes no surface (R184). -/
theorem surfaceMemoryOk_dropCounted {taken : Bool} (hs : surfaceMemoryOk s) : surfaceMemoryOk (if taken then s else surfDrop f s) := by
  split
  · exact hs
  · exact surfaceMemoryOk_of_surfs (modFn_surfs ..) hs

/-- A write is runs, one behind the other, and a count where one is dropped; neither breaks the form. -/
theorem surfwinWrite_keeps_form (f offset : Nat) (bytes : List Byte) (hs : surfaceMemoryOk s) : surfaceMemoryOk (surfwinWrite f offset bytes s) := by
  unfold surfwinWrite
  exact surfaceMemoryOk_dropCounted (foldl_keeps (P := fun a : State × Bool => surfaceMemoryOk a.1) (fun _ e ha => surfwinRun_keeps_form f e.1 e.2 ha) _ hs)

/-- A write within one unit, into a free buffer, leaves the surfaces as the write into that buffer does (R500). -/
theorem surfwinWrite_surfs (h : surfaceOver f offset s = some (n, x)) (hd : (isStandby s || bufferTaken x (winBuffer x offset)) = false) (hb : bytes ≠ [])
    (hu : offset % 65536 + bytes.length ≤ 65536) :
    (surfwinWrite f offset bytes s).surfs = (modSurf s n (fun y => writeBuffer y (winBuffer x offset) (winOffset x offset) bytes)).surfs := by
  obtain ⟨hsurfs, htaken⟩ := surfwinRun_surfs (bytes := bytes) h hd
  rw [surfwinWrite_oneUnit hb hu, if_pos htaken, hsurfs]

/-! What a write into a buffer leaves (R182). -/

theorem surfAt_modSurf_ne {m : Nat} {g : Surface → Surface} (h : n ≠ m) : surfAt (modSurf s n g) m = surfAt s m := fmap_get?_modify_ne h

/-- The bytes written are read back, and every other byte of the buffer is as before. -/
theorem read_writeBuffer (hx : ∀ m ∈ x.mem, Memory.wf m.2 = true) (a : Nat) :
    Memory.read (bufferMem (writeBuffer x k off bytes) k) a = if off ≤ a ∧ a < off + bytes.length then bytes.getD (a - off) 0 else Memory.read (bufferMem x k) a := by
  rw [writeBuffer_bufferMem, if_pos rfl, memory_read_writeAll _ _ _ (bufferMem_wf k hx)]

/-- Every other buffer of the surface is as before. -/
theorem bufferMem_writeBuffer_ne {j : Nat} (h : j ≠ k) : bufferMem (writeBuffer x k off bytes) j = bufferMem x j := by
  rw [writeBuffer_bufferMem, if_neg h.symm]

end

/-- Settles O59: a write into a free buffer leaves the surfaces as `writeBuffer` on the one it lies in; the form is kept run by run. -/
theorem surfaceMemoryReadsBack : Obligations.SurfaceMemoryReadsBack := by
  unfold Obligations.SurfaceMemoryReadsBack
  refine ⟨fun e he => absurd he List.not_mem_nil, fun f off bs s t hs h => ?form, ?readsBack⟩
  case form =>
    obtain rfl : (if hostUp s then surfwinWrite f.val off bs s else s) = t := Host.Outcome.next.inj h
    split
    · exact surfwinWrite_keeps_form f.val off bs hs
    · exact hs
  case readsBack =>
    rintro f offset n k off bs s x hup hst hover hx hs hb hu rfl rfl hpub hpend
    have hfree : (isStandby s || bufferTaken x (winBuffer x offset)) = false := by rw [hst, bufferTaken, winBuffer, hpub, hpend]; rfl
    have hsurf : ∀ m, surfAt (surfwinWrite f.val offset bs s) m = surfAt (modSurf s n (fun y => writeBuffer y (winBuffer x offset) (winOffset x offset) bs)) m :=
      fun m => congrArg (FMap.get? · m) (surfwinWrite_surfs hover hfree hb hu)
    exact ⟨_, writeBuffer x (winBuffer x offset) (winOffset x offset) bs, exec_surfwinWrite_up hup, by rw [hsurf, surfAt_modSurf, hx]; rfl,
      read_writeBuffer (surfaceMemoryOk_surfAt hs hx), fun j hj => bufferMem_writeBuffer_ne hj, fun m hm => (hsurf m).trans (surfAt_modSurf_ne hm.symm)⟩

end Sys2Proof.CommandProtocol

/-! PROOFS. A response path whose winner is masked delivers nothing (R258, R262, R270). -/

namespace Sys2Proof.MemorySystem

open Sys2Proof.Machine

/-- A read of master port 5 that target 0 has answered. -/
def answeredRead : FabResp := { tx := { seq := 0, id := 0, req := { master := 5, addr := 0x10000000000, len := 32 }, target := 0 }, data := zeros 32 }

/-- Its response path, arbiter 136, has requester 0 masked. REQUESTER_MASK masks at arbiters 48 to 130 alone (R270), so no step leads here. -/
def maskedResponse : State := { fab := { resps := [answeredRead], arbs := [(136, { masked := [0] })] } }

/-- The masked target stays out of the round: nothing is delivered. -/
theorem outbox_maskedResponse : (matrixRound 136 [] [] .clean (advance 0 maskedResponse)).outbox = [] := by decide +kernel

/-- Refutes O19: its clause on responses does not ask that the winner be unmasked, and `maskedResponse` meets every premise of it while its round delivers nothing. -/
theorem not_arbitersGrantStageAndPreempt : ¬ Obligations.ArbitersGrantStageAndPreempt := by
  intro h
  have hacting : acting maskedResponse = true := by decide +kernel
  obtain ⟨-, -, hdeliver, -⟩ := h maskedResponse hacting
  obtain ⟨t, hexec, hout, -⟩ := hdeliver 0 5 0 [] .clean answeredRead (by decide) (by decide +kernel) (by decide +kernel) (by decide +kernel)
    (by decide +kernel) (by decide +kernel) (by decide +kernel) (by decide +kernel) (by decide +kernel) rfl
  have ht : matrixRound 136 [] [] .clean (advance 0 maskedResponse) = t := Host.Outcome.next.inj ((congrArg Host.Outcome.next (Laws.actAfter_acting 0 _ hacting)).symm.trans hexec)
  rw [← ht, outbox_maskedResponse] at hout
  exact List.cons_ne_nil _ _ hout.symm

end Sys2Proof.MemorySystem

/-! PROOFS. Power removed, the resets of the device, and the image that the boot loader runs (R235, R236, R452, R458, R459, R471 to R473, R476). -/

namespace Sys2Proof.MemorySystem

open Sys2Proof.Machine Sys2Proof.Laws Sys2Proof.Architecture

/-! The pins are released (R476, R477). -/

/-- The state without the levels of driven pins and the messages that report them. -/
def besidePins (s : State) : State := { s with outbox := [], pair.keeper := .released, pair.claimOutLow := false, time.pulseOut := 0, power.alertLow := false }

theorem besidePins_driveClaim (low : Bool) (s : State) : besidePins (driveClaim low s) = besidePins s := by
  unfold driveClaim
  split <;> rfl

theorem besidePins_drivePulse (o : Nat) (high : Bool) (s : State) : besidePins (drivePulse o high s) = besidePins s := by
  unfold drivePulse
  split <;> rfl

theorem besidePins_releasePins (s : State) : besidePins (releasePins s) = besidePins s := by
  unfold releasePins
  generalize hu : driveClaim false { s with pair.keeper := .released } = u
  have hclaim : besidePins u = besidePins s := hu ▸ besidePins_driveClaim ..
  have hpulses := (foldl_view (v := besidePins) (fun s (e : Nat × Pulse) => besidePins_drivePulse e.1 e.2.activeLow s) u.time.pulses u).trans hclaim
  dsimp only
  split <;> exact hpulses

/-- What stays without power: the flash, the fuses, the levels of two inputs (R472, R476). -/
def dark (messages : List Out) (s : State) : State :=
  { pending := s.pending, freeCtr := s.freeCtr, outbox := messages, readData := s.readData, upd := flashUpd s.upd, journal := flashJournal s.journal,
    pair := { claimIn := s.pair.claimIn, holdN := s.pair.holdN }, power := { on := false, ready := false } }

theorem unpowered_eq (s : State) : unpowered s = dark (releasePins s).outbox s := by
  obtain ⟨hpending, hfree, hread, hupd, hjournal, hin, hhold⟩ : (releasePins s).pending = s.pending ∧ (releasePins s).freeCtr = s.freeCtr ∧ (releasePins s).readData = s.readData ∧
      (releasePins s).upd = s.upd ∧ (releasePins s).journal = s.journal ∧ (releasePins s).pair.claimIn = s.pair.claimIn ∧ (releasePins s).pair.holdN = s.pair.holdN := by
    have h := besidePins_releasePins s
    exact ⟨(congrArg State.pending h :), (congrArg State.freeCtr h :), (congrArg State.readData h :), (congrArg State.upd h :), (congrArg State.journal h :),
      (congrArg (fun s => s.pair.claimIn) h :), (congrArg (fun s => s.pair.holdN) h :)⟩
  unfold unpowered dark
  dsimp only
  rw [hpending, hfree, hread, hupd, hjournal, hin, hhold]

/-! Training and layout of the memories (R235, R236, R246). -/

/-- The memories in service as the parameter store names them and training passes them. -/
def trained (qOk : BitVec 8) (pcOk : BitVec 64) (s : State) : State :=
  { s with mem.qportIn := BitVec.ofNat 8 (paramNat s keyQdrPorts 0x1FF) &&& qOk, mem.qportLaid := BitVec.ofNat 8 (paramNat s keyQdrPorts 0x1FF) &&& qOk,
           mem.density288 := bitOf (paramNat s keyQdrPorts 0x1FF) 8, mem.pcOut := ~~~pcOk, mem.pcRemoved := ~~~pcOk }

/-- From s to t entries have been journaled, none has reached the flash, and nothing else has changed. -/
def Journals (s t : State) : Prop := ∃ j, t = { s with journal := j } ∧ j.flash = s.journal.flash

theorem Journals.refl (s : State) : Journals s s := ⟨_, rfl, rfl⟩

theorem Journals.add {s t : State} (h : Journals s t) (a b c d e f : Nat) : Journals s (journalAdd t a b c d e f) := by
  obtain ⟨j, rfl, hj⟩ := h
  exact ⟨_, rfl, hj⟩

/-- Beside what training finds, the regions are laid out and what is cut is journaled (R236). -/
theorem trainMemory_frame (qOk : BitVec 8) (pcOk : BitVec 64) (s : State) :
    ∃ r n, Journals { trained qOk pcOk s with mem.regions := r, mem.noFit := n } (trainMemory qOk pcOk s) := by
  unfold trainMemory
  dsimp only
  refine ⟨_, _, foldl_keeps (fun t k ht => ?_) _ (.refl _)⟩
  split
  · exact ht.add ..
  · exact ht

/-! What booting an image leaves as it is (R458, R459, R471). -/

/-- The update state without what the boot loader decides. -/
def besideImage (u : Upd) : Upd := { u with boot := {}, loader := false, running := none, session := .idle, trialEnd := none, secFused := none, revoked := 0, fusePending := none }

/-- From s to t an image is chosen: the boot record, the fuses and the journal may differ; a key revoked stays revoked. -/
structure Boots (s t : State) : Prop where
  rest : t = { s with journal := t.journal, upd := t.upd }
  flash : t.journal.flash = s.journal.flash
  image : besideImage t.upd = besideImage s.upd
  revoked : t.upd.revoked &&& s.upd.revoked = s.upd.revoked

theorem Boots.of_upd {s t : State} (hrest : t = { s with journal := t.journal, upd := t.upd }) (hflash : t.journal.flash = s.journal.flash)
    (himage : besideImage t.upd = besideImage s.upd) (hrevoked : t.upd.revoked = s.upd.revoked) : Boots s t := ⟨hrest, hflash, himage, by rw [hrevoked, BitVec.and_self]⟩

theorem Boots.refl (s : State) : Boots s s := .of_upd rfl rfl rfl rfl

theorem Boots.trans {s t u : State} (h : Boots s t) (g : Boots t u) : Boots s u where
  rest := g.rest.trans (by rw [h.rest])
  flash := g.flash.trans h.flash
  image := g.image.trans h.image
  revoked := by rw [← h.revoked, ← BitVec.and_assoc, g.revoked]

theorem journalAdd_boots (s : State) (a b c d e f : Nat) : Boots s (journalAdd s a b c d e f) := .of_upd rfl rfl rfl rfl
theorem writeBoot_boots (g : BootRecord → BootRecord) (s : State) : Boots s (writeBoot g s) := .of_upd rfl rfl rfl rfl
theorem loader_boots (s : State) : Boots s { s with upd.loader := true } := .of_upd rfl rfl rfl rfl

/-- Bits that were set stay set. -/
theorem or_and_self_right {w : Nat} (x y : BitVec w) : (x ||| y) &&& x = x := by
  ext i hi
  rw [BitVec.getElem_and, BitVec.getElem_or]
  cases x[i] <;> simp

theorem blowFuses_boots (s : State) : Boots s (blowFuses s) := by
  unfold blowFuses
  split
  · exact ⟨rfl, rfl, rfl, or_and_self_right _ _⟩
  · exact .refl s

theorem runSlot_boots (b : Bool) (s : State) : Boots s (runSlot b s) := by
  have hfuses : Boots s (if !s.upd.boot.trial && b == s.upd.boot.activeB then blowFuses s else s) := by
    split
    · exact blowFuses_boots s
    · exact .refl s
  unfold runSlot
  exact hfuses.trans (.of_upd rfl rfl rfl rfl)

/-- The slot that the boot record names is checked and run, else the other one (R458). -/
def loadSlot (slot : Bool) (s : State) : State :=
  if imageValid s (slotOf s slot) then runSlot slot s
  else if imageValid s (slotOf s (!slot)) then runSlot (!slot) (journalAdd s 13 0 deviceFn 5 slot.toNat 0)
  else { journalAdd s 13 0 deviceFn 5 slot.toNat 0 with upd.loader := true }

/-- The boot record as the boot loader leaves it (R458). -/
def recordWritten (s : State) : State := if (bootChoice s.upd.boot).2.2 then writeBoot (fun _ => (bootChoice s.upd.boot).1) s else s

/-- The straps keep the boot loader (R471). -/
def strapped (s : State) : Bool := s.power.bootSrc0 && !s.power.bootSrc1

theorem bootLoader_strapped {s : State} (h : strapped s = true) : bootLoader s = { s with upd.loader := true } := if_pos h

theorem bootLoader_loads {s : State} (h : strapped s = false) : bootLoader s = loadSlot (bootChoice s.upd.boot).2.1 (recordWritten s) :=
  if_neg (ne_true_of_eq_false h)

theorem loadSlot_boots (slot : Bool) (s : State) : Boots s (loadSlot slot s) := by
  unfold loadSlot
  split
  · exact runSlot_boots ..
  · split
    · exact (journalAdd_boots ..).trans (runSlot_boots ..)
    · exact (journalAdd_boots ..).trans (loader_boots _)

theorem recordWritten_boots (s : State) : Boots s (recordWritten s) := by
  unfold recordWritten
  split
  · exact writeBoot_boots ..
  · exact .refl s

theorem bootLoader_boots (s : State) : Boots s (bootLoader s) := by
  cases h : strapped s with
  | true => exact bootLoader_strapped h ▸ loader_boots s
  | false => exact bootLoader_loads h ▸ (recordWritten_boots s).trans (loadSlot_boots ..)

/-! Which image runs (R452, R454, R458, R471). -/

section
variable {s : State}

/-- The record, the loader and the session that a slot runs with. -/
theorem runSlot_upd (b : Bool) (s : State) : (runSlot b s).upd.boot = s.upd.boot ∧ (runSlot b s).upd.loader = s.upd.loader ∧
    (runSlot b s).upd.session = (if s.upd.boot.trial && b == s.upd.boot.trialSlotB then .trial else .idle) ∧
    (runSlot b s).upd.trialEnd = (if s.upd.boot.trial && b == s.upd.boot.trialSlotB then some (s.now + ticksMs (1000 * s.upd.boot.trialS)) else none) := by
  have hfuses : ∀ u : State, (blowFuses u).upd.boot = u.upd.boot ∧ (blowFuses u).upd.loader = u.upd.loader ∧ (blowFuses u).now = u.now := fun u => by
    unfold blowFuses
    split <;> exact ⟨rfl, rfl, rfl⟩
  unfold runSlot
  dsimp only
  split
  · obtain ⟨hboot, hloader, hnow⟩ := hfuses s
    rw [hboot, hloader, hnow]
    exact ⟨rfl, rfl, rfl, rfl⟩
  · exact ⟨rfl, rfl, rfl, rfl⟩

theorem loadSlot_valid {slot : Bool} (h : imageValid s (slotOf s slot) = true) : loadSlot slot s = runSlot slot s := if_pos h

theorem loadSlot_boot (slot : Bool) (s : State) : (loadSlot slot s).upd.boot = s.upd.boot := by
  unfold loadSlot
  split
  · exact (runSlot_upd slot s).1
  · split
    · exact (runSlot_upd ..).1
    · rfl

theorem loadSlot_none (ha : imageValid s s.upd.slotA = false) (hb : imageValid s s.upd.slotB = false) (slot : Bool) :
    (loadSlot slot s).upd.loader = true ∧ (loadSlot slot s).upd.session = s.upd.session := by
  have hslot : ∀ b, ¬ imageValid s (slotOf s b) = true := fun b => by cases b <;> simp [slotOf, ha, hb]
  rw [loadSlot, if_neg (hslot _), if_neg (hslot _)]
  exact ⟨rfl, rfl⟩

/-- Writing the boot record leaves images, fuses, session and loader as they are. -/
theorem recordWritten_upd (s : State) : ∃ b, (recordWritten s).upd = { s.upd with boot := b } := by
  unfold recordWritten
  split
  · exact ⟨_, rfl⟩
  · exact ⟨_, rfl⟩

theorem imageValid_congr {s t : State} (hr : t.upd.revoked = s.upd.revoked) (hf : t.upd.secFused = s.upd.secFused) (x : FlashSlot) : imageValid t x = imageValid s x := by
  unfold imageValid fusedSec
  rw [hr, hf]

/-- An untried trial slot that is valid runs: the attempt is written and the trial timer starts. -/
theorem bootLoader_trial (hs : strapped s = false) (ht : s.upd.boot.trial = true) (ha : s.upd.boot.attempts = 0) (hv : imageValid s (slotOf s s.upd.boot.trialSlotB) = true) :
    (bootLoader s).upd.boot = { s.upd.boot with brSeq := s.upd.boot.brSeq + 1, attempts := 1 } ∧ (bootLoader s).upd.loader = s.upd.loader ∧ (bootLoader s).upd.session = .trial ∧
      (bootLoader s).upd.trialEnd = some (s.now + ticksMs (1000 * s.upd.boot.trialS)) := by
  have hchoice : bootChoice s.upd.boot = ({ s.upd.boot with attempts := 1 }, s.upd.boot.trialSlotB, true) := by simp [bootChoice, ht, ha]
  have hwritten : recordWritten s = writeBoot (fun _ => { s.upd.boot with attempts := 1 }) s := by rw [recordWritten, hchoice]; rfl
  have hruns : bootLoader s = runSlot s.upd.boot.trialSlotB (writeBoot (fun _ => { s.upd.boot with attempts := 1 }) s) := by
    rw [bootLoader_loads hs, hwritten, hchoice]
    exact loadSlot_valid ((imageValid_congr rfl rfl _).trans hv)
  rw [hruns]
  obtain ⟨hboot, hloader, hsession, hend⟩ := runSlot_upd s.upd.boot.trialSlotB (writeBoot (fun _ => { s.upd.boot with attempts := 1 }) s)
  rw [hboot, hloader, hsession, hend]
  simp [writeBoot, ht]

/-- A trial slot that has been tried is given up, whatever runs. -/
theorem bootLoader_tried (hs : strapped s = false) (ht : s.upd.boot.trial = true) (ha : s.upd.boot.attempts ≠ 0) :
    (bootLoader s).upd.boot = { s.upd.boot with brSeq := s.upd.boot.brSeq + 1, trial := false, fallback := true } := by
  rw [bootLoader_loads hs, loadSlot_boot]
  simp [recordWritten, bootChoice, ht, ha, writeBoot]

/-- Without a trial the record stays, and the active slot runs when it is valid. -/
theorem bootLoader_active (hs : strapped s = false) (ht : s.upd.boot.trial = false) : (bootLoader s).upd.boot = s.upd.boot ∧
    (imageValid s (slotOf s s.upd.boot.activeB) = true → (bootLoader s).upd.loader = s.upd.loader ∧ (bootLoader s).upd.session = .idle ∧ (bootLoader s).upd.trialEnd = none) := by
  have hchoice : bootChoice s.upd.boot = (s.upd.boot, s.upd.boot.activeB, false) := by simp [bootChoice, ht]
  have hwritten : recordWritten s = s := by rw [recordWritten, hchoice]; rfl
  rw [bootLoader_loads hs, hchoice, hwritten]
  refine ⟨loadSlot_boot .., fun hv => ?_⟩
  obtain ⟨-, hloader, hsession, hend⟩ := runSlot_upd s.upd.boot.activeB s
  rw [loadSlot_valid hv, hloader, hsession, hend, ht]
  exact ⟨rfl, rfl, rfl⟩

/-- With neither slot valid the loader stays. -/
theorem bootLoader_none (hs : strapped s = false) (ha : imageValid s s.upd.slotA = false) (hb : imageValid s s.upd.slotB = false) :
    (bootLoader s).upd.loader = true ∧ (bootLoader s).upd.session = s.upd.session := by
  obtain ⟨b, hb'⟩ := recordWritten_upd s
  have hvalid : ∀ x, imageValid (recordWritten s) x = imageValid s x := imageValid_congr (by rw [hb']) (by rw [hb'])
  rw [bootLoader_loads hs]
  obtain ⟨hloader, hsession⟩ := loadSlot_none (s := recordWritten s) (by rw [hvalid, hb', ha]) (by rw [hvalid, hb', hb]) (bootChoice s.upd.boot).2.1
  exact ⟨hloader, hsession.trans (by rw [hb'])⟩

end

/-! The resets restart the device (R471 to R473). -/

/-- The end of a cold or warm reset: memories are trained, an image is chosen. -/
def restart (qOk : BitVec 8) (pcOk : BitVec 64) (s : State) : State := bootLoader (trainMemory qOk pcOk s)

/-- A restart leaves everything but memories, journal and image as it is. -/
theorem restart_frame (qOk : BitVec 8) (pcOk : BitVec 64) (s : State) : ∃ r n j u,
    restart qOk pcOk s = { trained qOk pcOk s with mem.regions := r, mem.noFit := n, journal := j, upd := u } ∧ j.flash = s.journal.flash ∧ besideImage u = besideImage s.upd ∧
      u.revoked &&& s.upd.revoked = s.upd.revoked := by
  obtain ⟨r, n, j, htrain, hflash⟩ := trainMemory_frame qOk pcOk s
  have hboots := bootLoader_boots (trainMemory qOk pcOk s)
  rw [htrain] at hboots
  refine ⟨r, n, _, _, ?_, hboots.flash.trans hflash, hboots.image, hboots.revoked⟩
  exact (congrArg bootLoader htrain).trans hboots.rest

/-- Training leaves the update state, the straps and the time to the boot loader. -/
theorem trainMemory_kept (qOk : BitVec 8) (pcOk : BitVec 64) (s : State) :
    (trainMemory qOk pcOk s).upd = s.upd ∧ (trainMemory qOk pcOk s).power = s.power ∧ (trainMemory qOk pcOk s).now = s.now := by
  obtain ⟨r, n, j, htrain, -⟩ := trainMemory_frame qOk pcOk s
  rw [htrain]
  exact ⟨rfl, rfl, rfl⟩

/-- v holds the slots, the boot record and the fuses of s. -/
structure SameFlash (s v : State) : Prop where
  slotA : v.upd.slotA = s.upd.slotA
  slotB : v.upd.slotB = s.upd.slotB
  boot : v.upd.boot = s.upd.boot
  revoked : v.upd.revoked = s.upd.revoked
  secFused : v.upd.secFused = s.upd.secFused

theorem SameFlash.valid {s v : State} (h : SameFlash s v) (x : FlashSlot) : imageValid v x = imageValid s x := imageValid_congr h.revoked h.secFused x

theorem SameFlash.slot {s v : State} (h : SameFlash s v) (b : Bool) : slotOf v b = slotOf s b := by
  unfold slotOf
  rw [h.slotA, h.slotB]

/-- An untried trial slot that is valid before the reset runs after it. -/
theorem SameFlash.runsTrial {s v : State} (h : SameFlash s v) (hs : strapped v = false) (ht : s.upd.boot.trial = true) (ha : s.upd.boot.attempts = 0)
    (hv : imageValid s (slotOf s s.upd.boot.trialSlotB) = true) :
    (bootLoader v).upd.loader = v.upd.loader ∧ (bootLoader v).upd.session = .trial ∧ (bootLoader v).upd.trialEnd = some (v.now + ticksMs (1000 * s.upd.boot.trialS)) ∧
      (bootLoader v).upd.boot = { s.upd.boot with brSeq := s.upd.boot.brSeq + 1, attempts := 1 } := by
  obtain ⟨hboot, hloader, hsession, hend⟩ := bootLoader_trial hs (h.boot ▸ ht) (h.boot ▸ ha) (by rw [h.valid, h.slot, h.boot, hv])
  exact ⟨hloader, hsession, by rw [hend, h.boot], by rw [hboot, h.boot]⟩

/-- The device as a cold reset finds it, its straps sampled (R471). -/
def cold (messages : List Out) (st : Straps) (s : State) : State :=
  { dark messages s with power := { bootSrc0 := st.bootSrc0, bootSrc1 := st.bootSrc1 }, pair := { member := st.pairMember, claimIn := st.claimIn, holdN := st.holdN } }

theorem coldBoot_eq (st : Straps) (s : State) : coldBoot st s = restart st.qportTrainOk st.pcTrainOk (cold (releasePins s).outbox st s) := by
  unfold coldBoot
  rw [unpowered_eq]
  rfl

/-- What a warm reset keeps (R472, Table 18.3). -/
def warmKept (cause : WarmCause) (s : State) : State :=
  { pending := s.pending, freeCtr := s.freeCtr, outbox := s.outbox, readData := s.readData, fns := keptFns s.fns, irq := { redirects := s.irq.redirects }, harbour := keptHarbour s.harbour,
    journal := { s.journal with stagedAt := s.journal.staged.map (fun _ => 0), rateStart := 0 }, mem := keptMem s.mem, net := keptNet s.net, time := keptTime s.time,
    audio := keptAudio s.audio, pair := keptPair s.pair,
    upd := { flashUpd s.upd with ferryDiscards := s.upd.ferryDiscards, ferryBad := s.upd.ferryBad, ferryRepeats := s.upd.ferryRepeats }, power := keptPower cause s.power }

/-- The local clock of a state after dt more ticks, unless CLK_TIME is lost (R342). -/
def localAfter (dt : Nat) (s : State) : Instant := if clockLost s .time then s.time.local' else s.time.local' + dt * s.time.addend

/-- The device as a warm reset finds it, dt ticks later. -/
def warm (dt : Nat) (cause : WarmCause) (s : State) : State :=
  { warmKept cause s with time.local' := localAfter dt (warmKept cause s), time.nextBoundary := (localAfter dt (warmKept cause s) / tideSpan (warmKept cause s) + 1) * tideSpan (warmKept cause s) }

theorem warmBoot_eq {s : State} {cause : WarmCause} (hp : s.power.warmPending = some cause) (he : streamsEnded s = true) (dt : Nat) (qOk : BitVec 8) (pcOk : BitVec 64) :
    warmBoot dt qOk pcOk s = restart qOk pcOk (warm dt cause s) := by
  have hclock : ∀ u : State, (if clockLost u .time then u else { u with time.local' := u.time.local' + dt * u.time.addend }) = { u with time.local' := localAfter dt u } := fun u => by
    unfold localAfter
    split <;> rfl
  unfold warmBoot
  rw [hp]
  dsimp only
  rw [he, Bool.not_true, if_neg Bool.false_ne_true, hclock]
  rfl

/-- A clock is lost after a warm reset if it was and has not come back (R33, R421). -/
theorem clockLost_keptPower (cause : WarmCause) (s : State) (d : ClockDomain) :
    (keptPower cause s.power).clocksLost.contains d = true ↔ clockLost s d = true ∧ d ∉ s.power.clocksBack := by
  simp [clockLost, keptPower]

/-- Settles O42, reset by reset: what each keeps, and the image its boot loader chooses. -/
theorem powerAndResetsRestartTheDevice : Obligations.PowerAndResetsRestartTheDevice := by
  unfold Obligations.PowerAndResetsRestartTheDevice
  refine ⟨fun s => ?off, fun st s => ?cold, fun dt q p s c hp he => ?waits, fun dt q p s c hp he => ?warm, fun dt q p s hp => ?none⟩
  case off =>
    exact ⟨_, congrArg Host.Outcome.next (unpowered_eq s), rfl, rfl, rfl, rfl, rfl, rfl, rfl, rfl, rfl, rfl, rfl, rfl, rfl, rfl, rfl, rfl, rfl, rfl, rfl⟩
  case cold =>
    obtain ⟨r, n, j, u, heq, hflash, himage, hrevoked⟩ := restart_frame st.qportTrainOk st.pcTrainOk (cold (releasePins s).outbox st s)
    obtain ⟨hupd, hpower, hnow⟩ := trainMemory_kept st.qportTrainOk st.pcTrainOk (cold (releasePins s).outbox st s)
    have hu : u = (bootLoader (trainMemory st.qportTrainOk st.pcTrainOk (cold (releasePins s).outbox st s))).upd := (congrArg State.upd heq).symm
    generalize trainMemory st.qportTrainOk st.pcTrainOk (cold (releasePins s).outbox st s) = v at hupd hpower hnow hu
    have hstrap : strapped v = (st.bootSrc0 && !st.bootSrc1) := by rw [strapped, hpower]; rfl
    have hflashed : SameFlash s v := by constructor <;> rw [hupd] <;> rfl
    have hloader : v.upd.loader = false := by rw [hupd]; rfl
    have hidle : v.upd.session = .idle := by rw [hupd]; rfl
    refine ⟨_, congrArg Host.Outcome.next ((coldBoot_eq st s).trans heq), rfl, rfl, rfl, rfl, rfl, rfl, rfl, rfl, rfl, rfl, rfl, rfl, rfl, rfl, rfl, rfl, rfl, rfl, rfl, rfl, rfl, rfl, rfl, rfl, rfl, rfl,
      hflash, rfl, rfl, rfl, rfl, (congrArg Upd.params himage :), (congrArg Upd.slotA himage :), (congrArg Upd.slotB himage :), hrevoked, fun h => ?strapped, fun h => ?loads⟩
    case strapped =>
      subst hu
      dsimp only
      rw [bootLoader_strapped (by rw [hstrap, h.1, h.2]; rfl)]
      exact ⟨rfl, hidle, hflashed.boot⟩
    case loads =>
      have hs : strapped v = false := by rw [hstrap]; rcases h with h | h <;> simp [h]
      subst hu
      refine ⟨fun ht ha hv => ?_, fun ht ha => ?_, fun ht => ?_, fun hA hB => ?_⟩
      · obtain ⟨hl, hsession, hend, hb⟩ := hflashed.runsTrial hs ht ha hv
        exact ⟨hl.trans hloader, hsession, by rw [hend, hnow]; exact congrArg some (Nat.zero_add _), hb⟩
      · rw [bootLoader_tried hs (hflashed.boot ▸ ht) (hflashed.boot ▸ ha), hflashed.boot]
      · obtain ⟨hb, hruns⟩ := bootLoader_active hs (hflashed.boot ▸ ht)
        refine ⟨hb.trans hflashed.boot, fun hv => ?_⟩
        obtain ⟨hl, hsession, hend⟩ := hruns (by rw [hflashed.valid, hflashed.slot, hflashed.boot, hv])
        exact ⟨hl.trans hloader, hsession, hend⟩
      · obtain ⟨hl, hsession⟩ := bootLoader_none hs (by rw [hflashed.valid, hflashed.slotA, hA]) (by rw [hflashed.valid, hflashed.slotB, hB])
        exact ⟨hl, hsession.trans hidle⟩
  case waits =>
    refine congrArg Host.Outcome.next ?_
    simp [warmBoot, hp, he]
  case warm =>
    obtain ⟨r, n, j, u, heq, hflash, himage, -⟩ := restart_frame q p (warm dt c s)
    obtain ⟨hupd, hpower, hnow⟩ := trainMemory_kept q p (warm dt c s)
    have hu : u = (bootLoader (trainMemory q p (warm dt c s))).upd := (congrArg State.upd heq).symm
    generalize trainMemory q p (warm dt c s) = v at hupd hpower hnow hu
    have hstrap : strapped v = (s.power.bootSrc0 && !s.power.bootSrc1) := by rw [strapped, hpower]; rfl
    have hflashed : SameFlash s v := by constructor <;> rw [hupd] <;> rfl
    refine ⟨_, congrArg Host.Outcome.next ((warmBoot_eq hp he dt q p).trans heq), rfl, rfl, rfl, rfl, rfl, rfl, rfl, rfl, rfl, rfl, rfl, rfl, rfl, rfl, rfl, rfl, hflash, rfl,
      fun hrun => if_neg (ne_true_of_eq_false hrun), rfl, rfl, rfl, rfl, rfl, rfl, rfl, rfl, rfl, rfl, (congrArg Upd.ferryDiscards himage :), (congrArg Upd.clients himage :),
      (congrArg Upd.staging himage :), (congrArg Upd.slotA himage :), (congrArg Upd.slotB himage :), clockLost_keptPower c s, fun hs ht ha hv => ?_⟩
    have hs : strapped v = false := by rw [hstrap]; simpa using hs
    subst hu
    obtain ⟨-, hsession, hend, hb⟩ := hflashed.runsTrial hs ht ha hv
    exact ⟨hsession, by rw [hend, hnow]; exact congrArg some (Nat.zero_add _), hb⟩
  case none =>
    refine congrArg Host.Outcome.next ?_
    simp [warmBoot, hp]

end Sys2Proof.MemorySystem

/-! PROOFS. Memories that answer, fail and run calibration steps: what each changes (R236, R238, R246, R247, R250, Table 8.7). -/

namespace Sys2Proof.Architecture

open Sys2Proof.Machine Sys2Proof.Laws

section
variable {s t : State} (h : Ends s t)
include h

theorem Ends.mem : t.mem = s.mem := (congrArg State.mem h.rest :)
theorem Ends.fab : t.fab = s.fab := (congrArg State.fab h.rest :)
end

end Sys2Proof.Architecture

namespace Sys2Proof.MemorySystem

open Sys2Proof.Machine Sys2Proof.Laws Sys2Proof.Architecture

/-! Controllers and arbiters by number. -/

section
variable {s : State} {p j : Nat}

theorem pcAt_modPc_ne {g : PcCtl → PcCtl} (h : j ≠ p) : pcAt (modPc s p g) j = pcAt s j := fmap_getD_set_ne h.symm

theorem modPc_eq {g : PcCtl → PcCtl} {x : PcCtl} (h : g (pcAt s p) = x) : modPc s p g = modPc s p (fun _ => x) := by unfold modPc; rw [h]

theorem arbAt_modArb_ne {g : Arb → Arb} (h : j ≠ p) : arbAt (modArb s p g) j = arbAt s j := fmap_getD_set_ne h.symm

@[simp] theorem qportAt_modQport (g : QportCtl → QportCtl) : qportAt (modQport s p g) p = g (qportAt s p) := by simp [qportAt, modQport]

theorem pcAt_of_mem {t : State} (h : t.mem.pcs = s.mem.pcs) (j : Nat) : pcAt t j = pcAt s j := congrArg (fun m : FMap PcCtl => m.getD j {}) h

theorem arbAt_of_fab {t : State} (h : t.fab.arbs = s.fab.arbs) (j : Nat) : arbAt t j = arbAt s j := congrArg (fun m : FMap Arb => m.getD j {}) h
end

/-! One bit of a mask. -/

theorem getLsbD_one_bit {w p : Nat} (hp : p < w) (j : Nat) : (BitVec.ofNat w (2 ^ p)).getLsbD j = decide (j = p) := by
  rw [BitVec.getLsbD_ofNat, Nat.testBit_two_pow]
  by_cases h : j = p
  · subst h
    rw [decide_eq_true hp, decide_eq_true rfl]
    rfl
  · rw [decide_eq_false h, decide_eq_false (Ne.symm h), Bool.and_false]

/-! Answers of a memory out of service (R236, R238, R246). -/

/-- The state without responses, requests in flight and free values. -/
def besideAnswers (s : State) : State := { s with freeCtr := 0, fab.txs := [], fab.resps := [] }

theorem besideAnswers_respond (x : FabTx) (err poisoned : Bool) (data : List Byte) (s : State) : besideAnswers (respond x err poisoned data s) = besideAnswers s := by
  unfold respond
  split <;> rfl

theorem besideAnswers_answerOut (x : FabTx) (s : State) : besideAnswers (answerOut x s) = besideAnswers s :=
  (besideAnswers_respond x false (!x.req.write) (poisonedBytes s x.req.len) s :)

theorem besideAnswers_answersOut (l : List PcReq) (s : State) : besideAnswers (l.foldl (fun s q => answerOut q.tx s) s) = besideAnswers s :=
  foldl_view (fun s (q : PcReq) => besideAnswers_answerOut q.tx s) l s

/-! A port or PC out of service (R238, R246, Table 16.1). -/

/-- The failure is journaled before the holder of a pair yields. -/
def failureJournaled (object : Nat) (s : State) : State := journalAdd { s with mem.ueSrc := true } 5 8 deviceFn 6 object 0

theorem memPortOut_beside (object : Nat) (s : State) :
    { besideGroups (memPortOut object s) with pair := {} } = { besideGroups (failureJournaled object s) with pair := {} } := faultYield_beside _

/-- PC p stands still, its queue dropped (R246). -/
def pcStopped (p : Nat) (s : State) : State :=
  modPc { s with mem.pcOut := s.mem.pcOut ||| BitVec.ofNat 64 (2 ^ p) } p
    (fun x => { x with queue := [], inOrder := [], inService := none, retry := [], alerts := none, calDue := none, deferred := false })

theorem pcFails_eq (p : Nat) (s : State) : pcFails p s = memPortOut p ((pcAt s p).queue.foldl (fun s q => answerOut q.tx s) (pcStopped p s)) := rfl

theorem pcFails_beside (p : Nat) (s : State) : { besideGroups (besideAnswers (pcFails p s)) with pair := {}, journal := {} } =
    { besideGroups (besideAnswers { pcStopped p s with mem.ueSrc := true }) with pair := {}, journal := {} } := by
  rw [pcFails_eq]
  generalize hu : (pcAt s p).queue.foldl (fun s q => answerOut q.tx s) (pcStopped p s) = u
  have hanswers : besideAnswers u = besideAnswers (pcStopped p s) := hu ▸ besideAnswers_answersOut ..
  calc { besideGroups (besideAnswers (memPortOut p u)) with pair := {}, journal := {} }
      = { besideAnswers { besideGroups (failureJournaled p u) with pair := {} } with journal := {} } :=
        congrArg (fun v => { besideAnswers v with journal := {} }) (memPortOut_beside p u)
    _ = { besideGroups (besideAnswers { pcStopped p s with mem.ueSrc := true }) with pair := {}, journal := {} } :=
        congrArg (fun v => { besideGroups { v with mem.ueSrc := true } with pair := {}, journal := {} }) hanswers

theorem pcFails_mem (p : Nat) (s : State) : (pcFails p s).mem = { (pcStopped p s).mem with ueSrc := true } := (congrArg State.mem (pcFails_beside p s) :)

theorem pcFails_arbs (p : Nat) (s : State) : (pcFails p s).fab.arbs = s.fab.arbs := (congrArg (fun s => s.fab.arbs) (pcFails_beside p s) :)

/-- The failure of a PC is journaled in class 5, after what was journaled before. -/
theorem pcFails_journal (p : Nat) (s : State) : s.journal.staged ⊆ (pcFails p s).journal.staged ∧ ∃ e ∈ (pcFails p s).journal.staged, e.cls = 5 ∧ e.object = p := by
  rw [pcFails_eq]
  generalize hu : (pcAt s p).queue.foldl (fun s q => answerOut q.tx s) (pcStopped p s) = u
  have hanswers : besideAnswers u = besideAnswers (pcStopped p s) := hu ▸ besideAnswers_answersOut ..
  have hstaged : u.journal.staged = s.journal.staged := (congrArg (fun s => s.journal.staged) hanswers :)
  have hfailed : (memPortOut p u).journal.staged = (failureJournaled p u).journal.staged := (congrArg (fun s => s.journal.staged) (memPortOut_beside p u) :)
  rw [hfailed]
  refine ⟨?_, _, List.mem_append_right _ (.head _), rfl, rfl⟩
  rw [← hstaged]
  exact List.subset_append_left _ _

section
variable {p j : Nat} {s : State}

theorem pcAt_pcFails : pcAt (pcFails p s) p = { pcAt s p with queue := [], inOrder := [], inService := none, retry := [], alerts := none, calDue := none, deferred := false } := by
  rw [pcAt_of_mem (t := pcFails p s) (s := pcStopped p s) (by rw [pcFails_mem])]
  exact pcAt_modPc ..

theorem pcAt_pcFails_ne (h : j ≠ p) : pcAt (pcFails p s) j = pcAt s j := by
  rw [pcAt_of_mem (t := pcFails p s) (s := pcStopped p s) (by rw [pcFails_mem])]
  exact pcAt_modPc_ne h

theorem pcOut_pcFails (hp : p < 64) (j : Nat) : (pcFails p s).mem.pcOut.getLsbD j = (s.mem.pcOut.getLsbD j || decide (j = p)) := by
  rw [pcFails_mem]
  exact (BitVec.getLsbD_or ..).trans (congrArg _ (getLsbD_one_bit hp j))
end

/-! The calibration step at the end of a burst (R250, R439). -/

/-- A step that passes: it is counted, the temperature is kept, the PC is busy for its span. -/
def stepRun (p : Nat) (s : State) : State :=
  modPc { s with mem.calSteps := inc32 s.mem.calSteps, mem.calTemp := s.mem.calTemp.set p ((pcAt s p).dueTemp.getD (s.mem.hbmTemp : Int)) } p
    (fun x => { x with calDue := none, dueTemp := none, deferred := false, lastCal := s.now, busyUntil := x.busyUntil + stepSpan })

section
variable {p : Nat} {s : State}

theorem runStep_notDue (h : (pcAt s p).calDue = none) (ok : Bool) : runStep p ok s = s := by simp [runStep, h]

theorem runStep_passes (h : (pcAt s p).calDue ≠ none) : Ends (stepRun p s) (runStep p true s) := by
  unfold runStep
  rw [if_neg (by simpa using h), if_pos rfl]
  exact foldl_ends (fun s n => finishCmd_ends n 1 0 0 s) _ _

theorem runStep_fails (h : (pcAt s p).calDue ≠ none) : ∃ u, Ends s u ∧ runStep p false s = pcFails p u := by
  unfold runStep
  rw [if_neg (by simpa using h), if_neg Bool.false_ne_true]
  exact ⟨_, foldl_ends (fun s n => endCmd_ends n stCheck 0 0 s) _ s, rfl⟩

/-- Whether it passes or fails, a step concerns its own PC; no arbiter and no counter of bursts changes, and what is journaled stays. -/
theorem runStep_frame (ok : Bool) : (∀ j, j ≠ p → pcAt (runStep p ok s) j = pcAt s j) ∧ (runStep p ok s).fab.arbs = s.fab.arbs ∧
    (runStep p ok s).mem.emergencyRefresh = s.mem.emergencyRefresh ∧ (runStep p ok s).mem.calDeferred = s.mem.calDeferred ∧ s.journal.staged ⊆ (runStep p ok s).journal.staged := by
  by_cases h : (pcAt s p).calDue = none
  · rw [runStep_notDue h]
    exact ⟨fun _ _ => rfl, rfl, rfl, rfl, List.Subset.refl _⟩
  · cases ok with
    | true =>
      have hends := runStep_passes h
      rw [hends.fab, hends.mem]
      exact ⟨fun j hj => (pcAt_of_mem (s := stepRun p s) (by rw [hends.mem]) j).trans (pcAt_modPc_ne hj), rfl, rfl, rfl, hends.staged⟩
    | false =>
      obtain ⟨u, hends, hfails⟩ := runStep_fails h
      rw [hfails, pcFails_arbs, hends.fab, pcFails_mem]
      refine ⟨fun j hj => (pcAt_pcFails_ne hj).trans (pcAt_of_mem (by rw [hends.mem]) j), rfl, ?_, ?_, List.Subset.trans hends.staged (pcFails_journal p u).1⟩
      · exact (congrArg Mem.emergencyRefresh hends.mem :)
      · exact (congrArg Mem.calDeferred hends.mem :)
end

end Sys2Proof.MemorySystem

/-! PROOFS. Parity: replays, failures in a row, and what is counted (R238, R245, R246, R440). -/

namespace Sys2Proof.MemorySystem

open Sys2Proof.Machine Sys2Proof.Laws Sys2Proof.Architecture

/-! A record changes no fault counter but those of the PCIe link and of the queues (R418, R419). -/

section
variable {k : Nat}

/-- The counter of fault class k in FAULTS. -/
def faultCount (k : Nat) (s : State) : Option Nat := s.journal.faults.get? k

theorem faultCount_journalAdd_ne {cls : Nat} (h : cls ≠ k) (s : State) (b c d e f : Nat) : faultCount k (journalAdd s cls b c d e f) = faultCount k s := fmap_get?_set_ne h

theorem faultCount_journalAdd (s : State) (b c d e f : Nat) : faultCount k (journalAdd s k b c d e f) = some (inc32 (s.journal.faults.getD k 0)) := fmap_get?_set_self ..

theorem faultCount_countFault (s : State) : faultCount k (countFault s k) = some (inc32 (s.journal.faults.getD k 0)) := fmap_get?_set_self ..

theorem faultCount_emit (s : State) (o : Out) : faultCount k (emit s o) = faultCount k s := rfl

theorem faultCount_cqPut (hk : 10 ≠ k) (f n : Nat) (r : Rec) (a : Bool) (sub : Option Nat) (ok : Bool) (s : State) : faultCount k (cqPut f n r a sub ok s) = faultCount k s := by
  simp only [cqPut]
  split
  · rfl
  · split
    · rfl
    · exact faultCount_journalAdd_ne hk ..

theorem faultCount_ferryFinish (c : Client) (x : FerryKept) (s : State) : faultCount k (ferryFinish c x s) = faultCount k s := by
  have hanswer : ∀ u, faultCount k (ferrySendAnswer c x.seq x.answer u) = faultCount k u := fun u => by
    unfold ferrySendAnswer
    exact foldl_view (v := faultCount k) (fun s i => faultCount_emit s _) _ u
  exact (faultCount_emit ..).trans (hanswer _)

theorem faultCount_orphanOrWrite (hk : 10 ≠ k) (c : Cmd) (r : Rec) (s : State) : faultCount k (orphanOrWrite c r s) = faultCount k s := by
  simp only [orphanOrWrite]
  split
  · split
    · exact faultCount_cqPut hk ..
    · rfl
  · rfl

theorem faultCount_updateFailed (op o : Nat) (s : State) : faultCount k (updateFailed op o s) = faultCount k s := by
  unfold updateFailed
  split <;> rfl

theorem faultCount_completeCmd (h1 : 1 ≠ k) (h10 : 10 ≠ k) (n o p r0 r1 : Nat) (a : List Byte) (ok : Bool) (s : State) :
    faultCount k (completeCmd n o p r0 r1 a ok s) = faultCount k s := by
  unfold completeCmd
  split
  · rfl
  · rename_i i c _
    have hfailed : faultCount k (updateFailed (opcodeOf c.packet) o (setFlow s i ((flowCmds s i).filter (fun x => x.serial != n)))) = faultCount k s :=
      faultCount_updateFailed ..
    rw [← hfailed]
    generalize updateFailed (opcodeOf c.packet) o (setFlow s i ((flowCmds s i).filter (fun x => x.serial != n))) = u
    dsimp only
    split
    · exact faultCount_ferryFinish ..
    · split
      · split
        · exact faultCount_orphanOrWrite h10 ..
        · rfl
      · have hdone : faultCount k (if c.mirrorSerial.isSome then tagDone c.fn.val (flowOf c.packet) (tagOf c.packet) u else u) = faultCount k u := by split <;> rfl
        rw [← hdone]
        generalize (if c.mirrorSerial.isSome then tagDone c.fn.val (flowOf c.packet) (tagOf c.packet) u else u) = v
        split
        · exact faultCount_journalAdd_ne h1 ..
        · exact faultCount_cqPut h10 ..
end

/-! A parity error that is replayed is counted; an injected one is journaled as well and ends its command (R419, R440, R441). -/

/-- What a replayed parity error leaves behind on port or PC p, injected by FAULT_INJECT of this kind or not. -/
def parityCounted (kind p : Nat) (s : State) : State :=
  match injectionOf s kind p with
  | some (_, _, serial) => injectionDone serial s.journal.nextSeq (journalAdd s 3 1 deviceFn 6 p 0)
  | none => countFault s 3

theorem injectionDone_mem (serial seq : Nat) (s : State) : (injectionDone serial seq s).mem = s.mem := ((completeCmd_ends ..).mem.trans rfl :)

theorem parityCounted_mem (kind p : Nat) (s : State) : (parityCounted kind p s).mem = s.mem := by
  unfold parityCounted
  split
  · exact injectionDone_mem ..
  · rfl

theorem parityCounted_faults (kind p : Nat) (s : State) : (parityCounted kind p s).journal.faults.get? 3 = some (inc32 (s.journal.faults.getD 3 0)) := by
  unfold parityCounted
  split
  · exact (faultCount_completeCmd (k := 3) (by decide) (by decide) ..).trans (faultCount_journalAdd ..)
  · exact faultCount_countFault s

theorem parityCounted_staged {kind p : Nat} {s : State} (h : injectionOf s kind p = none) : (parityCounted kind p s).journal.staged = s.journal.staged := by
  unfold parityCounted
  rw [h]
  rfl

/-! PARITY_ALERT (R245, R246). -/

/-- Consecutive failures of one command or access, with one more of number k. -/
def failuresOf (last : Option (Nat × Nat)) (k : Nat) : Nat := match last with | some a => if a.1 = k then a.2 + 1 else 1 | none => 1

/-- PC p closes its rows and reissues what its retry buffer holds. -/
def pcReissues (p cmd : Nat) (s : State) : State :=
  modPc s p (fun x => { x with openRows := [], alerts := some (cmd, failuresOf (pcAt s p).alerts cmd), retry := (buffered s.now (pcAt s p)).map (fun e => (e.1, s.now + replayTicks)),
                               busyUntil := max x.busyUntil (s.now + replayTicks) })

def pcReplays (p cmd : Nat) (s : State) : State := { pcReissues p cmd s with mem.parityReplays := inc32 s.mem.parityReplays }

theorem pcAt_pcReplays (p cmd j : Nat) (s : State) : pcAt (pcReplays p cmd s) j = pcAt (pcReissues p cmd s) j := rfl

section
variable {s : State} {p cmd : Nat}

theorem parityAlert_idle (h : pcUp s p = false ∨ ∀ e ∈ buffered s.now (pcAt s p), e.1 ≠ cmd) : parityAlert p cmd s = s := by
  refine if_pos ?_
  rcases h with h | h
  · simp [h]
  · simpa using Or.inr fun a b hab => h (a, b) hab

theorem parityAlert_taken (hup : pcUp s p = true) (hlive : ∃ e ∈ buffered s.now (pcAt s p), e.1 = cmd) :
    parityAlert p cmd s = if 3 ≤ failuresOf (pcAt s p).alerts cmd then pcFails p s else parityCounted 3 p (pcReplays p cmd s) := by
  obtain ⟨e, he, hcmd⟩ := hlive
  refine (if_neg ?_).trans rfl
  simp only [hup, Bool.not_true, Bool.false_or, Bool.not_eq_true', Bool.not_eq_false, List.any_eq_true]
  exact ⟨e, he, beq_iff_eq.mpr hcmd⟩
end

/-! QDR_PARITY_ERROR (R238). -/

/-- QPORT p reissues the accesses of the last 16 cycles. -/
def qportReplays (p access : Nat) (s : State) : State :=
  modQport { s with mem.qdrReplays := inc32 s.mem.qdrReplays, mem.qFail := s.mem.qFail.set p (access, failuresOf (s.mem.qFail.get? p) access) } p
    (fun x => { x with recent := (x.recent.filter (fun e => decide (s.now < e.2 + 8))).map (fun e => (e.1, s.now + 16)), busyUntil := s.now + 16 })

section
variable {s : State} {p access : Nat}

theorem qdrParityError_idle (h : clockLost s .qdr = true ∨ s.mem.qportIn.getLsbD p = false) : qdrParityError p access s = s := by
  refine if_pos ?_
  rcases h with h | h <;> simp [h]

theorem qdrParityError_taken (hclk : clockLost s .qdr = false) (hin : s.mem.qportIn.getLsbD p = true) :
    qdrParityError p access s = if 3 ≤ failuresOf (s.mem.qFail.get? p) access then qportFails p s else parityCounted 4 p (qportReplays p access s) :=
  (if_neg (by simp [hclk, hin])).trans rfl
end

end Sys2Proof.MemorySystem

/-! PROOFS. Refresh, calibration, promotion and the order of requests in a PC controller (R239 to R245, R250). -/

namespace Sys2Proof.MemorySystem

open Sys2Proof.Machine Sys2Proof.Laws Sys2Proof.Architecture

/-! REFRESH_DUE (R242, R244). -/

/-- PC p with its next refresh one interval later. -/
def refreshed (p : Nat) (s : State) : PcCtl := { pcAt s p with nextRefresh := (pcAt s p).nextRefresh + refreshTicks s }

def refreshTaken (p : Nat) (s : State) : State := modPc s p (fun x => { x with nextRefresh := x.nextRefresh + refreshTicks s })

/-- One more refresh is pending at PC p. -/
def pendingCounted (p : Nat) (s : State) : State := modPc (refreshTaken p s) p (fun x => { x with pendRefresh := x.pendRefresh + 1 })

/-- The ninth pending refresh takes the channel's arbiter. -/
def channelTaken (p : Nat) (s : State) : State := preempt (56 + p) true { refreshTaken p s with mem.emergencyRefresh := inc32 s.mem.emergencyRefresh }

/-- It goes out with the other eight. -/
def emergencyBurst (p : Nat) (s : State) : State :=
  journalAdd (modPc (channelTaken p s) p (fun x => { issueRefreshes (channelTaken p s).now 9 x with pendRefresh := 0 })) 8 0 deviceFn 6 p 0

/-- What an emergency burst of PC p makes of s, a calibration step apart. -/
structure BurstOf (p : Nat) (s t : State) : Prop where
  pc : pcAt t p = { issueRefreshes s.now 9 (refreshed p s) with pendRefresh := 0 }
  others : ∀ j, j ≠ p → pcAt t j = pcAt s j
  taken : (arbAt s (56 + p)).emergency = none → (arbAt t (56 + p)).emergency = some true
  arbs : ∀ a, a ≠ 56 + p → arbAt t a = arbAt s a
  counted : t.mem.emergencyRefresh = inc32 s.mem.emergencyRefresh
  entry : ∃ e ∈ t.journal.staged, e.cls = 8 ∧ e.object = p
  steps : t.mem.calSteps = s.mem.calSteps
  now : t.now = s.now

section
variable {p : Nat} {s : State} {ok : Bool}

theorem preempt_pc (hp : p < 64) : preempt (56 + p) true s = modArb s (56 + p) (fun x => match x.emergency with
    | none => { x with emergency := some true }
    | some _ => { x with emergencyWait := x.emergencyWait ++ [true] }) :=
  if_neg (by
    have h56 : 56 ≤ 56 + p := Nat.le_add_right ..
    have h120 : 56 + p < 120 := by omega
    simp [h56, h120])

@[simp] theorem pcAt_journalAdd (a b c d e f j : Nat) : pcAt (journalAdd s a b c d e f) j = pcAt s j := rfl

@[simp] theorem pcAt_refreshTaken : pcAt (refreshTaken p s) p = refreshed p s := pcAt_modPc ..

theorem channelTaken_eq (hp : p < 64) : channelTaken p s = modArb { refreshTaken p s with mem.emergencyRefresh := inc32 s.mem.emergencyRefresh } (56 + p) (fun x => match x.emergency with
    | none => { x with emergency := some true }
    | some _ => { x with emergencyWait := x.emergencyWait ++ [true] }) := preempt_pc hp

theorem channelTaken_mem (hp : p < 64) : (channelTaken p s).mem = { (refreshTaken p s).mem with emergencyRefresh := inc32 s.mem.emergencyRefresh } := by
  rw [channelTaken_eq hp]
  rfl

theorem pcAt_channelTaken (hp : p < 64) (j : Nat) : pcAt (channelTaken p s) j = pcAt (refreshTaken p s) j := pcAt_of_mem (by rw [channelTaken_mem hp]) j

theorem channelTaken_now (hp : p < 64) : (channelTaken p s).now = s.now := by
  rw [channelTaken_eq hp]
  rfl

theorem emergencyBurst_of (hp : p < 64) : BurstOf p s (emergencyBurst p s) where
  pc := by rw [emergencyBurst, pcAt_journalAdd, pcAt_modPc, pcAt_channelTaken hp, pcAt_refreshTaken, channelTaken_now hp]
  others j hj := by rw [emergencyBurst, pcAt_journalAdd, pcAt_modPc_ne hj, pcAt_channelTaken hp, refreshTaken, pcAt_modPc_ne hj]
  taken h := by
    have hsame : (arbAt { refreshTaken p s with mem.emergencyRefresh := inc32 s.mem.emergencyRefresh } (56 + p)).emergency = none := h
    change (arbAt (channelTaken p s) (56 + p)).emergency = some true
    rw [channelTaken_eq hp, arbAt_modArb, hsame]
  arbs a ha := by
    change arbAt (channelTaken p s) a = arbAt s a
    rw [channelTaken_eq hp, arbAt_modArb_ne ha]
    rfl
  counted := (congrArg Mem.emergencyRefresh (channelTaken_mem hp) :)
  entry := ⟨_, List.mem_append_right _ (.head _), rfl, rfl⟩
  steps := (congrArg Mem.calSteps (channelTaken_mem hp) :)
  now := channelTaken_now hp

theorem refreshDue_idle (h : pcUp s p = false ∨ s.now < (pcAt s p).nextRefresh) : refreshDue p ok s = s := by
  refine if_pos ?_
  rcases h with h | h <;> simp [h]

section
variable (hup : pcUp s p = true) (hdue : (pcAt s p).nextRefresh ≤ s.now)
include hup hdue

theorem refreshDue_taken : refreshDue p ok s =
    if 8 ≤ (pcAt s p).pendRefresh then
      (if (pcAt s p).deferred then runStep p ok { emergencyBurst p s with mem.calDeferred := inc32 (emergencyBurst p s).mem.calDeferred } else emergencyBurst p s)
    else if !(rtPresent (pcAt s p)) && !decide (s.now < (pcAt s p).busyUntil) then modPc (refreshTaken p s) p (issueRefreshes s.now 1)
    else { pendingCounted p s with mem.pendMax := max s.mem.pendMax ((pcAt s p).pendRefresh + 1) } :=
  (if_neg (by simp [hup, Nat.not_lt.mpr hdue])).trans rfl

theorem refreshDue_issues (h8 : (pcAt s p).pendRefresh < 8) (hrt : rtPresent (pcAt s p) = false) (hfree : (pcAt s p).busyUntil ≤ s.now) :
    refreshDue p ok s = modPc (refreshTaken p s) p (issueRefreshes s.now 1) := by
  rw [refreshDue_taken hup hdue, if_neg (Nat.not_le.mpr h8), if_pos (by simp [hrt, Nat.not_lt.mpr hfree])]

theorem refreshDue_postpones (h8 : (pcAt s p).pendRefresh < 8) (h : rtPresent (pcAt s p) = true ∨ s.now < (pcAt s p).busyUntil) : refreshDue p ok s =
    { pendingCounted p s with mem.pendMax := max s.mem.pendMax ((pcAt s p).pendRefresh + 1) } := by
  rw [refreshDue_taken hup hdue, if_neg (Nat.not_le.mpr h8), if_neg (by rcases h with h | h <;> simp [h])]

/-- The ninth refresh: the burst, and the step at its end where one has been deferred. -/
theorem refreshDue_emergency (hp : p < 64) (h8 : 8 ≤ (pcAt s p).pendRefresh) :
    ∃ b, BurstOf p s b ∧ ((pcAt s p).deferred = false → refreshDue p ok s = b ∧ b.mem.calDeferred = s.mem.calDeferred) ∧
      ((pcAt s p).deferred = true → refreshDue p ok s = runStep p ok b ∧ b.mem.calDeferred = inc32 s.mem.calDeferred) := by
  have hb := emergencyBurst_of (s := s) hp
  have hkept : (emergencyBurst p s).mem.calDeferred = s.mem.calDeferred := (congrArg Mem.calDeferred (channelTaken_mem hp) :)
  rw [refreshDue_taken hup hdue, if_pos h8]
  cases (pcAt s p).deferred with
  | false => exact ⟨_, hb, fun _ => ⟨rfl, hkept⟩, fun h => absurd h Bool.false_ne_true⟩
  | true =>
    exact ⟨{ emergencyBurst p s with mem.calDeferred := inc32 (emergencyBurst p s).mem.calDeferred },
      ⟨hb.pc, hb.others, hb.taken, hb.arbs, hb.counted, hb.entry, hb.steps, hb.now⟩, fun h => absurd h.symm Bool.false_ne_true, fun _ => ⟨rfl, congrArg inc32 hkept⟩⟩
end

/-! MAKE_UP_BURST (R243). -/

/-- PC p issues all its pending refreshes. -/
def pendingIssued (p : Nat) (s : State) : State := modPc s p (fun x => { issueRefreshes s.now x.pendRefresh x with pendRefresh := 0 })

theorem makeUpBurst_idle (h : pcUp s p = false ∨ (pcAt s p).pendRefresh = 0 ∨ rtPresent (pcAt s p) = true ∨ s.now < (pcAt s p).lastRt + 27 ∨ s.now < (pcAt s p).busyUntil) :
    makeUpBurst p ok s = s := by
  refine if_pos ?_
  rcases h with h | h | h | h | h <;> simp [idleTicks, h]

theorem makeUpBurst_runs (hup : pcUp s p = true) (hp : (pcAt s p).pendRefresh ≠ 0) (hrt : rtPresent (pcAt s p) = false) (hidle : (pcAt s p).lastRt + 27 ≤ s.now)
    (hfree : (pcAt s p).busyUntil ≤ s.now) : makeUpBurst p ok s = runStep p ok (pendingIssued p s) :=
  if_neg (by simp [idleTicks, hup, hp, hrt, Nat.not_lt.mpr hidle, Nat.not_lt.mpr hfree])

/-! CALIBRATION_STEP_DUE and CAL_DEFERRED (R250). -/

/-- The temperature has moved by 4 degrees since the last step. -/
def tempMoved (p : Nat) (temp : Option Int) (s : State) : Prop := ∃ d, temp = some d ∧ 4 ≤ (d - s.mem.calTemp.getD p 0).natAbs

theorem calibrationStepDue_taken {temp : Option Int} (hup : pcUp s p = true) (hnone : (pcAt s p).calDue = none) (h : (pcAt s p).lastCal + 125000000 ≤ s.now ∨ tempMoved p temp s) :
    calibrationStepDue p temp s = modPc s p (fun x => { x with calDue := some s.now, dueTemp := temp }) := by
  refine if_neg ?_
  rcases h with h | ⟨d, rfl, hd⟩
  · simp [hup, hnone, ticksMs, h]
  · simp [hup, hnone, hd]

theorem calibrationStepDue_idle {temp : Option Int}
    (h : pcUp s p = false ∨ (pcAt s p).calDue ≠ none ∨ (s.now < (pcAt s p).lastCal + 125000000 ∧ ∀ d, temp = some d → (d - s.mem.calTemp.getD p 0).natAbs < 4)) :
    calibrationStepDue p temp s = s := by
  refine if_pos ?_
  rcases h with h | h | ⟨hnow, htemp⟩
  · simp [h]
  · simp [Option.isSome_iff_ne_none.mpr h]
  · cases temp with
    | none => simp [ticksMs, Nat.not_le.mpr hnow]
    | some d => simp [ticksMs, Nat.not_le.mpr hnow, Nat.not_le.mpr (htemp d rfl)]

theorem calDeferral_taken {n : Nat} (hup : pcUp s p = true) (hc : (pcAt s p).calDue = some n) (hn : n + 12500000 ≤ s.now) :
    calDeferral p s = modPc s p (fun x => { x with deferred := true }) := by
  simp [calDeferral, hc, hup, ticksMs, hn]

theorem calDeferral_idle (h : pcUp s p = false ∨ ∀ n, (pcAt s p).calDue = some n → s.now < n + 12500000) : calDeferral p s = s := by
  unfold calDeferral
  split
  next n hc =>
    refine if_neg ?_
    rcases h with h | h
    · simp [h]
    · simp [ticksMs, Nat.not_le.mpr (h n hc)]
  next => rfl

/-! AGE_PROMOTION (R241). -/

/-- Request id of PC p moves up one class. -/
def promoted (p id : Nat) (s : State) : State := modPc s p (fun x => { x with queue := x.queue.map (fun e => if e.id = id then { e with cls := e.cls - 1 } else e) })

theorem agePromotion_taken {id a : Nat} {q : PcReq} (hup : pcUp s p = true) (hq : (pcAt s p).queue.find? (fun q => q.id == id) = some q) (ha : promotionAge q = some a)
    (hold : q.arrived + a < s.now) : agePromotion p id s = { promoted p id s with mem.agePromotions := inc32 s.mem.agePromotions } := by
  unfold agePromotion
  simp only [hq, ha]
  exact if_neg (by simp [hup, Nat.not_le.mpr hold])

theorem agePromotion_idle {id : Nat} (h : pcUp s p = false ∨ ∀ q a, (pcAt s p).queue.find? (fun q => q.id == id) = some q → promotionAge q = some a → s.now ≤ q.arrived + a) :
    agePromotion p id s = s := by
  unfold agePromotion
  dsimp only
  split
  · rfl
  next q hq =>
    split
    · rfl
    next a ha =>
      refine if_pos ?_
      rcases h with h | h
      · simp [h]
      · simp [h q a hq ha]

/-! NEXT_REQUEST (R239, R240, R245). -/

theorem nextRequest_idle {f : ScrubFind} (h : pcUp s p = false ∨ s.now < (pcAt s p).busyUntil) : nextRequest p f s = s := by
  refine if_pos ?_
  rcases h with h | h <;> simp [h]

section
variable {f : ScrubFind} (hup : pcUp s p = true) (hfree : (pcAt s p).busyUntil ≤ s.now)
include hup hfree

/-- A full retry buffer, or nothing to serve: the request in service has ended. -/
theorem nextRequest_settles (h : 64 ≤ (buffered s.now (settlePc s.now (pcAt s p))).length ∨ nextServed (settlePc s.now (pcAt s p)) = none) :
    nextRequest p f s = modPc s p (fun _ => settlePc s.now (pcAt s p)) := by
  refine (if_neg (by simp [hup, Nat.not_lt.mpr hfree])).trans ?_
  rcases h with h | h
  · exact if_pos h
  · split
    · rfl
    · rw [h]

theorem nextRequest_serves {q : PcReq} (hroom : (buffered s.now (settlePc s.now (pcAt s p))).length < 64) (hq : nextServed (settlePc s.now (pcAt s p)) = some q) :
    nextRequest p f s = serveAccess true q.tx f (modPc s p (fun _ => serveRequest s.now (settlePc s.now (pcAt s p)) q)) := by
  refine (if_neg (by simp [hup, Nat.not_lt.mpr hfree])).trans ?_
  rw [if_neg (Nat.not_le.mpr hroom), hq]
end

end

/-! The request that is served next (R239, R240). -/

theorem foldl_min_le {α : Type} (f : α → Nat) (l : List α) (m : Nat) : l.foldl (fun m q => min m (f q)) m ≤ m ∧ ∀ e ∈ l, l.foldl (fun m q => min m (f q)) m ≤ f e := by
  induction l generalizing m with
  | nil => simp
  | cons a l ih =>
    obtain ⟨hm, hall⟩ := ih (min m (f a))
    refine ⟨hm.trans (min_le_left ..), fun e he => ?_⟩
    rcases List.mem_cons.mp he with rfl | he
    · exact hm.trans (min_le_right ..)
    · exact hall e he

/-- A request of a PC that finds its row open. -/
def rowOpen (x : PcCtl) (q : PcReq) : Prop := x.openRows.get? (bankOf q.tx) = some (rowOf q.tx)

/-- The first of a list is in it, of its least class, and on an open row where one of that class is. -/
theorem pickOf_some {x : PcCtl} {l : List PcReq} {q : PcReq} (h : pickOf x l = some q) : q ∈ l ∧ ∀ e ∈ l, q.cls ≤ e.cls ∧ (e.cls = q.cls → rowOpen x e → rowOpen x q) := by
  unfold pickOf at h
  dsimp only at h
  obtain ⟨-, hleast⟩ := foldl_min_le PcReq.cls l 3
  generalize l.foldl (fun m q => min m q.cls) 3 = least at h hleast
  have hclass : ∀ e ∈ l.filter (fun q => q.cls == least), e ∈ l ∧ e.cls = least := fun e he => by simpa using he
  split at h
  next r hr =>
    obtain rfl : r = q := Option.some.inj h
    obtain ⟨hmem, hcls⟩ := hclass r (List.mem_of_find?_eq_some hr)
    exact ⟨hmem, fun e he => ⟨hcls ▸ hleast e he, fun _ _ => by simpa [rowOpen] using List.find?_some hr⟩⟩
  next hr =>
    obtain ⟨hmem, hcls⟩ := hclass q (List.mem_of_head? h)
    refine ⟨hmem, fun e he => ⟨hcls ▸ hleast e he, fun hsame hopen => ?_⟩⟩
    have hin : e ∈ l.filter (fun q => q.cls == least) := List.mem_filter.mpr ⟨he, by simp [hsame, hcls]⟩
    exact absurd hopen (by simpa [rowOpen] using List.find?_eq_none.mp hr e hin)

/-- A request is free when no earlier one to its atom is queued (R240). -/
def freeOf (x : PcCtl) (q : PcReq) : Prop := ∀ d ∈ x.queue, d.id < q.id → sameAtom d.tx.req q.tx.req = false

theorem mem_free_iff {x : PcCtl} {q : PcReq} :
    q ∈ x.queue.filter (fun q => !(x.queue.any (fun e => decide (e.id < q.id) && sameAtom e.tx.req q.tx.req))) ↔ q ∈ x.queue ∧ freeOf x q := by
  simp [freeOf]

theorem nextServed_mem {x : PcCtl} {q : PcReq} (h : nextServed x = some q) : q ∈ x.queue := by
  unfold nextServed at h
  split at h
  next r hr => exact Option.some.inj h ▸ List.mem_of_find?_eq_some hr
  next =>
    split at h
    next r hr => exact Option.some.inj h ▸ List.mem_of_find?_eq_some hr
    next => exact (mem_free_iff.mp (pickOf_some h).1).1

/-- With no bank in order and no debug access, the next request is the best of the free ones. -/
theorem nextServed_best {x : PcCtl} {q : PcReq} (h : nextServed x = some q) (hin : x.inOrder = []) (hdebug : ∀ e ∈ x.queue, e.cls ≠ 3) :
    freeOf x q ∧ ∀ e ∈ x.queue, freeOf x e → q.cls ≤ e.cls ∧ (e.cls = q.cls → rowOpen x e → rowOpen x q) := by
  have hpick : nextServed x = pickOf x (x.queue.filter (fun q => !(x.queue.any (fun e => decide (e.id < q.id) && sameAtom e.tx.req q.tx.req)))) := by
    have hnone : x.queue.find? (fun q => q.cls == 3) = none := List.find?_eq_none.mpr fun e he => by simpa using hdebug e he
    have horder : x.queue.find? (fun q => x.inOrder.any (fun e => e.1 == bankOf q.tx)) = none := List.find?_eq_none.mpr fun e _ => by simp [hin]
    unfold nextServed
    rw [hnone, horder]
  rw [hpick] at h
  obtain ⟨hmem, hbest⟩ := pickOf_some h
  exact ⟨(mem_free_iff.mp hmem).2, fun e he hfree => hbest e (mem_free_iff.mpr ⟨he, hfree⟩)⟩

end Sys2Proof.MemorySystem

/-! PROOFS. What a memory serves and a scrubber finds, and the two commands of the memories (R234, R247, R249). -/

namespace Sys2Proof.MemorySystem

open Sys2Proof.Machine Sys2Proof.Laws Sys2Proof.Architecture Sys2Proof.CommandProtocol

/-! Accesses that are served (R247). -/

section
variable {hbm : Bool} {x : FabTx} {s : State}

theorem respond_mem (x : FabTx) (err poisoned : Bool) (data : List Byte) (s : State) : (respond x err poisoned data s).mem = s.mem :=
  (congrArg State.mem (besideAnswers_respond x err poisoned data s) :)

theorem serveAccess_write (hs : x.scrub = none) (hw : x.req.write = true) (f : ScrubFind) : serveAccess hbm x f s = serveWrite hbm x s := by
  unfold serveAccess
  rw [hs]
  exact if_pos hw

theorem serveAccess_read (hs : x.scrub = none) (hw : x.req.write = false) (f : ScrubFind) : serveAccess hbm x f s = serveRead hbm x f s := by
  unfold serveAccess
  rw [hs]
  exact if_neg (ne_true_of_eq_false hw)

theorem serveAccess_scrub {r : ScrubFind} (hs : x.scrub = some r) (f : ScrubFind) : serveAccess hbm x f s = serveScrub hbm x r s := by
  unfold serveAccess
  rw [hs]

theorem atomWritten_mem (hbm : Bool) (a : Nat) (s : State) : (atomWritten hbm a s).mem = { s.mem with poison := s.mem.poison.filter (fun e => e != (hbm, a)) } := by
  unfold atomWritten
  dsimp only
  split
  · rfl
  · exact injectionDone_mem ..

/-- Written atoms lose their poison, and no byte changes with it. -/
theorem atomsWritten_mem (hbm : Bool) (l : List Nat) (s : State) : (l.foldl (fun s a => atomWritten hbm a s) s).mem.cells = s.mem.cells ∧
    ∀ e, e ∈ (l.foldl (fun s a => atomWritten hbm a s) s).mem.poison ↔ e ∈ s.mem.poison ∧ ¬ (e.1 = hbm ∧ e.2 ∈ l) := by
  induction l generalizing s with
  | nil => simp
  | cons a l ih =>
    obtain ⟨hcells, hpoison⟩ := ih (atomWritten hbm a s)
    have hmem := atomWritten_mem hbm a s
    refine ⟨hcells.trans (congrArg Mem.cells hmem :), fun e => (hpoison e).trans ?_⟩
    obtain ⟨m, b⟩ := e
    simp only [hmem, List.mem_filter, bne_iff_ne, ne_eq, Prod.mk.injEq, List.mem_cons]
    tauto

theorem serveWrite_cells (hbm : Bool) (x : FabTx) (s : State) : (serveWrite hbm x s).mem.cells = Memory.writeAll s.mem.cells x.req.addr.toNat x.req.data := by
  unfold serveWrite
  dsimp only
  rw [respond_mem]
  have hwritten := (atomsWritten_mem hbm (atomsWhole hbm x.req) { s with mem.cells := Memory.writeAll s.mem.cells x.req.addr.toNat x.req.data }).1
  split
  · exact (foldl_view (v := fun s => s.mem.cells) (fun s (a : Nat) => (rfl : (markPoison hbm a s).mem.cells = s.mem.cells)) _ _).trans hwritten
  · exact hwritten

theorem serveWrite_poison (hp : x.req.poisoned = false) (e : Bool × Nat) :
    e ∈ (serveWrite hbm x s).mem.poison ↔ e ∈ s.mem.poison ∧ ¬ (e.1 = hbm ∧ e.2 ∈ atomsWhole hbm x.req) := by
  unfold serveWrite
  dsimp only
  rw [respond_mem, if_neg (ne_true_of_eq_false hp)]
  exact (atomsWritten_mem hbm (atomsWhole hbm x.req) { s with mem.cells := Memory.writeAll s.mem.cells x.req.addr.toNat x.req.data }).2 e

/-- What an error code says changes counters alone. -/
theorem readFound_mem (hbm : Bool) (f : ScrubFind) (s : State) : (readFound hbm f s).mem.poison = s.mem.poison ∧ (readFound hbm f s).mem.cells = s.mem.cells := by
  cases f with
  | clean => exact ⟨rfl, rfl⟩
  | correctable d => cases hbm <;> cases d <;> exact ⟨rfl, rfl⟩
  | uncorrectable => cases hbm <;> exact ⟨rfl, rfl⟩

theorem serveRead_clean (h : ∀ a ∈ atomsOf hbm x.req, (hbm, a) ∉ s.mem.poison) :
    serveRead hbm x .clean s = respond x false false (Memory.bytes s.mem.cells x.req.addr.toNat x.req.len) s :=
  if_neg (by simpa [readFound] using h)

theorem serveRead_poisoned {f : ScrubFind} (h : f = .uncorrectable ∨ ∃ a ∈ atomsOf hbm x.req, (hbm, a) ∈ s.mem.poison) :
    serveRead hbm x f s = spendFree (respond x false true (poisonedBytes (readFound hbm f s) x.req.len) (readFound hbm f s)) := by
  refine if_pos ?_
  rw [(readFound_mem hbm f s).1]
  rcases h with rfl | ⟨a, ha, hp⟩
  · rfl
  · exact Bool.or_eq_true_iff.mpr (.inr (List.any_eq_true.mpr ⟨a, ha, List.contains_iff_mem.mpr hp⟩))

/-! What a scrub read finds (R249). -/

theorem serveScrub_mem {r : ScrubFind} : (serveScrub hbm x r s).mem =
    (match r with | .clean => s | .correctable d => scrubCorrected hbm d (memOffset hbm x.req) s | .uncorrectable => scrubPoison hbm (memOffset hbm x.req) s).mem := respond_mem ..

/-- A corrected error before the threshold of its pass is looked at. -/
def scrubCounted (hbm onDie : Bool) (s : State) : State :=
  setScrub hbm { scrubOf s hbm with ceThisPass := (scrubOf s hbm).ceThisPass + 1 }
    (if !hbm then { s with mem.qdrCe := inc32 s.mem.qdrCe } else if onDie then { s with mem.hbmCeDie := inc32 s.mem.hbmCeDie } else { s with mem.hbmCeHost := inc32 s.mem.hbmCeHost })

/-- The threshold adds an entry and the source, and takes nothing away. -/
theorem scrubCorrected_mem (hbm onDie : Bool) (addr : Nat) (s : State) : ∃ b, (scrubCorrected hbm onDie addr s).mem = { (scrubCounted hbm onDie s).mem with ceSrc := b } ∧
    ((scrubOf s hbm).ceThreshold ≠ 0 → (scrubOf s hbm).ceThisPass + 1 = (scrubOf s hbm).ceThreshold → b = true) := by
  unfold scrubCorrected
  dsimp only
  split
  · exact ⟨true, rfl, fun _ _ => rfl⟩
  next h => exact ⟨_, rfl, fun h0 h1 => absurd ⟨h0, h1⟩ h⟩

/-- The UE log keeps its last 32 entries, the new one last. -/
theorem scrubPoison_ueLog (hbm : Bool) (addr : Nat) (s : State) : (scrubPoison hbm addr s).mem.ueLog.getLast? = some (hbm, addr) ∧ (scrubPoison hbm addr s).mem.ueLog.length ≤ 32 := by
  have hlog : (scrubPoison hbm addr s).mem.ueLog = (s.mem.ueLog ++ [(hbm, addr)]).drop ((s.mem.ueLog ++ [(hbm, addr)]).length - 32) := by cases hbm <;> rfl
  rw [hlog, List.length_drop, List.length_append, List.length_singleton]
  refine ⟨?_, by omega⟩
  rw [List.drop_append_of_le_length (by omega), List.getLast?_concat]

theorem scrubPoison_marks (hbm : Bool) (addr : Nat) (s : State) : (hbm, addr) ∈ (scrubPoison hbm addr s).mem.poison :=
  List.mem_append_right _ (.head _)

theorem scrubPoison_ueSrc (hbm : Bool) (addr : Nat) (s : State) : (scrubPoison hbm addr s).mem.ueSrc = true := rfl

/-! SCRUB (R249). -/

theorem issueTx_fab (scrub : Option ScrubFind) (r : FabReq) (s : State) : issueTx scrub r s = { s with fab := (issueTx scrub r s).fab } := by
  unfold issueTx
  split
  · rfl
  · split <;> rfl

@[simp] theorem scrubOf_setScrub (hbm : Bool) (x : ScrubCfg) (s : State) : scrubOf (setScrub hbm x s) hbm = x := by cases hbm <;> rfl

@[simp] theorem scrubOf_setScrub_other (hbm : Bool) (x : ScrubCfg) (s : State) : scrubOf (setScrub hbm x s) (!hbm) = scrubOf s (!hbm) := by cases hbm <;> rfl

theorem setScrub_beside (hbm : Bool) (x : ScrubCfg) (s : State) : (setScrub hbm x s).fab = s.fab ∧ (setScrub hbm x s).journal = s.journal ∧ (setScrub hbm x s).mem.poison = s.mem.poison := by
  cases hbm <;> exact ⟨rfl, rfl, rfl⟩

/-- The scrubber of a memory after its next atom. -/
def scrubAdvanced (hbm : Bool) (s : State) : ScrubCfg :=
  if atomCount s hbm ≤ (scrubOf s hbm).nextAtom + 1 then
    { scrubOf s hbm with nextAtom := 0, ceThisPass := 0, passes := inc32 (scrubOf s hbm).passes, passStart := s.now }
  else { scrubOf s hbm with nextAtom := (scrubOf s hbm).nextAtom + 1 }

theorem scrubAdvanced_nextAtom (hbm : Bool) (s : State) : (scrubAdvanced hbm s).nextAtom = if atomCount s hbm ≤ (scrubOf s hbm).nextAtom + 1 then 0 else (scrubOf s hbm).nextAtom + 1 := by
  unfold scrubAdvanced
  split <;> rfl

theorem scrubAdvanced_passes (hbm : Bool) (s : State) :
    (scrubAdvanced hbm s).passes = if atomCount s hbm ≤ (scrubOf s hbm).nextAtom + 1 then inc32 (scrubOf s hbm).passes else (scrubOf s hbm).passes := by
  unfold scrubAdvanced
  split <;> rfl

theorem scrubAdvanced_period (hbm : Bool) (s : State) : (scrubAdvanced hbm s).period = (scrubOf s hbm).period := by
  unfold scrubAdvanced
  split <;> rfl

theorem scrub_idle {r : ScrubFind} (h : clockLost s (if hbm then .hbm else .qdr) = true ∨ clockLost s .fab = true ∨ (scrubOf s hbm).period = 0 ∨ atomCount s hbm = 0 ∨
    s.now < (scrubOf s hbm).passStart + (scrubOf s hbm).nextAtom * (scrubOf s hbm).period * 500000000 / atomCount s hbm ∨ freeId s 29 = none) : scrub hbm r s = s := by
  refine if_pos ?_
  rcases h with h | h | h | h | h | h <;> simp [h]

theorem scrub_taken {r : ScrubFind} {i : Nat} (hclk : clockLost s (if hbm then .hbm else .qdr) = false) (hfab : clockLost s .fab = false) (hp : (scrubOf s hbm).period ≠ 0)
    (hn : atomCount s hbm ≠ 0) (hdue : (scrubOf s hbm).passStart + (scrubOf s hbm).nextAtom * (scrubOf s hbm).period * 500000000 / atomCount s hbm ≤ s.now) (hi : freeId s 29 = some i) :
    scrub hbm r s = setScrub hbm (scrubAdvanced hbm s) (issueTx (some r) (scrubReq hbm (scrubOf s hbm).nextAtom) s) := by
  refine (if_neg (by simp [hclk, hfab, hp, hn, Nat.not_lt.mpr hdue, hi])).trans ?_
  have hnow : (issueTx (some r) (scrubReq hbm (scrubOf s hbm).nextAtom) s).now = s.now := (congrArg State.now (issueTx_fab (some r) (scrubReq hbm (scrubOf s hbm).nextAtom) s) :)
  unfold scrubAdvanced
  dsimp only
  rw [hnow]
  split <;> rfl

end

/-! REGION_MAP and SCRUB_CONFIG (R234, R249). -/

section
variable {q : FlowRef} {b : Bus} {s : State} {c : Cmd}

theorem settleRes_pendTide {code : Nat} (h : ready code q c s = true) : settleRes c.serial b [] id (pendTide (cmdIn q c []) s) = heldForTide code c [] s := by
  rw [heldForTide, ← ready_opcode h]
  rfl

/-- The first number of a rising list that has a property. -/
theorem find?_least {l : List Nat} (hl : l.Pairwise (· < ·)) {P : Nat → Bool} {j : Nat} (hj : j ∈ l) (hP : P j = true) (hleast : ∀ i ∈ l, i < j → P i = false) : l.find? P = some j := by
  induction l with
  | nil => simp at hj
  | cons a l ih =>
    obtain ⟨ha, hl⟩ := List.pairwise_cons.mp hl
    rcases List.mem_cons.mp hj with rfl | hj
    · exact List.find?_cons_of_pos hP
    · rw [List.find?_cons_of_neg (ne_true_of_eq_false (hleast a (.head _) (ha j hj)))]
      exact ih hl hj fun i hi => hleast i (List.mem_cons_of_mem _ hi)

theorem kindsOf_rising (k : Nat) : (kindsOf k).Pairwise (· < ·) := by
  unfold kindsOf
  split <;> decide

/-- What the loads take of region k, as they stand. -/
def occupied (s : State) (k : Nat) : Rat := regionUsed s (poolWith s none none) k

/-- The size n of region k is one that Table 8.1 and the memory allow. -/
structure RegionOk (s : State) (k n : Nat) : Prop where
  notZero : k ≠ 0
  notEight : k ≠ 8
  kind : k ∈ kindsOf k
  least : regionMin k ≤ n
  most : k = 3 → n ≤ 256
  unit : 8 ≤ k → n % 256 = 0
  room : n ≤ freeWith s (regionsAhead s) k + (regionsAhead s).getD k 0

theorem runRegionMap_bad {ci : CmdIn} {k n : Nat} (hk : fld ci.p 2 3 0 = k) (hn : word ci.p 3 = n)
    (h : k = 0 ∨ k = 8 ∨ k ∉ kindsOf k ∨ n < regionMin k ∨ (k = 3 ∧ 256 < n) ∨ (8 ≤ k ∧ n % 256 ≠ 0) ∨ freeWith s (regionsAhead s) k + (regionsAhead s).getD k 0 < n) :
    runRegionMap ci s = refuse s stBadParam := by
  unfold runRegionMap
  rw [hk, hn]
  refine if_pos ?_
  rcases h with h | h | h | h | ⟨h3, h⟩ | ⟨h8, h⟩ | h
  · simp [h]
  · simp [h]
  · simp [h]
  · simp [h]
  · simp [h3, h]
  · simp [h8, h]
  · simp [h]

theorem runRegionMap_ok {ci : CmdIn} {k n : Nat} (hk : fld ci.p 2 3 0 = k) (hn : word ci.p 3 = n) (h : RegionOk s k n) : runRegionMap ci s =
    match (kindsOf k).find? (fun j => decide (k < j) && (decide (k ≤ j) && decide (0 < occupied s j))) with
    | some j => .done s stBadState 0 j 0
    | none => if ((kindsOf k).filter (fun j => decide (k ≤ j) && decide (0 < occupied s j))).isEmpty then pendTide ci s else .done s stBadState 0 k 0 := by
  unfold runRegionMap
  rw [hk, hn]
  dsimp only
  rw [if_neg, List.filter_filter, List.head?_filter]
  · rfl
  · have hmost : ¬ (k = 3 ∧ 256 < n) := fun hc => absurd (h.most hc.1) (Nat.not_le.mpr hc.2)
    have hunit : ¬ (8 ≤ k ∧ n % 256 ≠ 0) := fun hc => hc.2 (h.unit hc.1)
    simpa [h.notZero, h.notEight, h.kind, Nat.not_lt.mpr h.least, Nat.not_lt.mpr h.room] using ⟨fun h3 => h.most h3, fun h8 => h.unit h8⟩

theorem noneMoves {k : Nat} (hrest : ∀ j ∈ kindsOf k, k < j → occupied s j = 0) :
    (kindsOf k).find? (fun j => decide (k < j) && (decide (k ≤ j) && decide (0 < occupied s j))) = none := by
  refine List.find?_eq_none.mpr fun j hj => ?_
  by_cases hkj : k < j
  · simp [hrest j hj hkj]
  · simp [hkj]

theorem regionMap_settled {a : CmdRes} (h : ready 0x0C01 q c s = true) (ha : runRegionMap (cmdIn q c []) s = a) :
    exec (.regionMap q b) s = .next (settleRes c.serial b [] id a) :=
  congrArg Host.Outcome.next (startRow_settled (m := meanRegionMap) h rfl ha)

section
variable {k n : Nat} (h : ready 0x0C01 q c s = true) (hk : fld c.packet 2 3 0 = k) (hn : word c.packet 3 = n) (hok : RegionOk s k n)
include h hk hn hok

/-- The lowest occupied region that would move refuses the change. -/
theorem regionMap_moves {j : Nat} (hj : j ∈ kindsOf k) (hkj : k < j) (hused : 0 < occupied s j) (hlow : ∀ i ∈ kindsOf k, k < i → i < j → occupied s i = 0) :
    exec (.regionMap q b) s = .next (refuses c b stBadState j 0 s) := by
  refine regionMap_settled (a := .done s stBadState 0 j 0) h ((runRegionMap_ok hk hn hok).trans ?_)
  rw [find?_least (kindsOf_rising k) hj (by simp [hkj, hkj.le, hused]) fun i hi hij => ?_]
  by_cases hki : k < i
  · simp [hlow i hi hki hij]
  · simp [hki]

/-- An occupied region refuses its own change where none behind it is occupied (log 174). -/
theorem regionMap_occupied (hrest : ∀ j ∈ kindsOf k, k < j → occupied s j = 0) (hused : 0 < occupied s k) :
    exec (.regionMap q b) s = .next (refuses c b stBadState k 0 s) := by
  refine regionMap_settled (a := .done s stBadState 0 k 0) h ((runRegionMap_ok hk hn hok).trans ?_)
  rw [noneMoves hrest]
  have hin : k ∈ (kindsOf k).filter (fun j => decide (k ≤ j) && decide (0 < occupied s j)) := List.mem_filter.mpr ⟨hok.kind, by simp [hused]⟩
  exact if_neg (by simpa using List.ne_nil_of_mem hin)

theorem regionMap_waits (hrest : ∀ j ∈ kindsOf k, k ≤ j → occupied s j = 0) : exec (.regionMap q b) s = .next (heldForTide 0x0C01 c [] s) := by
  refine (regionMap_settled h ((runRegionMap_ok hk hn hok).trans ?_)).trans (congrArg Host.Outcome.next (settleRes_pendTide h))
  rw [noneMoves fun j hj hkj => hrest j hj hkj.le]
  refine if_pos (List.isEmpty_iff.mpr (List.filter_eq_nil_iff.mpr fun j hj => ?_))
  by_cases hkj : k ≤ j
  · simp [hrest j hj hkj]
  · simp [hkj]
end

theorem exec_scrubConfig_eq (h : ready 0x0C02 q c s = true) : exec (.scrubConfig q b) s =
    .next (if word c.packet 3 ≠ 0 ∧ (word c.packet 3 < 60 ∨ 604800 < word c.packet 3) then refuses c b stBadParam 0 0 s else heldForTide 0x0C02 c [] s) := by
  have hguard : (word c.packet 3 != 0 && (decide (word c.packet 3 < 60) || decide (604800 < word c.packet 3))) = true ↔
      word c.packet 3 ≠ 0 ∧ (word c.packet 3 < 60 ∨ 604800 < word c.packet 3) := by simp
  refine congrArg Host.Outcome.next ((startRow_settled (m := meanScrubConfig)
    (a := if word c.packet 3 ≠ 0 ∧ (word c.packet 3 < 60 ∨ 604800 < word c.packet 3) then refuse s stBadParam else pendTide (cmdIn q c []) s) h rfl ?_).trans ?_)
  · exact if_congr hguard rfl rfl
  · split
    · rfl
    · exact settleRes_pendTide h

end

end Sys2Proof.MemorySystem

/-! PROOFS. Memory control: the statement (R234 to R250). -/

namespace Sys2Proof.MemorySystem

open Sys2Proof.Machine Sys2Proof.Laws Sys2Proof.Architecture

section
variable {p : Nat} {s : State}

theorem pcAt_stepPassed (h : (pcAt s p).calDue ≠ none) :
    pcAt (runStep p true s) p = { pcAt s p with calDue := none, dueTemp := none, deferred := false, lastCal := s.now, busyUntil := (pcAt s p).busyUntil + 400 } :=
  (pcAt_of_mem (s := stepRun p s) (by rw [(runStep_passes h).mem]) p).trans (pcAt_modPc ..)

/-- A step that fails takes PC p out of service, and no other. -/
theorem stepFailed_out (h : (pcAt s p).calDue ≠ none) (hp : p < 64) :
    (runStep p false s).mem.pcOut.getLsbD p = true ∧ (∀ j, j < 64 → j ≠ p → (runStep p false s).mem.pcOut.getLsbD j = s.mem.pcOut.getLsbD j) ∧
      (runStep p false s).mem.pcRemoved = s.mem.pcRemoved ∧ (pcAt (runStep p false s) p).queue = [] ∧ (runStep p false s).mem.ueSrc = true := by
  obtain ⟨u, hends, hfails⟩ := runStep_fails h
  rw [hfails, pcOut_pcFails hp, pcAt_pcFails, pcFails_mem]
  refine ⟨by simp, fun j _ hj => ?_, (congrArg Mem.pcRemoved hends.mem :), rfl, rfl⟩
  rw [← pcFails_mem, pcOut_pcFails hp, hends.mem, decide_eq_false hj, Bool.or_false]

/-- A refresh of PC p concerns no other PC. -/
theorem pcAt_refreshDue_ne {ok : Bool} {j : Nat} (hp : p < 64) (hup : pcUp s p = true) (hdue : (pcAt s p).nextRefresh ≤ s.now) (hj : j ≠ p) :
    pcAt (refreshDue p ok s) j = pcAt s j := by
  by_cases h8 : 8 ≤ (pcAt s p).pendRefresh
  · obtain ⟨b, hb, hplain, hstep⟩ := refreshDue_emergency (ok := ok) hup hdue hp h8
    cases hd : (pcAt s p).deferred with
    | false => rw [(hplain hd).1, hb.others j hj]
    | true => rw [(hstep hd).1, (runStep_frame ok).1 j hj, hb.others j hj]
  · have htaken : pcAt (refreshTaken p s) j = pcAt s j := pcAt_modPc_ne hj
    rw [refreshDue_taken hup hdue, if_neg h8, ← htaken]
    split
    · exact pcAt_modPc_ne hj
    · change pcAt (pendingCounted p s) j = pcAt (refreshTaken p s) j
      exact pcAt_modPc_ne hj
end

/-- Settles O39, row by row: the commands, refresh and calibration, the order of requests, what a memory serves, parity, scrubbing. -/
theorem memoryControllersKeepTheirOrder : Obligations.MemoryControllersKeepTheirOrder := by
  unfold Obligations.MemoryControllersKeepTheirOrder
  refine ⟨?regionMap, ?scrubConfig, ?refreshDue, ?makeUpBurst, ?calibrationDue, ?calDeferred, ?promotion, ?nextRequest, ?order, ?serve, ?alert, ?pcOut, ?qdrParity, ?scrub, ?scrubServed⟩
  case regionMap =>
    intro q b s c k n h hk hn
    refine ⟨fun hbad => regionMap_settled (a := refuse s stBadParam) h (runRegionMap_bad hk hn hbad), fun h0 h8 hkind hmin hmost hunit hroom => ?_⟩
    have hok : RegionOk s k n := ⟨h0, h8, hkind, hmin, hmost, hunit, hroom⟩
    exact ⟨fun j hj hkj hused hlow => regionMap_moves h hk hn hok hj hkj hused hlow, regionMap_occupied h hk hn hok, regionMap_waits h hk hn hok⟩
  case scrubConfig =>
    intro q b s c h
    refine ⟨fun hn => (exec_scrubConfig_eq h).trans (congrArg Host.Outcome.next (if_neg ?_)), fun h0 hn => (exec_scrubConfig_eq h).trans (congrArg Host.Outcome.next (if_pos ⟨h0, hn⟩))⟩
    omega
  case refreshDue =>
    intro dt p ok s x y ha hx hy
    subst hx hy
    have hexec : exec (.refreshDue dt p ok) s = .next (refreshDue p.val ok (advance dt s)) := congrArg Host.Outcome.next (actAfter_acting dt _ ha)
    refine ⟨fun h => hexec.trans (congrArg Host.Outcome.next (refreshDue_idle h)), fun hup hdue => ⟨_, hexec, fun j hj => ?others, fun h8 hrt hfree => ?issues, fun h8 h => ?postpones, fun h8 => ?emergency⟩⟩
    case others => exact pcAt_refreshDue_ne (s := advance dt s) p.isLt hup hdue hj
    case issues =>
      rw [refreshDue_issues (s := advance dt s) hup hdue h8 hrt hfree]
      exact ⟨by rw [pcAt_modPc, pcAt_refreshTaken]; rfl, rfl, rfl⟩
    case postpones =>
      rw [refreshDue_postpones (s := advance dt s) hup hdue h8 h]
      refine ⟨?_, rfl, rfl⟩
      change pcAt (pendingCounted p.val (advance dt s)) p.val = _
      rw [pendingCounted, pcAt_modPc, pcAt_refreshTaken]
      rfl
    case emergency =>
      obtain ⟨b, hb, hplain, hstep⟩ := refreshDue_emergency (ok := ok) (s := advance dt s) hup hdue p.isLt h8
      have hcal : (pcAt b p.val).calDue = (pcAt s p.val).calDue := by rw [hb.pc]; rfl
      rcases Bool.eq_false_or_eq_true (pcAt s p.val).deferred with hd | hd
      case inr =>
        obtain ⟨ht, -⟩ := hplain hd
        have hnot : ¬ (pcAt s p.val).deferred = true := ne_true_of_eq_false hd
        rw [ht]
        exact ⟨hb.counted, hb.taken, hb.entry, fun _ => ⟨hb.pc, hb.steps, hb.arbs⟩, fun h => absurd h hnot, fun h => absurd h hnot, fun h => absurd h hnot⟩
      case inl =>
        obtain ⟨ht, hdeferred⟩ := hstep hd
        obtain ⟨-, harbs, hcounted, hcalDeferred, hstaged⟩ := runStep_frame (p := p.val) (s := b) ok
        obtain ⟨e, he, hcls⟩ := hb.entry
        have harb := fun a => arbAt_of_fab harbs a
        rw [ht]
        refine ⟨hcounted.trans hb.counted, fun h => (congrArg Arb.emergency (harb _)).trans (hb.taken h), ⟨e, hstaged he, hcls⟩, fun h => ?_, fun _ => hcalDeferred.trans hdeferred,
          fun _ hdue hok => ?_, fun _ hdue hok => ?_⟩
        · rw [runStep_notDue (hcal.trans (h.resolve_left (by simp [hd]))) ok]
          exact ⟨hb.pc, hb.steps, hb.arbs⟩
        · subst hok
          have hpc := pcAt_stepPassed (hcal ▸ hdue)
          rw [hpc, (runStep_passes (hcal ▸ hdue)).mem]
          exact ⟨congrArg inc32 hb.steps, by rw [hb.pc], rfl, hb.now⟩
        · subst hok
          exact (stepFailed_out (hcal ▸ hdue) p.isLt).1
  case makeUpBurst =>
    intro dt p ok s x y ha hx hy
    subst hx hy
    have hexec : exec (.makeUpBurst dt p ok) s = .next (makeUpBurst p.val ok (advance dt s)) := congrArg Host.Outcome.next (actAfter_acting dt _ ha)
    refine ⟨fun h => hexec.trans (congrArg Host.Outcome.next (makeUpBurst_idle h)), fun hup hpend hrt hidle hfree => ?_⟩
    have hruns := makeUpBurst_runs (ok := ok) (s := advance dt s) hup hpend hrt hidle hfree
    have hpc : pcAt (pendingIssued p.val (advance dt s)) p.val = { issueRefreshes (s.now + dt) (pcAt s p.val).pendRefresh (pcAt s p.val) with pendRefresh := 0 } := pcAt_modPc ..
    refine ⟨_, hexec, fun j hj => ?others, fun hcal => ?none, fun hcal hok => ?passes, fun hcal hok => ?fails⟩
    case others => rw [hruns, (runStep_frame ok).1 j hj, pendingIssued, pcAt_modPc_ne hj]; rfl
    case none =>
      rw [hruns, runStep_notDue (by rw [hpc]; exact hcal)]
      exact ⟨hpc, rfl, rfl⟩
    case passes =>
      have hdue : (pcAt (pendingIssued p.val (advance dt s)) p.val).calDue ≠ none := by rw [hpc]; exact hcal
      subst hok
      rw [hruns, pcAt_stepPassed hdue, (runStep_passes hdue).mem, hpc]
      refine ⟨rfl, rfl, ?_, rfl⟩
      refine (fmap_get?_set_self ..).trans ?_
      rw [hpc]
      rfl
    case fails =>
      subst hok
      rw [hruns]
      exact stepFailed_out (by rw [hpc]; exact hcal) p.isLt
  case calibrationDue =>
    intro dt p temp s x ha hx
    subst hx
    have hexec : exec (.calibrationStepDue dt p temp) s = .next (calibrationStepDue p.val temp (advance dt s)) := congrArg Host.Outcome.next (actAfter_acting dt _ ha)
    exact ⟨fun hup hnone h => hexec.trans (congrArg Host.Outcome.next (calibrationStepDue_taken hup hnone h)), fun h => hexec.trans (congrArg Host.Outcome.next (calibrationStepDue_idle h))⟩
  case calDeferred =>
    intro dt p s ha
    have hexec : exec (.calDeferred dt p) s = .next (calDeferral p.val (advance dt s)) := congrArg Host.Outcome.next (actAfter_acting dt _ ha)
    exact ⟨fun n hup hc hn => hexec.trans (congrArg Host.Outcome.next (calDeferral_taken hup hc hn)), fun h => hexec.trans (congrArg Host.Outcome.next (calDeferral_idle h))⟩
  case promotion =>
    intro dt p id s ha
    have hexec : exec (.agePromotion dt p id) s = .next (agePromotion p.val id (advance dt s)) := congrArg Host.Outcome.next (actAfter_acting dt _ ha)
    refine ⟨fun q a hup hq hage hold => ⟨_, hexec.trans (congrArg Host.Outcome.next (agePromotion_taken hup hq hage hold)), ?_, fun j hj => ?_, rfl⟩,
      fun h => hexec.trans (congrArg Host.Outcome.next (agePromotion_idle h))⟩
    · change pcAt (promoted p.val id (advance dt s)) p.val = _
      exact pcAt_modPc ..
    · change pcAt (promoted p.val id (advance dt s)) j = pcAt (advance dt s) j
      exact pcAt_modPc_ne hj
  case nextRequest =>
    intro dt p k u s x ha hx
    subst hx
    have hexec : exec (.nextRequest dt p k u) s = .next (nextRequest p.val (codesFound k u) (advance dt s)) := congrArg Host.Outcome.next (actAfter_acting dt _ ha)
    exact ⟨fun h => hexec.trans (congrArg Host.Outcome.next (nextRequest_idle h)), fun hup hfree =>
      ⟨fun h => hexec.trans (congrArg Host.Outcome.next (nextRequest_settles (s := advance dt s) hup hfree h)),
        fun q hroom hq => hexec.trans (congrArg Host.Outcome.next (nextRequest_serves (s := advance dt s) hup hfree hroom hq))⟩⟩
  case order =>
    intro x q h
    exact ⟨nextServed_mem h, nextServed_best h⟩
  case serve =>
    intro hbm x f s hs
    refine ⟨fun hw => ?_, fun hw hf hclean => ?_, fun hw h => ?_⟩
    · rw [serveAccess_write hs hw]
      exact ⟨serveWrite_cells hbm x s, serveWrite_poison⟩
    · rw [serveAccess_read hs hw, hf]
      exact serveRead_clean hclean
    · refine ⟨_, (serveAccess_read hs hw f).trans (serveRead_poisoned h), (readFound_mem hbm f s).2, fun hf => ?_⟩
      subst hf
      cases hbm <;> rfl
  case alert =>
    intro dt p cmd s x live n ha hx hlive hn
    subst hx hlive hn
    have hexec : exec (.parityAlert dt ⟨p, cmd⟩) s = .next (parityAlert p.val cmd (advance dt s)) := congrArg Host.Outcome.next (actAfter_acting dt _ ha)
    refine ⟨fun h => hexec.trans (congrArg Host.Outcome.next (parityAlert_idle h)), fun hup hin => ?_⟩
    have htaken := hexec.trans (congrArg Host.Outcome.next (parityAlert_taken (s := advance dt s) hup hin))
    refine ⟨fun hn => ?_, fun hn => htaken.trans (congrArg Host.Outcome.next (if_pos hn))⟩
    have hmem := parityCounted_mem 3 p.val (pcReplays p.val cmd (advance dt s))
    refine ⟨_, htaken.trans (congrArg Host.Outcome.next (if_neg (Nat.not_le.mpr hn))), ?_, ?_, ?_, parityCounted_faults .., fun h => parityCounted_staged h⟩
    · rw [pcAt_of_mem (congrArg Mem.pcs hmem) p.val, pcAt_pcReplays, pcReissues, pcAt_modPc]
      rfl
    · rw [hmem]; rfl
    · rw [hmem]; rfl
  case pcOut =>
    intro p s hp
    refine ⟨by rw [pcOut_pcFails hp]; simp, fun j _ hj => by rw [pcOut_pcFails hp, decide_eq_false hj, Bool.or_false], by rw [pcAt_pcFails], ?_, ?_, (pcFails_journal p s).2⟩
    · rw [pcFails_mem]
    · rw [pcFails_mem]; rfl
  case qdrParity =>
    intro p a s n ha hn
    subst hn
    have hexec : exec (.qdrParityError p a) s = .next (qdrParityError p.val a s) := congrArg Host.Outcome.next (act_acting _ ha)
    refine ⟨fun h => hexec.trans (congrArg Host.Outcome.next (qdrParityError_idle h)), fun hclk hin => ?_⟩
    have htaken := hexec.trans (congrArg Host.Outcome.next (qdrParityError_taken (access := a) hclk hin))
    refine ⟨fun hn => htaken.trans (congrArg Host.Outcome.next (if_pos hn)), fun hn => ?_⟩
    have hmem := parityCounted_mem 4 p.val (qportReplays p.val a s)
    refine ⟨_, htaken.trans (congrArg Host.Outcome.next (if_neg (Nat.not_le.mpr hn))), ?_, ?_, ?_, ?_, parityCounted_faults .., fun h => parityCounted_staged h⟩
    · rw [hmem]; rfl
    · rw [hmem]; rfl
    · rw [hmem]; rfl
    · exact (congrArg (fun m : Mem => m.qports.getD p.val {}) hmem :).trans (qportAt_modQport _)
  case scrub =>
    intro dt hbm r s x n ha hx hn
    subst hx hn
    have hexec : exec (.scrub dt hbm r) s = .next (scrub hbm r (advance dt s)) := congrArg Host.Outcome.next (actAfter_acting dt _ ha)
    refine ⟨fun h => hexec.trans (congrArg Host.Outcome.next (scrub_idle h)), fun i hclk hfab hp hn hdue hi => ?_⟩
    have hissue := issueTx_fab (some r) (scrubReq hbm (scrubOf s hbm).nextAtom) (advance dt s)
    obtain ⟨hsame, hjournal, hpoison⟩ := setScrub_beside hbm (scrubAdvanced hbm (advance dt s)) (issueTx (some r) (scrubReq hbm (scrubOf s hbm).nextAtom) (advance dt s))
    refine ⟨_, hexec.trans (congrArg Host.Outcome.next (scrub_taken hclk hfab hp hn hdue hi)), ?_, ?_, ?_, ?_, congrArg Fab.txs hsame, hpoison.trans (congrArg (fun s => s.mem.poison) hissue :),
      hjournal.trans (congrArg State.journal hissue :)⟩
    · rw [scrubOf_setScrub]
      exact scrubAdvanced_nextAtom hbm (advance dt s)
    · rw [scrubOf_setScrub]
      exact scrubAdvanced_passes hbm (advance dt s)
    · rw [scrubOf_setScrub_other]
      exact (congrArg (fun s => scrubOf s (!hbm)) hissue :)
    · rw [scrubOf_setScrub]
      exact scrubAdvanced_period hbm (advance dt s)
  case scrubServed =>
    intro hbm x f r s t y hr ht hy
    subst hy ht
    rw [serveAccess_scrub hr]
    refine ⟨fun h => by rw [h]; rfl, fun d h => ?corrected, fun h => ?beyond⟩
    case corrected =>
      subst h
      obtain ⟨b, hcounted, hthreshold⟩ := scrubCorrected_mem hbm d (memOffset hbm x.req) s
      have hmem := (serveScrub_mem (r := .correctable d)).trans hcounted
      have hscrub : scrubOf (serveScrub hbm x (.correctable d) s) hbm = { scrubOf s hbm with ceThisPass := (scrubOf s hbm).ceThisPass + 1 } := by
        unfold scrubOf
        rw [hmem]
        cases hbm <;> rfl
      rw [hscrub, hmem]
      refine ⟨?_, rfl, hthreshold, ?_⟩
      · cases hbm
        · rfl
        · cases d <;> rfl
      · cases hbm
        · rfl
        · cases d <;> rfl
    case beyond =>
      subst h
      have hmem := serveScrub_mem (hbm := hbm) (x := x) (s := s) (r := .uncorrectable)
      obtain ⟨hlast, hlength⟩ := scrubPoison_ueLog hbm (memOffset hbm x.req) s
      rw [hmem]
      exact ⟨scrubPoison_marks .., hlast, fun _ => hlength, scrubPoison_ueSrc ..⟩

end Sys2Proof.MemorySystem

/-! PROOFS. The winner of a round of the matrix (R262). -/

namespace Sys2Proof.FabricArbitration

open Sys2Proof.Machine

/-- The place of requester i in a round, least first: class, then level from the highest, then rank (R262). -/
def roundPlace (x : Arb) (a i : Nat) : Nat ×ₗ (Natᵒᵈ ×ₗ Nat) :=
  toLex ((prioOf x a i).cls, toLex (OrderDual.toDual (prioOf x a i).level, rankOf x i))

/-- Being chosen before another is the lexicographic order of the places. -/
theorem beats_iff_roundPlace_lt (x : Arb) (a i j : Nat) : beats x a i j = true ↔ roundPlace x a i < roundPlace x a j := by
  simp [beats, roundPlace, Prod.Lex.toLex_lt_toLex]

/-- At a target's arbiter the round keeps the first requester of the least place. -/
theorem roundWinner_eq_argmin (s : State) (x : Arb) {a : Nat} (ha : a < 48) (reqs : List Nat) :
    roundWinner s x a reqs = reqs.argmin (roundPlace x a) := by
  have hq : ¬ (48 ≤ a ∧ a < 56) := by omega
  have hp : ¬ (56 ≤ a ∧ a < 120) := by omega
  rw [roundWinner, if_neg hq, if_neg hp, List.argmin]
  congr 1
  funext w i
  cases w with
  | none => rfl
  | some j => simp only [List.argAux, beats_iff_roundPlace_lt]

/-- Settles O20: the winner is the requester of the least place in a linear order. -/
theorem roundWinnerIsUnbeaten : Obligations.RoundWinnerIsUnbeaten := by
  unfold Obligations.RoundWinnerIsUnbeaten
  intro s x a reqs ha
  rw [roundWinner_eq_argmin s x ha]
  refine ⟨fun w hw => ⟨List.argmin_mem hw, fun i hi => ?_⟩, List.argmin_eq_none.mp⟩
  rw [← Bool.not_eq_true, beats_iff_roundPlace_lt]
  exact List.not_lt_of_mem_argmin hi hw

end Sys2Proof.FabricArbitration

/-! PROOFS. Starvation and the error responses of the matrix (R254, R257, R259, R267, Table 9.3). -/

namespace Sys2Proof.FabricArbitration

open Sys2Proof.Machine Sys2Proof.Laws Sys2Proof.Architecture Sys2Proof.MemorySystem

/-! A wait that reaches the limit (R267). -/

/-- The waiter of requester i is marked as reported. -/
def waiterReported (a i : Nat) (w : Waiter) (s : State) : State := modArb s a (fun x => { x with waiting := x.waiting.set i { w with reported := true } })

theorem starve_reports {a i : Nat} {w : Waiter} {s : State} (ha : a ≤ 130) (hw : (arbAt s a).waiting.get? i = some w) (hnew : w.reported = false)
    (hlimit : (arbAt s a).limit ≠ 0) (hwaited : (arbAt s a).limit * 16 ≤ waited a s.now w) :
    starve a i s = { waiterReported a i w s with fab := { (waiterReported a i w s).fab with
      multi := s.fab.multi || s.fab.starved, starved := true, starveCount := satInc s.fab.starveCount 255,
      starveArb := if s.fab.starved then s.fab.starveArb else a, starveReq := if s.fab.starved then s.fab.starveReq else i } } := by
  have hdue : ¬ (decide (130 < a) || w.reported || (arbAt s a).limit == 0 || decide (waited a s.now w < (arbAt s a).limit * 16)) = true := by
    simp [hnew, hlimit, ha, hwaited]
  simp only [starve, hw, if_neg hdue]
  rfl

theorem waiting_waiterReported (a i : Nat) (w : Waiter) (s : State) : (arbAt (waiterReported a i w s) a).waiting.get? i = some { w with reported := true } := by
  rw [waiterReported, arbAt_modArb]
  exact fmap_get?_set_self ..

/-! How a master acts on an error response (Table 9.3). -/

/-- The state without what a master's action on an error response touches: messages, functions, cores and their masks, and the count of poisoned reads. -/
def besideEffect (s : State) : State := { s with outbox := [], fns := [], harbour := {}, fab.arbs := [], mem.poisonReads := 0, mem.ueSrc := false }

theorem besideEffect_maskRequester (a i : Nat) (on : Bool) (s : State) : besideEffect (maskRequester a i on s) = besideEffect s := by
  unfold maskRequester
  split <;> rfl

/-- A core's reset touches the cores, their threads and the core's mask. -/
theorem besideEffect_resetCore (c t : Nat) (s : State) : besideEffect (resetCore c t s) = besideEffect s := by
  rw [← besideEffect_maskRequester 130 c true s, resetCore]
  generalize maskRequester 130 c true s = u
  dsimp only
  cases (coreAt s c).slot <;> rfl

section
variable {r : FabReq} {s : State}

theorem failServed_commandless (h : r.cmd = none) : failServed r s = s := by rw [failServed, h]

theorem besideEffect_firmwareFault (h : r.cmd = none) : besideEffect (firmwareFault r s) = besideEffect s := by
  rw [firmwareFault, failServed_commandless h]
  cases r.core with
  | none => rfl
  | some c =>
    cases hrun : (coreAt s c.val).running with
    | none => simp only [hrun]
    | some t => simp only [hrun, besideEffect_resetCore]

/-- Whatever the master of a request made for no command does, the rest stays. -/
theorem besideEffect_errorEffect (h : r.cmd = none) : besideEffect (errorEffect r s) = besideEffect s := by
  simp only [errorEffect]
  split
  · split <;> rfl
  · split
    · rw [failServed_commandless h]
    · split
      · exact besideEffect_firmwareFault h
      · split <;> rfl

theorem errorEffect_hostRead (hm : r.master.val = 25) (hr : r.write = false) : errorEffect r s = emit s (.unsupported (r.fn.getD 0).val r.addr.toNat) := by
  simp [errorEffect, hm, hr]

theorem errorEffect_hostWrite (hm : r.master.val = 25) (hw : r.write = true) :
    errorEffect r s = modFn s (r.fn.getD 0).val (fun x => { x with aer := true }) := by
  simp [errorEffect, hm, hw]

theorem errorEffect_engine (hm : r.master.val < 19) : errorEffect r s = { s with mem.poisonReads := inc32 s.mem.poisonReads, mem.ueSrc := true } := by
  have h25 : r.master.val ≠ 25 := by omega
  have hserved : ¬ (r.master.val = 24 ∨ r.master.val = 27 ∨ r.master.val = 28) := by omega
  have h26 : r.master.val ≠ 26 := by omega
  simp only [errorEffect, if_neg h25, if_neg hserved, if_neg h26, if_pos hm]

end

/-! The record and the journal entry of an error response (R259, class 6). -/

/-- The error response as recorded, and journaled for a master other than M25 and M31. -/
def errorJournaled (r : FabReq) (s : State) : State :=
  if r.master.val = 25 ∨ r.master.val = 31 then errorCounted r s else journalAdd (errorCounted r s) 6 8 deviceFn 5 r.master.val r.addr.toNat

section
variable {r : FabReq} {s : State}

theorem answerError_uninjected (h : injectionOf s 6 0 = none) : answerError r s = errorEffect r (errorJournaled r s) := by
  have hinj : (if r.master.val = 30 then injectionOf (errorCounted r s) 6 0 else none) = none := ite_eq_right_iff.mpr fun _ => h
  simp only [answerError, hinj, errorJournaled]

theorem injectionDone_fab (serial seq : Nat) (s : State) : (injectionDone serial seq s).fab = s.fab :=
  (congrArg State.fab (completeCmd_ends ..).rest :)

/-- Injected or not, what stands between the record and the master's action leaves the matrix. -/
theorem answerError_recorded (r : FabReq) (s : State) : ∃ t, answerError r s = errorEffect r t ∧ t.fab = (errorCounted r s).fab := by
  unfold answerError
  refine ⟨_, rfl, ?_⟩
  split
  · rfl
  · split
    · exact injectionDone_fab ..
    · rfl

theorem errorJournaled_eq : errorJournaled r s = { s with fab := (errorCounted r s).fab, journal := (errorJournaled r s).journal } := by
  unfold errorJournaled
  split <;> rfl

/-- One journal entry, and none for M25 and M31. -/
theorem errorJournaled_staged :
    (errorJournaled r s).journal.staged.length = s.journal.staged.length + (if r.master.val = 25 ∨ r.master.val = 31 then 0 else 1) := by
  unfold errorJournaled
  split
  · rfl
  · exact List.length_append

theorem errorJournaled_host (h : r.master.val = 25) : errorJournaled r s = errorCounted r s := if_pos (.inl h)

end

/-! T47 answers (R254, R257, R259). -/

/-- The matrix without its arbiters. -/
def besideArbs (x : Fab) : Fab := { x with arbs := [] }

section
variable {r : FabReq} {s : State}

/-- Recording and acting on an error response leaves the matrix as the record makes it, its arbiters apart. -/
theorem answerError_fab (h : r.cmd = none) (s : State) : besideArbs (answerError r s).fab = besideArbs (errorCounted r s).fab := by
  obtain ⟨t, hanswer, ht⟩ := answerError_recorded r s
  rw [hanswer, ← ht]
  exact (congrArg State.fab (besideEffect_errorEffect h) :)

theorem errorResponse_unissued (hh : r.host = none) (hu : unmapped s r.addr.toNat = true) : errorResponse false r s = answerError r s := by
  simp [errorResponse, hh, hu]

theorem errorResponse_granted {x : FabTx} {k : Nat} (hh : r.host = none) (hu : unmapped s r.addr.toNat = true)
    (hx : s.fab.txs.find? (fun x => x.target == 47 && x.req == r) = some x) (hk : x.grantedAt = some k) (hdue : k + 4 ≤ s.now) :
    errorResponse true r s = respondError x s := by
  simp [errorResponse, hh, hu, hx, hk, hdue]

theorem respond_delivered {x : FabTx} {err poisoned : Bool} {data : List Byte} (h : respGone s x.req = false) :
    respond x err poisoned data s = { dropTx x s with fab.resps := s.fab.resps ++ [{ tx := x, err := err, poisoned := poisoned, data := if x.req.write then [] else data }] } :=
  if_neg (by simp [h])

end

/-- Settles O21: the register of the first starvation, the record of an error response, and the response of T47 to a request that was granted. -/
theorem starvationAndDecodeErrorsAreRecorded : Obligations.StarvationAndDecodeErrorsAreRecorded := by
  unfold Obligations.StarvationAndDecodeErrorsAreRecorded
  refine ⟨?starvation, ?unissued, ?granted⟩
  case starvation =>
    intro a i w s hact ha hw hnew hlimit hwaited
    have hexec : exec (.starvation a i) s = .next (starve a i s) := congrArg Host.Outcome.next (act_acting _ hact)
    refine ⟨_, hexec, ?_⟩
    rw [starve_reports ha hw hnew hlimit hwaited]
    exact ⟨rfl, rfl, rfl, rfl, rfl, waiting_waiterReported a i w s, rfl⟩
  case unissued =>
    intro dt r s hact hhost hun hcmd hinj
    have hanswer : answerError r (advance dt s) = errorEffect r (errorJournaled r (advance dt s)) := answerError_uninjected hinj
    have hexec : exec (.errorResponse dt false r) s = .next (errorEffect r (errorJournaled r (advance dt s))) :=
      congrArg Host.Outcome.next ((actAfter_acting dt _ hact).trans ((errorResponse_unissued (s := advance dt s) hhost hun).trans hanswer))
    have hfab := answerError_fab hcmd (advance dt s)
    rw [hanswer] at hfab
    have hbeside := besideEffect_errorEffect (s := errorJournaled r (advance dt s)) hcmd
    have hjournaled := errorJournaled_eq (r := r) (s := advance dt s)
    refine ⟨_, hexec, (congrArg Fab.decValid hfab :), (congrArg Fab.decCount hfab :), (congrArg Fab.decMaster hfab :), (congrArg Fab.decWrite hfab :), (congrArg Fab.decAddr hfab :),
      (congrArg (fun s => s.journal.staged.length) hbeside :).trans errorJournaled_staged, fun hm hr => ?hostRead, fun hm hw => ?hostWrite, fun hm => ?engine,
      (congrArg State.chans hbeside :).trans (congrArg State.chans hjournaled :), (congrArg State.flows hbeside :).trans (congrArg State.flows hjournaled :)⟩
    case hostRead =>
      rw [errorEffect_hostRead hm hr, errorJournaled_host hm]
      rfl
    case hostWrite =>
      rw [errorEffect_hostWrite hm hw, fnAt_modFn]
    case engine =>
      rw [errorEffect_engine hm, hjournaled]
      exact ⟨rfl, rfl⟩
  case granted =>
    intro dt r x k s hact hhost hun hx hk hdue hcmd hlive
    have hfound : (x.target == 47 && x.req == r) = true := List.find?_some (p := fun x : FabTx => x.target == 47 && x.req == r) hx
    have hreq : x.req = r := eq_of_beq (Bool.and_eq_true_iff.mp hfound).2
    subst hreq
    have hexec : exec (.errorResponse dt true x.req) s = .next (answerError x.req (respond x true false (zeros x.req.len) (advance dt s))) :=
      congrArg Host.Outcome.next ((actAfter_acting dt _ hact).trans (errorResponse_granted hhost hun hx hk hdue))
    have hfab := answerError_fab hcmd (respond x true false (zeros x.req.len) (advance dt s))
    rw [respond_delivered (s := advance dt s) hlive] at hexec hfab
    exact ⟨_, hexec, (congrArg Fab.decValid hfab :), (congrArg Fab.decCount hfab :), (congrArg Fab.txs hfab :), (congrArg Fab.resps hfab :)⟩

end Sys2Proof.FabricArbitration

/-! PROOFS. The registers of PF0 and FUNC_RESET_CTL (R259, R264, R265, R267, R423, R429, R475, R489, R492). -/

namespace Sys2Proof.FabricArbitration

open Sys2Proof.Machine Sys2Proof.Laws Sys2Proof.HostAccess Sys2Proof.Architecture Sys2Proof.MemorySystem

theorem bitOf_toNat (v : Word) (i : Nat) : bitOf v.toNat i = v.getLsbD i := BitVec.testBit_toNat v

/-- KEY of GLB_RESET: the upper half of the word (Table 19.5). -/
theorem bitsOf_upperHalf (v : Word) : bitsOf v.toNat 31 16 = v.toNat / 65536 := by
  rw [bitsOf, Nat.shiftRight_eq_div_pow]
  exact Nat.mod_eq_of_lt (by omega)

/-! Who writes (R492). -/

section
variable {s : State} {f : Fn}

theorem pf0Write_pf0 (hup : hostUp s = true) : pf0Write s 0 = true := by simp [pf0Write, hup]

theorem pf0Write_vf (hf : f ≠ 0) : pf0Write s f = false := by simp [pf0Write, hf]

/-! ARB_COMMIT, ARB_STARVE_STAT and FAB_DECERR_STAT (Tables 9.6, 9.7, 9.9). -/

theorem exec_arbCommit_pf0 (hup : hostUp s = true) (v : Word) : exec (.arbCommit 0 v) s = .next (writeArbCommit v.toNat s) :=
  congrArg Host.Outcome.next (if_pos (pf0Write_pf0 hup))

theorem writeArbCommit_commits {v : Word} (h0 : v.getLsbD 0 = true) (h2 : v.getLsbD 2 = false) :
    writeArbCommit v.toNat s = if s.fab.pendingArbs.isEmpty then { s with fab := { s.fab with staged := s.fab.shadow, pendingArbs := List.range 48 } }
      else { s with fab.commitLost := true } := by
  simp only [writeArbCommit, bitOf_toNat, h0, h2]
  rfl

theorem writeArbCommit_clears {v : Word} (h0 : v.getLsbD 0 = false) (h2 : v.getLsbD 2 = true) : writeArbCommit v.toNat s = { s with fab.commitLost := false } := by
  simp only [writeArbCommit, bitOf_toNat, h0, h2]
  rfl

theorem exec_starvedClear_pf0 (hup : hostUp s = true) (v : Word) :
    exec (.starvedClear 0 v) s = .next (if v.getLsbD 0 then { s with fab := { s.fab with starved := false, multi := false, starveCount := 0 } } else s) := by
  change Host.Outcome.next (if pf0Write s 0 && v.getLsbD 0 then _ else s) = _
  rw [pf0Write_pf0 hup, Bool.true_and]

theorem exec_fabDecerrClear_pf0 (hup : hostUp s = true) (v : Word) :
    exec (.fabDecerrClear 0 v) s = .next (if v.getLsbD 0 then { s with fab := { s.fab with decValid := false, decCount := 0 } } else s) := by
  change Host.Outcome.next (if pf0Write s 0 && v.getLsbD 0 then _ else s) = _
  rw [pf0Write_pf0 hup, Bool.true_and]

/-- What only PF0 has ignores a VF. -/
theorem matrixRegisters_vf (hf : f ≠ 0) (v : Word) :
    exec (.arbCommit f v) s = .next s ∧ exec (.starvedClear f v) s = .next s ∧ exec (.fabDecerrClear f v) s = .next s := by
  have hno : ¬ pf0Write s f = true := by simp [pf0Write_vf hf]
  have hnoBit : ¬ (pf0Write s f && v.getLsbD 0) = true := by simp [pf0Write_vf hf]
  exact ⟨congrArg Host.Outcome.next (if_neg hno), congrArg Host.Outcome.next (if_neg hnoBit), congrArg Host.Outcome.next (if_neg hnoBit)⟩

/-! GLB_RESET (R473, R475). -/

theorem exec_glbReset_warm {v : Word} (hup : hostUp s = true) (h0 : v.getLsbD 0 = true) (hkey : v.toNat / 65536 = 0x5752) : exec (.glbReset 0 v) s = .next (warmBegin .glbReset s) :=
  congrArg Host.Outcome.next (if_pos (by simp [hup, bitOf_toNat, h0, bitsOf_upperHalf, hkey]))

/-- A write that lacks PF0, WARM or KEY. -/
theorem exec_glbReset_ignored {v : Word} (h : f ≠ 0 ∨ v.getLsbD 0 = false ∨ v.toNat / 65536 ≠ 0x5752) : exec (.glbReset f v) s = .next s := by
  refine congrArg Host.Outcome.next (if_neg ?_)
  rw [bitOf_toNat, bitsOf_upperHalf]
  rcases h with hf | h0 | hkey
  · simp [hf]
  · rw [h0]
    simp
  · simp [hkey]

/-- Releasing the pins is the last of a warm reset's beginning, and leaves the power state but for ALERT_N. -/
theorem warmBegin_power (cause : WarmCause) (s : State) :
    (warmBegin cause s).power.warmPending = some cause ∧ (warmBegin cause s).power.ready = false := by
  unfold warmBegin
  exact ⟨(congrArg (fun s => s.power.warmPending) (besidePins_releasePins _) :), (congrArg (fun s => s.power.ready) (besidePins_releasePins _) :)⟩

theorem acting_warmPending {cause : WarmCause} (h : s.power.warmPending = some cause) : acting s = false := by simp [acting, h]

/-! SHED_STATE (R489). -/

theorem exec_shedStateRead_served (hup : hostUp s = true) (f : Fn) : exec (.shedStateRead f) s = .next (readShedState f.val s) :=
  congrArg Host.Outcome.next (hostRead_served hup ..)

theorem readShedState_vf (hf : f ≠ 0) : readShedState f.val s = answerRead f.val 0x090000 0 s :=
  if_neg (Fin.val_ne_zero_iff.mpr hf)

/-! FUNC_RESET_CTL (R423, R429). -/

theorem exec_funcResetCtl_vf {v : Word} (hup : hostUp s = true) (hf : f ≠ 0) (h0 : v.getLsbD 0 = true) : exec (.funcResetCtl f v) s = .next (resetByHost f.val 2 s) :=
  congrArg Host.Outcome.next (if_pos (by simp [hup, bitOf_toNat, h0, hf]))

/-- PF0 has no reset here, and a 0 in RESET asks for none. -/
theorem exec_funcResetCtl_ignored {v : Word} (h : f = 0 ∨ v.getLsbD 0 = false) : exec (.funcResetCtl f v) s = .next s := by
  refine congrArg Host.Outcome.next (if_neg ?_)
  rw [bitOf_toNat]
  rcases h with hf | h0
  · simp [hf]
  · rw [h0]
    simp

theorem resetByHost_standby {f cause : Nat} (h : isStandby s = true) : resetByHost f cause s = { s with pair.orphanRecords := inc32 s.pair.orphanRecords } := if_pos h

theorem resetByHost_unpaired {f cause : Nat} (h : pairOn s = false) : resetByHost f cause s = resetBegin f cause s := by
  have hmirror : mirrorReset f s = s := if_neg (by simp [isHolder, h])
  have hlock : ¬ (inLockstep s && !clockLost s .time) = true := by simp [inLockstep, h]
  have hstandby : ¬ isStandby s = true := by simp [isStandby, h]
  rw [resetByHost, if_neg hstandby, hmirror]
  exact if_neg hlock

end

/-- Settles O12, register by register: by the writer, then by the bits of the word. -/
theorem privilegedRegistersTakeEffect : Obligations.PrivilegedRegistersTakeEffect := by
  unfold Obligations.PrivilegedRegistersTakeEffect
  intro s hup
  refine ⟨fun v h0 h2 hfree => ?stages, fun v h0 h2 hstaged => ?lost, fun v h0 h2 => ?lostClears, fun v h0 => ?withoutBit, fun f v hf => ?vf, fun v h0 => ?starved, fun v h0 => ?decerr,
    fun v h0 hkey => ?warm, fun v hkey => exec_glbReset_ignored (.inr (.inr hkey)), exec_shedStateRead_served hup 0, fun f hf => ?shedVf,
    fun f v hf h0 hpair => ?unpaired, fun f v hf h0 hstandby => ?standby, fun f v h0 => exec_funcResetCtl_ignored (.inr h0), fun v => exec_funcResetCtl_ignored (.inl rfl)⟩
  case stages => rw [exec_arbCommit_pf0 hup, writeArbCommit_commits h0 h2, if_pos (List.isEmpty_iff.mpr hfree)]
  case lost => rw [exec_arbCommit_pf0 hup, writeArbCommit_commits h0 h2, if_neg (mt List.isEmpty_iff.mp hstaged)]
  case lostClears => rw [exec_arbCommit_pf0 hup, writeArbCommit_clears h0 h2]
  case withoutBit =>
    have hno : v.getLsbD 0 ≠ true := Bool.eq_false_iff.mp h0
    rw [exec_starvedClear_pf0 hup, exec_fabDecerrClear_pf0 hup, if_neg hno, if_neg hno]
    exact ⟨rfl, rfl, exec_glbReset_ignored (.inr (.inl h0))⟩
  case vf =>
    obtain ⟨hcommit, hstarved, hdecerr⟩ := matrixRegisters_vf (s := s) hf v
    exact ⟨hcommit, hstarved, hdecerr, exec_glbReset_ignored (.inl hf)⟩
  case starved => rw [exec_starvedClear_pf0 hup, if_pos h0]
  case decerr => rw [exec_fabDecerrClear_pf0 hup, if_pos h0]
  case warm =>
    obtain ⟨hpending, hready⟩ := warmBegin_power .glbReset s
    exact ⟨_, exec_glbReset_warm hup h0 hkey, hpending, hready, acting_warmPending hpending⟩
  case shedVf =>
    rw [exec_shedStateRead_served hup, readShedState_vf hf]
    rfl
  case unpaired => rw [exec_funcResetCtl_vf hup hf h0, resetByHost_unpaired hpair]
  case standby => rw [exec_funcResetCtl_vf hup hf h0, resetByHost_standby hstandby]

end Sys2Proof.FabricArbitration

/-! PROOFS. The interrupt controller: what its evaluation keeps, the choice of a claim, sampling, claims and completions (R284 to R289). -/

namespace Sys2Proof.ControlCores

open Sys2Proof.Machine Sys2Proof.Laws Sys2Proof.HostAccess

/-! What the evaluation of the controller keeps of a source: everything but the start of its 1 ms (R286, R292). -/

section
variable (old s : State) (n : Nat)

theorem irqSettle_reads {α : Type} (get : Src → α) (hget : ∀ x k, get { x with stuckSince := k } = get x) : get (srcAt (irqSettle old s) n) = get (srcAt s n) := by
  obtain ⟨k, hk⟩ := srcAt_irqSettle old s n
  rw [hk, hget]

@[simp] theorem irqSettle_level : (srcAt (irqSettle old s) n).level = (srcAt s n).level := irqSettle_reads old s n Src.level fun _ _ => rfl
@[simp] theorem irqSettle_masked : (srcAt (irqSettle old s) n).masked = (srcAt s n).masked := irqSettle_reads old s n Src.masked fun _ _ => rfl
@[simp] theorem irqSettle_pendSw : (srcAt (irqSettle old s) n).pendSw = (srcAt s n).pendSw := irqSettle_reads old s n Src.pendSw fun _ _ => rfl
@[simp] theorem irqSettle_repend : (srcAt (irqSettle old s) n).repend = (srcAt s n).repend := irqSettle_reads old s n Src.repend fun _ _ => rfl
@[simp] theorem irqSettle_claimer : (srcAt (irqSettle old s) n).claimer = (srcAt s n).claimer := irqSettle_reads old s n Src.claimer fun _ _ => rfl
@[simp] theorem irqSettle_fallen : (srcAt (irqSettle old s) n).fallen = (srcAt s n).fallen := irqSettle_reads old s n Src.fallen fun _ _ => rfl
@[simp] theorem irqSettle_prio : (srcAt (irqSettle old s) n).prio = (srcAt s n).prio := irqSettle_reads old s n Src.prio fun _ _ => rfl
@[simp] theorem irqSettle_vector : (srcAt (irqSettle old s) n).vector = (srcAt s n).vector := irqSettle_reads old s n Src.vector fun _ _ => rfl
@[simp] theorem irqSettle_target : (srcAt (irqSettle old s) n).target = (srcAt s n).target := irqSettle_reads old s n Src.target fun _ _ => rfl

@[simp] theorem irqSettle_badCount : (irqSettle old s).irq.badCount = s.irq.badCount := by obtain ⟨_, _, _, _, h, _⟩ := irqSettle_cases old s; rw [h]
@[simp] theorem irqSettle_badLast : (irqSettle old s).irq.badLast = s.irq.badLast := by obtain ⟨_, _, _, _, h, _⟩ := irqSettle_cases old s; rw [h]
@[simp] theorem irqSettle_redirects : (irqSettle old s).irq.redirects = s.irq.redirects := by obtain ⟨_, _, _, _, h, _⟩ := irqSettle_cases old s; rw [h]

end

/-! The choice of a claim (R289). -/

/-- A claim keeps the first of the ready sources of the greatest PRIO. -/
theorem claimChoice_eq_argmax (s : State) (t : Nat) : claimChoice s t = (readyFor s t).argmax (fun n => (srcAt s n).prio) := by
  rw [claimChoice, List.argmax]
  congr 1
  funext w n
  cases w <;> rfl

theorem fmap_wf_iff_pairwise {α : Type} (m : FMap α) : m.wf = true ↔ m.Pairwise (fun d e => d.1 < e.1) := by
  induction m with
  | nil => simp [FMap.wf]
  | cons e r ih => rw [fmap_wf_cons, List.pairwise_cons, ih]

/-- A sorted table names the ready sources in ascending order. -/
theorem readyFor_ascending {s : State} (h : s.irq.srcs.wf = true) (t : Nat) : (readyFor s t).Pairwise (· < ·) :=
  List.pairwise_map.mpr (((fmap_wf_iff_pairwise _).mp h).filter _)

theorem le_of_idxOf_le {l : List Nat} (hl : l.Pairwise (· < ·)) {n m : Nat} (hn : n ∈ l) (hm : m ∈ l) (h : l.idxOf n ≤ l.idxOf m) : n ≤ m := by
  rcases h.lt_or_eq with hlt | heq
  · have hnm := List.pairwise_iff_getElem.mp hl _ _ (List.idxOf_lt_length_of_mem hn) (List.idxOf_lt_length_of_mem hm) hlt
    simpa using hnm.le
  · exact ((List.idxOf_inj hn).mp heq).le

/-- Settles O15: the fold of a claim is the library's `argmax`, which keeps the first of the best. -/
theorem claimChoosesHighestPriority : Obligations.ClaimChoosesHighestPriority := by
  unfold Obligations.ClaimChoosesHighestPriority
  intro s t
  rw [claimChoice_eq_argmax]
  refine ⟨fun n hn => ⟨List.argmax_mem hn, fun m hm => ⟨List.le_of_mem_argmax (f := fun n => (srcAt s n).prio) hm hn, fun hwf hprio => ?_⟩⟩, List.argmax_eq_none.mp⟩
  exact le_of_idxOf_le (readyFor_ascending hwf t) (List.argmax_mem hn) hm (List.index_of_argmax hn hm hprio.ge)

/-! Sampling, claiming and completing a source (R284, R285, R289, log 16). -/

/-- The state in which source n is sampled: where the manual leaves the end of its condition open, a free value may have ended it. -/
def conditionDrawn (n : Nat) (s : State) : State :=
  if endOpen n && blockLevel s n && (srcAt s n).level then (if freshValue s % 2 == 1 then endCondition n (spendFree s) else spendFree s) else s

theorem conditionDrawn_settled {n : Nat} {s : State} (h : (endOpen n && blockLevel s n && (srcAt s n).level) = false) : conditionDrawn n s = s :=
  if_neg (by simp [h])

theorem conditionDrawn_open {n : Nat} {s : State} (h : (endOpen n && blockLevel s n && (srcAt s n).level) = true) :
    conditionDrawn n s = spendFree s ∨ conditionDrawn n s = endCondition n (spendFree s) := by
  rw [conditionDrawn, if_pos h]
  split
  · exact .inr rfl
  · exact .inl rfl

/-- The level that source x takes, and REPEND where it rises on a claimed source. -/
def levelTaken (l : Bool) (x : Src) : Src := { x with level := l, repend := x.repend || (l && !x.level && x.claimer.isSome) }

theorem sampleLevel_eq (n : Nat) (s : State) : sampleLevel n s = modSrc n (levelTaken (blockLevel (conditionDrawn n s) n)) (conditionDrawn n s) := rfl

theorem exec_sourceLevelChange_running {s : State} (hact : acting s = true) (hctl : clockLost s .ctl = false) (n : Source) :
    exec (.sourceLevelChange n) s = .next (irqSettle s (sampleLevel n.val s)) :=
  congrArg Host.Outcome.next ((act_acting _ hact).trans (if_neg (by simp [hctl])))

theorem exec_irqClaim_up {s : State} {t : Fin 40} (hup : targetUp s t.val = true) : exec (.irqClaim t) s = .next (claim t.val s) :=
  congrArg Host.Outcome.next (if_pos hup)

theorem claim_some {s : State} {t n : Nat} (h : claimChoice s t = some n) : claim t s = answerRead t 0x040400 (n + 2 ^ 31) (irqSettle s (claimSrc n t s)) := by
  rw [claim, h]
  rfl

theorem claim_none {s : State} {t : Nat} (h : claimChoice s t = none) : claim t s = answerRead t 0x040400 0 s := by
  rw [claim, h]

@[simp] theorem answerRead_readData (f offset value : Nat) (s : State) : (answerRead f offset value s).readData = some value := rfl
@[simp] theorem answerRead_chans (f offset value : Nat) (s : State) : (answerRead f offset value s).chans = s.chans := rfl
@[simp] theorem answerRead_flows (f offset value : Nat) (s : State) : (answerRead f offset value s).flows = s.flows := rfl
@[simp] theorem srcAt_answerRead (f offset value n : Nat) (s : State) : srcAt (answerRead f offset value s) n = srcAt s n := rfl

/-- The number that a completion names (Table 10.9). -/
theorem bitsOf_number (v : Nat) : bitsOf v 9 0 = v % 1024 := by simp [bitsOf]

theorem exec_irqDone_up {s : State} {t : Fin 40} (hup : targetUp s t.val = true) (hbusy : t.val < 32 → (fnAt s t.val).busy = false) (v : Word) :
    exec (.irqDone t v) s = .next (irqSettle s (irqDoneBy t.val (v.toNat % 1024) s)) := by
  rw [← bitsOf_number]
  have hidle : (decide (t.val < 32) && (fnAt s t.val).busy) = false := Bool.and_eq_false_imp.mpr fun ht => hbusy (of_decide_eq_true ht)
  exact congrArg Host.Outcome.next (if_pos (by rw [hup, hidle]; rfl))

theorem exec_irqBaddoneCnt_up {s : State} (hup : hostUp s = true) (f : Fn) : exec (.irqBaddoneCnt f) s = .next (readBadCount f.val s) :=
  congrArg Host.Outcome.next (hostRead_served hup ..)

theorem srcAt_claimSrc (n t : Nat) (s : State) : srcAt (claimSrc n t s) n = { srcAt s n with claimer := some t, pendSw := false, repend := false } := srcAt_modSrc ..
theorem srcAt_claimSrc_ne {n m t : Nat} {s : State} (h : m ≠ n) : srcAt (claimSrc n t s) m = srcAt s m := srcAt_modSrc_ne h.symm
theorem srcAt_completeSrc (n : Nat) (s : State) :
    srcAt (completeSrc n s) n = { srcAt s n with claimer := none, pendSw := (srcAt s n).repend, repend := false, fallen := false } := srcAt_modSrc ..
theorem srcAt_completeSrc_ne {n m : Nat} {s : State} (h : m ≠ n) : srcAt (completeSrc n s) m = srcAt s m := srcAt_modSrc_ne h.symm

/-- Settles O14: each access by its meaning, the sampled level by the free value that it may draw. -/
theorem sourcesAreSampledClaimedAndCompleted : Obligations.SourcesAreSampledClaimedAndCompleted := by
  unfold Obligations.SourcesAreSampledClaimedAndCompleted
  refine ⟨fun n s hact hctl => ⟨conditionDrawn n.val s, conditionDrawn_settled, conditionDrawn_open, exec_sourceLevelChange_running hact hctl n⟩,
    fun t n s hup hchoice => ?claims, fun t s hup hnone => ?nothing, fun t v s hup hbusy hclaimer => ?completes, fun t v s hup hbusy hother => ?counted, fun f s hup => exec_irqBaddoneCnt_up hup f⟩
  case claims =>
    refine ⟨_, exec_irqClaim_up hup, ?_⟩
    rw [claim_some hchoice]
    simp only [answerRead_readData, answerRead_chans, answerRead_flows, srcAt_answerRead, irqSettle_claimer, irqSettle_pendSw, irqSettle_repend, irqSettle_chans, irqSettle_flows, srcAt_claimSrc]
    exact ⟨trivial, trivial, trivial, trivial, fun m hm => by rw [srcAt_claimSrc_ne hm], rfl, rfl⟩
  case nothing =>
    rw [exec_irqClaim_up hup, claim_none hnone]
    rfl
  case completes =>
    refine ⟨_, exec_irqDone_up hup hbusy v, ?_⟩
    rw [irqDoneBy, if_pos hclaimer]
    simp only [irqSettle_claimer, irqSettle_pendSw, irqSettle_repend, irqSettle_badCount, irqSettle_chans, irqSettle_flows, srcAt_completeSrc]
    exact ⟨trivial, trivial, trivial, fun m hm => by rw [srcAt_completeSrc_ne hm], rfl, rfl, rfl⟩
  case counted =>
    refine ⟨_, exec_irqDone_up hup hbusy v, ?_⟩
    rw [irqDoneBy, if_neg hother]
    simp only [irqSettle_claimer, irqSettle_badCount, irqSettle_badLast, irqSettle_chans, irqSettle_flows, fmap_getD_set_self]
    exact ⟨rfl, trivial, fun m => rfl, trivial, trivial⟩

end Sys2Proof.ControlCores

/-! PROOFS. The registers of sources: masks, software pending bits and routes (R284, R287, R295, Tables 10.7, 10.8). -/

namespace Sys2Proof.ControlCores

open Sys2Proof.Machine Sys2Proof.Laws Sys2Proof.Architecture

/-! A word of sources (R295). -/

/-- A change made to each source of a list, where making it twice is making it once. -/
theorem srcAt_foldl_modSrc {g : Src → Src} (hg : ∀ x, g (g x) = g x) (l : List Nat) (s : State) (n : Nat) :
    srcAt (l.foldl (fun s n => modSrc n g s) s) n = if l.contains n then g (srcAt s n) else srcAt s n := by
  induction l generalizing s with
  | nil => rfl
  | cons m r ih =>
    rw [List.foldl_cons, ih, List.contains_cons]
    by_cases h : n = m
    · subst h
      simp [hg]
    · have hm : (n == m) = false := beq_false_of_ne h
      rw [srcAt_modSrc_ne (Ne.symm h), hm, Bool.false_or]

/-- What a write of a word of sources does: the change of the owned ones that it names, and the start of a source's 1 ms. -/
structure WordChanged (f k v : Nat) (g : Src → Src) (s t : State) : Prop where
  chans : t.chans = s.chans
  flows : t.flows = s.flows
  srcs : ∀ n, ∃ since, srcAt t n = { (if (ownedBits s f k v).contains n then g (srcAt s n) else srcAt s n) with stuckSince := since }

theorem irqBits_wordChanged {f k v : Nat} {g : Src → Src} {s : State} (h : irqWritable s f = true) (hg : ∀ x, g (g x) = g x) : WordChanged f k v g s (irqBits f k v g s) := by
  rw [irqBits, if_pos h]
  refine ⟨(irqSettle_chans ..).trans (foldl_view (v := State.chans) (g := fun s n => modSrc n g s) (fun _ _ => rfl) _ s),
    (irqSettle_flows ..).trans (foldl_view (v := State.flows) (g := fun s n => modSrc n g s) (fun _ _ => rfl) _ s), fun n => ?_⟩
  rw [← srcAt_foldl_modSrc hg]
  exact srcAt_irqSettle ..

/-- A read of a source after such a write, by whether the write names it. -/
theorem WordChanged.reads {α : Type} {f k v : Nat} {g : Src → Src} {s t : State} (h : WordChanged f k v g s t) (get : Src → α) (hget : ∀ x k, get { x with stuckSince := k } = get x)
    (n : Nat) : get (srcAt t n) = if (ownedBits s f k v).contains n then get (g (srcAt s n)) else get (srcAt s n) := by
  obtain ⟨since, hsrc⟩ := h.srcs n
  rw [hsrc, hget, apply_ite get]

/-! IRQ_ROUTE (R287, R295). -/

/-- The route that source n takes of a word (Table 10.8). -/
def routed (n v : Nat) (x : Src) : Src :=
  { x with prio := v / 256 % 8, vector := if n < 512 then v / 65536 % 16 else x.vector,
           target := if n < 56 ∧ (v % 64 = 0 ∨ (32 ≤ v % 64 ∧ v % 64 ≤ 39)) then v % 64 else x.target }

theorem writeRoute_owned {f n : Nat} {s : State} (h : srcOwner s n = some f) (v : Nat) : writeRoute f n v s = modSrc n (routed n v) s := by
  have htarget : bitsOf v 5 0 = v % 64 := by simp [bitsOf]
  have hprio : bitsOf v 10 8 = v / 256 % 8 := by simp [bitsOf, Nat.shiftRight_eq_div_pow]
  have hvector : bitsOf v 19 16 = v / 65536 % 16 := by simp [bitsOf, Nat.shiftRight_eq_div_pow]
  rw [writeRoute, if_neg (not_not_intro h), htarget, hprio, hvector]
  rfl

theorem exec_irqRoute_owned {f : Fn} {n : Source} {s : State} (h : irqWritable s f.val = true) (howner : srcOwner s n.val = some f.val) (v : Word) :
    exec (.irqRoute f n v) s = .next (irqSettle s (modSrc n.val (routed n.val v.toNat) s)) := by
  rw [← writeRoute_owned howner]
  exact congrArg Host.Outcome.next (if_pos h)

/-- Settles O16: one lemma on a word of sources gives the four registers, each change being one that nothing changes when it is made again. -/
theorem masksPendsAndRoutesChangeOwnedSources : Obligations.MasksPendsAndRoutesChangeOwnedSources := by
  unfold Obligations.MasksPendsAndRoutesChangeOwnedSources
  intro f s hw
  refine ⟨fun k v => ⟨?maskSet, ?maskClr, ?pendSet, ?pendClr⟩, fun n v howner => ?route⟩
  case maskSet =>
    have h := irqBits_wordChanged (k := k.val) (v := v.toNat) hw (g := fun x => { x with masked := true }) fun _ => rfl
    refine ⟨_, rfl, h.chans, h.flows, fun n => ?_⟩
    rw [h.reads Src.masked fun _ _ => rfl, h.reads Src.claimer fun _ _ => rfl, h.reads Src.level fun _ _ => rfl]
    cases (ownedBits s f.val k.val v.toNat).contains n <;> simp
  case maskClr =>
    have h := irqBits_wordChanged (k := k.val) (v := v.toNat) hw (g := fun x => { x with masked := false }) fun _ => rfl
    refine ⟨_, rfl, h.chans, h.flows, fun n => ?_⟩
    rw [h.reads Src.masked fun _ _ => rfl, h.reads Src.claimer fun _ _ => rfl, h.reads Src.level fun _ _ => rfl]
    cases (ownedBits s f.val k.val v.toNat).contains n <;> simp
  case pendSet =>
    have h := irqBits_wordChanged (k := k.val) (v := v.toNat) hw (g := fun x => if x.claimer.isSome then { x with repend := true } else { x with pendSw := true })
      fun x => by cases hx : x.claimer <;> simp
    refine ⟨_, rfl, h.chans, h.flows, fun n => ?_⟩
    rw [h.reads Src.pendSw fun _ _ => rfl, h.reads Src.repend fun _ _ => rfl, h.reads Src.claimer fun _ _ => rfl]
    cases (ownedBits s f.val k.val v.toNat).contains n <;> cases (srcAt s n).claimer <;> simp
  case pendClr =>
    have h := irqBits_wordChanged (k := k.val) (v := v.toNat) hw (g := fun x => { x with pendSw := false, repend := false }) fun _ => rfl
    refine ⟨_, rfl, h.chans, h.flows, fun n => ?_⟩
    rw [h.reads Src.pendSw fun _ _ => rfl, h.reads Src.repend fun _ _ => rfl, h.reads Src.claimer fun _ _ => rfl]
    cases (ownedBits s f.val k.val v.toNat).contains n <;> simp
  case route =>
    refine ⟨_, exec_irqRoute_owned hw howner v, ?_⟩
    simp only [irqSettle_prio, irqSettle_vector, irqSettle_target, irqSettle_chans, irqSettle_flows, srcAt_modSrc]
    exact ⟨rfl, rfl, rfl, fun m hm => by rw [srcAt_modSrc_ne (Ne.symm hm)], rfl, rfl⟩

end Sys2Proof.ControlCores

/-! PROOFS. Messages, moderation, redirection and the completion of a redirected source (R290 to R293, R501). -/

namespace Sys2Proof.ControlCores

open Sys2Proof.Machine Sys2Proof.Laws

/-! Messages and their moderation (R290, R291). -/

section
variable {f v : Nat} {s : State}

/-- The function with vector v NOTIFIED and its moderation begun. -/
def notifiedFn (v now : Nat) (x : FnState) : FnState :=
  { x with notified := x.notified ||| BitVec.ofNat 16 (2 ^ v),
           timers := if x.modDelay.getD v 0 = 0 then x.timers else x.timers.set v (now + 500 * x.modDelay.getD v 0) }

theorem sendMsix_sends (hup : hostUp s = true) (hctl : clockLost s .ctl = false) (hlink : s.power.link = .l0) (hidle : (fnAt s f).notified.getLsbD v = false)
    (hready : vectorReady s f v = true) (htimer : (fnAt s f).timers.has v = false) (hdel : deliverable s f v = true) :
    sendMsix f v s = emit (modFn s f (notifiedFn v s.now)) (.msix f v (msixAt (fnAt s f) v).addr (msixAt (fnAt s f) v).data) := by
  have hgo : (hostUp s && !clockLost s .ctl && s.power.link == .l0 && !((fnAt s f).notified.getLsbD v) && vectorReady s f v && !((fnAt s f).timers.has v) && deliverable s f v) = true := by
    simp [hup, hctl, hlink, hidle, hready, htimer, hdel]
  rw [sendMsix]
  simp only [if_pos hgo, modFn, notifiedFn, ticksUs, Nat.mul_comm]

theorem timerExpiry_running {d : Nat} (h : (fnAt s f).timers.get? v = some d) :
    timerExpiry f v s = if d ≤ s.now then modFn s f (fun x => { x with timers := x.timers.erase v }) else s := by
  rw [timerExpiry, h]

end

/-! Redirection (R292, R293). -/

section
variable {n : Nat} {s : State}

/-- Source n is claimed by the fallback core, FALLEN or not, and counted. -/
def redirected (fallen : Bool) (n : Nat) (s : State) : State :=
  { modSrc n (fun x => { x with fallen := fallen }) (claimSrc n (32 + fallbackTarget s) s) with irq.redirects := satInc s.irq.redirects 65535 }

theorem srcAt_redirected (fallen : Bool) (n : Nat) (s : State) :
    srcAt (redirected fallen n s) n = { srcAt s n with claimer := some (32 + fallbackTarget s), pendSw := false, repend := false, fallen := fallen } := by
  calc srcAt (redirected fallen n s) n = { srcAt (claimSrc n (32 + fallbackTarget s) s) n with fallen := fallen } := srcAt_modSrc n (fun x => { x with fallen := fallen }) _
    _ = _ := by rw [srcAt_claimSrc]

@[simp] theorem modSrc_redirects (n : Nat) (g : Src → Src) (s : State) : (modSrc n g s).irq.redirects = s.irq.redirects := rfl
@[simp] theorem claimSrc_redirects (n t : Nat) (s : State) : (claimSrc n t s).irq.redirects = s.irq.redirects := rfl

/-- Only a source of a host function waits for its target to become deliverable. -/
theorem stuck_core {k : Nat} (h : srcTarget s n = some (32 + k)) (x : Src) : stuck s n x = false := by
  simp [stuck, h]

theorem redirect_host {f k : Nat} (htarget : srcTarget s n = some f) (hstuck : stuck s n (srcAt s n) = true) (hsince : (srcAt s n).stuckSince = some k)
    (hdue : k + 500000 ≤ s.now) : redirect n s = journalAdd (redirected true n s) 0 0 f 5 n 0 := by
  simp [redirect, hsince, hstuck, htarget, ticksMs, hdue, redirected]

theorem redirect_core {k : Nat} (htarget : srcTarget s n = some (32 + k)) (hready : srcReady (srcAt s n) = true) (hreset : (coreAt s k).st = .reset) :
    redirect n s = redirected false n s := by
  cases hsince : (srcAt s n).stuckSince <;> simp [redirect, hsince, stuck_core htarget, hready, htarget, hreset, redirected]

theorem exec_redirection_running (hact : acting s = true) (hctl : clockLost s .ctl = false) (dt : Nat) (n : Source) :
    exec (.redirection dt n) s = .next (irqSettle (advance dt s) (redirect n.val (advance dt s))) :=
  congrArg Host.Outcome.next ((actAfter_acting dt _ hact).trans (if_neg (Bool.eq_false_iff.mp hctl)))

/-! Completion of a redirected source (R292). -/

theorem fallbackDone_deliverable {f : Nat} (htarget : srcTarget s n = some f) (hfallen : (srcAt s n).fallen = true) (hdel : deliverable s f (srcVector s n) = true) :
    fallbackDone n s = completeSrc n s := by
  simp [fallbackDone, htarget, hfallen, hdel]

theorem exec_fallbackCompletion_running (hact : acting s = true) (hctl : clockLost s .ctl = false) (n : Source) :
    exec (.fallbackCompletion n) s = .next (irqSettle s (fallbackDone n.val s)) :=
  congrArg Host.Outcome.next ((act_acting _ hact).trans (if_neg (Bool.eq_false_iff.mp hctl)))

end

/-- Settles O17, step by step: the message and its timer in their function alone, a redirection by its cause, a completion by R284's own. -/
theorem messagesModerationAndRedirection : Obligations.MessagesModerationAndRedirection := by
  unfold Obligations.MessagesModerationAndRedirection
  refine ⟨fun f v s hup hctl hlink hidle hready htimer hdel => ?message, fun dt f v s d hact hd => ?timer, fun dt n f k s hact hctl htarget hstuck hsince hdue => ?host,
    fun dt n k s hact hctl htarget hready hreset => ?core, fun n f s hact hctl htarget hfallen hdel => ?completion⟩
  case message =>
    refine ⟨_, congrArg Host.Outcome.next (sendMsix_sends hup hctl hlink hidle hready htimer hdel), rfl, ?_, ?_, fun g hg => fnAt_modFn_ne (Ne.symm hg), rfl⟩
    · exact congrArg FnState.notified (fnAt_modFn s f.val (notifiedFn v.val s.now))
    · exact congrArg FnState.timers (fnAt_modFn s f.val (notifiedFn v.val s.now))
  case timer => exact congrArg Host.Outcome.next ((actAfter_acting dt _ hact).trans (timerExpiry_running (s := advance dt s) hd))
  case host =>
    refine ⟨_, exec_redirection_running hact hctl dt n, ?_⟩
    rw [redirect_host (s := advance dt s) htarget hstuck hsince hdue]
    simp only [irqSettle_claimer, irqSettle_fallen, irqSettle_redirects, irqSettle_journal, irqSettle_chans, irqSettle_flows]
    have hsrc := srcAt_redirected true n.val (advance dt s)
    exact ⟨congrArg Src.claimer hsrc, congrArg Src.fallen hsrc, rfl, ⟨_, rfl, rfl, rfl, rfl⟩, rfl, rfl⟩
  case core =>
    refine ⟨_, exec_redirection_running hact hctl dt n, ?_⟩
    rw [redirect_core (s := advance dt s) htarget hready hreset]
    simp only [irqSettle_claimer, irqSettle_fallen, irqSettle_redirects, irqSettle_journal, irqSettle_chans, irqSettle_flows, srcAt_redirected]
    exact ⟨rfl, trivial, rfl, rfl, rfl, rfl⟩
  case completion =>
    refine ⟨_, exec_fallbackCompletion_running hact hctl n, ?_⟩
    rw [fallbackDone_deliverable htarget hfallen hdel]
    simp only [irqSettle_claimer, irqSettle_fallen, irqSettle_pendSw, irqSettle_chans, irqSettle_flows, srcAt_completeSrc]
    exact ⟨trivial, trivial, trivial, rfl, rfl⟩

end Sys2Proof.ControlCores

/-! PROOFS. Threads and cores of Harbour: reads after writes, events, what firmware asks, and time events (R274 to R277, R281, R359). -/

namespace Sys2Proof.ControlCores

open Sys2Proof.Machine Sys2Proof.Laws

/-! Reads of a thread or a core after a change of another. -/

section
variable {s : State} {t u c d : Nat}

theorem threadAt_modThread_ne {g : Thread → Thread} (h : u ≠ t) : threadAt (modThread s t g) u = threadAt s u := fmap_getD_set_ne (Ne.symm h)
theorem coreAt_modCore_ne {g : SkerryCore → SkerryCore} (h : d ≠ c) : coreAt (modCore s c g) d = coreAt s d := fmap_getD_set_ne (Ne.symm h)

@[simp] theorem coreAt_modThread (s : State) (t : Nat) (g : Thread → Thread) (c : Nat) : coreAt (modThread s t g) c = coreAt s c := rfl
@[simp] theorem threadAt_modCore (s : State) (c : Nat) (g : SkerryCore → SkerryCore) (t : Nat) : threadAt (modCore s c g) t = threadAt s t := rfl

end

/-! What settling the cores keeps (R274): every thread, and of each core what it runs and holds. -/

section
variable (s : State)

theorem coreAt_coreSettle (c : Nat) : ∃ st, coreAt (coreSettle s) c = { coreAt s c with st := st } := by
  obtain ⟨_, h, hc⟩ := coreSettle_cases s
  rw [h]
  exact hc c

@[simp] theorem coreSettle_running (c : Nat) : (coreAt (coreSettle s) c).running = (coreAt s c).running := by obtain ⟨_, h⟩ := coreAt_coreSettle s c; rw [h]
@[simp] theorem coreSettle_slot (c : Nat) : (coreAt (coreSettle s) c).slot = (coreAt s c).slot := by obtain ⟨_, h⟩ := coreAt_coreSettle s c; rw [h]
@[simp] theorem coreSettle_threadAt (t : Nat) : threadAt (coreSettle s) t = threadAt s t := by obtain ⟨_, h, _⟩ := coreSettle_cases s; rw [h]; rfl
@[simp] theorem coreSettle_dispatches : (coreSettle s).harbour.dispatches = s.harbour.dispatches := by obtain ⟨_, h, _⟩ := coreSettle_cases s; rw [h]
@[simp] theorem coreSettle_clock : (coreSettle s).harbour.clock = s.harbour.clock := by obtain ⟨_, h, _⟩ := coreSettle_cases s; rw [h]
@[simp] theorem coreSettle_chans : (coreSettle s).chans = s.chans := by obtain ⟨_, h, _⟩ := coreSettle_cases s; rw [h]
@[simp] theorem coreSettle_flows : (coreSettle s).flows = s.flows := by obtain ⟨_, h, _⟩ := coreSettle_cases s; rw [h]

end

/-! Events (R276). -/

section
variable {s : State} {t : Nat}

theorem threadAt_makeReady (t : Nat) (s : State) : threadAt (makeReady t s) t = { threadAt s t with st := .ready, readyAt := s.harbour.clock, reReady := false } :=
  threadAt_modThread s t (fun x => { x with st := .ready, readyAt := s.harbour.clock, reReady := false })

@[simp] theorem coreAt_makeReady (t : Nat) (s : State) (c : Nat) : coreAt (makeReady t s) c = coreAt s c := rfl
@[simp] theorem makeReady_chans (t : Nat) (s : State) : (makeReady t s).chans = s.chans := rfl
@[simp] theorem makeReady_flows (t : Nat) (s : State) : (makeReady t s).flows = s.flows := rfl

theorem threadPost_blocked (h : (threadAt s t).st = .blocked) : threadPost t s = makeReady t s := by rw [threadPost, h]
theorem threadPost_running {c : Nat} (h : (threadAt s t).st = .running c) : threadPost t s = modThread s t (fun x => { x with reReady := true }) := by rw [threadPost, h]
theorem threadPost_free (h : (threadAt s t).st = .free) : threadPost t s = { s with harbour.lostEvents := inc32 s.harbour.lostEvents } := by rw [threadPost, h]

/-- One that is to run already merges the event. -/
theorem threadPost_merged (h : (threadAt s t).st = .ready ∨ ∃ c, (threadAt s t).st = .prefetched c) : threadPost t s = s := by
  rcases h with h | ⟨c, h⟩ <;> rw [threadPost, h]

theorem exec_threadEvent_posts (hact : acting s = true) (hctl : clockLost s .ctl = false) (dt : Nat) (t : Fin 1024) :
    exec (.threadEvent dt ⟨some t, []⟩) s = .next (threadPost t.val (advance dt s)) :=
  congrArg Host.Outcome.next ((actAfter_acting dt _ hact).trans (if_neg (Bool.eq_false_iff.mp hctl)))

/-! What firmware asks (R275, R277, R281, R359). -/

theorem exec_threadEvent_acts (hact : acting s = true) (hctl : clockLost s .ctl = false) (dt : Nat) (a : FwAct) :
    exec (.threadEvent dt ⟨none, [a]⟩) s = .next (fwAct (advance dt s) a) :=
  congrArg Host.Outcome.next ((actAfter_acting dt _ hact).trans (if_neg (Bool.eq_false_iff.mp hctl)))

theorem fwAct_set_stopped {t : Fin 1024} (h : (threadAt s t.val).st = .free ∨ (threadAt s t.val).st = .blocked) (p : Fin 32) (k : Option (Fin 256)) :
    fwAct s (.set t p k) = modThread s t.val (fun x => { x with st := .blocked, prio := p.val, flow := k.map (fun k => k.val) }) :=
  if_pos (by simpa using h)

theorem fwAct_set_other {t : Fin 1024} (hfree : (threadAt s t.val).st ≠ .free) (hblocked : (threadAt s t.val).st ≠ .blocked) (p : Fin 32) (k : Option (Fin 256)) :
    fwAct s (.set t p k) = s :=
  if_neg (by simp [hfree, hblocked])

theorem threadCancel_blocked (h : (threadAt s t).st = .blocked) : threadCancel t s = modThread s t (fun _ => {}) := by
  simp [threadCancel, h]

theorem threadCancel_running {c : Nat} (h : (threadAt s t).st = .running c) : threadCancel t s = modThread s t (fun x => { x with cancelled := true, reReady := false }) := by
  simp [threadCancel, h]

/-! Time events (R277). -/

theorem timeEventFire_due {i : Nat} {e : TimeSlot} (he : s.harbour.slots.get? i = some e) (hdue : e.at' ≤ s.time.local') (htime : clockLost s .time = false) :
    timeEventFire i s = match e.period with
      | none => { threadPost e.thread s with harbour.slots := (threadPost e.thread s).harbour.slots.erase i }
      | some p => { threadPost e.thread s with harbour.slots := (threadPost e.thread s).harbour.slots.set i { e with at' := e.at' + p } } := by
  simp only [timeEventFire, he]
  exact if_pos (by simp [hdue, htime])

theorem advance_local (htime : clockLost s .time = false) (dt : Nat) : (advance dt s).time.local' = s.time.local' + dt * s.time.addend :=
  if_neg (Bool.eq_false_iff.mp htime)

theorem exec_timeEvent_running (hact : acting s = true) (dt : Nat) (i : Fin 64) : exec (.timeEvent dt i) s = .next (timeEventFire i.val (advance dt s)) :=
  congrArg Host.Outcome.next (actAfter_acting dt _ hact)

end

end Sys2Proof.ControlCores

/-! PROOFS. A cycle of Harbour: the thread that it starts and the one that it prefetches (R278 to R280). -/

namespace Sys2Proof.ControlCores

open Sys2Proof.Machine Sys2Proof.Laws

/-! The order of threads (R278). -/

/-- The rank of a thread, least first: priority from the highest, then the cycle in which it became READY, then its number. -/
def threadPlace (s : State) (t : Nat) : Natᵒᵈ ×ₗ (Nat ×ₗ Nat) := toLex (OrderDual.toDual (threadAt s t).prio, toLex ((threadAt s t).readyAt, t))

/-- Ranking above another is the lexicographic order of the ranks. -/
theorem ranksAbove_iff_threadPlace_lt (s : State) (t u : Nat) : ranksAbove s t u = true ↔ threadPlace s t < threadPlace s u := by
  simp [ranksAbove, threadPlace, Prod.Lex.toLex_lt_toLex]

/-- Harbour chooses the eligible thread of the least rank. -/
theorem bestEligible_eq_argmin (s : State) : bestEligible s = ((s.harbour.threads.map (fun e => e.1)).filter (eligible s)).argmin (threadPlace s) := by
  rw [bestEligible, bestOf, List.argmin]
  congr 1
  funext b t
  cases b with
  | none => rfl
  | some u => simp only [List.argAux, ranksAbove_iff_threadPlace_lt]

theorem eligible_ready {s : State} {t : Nat} (h : eligible s t = true) : (threadAt s t).st = .ready := by
  rw [eligible, Bool.and_eq_true, beq_iff_eq] at h
  exact h.1

theorem bestEligible_eligible {s : State} {t : Nat} (h : bestEligible s = some t) : eligible s t = true := by
  rw [bestEligible_eq_argmin] at h
  exact (List.mem_filter.mp (List.argmin_mem h)).2

/-! The steps of a cycle, core by core. -/

section
variable {s : State} {c t : Nat}

theorem coreReturn_none (h : (coreAt s c).back = none) : coreReturn s c = s := by rw [coreReturn, h]

theorem fillCore_none (h : bestEligible s = none) : fillCore s c = s := by
  rw [fillCore, h]
  exact ite_self _

theorem fillCore_reset (h : (coreAt s c).st = .reset) : fillCore s c = s := if_pos (by simp [h])

theorem fillCore_filled (h : (coreAt s c).slot = some t) : fillCore s c = s := if_pos (by simp [h])

theorem fillCore_prefetches (hst : (coreAt s c).st ≠ .reset) (hslot : (coreAt s c).slot = none) (hbest : bestEligible s = some t) : fillCore s c = prefetch t c s := by
  rw [fillCore, if_neg (by simp [hst, hslot]), hbest]

theorem startSlot_empty (h : (coreAt s c).slot = none) : startSlot s c = s := by
  simp [startSlot, h]

theorem startSlot_busy {r : Nat} (h : (coreAt s c).running = some r) : startSlot s c = s := by
  simp only [startSlot, h]
  cases (coreAt s c).slot <;> rfl

/-- Core c runs thread t, which stood in its slot, and the dispatch is counted. -/
def slotStarted (t c : Nat) (s : State) : State :=
  { modCore (modThread s t (fun y => { y with st := .running c })) c (fun y => { y with slot := none, running := some t, since := s.now, st := .run })
    with harbour.dispatches := inc32 s.harbour.dispatches }

theorem startSlot_starts (hslot : (coreAt s c).slot = some t) (hidle : (coreAt s c).running = none) (hst : (coreAt s c).st ≠ .reset) : startSlot s c = slotStarted t c s := by
  simp only [startSlot, hslot, hidle]
  exact if_pos (by simp [hst])

theorem coreAt_slotStarted (t c : Nat) (s : State) : coreAt (slotStarted t c s) c = { coreAt s c with slot := none, running := some t, since := s.now, st := .run } :=
  coreAt_modCore (modThread s t (fun y => { y with st := .running c })) c (fun y => { y with slot := none, running := some t, since := s.now, st := .run })

theorem coreAt_slotStarted_ne {d : Nat} (h : d ≠ c) : coreAt (slotStarted t c s) d = coreAt s d := fmap_getD_set_ne (Ne.symm h)

theorem threadAt_slotStarted (t c : Nat) (s : State) : threadAt (slotStarted t c s) t = { threadAt s t with st := .running c } :=
  threadAt_modThread s t (fun y => { y with st := .running c })

theorem threadAt_slotStarted_ne {u : Nat} (h : u ≠ t) : threadAt (slotStarted t c s) u = threadAt s u := fmap_getD_set_ne (Ne.symm h)

@[simp] theorem slotStarted_chans (t c : Nat) (s : State) : (slotStarted t c s).chans = s.chans := rfl
@[simp] theorem slotStarted_flows (t c : Nat) (s : State) : (slotStarted t c s).flows = s.flows := rfl
@[simp] theorem slotStarted_dispatches (t c : Nat) (s : State) : (slotStarted t c s).harbour.dispatches = inc32 s.harbour.dispatches := rfl
@[simp] theorem slotStarted_clock (t c : Nat) (s : State) : (slotStarted t c s).harbour.clock = s.harbour.clock := rfl

theorem coreAt_prefetch (t c : Nat) (s : State) : coreAt (prefetch t c s) c = { coreAt s c with slot := some t } := coreAt_modCore ..
theorem coreAt_prefetch_ne {d : Nat} (h : d ≠ c) : coreAt (prefetch t c s) d = coreAt s d := coreAt_modCore_ne h
theorem threadAt_prefetch (t c : Nat) (s : State) : threadAt (prefetch t c s) t = { threadAt s t with st := .prefetched c } :=
  threadAt_modThread s t (fun x => { x with st := .prefetched c })
theorem threadAt_prefetch_ne {u : Nat} (h : u ≠ t) : threadAt (prefetch t c s) u = threadAt s u := fmap_getD_set_ne (Ne.symm h)

@[simp] theorem prefetch_chans (t c : Nat) (s : State) : (prefetch t c s).chans = s.chans := rfl
@[simp] theorem prefetch_flows (t c : Nat) (s : State) : (prefetch t c s).flows = s.flows := rfl
@[simp] theorem prefetch_clock (t c : Nat) (s : State) : (prefetch t c s).harbour.clock = s.harbour.clock := rfl

end

/-- A fold in which one element acts, once. -/
theorem foldl_acts_once {α β : Type} {g : β → α → β} {s t : β} {c : α} (hothers : ∀ d, d ≠ c → g s d = s) (hacts : g s c = t) (hdone : ∀ d, g t d = t) {l : List α} (hc : c ∈ l) :
    l.foldl g s = t := by
  induction l with
  | nil => exact absurd hc List.not_mem_nil
  | cons d r ih =>
    rw [List.foldl_cons]
    by_cases hd : d = c
    · rw [hd, hacts, List.foldl_fixed' hdone]
    · rw [hothers d hd]
      exact ih ((List.mem_cons.mp hc).resolve_left (Ne.symm hd))

/-! What a prefetch leaves to a recall (R279). -/

theorem fmap_mem_set_of_mem {α : Type} {m : FMap α} {k : Nat} {v : α} {e : Nat × α} (h : e ∈ m) : e ∈ m.set k v ∨ m.get? k = some e.2 := by
  induction m with
  | nil => exact absurd h List.not_mem_nil
  | cons d r ih =>
    obtain ⟨j, w⟩ := d
    rw [FMap.set, FMap.get?]
    split
    · exact .inl (List.mem_cons_of_mem _ h)
    · split
      · rcases List.mem_cons.mp h with rfl | hr
        · exact .inr rfl
        · exact .inl (List.mem_cons_of_mem _ hr)
      · rcases List.mem_cons.mp h with rfl | hr
        · exact .inl List.mem_cons_self
        · exact (ih hr).imp_left (List.mem_cons_of_mem _)

section
variable {s : State} {c t : Nat}

/-- A flow that was held is held still: the thread that is prefetched was READY and held none. -/
theorem harbourHeld_prefetch {k : Nat} (ht : (threadAt s t).st = .ready) (h : harbourHeld s k = true) : harbourHeld (prefetch t c s) k = true := by
  rw [harbourHeld, List.any_eq_true] at h ⊢
  obtain ⟨e, he, hheld⟩ := h
  rcases fmap_mem_set_of_mem (k := t) (v := { threadAt s t with st := .prefetched c }) he with hmem | hget
  · exact ⟨e, hmem, hheld⟩
  · have hready : e.2.st = .ready := by rw [← ht, threadAt, FMap.getD, hget]; rfl
    simp [hready] at hheld

theorem eligible_of_prefetch {u : Nat} (ht : (threadAt s t).st = .ready) (h : eligible (prefetch t c s) u = true) : u ≠ t ∧ eligible s u = true := by
  have hu : u ≠ t := by
    rintro rfl
    have hst := eligible_ready h
    rw [threadAt_prefetch] at hst
    cases hst
  refine ⟨hu, ?_⟩
  rw [eligible, threadAt_prefetch_ne hu] at h
  rw [eligible]
  cases hflow : (threadAt s u).flow with
  | none => simpa [hflow] using h
  | some k =>
    simp only [hflow, Bool.and_eq_true, Bool.not_eq_true'] at h ⊢
    exact ⟨h.1, Bool.eq_false_iff.mpr fun hheld => absurd (harbourHeld_prefetch (c := c) ht hheld) (by simp [h.2])⟩

/-- Once the best eligible thread is prefetched, no eligible thread ranks above it. -/
theorem ranksAbove_prefetch_best {u : Nat} (hbest : bestEligible s = some t) (hu : bestEligible (prefetch t c s) = some u) : ranksAbove (prefetch t c s) u t = false := by
  have ht := eligible_ready (bestEligible_eligible hbest)
  obtain ⟨hne, helig⟩ := eligible_of_prefetch ht (bestEligible_eligible hu)
  have hlisted : u ∈ s.harbour.threads.map (fun e => e.1) := by
    rw [bestEligible_eq_argmin] at hu
    obtain ⟨e, he, rfl⟩ := List.mem_map.mp (List.mem_filter.mp (List.argmin_mem hu)).1
    rcases fmap_mem_set he with rfl | hmem
    · exact absurd rfl hne
    · exact List.mem_map_of_mem hmem
  have hplace : threadPlace (prefetch t c s) u = threadPlace s u := by rw [threadPlace, threadAt_prefetch_ne hne, ← threadPlace]
  have hplaceBest : threadPlace (prefetch t c s) t = threadPlace s t := by rw [threadPlace, threadAt_prefetch, ← threadPlace]
  rw [bestEligible_eq_argmin] at hbest
  rw [← Bool.not_eq_true, ranksAbove_iff_threadPlace_lt, hplace, hplaceBest]
  exact List.not_lt_of_mem_argmin (List.mem_filter.mpr ⟨hlisted, helig⟩) hbest

/-- The thread that a recall would take stands in the slot of its core. -/
theorem worstPrefetched_slot {u d : Nat} (h : worstPrefetched s = some (u, d)) : (coreAt s d).slot = some u := by
  have hall : ∀ e : Nat × Nat, worstPrefetched s = some e → (coreAt s e.2).slot = some e.1 := by
    refine foldl_keeps (P := fun w : Option (Nat × Nat) => ∀ e, w = some e → (coreAt s e.2).slot = some e.1) (fun w d hw e he => ?_) (List.range 8) (fun _ he => nomatch he)
    cases hslot : (coreAt s d).slot with
    | none => exact hw e (by simpa [hslot] using he)
    | some x =>
      cases w with
      | none =>
        obtain rfl : (x, d) = e := by simpa [hslot] using he
        exact hslot
      | some v =>
        simp only [hslot] at he
        split at he
        · cases he; exact hslot
        · exact hw e he
  exact hall (u, d) h

theorem recallBest_none (h : bestEligible s = none) : recallBest s = s := by rw [recallBest, h]

/-- Nothing is recalled while no eligible thread ranks above a prefetched one. -/
theorem recallBest_kept (h : ∀ t u d, bestEligible s = some t → (coreAt s d).slot = some u → ranksAbove s t u = false) : recallBest s = s := by
  rw [recallBest]
  split
  next t u d ht hu => exact if_neg (by simp [h t u d ht (worstPrefetched_slot hu)])
  next => rfl

end

/-! The whole cycle. -/

/-- The end of a cycle: READY threads are noted, cores settled, and the clock of Harbour moves on. -/
def cycleEnded (s : State) : State := { coreSettle (noteReady s) with harbour.clock := (coreSettle (noteReady s)).harbour.clock + 1 }

section
variable (s : State)

theorem cycleEnded_cases : ∃ cs, cycleEnded s = { noteReady s with harbour.cores := cs, harbour.clock := s.harbour.clock + 1 } ∧ ∀ c, ∃ st, FMap.getD cs c {} = { coreAt s c with st := st } := by
  obtain ⟨cs, h, hc⟩ := coreSettle_cases (noteReady s)
  rw [cycleEnded, h]
  exact ⟨cs, rfl, hc⟩

theorem coreAt_cycleEnded (c : Nat) : ∃ st, coreAt (cycleEnded s) c = { coreAt s c with st := st } := by
  obtain ⟨_, h, hc⟩ := cycleEnded_cases s
  rw [h]
  exact hc c

@[simp] theorem cycleEnded_running (c : Nat) : (coreAt (cycleEnded s) c).running = (coreAt s c).running := by obtain ⟨_, h⟩ := coreAt_cycleEnded s c; rw [h]
@[simp] theorem cycleEnded_slot (c : Nat) : (coreAt (cycleEnded s) c).slot = (coreAt s c).slot := by obtain ⟨_, h⟩ := coreAt_cycleEnded s c; rw [h]
@[simp] theorem cycleEnded_threadAt (t : Nat) : threadAt (cycleEnded s) t = threadAt s t := by obtain ⟨_, h, _⟩ := cycleEnded_cases s; rw [h]; rfl
@[simp] theorem cycleEnded_dispatches : (cycleEnded s).harbour.dispatches = s.harbour.dispatches := by obtain ⟨_, h, _⟩ := cycleEnded_cases s; rw [h]; rfl
@[simp] theorem cycleEnded_clock : (cycleEnded s).harbour.clock = s.harbour.clock + 1 := by obtain ⟨_, h, _⟩ := cycleEnded_cases s; rw [h]
@[simp] theorem cycleEnded_chans : (cycleEnded s).chans = s.chans := by obtain ⟨_, h, _⟩ := cycleEnded_cases s; rw [h]; rfl
@[simp] theorem cycleEnded_flows : (cycleEnded s).flows = s.flows := by obtain ⟨_, h, _⟩ := cycleEnded_cases s; rw [h]; rfl

end

section
variable {s : State} {c t : Nat}

theorem harbourCycle_eq (hback : ∀ d, (coreAt s d).back = none) :
    harbourCycle s = cycleEnded ((List.range 8).foldl startSlot (recallBest ((List.range 8).foldl fillCore s))) := by
  rw [harbourCycle, List.foldl_fixed' (fun d => coreReturn_none (hback d))]
  rfl

theorem exec_prefetchFill_running (hact : acting s = true) (hctl : clockLost s .ctl = false) : exec .prefetchFill s = .next (harbourCycle s) :=
  congrArg Host.Outcome.next ((act_acting _ hact).trans (if_neg (Bool.eq_false_iff.mp hctl)))

/-- With nothing eligible, the prefetched thread of the one filled slot starts on its idle core. -/
theorem harbourCycle_starts (hc : c < 8) (hnone : bestEligible s = none) (hback : ∀ d, (coreAt s d).back = none) (hst : (coreAt s c).st ≠ .reset) (hidle : (coreAt s c).running = none)
    (hslot : (coreAt s c).slot = some t) (hempty : ∀ d, d ≠ c → (coreAt s d).slot = none) : harbourCycle s = cycleEnded (slotStarted t c s) := by
  have hstarted : ∀ d, startSlot (slotStarted t c s) d = slotStarted t c s := fun d => by
    refine startSlot_empty ?_
    by_cases hd : d = c
    · rw [hd, coreAt_slotStarted]
    · rw [coreAt_slotStarted_ne hd, hempty d hd]
  rw [harbourCycle_eq hback, List.foldl_fixed' (fun _ => fillCore_none hnone), recallBest_none hnone,
    foldl_acts_once (fun d hd => startSlot_empty (hempty d hd)) (startSlot_starts hslot hidle hst) hstarted (List.mem_range.mpr hc)]

/-- The best eligible thread goes into the empty slot of the one core that is up; it runs a thread, so that the other waits there. -/
theorem harbourCycle_prefetches {r : Nat} (hc : c < 8) (hbest : bestEligible s = some t) (hback : ∀ d, (coreAt s d).back = none) (hst : (coreAt s c).st ≠ .reset)
    (hrun : (coreAt s c).running = some r) (hslot : (coreAt s c).slot = none) (hothers : ∀ d, d ≠ c → (coreAt s d).slot = none ∧ (coreAt s d).st = .reset) :
    harbourCycle s = cycleEnded (prefetch t c s) := by
  have hcore : (coreAt (prefetch t c s) c).slot = some t ∧ (coreAt (prefetch t c s) c).running = some r := by
    rw [coreAt_prefetch]
    exact ⟨rfl, hrun⟩
  have hfilled : ∀ d, fillCore (prefetch t c s) d = prefetch t c s := fun d => by
    rcases eq_or_ne d c with rfl | hd
    · exact fillCore_filled hcore.1
    · exact fillCore_reset (by rw [coreAt_prefetch_ne hd, (hothers d hd).2])
  have hkept : recallBest (prefetch t c s) = prefetch t c s := recallBest_kept fun v u d hv hu => by
    rcases eq_or_ne d c with rfl | hd
    · obtain rfl : t = u := Option.some.inj (hcore.1.symm.trans hu)
      exact ranksAbove_prefetch_best hbest hv
    · rw [coreAt_prefetch_ne hd, (hothers d hd).1] at hu
      cases hu
  have hstill : ∀ d, startSlot (prefetch t c s) d = prefetch t c s := fun d => by
    rcases eq_or_ne d c with rfl | hd
    · exact startSlot_busy hcore.2
    · exact startSlot_empty (by rw [coreAt_prefetch_ne hd, (hothers d hd).1])
  rw [harbourCycle_eq hback, foldl_acts_once (fun d hd => fillCore_reset (hothers d hd).2) (fillCore_prefetches hst hslot hbest) hfilled (List.mem_range.mpr hc), hkept,
    List.foldl_fixed' hstill]

end

end Sys2Proof.ControlCores

/-! PROOFS. Yields, the run limit, and Harbour as a whole (R274 to R281, R359). -/

namespace Sys2Proof.ControlCores

open Sys2Proof.Machine Sys2Proof.Laws

/-! Yields (R280, R281). -/

/-- Thread t leaves its core in the way of y. -/
def threadLeaves (t : Nat) (y : YieldKind) (s : State) : State :=
  match y with
  | .finish => modThread s t (fun _ => {})
  | .block => if (threadAt s t).cancelled then modThread s t (fun _ => {}) else if (threadAt s t).reReady then makeReady t s else modThread s t (fun z => { z with st := .blocked })

section
variable {s : State} {c t : Nat} {y : YieldKind}

/-- A thread that leaves changes threads alone, and READY threads are noted. -/
theorem threadLeaves_cases : ∃ ts m, threadLeaves t y s = { s with harbour.threads := ts, harbour.readyMax := m } := by
  cases y with
  | finish => exact ⟨_, _, rfl⟩
  | block =>
    rw [threadLeaves]
    split
    · exact ⟨_, _, rfl⟩
    · split <;> exact ⟨_, _, rfl⟩

@[simp] theorem coreAt_threadLeaves (d : Nat) : coreAt (threadLeaves t y s) d = coreAt s d := by obtain ⟨_, _, h⟩ := threadLeaves_cases (t := t) (y := y) (s := s); rw [h]; rfl
theorem threadLeaves_dispatches : (threadLeaves t y s).harbour.dispatches = s.harbour.dispatches := by obtain ⟨_, _, h⟩ := threadLeaves_cases (t := t) (y := y) (s := s); rw [h]
theorem threadLeaves_chans : (threadLeaves t y s).chans = s.chans := by obtain ⟨_, _, h⟩ := threadLeaves_cases (t := t) (y := y) (s := s); rw [h]
theorem threadLeaves_flows : (threadLeaves t y s).flows = s.flows := by obtain ⟨_, _, h⟩ := threadLeaves_cases (t := t) (y := y) (s := s); rw [h]

theorem threadAt_threadLeaves_finish : threadAt (threadLeaves t .finish s) t = {} := threadAt_modThread s t (fun _ => {})

theorem threadLeaves_block_st : (threadAt (threadLeaves t .block s) t).st = if (threadAt s t).cancelled then .free else if (threadAt s t).reReady then .ready else .blocked := by
  rw [threadLeaves]
  split
  · rw [threadAt_modThread]
  · split
    · rw [threadAt_makeReady]
    · rw [threadAt_modThread]

/-- Core c with the thread that it ran gone from it. -/
def coreLeft (c t : Nat) (y : YieldKind) (s : State) : State := threadLeaves t y (modCore s c (fun z => { z with running := none }))

theorem coreAt_coreLeft : coreAt (coreLeft c t y s) c = { coreAt s c with running := none } := by
  rw [coreLeft, coreAt_threadLeaves, coreAt_modCore]

theorem threadYields_running (h : (coreAt s c).running = some t) : threadYields c y s = coreSettle (startSlot (coreLeft c t y s) c) := by
  simp only [threadYields, h]
  cases y <;> rfl

/-- With an empty slot the core runs nothing. -/
theorem threadYields_idle (h : (coreAt s c).running = some t) (hslot : (coreAt s c).slot = none) : threadYields c y s = coreSettle (coreLeft c t y s) := by
  rw [threadYields_running h, startSlot_empty (by rw [coreAt_coreLeft, hslot])]

/-- Otherwise it runs the thread of its slot. -/
theorem threadYields_next {v : Nat} (h : (coreAt s c).running = some t) (hslot : (coreAt s c).slot = some v) (hst : (coreAt s c).st ≠ .reset) :
    threadYields c y s = coreSettle (slotStarted v c (coreLeft c t y s)) := by
  rw [threadYields_running h, startSlot_starts]
  · rw [coreAt_coreLeft, hslot]
  · rw [coreAt_coreLeft]
  · rwa [coreAt_coreLeft]

theorem exec_threadYield_running (hact : acting s = true) (hctl : clockLost s .ctl = false) (dt : Nat) (c : Core) (y : YieldKind) :
    exec (.threadYield dt c y) s = .next (threadYields c.val y (advance dt s)) :=
  congrArg Host.Outcome.next ((actAfter_acting dt _ hact).trans (if_neg (Bool.eq_false_iff.mp hctl)))

end

/-! The run limit (R270, R280). -/

/-- The thread of a core's slot is READY again. -/
def slotReturned (c : Nat) (s : State) : State :=
  match (coreAt s c).slot with
  | some u => modThread s u (fun z => { z with st := .ready })
  | none => s

/-- A reset of core c by the run limit is counted and journaled. -/
def limitNoted (c : Nat) (s : State) : State := journalAdd { s with harbour.runLimit := inc32 s.harbour.runLimit } 9 0 deviceFn 5 c 0

/-- The state in which core c has been reset for its running thread t. -/
def limitReached (c t : Nat) (s : State) : State := limitNoted c (resetCore c t s)

section
variable {s : State} {c t : Nat}

theorem slotReturned_some {v : Nat} (h : (coreAt s c).slot = some v) : slotReturned c s = modThread s v (fun z => { z with st := .ready }) := by
  rw [slotReturned, h]

theorem threadAt_slotReturned_ne (h : ∀ v, (coreAt s c).slot = some v → v ≠ t) : threadAt (slotReturned c s) t = threadAt s t := by
  rw [slotReturned]
  split
  next v hv => exact threadAt_modThread_ne (h v hv).symm
  next => rfl

/-- The core is masked at the Skerry merge arbiter (R270). -/
theorem arbAt_maskRequester (i : Nat) (s : State) : (arbAt (maskRequester 130 i true s) 130).masked.contains i = true := by
  rw [maskRequester, if_neg (by decide), arbAt_modArb]
  simp only [if_true]
  split
  · assumption
  · simp

theorem maskRequester_harbour (a i : Nat) (on : Bool) (s : State) : (maskRequester a i on s).harbour = s.harbour := by
  unfold maskRequester
  split <;> rfl

@[simp] theorem coreAt_maskRequester (a i : Nat) (on : Bool) (s : State) (d : Nat) : coreAt (maskRequester a i on s) d = coreAt s d := by
  rw [coreAt, maskRequester_harbour, ← coreAt]

/-- The state in which thread t is free and the thread of the core's slot is READY. -/
def threadsReturned (c t : Nat) (s : State) : State := slotReturned c (modThread (maskRequester 130 c true s) t (fun _ => {}))

/-- Core c is in RESET, to return 20 µs from now, and the Harbour fault is set. -/
def coreStopped (c : Nat) (s : State) : State :=
  { modCore s c (fun _ => { st := .reset, running := none, slot := none, back := some (s.now + ticksUs 20) }) with harbour.fault := true }

theorem slot_masked : (coreAt (modThread (maskRequester 130 c true s) t (fun _ => {})) c).slot = (coreAt s c).slot := by
  rw [coreAt_modThread, coreAt_maskRequester]

theorem resetCore_eq (c t : Nat) (s : State) : resetCore c t s = coreStopped c (threadsReturned c t s) := by
  rw [threadsReturned, slotReturned, slot_masked]
  rfl

theorem coreAt_resetCore (c t : Nat) (s : State) :
    coreAt (resetCore c t s) c = { st := .reset, running := none, slot := none, back := some ((threadsReturned c t s).now + ticksUs 20) } := by
  rw [resetCore_eq]
  exact coreAt_modCore (threadsReturned c t s) c (fun _ => _)

theorem threadAt_resetCore_freed (h : ∀ v, (coreAt s c).slot = some v → v ≠ t) : threadAt (resetCore c t s) t = {} := by
  rw [resetCore_eq]
  exact (threadAt_slotReturned_ne (by rwa [slot_masked])).trans (threadAt_modThread ..)

theorem threadAt_resetCore_returned {v : Nat} (h : (coreAt s c).slot = some v) : (threadAt (resetCore c t s) v).st = .ready := by
  rw [resetCore_eq, threadsReturned, slotReturned_some (slot_masked.trans h)]
  exact congrArg Thread.st (threadAt_modThread _ v (fun z => { z with st := .ready }))

/-- The return of the threads leaves the arbiters and the counts of Harbour. -/
theorem threadsReturned_cases (c t : Nat) (s : State) : ∃ ts, threadsReturned c t s = { maskRequester 130 c true s with harbour.threads := ts } := by
  rw [threadsReturned, slotReturned]
  split
  · exact ⟨_, rfl⟩
  · exact ⟨_, rfl⟩

theorem arbAt_resetCore (c t : Nat) (s : State) : arbAt (resetCore c t s) 130 = arbAt (maskRequester 130 c true s) 130 := by
  obtain ⟨_, h⟩ := threadsReturned_cases c t s
  rw [resetCore_eq, h]
  rfl

theorem resetCore_runLimit (c t : Nat) (s : State) : (resetCore c t s).harbour.runLimit = s.harbour.runLimit := by
  obtain ⟨_, h⟩ := threadsReturned_cases c t s
  rw [← maskRequester_harbour 130 c true s, resetCore_eq, h]
  rfl

theorem resetCore_fault (c t : Nat) (s : State) : (resetCore c t s).harbour.fault = true := by
  rw [resetCore_eq]
  rfl

theorem resetCore_cases (c t : Nat) (s : State) : ∃ h a, resetCore c t s = { s with harbour := h, fab.arbs := a } := by
  obtain ⟨_, h⟩ := threadsReturned_cases c t s
  rw [resetCore_eq, h, maskRequester, if_neg (by decide)]
  exact ⟨_, _, rfl⟩

theorem resetCore_journal (c t : Nat) (s : State) : (resetCore c t s).journal = s.journal := by obtain ⟨_, _, h⟩ := resetCore_cases c t s; rw [h]
theorem resetCore_flows (c t : Nat) (s : State) : (resetCore c t s).flows = s.flows := by obtain ⟨_, _, h⟩ := resetCore_cases c t s; rw [h]

@[simp] theorem threadAt_limitNoted (c : Nat) (s : State) (u : Nat) : threadAt (limitNoted c s) u = threadAt s u := rfl
@[simp] theorem coreAt_limitNoted (c : Nat) (s : State) (d : Nat) : coreAt (limitNoted c s) d = coreAt s d := rfl
@[simp] theorem arbAt_limitNoted (c : Nat) (s : State) (a : Nat) : arbAt (limitNoted c s) a = arbAt s a := rfl
@[simp] theorem limitNoted_fault (c : Nat) (s : State) : (limitNoted c s).harbour.fault = s.harbour.fault := rfl
@[simp] theorem limitNoted_runLimit (c : Nat) (s : State) : (limitNoted c s).harbour.runLimit = inc32 s.harbour.runLimit := rfl
@[simp] theorem limitNoted_flows (c : Nat) (s : State) : (limitNoted c s).flows = s.flows := rfl

theorem limitNoted_staged (c : Nat) (s : State) : ∃ e, (limitNoted c s).journal.staged = s.journal.staged ++ [e] ∧ e.cls = 9 := ⟨_, rfl, rfl⟩

theorem limitReached_staged (c t : Nat) (s : State) : ∃ e, (limitReached c t s).journal.staged = s.journal.staged ++ [e] ∧ e.cls = 9 := by
  rw [← resetCore_journal c t s]
  exact limitNoted_staged ..

theorem runLimitTrip_due (hrun : (coreAt s c).running = some t) (hdue : (coreAt s c).since + 25000 ≤ s.now) (hinj : injectionOf s 10 c = none) :
    runLimitTrip c none s = limitReached c t s := by
  simp only [runLimitTrip, hrun, hinj]
  rw [if_neg (by simp only [ticksUs]; omega)]
  rfl

/-- The command that the thread served ends with ST_FAULT. -/
theorem runLimitTrip_command {q : FlowRef} {d : Cmd} {l : List Cmd} (hrun : (coreAt s c).running = some t) (hdue : (coreAt s c).since + 25000 ≤ s.now)
    (hinj : injectionOf s 10 c = none) (hq : flowCmds s (flowKey q) = d :: l) (hd : d.started = true) :
    runLimitTrip c (some q) s = endCmd d.serial stFault d.result0 d.result1 (limitReached c t s) := by
  have hfront : flowCmds (limitReached c t s) (flowKey q) = d :: l := by rw [flowCmds, limitReached, limitNoted_flows, resetCore_flows, ← flowCmds, hq]
  rw [limitReached, limitNoted] at hfront
  simp only [runLimitTrip, hrun, hinj]
  rw [if_neg (by simp only [ticksUs]; omega)]
  simp only [Option.isSome_none, Bool.false_eq_true, if_false, hfront, hd, if_true]
  rfl

theorem exec_runLimit_running (hact : acting s = true) (hctl : clockLost s .ctl = false) (dt : Nat) (c : Core) (q : Option FlowRef) :
    exec (.runLimit dt c q) s = .next (runLimitTrip c.val q (advance dt s)) :=
  congrArg Host.Outcome.next ((actAfter_acting dt _ hact).trans (if_neg (Bool.eq_false_iff.mp hctl)))

end

/-- Settles O18, step by step: an event by the thread's state, a cycle by the one core that it finds at work, a yield by the core's slot, the run limit by the core's reset. -/
theorem harbourSchedulesThreads : Obligations.HarbourSchedulesThreads := by
  unfold Obligations.HarbourSchedulesThreads
  intro dt s hact hctl
  have hpost := exec_threadEvent_posts hact hctl dt
  have hacts := exec_threadEvent_acts hact hctl dt
  have hyield := exec_threadYield_running hact hctl dt
  refine ⟨fun t => ⟨fun h => ?blocked, fun c h => ?running, fun h => ?free, fun h => ?merged⟩,
    fun t p k => ⟨fun h => ?set, fun hfree hblocked => ?setOther, fun h => ?cancel, fun c h => ?cancelRunning, ?post, fun i at' period => hacts _, fun i => hacts _, fun n => hacts _⟩,
    fun i e he htime hdue => ?timeEvent,
    fun c t hnone hback hst hidle hslot hempty => ?starts, fun c t r hbest hback hst hrun hslot hothers => ?prefetches,
    fun c t hrun => ⟨fun hslot => ⟨?finish, ?block⟩, fun v hslot hv hst => ?next⟩, fun c t hrun hslot hdue hinj => ?runLimit⟩
  case blocked =>
    refine ⟨_, hpost t, ?_⟩
    rw [threadPost_blocked (s := advance dt s) h, threadAt_makeReady]
    exact ⟨rfl, rfl, rfl, rfl⟩
  case running => rw [hpost, threadPost_running (s := advance dt s) h]
  case free =>
    rw [hpost, threadPost_free (s := advance dt s) h]
    rfl
  case merged => rw [hpost, threadPost_merged (s := advance dt s) h]
  case set => rw [hacts, fwAct_set_stopped (s := advance dt s) h]
  case setOther => rw [hacts, fwAct_set_other (s := advance dt s) hfree hblocked]
  case cancel => rw [hacts, fwAct, threadCancel_blocked (s := advance dt s) h]
  case cancelRunning => rw [hacts, fwAct, threadCancel_running (s := advance dt s) h]
  case post => rw [hacts, hpost, fwAct]
  case timeEvent =>
    have hfire := timeEventFire_due (s := advance dt s) he (by rwa [advance_local htime]) htime
    rw [exec_timeEvent_running hact, hfire]
    exact ⟨fun hp => by rw [hp], fun p hp => by rw [hp]⟩
  case starts =>
    refine ⟨_, exec_prefetchFill_running hact hctl, ?_⟩
    rw [harbourCycle_starts c.isLt hnone hback hst hidle hslot hempty]
    simp only [cycleEnded_running, cycleEnded_slot, cycleEnded_threadAt, cycleEnded_dispatches, cycleEnded_clock, cycleEnded_chans, cycleEnded_flows, coreAt_slotStarted, threadAt_slotStarted]
    exact ⟨trivial, trivial, trivial, rfl, rfl, rfl, rfl⟩
  case prefetches =>
    refine ⟨_, exec_prefetchFill_running hact hctl, ?_⟩
    rw [harbourCycle_prefetches c.isLt hbest hback hst hrun hslot hothers]
    simp only [cycleEnded_running, cycleEnded_slot, cycleEnded_threadAt, cycleEnded_clock, cycleEnded_chans, cycleEnded_flows, coreAt_prefetch, threadAt_prefetch]
    exact ⟨trivial, hrun, trivial, rfl, rfl, rfl⟩
  case finish =>
    refine ⟨_, hyield c .finish, ?_⟩
    rw [threadYields_idle (s := advance dt s) hrun hslot]
    simp only [coreSettle_running, coreSettle_threadAt, coreSettle_chans, coreSettle_flows, coreAt_coreLeft]
    exact ⟨congrArg Thread.st threadAt_threadLeaves_finish, trivial, threadLeaves_chans, threadLeaves_flows⟩
  case block =>
    refine ⟨_, hyield c .block, ?_⟩
    rw [threadYields_idle (s := advance dt s) hrun hslot]
    simp only [coreSettle_running, coreSettle_threadAt, coreSettle_chans, coreSettle_flows, coreAt_coreLeft]
    exact ⟨trivial, threadLeaves_chans, threadLeaves_flows, threadLeaves_block_st⟩
  case next =>
    refine ⟨_, hyield c .finish, ?_⟩
    rw [threadYields_next (s := advance dt s) hrun hslot hst]
    simp only [coreSettle_running, coreSettle_slot, coreSettle_threadAt, coreSettle_dispatches, coreSettle_chans, coreSettle_flows, coreAt_slotStarted, threadAt_slotStarted,
      threadAt_slotStarted_ne (Ne.symm hv)]
    exact ⟨congrArg Thread.st threadAt_threadLeaves_finish, trivial, trivial, trivial, congrArg inc32 threadLeaves_dispatches, threadLeaves_chans, threadLeaves_flows⟩
  case runLimit =>
    have hrun' : (coreAt (advance dt s) c.val).running = some t := hrun
    refine ⟨limitReached c.val t (advance dt s), ?_, ?_⟩
    · rw [exec_runLimit_running hact hctl, runLimitTrip_due hrun' hdue hinj]
    · simp only [limitReached, threadAt_limitNoted, coreAt_limitNoted, arbAt_limitNoted, limitNoted_fault, limitNoted_runLimit, limitNoted_flows,
        threadAt_resetCore_freed (s := advance dt s) hslot, coreAt_resetCore, arbAt_resetCore, resetCore_fault, resetCore_runLimit, resetCore_flows]
      refine ⟨trivial, trivial, trivial, fun v hv => threadAt_resetCore_returned (s := advance dt s) hv, trivial, rfl, limitReached_staged .., arbAt_maskRequester .., rfl, fun q d l hq hd => ?_⟩
      rw [exec_runLimit_running hact hctl, runLimitTrip_command hrun' hdue hinj hq hd, limitReached]

end Sys2Proof.ControlCores

/-! PROOFS. Configuration of lanes, ports, flows, shapers and gate lists: what waits for the Tide boundary, and what it then sets (R298, R299, R302, R308, R309, R326, R327, R330, R331, R333, R340). -/

namespace Sys2Proof.LanesAndPorts

open Sys2Proof.Machine Sys2Proof.Laws Sys2Proof.HostAccess Sys2Proof.Architecture Sys2Proof.CommandProtocol Sys2Proof.MemorySystem

/-! Configuration commands at the front of their flow (Table 1.5). -/

section
variable {q : FlowRef} {b : Bus} {s : State} {c : Cmd} {code : Nat} {d : CmdIn → State → Bool} {r : CmdIn → State → CmdRes}

/-- A configuration command whose checks all pass waits for the boundary. -/
theorem startRow_pendTide (h : ready code q c s = true) (hd : d (cmdIn q c []) s = false) (hr : r (cmdIn q c []) s = pendTide (cmdIn q c []) s) :
    startRow code { deny := d, run := r } q b s = heldForTide code c [] s :=
  (startRow_settled (m := { deny := d, run := r }) h hd hr).trans (settleRes_pendTide h)

theorem startRow_refuse {o : Nat} (h : ready code q c s = true) (hd : d (cmdIn q c []) s = false) (hr : r (cmdIn q c []) s = refuse s o) :
    startRow code { deny := d, run := r } q b s = refuses c b o 0 0 s :=
  startRow_refused (m := { deny := d, run := r }) h hd hr

end

/-! LANE_CONFIG (R297, R298). -/

section
variable {s : State} {ci : CmdIn}

theorem runLaneConfig_admitted (hbad : laneCfgBad ci.p = false) (hquad : ∀ l ∈ laneRange ci.p, quadOneRate (setLanes ci.p (configAhead s)) (l / 4) = true)
    (hheld : ∀ l ∈ laneRange ci.p, l ∈ (configAhead s).net.ports.flatMap (fun e => portLanes (configAhead s) e.2.cfg) ++ flowLanes (configAhead s) ++ causewayLanes (configAhead s) →
      (laneAt (configAhead s) l).cfg.mode = fld ci.p 3 2 0) :
    runLaneConfig ci s = pendTide ci s := by
  unfold runLaneConfig
  dsimp only
  rw [if_neg, if_neg]
  · simp only [List.any_eq_true, Bool.and_eq_true, List.contains_iff_mem, bne_iff_ne, not_exists, not_and, not_not]
    exact hheld
  · simp only [hbad, Bool.false_or, List.any_eq_true, Bool.not_eq_true', not_exists, not_and, Bool.not_eq_false]
    exact hquad

theorem runLaneConfig_bad (hbad : laneCfgBad ci.p = true) : runLaneConfig ci s = refuse s stBadParam := if_pos (by rw [hbad, Bool.true_or])

end

/-! PORT_CONFIG (R299). -/

section
variable {s : State} {ci : CmdIn}

theorem runPortConfig_bad (h : (portCfgOf ci.p).speed = 7 ∨ ((portCfgOf ci.p).speed = 0 ∧ (portCfgOf ci.p).fec = true)) : runPortConfig ci s = refuse s stBadParam := if_pos h

theorem runPortConfig_disables (h0 : (portCfgOf ci.p).speed = 0) (hf : (portCfgOf ci.p).fec = false) : runPortConfig ci s = pendTide ci s :=
  (if_neg (by simp [h0, hf])).trans (if_pos h0)

/-- Lanes, frame length and FEC of a PORT_CONFIG fit its row of Table 11.4 (R299). -/
structure PortFits (x : PortCfg) (k rate : Nat) : Prop where
  aligned : x.firstLane % k = 0
  lanes : x.firstLane + k ≤ 96
  fec : x.fec = true → x.speed = 2 ∨ (x.speed = 4 ∧ rate = 1)
  least : 1518 ≤ x.maxFrame
  most : x.maxFrame ≤ 9216

/-- What is bound to the port lets it take the configuration x (R299, R309). -/
def PortFree (a : State) (n : Nat) (x : PortCfg) : Prop :=
  (portAt a n).cfg = x ∨ (boundCopies a n = [] ∧ boundInputs a n = []) ∨
    ((portAt a n).cfg.speed = 0 ∧ ∀ e ∈ boundCopies a n, ∀ w, flowOutAt a e.1 = some w → flowFrame a w.cfg + 4 ≤ x.maxFrame)

theorem PortFree.unbound {a : State} {n : Nat} {x : PortCfg} (h : PortFree a n x) :
    ¬ ((portAt a n).cfg.speed ≠ 0 ∧ (portAt a n).cfg ≠ x ∧ (!((boundCopies a n).isEmpty && (boundInputs a n).isEmpty)) = true) := by
  rintro ⟨hs, hne, hb⟩
  obtain h | ⟨h1, h2⟩ | ⟨h, -⟩ := h
  · exact hne h
  · simp [h1, h2] at hb
  · exact hs h

theorem PortFree.framed {a : State} {n : Nat} {x : PortCfg} (h : PortFree a n x) (hx : x.speed ≠ 0) :
    ¬ ((portAt a n).cfg.speed = 0 ∧ ((boundCopies a n).any (fun e => (flowOutAt a e.1).elim false (fun w => decide (x.maxFrame < flowFrame a w.cfg + 4)))) = true) := by
  rintro ⟨hs, hb⟩
  obtain ⟨e, he, hlong⟩ := List.any_eq_true.mp hb
  obtain rfl | ⟨h, -⟩ | ⟨-, h⟩ := h
  · exact hx hs
  · simp [h] at he
  · cases hw : flowOutAt a e.1 with
    | none => simp [hw] at hlong
    | some w =>
      have := h e he w hw
      simp [hw] at hlong
      omega

theorem runPortConfig_admitted {k rate : Nat} (h1 : 1 ≤ (portCfgOf ci.p).speed) (h6 : (portCfgOf ci.p).speed ≤ 6)
    (hrow : portRow (configAhead s) (portCfgOf ci.p).speed (portCfgOf ci.p).firstLane = (k, rate)) (hfit : PortFits (portCfgOf ci.p) k rate)
    (hlanes : ∀ i, i < k → (laneAt (configAhead s) ((portCfgOf ci.p).firstLane + i)).cfg.mode = 1 ∧ (laneAt (configAhead s) ((portCfgOf ci.p).firstLane + i)).cfg.rate = rate ∧
      (portCfgOf ci.p).firstLane + i ∉ otherPortLanes (configAhead s) (fld ci.p 2 3 0))
    (hfree : PortFree (configAhead s) (fld ci.p 2 3 0) (portCfgOf ci.p)) (hspeed : totalSpeed (setPortCfg ci.p (configAhead s)) ≤ 3200000) :
    runPortConfig ci s = pendTide ci s := by
  obtain ⟨haligned, hlast, hfec, hleast, hmost⟩ := hfit
  unfold runPortConfig
  dsimp only
  rw [if_neg (by omega), if_neg (by omega), hrow]
  dsimp only
  rw [if_neg, if_neg, if_neg hfree.unbound, if_neg (hfree.framed (by omega)), if_neg (Nat.not_lt.mpr hspeed)]
  · simp only [List.any_map, List.any_eq_true, List.mem_range, Function.comp_apply, Bool.or_eq_true, bne_iff_ne, List.contains_iff_mem, not_exists, not_and, not_or, not_not]
    exact fun i hi => ⟨⟨(hlanes i hi).1, (hlanes i hi).2.1⟩, (hlanes i hi).2.2⟩
  · rintro (h | h | ⟨hf, h⟩ | h | h)
    · exact h haligned
    · omega
    · obtain h2 | ⟨h4, hr⟩ := hfec hf
      · simp [h2] at h
      · simp [h4, hr] at h
    · omega
    · omega

end

/-! FLOW_IN_ADD, FLOW_OUT_ADD and FLOW_REMOVE (R302, R308, R309, R313, R326, R333, R337). -/

section
variable {s : State} {ci : CmdIn}

theorem runFlowInAdd_bad (h : flowInBad (configAhead s) ci.p = true) : runFlowInAdd ci s = refuse s stBadParam := if_pos h

theorem runFlowInAdd_disabled (h : flowInBad (configAhead s) ci.p = false) {n : Nat} (hn : n ∈ inPorts (flowInCfgOf ci.p)) (h0 : (portAt (configAhead s) n).cfg.speed = 0) :
    runFlowInAdd ci s = refuse s stBadState :=
  (if_neg (ne_true_of_eq_false h)).trans (if_pos (by simpa only [List.any_eq_true, beq_iff_eq] using ⟨n, hn, h0⟩))

theorem runFlowInAdd_admitted (h : flowInBad (configAhead s) ci.p = false) (hports : ∀ n ∈ inPorts (flowInCfgOf ci.p), (portAt (configAhead s) n).cfg.speed ≠ 0)
    (hpaths : (configAhead s).net.flowsIn.find? (fun e => (inPaths e.2.cfg).any (fun x => (inPaths (flowInCfgOf ci.p)).contains x)) = none)
    (hfree : ((configAhead s).net.flowsIn.lowestFree 1024).isSome = true) : runFlowInAdd ci s = pendTide ci s := by
  obtain ⟨n, hn⟩ := Option.isSome_iff_exists.mp hfree
  unfold runFlowInAdd
  dsimp only
  rw [if_neg (ne_true_of_eq_false h), if_neg, hpaths, hn]
  simpa using hports

theorem runFlowOutAdd_bad (h : flowOutBad (configAhead s) (flowOutCfgOf ci.p) = true) : runFlowOutAdd ci s = refuse s stBadParam := if_pos h

/-- Sources, lanes, buckets, staging and memory that an output flow needs are there (R309, R313, R326, R333, R337, R520). -/
structure FlowFits (s a : State) (x : FlowOutCfg) : Prop where
  gates : ∀ n ∈ outPorts x, ∀ g ∈ gateLists (portAt a n), closedIn g x.queue = false
  sdi : x.kind = 6 → ∀ l ∈ sdiLanes a x, (laneAt a l).cfg.mode = 3 ∧ l ∉ flowLanes a
  buses : x.kind = 4 → ∀ i, i < x.audio.1 → (busAt s (x.srcIndex + i)).owner ≠ none
  number : (a.net.flowsOut.lowestFree 2048).isSome = true
  buckets : bucketsUsed a + (outPorts x).length ≤ 2048
  staging : stagingUsed a + stagingOf a x ≤ 16777216
  load : flowLoad a x = 0 ∨ sumRat qdrLoad (poolWith s none none) + otherQdr s + flowLoad a x ≤ qdrCeiling s

theorem runFlowOutAdd_admitted (h : flowOutBad (configAhead s) (flowOutCfgOf ci.p) = false) (hfit : FlowFits s (configAhead s) (flowOutCfgOf ci.p)) :
    runFlowOutAdd ci s = pendTide ci s := by
  obtain ⟨hgates, hsdi, hbuses, hnumber, hbuckets, hstaging, hload⟩ := hfit
  unfold runFlowOutAdd
  dsimp only
  rw [if_neg (ne_true_of_eq_false h), if_neg, if_neg, if_neg, if_neg, if_neg]
  · rintro ⟨hne, hlt⟩
    exact hload.elim hne fun hle => not_lt.mpr hle hlt
  · rintro (hn | hb | hs)
    · exact Option.isSome_iff_ne_none.mp hnumber (Option.isNone_iff_eq_none.mp hn)
    · omega
    · omega
  · rintro ⟨hk, ho⟩
    obtain ⟨i, hi, hnone⟩ := List.any_eq_true.mp ho
    exact hbuses hk i (List.mem_range.mp hi) (Option.isNone_iff_eq_none.mp hnone)
  · rintro ⟨hk, hl⟩
    obtain ⟨l, hl, hused⟩ := List.any_eq_true.mp hl
    obtain ⟨hmode, hfree⟩ := hsdi hk l hl
    simp [hmode, hfree] at hused
  · simp only [List.any_eq_true, not_exists, not_and, Bool.not_eq_true]
    exact hgates

variable {x : FlowOut} {y : FlowIn}

theorem runFlowRemove_output (hf : flag ci.p 2 16 = true) (hx : flowOutAt s (fld ci.p 2 10 0) = some x) (hr : x.removed = false) : runFlowRemove ci s = pendTide ci s := by
  simp [runFlowRemove, hf, hx, hr]

theorem runFlowRemove_input (hf : flag ci.p 2 16 = false) (hy : flowInAt s (fld ci.p 2 10 0) = some y) :
    runFlowRemove ci s = if flowInUsed s (fld ci.p 2 10 0) then refuse s stBadState else pendTide ci s := by
  simp [runFlowRemove, hf, hy]

theorem runFlowRemove_none (h : (if flag ci.p 2 16 then (flowOutAt s (fld ci.p 2 10 0)).isNone else (flowInAt s (fld ci.p 2 10 0)).isNone) = true) :
    runFlowRemove ci s = refuse s stBadParam := by
  unfold runFlowRemove
  dsimp only
  split at h
  · rw [if_pos ‹_›, Option.isNone_iff_eq_none.mp h]
  · rw [if_neg ‹_›, Option.isNone_iff_eq_none.mp h]

/-- FLOW_REMOVE is denied to a function that does not own the flow, and to no other (R72). -/
theorem denyFlowRemove_none (h : (if flag ci.p 2 16 then (flowOutAt s (fld ci.p 2 10 0)).isNone else (flowInAt s (fld ci.p 2 10 0)).isNone) = true) :
    meanFlowRemove.deny ci s = false := by
  unfold meanFlowRemove
  dsimp only
  split at h
  · rw [if_pos ‹_›, Option.isNone_iff_eq_none.mp h, Option.elim_none]
  · rw [if_neg ‹_›, Option.isNone_iff_eq_none.mp h, Option.elim_none]

theorem denyFlowRemove_output (hf : flag ci.p 2 16 = true) (hx : flowOutAt s (fld ci.p 2 10 0) = some x) (ho : x.owner.val = ci.f) : meanFlowRemove.deny ci s = false := by
  simp [meanFlowRemove, hf, hx, ho]

theorem denyFlowRemove_input (hf : flag ci.p 2 16 = false) (hy : flowInAt s (fld ci.p 2 10 0) = some y) (ho : y.owner.val = ci.f) : meanFlowRemove.deny ci s = false := by
  simp [meanFlowRemove, hf, hy, ho]

end

/-! SHAPER_SET and GATE_SCHEDULE (R327, R330, R333). -/

section
variable {s : State} {ci : CmdIn} {x : FlowOut}

/-- Rate and burst of a shaper are in range for the frames of the flow's ports (R327, Table 12.1). -/
structure ShaperInRange (s : State) (p : Packet) (x : FlowOut) : Prop where
  present : x.removed = false
  word5 : word p 5 = 0
  word6 : word p 6 = 0
  rate : word p 3 = 0 ∨ (1000 ≤ word p 3 ∧ word p 3 ≤ 400000000)
  burst : word p 4 ≤ 4194304
  frames : ∀ m ∈ outPorts x.cfg, (portAt s m).cfg.maxFrame + (portAt s m).overhead ≤ word p 4

theorem runShaperSet_flow (h0 : fld ci.p 2 1 0 = 0) (hx : flowOutAt s (fld ci.p 2 26 16) = some x) (h : ShaperInRange s ci.p x) : runShaperSet ci s = pendTide ci s := by
  obtain ⟨hr, h5, h6, hrate, hburst, hframes⟩ := h
  unfold runShaperSet
  dsimp only
  rw [if_pos h0, hx]
  refine if_neg ?_
  rintro (h | h | h | h | h | h)
  · exact Bool.false_ne_true (hr.symm.trans h)
  · exact h h5
  · exact h h6
  · omega
  · omega
  · obtain ⟨m, hm, hlt⟩ := List.any_eq_true.mp h
    exact Nat.not_lt.mpr (hframes m hm) (of_decide_eq_true hlt)

theorem runShaperSet_port (h1 : fld ci.p 2 1 0 = 1) (hn : fld ci.p 2 26 16 ≤ 15) (h3 : fld ci.p 3 31 6 = 0)
    (hq : ∀ v ∈ [fld ci.p 4 15 0, fld ci.p 4 31 16, fld ci.p 5 15 0, fld ci.p 5 31 16, fld ci.p 6 15 0], v = 0 ∨ 1536 ≤ v) : runShaperSet ci s = pendTide ci s := by
  unfold runShaperSet
  dsimp only
  rw [if_neg (by omega), if_pos h1, if_neg]
  rintro (h | h | h)
  · omega
  · exact h h3
  · obtain ⟨v, hv, hlow⟩ := List.any_eq_true.mp h
    obtain h0 | h1536 := hq v hv
    · simp [h0] at hlow
    · exact Nat.not_lt.mpr h1536 (of_decide_eq_true (Bool.and_eq_true_iff.mp hlow).2)

theorem runShaperSet_unknown (h : 2 ≤ fld ci.p 2 1 0) : runShaperSet ci s = refuse s stBadParam := by
  unfold runShaperSet
  dsimp only
  rw [if_neg (by omega), if_neg (by omega)]

theorem runGateSchedule_off (hf : flag ci.p 5 8 = false) (hi : indirectOf ci.p = false) (hc : fld ci.p 5 24 16 = 0) : runGateSchedule ci s = pendTide ci s := by
  simp [runGateSchedule, hf, hi, hc]

theorem runGateSchedule_noBlock (hf : flag ci.p 5 8 = true) (hi : indirectOf ci.p = false) : runGateSchedule ci s = refuse s stBadParam := by
  simp [runGateSchedule, hf, hi]

/-- The gate list g of a GATE_SCHEDULE is in range (Table 12.3). -/
structure GatesInRange (p : Packet) (bs : List Byte) (g : GateList) : Prop where
  block : indirectOf p = true
  least : 1 ≤ fld p 5 24 16
  most : fld p 5 24 16 ≤ 256
  length : word p 4 = 8 * fld p 5 24 16
  base : word p 8 < 1000000000
  shortest : 1000 ≤ g.cycle
  longest : g.cycle ≤ 1000000000
  intervals : ∀ e ∈ g.entries, 100 ≤ e.2 ∧ e.2 ≤ 1000000000
  reserved : ∀ i, i < fld p 5 24 16 → ofLe (slice bs (8 * i + 1) 3) = 0
  whole : sumBy (fun e => e.2) g.entries = g.cycle

theorem runGateSchedule_list (hf : flag ci.p 5 8 = true) (h : GatesInRange ci.p ci.block (gateListOf ci.p ci.block))
    (hwindow : (portAt (configAhead s) (fld ci.p 5 3 0)).cfg.speed = 0 ∨ windowTooShort (configAhead s) (fld ci.p 5 3 0) (gateListOf ci.p ci.block) = false)
    (hopen : ∀ e ∈ boundCopies (configAhead s) (fld ci.p 5 3 0), ∀ x, flowOutAt (configAhead s) e.1 = some x → closedIn (gateListOf ci.p ci.block) x.cfg.queue = false) :
    runGateSchedule ci s = pendTide ci s := by
  obtain ⟨hi, h1, h256, hlen, hbase, hshort, hlong, hint, hres, hsum⟩ := h
  unfold runGateSchedule
  dsimp only
  rw [if_pos hf, if_neg, if_neg]
  · simp only [List.any_eq_true, not_exists, not_and]
    intro e he hclosed
    cases hx : flowOutAt (configAhead s) e.1 with
    | none => simp [hx] at hclosed
    | some x => simp [hx, hopen e he x hx] at hclosed
  · simp only [Bool.or_eq_true, Bool.not_eq_true', beq_iff_eq, decide_eq_true_eq, bne_iff_ne, List.any_eq_true, List.mem_range, Bool.and_eq_true]
    rintro ((((((((((h | h) | h) | h) | h) | h) | h) | ⟨e, he, h⟩) | ⟨i, hi, h⟩) | h) | ⟨hs, hw⟩)
    · exact Bool.false_ne_true (h.symm.trans hi)
    · omega
    · omega
    · exact h hlen
    · omega
    · omega
    · omega
    · have := hint e he; omega
    · exact h (hres i hi)
    · exact h hsum
    · exact hwindow.elim hs fun h => Bool.false_ne_true (h.symm.trans hw)

theorem gateListApply_due {n : Nat} {g : Option GateList} {t : Instant} (hg : (portAt s n).nextGates = some (g, t)) (ht : t ≤ s.time.local') :
    gateListApply n s = modPort s n (fun x => { x with gates := g, nextGates := none }) := by
  unfold gateListApply
  rw [hg]
  exact if_pos ht

theorem gateListApply_early {n : Nat} (h : ∀ g t, (portAt s n).nextGates = some (g, t) → s.time.local' < t) : gateListApply n s = s := by
  unfold gateListApply
  split
  · next g t hg => exact if_neg (Nat.not_le.mpr (h g t hg))
  · rfl

end

/-! What the boundary applies (R27). -/

section
variable {s : State} {l : Nat} {g : LaneSt → LaneSt} {P : LaneSt → Prop}

/-- One change made to several lanes: what it keeps of every lane, each of them keeps. -/
theorem laneAt_foldl_modLane_keeps (hg : ∀ x, P x → P (g x)) (ls : List Nat) (h : P (laneAt s l)) : P (laneAt (ls.foldl (fun s l => modLane s l g) s) l) := by
  induction ls generalizing s with
  | nil => exact h
  | cons j ls ih =>
    refine ih ?_
    by_cases hj : j = l
    · subst hj; rw [laneAt_modLane]; exact hg _ h
    · rw [laneAt_modLane_ne hj]; exact h

theorem laneAt_foldl_modLane_reaches (hg : ∀ x, P (g x)) {ls : List Nat} (hl : l ∈ ls) : P (laneAt (ls.foldl (fun s l => modLane s l g) s) l) := by
  induction ls generalizing s with
  | nil => simp at hl
  | cons j ls ih =>
    by_cases hj : j = l
    · subst hj
      exact laneAt_foldl_modLane_keeps (fun x _ => hg x) ls (by rw [laneAt_modLane]; exact hg _)
    · exact ih ((List.mem_cons.mp hl).resolve_left (Ne.symm hj))

theorem laneAt_foldl_modLane_other {ls : List Nat} (hl : l ∉ ls) : laneAt (ls.foldl (fun s l => modLane s l g) s) l = laneAt s l := by
  induction ls generalizing s with
  | nil => rfl
  | cons j ls ih =>
    rw [List.mem_cons, not_or] at hl
    exact (ih hl.2).trans (laneAt_modLane_ne (Ne.symm hl.1))

theorem laneSetUp_cfg (c : LaneCfg) (x : LaneSt) : (laneSetUp c x).cfg = c := by
  unfold laneSetUp
  split
  · assumption
  · split <;> rfl

theorem setLanes_named {p : Packet} (h : l ∈ laneRange p) : (laneAt (setLanes p s) l).cfg = laneCfgOf p := by
  refine laneAt_foldl_modLane_keeps (P := fun x => x.cfg = laneCfgOf p) (fun x hx => ?_) _ (laneAt_foldl_modLane_reaches (P := fun x => x.cfg = laneCfgOf p) (laneSetUp_cfg _) h)
  rw [hx]

theorem setLanes_other {p : Packet} (h : l ∉ laneRange p) :
    (laneAt (setLanes p s) l).cfg.mode = (laneAt s l).cfg.mode ∧ (laneAt (setLanes p s) l).cfg.rate = (laneAt s l).cfg.rate := by
  refine laneAt_foldl_modLane_keeps (P := fun x => x.cfg.mode = (laneAt s l).cfg.mode ∧ x.cfg.rate = (laneAt s l).cfg.rate) (fun x hx => ?_) _ ?_
  · exact hx
  · rw [laneAt_foldl_modLane_other h]
    exact ⟨rfl, rfl⟩

end

section
variable {s : State} {p : Packet} {n : Nat} {fn : Fn}

theorem setPortCfg_port : ((portCfgOf p).speed ≠ 0 → (portAt (setPortCfg p s) (fld p 2 3 0)).cfg = portCfgOf p) ∧
    ((portCfgOf p).speed = 0 → (portAt (setPortCfg p s) (fld p 2 3 0)).cfg.speed = 0) := by
  unfold setPortCfg
  dsimp only
  refine ⟨fun h => ?_, fun h => ?_⟩
  · rw [if_neg h]
    split
    · assumption
    · rw [portAt_modPort]; split <;> rfl
  · rw [if_pos h, portAt_modPort]

theorem setPortCfg_other {j : Nat} (h : j ≠ fld p 2 3 0) : portAt (setPortCfg p s) j = portAt s j := by
  unfold setPortCfg
  dsimp only
  split
  · exact portAt_modPort_ne h.symm
  · split
    · rfl
    · exact portAt_modPort_ne h.symm

theorem addFlowIn_free (h : s.net.flowsIn.lowestFree 1024 = some n) :
    addFlowIn fn p s = ({ s with net.flowsIn := s.net.flowsIn.set n { owner := fn, cfg := flowInCfgOf p } }, n) := by
  unfold addFlowIn
  rw [h]

/-- An output flow as FLOW_OUT_ADD makes it (R309, R326, R337). -/
def newFlowOut (fn : Fn) (p : Packet) (s : State) : FlowOut :=
  { owner := fn, cfg := flowOutCfgOf p, copyA := { nextSeq := (flowOutCfgOf p).firstSeq }, copyB := { nextSeq := (flowOutCfgOf p).firstSeq },
    staging := stagingOf s (flowOutCfgOf p), load := flowLoad s (flowOutCfgOf p) }

theorem addFlowOut_free (h : s.net.flowsOut.lowestFree 2048 = some n) : addFlowOut fn p s = ({ s with net.flowsOut := s.net.flowsOut.set n (newFlowOut fn p s) }, n) := by
  unfold addFlowOut
  rw [h]
  rfl

theorem applyShaper_flow (h0 : fld p 2 1 0 = 0) {x : FlowOut} (hx : flowOutAt s (fld p 2 26 16) = some x) :
    flowOutAt (applyShaper p s) (fld p 2 26 16) = some { x with
      copyA.bucket := { rate := word p 3, burst := word p 4, credit := min (creditNow s x.copyA.bucket) (word p 4 * 4000000), asOf := s.now }
      copyB.bucket := { rate := word p 3, burst := word p 4, credit := min (creditNow s x.copyB.bucket) (word p 4 * 4000000), asOf := s.now } } := by
  unfold applyShaper
  dsimp only
  rw [if_pos h0]
  exact (fmap_get?_modify_self ..).trans (congrArg (Option.map _) hx)

theorem applyGate_off (bs : List Byte) (h : flag p 5 8 = false) : applyGate p bs s = (modPort s (fld p 5 3 0) (fun x => { x with gates := none, nextGates := none }), 0, 0) :=
  if_neg (ne_true_of_eq_false h)

theorem applyGate_list (bs : List Byte) (h : flag p 5 8 = true) :
    (applyGate p bs s).1 = modPort s (fld p 5 3 0) (fun x => { x with nextGates := some (some (gateListOf p bs), gateStart (gateListOf p bs) s.time.local') }) :=
  congrArg Prod.fst (if_pos h)

end

/-- Settles O28: each command by its checks, each change by what it sets. -/
theorem networkConfigurationWaitsForTheTide : Obligations.NetworkConfigurationWaitsForTheTide := by
  unfold Obligations.NetworkConfigurationWaitsForTheTide
  refine ⟨?lane, ?laneBad, ?portBad, ?portOff, ?port, ?flowIn, ?flowInBad, ?flowOut, ?flowOutBad, ?remove, ?shaper, ?gateOff, ?gate, ?gateBad, ?gateApply,
    fun p s l => ⟨setLanes_named, setLanes_other⟩, fun p s j => ⟨setPortCfg_port.1, setPortCfg_port.2, setPortCfg_other⟩, ?addIn, ?addOut, ?shape,
    fun p bs s => ⟨fun h => by rw [applyGate_off bs h]; exact ⟨rfl, rfl⟩, applyGate_list bs⟩⟩
  case lane => exact fun q b s c h hbad hquad hheld => congrArg Host.Outcome.next (startRow_pendTide h rfl (runLaneConfig_admitted hbad hquad hheld))
  case laneBad => exact fun q b s c h hbad => congrArg Host.Outcome.next (startRow_refuse h rfl (runLaneConfig_bad hbad))
  case portBad => exact fun q b s c h hbad => congrArg Host.Outcome.next (startRow_refuse h rfl (runPortConfig_bad hbad))
  case portOff => exact fun q b s c h h0 hf => congrArg Host.Outcome.next (startRow_pendTide h rfl (runPortConfig_disables h0 hf))
  case port =>
    rintro q b s c a k rate x h rfl rfl h1 h6 hrow haligned hlast hfec hleast hmost hlanes hfree hspeed
    exact congrArg Host.Outcome.next (startRow_pendTide h rfl (runPortConfig_admitted h1 h6 hrow ⟨haligned, hlast, hfec, hleast, hmost⟩ hlanes hfree hspeed))
  case flowIn => exact fun q b s c h hok hports hpaths hfree => congrArg Host.Outcome.next (startRow_pendTide h rfl (runFlowInAdd_admitted hok hports hpaths hfree))
  case flowInBad =>
    refine fun q b s c h => ⟨fun hbad => congrArg Host.Outcome.next (startRow_refuse h rfl (runFlowInAdd_bad hbad)), ?_⟩
    rintro hok ⟨n, hn, h0⟩
    exact congrArg Host.Outcome.next (startRow_refuse h rfl (runFlowInAdd_disabled hok hn h0))
  case flowOut =>
    rintro q b s c x a h rfl rfl hd hok hgates hsdi hbuses hnumber hbuckets hstaging hload
    exact congrArg Host.Outcome.next (startRow_pendTide h hd (runFlowOutAdd_admitted hok ⟨hgates, hsdi, hbuses, hnumber, hbuckets, hstaging, hload⟩))
  case flowOutBad => exact fun q b s c h hd hbad => congrArg Host.Outcome.next (startRow_refuse h hd (runFlowOutAdd_bad hbad))
  case remove =>
    intro q b s c h
    refine ⟨fun x hf hx ho hr => congrArg Host.Outcome.next ?_, fun x hf hx ho hu => congrArg Host.Outcome.next ?_, fun x hf hx ho hu => congrArg Host.Outcome.next ?_, fun hn => congrArg Host.Outcome.next ?_⟩
    · exact startRow_pendTide h (denyFlowRemove_output (ci := cmdIn q c []) hf hx ho) (runFlowRemove_output (ci := cmdIn q c []) hf hx hr)
    · exact startRow_pendTide h (denyFlowRemove_input (ci := cmdIn q c []) hf hx ho) ((runFlowRemove_input (ci := cmdIn q c []) hf hx).trans (if_neg (ne_true_of_eq_false hu)))
    · exact startRow_refuse h (denyFlowRemove_input (ci := cmdIn q c []) hf hx ho) ((runFlowRemove_input (ci := cmdIn q c []) hf hx).trans (if_pos hu))
    · exact startRow_refuse h (denyFlowRemove_none (ci := cmdIn q c []) hn) (runFlowRemove_none (ci := cmdIn q c []) hn)
  case shaper =>
    intro q b s c h
    refine ⟨fun x h0 hx ho hr h5 h6 hrate hburst hframes => congrArg Host.Outcome.next ?_, fun h1 hfn hn h3 hq => congrArg Host.Outcome.next ?_, fun h2 => congrArg Host.Outcome.next ?_⟩
    · exact startRow_pendTide h (by simp [cmdIn, h0, hx, ho]) (runShaperSet_flow (ci := cmdIn q c []) h0 hx ⟨hr, h5, h6, hrate, hburst, hframes⟩)
    · exact startRow_pendTide h (by simp [cmdIn, h1, hfn]) (runShaperSet_port (ci := cmdIn q c []) h1 hn h3 hq)
    · have hne : fld c.packet 2 1 0 ≠ 1 := by omega
      exact startRow_refuse h (by simp [cmdIn, show fld c.packet 2 1 0 ≠ 0 by omega, hne]) (runShaperSet_unknown (ci := cmdIn q c []) h2)
  case gateOff => exact fun q b s c h hf hi hc => congrArg Host.Outcome.next (startRow_pendTide h rfl (runGateSchedule_off hf hi hc))
  case gate =>
    rintro q b s c bs g h hf rfl h1 h256 hlen hbase hshort hlong hint hres hsum hwindow hopen
    obtain ⟨hfront, hi, -⟩ := readyBlock_cases h
    obtain ⟨-, -, -, -, -, -, -, hop, -⟩ := atFront_cases hfront
    refine congrArg Host.Outcome.next ((startRow_settledBlock (m := meanGateSchedule) h rfl
      (runGateSchedule_list (ci := cmdIn q c bs) hf ⟨hi, h1, h256, hlen, hbase, hshort, hlong, hint, hres, hsum⟩ hwindow hopen)).trans ?_)
    rw [heldForTide, ← hop]
    rfl
  case gateBad => exact fun q b s c h hf hi => congrArg Host.Outcome.next (startRow_refuse h rfl (runGateSchedule_noBlock hf hi))
  case gateApply =>
    refine fun dt n s ha => ⟨fun g t hg ht => congrArg Host.Outcome.next ((actAfter_acting dt _ ha).trans ?_), fun h => congrArg Host.Outcome.next ((actAfter_acting dt _ ha).trans ?_)⟩
    · exact gateListApply_due hg ht
    · exact gateListApply_early h
  case addIn =>
    intro fn p s n h
    rw [addFlowIn_free h]
    exact ⟨fmap_get?_set_self .., rfl, fun j hj => fmap_get?_set_ne hj.symm, rfl, rfl⟩
  case addOut =>
    intro fn p s n h
    rw [addFlowOut_free h]
    exact ⟨⟨newFlowOut fn p s, fmap_get?_set_self .., rfl, rfl, rfl⟩, rfl, fun j hj => fmap_get?_set_ne hj.symm, rfl⟩
  case shape => exact fun p s x h0 hx => ⟨_, applyShaper_flow h0 hx, rfl, rfl, rfl, rfl, rfl⟩

end Sys2Proof.LanesAndPorts

/-! PROOFS. The merge of the two paths of an input flow, where a number is listed twice (R303). -/

namespace Sys2Proof.LanesAndPorts

open Sys2Proof.Machine

/-- A dual flow that lists the number 2^32 twice: as received on path B, then as received on path A. -/
def twiceSeen : FlowIn where
  owner := 0
  cfg := { kind := 0, dual := true, portA := 0, portB := 1, destA := 0, destB := 0, udpA := 0, udpB := 0, srcA := 0, srcB := 0, rateIn := 0, window := 1, width := 0, height := 0,
           rateNum := 1, rateDen := 1, sampling := 0, depth10 := false, colour := 0 }
  seen := [{ seq := 2 ^ 32, stamp := 0, pathB := true }, { seq := 2 ^ 32, stamp := 0, pathB := false }]

theorem extendSeq_settle_twiceSeen : extendSeq (settleSeq 0 twiceSeen).newest 0 false = 2 ^ 32 := by decide

theorem seen_settle_twiceSeen : (settleSeq 0 twiceSeen).seen = twiceSeen.seen := by decide

/-- Packet 0 of path B finds the first entry, of its own path, so the entry of path A stays without its mark. -/
theorem seen_merge_twiceSeen : (mergePacket true 0 false 0 twiceSeen).2.seen = twiceSeen.seen := by decide

/-- Refutes O43: its clause on a number that is there marks every entry of the other path, and `twiceSeen` lists the number twice, first of the packet's own path; the merge looks at the first only. -/
theorem not_framesAndLinesAreReceived : ¬ Obligations.FramesAndLinesAreReceived := by
  unfold Obligations.FramesAndLinesAreReceived
  rintro ⟨-, -, merge, -⟩
  obtain ⟨-, known, -⟩ := merge true 0 false 0 twiceSeen (2 ^ 32) extendSeq_settle_twiceSeen.symm
  rw [seen_settle_twiceSeen, seen_merge_twiceSeen] at known
  obtain ⟨-, -, -, -, marked⟩ := known ⟨_, List.mem_cons_self, rfl⟩
  exact absurd (marked _ (List.mem_cons_of_mem _ List.mem_cons_self) rfl (by decide)) (by decide)

end Sys2Proof.LanesAndPorts

/-! PROOFS. Egress: groups released, held and discarded at their instant, and the frames that the MAC starts (R309, R322 to R326, R332, R335 to R339, R354). -/

namespace Sys2Proof.EgressFrames

open Sys2Proof.Machine Sys2Proof.Laws Sys2Proof.HostAccess Sys2Proof.Architecture

/-! What the partner's messages and the events leave as it is. -/

/-- What egress reads and changes: clocks, channels, outputs, memory and the network but for the transmit side of the Causeway. -/
def beyondPartner (s : State) : Nat × TimeUnit × Power × FMap Chan × FMap Output × Mem × Net :=
  (s.now, s.time, s.power, s.chans, s.outs, s.mem, { s.net with cw := {} })

section
variable {s t : State}

theorem now_of_beyondPartner (h : beyondPartner t = beyondPartner s) : t.now = s.now := congrArg Prod.fst h
theorem time_of_beyondPartner (h : beyondPartner t = beyondPartner s) : t.time = s.time := congrArg (fun v => v.2.1) h
theorem power_of_beyondPartner (h : beyondPartner t = beyondPartner s) : t.power = s.power := congrArg (fun v => v.2.2.1) h
theorem chans_of_beyondPartner (h : beyondPartner t = beyondPartner s) : t.chans = s.chans := congrArg (fun v => v.2.2.2.1) h
theorem outs_of_beyondPartner (h : beyondPartner t = beyondPartner s) : t.outs = s.outs := congrArg (fun v => v.2.2.2.2.1) h
theorem mem_of_beyondPartner (h : beyondPartner t = beyondPartner s) : t.mem = s.mem := congrArg (fun v => v.2.2.2.2.2.1) h
theorem flowsOut_of_beyondPartner (h : beyondPartner t = beyondPartner s) : t.net.flowsOut = s.net.flowsOut := congrArg (fun v => v.2.2.2.2.2.2.flowsOut) h
theorem ports_of_beyondPartner (h : beyondPartner t = beyondPartner s) : t.net.ports = s.net.ports := congrArg (fun v => v.2.2.2.2.2.2.ports) h

theorem beyondPartner_ends (h : Ends s t) : beyondPartner t = beyondPartner s := (congrArg beyondPartner h.rest :)

theorem beyondPartner_cwSend (type : Nat) (p : List Byte) (s : State) : beyondPartner (cwSend type p s) = beyondPartner s := by
  unfold cwSend cwEmit
  split
  · dsimp only
    split <;> rfl
  · rfl

theorem beyondPartner_reportGroup (w : Nat) (b : Bool) (n : Nat) (s : State) : beyondPartner (reportGroup w b n s) = beyondPartner s := by
  unfold reportGroup
  split
  · exact beyondPartner_cwSend ..
  · rfl

theorem beyondPartner_faultYield (s : State) : beyondPartner (faultYield s) = beyondPartner s := by
  unfold faultYield pairYield
  split
  · split
    · exact beyondPartner_cwSend ..
    · rfl
  · rfl

theorem beyondPartner_setPairState (st : PairState) (s : State) : beyondPartner (setPairState st s) = beyondPartner s := by
  unfold setPairState
  split
  · rfl
  · exact (beyondPartner_ends (postEvent_ends ..)).trans rfl

theorem beyondPartner_diverge (s : State) : beyondPartner (diverge s) = beyondPartner s := by
  unfold diverge
  split
  · exact (beyondPartner_setPairState ..).trans rfl
  · rfl

end

/-! One copy of a flow. -/

/-- A flow with one of its copies changed. -/
def setCopy (b : Bool) (g : FlowCopy → FlowCopy) (x : FlowOut) : FlowOut := if b then { x with copyB := g x.copyB } else { x with copyA := g x.copyA }

section
variable {b : Bool} {g : FlowCopy → FlowCopy} {x : FlowOut} {s : State} {w u : Nat}

@[simp] theorem copyAt_setCopy (b : Bool) (g : FlowCopy → FlowCopy) (x : FlowOut) : copyAt (setCopy b g x) b = g (copyAt x b) := by cases b <;> rfl
@[simp] theorem copyAt_setCopy_other (b : Bool) (g : FlowCopy → FlowCopy) (x : FlowOut) : copyAt (setCopy b g x) (!b) = copyAt x (!b) := by cases b <;> rfl
@[simp] theorem setCopy_cfg (b : Bool) (g : FlowCopy → FlowCopy) (x : FlowOut) : (setCopy b g x).cfg = x.cfg := by cases b <;> rfl
@[simp] theorem setCopy_disableDrops (b : Bool) (g : FlowCopy → FlowCopy) (x : FlowOut) : (setCopy b g x).disableDrops = x.disableDrops := by cases b <;> rfl
@[simp] theorem setCopy_downDrops (b : Bool) (g : FlowCopy → FlowCopy) (x : FlowOut) : (setCopy b g x).downDrops = x.downDrops := by cases b <;> rfl
@[simp] theorem setCopy_claimHeld (b : Bool) (g : FlowCopy → FlowCopy) (x : FlowOut) : (setCopy b g x).claimHeld = x.claimHeld := by cases b <;> rfl
@[simp] theorem setCopy_framesSent (b : Bool) (g : FlowCopy → FlowCopy) (x : FlowOut) : (setCopy b g x).framesSent = x.framesSent := by cases b <;> rfl

theorem flowOutAt_modFlowOut (s : State) (w : Nat) (g : FlowOut → FlowOut) : flowOutAt (modFlowOut s w g) w = (flowOutAt s w).map g := fmap_get?_modify_self ..
theorem flowOutAt_modFlowOut_ne {g : FlowOut → FlowOut} (h : w ≠ u) : flowOutAt (modFlowOut s w g) u = flowOutAt s u := fmap_get?_modify_ne h

theorem flowOutAt_modCopy (h : flowOutAt s w = some x) : flowOutAt (modCopy w b g s) w = some (setCopy b g x) := by
  rw [modCopy, flowOutAt_modFlowOut, h]
  rfl

theorem flowOutAt_of_beyondPartner {t : State} (h : beyondPartner t = beyondPartner s) (u : Nat) : flowOutAt t u = flowOutAt s u := congrArg (fun m => FMap.get? m u) (flowsOut_of_beyondPartner h)

end

/-- From s to t one copy of flow w has changed, as y says, and its counters; no other flow, channel or output has, and no packet was numbered. -/
structure OnlyCopy (w : Nat) (b : Bool) (x : FlowOut) (s : State) (y : FlowOut) (t : State) : Prop where
  flow : flowOutAt t w = some y
  cfg : y.cfg = x.cfg
  other : copyAt y (!b) = copyAt x (!b)
  nextSeq : (copyAt y b).nextSeq = (copyAt x b).nextSeq
  flows : ∀ u, u ≠ w → flowOutAt t u = flowOutAt s u
  chans : t.chans = s.chans
  outs : t.outs = s.outs

section
variable {w : Nat} {b : Bool} {x y z : FlowOut} {s t u : State} {g : FlowCopy → FlowCopy}

theorem OnlyCopy.trans (h : OnlyCopy w b x s y t) (k : OnlyCopy w b y t z u) : OnlyCopy w b x s z u :=
  ⟨k.flow, k.cfg.trans h.cfg, k.other.trans h.other, k.nextSeq.trans h.nextSeq, fun v hv => (k.flows v hv).trans (h.flows v hv), k.chans.trans h.chans, k.outs.trans h.outs⟩

theorem onlyCopy_modCopy (h : flowOutAt s w = some x) (hg : ∀ c, (g c).nextSeq = c.nextSeq) : OnlyCopy w b x s (setCopy b g x) (modCopy w b g s) where
  flow := flowOutAt_modCopy h
  cfg := setCopy_cfg ..
  other := copyAt_setCopy_other ..
  nextSeq := by rw [copyAt_setCopy, hg]
  flows _ hu := flowOutAt_modFlowOut_ne hu.symm
  chans := rfl
  outs := rfl

/-- A counter of the flow changes neither copy. -/
theorem onlyCopy_modFlowOut {k : FlowOut → FlowOut} (h : flowOutAt s w = some x) (hcfg : (k x).cfg = x.cfg) (hcopy : ∀ b, copyAt (k x) b = copyAt x b) : OnlyCopy w b x s (k x) (modFlowOut s w k) where
  flow := by rw [flowOutAt_modFlowOut, h]; rfl
  cfg := hcfg
  other := hcopy _
  nextSeq := by rw [hcopy]
  flows _ hu := flowOutAt_modFlowOut_ne hu.symm
  chans := rfl
  outs := rfl

theorem OnlyCopy.beyond (h : OnlyCopy w b x s y t) (k : beyondPartner u = beyondPartner t) : OnlyCopy w b x s y u :=
  ⟨(flowOutAt_of_beyondPartner k w).trans h.flow, h.cfg, h.other, h.nextSeq, fun v hv => (flowOutAt_of_beyondPartner k v).trans (h.flows v hv), (chans_of_beyondPartner k).trans h.chans, (outs_of_beyondPartner k).trans h.outs⟩

theorem OnlyCopy.modPort (h : OnlyCopy w b x s y t) (p : Nat) (k : PortSt → PortSt) : OnlyCopy w b x s y (modPort t p k) := ⟨h.flow, h.cfg, h.other, h.nextSeq, h.flows, h.chans, h.outs⟩

end

/-! A group that leaves its copy's queue: discarded, held at the claim gate, or released (R328, R336, R338, R339). -/

/-- A copy without the group of a serial. -/
def withoutGroup (n : Nat) (c : FlowCopy) : FlowCopy := { c with groups := c.groups.filter (fun y => y.serial != n) }

/-- A copy whose group of a serial is released. -/
def withReleased (n : Nat) (c : FlowCopy) : FlowCopy := { c with groups := c.groups.map (fun y => if y.serial = n then { y with released := true } else y) }

/-- A copy whose group g waits at the claim gate. -/
def withHeld (g : Group) (c : FlowCopy) : FlowCopy := { c with groups := c.groups.filter (fun x => x.serial != g.serial), held := c.held ++ [{ g with released := true }] }

/-- A copy without the oldest of the groups at its claim gate. -/
def withoutOldest (kind : Nat) (a : Group) (c : FlowCopy) : FlowCopy := { c with held := c.held.drop 1, kept := if kind ≤ 2 then c.kept ++ [a] else c.kept }

theorem not_mem_withoutGroup {n : Nat} {c : FlowCopy} : ∀ k ∈ (withoutGroup n c).groups, k.serial ≠ n := fun _ hk => bne_iff_ne.mp (List.mem_filter.mp hk).2

section
variable {w : Nat} {b : Bool} {x : FlowOut} {s : State} {g : Group}

theorem discardGroup_only (h : flowOutAt s w = some x) : OnlyCopy w b x s (setCopy b (withoutGroup g.serial) x) (discardGroup w b g s) :=
  (onlyCopy_modCopy (g := withoutGroup g.serial) h fun _ => rfl).beyond (beyondPartner_reportGroup ..)

theorem discardGroup_ports (w : Nat) (b : Bool) (g : Group) (s : State) : (discardGroup w b g s).net.ports = s.net.ports :=
  (ports_of_beyondPartner (beyondPartner_reportGroup w b g.serial _)).trans rfl

/-- With at most one group at the gate the next one waits there too. -/
theorem holdGroup_waits (h : flowOutAt s w = some x) (hfew : (copyAt x b).held.length ≤ 1) : holdGroup w b g s = modCopy w b (withHeld g) s := by
  have hflow : flowOutAt (modCopy w b (withHeld g) s) w = some (setCopy b (withHeld g) x) := flowOutAt_modCopy h
  have hlen : (copyAt (setCopy b (withHeld g) x) b).held.length ≤ 2 := by
    rw [copyAt_setCopy]
    simpa [withHeld] using hfew
  unfold holdGroup
  extract_lets s1
  rw [show flowOutAt s1 w = _ from hflow]
  dsimp only
  split
  · next hheld => rw [hheld] at hlen; simp at hlen
  · rfl

/-- With two groups at the gate the oldest is discarded and counted. -/
theorem holdGroup_drops (h : flowOutAt s w = some x) (hmany : 2 ≤ (copyAt x b).held.length) :
    ∃ a, holdGroup w b g s = modFlowOut (modCopy w b (withoutOldest x.cfg.kind a) (modCopy w b (withHeld g) s)) w (fun x => { x with claimHeld := inc32 x.claimHeld }) := by
  have hflow : flowOutAt (modCopy w b (withHeld g) s) w = some (setCopy b (withHeld g) x) := flowOutAt_modCopy h
  have hlen : 3 ≤ (copyAt (setCopy b (withHeld g) x) b).held.length := by
    rw [copyAt_setCopy]
    simpa [withHeld] using hmany
  unfold holdGroup
  extract_lets s1
  rw [show flowOutAt s1 w = _ from hflow]
  dsimp only
  split
  · next a _ _ _ _ =>
    refine ⟨a, ?_⟩
    rw [setCopy_cfg]
    rfl
  · next hno =>
    match hheld : (copyAt (setCopy b (withHeld g) x) b).held with
    | [] | [_] | [_, _] => rw [hheld] at hlen; simp at hlen
    | a :: c :: d :: l => exact absurd hheld (hno a c d l)

end

/-! The release of a group that is due, step by step (R328, R334 to R339). -/

/-- Port, address and claim gate send a group of n frames on, hold it or discard it. -/
def passGroup (c : FlowOutCfg) (w : Nat) (b : Bool) (g : Group) (n : Nat) (s : State) : State :=
  if (portAt s (copyPort c b)).cfg.speed = 0 then countDisabled w n (discardGroup w b g s)
  else if (portAt s (copyPort c b)).down then countDown w n (discardGroup w b g s)
  else if !(resolved s c b) then askArp (copyPort c b) (modPort (discardGroup w b g s) (copyPort c b) (fun y => { y with arpDrops := (y.arpDrops + n) % 2 ^ 32 }))
  else if pairOn s && !holdsClaim s then holdGroup w b g s
  else emitAudio w b g (modCopy w b (withReleased g.serial) s)

/-- The group of a serial in a copy of flow w. -/
def groupOf (s : State) (w : Nat) (b : Bool) (serial : Nat) : Option Group := (flowOutAt s w).bind (fun y => (copyAt y b).groups.find? (fun g => g.serial == serial))

/-- The group of a serial takes its numbers and goes on. -/
def releaseSerial (c : FlowOutCfg) (w : Nat) (b : Bool) (serial : Nat) (s : State) : State :=
  match groupOf s w b serial with
  | none => s
  | some g => settleAllSlices (reapFlows (passGroup c w b ((groupOf (modCopy w b (numberGroup c.kind g.serial) s) w b g.serial).getD g) g.frames.length (modCopy w b (numberGroup c.kind g.serial) s)))

/-- A slice read poisoned, that is no substitute yet, is replaced first (R139, R248). -/
def poisonDue (poison : Option Nat) (x : FlowOut) (w serial : Nat) (s : State) : State :=
  match poison, groupSlice s x w serial with
  | some n, some (c, q) => if q.substitute || q.marker then s else poisonSlice c q n s
  | _, _ => s

section
variable {w : Nat} {b : Bool} {x : FlowOut} {s : State} {g : Group} {poison : Option Nat}

theorem releaseGroup_still (h : ∀ x, flowOutAt s w = some x → x.cfg.kind = 6 ∨ (b = true ∧ x.cfg.dual = false) ∨ flowClocks s = false ∨ (copyAt x b).groups.find? (fun g => !g.released) = none ∨
    ∃ g, (copyAt x b).groups.find? (fun g => !g.released) = some g ∧ localQ s < g.release) : releaseGroup w b poison s = s := by
  unfold releaseGroup
  cases hx : flowOutAt s w with
  | none => rfl
  | some x =>
    obtain hk | ⟨hb, hd⟩ | hc | hn | ⟨g, hg, hlt⟩ := h x hx
    · exact if_pos (.inl hk)
    · exact if_pos (.inr (.inl ⟨hb, by rw [hd]; rfl⟩))
    · exact if_pos (.inr (.inr (by rw [hc]; rfl)))
    · dsimp only
      rw [hn]
      exact ite_self _
    · dsimp only
      rw [hg]
      dsimp only
      rw [if_pos hlt]
      exact ite_self _

theorem releaseGroup_due (hx : flowOutAt s w = some x) (hk : x.cfg.kind ≠ 6) (hb : b = true → x.cfg.dual = true) (hc : flowClocks s = true)
    (hg : (copyAt x b).groups.find? (fun g => !g.released) = some g) (hdue : g.release ≤ localQ s) :
    releaseGroup w b poison s = releaseSerial x.cfg w b g.serial (poisonDue poison x w g.serial s) := by
  unfold releaseGroup
  rw [hx]
  dsimp only
  rw [if_neg, hg]
  · dsimp only
    rw [if_neg (not_lt.mpr hdue)]
    rfl
  · rintro (h | ⟨h, hd⟩ | h)
    · exact hk h
    · rw [hb h] at hd
      exact Bool.false_ne_true hd
    · rw [hc] at h
      exact Bool.false_ne_true h

end

/-! Numbering (R143, R394). -/

/-- A group with the numbers of its copy. -/
def numbered (c : FlowCopy) (g : Group) : Group := { g with seq := c.nextSeq, cc := c.cc }

section
variable {kind : Nat} {c : FlowCopy} {g : Group}

/-- A group that alone has its serial is the one that its serial finds. -/
theorem find?_serial {l : List Group} (hg : g ∈ l) (hone : ∀ h ∈ l, h.serial = g.serial → h = g) : l.find? (fun h => h.serial == g.serial) = some g := by
  cases hfind : l.find? (fun h => h.serial == g.serial) with
  | none => exact absurd (List.find?_eq_none.mp hfind g hg) (by simp)
  | some h => rw [hone h (List.mem_of_find?_eq_some hfind) (beq_iff_eq.mp (List.find?_some hfind :))]

theorem numberGroup_groups (h : c.groups.find? (fun y => y.serial == g.serial) = some g) :
    (numberGroup kind g.serial c).groups = c.groups.map (fun y => if y.serial = g.serial then numbered c y else y) := by
  unfold numberGroup
  rw [h]
  rfl

theorem numberGroup_nextSeq (h : c.groups.find? (fun y => y.serial == g.serial) = some g) (hk : kind ≠ 1) : (numberGroup kind g.serial c).nextSeq = (c.nextSeq + g.frames.length) % 65536 := by
  unfold numberGroup
  rw [h]
  exact if_neg hk

theorem numberGroup_held (kind n : Nat) (c : FlowCopy) : (numberGroup kind n c).held = c.held := by
  unfold numberGroup
  split <;> rfl

theorem numberGroup_length (kind n : Nat) (c : FlowCopy) : (numberGroup kind n c).groups.length = c.groups.length := by
  unfold numberGroup
  split
  · rfl
  · exact List.length_map ..

theorem find?_numberGroup (h : c.groups.find? (fun y => y.serial == g.serial) = some g) :
    (numberGroup kind g.serial c).groups.find? (fun y => y.serial == g.serial) = some (numbered c g) := by
  have hserial : ((fun y : Group => y.serial == g.serial) ∘ fun y => if y.serial = g.serial then numbered c y else y) = fun y => y.serial == g.serial := by
    funext y
    simp only [Function.comp_apply]
    split <;> rfl
  rw [numberGroup_groups h, List.find?_map, hserial, h]
  simp

end

section
variable {w : Nat} {b : Bool} {x : FlowOut} {s : State} {g : Group}

theorem releaseSerial_found (hx : flowOutAt s w = some x) (h : (copyAt x b).groups.find? (fun y => y.serial == g.serial) = some g) :
    releaseSerial x.cfg w b g.serial s =
      settleAllSlices (reapFlows (passGroup x.cfg w b (numbered (copyAt x b) g) g.frames.length (modCopy w b (numberGroup x.cfg.kind g.serial) s))) := by
  have hbefore : groupOf s w b g.serial = some g := by
    rw [groupOf, hx]
    exact h
  have hafter : groupOf (modCopy w b (numberGroup x.cfg.kind g.serial) s) w b g.serial = some (numbered (copyAt x b) g) := by
    rw [groupOf, flowOutAt_modCopy hx, Option.bind_some, copyAt_setCopy]
    exact find?_numberGroup h
  unfold releaseSerial
  rw [hbefore]
  dsimp only
  rw [hafter]
  rfl

end

/-! Where a group goes on (R336, R338, R339). -/

section
variable {c : FlowOutCfg} {w n : Nat} {b : Bool} {x y : FlowOut} {s : State} {g : Group}

theorem askArp_asks (p : Nat) (s : State) : ∃ f ∈ (portAt (askArp p s) p).fwQueue, f.queue = 2 ∧ f.len = 60 := by
  unfold askArp
  split
  · next h =>
    obtain ⟨f, hf, hreq⟩ := List.any_eq_true.mp h
    simp only [Bool.and_eq_true, beq_iff_eq] at hreq
    exact ⟨f, hf, hreq⟩
  · refine ⟨{ queue := 2, len := 60 }, ?_, rfl, rfl⟩
    rw [fwSend, portAt_modPort]
    exact List.mem_append_right _ (List.mem_singleton.mpr rfl)

theorem arpDrops_askArp (p : Nat) (s : State) : (portAt (askArp p s) p).arpDrops = (portAt s p).arpDrops := by
  unfold askArp
  split
  · rfl
  · rw [fwSend, portAt_modPort]

theorem OnlyCopy.askArp {t : State} (h : OnlyCopy w b x s y t) (p : Nat) : OnlyCopy w b x s y (askArp p t) := by
  unfold Machine.askArp
  split
  · exact h
  · exact h.modPort ..

theorem emitAudio_beyond (w : Nat) (b : Bool) (g : Group) (s : State) : beyondPartner (emitAudio w b g s) = beyondPartner s := by
  unfold emitAudio
  split <;> rfl

theorem passGroup_disabled (h0 : (portAt s (copyPort c b)).cfg.speed = 0) : passGroup c w b g n s = countDisabled w n (discardGroup w b g s) := if_pos h0

theorem passGroup_down (h0 : (portAt s (copyPort c b)).cfg.speed ≠ 0) (hd : (portAt s (copyPort c b)).down = true) : passGroup c w b g n s = countDown w n (discardGroup w b g s) :=
  (if_neg h0).trans (if_pos hd)

theorem passGroup_unresolved (h0 : (portAt s (copyPort c b)).cfg.speed ≠ 0) (hd : (portAt s (copyPort c b)).down = false) (hr : resolved s c b = false) :
    passGroup c w b g n s = askArp (copyPort c b) (modPort (discardGroup w b g s) (copyPort c b) (fun y => { y with arpDrops := (y.arpDrops + n) % 2 ^ 32 })) :=
  (if_neg h0).trans ((if_neg (ne_true_of_eq_false hd)).trans (if_pos (by rw [hr]; rfl)))

theorem passGroup_gate (h0 : (portAt s (copyPort c b)).cfg.speed ≠ 0) (hd : (portAt s (copyPort c b)).down = false) (hr : resolved s c b = true) :
    passGroup c w b g n s = if pairOn s && !holdsClaim s then holdGroup w b g s else emitAudio w b g (modCopy w b (withReleased g.serial) s) :=
  (if_neg h0).trans ((if_neg (ne_true_of_eq_false hd)).trans (if_neg (by rw [hr]; decide)))

theorem passGroup_held (h0 : (portAt s (copyPort c b)).cfg.speed ≠ 0) (hd : (portAt s (copyPort c b)).down = false) (hr : resolved s c b = true) (hp : pairOn s = true) (hc : holdsClaim s = false) :
    passGroup c w b g n s = holdGroup w b g s := (passGroup_gate h0 hd hr).trans (if_pos (by rw [hp, hc]; rfl))

theorem passGroup_released (h0 : (portAt s (copyPort c b)).cfg.speed ≠ 0) (hd : (portAt s (copyPort c b)).down = false) (hr : resolved s c b = true) (hc : pairOn s = false ∨ holdsClaim s = true) :
    passGroup c w b g n s = emitAudio w b g (modCopy w b (withReleased g.serial) s) := by
  refine (passGroup_gate h0 hd hr).trans (if_neg ?_)
  obtain h | h := hc <;> simp [h]

theorem holdGroup_only (h : flowOutAt s w = some x) : ∃ y, OnlyCopy w b x s y (holdGroup w b g s) := by
  have hmoved : OnlyCopy w b x s (setCopy b (withHeld g) x) (modCopy w b (withHeld g) s) := onlyCopy_modCopy h fun _ => rfl
  obtain hmany | hfew := Nat.lt_or_ge 1 (copyAt x b).held.length
  · obtain ⟨a, heq⟩ := holdGroup_drops (g := g) h hmany
    rw [heq]
    have hdropped := hmoved.trans (onlyCopy_modCopy (g := withoutOldest x.cfg.kind a) hmoved.flow fun _ => rfl)
    exact ⟨_, hdropped.trans (onlyCopy_modFlowOut hdropped.flow rfl fun b => by cases b <;> rfl)⟩
  · exact ⟨_, holdGroup_waits h hfew ▸ hmoved⟩

/-- Wherever the group goes, its copy alone changes, with the flow's counters. -/
theorem passGroup_only (h : flowOutAt s w = some x) : ∃ y, OnlyCopy w b x s y (passGroup c w b g n s) := by
  have hgone : OnlyCopy w b x s (setCopy b (withoutGroup g.serial) x) (discardGroup w b g s) := discardGroup_only h
  unfold passGroup
  split
  · exact ⟨_, hgone.trans (onlyCopy_modFlowOut hgone.flow rfl fun b => by cases b <;> rfl)⟩
  split
  · exact ⟨_, hgone.trans (onlyCopy_modFlowOut hgone.flow rfl fun b => by cases b <;> rfl)⟩
  split
  · exact ⟨_, (hgone.modPort ..).askArp _⟩
  split
  · exact holdGroup_only h
  · exact ⟨_, (onlyCopy_modCopy (g := withReleased g.serial) h fun _ => rfl).beyond (emitAudio_beyond ..)⟩

end

/-! What becomes of the flow and of the port, place by place. -/

section
variable {w n : Nat} {b : Bool} {x y : FlowOut} {s : State} {g : Group}

theorem mem_withReleased {c : FlowCopy} (h : g ∈ c.groups) : { g with released := true } ∈ (withReleased g.serial c).groups :=
  List.mem_map.mpr ⟨g, h, if_pos rfl⟩

theorem discardGroup_flow (h : flowOutAt s w = some x) : flowOutAt (discardGroup w b g s) w = some (setCopy b (withoutGroup g.serial) x) := (discardGroup_only h).flow

theorem flow_countDisabled (h : flowOutAt s w = some x) :
    flowOutAt (countDisabled w n (discardGroup w b g s)) w = some { setCopy b (withoutGroup g.serial) x with disableDrops := (x.disableDrops + n) % 2 ^ 32 } := by
  rw [countDisabled, flowOutAt_modFlowOut, discardGroup_flow h, Option.map_some, setCopy_disableDrops]

theorem flow_countDown (h : flowOutAt s w = some x) :
    flowOutAt (countDown w n (discardGroup w b g s)) w = some { setCopy b (withoutGroup g.serial) x with downDrops := (x.downDrops + n) % 2 ^ 32 } := by
  rw [countDown, flowOutAt_modFlowOut, discardGroup_flow h, Option.map_some, setCopy_downDrops]

theorem flow_askArp (p q : Nat) (k : PortSt → PortSt) (h : flowOutAt s w = some x) : flowOutAt (askArp p (modPort (discardGroup w b g s) q k)) w = some (setCopy b (withoutGroup g.serial) x) :=
  (((discardGroup_only h).modPort q k).askArp p).flow

theorem arpDrops_discarded (p : Nat) : (portAt (askArp p (modPort (discardGroup w b g s) p (fun y => { y with arpDrops := (y.arpDrops + n) % 2 ^ 32 }))) p).arpDrops = ((portAt s p).arpDrops + n) % 2 ^ 32 := by
  rw [arpDrops_askArp, portAt_modPort, portAt, discardGroup_ports]
  rfl

theorem ports_holdGroup (h : flowOutAt s w = some x) : (holdGroup w b g s).net.ports = s.net.ports := by
  obtain hmany | hfew := Nat.lt_or_ge 1 (copyAt x b).held.length
  · obtain ⟨a, heq⟩ := holdGroup_drops (g := g) h hmany
    rw [heq]
    rfl
  · rw [holdGroup_waits h hfew]
    rfl

theorem flow_holdGroup_waits (h : flowOutAt s w = some x) (hfew : (copyAt x b).held.length ≤ 1) : flowOutAt (holdGroup w b g s) w = some (setCopy b (withHeld g) x) := by
  rw [holdGroup_waits h hfew]
  exact flowOutAt_modCopy h

theorem flow_holdGroup_drops (h : flowOutAt s w = some x) (hmany : 2 ≤ (copyAt x b).held.length) :
    ∃ a, flowOutAt (holdGroup w b g s) w = some { setCopy b (withoutOldest x.cfg.kind a) (setCopy b (withHeld g) x) with claimHeld := inc32 x.claimHeld } := by
  obtain ⟨a, heq⟩ := holdGroup_drops (g := g) h hmany
  refine ⟨a, ?_⟩
  rw [heq, flowOutAt_modFlowOut, flowOutAt_modCopy (flowOutAt_modCopy h), Option.map_some, setCopy_claimHeld, setCopy_claimHeld]

/-- A held group leaves the queue and joins the gate; of three the oldest goes (R336, R394). -/
theorem holdGroup_holds (h : flowOutAt s w = some x) (hy : flowOutAt (holdGroup w b g s) w = some y) :
    (∀ k ∈ (copyAt y b).groups, k.serial ≠ g.serial) ∧
      ((copyAt x b).held.length ≤ 1 → (copyAt y b).held = (copyAt x b).held ++ [{ g with released := true }] ∧ y.claimHeld = x.claimHeld) ∧
      (2 ≤ (copyAt x b).held.length → (copyAt y b).held = ((copyAt x b).held ++ [{ g with released := true }]).drop 1 ∧ y.claimHeld = inc32 x.claimHeld) := by
  obtain hmany | hfew := Nat.lt_or_ge 1 (copyAt x b).held.length
  · obtain ⟨a, heq⟩ := flow_holdGroup_drops (g := g) h hmany
    obtain rfl := Option.some.inj (hy.symm.trans heq)
    have hcopy : copyAt { setCopy b (withoutOldest x.cfg.kind a) (setCopy b (withHeld g) x) with claimHeld := inc32 x.claimHeld } b = withoutOldest x.cfg.kind a (withHeld g (copyAt x b)) := by
      cases b <;> rfl
    rw [hcopy]
    exact ⟨not_mem_withoutGroup, fun hfew => absurd hfew (Nat.not_le.mpr hmany), fun _ => ⟨rfl, rfl⟩⟩
  · obtain rfl := Option.some.inj (hy.symm.trans (flow_holdGroup_waits h hfew))
    rw [copyAt_setCopy, setCopy_claimHeld]
    exact ⟨not_mem_withoutGroup, fun _ => ⟨rfl, rfl⟩, fun hmany => absurd hfew (Nat.not_le.mpr hmany)⟩

end

/-- A flow whose group g has taken its numbers. -/
def numberedFlow (b : Bool) (g : Group) (x : FlowOut) : FlowOut := setCopy b (numberGroup x.cfg.kind g.serial) x

/-- The state whose group g of flow w, x at that time, has taken its numbers. -/
def numberedState (w : Nat) (b : Bool) (g : Group) (x : FlowOut) (s : State) : State := modCopy w b (numberGroup x.cfg.kind g.serial) s

section
variable {w n : Nat} {b : Bool} {x y : FlowOut} {s : State} {g : Group} (hx : flowOutAt s w = some x) (hfind : (copyAt x b).groups.find? (fun y => y.serial == g.serial) = some g)
  (hy : flowOutAt (passGroup x.cfg w b (numbered (copyAt x b) g) n (numberedState w b g x s)) w = some y)
include hx

theorem flow_numberedState : flowOutAt (numberedState w b g x s) w = some (numberedFlow b g x) := flowOutAt_modCopy hx

include hy

theorem disabled_discards (h0 : (portAt s (copyPort x.cfg b)).cfg.speed = 0) : y.disableDrops = (x.disableDrops + n) % 2 ^ 32 ∧ (∀ k ∈ (copyAt y b).groups, k.serial ≠ g.serial) := by
  rw [passGroup_disabled (s := numberedState w b g x s) h0, flow_countDisabled (flow_numberedState hx)] at hy
  obtain rfl := Option.some.inj hy
  refine ⟨by rw [numberedFlow, setCopy_disableDrops], ?_⟩
  cases b <;> exact not_mem_withoutGroup

theorem down_discards (h0 : (portAt s (copyPort x.cfg b)).cfg.speed ≠ 0) (hd : (portAt s (copyPort x.cfg b)).down = true) :
    y.downDrops = (x.downDrops + n) % 2 ^ 32 ∧ (∀ k ∈ (copyAt y b).groups, k.serial ≠ g.serial) := by
  rw [passGroup_down (s := numberedState w b g x s) h0 hd, flow_countDown (flow_numberedState hx)] at hy
  obtain rfl := Option.some.inj hy
  refine ⟨by rw [numberedFlow, setCopy_downDrops], ?_⟩
  cases b <;> exact not_mem_withoutGroup

theorem unresolved_discards (h0 : (portAt s (copyPort x.cfg b)).cfg.speed ≠ 0) (hd : (portAt s (copyPort x.cfg b)).down = false) (hr : resolved s x.cfg b = false) :
    (∀ k ∈ (copyAt y b).groups, k.serial ≠ g.serial) ∧
      (portAt (passGroup x.cfg w b (numbered (copyAt x b) g) n (numberedState w b g x s)) (copyPort x.cfg b)).arpDrops = ((portAt s (copyPort x.cfg b)).arpDrops + n) % 2 ^ 32 ∧
      ∃ f ∈ (portAt (passGroup x.cfg w b (numbered (copyAt x b) g) n (numberedState w b g x s)) (copyPort x.cfg b)).fwQueue, f.queue = 2 ∧ f.len = 60 := by
  rw [passGroup_unresolved (s := numberedState w b g x s) h0 hd hr] at hy ⊢
  rw [flow_askArp _ _ _ (flow_numberedState hx)] at hy
  obtain rfl := Option.some.inj hy
  refine ⟨?_, arpDrops_discarded _, askArp_asks _ _⟩
  rw [copyAt_setCopy]
  exact not_mem_withoutGroup

theorem gate_holds (h0 : (portAt s (copyPort x.cfg b)).cfg.speed ≠ 0) (hd : (portAt s (copyPort x.cfg b)).down = false) (hr : resolved s x.cfg b = true) (hp : pairOn s = true) (hc : holdsClaim s = false) :
    (passGroup x.cfg w b (numbered (copyAt x b) g) n (numberedState w b g x s)).net.ports = s.net.ports ∧ (∀ k ∈ (copyAt y b).groups, k.serial ≠ g.serial) ∧
      ∃ h, h.serial = g.serial ∧ h.released = true ∧ h.frames = g.frames ∧
        ((copyAt x b).held.length ≤ 1 → (copyAt y b).held = (copyAt x b).held ++ [h] ∧ y.claimHeld = x.claimHeld) ∧
        (2 ≤ (copyAt x b).held.length → (copyAt y b).held = ((copyAt x b).held ++ [h]).drop 1 ∧ y.claimHeld = inc32 x.claimHeld) := by
  rw [passGroup_held (s := numberedState w b g x s) h0 hd hr hp hc] at hy ⊢
  obtain ⟨hgone, hwaits, hdrops⟩ := holdGroup_holds (flow_numberedState hx) hy
  have hheld : (copyAt (numberedFlow b g x) b).held = (copyAt x b).held := by rw [numberedFlow, copyAt_setCopy, numberGroup_held]
  rw [hheld, numberedFlow, setCopy_claimHeld] at hwaits hdrops
  exact ⟨ports_holdGroup (flow_numberedState hx), hgone, { numbered (copyAt x b) g with released := true }, rfl, rfl, rfl, hwaits, hdrops⟩

include hfind

theorem gate_releases (h0 : (portAt s (copyPort x.cfg b)).cfg.speed ≠ 0) (hd : (portAt s (copyPort x.cfg b)).down = false) (hr : resolved s x.cfg b = true) (hc : pairOn s = false ∨ holdsClaim s = true) :
    (passGroup x.cfg w b (numbered (copyAt x b) g) n (numberedState w b g x s)).net.ports = s.net.ports ∧ y.disableDrops = x.disableDrops ∧ y.downDrops = x.downDrops ∧
      (copyAt y b).groups.length = (copyAt x b).groups.length ∧ ∃ h ∈ (copyAt y b).groups, h.serial = g.serial ∧ h.released = true ∧ h.frames = g.frames ∧ h.seq = (copyAt x b).nextSeq := by
  rw [passGroup_released (s := numberedState w b g x s) h0 hd hr hc] at hy ⊢
  rw [flowOutAt_of_beyondPartner (emitAudio_beyond ..), flowOutAt_modCopy (flow_numberedState hx)] at hy
  obtain rfl := Option.some.inj hy
  have hcopy : copyAt (setCopy b (withReleased (numbered (copyAt x b) g).serial) (numberedFlow b g x)) b = withReleased g.serial (numberGroup x.cfg.kind g.serial (copyAt x b)) := by
    rw [copyAt_setCopy, numberedFlow, copyAt_setCopy]
    rfl
  rw [hcopy, numberedFlow]
  refine ⟨(ports_of_beyondPartner (emitAudio_beyond ..)).trans rfl, by simp, by simp, ?_, _, mem_withReleased (g := numbered (copyAt x b) g) (List.mem_of_find?_eq_some (find?_numberGroup hfind)), rfl, rfl, rfl, rfl⟩
  exact (List.length_map ..).trans (numberGroup_length ..)

end

/-! A slice read poisoned (R139, R248). -/

/-- A group but for what it carries. -/
def bare (g : Group) : Group := { g with frames := [], info := {} }

/-- The groups of a copy but for what they carry. -/
def bareCopy (c : FlowCopy) : FlowCopy := { c with groups := c.groups.map bare, held := c.held.map bare }

/-- A flow but for what its groups carry. -/
def bareFlow (x : FlowOut) : FlowOut := { x with copyA := bareCopy x.copyA, copyB := bareCopy x.copyB }

/-- The output flows but for what their groups carry. -/
def bareFlows (s : State) (w : Nat) : Option FlowOut := (flowOutAt s w).map bareFlow

/-- Change what groups carry, on one copy. -/
def recarry (k : Group → Group) (c : FlowCopy) : FlowCopy := { c with groups := c.groups.map k, held := c.held.map k }

section
variable {w : Nat} {b : Bool} {x y : FlowOut} {s : State} {g : Group} {k : Group → Group} {c : Nat} {q : SliceQ} {n : Nat}

theorem bareCopy_recarry (hk : ∀ g, bare (k g) = bare g) (c : FlowCopy) : bareCopy (recarry k c) = bareCopy c := by
  have hmap : ∀ l : List Group, (l.map k).map bare = l.map bare := fun l => by rw [List.map_map]; exact List.map_congr_left fun g _ => hk g
  simp only [bareCopy, recarry, hmap]

theorem bareFlow_setCopy (hk : ∀ g, bare (k g) = bare g) (b : Bool) (x : FlowOut) : bareFlow (setCopy b (recarry k) x) = bareFlow x := by
  cases b <;> simp [bareFlow, setCopy, bareCopy_recarry hk]

theorem bareFlows_modCopy (hk : ∀ g, bare (k g) = bare g) (w : Nat) (b : Bool) (s : State) : bareFlows (modCopy w b (recarry k) s) = bareFlows s := by
  funext u
  unfold bareFlows
  by_cases hu : w = u
  · subst hu
    rw [modCopy, flowOutAt_modFlowOut, Option.map_map]
    exact congrArg (fun f => Option.map f (flowOutAt s w)) (funext fun x => bareFlow_setCopy hk b x)
  · rw [modCopy, flowOutAt_modFlowOut_ne hu]

/-- A flow seen alike has the same configuration, and the next group that is not released is the same but for what it carries. -/
theorem unreleased_of_bareFlow (h : bareFlow y = bareFlow x) (hg : (copyAt x b).groups.find? (fun g => !g.released) = some g) :
    ∃ g', (copyAt y b).groups.find? (fun g => !g.released) = some g' ∧ bare g' = bare g := by
  have hcopy : ∀ z : FlowOut, ((copyAt z b).groups.find? (fun g => !g.released)).map bare = (copyAt (bareFlow z) b).groups.find? (fun g => !g.released) := by
    intro z
    cases b <;> exact (List.find?_map (p := fun g : Group => !g.released) (f := bare)).symm
  have := (hcopy y).trans ((congrArg (fun z => (copyAt z b).groups.find? (fun g => !g.released)) h).trans (hcopy x).symm)
  rw [hg] at this
  exact Option.map_eq_some_iff.mp this

end

/-- What a substitute from row `first` of picture n leaves in its channel. -/
def substituteNoted (n first : Nat) (x : Chan) : Chan :=
  { x with
    counters.substSlices := inc32 x.counters.substSlices, sliceFault := true,
    run := { x.run with forceIdr := true, substSince := some (x.run.substSince.getD n),
                        pics := x.run.pics.mapVals (fun m q => if n ≤ m ∧ !(q.loss.any (fun l => l.2.2.1 == 2)) then { q with loss := q.loss ++ [(x.run.substSince.getD n, if m = n then first else 0, 2, 0xFF)] } else q) } }

/-- The substitute stands in the channel's queue. -/
def substituteQueued (nals : List Nat) (q : SliceQ) (x : Chan) : Chan :=
  { x with run.queue := x.run.queue.map (fun y => if y.picture = q.picture ∧ y.slice = q.slice ∧ !y.marker then { y with nals := nals, substitute := true, check := 0 } else y) }

/-- A group that has not begun carries the substitute. -/
def substituteCarried (cfg : FlowOutCfg) (nals : List Nat) (e : TsExtra) (serial : Nat) (g : Group) : Group :=
  if g.serial = serial ∧ g.sent = 0 then { g with frames := groupFrames cfg nals e, info.packets := if cfg.kind = 0 then [] else groupTs nals e } else g

/-- The flows that carry a slice carry its substitute. -/
def substituteOnFlows (nals : List Nat) (q : SliceQ) (s : State) : State :=
  q.groups.foldl (fun s e => match flowOutAt s e.1 with
    | none => s
    | some x => (copiesOf x.cfg).foldl (fun s b => modCopy e.1 b (recarry (substituteCarried x.cfg nals q.extra e.2)) s) s) s

/-- A fault of the holder yields, one of the standby diverges. -/
def pairReacts (s : State) : State := if isHolder s then faultYield s else if isStandby s then diverge s else s

/-- The NAL unit sizes of a slice's queue entry once its substitute has `size` bytes. -/
def substituteNals (q : SliceQ) (size : Nat) : List Nat := q.nals.take q.sliceAt ++ [size] ++ q.nals.drop (q.sliceAt + 1)

/-- The poisoned read is recorded, and the channel takes the substitute. -/
def sliceSubstituted (c : Nat) (q : SliceQ) (size : Nat) (s : State) : State :=
  modChan (substitute c q.picture q.rowA (poisonRead 8 ((chanAt s c).elim 0 (fun x => x.owner.val)) 1 c q.picture s)) c (substituteQueued (substituteNals q size) q)

section
variable {c d n : Nat} {q : SliceQ} {s : State} {x : Chan}

theorem poisonSlice_eq (c : Nat) (q : SliceQ) (n : Nat) (s : State) : poisonSlice c q n s = pairReacts (substituteOnFlows (substituteNals q n) q (sliceSubstituted c q n s)) := rfl

@[simp] theorem sliceSubstituted_now (c : Nat) (q : SliceQ) (n : Nat) (s : State) : (sliceSubstituted c q n s).now = s.now := rfl
@[simp] theorem sliceSubstituted_time (c : Nat) (q : SliceQ) (n : Nat) (s : State) : (sliceSubstituted c q n s).time = s.time := rfl
@[simp] theorem sliceSubstituted_power (c : Nat) (q : SliceQ) (n : Nat) (s : State) : (sliceSubstituted c q n s).power = s.power := rfl

theorem beyondPartner_pairReacts (s : State) : beyondPartner (pairReacts s) = beyondPartner s := by
  unfold pairReacts
  split
  · exact beyondPartner_faultYield s
  · split
    · exact beyondPartner_diverge s
    · rfl

/-- Everything but the output flows. -/
def beyondFlows (s : State) : State := { s with net.flowsOut := [] }

theorem clocks_of_beyondFlows {s t : State} (h : beyondFlows t = beyondFlows s) : t.now = s.now ∧ t.time = s.time ∧ t.power = s.power :=
  ⟨(congrArg State.now h :), (congrArg State.time h :), (congrArg State.power h :)⟩

theorem chans_of_beyondFlows {s t : State} (h : beyondFlows t = beyondFlows s) : t.chans = s.chans := (congrArg State.chans h :)
theorem mem_of_beyondFlows {s t : State} (h : beyondFlows t = beyondFlows s) : t.mem = s.mem := (congrArg State.mem h :)

theorem substituteOnFlows_beyond (nals : List Nat) (q : SliceQ) (s : State) : beyondFlows (substituteOnFlows nals q s) = beyondFlows s := by
  refine foldl_view (fun s e => ?_) _ s
  split
  · rfl
  · next x _ => exact foldl_view (fun s b => (rfl : beyondFlows (modCopy e.1 b (recarry (substituteCarried x.cfg nals q.extra e.2)) s) = beyondFlows s)) _ s

theorem bareFlows_substituteOnFlows (nals : List Nat) (q : SliceQ) (s : State) : bareFlows (substituteOnFlows nals q s) = bareFlows s := by
  refine foldl_view (fun s e => ?_) _ s
  split
  · rfl
  · next x _ =>
    refine foldl_view (fun s b => bareFlows_modCopy (fun g => ?_) _ _ s) _ s
    unfold substituteCarried
    split <;> rfl

theorem poisonSlice_flows (c : Nat) (q : SliceQ) (n : Nat) (s : State) : bareFlows (poisonSlice c q n s) = bareFlows s := by
  rw [poisonSlice_eq]
  have hpair : ∀ t, bareFlows (pairReacts t) = bareFlows t := fun t => funext fun u => congrArg (Option.map bareFlow) (flowOutAt_of_beyondPartner (beyondPartner_pairReacts t) u)
  rw [hpair, bareFlows_substituteOnFlows]
  rfl

theorem poisonSlice_clocks (c : Nat) (q : SliceQ) (n : Nat) (s : State) : (poisonSlice c q n s).now = s.now ∧ (poisonSlice c q n s).time = s.time ∧ (poisonSlice c q n s).power = s.power := by
  rw [poisonSlice_eq]
  have hpair := beyondPartner_pairReacts (substituteOnFlows (substituteNals q n) q (sliceSubstituted c q n s))
  rw [now_of_beyondPartner hpair, time_of_beyondPartner hpair, power_of_beyondPartner hpair]
  obtain ⟨hnow, htime, hpower⟩ := clocks_of_beyondFlows (substituteOnFlows_beyond (substituteNals q n) q (sliceSubstituted c q n s))
  exact ⟨hnow.trans (sliceSubstituted_now ..), htime.trans (sliceSubstituted_time ..), hpower.trans (sliceSubstituted_power ..)⟩

theorem poisonSlice_mem (c : Nat) (q : SliceQ) (n : Nat) (s : State) : (poisonSlice c q n s).mem.poisonReads = inc32 s.mem.poisonReads := by
  rw [poisonSlice_eq, mem_of_beyondPartner (beyondPartner_pairReacts _), mem_of_beyondFlows (substituteOnFlows_beyond ..)]
  rfl

theorem poisonSlice_chans (c : Nat) (q : SliceQ) (n : Nat) (s : State) :
    (poisonSlice c q n s).chans = (s.chans.modify c (substituteNoted q.picture q.rowA)).modify c (substituteQueued (substituteNals q n) q) := by
  rw [poisonSlice_eq, chans_of_beyondPartner (beyondPartner_pairReacts _), chans_of_beyondFlows (substituteOnFlows_beyond ..)]
  rfl

theorem chanAt_poisonSlice (h : chanAt s c = some x) : ∃ y, chanAt (poisonSlice c q n s) c = some y ∧ y.counters.substSlices = inc32 x.counters.substSlices ∧ y.run.forceIdr = true := by
  unfold chanAt at h ⊢
  rw [poisonSlice_chans, fmap_get?_modify_self, fmap_get?_modify_self, h]
  exact ⟨_, rfl, rfl, rfl⟩

theorem chanAt_poisonSlice_ne (h : d ≠ c) : chanAt (poisonSlice c q n s) d = chanAt s d := by
  unfold chanAt
  rw [poisonSlice_chans, fmap_get?_modify_ne h.symm, fmap_get?_modify_ne h.symm]

end

section
variable {c n : Nat} {q : SliceQ} {s : State}

/-- A channel's change that keeps its state keeps whether any channel codes. -/
theorem any_modify_st {m : FMap Chan} {k : Chan → Chan} (hk : ∀ x, (k x).st = x.st) (c : Nat) :
    (m.modify c k).any (fun e => e.2.st == .running || e.2.st == .draining) = m.any (fun e => e.2.st == .running || e.2.st == .draining) := by
  induction m with
  | nil => rfl
  | cons e r ih =>
    rw [FMap.modify]
    split
    · rw [List.any_cons, List.any_cons, hk]
    · rw [List.any_cons, List.any_cons, ih]

theorem egressing_poisonSlice : egressing (poisonSlice c q n s) = egressing s := by
  obtain ⟨-, -, hpower⟩ := poisonSlice_clocks c q n s
  unfold egressing
  rw [hpower, poisonSlice_chans, any_modify_st (k := substituteQueued (substituteNals q n) q) (fun _ => rfl), any_modify_st (k := substituteNoted q.picture q.rowA) (fun _ => rfl)]

theorem advance_zero (s : State) : advance 0 s = s := by simp [advance]

end

section
variable {w n c : Nat} {b : Bool} {x : FlowOut} {s : State} {g : Group} {q : SliceQ}

/-- The substitute replaced, the release is that of the new state (R139, R248). -/
theorem releaseGroup_poisoned (hx : flowOutAt s w = some x) (hk : x.cfg.kind ≠ 6) (hb : b = true → x.cfg.dual = true) (hc : flowClocks s = true)
    (hg : (copyAt x b).groups.find? (fun g => !g.released) = some g) (hdue : g.release ≤ localQ s)
    (hslice : groupSlice s x w g.serial = some (c, q)) (hsub : q.substitute = false) (hmark : q.marker = false) :
    releaseGroup w b (some n) s = releaseGroup w b none (poisonSlice c q n s) := by
  obtain ⟨-, htime, hpower⟩ := poisonSlice_clocks c q n s
  have hflows : (flowOutAt (poisonSlice c q n s) w).map bareFlow = some (bareFlow x) := (congrFun (poisonSlice_flows c q n s) w).trans (congrArg (Option.map bareFlow) hx)
  obtain ⟨y, hy, hbare⟩ := Option.map_eq_some_iff.mp hflows
  obtain ⟨g', hg', hsame⟩ := unreleased_of_bareFlow hbare hg
  have hcfg : y.cfg = x.cfg := (congrArg FlowOut.cfg hbare :)
  have hserial : g'.serial = g.serial := (congrArg Group.serial hsame :)
  have hrelease : g'.release = g.release := (congrArg Group.release hsame :)
  have hclocks : flowClocks (poisonSlice c q n s) = true := by
    rw [flowClocks, clockLost, clockLost, clockLost, hpower]
    exact hc
  have hpoison : poisonDue (some n) x w g.serial s = poisonSlice c q n s := by
    unfold poisonDue
    rw [hslice]
    dsimp only
    rw [if_neg]
    simp [hsub, hmark]
  rw [releaseGroup_due hx hk hb hc hg hdue, hpoison, releaseGroup_due hy (hcfg ▸ hk) (hcfg ▸ hb) hclocks hg' (by rw [hrelease, localQ, htime]; exact hdue), hcfg, hserial]
  rfl

theorem releaseGroup_unpoisoned (hx : flowOutAt s w = some x) (hk : x.cfg.kind ≠ 6) (hb : b = true → x.cfg.dual = true) (hc : flowClocks s = true)
    (hg : (copyAt x b).groups.find? (fun g => !g.released) = some g) (hdue : g.release ≤ localQ s)
    (hslice : ∀ c q, groupSlice s x w g.serial = some (c, q) → q.substitute = true ∨ q.marker = true) : releaseGroup w b (some n) s = releaseGroup w b none s := by
  rw [releaseGroup_due hx hk hb hc hg hdue, releaseGroup_due hx hk hb hc hg hdue]
  congr 1
  unfold poisonDue
  cases hs : groupSlice s x w g.serial with
  | none => rfl
  | some e => exact if_pos (Bool.or_eq_true_iff.mpr (hslice e.1 e.2 hs))

end

/-! The MAC's choice (R323, R324, R332). -/

theorem endFrame_idle {p : Nat} {s : State} (h : (portAt s p).sending = none) : endFrame p s = s := by
  unfold endFrame
  rw [h]

theorem holdUnpassed_claimed {p : Nat} {s : State} (h : pairOn s = false ∨ holdsClaim s = true) : holdUnpassed p s = s := by
  refine if_pos ?_
  obtain h | h := h <;> simp [h]

theorem selectFrame_busy {p : Nat} {s : State} (h : s.now < (portAt s p).busyUntil ∨ (portAt s p).down = true ∨ s.pair.txIdle = true ∨ flowClocks s = false) : selectFrame p s = s := by
  refine if_pos ?_
  simpa using h

/-- The heads that the MAC of port p looks at. -/
def macHeads (p : Nat) (u : State) : List Head := fwHeads u p ++ flowHeads u p

/-- The guard band admits a head (R332). -/
def macAdmits (p : Nat) (u : State) (h : Head) : Bool := gateAdmits u (portAt u p) h.queue (nsQ (txNs u p (h.len + 4)))

/-- The head of queue q that may start. -/
def macBest (p : Nat) (u : State) (q : Nat) : Option Head := bestHead ((macHeads p u).filter (fun h => h.queue == q && macAdmits p u h))

/-- A head starts. -/
def macSend (p : Nat) (h : Head) (s : State) : State := match h.flow with | some (w, b) => startFrame p w b s | none => startFw p h.queue s

/-- What the MAC does once its last frame has ended and the claim gate has held what it holds. -/
def macChooses (p : Nat) (u : State) : State :=
  match [0, 1, 2].findSome? (macBest p u) with
  | some h => macSend p h (countDefers ((macHeads p u).filter (fun k => decide (k.queue ≤ h.queue) && !(macAdmits p u k))) u)
  | none =>
    if [3, 4, 5, 6, 7].all (fun q => (macBest p u q).isNone) then countDefers ((macHeads p u).filter (fun k => !(macAdmits p u k))) u
    else match dwrr (portAt u p) (macBest p u) 64 (portAt u p).pointer (portAt u p).arrivedAt (portAt u p).deficits with
      | some (h, q, a, d) => macSend p h (modPort (countDefers ((macHeads p u).filter (fun k => !(macAdmits p u k))) u) p (fun x => { x with pointer := q, arrivedAt := a, deficits := d }))
      | none => countDefers ((macHeads p u).filter (fun k => !(macAdmits p u k))) u

section
variable {p : Nat} {s u : State} {h : Head}

theorem selectFrame_ready (hbusy : (portAt s p).busyUntil ≤ s.now) (hdown : (portAt s p).down = false) (hidle : s.pair.txIdle = false) (hclocks : flowClocks s = true) :
    selectFrame p s = macChooses p (holdUnpassed p (endFrame p s)) := by
  unfold selectFrame
  rw [if_neg (by simp [hdown, hidle, hclocks, hbusy])]
  generalize holdUnpassed p (endFrame p s) = u
  have hbest : (fun q => bestHead ((fwHeads u p ++ flowHeads u p).filter (fun h => h.queue == q && gateAdmits u (portAt u p) h.queue (nsQ (txNs u p (h.len + 4)))))) = macBest p u := rfl
  unfold macChooses
  dsimp only
  simp only [hbest]
  cases [0, 1, 2].findSome? (macBest p u) <;> rfl

theorem macChooses_none (h : ∀ q, q < 8 → macBest p u q = none) : macChooses p u = countDefers ((macHeads p u).filter (fun k => !(macAdmits p u k))) u := by
  unfold macChooses
  have hfirst : [0, 1, 2].findSome? (macBest p u) = none := by simp [h]
  rw [hfirst]
  exact if_pos (by simp [h])

theorem macChooses_first (hh : [0, 1, 2].findSome? (macBest p u) = some h) :
    macChooses p u = macSend p h (countDefers ((macHeads p u).filter (fun k => decide (k.queue ≤ h.queue) && !(macAdmits p u k))) u) := by
  unfold macChooses
  rw [hh]

theorem macChooses_dwrr {q : Nat} {a : Bool} {d : FMap Nat} (hnone : [0, 1, 2].findSome? (macBest p u) = none) (hsome : ∃ k, 3 ≤ k ∧ k ≤ 7 ∧ macBest p u k ≠ none)
    (hd : dwrr (portAt u p) (macBest p u) 64 (portAt u p).pointer (portAt u p).arrivedAt (portAt u p).deficits = some (h, q, a, d)) :
    macChooses p u = macSend p h (modPort (countDefers ((macHeads p u).filter (fun k => !(macAdmits p u k))) u) p (fun x => { x with pointer := q, arrivedAt := a, deficits := d })) := by
  unfold macChooses
  rw [hnone]
  dsimp only
  rw [if_neg, hd]
  obtain ⟨k, h3, h7, hk⟩ := hsome
  intro hall
  have hmem : k ∈ [3, 4, 5, 6, 7] := by simp; omega
  exact hk (Option.isNone_iff_eq_none.mp (List.all_eq_true.mp hall k hmem))

end

/-! The best head of a queue: there is one where any is, and none is released earlier (R324). -/

/-- Of the best head so far and the next one, the one released first. -/
def earlier (b : Option Head) (h : Head) : Option Head := match b with | none => some h | some k => if h.release < k.release then some h else b

section
variable {l : List Head} {h k : Head}

theorem foldl_earlier (l : List Head) (k : Head) : ∃ h, l.foldl earlier (some k) = some h ∧ h ∈ k :: l ∧ ∀ j ∈ k :: l, h.release ≤ j.release := by
  induction l generalizing k with
  | nil => exact ⟨k, rfl, List.mem_singleton.mpr rfl, fun j hj => by rw [List.mem_singleton.mp hj]⟩
  | cons a l ih =>
    by_cases hlt : a.release < k.release
    · obtain ⟨h, hfold, hmem, hmin⟩ := ih a
      have hstep : earlier (some k) a = some a := if_pos hlt
      refine ⟨h, by rw [List.foldl_cons, hstep, hfold], List.mem_cons_of_mem _ hmem, fun j hj => ?_⟩
      obtain rfl | hj := List.mem_cons.mp hj
      · exact (hmin a List.mem_cons_self).trans hlt.le
      · exact hmin j hj
    · obtain ⟨h, hfold, hmem, hmin⟩ := ih k
      have hstep : earlier (some k) a = some k := if_neg hlt
      refine ⟨h, by rw [List.foldl_cons, hstep, hfold], ?_, fun j hj => ?_⟩
      · obtain rfl | hmem := List.mem_cons.mp hmem
        · exact List.mem_cons_self
        · exact List.mem_cons_of_mem _ (List.mem_cons_of_mem _ hmem)
      · obtain rfl | hj := List.mem_cons.mp hj
        · exact hmin _ List.mem_cons_self
        · obtain rfl | hj := List.mem_cons.mp hj
          · exact (hmin k List.mem_cons_self).trans (not_lt.mp hlt)
          · exact hmin j (List.mem_cons_of_mem _ hj)

theorem bestHead_some (hb : bestHead l = some h) : h ∈ l ∧ ∀ k ∈ l, h.release ≤ k.release := by
  cases l with
  | nil => exact absurd hb (by simp [bestHead])
  | cons a l =>
    obtain ⟨h', hfold, hspec⟩ := foldl_earlier l a
    obtain rfl := Option.some.inj (hb.symm.trans hfold)
    exact hspec

theorem bestHead_none (hb : bestHead l = none) : l = [] := by
  cases l with
  | nil => rfl
  | cons a l =>
    obtain ⟨h', hfold, -⟩ := foldl_earlier l a
    exact absurd (hb.symm.trans hfold) (by simp)

end

section
variable {p : Nat} {u : State} {h : Head}

theorem macBest_some {q : Nat} (hb : macBest p u q = some h) : h ∈ macHeads p u ∧ macAdmits p u h = true ∧ h.queue = q ∧ ∀ k ∈ macHeads p u, macAdmits p u k = true → k.queue = q → h.release ≤ k.release := by
  obtain ⟨hmem, hmin⟩ := bestHead_some hb
  obtain ⟨hmem, hadm⟩ := List.mem_filter.mp hmem
  obtain ⟨hq, hadm⟩ := Bool.and_eq_true_iff.mp hadm
  exact ⟨hmem, hadm, beq_iff_eq.mp hq, fun k hk ha hkq => hmin k (List.mem_filter.mpr ⟨hk, by simp [ha, hkq]⟩)⟩

theorem macBest_none {k : Head} (hb : macBest p u k.queue = none) (hk : k ∈ macHeads p u) : macAdmits p u k = false := by
  have := List.filter_eq_nil_iff.mp (bestHead_none hb) k hk
  simpa using this

theorem findSome?_three {α : Type} {f : Nat → Option α} {a : α} (h : [0, 1, 2].findSome? f = some a) : ∃ q, f q = some a ∧ ∀ j, j < q → f j = none := by
  cases h0 : f 0 with
  | some x => exact ⟨0, by simpa [h0] using h, by simp⟩
  | none =>
    cases h1 : f 1 with
    | some x => exact ⟨1, by simpa [h0, h1] using h, fun j hj => by obtain rfl : j = 0 := by omega
                                                                    exact h0⟩
    | none =>
      refine ⟨2, by simpa [h0, h1] using h, fun j hj => ?_⟩
      obtain rfl | rfl : j = 0 ∨ j = 1 := by omega
      · exact h0
      · exact h1

/-- The head chosen of queues 0 to 2 is of the first queue that has one admitted, and the earliest there (R324). -/
theorem first_spec (hh : [0, 1, 2].findSome? (macBest p u) = some h) : h ∈ macHeads p u ∧ macAdmits p u h = true ∧ (∀ k ∈ macHeads p u, macAdmits p u k = true → h.queue ≤ k.queue) ∧
    (∀ k ∈ macHeads p u, macAdmits p u k = true → k.queue = h.queue → h.release ≤ k.release) := by
  obtain ⟨q, hq, hbefore⟩ := findSome?_three hh
  obtain ⟨hmem, hadm, rfl, hmin⟩ := macBest_some hq
  refine ⟨hmem, hadm, fun k hk ha => ?_, hmin⟩
  by_contra hlt
  exact Bool.false_ne_true ((macBest_none (hbefore k.queue (not_le.mp hlt)) hk).symm.trans ha)

end

/-! A frame of a flow starts (R323 to R326, R335). -/

/-- Lateness of a group whose first frame starts is noted on its channel and its flow. -/
def lateNoted (p w : Nat) (g : Group) (s : State) : State :=
  if g.sent = 0 then (if g.release + nsQ 2000 < localQ (noteStart w g.serial p s) then modFlowOut (noteStart w g.serial p s) w (fun x => { x with lateGroups := inc32 x.lateGroups }) else noteStart w g.serial p s)
  else s

/-- A copy whose group of a serial sends one more frame that costs credit (R326). -/
def withStarted (s : State) (cost n : Nat) (c : FlowCopy) : FlowCopy :=
  { c with
    bucket := if c.bucket.rate = 0 then c.bucket else { c.bucket with credit := creditNow s c.bucket - cost, asOf := s.now },
    groups := c.groups.map (fun y => if y.serial = n then { y with passed := true, sent := y.sent + 1 } else y) }

/-- The frame of length len of group g occupies the wire of port p, and counts. -/
def frameOnWire (p w : Nat) (b : Bool) (g : Group) (len : Nat) (s : State) : State :=
  modPort (modFlowOut (modCopy w b (withStarted s ((len + (portAt s p).overhead) * 4000000) g.serial) s) w (fun x => { x with framesSent := inc32 x.framesSent })) p
    (fun x => { x with sending := some (w, b, g.serial), busyUntil := s.now + wireTicks s p len })

/-- The frame is seen, with its headers. -/
def showFrame (p w : Nat) (b : Bool) (g : Group) (len : Nat) (s : State) : State :=
  match (flowOutAt s w).map (fun x => frameHdr s x.cfg b g g.sent) with
  | some h => emit s (.frame p w b g.serial len h)
  | none => s

/-- What noting a start leaves as it is: all but the channels. -/
def beyondChans (s : State) : State := { s with chans := [] }

section
variable {p w : Nat} {b : Bool} {x : FlowOut} {s t : State} {g : Group}

theorem noteStart_beyond (w n p : Nat) (s : State) : beyondChans (noteStart w n p s) = beyondChans s := by
  unfold noteStart
  split
  · rfl
  · split <;> rfl

theorem flowOutAt_of_beyondChans (h : beyondChans t = beyondChans s) (u : Nat) : flowOutAt t u = flowOutAt s u := (congrArg (fun s : State => flowOutAt s u) h :)

/-- Noting a start changes a counter of the flow at most. -/
theorem lateNoted_flow (h : flowOutAt s w = some x) : ∃ z, flowOutAt (lateNoted p w g s) w = some z ∧ (∀ b, copyAt z b = copyAt x b) ∧ z.framesSent = x.framesSent := by
  have hnoted : flowOutAt (noteStart w g.serial p s) w = some x := (flowOutAt_of_beyondChans (noteStart_beyond ..) w).trans h
  unfold lateNoted
  split
  · split
    · exact ⟨_, (flowOutAt_modFlowOut ..).trans (congrArg (Option.map _) hnoted), fun b => by cases b <;> rfl, rfl⟩
    · exact ⟨x, hnoted, fun _ => rfl, rfl⟩
  · exact ⟨x, h, fun _ => rfl, rfl⟩

theorem lateNoted_flows {u : Nat} (h : u ≠ w) : flowOutAt (lateNoted p w g s) u = flowOutAt s u := by
  have hnoted := flowOutAt_of_beyondChans (noteStart_beyond w g.serial p s) u
  unfold lateNoted
  split
  · split
    · exact (flowOutAt_modFlowOut_ne h.symm).trans hnoted
    · exact hnoted
  · rfl

/-- All but the channels and the flows. -/
def aroundFlows (s : State) : State := { s with chans := [], net.flowsOut := [] }

theorem lateNoted_around (p w : Nat) (g : Group) (s : State) : aroundFlows (lateNoted p w g s) = aroundFlows s := by
  have hnoted : aroundFlows (noteStart w g.serial p s) = aroundFlows s := (congrArg aroundFlows (noteStart_beyond w g.serial p s) :)
  unfold lateNoted
  split
  · split
    · exact hnoted
    · exact hnoted
  · rfl

theorem now_of_aroundFlows (h : aroundFlows t = aroundFlows s) : t.now = s.now := (congrArg State.now h :)
theorem outbox_of_aroundFlows (h : aroundFlows t = aroundFlows s) : t.outbox = s.outbox := (congrArg State.outbox h :)
theorem portAt_of_aroundFlows (h : aroundFlows t = aroundFlows s) (q : Nat) : portAt t q = portAt s q := (congrArg (fun s : State => portAt s q) h :)
theorem wireTicks_of_aroundFlows (h : aroundFlows t = aroundFlows s) (q n : Nat) : wireTicks t q n = wireTicks s q n := (congrArg (fun s : State => wireTicks s q n) h :)
theorem creditNow_of_aroundFlows (h : aroundFlows t = aroundFlows s) (b : Bucket) : creditNow t b = creditNow s b := (congrArg (fun s : State => creditNow s b) h :)

/-- A flow whose copy has started one more frame. -/
def startedFlow (s : State) (b : Bool) (cost n : Nat) (x : FlowOut) : FlowOut := { setCopy b (withStarted s cost n) x with framesSent := inc32 x.framesSent }

theorem copyAt_startedFlow (s : State) (b : Bool) (cost n : Nat) (x : FlowOut) : copyAt (startedFlow s b cost n x) b = withStarted s cost n (copyAt x b) := by cases b <;> rfl

theorem flow_frameOnWire {len : Nat} (h : flowOutAt t w = some x) :
    flowOutAt (frameOnWire p w b g len t) w = some (startedFlow t b ((len + (portAt t p).overhead) * 4000000) g.serial x) := by
  refine (flowOutAt_modFlowOut ..).trans ?_
  rw [flowOutAt_modCopy h, Option.map_some, setCopy_framesSent]
  rfl

theorem startFrame_eq (hx : flowOutAt s w = some x) (hg : headGroup (copyAt x b) = some g) :
    ∃ k, startFrame p w b s = emit (frameOnWire p w b g (g.frames.getD g.sent 0) (lateNoted p w g s)) (.frame p w b g.serial (g.frames.getD g.sent 0) k) := by
  obtain ⟨z, hflow, -⟩ := lateNoted_flow (p := p) (g := g) hx
  have hafter := flow_frameOnWire (p := p) (b := b) (g := g) (len := g.frames.getD g.sent 0) hflow
  have hhead : (flowOutAt s w).bind (fun x => headGroup (copyAt x b)) = some g := by
    rw [hx]
    exact hg
  unfold startFrame
  rw [hhead]
  change ∃ k, showFrame p w b g (g.frames.getD g.sent 0) (frameOnWire p w b g (g.frames.getD g.sent 0) (lateNoted p w g s)) = _
  unfold showFrame
  rw [hafter]
  exact ⟨_, rfl⟩

theorem headGroup_mem {c : FlowCopy} (h : headGroup c = some g) : g ∈ c.groups := by
  unfold headGroup at h
  split at h
  · next a r hgroups =>
    rw [hgroups]
    split at h
    · exact Option.some.inj h ▸ List.mem_cons_self
    · cases h
  · cases h

theorem portAt_frameOnWire (p w : Nat) (b : Bool) (g : Group) (len : Nat) (s : State) :
    portAt (frameOnWire p w b g len s) p = { portAt s p with sending := some (w, b, g.serial), busyUntil := s.now + wireTicks s p len } := portAt_modPort ..

theorem portAt_frameOnWire_ne {q len : Nat} (h : q ≠ p) : portAt (frameOnWire p w b g len s) q = portAt s q := portAt_modPort_ne h.symm

theorem flow_frameOnWire_ne {u len : Nat} (h : u ≠ w) : flowOutAt (frameOnWire p w b g len s) u = flowOutAt s u :=
  (flowOutAt_modFlowOut_ne (g := fun x => { x with framesSent := inc32 x.framesSent }) h.symm).trans (flowOutAt_modFlowOut_ne h.symm)

/-- A started frame: its group, its flow's counters and bucket, its port and the wire. -/
theorem startFrame_starts (hx : flowOutAt s w = some x) (hg : headGroup (copyAt x b) = some g) :
    ∃ y h k, flowOutAt (startFrame p w b s) w = some y ∧ h ∈ (copyAt y b).groups ∧ h.serial = g.serial ∧ h.sent = g.sent + 1 ∧ h.passed = true ∧ h.frames = g.frames ∧ y.framesSent = inc32 x.framesSent ∧
      (portAt (startFrame p w b s) p).sending = some (w, b, g.serial) ∧ (portAt (startFrame p w b s) p).busyUntil = s.now + wireTicks s p (g.frames.getD g.sent 0) ∧
      (∀ q, q ≠ p → portAt (startFrame p w b s) q = portAt s q) ∧ (startFrame p w b s).outbox = .frame p w b g.serial (g.frames.getD g.sent 0) k :: s.outbox ∧
      ((copyAt x b).bucket.rate ≠ 0 → (copyAt y b).bucket.credit = creditNow s (copyAt x b).bucket - (g.frames.getD g.sent 0 + (portAt s p).overhead) * 4000000) ∧
      (∀ v, v ≠ w → flowOutAt (startFrame p w b s) v = flowOutAt s v) := by
  have haround := lateNoted_around p w g s
  obtain ⟨k, heq⟩ := startFrame_eq (p := p) hx hg
  obtain ⟨z, hflow, hsame, hsent⟩ := lateNoted_flow (p := p) (g := g) hx
  have hothers := fun v (hv : v ≠ w) => lateNoted_flows (p := p) (g := g) (s := s) hv
  rw [heq]
  generalize hlen : g.frames.getD g.sent 0 = len
  generalize lateNoted p w g s = t at *
  have hport : portAt (emit (frameOnWire p w b g len t) (.frame p w b g.serial len k)) p = _ := portAt_frameOnWire p w b g len t
  have hflow' : flowOutAt (emit (frameOnWire p w b g len t) (.frame p w b g.serial len k)) w = _ := flow_frameOnWire hflow
  have hcopy := copyAt_startedFlow t b ((len + (portAt t p).overhead) * 4000000) g.serial z
  rw [hsame] at hcopy
  refine ⟨_, { g with passed := true, sent := g.sent + 1 }, k, hflow', ?_, rfl, rfl, rfl, rfl, congrArg inc32 hsent, ?_, ?_, fun q hq => ?_, ?_, fun hrate => ?_, fun v hv => ?_⟩
  · rw [hcopy]
    exact List.mem_map.mpr ⟨g, headGroup_mem hg, if_pos rfl⟩
  · rw [hport]
  · rw [hport, now_of_aroundFlows haround, wireTicks_of_aroundFlows haround]
  · exact (portAt_frameOnWire_ne hq).trans (portAt_of_aroundFlows haround q)
  · rw [← outbox_of_aroundFlows haround]
    rfl
  · rw [hcopy]
    refine (congrArg Bucket.credit (if_neg hrate)).trans ?_
    dsimp only
    rw [creditNow_of_aroundFlows haround, portAt_of_aroundFlows haround p]
  · exact (flow_frameOnWire_ne hv).trans (hothers v hv)

end

/-! A frame of the firmware or of the transparent clock starts (R322, R354). -/

/-- The firmware's frame f leaves port p's queues. -/
def fwTaken (p : Nat) (f : FwFrame) (s : State) : State := modPort s p (fun x => { x with fwQueue := x.fwQueue.erase f })

/-- It occupies the wire. -/
def fwOnWire (p q : Nat) (f : FwFrame) (s : State) : State := emit (modPort s p (fun x => { x with busyUntil := s.now + wireTicks s p f.len })) (.fwFrame p q f.len)

/-- The transparent clock's frame leaves with its residence since instant t. -/
def fwForwarded (p q : Nat) (f : FwFrame) (t : Instant) (s : State) : State :=
  f.ptp.elim (fwOnWire p q f { s with time.ptp.tcForwarded := inc32 s.time.ptp.tcForwarded })
    (fun m => emit (fwOnWire p q f { s with time.ptp.tcForwarded := inc32 s.time.ptp.tcForwarded }) (forwarded p ((s.time.local' : Int) - (t : Int)) m))

section
variable {p q : Nat} {s : State} {f : FwFrame} {t : Instant}

theorem startFw_own (hf : (portAt s p).fwQueue.find? (fun f => f.queue == q) = some f) (hi : f.ingress = none) : startFw p q s = fwOnWire p q f (fwTaken p f s) := by
  unfold startFw
  rw [hf]
  dsimp only
  rw [hi]
  rfl

theorem startFw_late (hf : (portAt s p).fwQueue.find? (fun f => f.queue == q) = some f) (hi : f.ingress = some t) (hlate : t + nsInstant 1000000 < s.time.local') :
    startFw p q s = { fwTaken p f s with time.ptp.tcDiscards := inc32 s.time.ptp.tcDiscards } := by
  unfold startFw
  rw [hf]
  dsimp only
  rw [hi]
  exact if_pos hlate

theorem startFw_forwards (hf : (portAt s p).fwQueue.find? (fun f => f.queue == q) = some f) (hi : f.ingress = some t) (htime : s.time.local' ≤ t + nsInstant 1000000) :
    startFw p q s = fwForwarded p q f t (fwTaken p f s) := by
  unfold startFw
  rw [hf]
  dsimp only
  rw [hi]
  dsimp only
  rw [if_neg (show ¬ t + nsInstant 1000000 < (modPort s p _).time.local' from Nat.not_lt.mpr htime)]
  unfold fwForwarded
  cases f.ptp <;> rfl

/-- What a frame on the wire leaves in its port's queues, in the other ports and in the flows. -/
theorem fwOnWire_net (p q : Nat) (f : FwFrame) (s : State) : (portAt (fwOnWire p q f s) p).fwQueue = (portAt s p).fwQueue ∧ (portAt (fwOnWire p q f s) p).busyUntil = s.now + wireTicks s p f.len ∧
    (fwOnWire p q f s).net.flowsOut = s.net.flowsOut ∧ ∀ j, j ≠ p → portAt (fwOnWire p q f s) j = portAt s j := by
  have hport : portAt (fwOnWire p q f s) p = { portAt s p with busyUntil := s.now + wireTicks s p f.len } :=
    portAt_modPort s p (fun x => { x with busyUntil := s.now + wireTicks s p f.len })
  rw [hport]
  exact ⟨rfl, rfl, rfl, fun j hj => portAt_modPort_ne (s := s) (g := fun x => { x with busyUntil := s.now + wireTicks s p f.len }) hj.symm⟩

theorem fwForwarded_net (p q : Nat) (f : FwFrame) (t : Instant) (s : State) : (fwForwarded p q f t s).net = (fwOnWire p q f s).net := by
  unfold fwForwarded
  cases f.ptp <;> rfl

theorem fwFrame_mem_fwForwarded (p q : Nat) (f : FwFrame) (t : Instant) (s : State) : .fwFrame p q f.len ∈ (fwForwarded p q f t s).outbox := by
  unfold fwForwarded
  cases f.ptp with
  | none => exact List.mem_cons_self
  | some m => exact List.mem_cons_of_mem _ List.mem_cons_self

theorem tcForwarded_fwForwarded (p q : Nat) (f : FwFrame) (t : Instant) (s : State) : (fwForwarded p q f t s).time.ptp.tcForwarded = inc32 s.time.ptp.tcForwarded := by
  unfold fwForwarded
  cases f.ptp <;> rfl

theorem forwarded_mem_fwForwarded {m : PtpMsg} (hm : f.ptp = some m) : forwarded p ((s.time.local' : Int) - (t : Int)) m ∈ (fwForwarded p q f t s).outbox := by
  unfold fwForwarded
  rw [hm]
  exact List.mem_cons_self

theorem portAt_fwTaken (p : Nat) (f : FwFrame) (s : State) : portAt (fwTaken p f s) p = { portAt s p with fwQueue := (portAt s p).fwQueue.erase f } := portAt_modPort ..
theorem portAt_fwTaken_ne {j : Nat} (h : j ≠ p) : portAt (fwTaken p f s) j = portAt s j := portAt_modPort_ne h.symm

theorem wireTicks_fwTaken (p n : Nat) (f : FwFrame) (s : State) : wireTicks (fwTaken p f s) p n = wireTicks s p n := by
  unfold wireTicks
  rw [portAt_fwTaken]

/-- A frame whose residence is at most 1 ms, or that is the firmware's own, is on the wire. -/
theorem startFw_leaves (hf : (portAt s p).fwQueue.find? (fun f => f.queue == q) = some f) (h : f.ingress = none ∨ ∃ t, f.ingress = some t ∧ s.time.local' ≤ t + nsInstant 1000000) :
    (startFw p q s).net = (fwOnWire p q f (fwTaken p f s)).net ∧ .fwFrame p q f.len ∈ (startFw p q s).outbox := by
  obtain hi | ⟨t, hi, htime⟩ := h
  · rw [startFw_own hf hi]
    exact ⟨rfl, List.mem_cons_self⟩
  · rw [startFw_forwards hf hi htime]
    exact ⟨fwForwarded_net .., fwFrame_mem_fwForwarded ..⟩

theorem startFw_busy (hf : (portAt s p).fwQueue.find? (fun f => f.queue == q) = some f) (h : f.ingress = none ∨ ∃ t, f.ingress = some t ∧ s.time.local' ≤ t + nsInstant 1000000) :
    (portAt (startFw p q s) p).busyUntil = s.now + wireTicks s p f.len := by
  obtain ⟨hnet, -⟩ := startFw_leaves hf h
  obtain ⟨-, hbusy, -⟩ := fwOnWire_net p q f (fwTaken p f s)
  rw [portAt, hnet]
  refine hbusy.trans ?_
  rw [wireTicks_fwTaken]
  rfl

/-- Whether it leaves or not, the frame is out of its queue, and flows and other ports are as they were. -/
theorem startFw_net (hf : (portAt s p).fwQueue.find? (fun f => f.queue == q) = some f) :
    (portAt (startFw p q s) p).fwQueue = (portAt s p).fwQueue.erase f ∧ (startFw p q s).net.flowsOut = s.net.flowsOut ∧ ∀ j, j ≠ p → portAt (startFw p q s) j = portAt s j := by
  by_cases h : f.ingress = none ∨ ∃ t, f.ingress = some t ∧ s.time.local' ≤ t + nsInstant 1000000
  · obtain ⟨hnet, -⟩ := startFw_leaves hf h
    obtain ⟨hqueue, -, hflows, hports⟩ := fwOnWire_net p q f (fwTaken p f s)
    unfold portAt
    rw [hnet]
    refine ⟨hqueue.trans ?_, hflows, fun j hj => (hports j hj).trans (portAt_fwTaken_ne hj)⟩
    rw [portAt_fwTaken]
    rfl
  · obtain ⟨t, hi⟩ := Option.ne_none_iff_exists'.mp (fun hi => h (.inl hi))
    rw [startFw_late hf hi (Nat.not_le.mp fun htime => h (.inr ⟨t, hi, htime⟩))]
    exact ⟨congrArg PortSt.fwQueue (portAt_fwTaken ..), rfl, fun j hj => portAt_fwTaken_ne hj⟩

end

theorem egressAfter_egressing {dt : Nat} {s : State} (h : egressing s = true) (k : State → State) : egressAfter dt s k = k (advance dt s) := if_pos h

/-- Settles O47: releases by where the group goes, the MAC's choice by its heads, then each start. -/
theorem groupsAreReleasedAndFramesStart : Obligations.GroupsAreReleasedAndFramesStart := by
  unfold Obligations.GroupsAreReleasedAndFramesStart
  refine ⟨?still, ?release, ?poisoned, ?substitute, ?busy, fun p s hs hc => by rw [endFrame_idle hs, holdUnpassed_claimed hc], ?select, fun p w b s x g hx hg _ => startFrame_starts hx hg, ?firmware⟩
  case still =>
    intro dt w b n s he h
    refine congrArg Host.Outcome.next ((egressAfter_egressing he _).trans (releaseGroup_still fun x hx => ?_))
    exact h x hx
  case release =>
    intro dt w b s x g he hc hx hk hb hg hone hdue
    have hfind := find?_serial (List.mem_of_find?_eq_some hg) hone
    obtain ⟨y, hy⟩ := passGroup_only (c := x.cfg) (n := g.frames.length) (g := numbered (copyAt x b) g) (flow_numberedState (s := advance dt s) (b := b) (g := g) hx)
    refine ⟨_, y, congrArg Host.Outcome.next ((egressAfter_egressing he _).trans ?_), hy.flow, hy.cfg.trans (setCopy_cfg ..), hy.other.trans (copyAt_setCopy_other ..),
      fun u hu => (hy.flows u hu).trans (flowOutAt_modFlowOut_ne hu.symm), hy.chans, hy.outs, fun hk1 => ?_,
      gate_releases (s := advance dt s) hx hfind hy.flow, gate_holds (s := advance dt s) hx hy.flow, disabled_discards (s := advance dt s) hx hy.flow, down_discards (s := advance dt s) hx hy.flow,
      unresolved_discards (s := advance dt s) hx hy.flow⟩
    · exact (releaseGroup_due (poison := none) (s := advance dt s) hx hk hb hc hg hdue).trans (releaseSerial_found (s := advance dt s) hx hfind)
    · rw [hy.nextSeq, numberedFlow, copyAt_setCopy, numberGroup_nextSeq hfind hk1]
  case poisoned =>
    intro dt w b n s x g he hc hx hk hb hg hdue
    refine ⟨fun h => congrArg Host.Outcome.next ?_, fun c q hslice hsub hmark => congrArg Host.Outcome.next ?_⟩
    · rw [egressAfter_egressing he, egressAfter_egressing he]
      exact releaseGroup_unpoisoned (s := advance dt s) hx hk hb hc hg hdue h
    · rw [egressAfter_egressing he, egressAfter_egressing (s := poisonSlice c q n (advance dt s)) (egressing_poisonSlice.trans he), advance_zero]
      exact releaseGroup_poisoned (s := advance dt s) hx hk hb hc hg hdue hslice hsub hmark
  case substitute =>
    intro c q n s x hx
    obtain ⟨y, hy, hcount, hidr⟩ := chanAt_poisonSlice (q := q) (n := n) hx
    exact ⟨y, hy, hcount, hidr, poisonSlice_mem .., fun d hd => chanAt_poisonSlice_ne hd⟩
  case busy => exact fun dt p s he h => congrArg Host.Outcome.next ((egressAfter_egressing he _).trans (selectFrame_busy h))
  case select =>
    rintro dt p s u x l adm best he hc hbusy hdown hidle rfl rfl rfl hadm hbest
    obtain rfl : adm = macAdmits p.val (holdUnpassed p.val (endFrame p.val (advance dt s))) := funext hadm
    obtain rfl : best = macBest p.val (holdUnpassed p.val (endFrame p.val (advance dt s))) := funext hbest
    have hexec : exec (.macFrameSelect dt p) s = .next (macChooses p.val (holdUnpassed p.val (endFrame p.val (advance dt s)))) :=
      congrArg Host.Outcome.next ((egressAfter_egressing he _).trans (selectFrame_ready (s := advance dt s) hbusy hdown hidle hc))
    rw [hexec]
    refine ⟨fun h => congrArg Host.Outcome.next (macChooses_none h), ?_, ?_⟩
    · rintro h v hh rfl
      exact ⟨congrArg Host.Outcome.next (macChooses_first hh), first_spec hh⟩
    · rintro h q a d v hnone hsome hd rfl
      exact congrArg Host.Outcome.next (macChooses_dwrr hnone hsome hd)
  case firmware =>
    intro p q s f hf
    obtain ⟨hqueue, hflows, hports⟩ := startFw_net hf
    refine ⟨hqueue, hflows, hports, fun h => ⟨startFw_busy hf h, (startFw_leaves hf h).2⟩, fun t hi htime => ?_, fun t hi hlate => ?_⟩
    · rw [startFw_forwards hf hi htime]
      exact ⟨tcForwarded_fwForwarded .., fun m hm => forwarded_mem_fwForwarded (s := fwTaken p f s) hm⟩
    · rw [startFw_late hf hi hlate]
      exact ⟨rfl, rfl, (congrArg PortSt.busyUntil (portAt_fwTaken p f s) :)⟩

end Sys2Proof.EgressFrames

/-! PROOFS. Frames of the Causeway, as the member that receives them takes them (R316, R391 to R398, R402, R406, R411, R412). -/

namespace Sys2Proof.CausewayFrames

open Sys2Proof.Machine Sys2Proof.Laws Sys2Proof.HostAccess Sys2Proof.Architecture Sys2Proof.CommandProtocol Sys2Proof.MemorySystem Sys2Proof.EgressFrames

/-! What a member that the Causeway reaches acts on. -/

section
variable {s : State}

/-- The condition under which a standby ignores a frame. -/
theorem unreached_of (h : isStandby s = false ∨ cwLive s = false) : (!(isStandby s) || !(cwLive s)) = true := by
  obtain h | h := h <;> simp [h]

theorem reached_of (hs : isStandby s = true) (hl : cwLive s = true) : ¬ (!(isStandby s) || !(cwLive s)) = true := by simp [hs, hl]

end

/-! INPUT (R391). -/

section
variable {s : State} {e : InputEntry} {c d n : Nat} {t x y : Instant}

theorem takeInput_unreached (h : isStandby s = false ∨ cwLive s = false) : takeInput e s = s := if_pos (unreached_of h)

/-- An input that is neither a reference instant nor a decoder's stamp is kept. -/
theorem takeInput_kept (hs : isStandby s = true) (hl : cwLive s = true) (ht : ∀ c o n t, e ≠ .tref c o n t) (hd : ∀ d n x y, e ≠ .decStamp d n x y) :
    takeInput e s = { s with pair.inputs := s.pair.inputs ++ [e] } := by
  refine (if_neg (reached_of hs hl)).trans ?_
  cases e with
  | tref c o n t => exact absurd rfl (ht c o n t)
  | decStamp d n x y => exact absurd rfl (hd d n x y)
  | verdict | liveLine | contentTime | audioBus => rfl

theorem takeInput_ownTref (hs : isStandby s = true) (hl : cwLive s = true) : takeInput (.tref c true n t) s = s := if_neg (reached_of hs hl)

/-- How a joining decoder takes the holder's serial of the access unit that began nearest to x. -/
def serialTaken (n : Nat) (x : Instant) (y : Decoder) : Decoder :=
  match y.aus with
  | a :: r =>
    let best := r.foldl (fun (b : AuWait) (u : AuWait) => if ((u.first : Int) - (x : Int)).natAbs < ((b.first : Int) - (x : Int)).natAbs then u else b) a
    { y with aus := y.aus.map (fun u => { u with serial := u.serial + n - best.serial }), auSerial := y.auSerial + n - best.serial }
  | [] => { y with auSerial := if y.part.elim false (fun f => decide (((f.first : Int) - (x : Int)).natAbs < 1000000 * nsUnit)) then n else n + 1 }

theorem takeInput_decStamp (hs : isStandby s = true) (hl : cwLive s = true) : takeInput (.decStamp d n x y) s =
    if s.pair.joinPending.contains (3, d) then modDec { s with pair.inputs := s.pair.inputs ++ [.decStamp d n x y] } d (serialTaken n x) else { s with pair.inputs := s.pair.inputs ++ [.decStamp d n x y] } :=
  if_neg (reached_of hs hl)

theorem serialTaken_empty {z : Decoder} (ha : z.aus = []) (hp : z.part = none) : serialTaken n x z = { z with auSerial := n + 1 } := by
  unfold serialTaken
  rw [ha]
  dsimp only
  rw [hp]
  rfl

theorem takeInput_decStamp_keeps (hs : isStandby s = true) (hl : cwLive s = true) : (takeInput (.decStamp d n x y) s).pair.inputs = s.pair.inputs ++ [.decStamp d n x y] ∧
    (takeInput (.decStamp d n x y) s).chans = s.chans ∧ (takeInput (.decStamp d n x y) s).outs = s.outs ∧ ∀ k, k ≠ d → decAt (takeInput (.decStamp d n x y) s) k = decAt s k := by
  rw [takeInput_decStamp hs hl]
  split
  · exact ⟨rfl, rfl, rfl, fun k hk => fmap_get?_modify_ne hk.symm⟩
  · exact ⟨rfl, rfl, rfl, fun _ _ => rfl⟩

theorem takeInput_decStamp_joins (hs : isStandby s = true) (hl : cwLive s = true) (hj : s.pair.joinPending.contains (3, d) = true) {z : Decoder} (hz : decAt s d = some z) (ha : z.aus = [])
    (hp : z.part = none) : decAt (takeInput (.decStamp d n x y) s) d = some { z with auSerial := n + 1 } := by
  rw [takeInput_decStamp hs hl, if_pos hj, ← serialTaken_empty (x := x) ha hp]
  exact (fmap_get?_modify_self ..).trans (congrArg (Option.map _) hz)

/-- A channel as picture n's reference instant t finds it: picture 0 of one that follows the holder starts there. -/
def startedBy (n : Nat) (t : Instant) (x : Chan) : Chan := if n = 0 ∧ x.run.byHolder = some none then { x with run.byHolder := some (some t) } else x

theorem takeInput_trefUnused (hs : isStandby s = true) (hl : cwLive s = true) (h : ∀ x, chanAt s c = some x → x.cfg = none) : takeInput (.tref c false n t) s = s := by
  refine (if_neg (reached_of hs hl)).trans ?_
  dsimp only
  cases hx : chanAt s c with
  | none => rfl
  | some x =>
    dsimp only
    rw [h x hx]

/-- The reference instant t enters the queue of a channel with configuration g whose next picture is n (R391). -/
def trefTaken (c n : Nat) (t : Instant) (g : ChanCfg) (x : Chan) (s : State) : State :=
  if g.srcKind ≠ 2 ∧ coding x ∧ x.run.nextPic + (dropEarly x).input.pending.length = n then
    modChan s c (fun x => { x with input := { x.input with pending := x.input.pending ++ [(t, if x.input.status = 0 then some (nearestPic s g t) else none)] } })
  else s

theorem takeInput_tref {x : Chan} {g : ChanCfg} (hs : isStandby s = true) (hl : cwLive s = true) (hx : chanAt s c = some x) (hg : x.cfg = some g) :
    takeInput (.tref c false n t) s = trefTaken c n t g (startedBy n t x) (setChan s c (startedBy n t x)) := by
  refine (if_neg (reached_of hs hl)).trans ?_
  dsimp only
  rw [hx]
  change (match x.cfg with | some g => trefTaken c n t g (startedBy n t x) (setChan s c (startedBy n t x)) | none => s) = _
  rw [hg]

end

/-! REPAIR_REQ and REPAIR_DATA (R398). -/

section
variable {s : State} {r : RepairLine} {p : LivePic}

/-- The head of an answer to a repair request, held or missed. -/
def repairHead (r : RepairLine) (st : Nat) : List Byte := le 1 r.sdi.toNat ++ le 1 st ++ le 2 r.source ++ le 2 r.line ++ zeros 2 ++ le 8 r.picture

theorem answerRepair_miss (h : (repairPic s r).filter (fun p => !p.formatError && !(p.bad.contains r.line) && p.done.has r.line) = none) :
    answerRepair r s = cwSend 8 (repairHead r 1 ++ zeros 8) s := by
  unfold answerRepair
  rw [h]
  rfl

theorem answerRepair_parts (h : (repairPic s r).filter (fun p => !p.formatError && !(p.bad.contains r.line) && p.done.has r.line) = some p) :
    answerRepair r s = (List.range (max 1 (ceilDiv (lineBytes s r p).length 2024))).foldl
      (fun t i => cwSend 8 (repairHead r 0 ++ le 4 (2024 * i) ++ le 4 (lineBytes s r p).length ++ ((lineBytes s r p).drop (2024 * i)).take 2024) t) s := by
  unfold answerRepair
  rw [h]
  rfl

/-- A line of at most 2,024 bytes goes in one part. -/
theorem answerRepair_whole (hp : repairPic s r = some p) (hf : p.formatError = false) (hb : r.line ∉ p.bad) (hd : p.done.has r.line = true) (hlen : (lineBytes s r p).length ≤ 2024) :
    answerRepair r s = cwSend 8 (repairHead r 0 ++ (le 4 0 ++ le 4 (lineBytes s r p).length ++ lineBytes s r p)) s := by
  have hheld : (repairPic s r).filter (fun p => !p.formatError && !(p.bad.contains r.line) && p.done.has r.line) = some p := by
    rw [hp]
    simp [hf, hb, hd]
  have hone : max 1 (ceilDiv (lineBytes s r p).length 2024) = 1 := by
    unfold ceilDiv
    omega
  rw [answerRepair_parts hheld, hone]
  simp only [List.range_one, List.foldl_cons, List.foldl_nil, Nat.mul_zero, List.drop_zero, List.take_of_length_le hlen, List.append_assoc]

/-- What frames to the partner leave as it is, of the pair and of the input flows. -/
def beyondFrames (s : State) : Pair × FMap Chan × FMap FlowIn := (s.pair, s.chans, s.net.flowsIn)

theorem beyondFrames_cwSend (type : Nat) (b : List Byte) (s : State) : beyondFrames (cwSend type b s) = beyondFrames s := (congrArg beyondFrames (besideGroups_cwSend type b s) :)

theorem beyondFrames_answerRepair (r : RepairLine) (s : State) : beyondFrames (answerRepair r s) = beyondFrames s := by
  cases h : (repairPic s r).filter (fun p => !p.formatError && !(p.bad.contains r.line) && p.done.has r.line) with
  | none => rw [answerRepair_miss h, beyondFrames_cwSend]
  | some p =>
    rw [answerRepair_parts h]
    exact foldl_view (fun t _ => beyondFrames_cwSend _ _ t) _ s

/-- The own request r has ended. -/
def requestEnded (r : RepairLine) (s : State) : State :=
  { s with pair.repairs := s.pair.repairs.filter (fun x => x != r), pair.repairParts := s.pair.repairParts.filter (fun x => x.1 != r) }

/-- What has come of line r once a part at an offset has. -/
def partsJoined (s : State) (r : RepairLine) (offset : Nat) (data : List Byte) : List Byte := ((s.pair.repairParts.find? (fun x => x.1 == r)).elim [] (fun x => x.2)).take offset ++ data

/-- A picture with a line repaired. -/
def lineRepaired (k line : Nat) (now : Instant) (seg : RowSeg) (q : LivePic) : LivePic :=
  if q.number = k then { q with done := q.done.set line now, bad := q.bad.filter (fun n => n != line), segs := q.segs.filter (fun g => g.row != line) ++ [seg] } else q

variable {held : Bool} {offset total : Nat} {data : List Byte}

theorem takeRepair_unasked (h : s.pair.repairs.contains r = false) : takeRepair r held offset total data s = s := if_pos (by rw [h]; rfl)

theorem takeRepair_miss (h : s.pair.repairs.contains r = true) : takeRepair r false offset total data s = requestEnded r { s with pair.repairMisses := inc32 s.pair.repairMisses } :=
  if_neg (by rw [h]; decide)

theorem takeRepair_held (h : s.pair.repairs.contains r = true) : takeRepair r true offset total data s =
    if (partsJoined s r offset data).length < total then { s with pair.repairParts := s.pair.repairParts.filter (fun x => x.1 != r) ++ [(r, partsJoined s r offset data)] }
    else match repairPic s r with
      | none => requestEnded r s
      | some p => modPics r.sdi r.source (fun ps => ps.map (lineRepaired p.number r.line s.time.local' (lineOfBytes s r ((partsJoined s r offset data).take total))))
          (requestEnded r { s with pair.repairedLines := inc32 s.pair.repairedLines }) := by
  refine (if_neg (by rw [h]; decide)).trans ((if_neg (by decide)).trans ?_)
  rfl

theorem pair_modPics (sdi : Bool) (n : Nat) (g : List LivePic → List LivePic) (s : State) : (modPics sdi n g s).pair = s.pair := by
  unfold modPics
  split <;> rfl

theorem srcPics_modPics (sdi : Bool) (n : Nat) {g : List LivePic → List LivePic} (hg : g [] = []) (s : State) : srcPics (modPics sdi n g s) sdi n = g (srcPics s sdi n) := by
  unfold modPics srcPics
  cases sdi with
  | true => simp only [if_true, laneAt_modLane]
  | false =>
    have hflow : flowInAt (modFlowIn s n (fun x => { x with pics := g x.pics })) n = (flowInAt s n).map (fun x => { x with pics := g x.pics }) := fmap_get?_modify_self ..
    simp only [Bool.false_eq_true, if_false, hflow]
    cases flowInAt s n with
    | none => exact hg.symm
    | some x => rfl

/-- The line of the picture numbered k is whole at this instant. -/
theorem lineRepaired_done {k line : Nat} {now : Instant} {seg : RowSeg} {ps : List LivePic} {y : LivePic} (hy : y ∈ ps.map (lineRepaired k line now seg)) (hk : y.number = k) :
    y.done.get? line = some now ∧ line ∉ y.bad := by
  obtain ⟨q, -, rfl⟩ := List.mem_map.mp hy
  unfold lineRepaired at hk ⊢
  split
  · exact ⟨fmap_get?_set_self .., fun h => by simpa using (List.mem_filter.mp h).2⟩
  · next hne =>
    rw [if_neg hne] at hk
    exact absurd hk hne

end

/-! GROUP_END (R394). -/

section
variable {s : State}

theorem besideResets_chanEnd (c : Nat) (s : State) : besideResets (chanEnd c s) = besideResets s := by
  have hmark : ∀ (b : Bool) (t : State), besideResets (if b then t else emit t (.eos c)) = besideResets t := fun b t => by
    split <;> rfl
  unfold chanEnd
  split
  · rfl
  · dsimp only
    split
    · exact (settleResets_resets _).rest.trans (hmark _ _)
    · exact (endWaiters_ends c _).resets.rest.trans (hmark _ _)

theorem besideResets_settleSlices (c : Nat) (s : State) : besideResets (settleSlices c s) = besideResets s := by
  have hsent : ∀ (t : State) (l : List SliceQ), besideResets (if isStandby t then t else l.foldl (fun s q => emit s (.slice c q.picture q.slice q.check)) t) = besideResets t := fun t l => by
    split
    · rfl
    · exact foldl_view (fun s (q : SliceQ) => (rfl : besideResets (emit s (.slice c q.picture q.slice q.check)) = besideResets s)) l t
  unfold settleSlices
  split
  · rfl
  · dsimp only
    split
    · rfl
    · split
      · exact (besideResets_chanEnd c _).trans (hsent _ _)
      · exact hsent _ _

/-- Slices that leave their queues leave the flows, and what the pair knows of the groups. -/
theorem besideResets_settleAllSlices (s : State) : besideResets (settleAllSlices s) = besideResets s := foldl_view (fun s (e : Nat × Chan) => besideResets_settleSlices e.1 s) _ s

theorem net_of_besideResets {t : State} (h : besideResets t = besideResets s) : t.net = s.net := (congrArg State.net h :)
theorem groupEnds_of_besideResets {t : State} (h : besideResets t = besideResets s) : t.pair.groupEnds = s.pair.groupEnds := (congrArg (fun s : State => s.pair.groupEnds) h :)

/-- What a map keeps, its keys find as before, in whatever order they stand. -/
theorem fmap_get?_keep_of {α : Type} {m : FMap α} {k : Nat} {v : α} {p : Nat → α → Bool} (h : FMap.get? m k = some v) (hp : p k v = true) : FMap.get? (FMap.keep p m) k = some v := by
  induction m with
  | nil => cases h
  | cons e r ih =>
    obtain ⟨j, w⟩ := e
    by_cases hj : j = k
    · subst hj
      obtain rfl : w = v := by simpa [FMap.get?] using h
      simp [FMap.keep, FMap.get?, hp]
    · have hrest : FMap.get? r k = some v := by simpa [FMap.get?, hj] using h
      have hkept := ih hrest
      by_cases hw : p j w = true
      · simpa [FMap.keep, FMap.get?, hw, hj] using hkept
      · simpa [FMap.keep, FMap.get?, hw] using hkept

theorem flowOutAt_reapFlows {w : Nat} {x : FlowOut} (h : flowOutAt s w = some x) (hr : x.removed = false) : flowOutAt (reapFlows s) w = some x :=
  fmap_get?_keep_of (p := fun _ (x : FlowOut) => !(x.removed && x.copyA.groups.isEmpty && x.copyB.groups.isEmpty)) h (by simp [hr])

/-- A copy without the groups through a serial. -/
def afterSerial (n : Nat) (c : FlowCopy) : FlowCopy :=
  { c with groups := c.groups.filter (fun g => decide (n < g.serial)), held := c.held.filter (fun g => decide (n < g.serial)), kept := c.kept.filter (fun g => decide (n < g.serial)) }

/-- The copy's groups through serial n are gone, and a joiner numbers on from there. -/
def groupsEnded (w : Nat) (b : Bool) (n : Nat) (s : State) : State :=
  if (modCopy w b (afterSerial n) s).pair.st = .resyncing then modFlowOut (modCopy w b (afterSerial n) s) w (fun x => { x with nextSerial := max x.nextSerial (n + 1) })
  else modCopy w b (afterSerial n) s

/-- The standby knows that the copy's groups through serial n have ended. -/
def groupEndKnown (w : Nat) (b : Bool) (n : Nat) (s : State) : State :=
  { s with pair.groupEnds := s.pair.groupEnds.set (2 * w + b.toNat) (max n (s.pair.groupEnds.getD (2 * w + b.toNat) n)) }

variable {w n : Nat} {b : Bool} {x : FlowOut}

theorem takeGroupEnd_unreached (h : isStandby s = false ∨ cwLive s = false) : takeGroupEnd w b n s = s := if_pos (unreached_of h)

theorem takeGroupEnd_reached (hs : isStandby s = true) (hl : cwLive s = true) : takeGroupEnd w b n s = settleAllSlices (reapFlows (groupsEnded w b n (groupEndKnown w b n s))) :=
  if_neg (reached_of hs hl)

theorem groupEnds_groupsEnded (w : Nat) (b : Bool) (n : Nat) (s : State) : (groupsEnded w b n s).pair.groupEnds = s.pair.groupEnds := by
  unfold groupsEnded
  split <;> rfl

theorem flow_groupsEnded (h : flowOutAt s w = some x) :
    flowOutAt (groupsEnded w b n s) w = some { setCopy b (afterSerial n) x with nextSerial := if s.pair.st = .resyncing then max x.nextSerial (n + 1) else x.nextSerial } := by
  have hcopy : flowOutAt (modCopy w b (afterSerial n) s) w = some (setCopy b (afterSerial n) x) := flowOutAt_modCopy h
  have hserial : (setCopy b (afterSerial n) x).nextSerial = x.nextSerial := by cases b <;> rfl
  unfold groupsEnded
  by_cases hst : s.pair.st = .resyncing
  · rw [if_pos (show (modCopy w b (afterSerial n) s).pair.st = .resyncing from hst), if_pos hst, flowOutAt_modFlowOut, hcopy, Option.map_some, hserial]
  · rw [if_neg (show ¬ (modCopy w b (afterSerial n) s).pair.st = .resyncing from hst), if_neg hst, hcopy, ← hserial]

/-- A reported end takes the copy's groups through it, and no flow that is not removed. -/
theorem takeGroupEnd_ends (hs : isStandby s = true) (hl : cwLive s = true) : (takeGroupEnd w b n s).pair.groupEnds = s.pair.groupEnds.set (2 * w + b.toNat) (max n (s.pair.groupEnds.getD (2 * w + b.toNat) n)) ∧
    ∀ x, flowOutAt s w = some x → x.removed = false → ∃ y, flowOutAt (takeGroupEnd w b n s) w = some y ∧ y.cfg = x.cfg ∧ copyAt y (!b) = copyAt x (!b) ∧
      (copyAt y b).groups = (copyAt x b).groups.filter (fun g => decide (n < g.serial)) ∧ (copyAt y b).held = (copyAt x b).held.filter (fun g => decide (n < g.serial)) ∧
      y.nextSerial = (if s.pair.st = .resyncing then max x.nextSerial (n + 1) else x.nextSerial) := by
  have hsettled := besideResets_settleAllSlices (reapFlows (groupsEnded w b n (groupEndKnown w b n s)))
  rw [takeGroupEnd_reached hs hl]
  refine ⟨(groupEnds_of_besideResets hsettled).trans (groupEnds_groupsEnded ..), fun x hx hr => ?_⟩
  have hflow := flow_groupsEnded (s := groupEndKnown w b n s) (b := b) (n := n) hx
  refine ⟨_, (congrArg (fun m : Net => m.flowsOut.get? w) (net_of_besideResets hsettled)).trans (flowOutAt_reapFlows hflow ?_), ?_⟩
  · cases b <;> exact hr
  · cases b <;> exact ⟨rfl, rfl, rfl, rfl, rfl⟩

end

/-! YIELD (R402, R406). -/

section
variable {s : State} {claim reason k : Nat} {keyed : Bool}

theorem takeYield_unreached (h : isStandby s = false ∨ cwLive s = false ∨ claim % 128 ≠ 0) : takeYield claim reason keyed k s = s := by
  by_cases hr : isStandby s = false ∨ cwLive s = false
  · exact if_pos (unreached_of hr)
  · have hc : claim % 128 ≠ 0 := by tauto
    refine (if_neg (reached_of (by simpa using fun h => hr (.inl h)) (by simpa using fun h => hr (.inr h)))).trans ?_
    rw [claimDiscarded, if_pos hc]

theorem takeYield_stale (hs : isStandby s = true) (hl : cwLive s = true) (hc : claim % 128 = 0) (hst : s.pair.st ≠ .forming) (hnew : newerClaim s.pair.claim.toNat claim = true) :
    takeYield claim reason keyed k s = { s with net.cw.staleFrames := inc32 s.net.cw.staleFrames } := by
  refine (if_neg (reached_of hs hl)).trans ?_
  rw [claimDiscarded, if_neg (not_not.mpr hc), if_pos (by simp [hst, hnew])]

/-- The partner's yield is known. -/
def yieldKnown (reason : Nat) (keyed : Bool) (k : Nat) (s : State) : State := { s with pair.partnerYield := some { reason := reason, keyed := keyed, swapTide := k } }

theorem takeYield_taken (hs : isStandby s = true) (hl : cwLive s = true) (hc : claim % 128 = 0) (h : s.pair.st = .forming ∨ newerClaim s.pair.claim.toNat claim = false) :
    takeYield claim reason keyed k s = if s.pair.st == .synced || (s.pair.st == .mixed && keyed) then tryAssert { yieldKnown reason keyed k s with pair.claimWait := some s.now } else yieldKnown reason keyed k s := by
  refine (if_neg (reached_of hs hl)).trans ?_
  rw [claimDiscarded, if_neg (not_not.mpr hc), if_neg (by obtain h | h := h <;> simp [h])]
  rfl

theorem driveClaim_keeps (low : Bool) (s : State) : (driveClaim low s).pair = { s.pair with claimOutLow := low } ∧ (driveClaim low s).chans = s.chans ∧ (driveClaim low s).net = s.net := by
  unfold driveClaim
  split
  · next h =>
    obtain rfl := beq_iff_eq.mp h
    exact ⟨rfl, rfl, rfl⟩
  · exact ⟨rfl, rfl, rfl⟩

/-- The keeper's assertion leaves the wait, the yield, the role, the channels and the network. -/
theorem tryAssert_keeps (s : State) : (tryAssert s).pair.partnerYield = s.pair.partnerYield ∧ (tryAssert s).pair.claimWait = s.pair.claimWait ∧ (tryAssert s).pair.role = s.pair.role ∧
    (tryAssert s).chans = s.chans ∧ (tryAssert s).net = s.net := by
  unfold tryAssert
  split
  · obtain ⟨hpair, hchans, hnet⟩ := driveClaim_keeps true { s with pair.keeper := .asserting, pair.assertStart := s.now }
    rw [hpair, hchans, hnet]
    exact ⟨rfl, rfl, rfl, rfl, rfl⟩
  · exact ⟨rfl, rfl, rfl, rfl, rfl⟩

theorem takeYield_yields (hs : isStandby s = true) (hl : cwLive s = true) (hc : claim % 128 = 0) (h : s.pair.st = .forming ∨ newerClaim s.pair.claim.toNat claim = false) :
    (takeYield claim reason keyed k s).pair.partnerYield = some { reason := reason, keyed := keyed, swapTide := k } ∧
      (takeYield claim reason keyed k s).pair.claimWait = (if s.pair.st = .synced ∨ (s.pair.st = .mixed ∧ keyed = true) then some s.now else s.pair.claimWait) ∧
      (takeYield claim reason keyed k s).pair.role = s.pair.role ∧ (takeYield claim reason keyed k s).chans = s.chans ∧ (takeYield claim reason keyed k s).net = s.net := by
  rw [takeYield_taken hs hl hc h]
  by_cases hw : s.pair.st = .synced ∨ (s.pair.st = .mixed ∧ keyed = true)
  · obtain ⟨hyield, hwait, hrole, hchans, hnet⟩ := tryAssert_keeps { yieldKnown reason keyed k s with pair.claimWait := some s.now }
    rw [if_pos (by simpa using hw), if_pos hw]
    exact ⟨hyield, hwait, hrole, hchans, hnet⟩
  · rw [if_neg (by simpa using hw), if_neg hw]
    exact ⟨rfl, rfl, rfl, rfl, rfl⟩

end

/-! BULK (R393, R412). -/

section
variable {s : State} {p : BulkPart}

theorem takeBulk_ignored (h : isStandby s = false ∨ cwLive s = false ∨ (p.kind ≠ 0 ∧ p.kind ≠ 2)) : takeBulk p s = s := by
  by_cases hr : isStandby s = false ∨ cwLive s = false
  · exact if_pos (unreached_of hr)
  · obtain ⟨h0, h2⟩ : p.kind ≠ 0 ∧ p.kind ≠ 2 := by tauto
    exact (if_neg (reached_of (by simpa using fun h => hr (.inl h)) (by simpa using fun h => hr (.inr h)))).trans ((if_neg h0).trans (if_neg h2))

theorem takeBulk_surface (hs : isStandby s = true) (hl : cwLive s = true) (h0 : p.kind = 0) (hst : s.pair.st ≠ .resyncing) :
    takeBulk p s = modSurf s p.object (fun x => if p.buffer < x.buffers then writeBuffer x p.buffer p.offset p.data else x) :=
  (if_neg (reached_of hs hl)).trans ((if_pos h0).trans (if_neg hst))

theorem takeBulk_publishes (hs : isStandby s = true) (hl : cwLive s = true) (h0 : p.kind = 0) (hst : s.pair.st = .resyncing) :
    takeBulk p s = modSurf (modSurf s p.object (fun x => if p.buffer < x.buffers then writeBuffer x p.buffer p.offset p.data else x)) p.object (fun x =>
      if p.offset + p.data.length = p.length ∧ p.length = bufferSize x.format x.width x.height then { x with pubs := [{ buffer := p.buffer, flip := s.time.local', contentNs := 0 }] } else x) :=
  (if_neg (reached_of hs hl)).trans ((if_pos h0).trans (if_pos hst))

theorem takeBulk_rcState (hs : isStandby s = true) (hl : cwLive s = true) (h2 : p.kind = 2) :
    takeBulk p s = { s with pair.rcStates := s.pair.rcStates.set p.object ((s.pair.rcStates.getD p.object []).take p.offset ++ p.data) } :=
  (if_neg (reached_of hs hl)).trans ((if_neg (by omega)).trans (if_pos h2))

end

/-! TIME (R392, R395). -/

section
variable {s : State} {x : Nat} {t1 t2 t3 t4 : Instant}

theorem takeTime_answers (hl : cwLive s = true) (hh : isHolder s = true) :
    takeTime (.request x t1 t2) s = cwSend 0x0C (le 1 1 ++ le 1 x ++ zeros 2 ++ stampBytes t1 ++ stampBytes t2 ++ stampBytes s.time.local') s :=
  (if_neg (by rw [hl]; decide)).trans (if_pos hh)

theorem takeTime_unasked (h : cwLive s = false ∨ isHolder s = false) : takeTime (.request x t1 t2) s = s := by
  by_cases hl : cwLive s = true
  · exact (if_neg (by rw [hl]; decide)).trans (if_neg (by simpa [hl] using h))
  · exact if_pos (by simpa using hl)

theorem takeTime_foreign (h : cwLive s = false ∨ isStandby s = false ∨ x ≠ s.pair.exchange ∨ s.pair.exchangeT1 = none) : takeTime (.response x t1 t2 t3 t4) s = s := by
  by_cases hl : cwLive s = true
  · refine (if_neg (by rw [hl]; decide)).trans (if_pos ?_)
    simp only [hl, Bool.true_eq_false, false_or] at h
    simpa [or_assoc] using h
  · exact if_pos (by simpa using hl)

theorem takeTime_own (hl : cwLive s = true) (hs : isStandby s = true) (hx : x = s.pair.exchange) (ht : s.pair.exchangeT1.isSome = true) {d : Int} (hd : d = (((t2 : Int) - t1) - ((t4 : Int) - t3)) / 2) :
    takeTime (.response x t1 t2 t3 t4) s =
      if s.pair.stepPending then setClock (((s.time.local' : Int) + d) % (clockModulus : Int)).toNat { s with pair.exchangeT1 := none, pair.clockOffsetNs := (-d).tdiv (nsUnit : Int), pair.stepPending := false, pair.adoptTide := true }
      else { spendFree { s with pair.exchangeT1 := none, pair.clockOffsetNs := (-d).tdiv (nsUnit : Int) } with time.addend := freeAddend s } := by
  subst hd
  have hnone : s.pair.exchangeT1.isNone = false := by simpa using ht
  exact (if_neg (by rw [hl]; decide)).trans (if_neg (by simp [hs, hx, hnone]))

end

/-! SHED, and the wait for an answer (R411). -/

section
variable {s : State} {f : ShedFrame} {k n j : Nat} {u : Bool}

/-- A proposed change comes too late for some channel that codes. -/
def shedLate (f : ShedFrame) (s : State) : Bool := f.entries.any (fun e => (chanAt s e.1).elim false (fun c => coding c && decide (e.2 < c.run.nextPic)))

theorem shedRx_alone (h : pairOn s = false) : shedRx f s = s := if_pos (by rw [h]; rfl)

theorem shedRx_proposal (hp : pairOn s = true) (h0 : f.kind = 0) : shedRx f s =
    if s.pair.st != .synced || shedLate f s || (isHolder s && s.pair.shedWait.isSome) then cwSend 0x0D (shedBytes 2 f.step f.undo f.serial []) s
    else cwSend 0x0D (shedBytes 1 f.step f.undo f.serial []) (agreeStep f.undo f.step f.entries (endProposal s)) :=
  (if_neg (by rw [hp]; decide)).trans (if_pos h0)

theorem shedRx_refuses (hp : pairOn s = true) (h0 : f.kind = 0) (h : s.pair.st ≠ .synced ∨ shedLate f s = true ∨ (isHolder s = true ∧ s.pair.shedWait.isSome = true)) :
    shedRx f s = cwSend 0x0D (shedBytes 2 f.step f.undo f.serial []) s :=
  (shedRx_proposal hp h0).trans (if_pos (by simpa [or_assoc] using h))

theorem shedRx_agrees (hp : pairOn s = true) (h0 : f.kind = 0) (hst : s.pair.st = .synced) (hl : shedLate f s = false) (hw : isHolder s = false ∨ s.pair.shedWait = none) :
    shedRx f s = cwSend 0x0D (shedBytes 1 f.step f.undo f.serial []) (agreeStep f.undo f.step f.entries (endProposal s)) := by
  refine (shedRx_proposal hp h0).trans (if_neg ?_)
  obtain hw | hw := hw <;> simp [hst, hl, hw]

theorem shedRx_unawaited (hp : pairOn s = true) (h0 : f.kind ≠ 0) (hw : s.pair.shedWait = none) : shedRx f s = s := by
  refine (if_neg (by rw [hp]; decide)).trans ((if_neg h0).trans ?_)
  rw [hw]

theorem shedRx_answer (hp : pairOn s = true) (h0 : f.kind ≠ 0) (hw : s.pair.shedWait = some (k, u, n, j)) :
    shedRx f s = if n ≠ f.serial then s else if f.kind = 1 then agreeStep u k s.pair.shedPlan (endProposal s) else stepAlone u k s := by
  refine (if_neg (by rw [hp]; decide)).trans ((if_neg h0).trans ?_)
  rw [hw]

theorem shedAckTimeout_unawaited (hw : s.pair.shedWait = none) : shedAckTimeout s = s := by
  unfold shedAckTimeout
  rw [hw]

theorem shedAckTimeout_waiting (hw : s.pair.shedWait = some (k, u, n, j)) : shedAckTimeout s = if j + 2 ≤ s.time.tide then stepAlone u k s else s := by
  unfold shedAckTimeout
  rw [hw]

end

/-! Acknowledgement, resending and frames that are discarded (R316, R394, R395, R402). -/

section
variable {s : State} {q i : Nat} {f : CwFrame} {r : List CwFrame}

theorem cwAck_unknown (h : s.net.cw.unacked.findIdx? (fun f => f.seq == q) = none) : cwAck q s = s := by
  unfold cwAck
  rw [h]

theorem cwAck_known (h : s.net.cw.unacked.findIdx? (fun f => f.seq == q) = some i) : cwAck q s = { s with net.cw.unacked := s.net.cw.unacked.drop (i + 1) } := by
  unfold cwAck
  rw [h]

theorem cwNak_unknown (h : s.net.cw.unacked.findIdx? (fun f => f.seq == q) = none) : cwNak q s = s := by
  unfold cwNak
  rw [h]

theorem cwNak_known (h : s.net.cw.unacked.findIdx? (fun f => f.seq == q) = some i) : cwNak q s = cwResend { s with net.cw.unacked := s.net.cw.unacked.drop i } := by
  unfold cwNak
  rw [h]

/-- The network and the channels. -/
def netAndChans (s : State) : Net × FMap Chan := (s.net, s.chans)

theorem netAndChans_cwEmit (f : CwFrame) (s : State) : netAndChans (cwEmit f s) = netAndChans s := by
  unfold cwEmit
  split <;> rfl

theorem netAndChans_of_ends {t : State} (h : Ends s t) : netAndChans t = netAndChans s := (congrArg netAndChans h.rest :)

/-- Every frame that waits is sent anew. -/
def resent (s : State) : State :=
  { s with net.cw := { s.net.cw with unacked := s.net.cw.unacked.map (fun f => { f with sent := s.now }), resends := (s.net.cw.resends + s.net.cw.unacked.length) % 2 ^ 32 } }

theorem cwResend_idle (h : cwLive s = false ∨ s.net.cw.unacked = []) : cwResend s = s := by
  refine if_pos ?_
  obtain h | h := h <;> simp [h]

/-- Resending leaves the network but for the frames' instants and their count. -/
theorem cwResend_resends (hl : cwLive s = true) (hne : s.net.cw.unacked ≠ []) : netAndChans (cwResend s) = netAndChans (resent s) := by
  have hsent : netAndChans (s.net.cw.unacked.foldl (fun s f => cwEmit f s) (resent s)) = netAndChans (resent s) := foldl_view (fun s f => netAndChans_cwEmit f s) _ _
  unfold cwResend
  rw [if_neg (by simp [hl, hne])]
  dsimp only
  split
  · refine Eq.trans ?_ hsent
    exact (netAndChans_of_ends (completeCmd_ends ..)).trans rfl
  · exact hsent

theorem cwResend_live (hl : cwLive s = true) (hne : s.net.cw.unacked ≠ []) : (cwResend s).net.cw.unacked = s.net.cw.unacked.map (fun f => { f with sent := s.now }) ∧
    (cwResend s).net.cw.resends = (s.net.cw.resends + s.net.cw.unacked.length) % 2 ^ 32 ∧ (cwResend s).net.cw.txSeq = s.net.cw.txSeq ∧ (cwResend s).chans = s.chans := by
  have hkept := cwResend_resends hl hne
  have hnet : (cwResend s).net = (resent s).net := congrArg Prod.fst hkept
  have hchans : (cwResend s).chans = (resent s).chans := congrArg Prod.snd hkept
  rw [hnet, hchans]
  exact ⟨rfl, rfl, rfl, rfl⟩

theorem cwTimeout_still (h : s.net.cw.unacked = [] ∨ cwLive s = false ∨ ∃ f r, s.net.cw.unacked = f :: r ∧ s.now < f.sent + ticksUs 2) : cwTimeout s = s := by
  unfold cwTimeout
  cases hu : s.net.cw.unacked with
  | nil => rfl
  | cons f r =>
    obtain h | h | ⟨g, l, h, hlt⟩ := h
    · rw [hu] at h
      cases h
    · dsimp only
      rw [cwResend_idle (.inl h)]
      exact ite_self s
    · obtain ⟨rfl, rfl⟩ := List.cons.inj (hu.symm.trans h)
      exact if_neg (Nat.not_le.mpr hlt)

theorem cwTimeout_due (hu : s.net.cw.unacked = f :: r) (hdue : f.sent + ticksUs 2 ≤ s.now) : cwTimeout s = cwResend s := by
  unfold cwTimeout
  rw [hu]
  exact if_pos hdue

theorem badFrame_reached (hl : cwLive s = true) : (∀ q, badFrame (.crc q) s = emit s (.causewayNak (q % 65536))) ∧ badFrame .unknownType s = { s with net.cw.badFrames := inc32 s.net.cw.badFrames } ∧
    badFrame .badLength s = { s with net.cw.badFrames := inc32 s.net.cw.badFrames } ∧
    (∀ c, badFrame (.staleClaim c) s = if newerClaim s.pair.claim.toNat c.toNat then { s with net.cw.staleFrames := inc32 s.net.cw.staleFrames } else s) ∧ badFrame .nonzeroReserve s = s := by
  have hreached : ¬ (!(cwLive s)) = true := by rw [hl]; decide
  exact ⟨fun q => if_neg hreached, if_neg hreached, if_neg hreached, fun c => if_neg hreached, if_neg hreached⟩

theorem badFrame_unreached {r : BadFrame} (hl : cwLive s = false) : badFrame r s = s := if_pos (by rw [hl]; rfl)

end

/-- Settles O34, frame by frame. -/
theorem causewayFramesAreTaken : Obligations.CausewayFramesAreTaken := by
  unfold Obligations.CausewayFramesAreTaken
  refine ⟨?input, ?tref, ?request, ?repair, ?groupEnd, ?yield, ?bulk, ?ask, ?answer, ?shed, ?shedTimeout, ?ack, ?timeout, ?bad⟩
  case input =>
    intro e s ha
    have hexec : exec (.input e) s = .next (takeInput e s) := congrArg Host.Outcome.next (act_acting _ ha)
    rw [hexec]
    refine ⟨fun h => congrArg Host.Outcome.next (takeInput_unreached h), fun hs hl => ⟨fun ht hd => congrArg Host.Outcome.next (takeInput_kept hs hl ht hd), ?_, ?_, ?_, ?_⟩⟩
    · rintro c n t rfl
      exact congrArg Host.Outcome.next (takeInput_ownTref hs hl)
    · rintro d n x y rfl hj
      exact congrArg Host.Outcome.next ((takeInput_decStamp hs hl).trans (if_neg (ne_true_of_eq_false hj)))
    · rintro d n x y rfl
      exact ⟨_, rfl, takeInput_decStamp_keeps hs hl⟩
    · rintro d n x y z rfl hj hz haus hpart
      exact ⟨_, rfl, takeInput_decStamp_joins hs hl hj hz haus hpart⟩
  case tref =>
    intro c n t s ha hs hl
    have hexec : exec (.input (.tref c false n t)) s = .next (takeInput (.tref c false n t) s) := congrArg Host.Outcome.next (act_acting _ ha)
    rw [hexec]
    refine ⟨fun h => congrArg Host.Outcome.next (takeInput_trefUnused hs hl h), ?_⟩
    rintro x g z hx hg rfl
    have htaken := takeInput_tref (n := n) (t := t) hs hl hx hg
    exact ⟨fun hk hc hn => congrArg Host.Outcome.next (htaken.trans (if_pos ⟨hk, hc, hn⟩)), fun h => congrArg Host.Outcome.next (htaken.trans (if_neg h))⟩
  case request =>
    intro r s ha
    have hexec : exec (.repairReq r) s = .next (if pairOn s then answerRepair r s else s) := congrArg Host.Outcome.next (act_acting _ ha)
    rw [hexec]
    refine ⟨fun h => congrArg Host.Outcome.next (if_neg (ne_true_of_eq_false h)), fun hp h => congrArg Host.Outcome.next ((if_pos hp).trans (answerRepair_miss h)),
      fun p hp hpic hf hb hd hlen => congrArg Host.Outcome.next ((if_pos hp).trans (answerRepair_whole hpic hf hb hd hlen)), fun hp => ⟨_, congrArg Host.Outcome.next (if_pos hp), ?_⟩⟩
    have hkept := beyondFrames_answerRepair r s
    exact ⟨congrArg Prod.fst hkept, congrArg (fun v => v.2.1) hkept, congrArg (fun v => v.2.2) hkept⟩
  case repair =>
    rintro dt r held offset total data s got ha rfl
    have hexec : exec (.repairData dt r held offset total data) s = .next (takeRepair r held offset total data (advance dt s)) := congrArg Host.Outcome.next (actAfter_acting dt _ ha)
    rw [hexec]
    refine ⟨fun h => congrArg Host.Outcome.next (takeRepair_unasked h), fun h => ⟨?_, ?_, ?_, ?_⟩⟩
    · rintro rfl
      exact congrArg Host.Outcome.next (takeRepair_miss (s := advance dt s) h)
    · rintro rfl hlen
      exact congrArg Host.Outcome.next ((takeRepair_held (s := advance dt s) h).trans (if_pos hlen))
    · rintro rfl hlen hpic
      refine congrArg Host.Outcome.next ((takeRepair_held (s := advance dt s) h).trans ((if_neg (Nat.not_lt.mpr hlen)).trans ?_))
      rw [hpic]
      rfl
    · rintro p rfl hlen hpic
      have htaken := (takeRepair_held (s := advance dt s) (data := data) h).trans (if_neg (Nat.not_lt.mpr hlen))
      rw [hpic] at htaken
      rw [htaken]
      refine ⟨_, rfl, ?_⟩
      rw [pair_modPics, srcPics_modPics _ _ rfl]
      exact ⟨rfl, rfl, rfl, fun y hy hk => lineRepaired_done hy hk⟩
  case groupEnd =>
    intro w b n s ha
    have hexec : exec (.groupEnd w b n) s = .next (takeGroupEnd w.val b n s) := congrArg Host.Outcome.next (act_acting _ ha)
    rw [hexec]
    exact ⟨fun h => congrArg Host.Outcome.next (takeGroupEnd_unreached h), fun hs hl => ⟨_, rfl, takeGroupEnd_ends hs hl⟩⟩
  case yield =>
    intro dt claim reason keyed k s ha
    have hexec : exec (.yield dt claim reason keyed k) s = .next (takeYield claim.toNat reason keyed k (advance dt s)) := congrArg Host.Outcome.next (actAfter_acting dt _ ha)
    rw [hexec]
    exact ⟨fun h => congrArg Host.Outcome.next (takeYield_unreached (s := advance dt s) h), fun hs hl hc hst hnew => congrArg Host.Outcome.next (takeYield_stale (s := advance dt s) hs hl hc hst hnew),
      fun hs hl hc h => ⟨_, rfl, takeYield_yields (s := advance dt s) hs hl hc h⟩⟩
  case bulk =>
    intro p s ha
    have hexec : exec (.bulk p) s = .next (takeBulk p s) := congrArg Host.Outcome.next (act_acting _ ha)
    rw [hexec]
    exact ⟨fun h => congrArg Host.Outcome.next (takeBulk_ignored h),
      fun hs hl h0 => ⟨fun hst => congrArg Host.Outcome.next (takeBulk_surface hs hl h0 hst), fun hst => congrArg Host.Outcome.next (takeBulk_publishes hs hl h0 hst)⟩,
      fun hs hl h2 => congrArg Host.Outcome.next (takeBulk_rcState hs hl h2)⟩
  case ask =>
    intro x t1 t2 s ha
    have hexec : exec (.time (.request x t1 t2)) s = .next (takeTime (.request x t1 t2) s) := congrArg Host.Outcome.next (act_acting _ ha)
    rw [hexec]
    exact ⟨fun hl hh => congrArg Host.Outcome.next (takeTime_answers hl hh), fun h => congrArg Host.Outcome.next (takeTime_unasked h)⟩
  case answer =>
    intro x t1 t2 t3 t4 s d ha hd
    have hexec : exec (.time (.response x t1 t2 t3 t4)) s = .next (takeTime (.response x t1 t2 t3 t4) s) := congrArg Host.Outcome.next (act_acting _ ha)
    rw [hexec]
    refine ⟨fun h => congrArg Host.Outcome.next (takeTime_foreign h), fun hl hs hx ht => ?_⟩
    rw [takeTime_own hl hs hx ht hd]
    exact ⟨fun hstep => ⟨_, congrArg Host.Outcome.next (if_neg (ne_true_of_eq_false hstep)), rfl, rfl, rfl⟩, fun hstep => congrArg Host.Outcome.next (if_pos hstep)⟩
  case shed =>
    intro f s ha
    have hexec : exec (.shed f) s = .next (shedRx f s) := congrArg Host.Outcome.next (act_acting _ ha)
    rw [hexec]
    refine ⟨fun h => congrArg Host.Outcome.next (shedRx_alone h),
      fun hp h0 => ⟨fun h => congrArg Host.Outcome.next (shedRx_refuses hp h0 h), fun hst hl hw => congrArg Host.Outcome.next (shedRx_agrees hp h0 hst hl hw)⟩,
      fun hp h0 => ⟨fun hw => congrArg Host.Outcome.next (shedRx_unawaited hp h0 hw), fun k u n j hw => ?_⟩⟩
    rw [shedRx_answer hp h0 hw]
    exact ⟨fun hn => congrArg Host.Outcome.next (if_pos hn), fun hn h1 => congrArg Host.Outcome.next ((if_neg (not_not.mpr hn)).trans (if_pos h1)),
      fun hn h1 => congrArg Host.Outcome.next ((if_neg (not_not.mpr hn)).trans (if_neg h1))⟩
  case shedTimeout =>
    intro dt s ha
    have hexec : exec (.shedAckTimeout dt) s = .next (shedAckTimeout (advance dt s)) := congrArg Host.Outcome.next (actAfter_acting dt _ ha)
    rw [hexec]
    refine ⟨fun hw => congrArg Host.Outcome.next (shedAckTimeout_unawaited (s := advance dt s) hw), fun k u n j hw => ?_⟩
    rw [shedAckTimeout_waiting (s := advance dt s) hw]
    exact ⟨fun h => congrArg Host.Outcome.next (if_pos h), fun h => congrArg Host.Outcome.next (if_neg (Nat.not_le.mpr h))⟩
  case ack =>
    intro q s ha
    have hack : exec (.acknowledgement q) s = .next (cwAck q.toNat s) := congrArg Host.Outcome.next (act_acting _ ha)
    have hnak : exec (.negativeAcknowledgement q) s = .next (cwNak q.toNat s) := congrArg Host.Outcome.next (act_acting _ ha)
    rw [hack, hnak]
    refine ⟨fun h => ⟨congrArg Host.Outcome.next (cwAck_unknown h), congrArg Host.Outcome.next (cwNak_unknown h)⟩, fun i h => ⟨congrArg Host.Outcome.next (cwAck_known h), fun hl => ?_, fun hl => ?_⟩⟩
    · exact congrArg Host.Outcome.next ((cwNak_known h).trans (cwResend_idle (.inl hl)))
    · have hlt : i < s.net.cw.unacked.length := (List.findIdx?_eq_some_iff_getElem.mp h).1
      have hrest : s.net.cw.unacked.drop i ≠ [] := by simpa using hlt
      obtain ⟨hunacked, hresends, hseq, -⟩ := cwResend_live (s := { s with net.cw.unacked := s.net.cw.unacked.drop i }) hl hrest
      rw [List.length_drop] at hresends
      exact ⟨_, congrArg Host.Outcome.next (cwNak_known h), hunacked, hresends, hseq⟩
  case timeout =>
    intro dt s ha
    have hexec : exec (.resendTimeout dt) s = .next (cwTimeout (advance dt s)) := congrArg Host.Outcome.next (actAfter_acting dt _ ha)
    rw [hexec]
    refine ⟨fun h => congrArg Host.Outcome.next (cwTimeout_still (s := advance dt s) (h.elim (fun h => .inr (.inl h)) .inl)),
      fun f r hu hlt => congrArg Host.Outcome.next (cwTimeout_still (s := advance dt s) (.inr (.inr ⟨f, r, hu, hlt⟩))), fun f r hl hu hdue => ?_⟩
    have hne : s.net.cw.unacked ≠ [] := by
      rw [hu]
      exact List.cons_ne_nil f r
    exact ⟨_, congrArg Host.Outcome.next (cwTimeout_due (s := advance dt s) hu hdue), cwResend_live (s := advance dt s) hl hne⟩
  case bad =>
    intro s r ha
    have hexec : exec (.causewayBadFrame r) s = .next (badFrame r s) := congrArg Host.Outcome.next (act_acting _ ha)
    rw [hexec]
    refine ⟨fun hl => congrArg Host.Outcome.next (badFrame_unreached hl), fun hl => ?_⟩
    obtain ⟨hcrc, htype, hlen, hstale, hreserve⟩ := badFrame_reached hl
    refine ⟨?_, ?_, ?_, ?_, ?_⟩
    · rintro q rfl
      exact congrArg Host.Outcome.next (hcrc q)
    · rintro (rfl | rfl)
      · exact congrArg Host.Outcome.next htype
      · exact congrArg Host.Outcome.next hlen
    · rintro c rfl hnew
      exact congrArg Host.Outcome.next ((hstale c).trans (if_pos hnew))
    · rintro c rfl hnew
      exact congrArg Host.Outcome.next ((hstale c).trans (if_neg (ne_true_of_eq_false hnew)))
    · rintro rfl
      exact congrArg Host.Outcome.next hreserve

end Sys2Proof.CausewayFrames
